-- ==== Sys2Proof/Word.lean ====
section
/-! DEFINITION. Word types of the CH9640 model and the plain-data table that holds sparse state. -/

namespace Sys2Proof

/-- One byte. -/
abbrev Byte := BitVec 8
/-- One word of the control window (R3: every register is 32 bits wide). -/
abbrev Word := BitVec 32
/-- One Yalvo register: 64 bits. -/
abbrev DWord := BitVec 64

/-- Sparse state by key, in one canonical form: keys strictly rising, and no entry equal to what an
unlisted key reads as.  The operations (`tabGet`, `tabSet`, `tabWf`) stand in `Machine/Tab.lean`. -/
abbrev Tab (α : Type) := List (Nat × α)

/-- A byte-addressed memory: `Host.Cell` pairs in the canonical form of `Tab`. -/
abbrev Mem := Tab Byte

/-- The four requesters of the control window (R26). -/
inductive Req where
  | host
  | mc0
  | mc1
  | debug
deriving DecidableEq, Repr

/-- The number of a requester: which copy of a per-requester register it sees (R544). -/
def Req.num : Req → Nat
  | .host => 0
  | .mc0 => 1
  | .mc1 => 2
  | .debug => 3

end Sys2Proof
end

