-- ==== Sys2Proof/Syntax.lean ====
section
/-! DEFINITION. The commands the block takes, one constructor per row of the opcode table, and the operand
types they share. -/

namespace Sys2Proof

/-- What an error check of a memory or a link found when the command used it (R479): good, good on the one
retry or corrected, or lasting. -/
inductive Check where
  | good
  | corrected
  | lasting
deriving DecidableEq, Repr

/-- Who issues a Yalvo instruction: thread `t` of the 512, or sequencer `n` (0 SQA, 1 SQB, 2 SQC, 3 SQP). -/
inductive Issuer where
  | thr (t : Fin 512)
  | seq (n : Fin 4)
deriving DecidableEq, Repr

/-- The issue of one instruction: who issues it, and what the check of its fetched word found (R100). -/
structure Issue where
  who : Issuer
  fetch : Check
deriving DecidableEq, Repr

/-- A received Wi-Fi frame with valid FCS, as the MAC sees it (R190, R205): what its header says, and the bytes the
cipher works on.  `head` is the header the parser is shown (the Ethernet header of a data MSDU, the 802.11 header of a
management frame), `text` what follows it on air, encrypted when `prot`. -/
structure AirFrame where
  radio : Fin 3
  /-- format of its PPDU (R200): 0 DSSS or CCK, 1 non-HT, 2 HT, 3 VHT, 4 HE, 5 EHT -/
  fmt : Fin 6
  sta : BitVec 11
  tid : Fin 8
  sn : BitVec 12
  stamp : BitVec 64
  rssi : BitVec 8
  /-- carries an MSDU -/
  data : Bool
  mgmt : Bool
  psPoll : Bool
  /-- a QoS frame, so that it can trigger delivery -/
  qos : Bool
  pm : Bool
  /-- it solicits an acknowledgement -/
  ack : Bool
  /-- Operating Mode control: UL MU Disable, channel width code (as CHAN.BW) and spatial streams less one -/
  om : Option (Bool × Fin 5 × Fin 8)
  /-- buffer report of the TID, bytes -/
  bsr : Option (BitVec 32)
  prot : Bool
  gcm : Bool
  pn : BitVec 48
  nonce : List Byte
  aad : List Byte
  head : List Byte
  text : List Byte
  tag : List Byte
deriving DecidableEq, Repr

/-- What SEC-DED found in a line of DRAM (R387): good, a single bit corrected, uncorrectable but good on the one retry,
or lasting. -/
inductive Ecc where
  | good
  | single
  | retry
  | lasting
deriving DecidableEq, Repr

/-- A request as it reaches a port of the DRAM controller (R378): its XM address, whether it writes, whether it writes
fewer than 8 bytes of a word, whether it is a speculative read, and whether its class queue is full as it arrives, whose
depth the spec does not give (R385). -/
structure DramReq where
  port : Fin 8
  addr : BitVec 40
  write : Bool
  part : Bool
  spec : Bool
  full : Bool := false
deriving DecidableEq, Repr

/-- A submission-queue descriptor as the device fetched it (R419).  KIND is the command's own, but KIND 3 in `ctl` is a
descriptor of no kind. -/
structure SqDesc where
  ctl : BitVec 32
  len : BitVec 32
  seq : BitVec 16
  tag : BitVec 16
  zero1 : BitVec 32
  addr : BitVec 64
  zero2 : BitVec 64
deriving DecidableEq, Repr

/-- What BUILD is told of one station of the window set, in order: how many MPDUs fit the limits of R169, the positions, from
0 in the order of taking, of those whose buffer reads fail (R171). -/
structure Fit where
  mpdus : Nat
  lost : List Nat
deriving DecidableEq, Repr


/-- A Pip frame on air (R238, R239, R243, R244): its qualification stamp, the rate and repetition it is sent with, how many
line bits of its preamble and sync word matched, and its fields; CTR and MIC count only when SEC is 1. -/
structure PipFrame where
  stamp : BitVec 64
  rate : Fin 3
  rep : Fin 4
  matched : BitVec 6
  rssi : BitVec 8
  /-- its peak overloaded the receiver (R240) -/
  sat : Bool
  fc : BitVec 16
  netid : BitVec 16
  addr : BitVec 32
  ctr : BitVec 32
  body : List Byte
  mic : BitVec 32
  /-- CRC-16 as received -/
  crc : BitVec 16
deriving DecidableEq, Repr

/-- A fabric message as it stands in a slot's control buffer (R431): its header fields, payload and check value.  LEN is the
length of `payload`; EPOCH and TBN are the sender's. -/
structure FedMsg where
  ver : BitVec 8
  type : BitVec 8
  flags : BitVec 8
  hops : BitVec 8
  src : BitVec 6
  dst : BitVec 8
  seq : BitVec 32
  incarn : BitVec 32
  epoch : BitVec 32
  tbn : BitVec 64
  tc : BitVec 3
  payload : List Byte
  mic : List Byte
deriving DecidableEq, Repr

/-- An edge at a phase input (R120): its TBM instant and how long its level then holds, in ns. -/
structure Edge where
  t : Nat
  held : Nat
deriving DecidableEq, Repr

/-- How a BASE-T link is lost (R289, R292): down, with a fast retrain that its clause completes, or by its coefficient
memory. -/
inductive CuLoss where
  | down
  | fast
  | coef
deriving DecidableEq, Repr

/-- What the air shows a commit: the radios that receive at its instant (R209), and the places of the MPDUs whose bytes the
MAC's buffer lost (R171). -/
structure Medium where
  rx : Nat
  bad : List Nat
deriving DecidableEq, Repr

/-- No answer came: how many MPDUs a trigger solicited (R158), and whether the station sent no CTS to the initial control
frame (R210). -/
structure Silence where
  ulExp : Nat
  noCts : Bool
deriving DecidableEq, Repr

/-- Checks of the reads of a received MPDU's scoreboard entry and link entry, and of the write of its reorder slot (R188,
R198, R235). -/
structure RxMem where
  sb : Check
  lk : Check
  ro : Check
deriving DecidableEq, Repr

/-- Checks that a decryption job meets: of the memory it works on, and of the write of a reorder slot behind it (R192,
R198). -/
structure JobMem where
  mem : Check
  ro : Check
deriving DecidableEq, Repr

/-- A received code frame of 2,560 bits, the 1,664 bits a decoder finds when it is no codeword (R279), and the check of the
coefficient memory that its reception met (R292). -/
structure Codeword where
  line : List Bool
  dec : List Bool
  coef : Check
deriving DecidableEq, Repr

/-- What the world outside the registers answers a write that starts something: whether calibration passes (`MXn.CTL.EN`,
`PIP.CTL.EN`, `CUn.CTL.MODE`) or a flash sector copies (`EPT.JRN_CTL.COMPACT`), the outcome of the Acorn write it makes (0
good, 1 good on retry, 2 failed twice), and the endpoint entries whose write-back fails at `EPT.CTL.FLUSH`. -/
structure Ext where
  ok : Bool
  bad : Fin 3
  stuck : List Nat
deriving DecidableEq, Repr


/-- The commands of the block: one constructor per row of the opcode table. -/
inductive Instr where
  /-- REGISTER_WRITE (R4). A write to a register that has no row of its own sets its rw, w1c, w1s, wo or rwl fields under the access codes. -/
  | registerWrite (who : Fin 4) (addr : BitVec 26) (en : BitVec 4) (v : Word) (x : Ext)
  /-- RC_READ (R6). A read of an rc register returns its value and clears it, unless the requester's TOP.PEEK.EN is 1. -/
  | rcRead (who : Fin 4) (addr : BitVec 26) (en : BitVec 4)
  /-- WIDE_READ_CAPTURE (R8). A read of the lowest word of a wide register captures the whole value into that requester's capture. -/
  | wideReadCapture (who : Fin 4) (addr : BitVec 26)
  /-- WIDE_WRITE_COMMIT (R8). A write of the highest word of a wide register applies it together with that requester's staged lower words. -/
  | wideWriteCommit (who : Fin 4) (addr : BitVec 26) (v : Word) (x : Ext)
  /-- TRIM_WINDOW_WRITE (R9). A firmware write to a calibration trim window is ignored and counted. -/
  | trimWindowWrite (who : Fin 4)
  /-- ACCESS_NO_REGISTER (R541). An access that finds no register reads 0, ignores its write, counts in TOP.BADACC and raises source 638. -/
  | accessNoRegister (who : Fin 4) (addr : BitVec 26) (write cross : Bool)
  /-- EGTS_POP (R133). A read of the low word of TIME.EGTS pops the oldest egress timestamp entry and captures it. -/
  | egtsPop (who : Fin 4) (c : Fin 2)
  /-- DET_EVT_POP (R234). A read of the low word of RFB.DET_EVT pops the oldest radar event and captures it. -/
  | detEvtPop (who : Fin 4)
  /-- MODE_REQUEST (R21). A write of GO to TOP.MODE_REQ files TARGET, which is refused, completed at once, started or placed in the pending slot. -/
  | modeRequest (who : Fin 4) (v : Word)
  /-- ADD (R63). gd := ga + gb. -/
  | add (iss : Issue) (gd ga gb : BitVec 5)
  /-- SUB (R63). gd := ga - gb. -/
  | sub (iss : Issue) (gd ga gb : BitVec 5)
  /-- AND (R63). gd := ga AND gb. -/
  | and (iss : Issue) (gd ga gb : BitVec 5)
  /-- OR (R63). gd := ga OR gb. -/
  | or (iss : Issue) (gd ga gb : BitVec 5)
  /-- XOR (R63). gd := ga XOR gb. -/
  | xor (iss : Issue) (gd ga gb : BitVec 5)
  /-- ANDN (R63). gd := ga AND NOT gb. -/
  | andn (iss : Issue) (gd ga gb : BitVec 5)
  /-- SLL (R63). gd := ga shifted left by gb[5:0]. -/
  | sll (iss : Issue) (gd ga gb : BitVec 5)
  /-- SRL (R63). gd := ga shifted right logically by gb[5:0]. -/
  | srl (iss : Issue) (gd ga gb : BitVec 5)
  /-- SRA (R63). gd := ga shifted right arithmetically by gb[5:0]. -/
  | sra (iss : Issue) (gd ga gb : BitVec 5)
  /-- MUL (R63). gd := low 64 bits of ga times gb. -/
  | mul (iss : Issue) (gd ga gb : BitVec 5)
  /-- MULHU (R63). gd := high 64 bits of the unsigned product. -/
  | mulhu (iss : Issue) (gd ga gb : BitVec 5)
  /-- DIVU (R63). Unsigned division, all ones on divide by zero. -/
  | divu (iss : Issue) (gd ga gb : BitVec 5)
  /-- REMU (R63). Unsigned remainder, ga on divide by zero. -/
  | remu (iss : Issue) (gd ga gb : BitVec 5)
  /-- DIV (R63). Signed division with the defined zero and overflow results. -/
  | div (iss : Issue) (gd ga gb : BitVec 5)
  /-- REM (R63). Signed remainder with the sign of ga and the defined special results. -/
  | rem (iss : Issue) (gd ga gb : BitVec 5)
  /-- MIN (R63). Signed minimum of ga and gb. -/
  | min (iss : Issue) (gd ga gb : BitVec 5)
  /-- MAX (R63). Signed maximum of ga and gb. -/
  | max (iss : Issue) (gd ga gb : BitVec 5)
  /-- MINU (R63). Unsigned minimum of ga and gb. -/
  | minu (iss : Issue) (gd ga gb : BitVec 5)
  /-- MAXU (R63). Unsigned maximum of ga and gb. -/
  | maxu (iss : Issue) (gd ga gb : BitVec 5)
  /-- CEQ (R63). gd := 1 if ga equals gb, else 0. -/
  | ceq (iss : Issue) (gd ga gb : BitVec 5)
  /-- CNE (R63). gd := 1 if ga differs from gb, else 0. -/
  | cne (iss : Issue) (gd ga gb : BitVec 5)
  /-- CLT (R63). gd := 1 if ga < gb signed. -/
  | clt (iss : Issue) (gd ga gb : BitVec 5)
  /-- CLTU (R63). gd := 1 if ga < gb unsigned. -/
  | cltu (iss : Issue) (gd ga gb : BitVec 5)
  /-- CLZ (R63). Leading zero count of ga. -/
  | clz (iss : Issue) (gd ga : BitVec 5)
  /-- CTZ (R63). Trailing zero count of ga. -/
  | ctz (iss : Issue) (gd ga : BitVec 5)
  /-- POPC (R63). Number of 1 bits in ga. -/
  | popc (iss : Issue) (gd ga : BitVec 5)
  /-- BSWAP (R63). ga with its 8 bytes reversed. -/
  | bswap (iss : Issue) (gd ga : BitVec 5)
  /-- BSWAP32 (R63). Zero-extended ga[31:0] with its 4 bytes reversed. -/
  | bswap32 (iss : Issue) (gd ga : BitVec 5)
  /-- CSUM (R63). 16-bit ones'-complement sum of the eight lanes of ga and gb. -/
  | csum (iss : Issue) (gd ga gb : BitVec 5)
  /-- ADDI (R64). gd := ga + sign-extended imm16. -/
  | addi (iss : Issue) (gd ga : BitVec 5) (imm : BitVec 16)
  /-- ANDI (R64). gd := ga AND zero-extended imm16. -/
  | andi (iss : Issue) (gd ga : BitVec 5) (imm : BitVec 16)
  /-- ORI (R64). gd := ga OR zero-extended imm16. -/
  | ori (iss : Issue) (gd ga : BitVec 5) (imm : BitVec 16)
  /-- XORI (R64). gd := ga XOR zero-extended imm16. -/
  | xori (iss : Issue) (gd ga : BitVec 5) (imm : BitVec 16)
  /-- SHI_SLL (R64). Immediate shift left logical. -/
  | shiSll (iss : Issue) (gd ga : BitVec 5) (sh : BitVec 6)
  /-- SHI_SRL (R64). Immediate shift right logical. -/
  | shiSrl (iss : Issue) (gd ga : BitVec 5) (sh : BitVec 6)
  /-- SHI_SRA (R64). Immediate shift right arithmetic. -/
  | shiSra (iss : Issue) (gd ga : BitVec 5) (sh : BitVec 6)
  /-- SHI_ROR (R64). Immediate rotate right. -/
  | shiRor (iss : Issue) (gd ga : BitVec 5) (sh : BitVec 6)
  /-- CEQI (R64). gd := 1 if ga equals the sign-extended immediate. -/
  | ceqi (iss : Issue) (gd ga : BitVec 5) (imm : BitVec 16)
  /-- CLTI (R64). gd := 1 if ga < immediate, signed. -/
  | clti (iss : Issue) (gd ga : BitVec 5) (imm : BitVec 16)
  /-- CLTUI (R64). gd := 1 if ga < immediate, unsigned. -/
  | cltui (iss : Issue) (gd ga : BitVec 5) (imm : BitVec 16)
  /-- LUI (R64). gd := sign-extended imm16 times 65,536. -/
  | lui (iss : Issue) (gd : BitVec 5) (imm : BitVec 16)
  /-- EXT (R64). Extracts a bit field of ga into gd. -/
  | ext (iss : Issue) (gd ga : BitVec 5) (pos w1 : BitVec 6)
  /-- INS (R64). Inserts the low bits of ga into a field of gd. -/
  | ins (iss : Issue) (gd ga : BitVec 5) (pos w1 : BitVec 6)
  /-- MOVK (R64). Writes imm16 into 16-bit lane k of gd, keeping the other bits. -/
  | movk (iss : Issue) (gd : BitVec 5) (k : BitVec 2) (imm : BitVec 16)
  /-- LDB (R66). Loads a byte, zero-extended. -/
  | ldb (iss : Issue) (gd ga : BitVec 5) (sp : Fin 4) (off : BitVec 14) (k : Check)
  /-- LDH (R66). Loads 2 bytes, zero-extended. -/
  | ldh (iss : Issue) (gd ga : BitVec 5) (sp : Fin 4) (off : BitVec 14) (k : Check)
  /-- LDW (R66). Loads 4 bytes, zero-extended. -/
  | ldw (iss : Issue) (gd ga : BitVec 5) (sp : Fin 4) (off : BitVec 14) (k : Check)
  /-- LDD (R66). Loads 8 bytes. -/
  | ldd (iss : Issue) (gd ga : BitVec 5) (sp : Fin 4) (off : BitVec 14) (k : Check)
  /-- LDBS (R66). Loads a byte, sign-extended. -/
  | ldbs (iss : Issue) (gd ga : BitVec 5) (sp : Fin 4) (off : BitVec 14) (k : Check)
  /-- LDHS (R66). Loads 2 bytes, sign-extended. -/
  | ldhs (iss : Issue) (gd ga : BitVec 5) (sp : Fin 4) (off : BitVec 14) (k : Check)
  /-- LDWS (R66). Loads 4 bytes, sign-extended. -/
  | ldws (iss : Issue) (gd ga : BitVec 5) (sp : Fin 4) (off : BitVec 14) (k : Check)
  /-- STB (R66). Stores the low byte of gd, to LM at once or into the store buffer. -/
  | stb (iss : Issue) (gd ga : BitVec 5) (sp : Fin 4) (off : BitVec 14)
  /-- STH (R66). Stores the low 2 bytes of gd. -/
  | sth (iss : Issue) (gd ga : BitVec 5) (sp : Fin 4) (off : BitVec 14)
  /-- STW (R66). Stores the low 4 bytes of gd. -/
  | stw (iss : Issue) (gd ga : BitVec 5) (sp : Fin 4) (off : BitVec 14)
  /-- STD (R66). Stores the 8 bytes of gd. -/
  | std (iss : Issue) (gd ga : BitVec 5) (sp : Fin 4) (off : BitVec 14)
  /-- AADD (R67). Indivisibly adds gd to 8 LM bytes and returns the old value. -/
  | aadd (iss : Issue) (gd ga : BitVec 5) (sp : Fin 4) (off : BitVec 14) (k : Check)
  /-- ASWP (R67). Indivisibly swaps gd with 8 LM bytes. -/
  | aswp (iss : Issue) (gd ga : BitVec 5) (sp : Fin 4) (off : BitVec 14) (k : Check)
  /-- PWL (R68). Loads from the packet window pw. -/
  | pwl (iss : Issue) (gd ga : BitVec 5) (off : BitVec 9) (size : Fin 4) (be sext : Bool)
  /-- PWS (R68). Stores into the packet window pw. -/
  | pws (iss : Issue) (gd ga : BitVec 5) (off : BitVec 9) (size : Fin 4) (be : Bool)
  /-- BZ (R65). Branches if ga is 0. -/
  | bz (iss : Issue) (ga : BitVec 5) (off : BitVec 21)
  /-- BNZ (R65). Branches if ga is not 0. -/
  | bnz (iss : Issue) (ga : BitVec 5) (off : BitVec 21)
  /-- BLTZ (R65). Branches if ga is negative. -/
  | bltz (iss : Issue) (ga : BitVec 5) (off : BitVec 21)
  /-- BGEZ (R65). Branches if ga is not negative. -/
  | bgez (iss : Issue) (ga : BitVec 5) (off : BitVec 21)
  /-- BRA (R65). Branches always. -/
  | bra (iss : Issue) (off : BitVec 21)
  /-- CALL (R65). Saves pc + 4 in the link register and branches. -/
  | call (iss : Issue) (off : BitVec 21)
  /-- JR (R65). Jumps to ga. -/
  | jr (iss : Issue) (ga : BitVec 5)
  /-- JALR (R65). Saves pc + 4 in gd and jumps to ga. -/
  | jalr (iss : Issue) (gd ga : BitVec 5)
  /-- NOP (R65). Does nothing. -/
  | nop (iss : Issue)
  /-- FENCE_D (R36). Holds the thread until its store buffer is empty. -/
  | fenceD (iss : Issue)
  /-- FENCE_X (R37). Invalidates every XM line in the unit's data cache and holds the thread until done. -/
  | fenceX (iss : Issue)
  /-- RDTM (R65). Reads TBM whole nanoseconds into gd. -/
  | rdtm (iss : Issue) (gd : BitVec 5)
  /-- RDID (R65). Reads the global thread or sequencer number into gd. -/
  | rdid (iss : Issue) (gd : BitVec 5)
  /-- STORE_BUFFER_DRAIN (R35). A store leaves the thread's store buffer, updates caches and becomes visible; a waiting FENCE.D or full-buffer store resumes. -/
  | storeBufferDrain (t : Fin 512)
  /-- LKUP (R73). Copies a key from LM and submits an endpoint or route lookup into a named slot. -/
  | lkup (iss : Issue) (ga : BitVec 5) (slot : Fin 4) (table : Fin 7)
  /-- CIPH (R76). Copies a 32-byte job descriptor from LM and queues it to the region's cipher lanes. -/
  | ciph (iss : Issue) (ga : BitVec 5) (slot : Fin 4)
  /-- PMAT (R77). Fetches match n of the parser's pattern search into a named slot. -/
  | pmat (iss : Issue) (ga : BitVec 5) (slot : Fin 4)
  /-- OPERAND_ARRIVE (R40). An accelerator result arrives in its operand slot, and a thread waiting on it in WAITOP becomes ready. -/
  | operandArrive (k : Nat)
  /-- LOOKUP_COMPLETE (R356). A lookup finishes: both buckets read, entry compared, cached and pinned, and the result word produced. -/
  | lookupComplete (n : Nat) (k wb : Check)
  /-- WAITOP (R78). Moves a slot's result into gd, waiting until it arrives. -/
  | waitop (iss : Issue) (gd : BitVec 5) (slot : Fin 4)
  /-- YIELD (R41). Ends the task, releasing lock, pin and unreleased place and freeing an unemitted packet. -/
  | yield (iss : Issue)
  /-- ORDR (R80). Passes the packet to egress held at the task's ordered-release place, or releases the place with no output. -/
  | ordr (iss : Issue) (gd ga : BitVec 5)
  /-- EMIT (R82). Writes pw back as the new head and queues the packet to its egress at once. -/
  | emit (iss : Issue) (gd ga : BitVec 5)
  /-- FORK (R83). Creates a task with complete operands, optionally passing the packet and the creation pin. -/
  | fork (iss : Issue) (gd ga : BitVec 5) (passPkt passPin : Bool)
  /-- WAITPH (R88). Waits for a predicted phase of a domain and returns on phase, late, unlocked or uncertain. -/
  | waitph (iss : Issue) (sd sa sb : BitVec 5) (d : Fin 4)
  /-- WAITPH_WAKE (R88). TBM reaches the re-predicted instant of a waiting WAITPH, which returns its status. -/
  | waitphWake (n : Fin 4)
  /-- WAITT (R89). Waits for a time base to reach a value. -/
  | waitt (iss : Issue) (sd sa : BitVec 5) (base : Fin 5)
  /-- WAITT_WAKE (R89). The time base reaches the target of a waiting WAITT, or is reset, and WAITT returns. -/
  | waittWake (n : Fin 4)
  /-- BIN (R90). Records the phase bin that the next BUILD uses for a station link. -/
  | bin (iss : Issue) (sd sa sb : BitVec 5)
  /-- PICK (R91). Chooses up to K eligible, granted stations from an SD list as the new window set. -/
  | pick (iss : Issue) (sd sa : BitVec 5) (limit : BitVec 10) (policy : BitVec 2) (bad : List Nat)
  /-- BUILD_SU (R92). BUILD of kind 0 starts single-user husk assembly from the first station of the window set. -/
  | buildSu (iss : Issue) (sd sa : BitVec 5) (slot : Fin 2) (fits : List Fit) (gcm : Bool) (k : List Check)
  /-- BUILD_MU (R157). BUILD of kind 1 starts downlink multi-user assembly, allocating RUs to up to 32 users. -/
  | buildMu (iss : Issue) (sd sa : BitVec 5) (slot : Fin 2) (fits : List Fit) (gcm : Bool) (k : List Check)
  /-- BUILD_TRIGGER (R158). BUILD of kind 2 starts a trigger-only husk with uplink RU allocation. -/
  | buildTrigger (iss : Issue) (sd sa : BitVec 5) (slot : Fin 2) (fits : List Fit) (gcm : Bool) (k : List Check)
  /-- BUILD_PIP (R267). BUILD of kind 3 on SQP starts a Pip husk for the first node of the window set. -/
  | buildPip (iss : Issue) (sd sa : BitVec 5) (slot : Fin 2)
  /-- TRIG (R93). Adds a trigger frame to the husk in a slot. -/
  | trig (iss : Issue) (sd sa sb : BitVec 5) (slot : Fin 2)
  /-- LAUNCH (R94). Names a half-open commit window for a husk and holds the sequencer until commit or undo. -/
  | launch (iss : Issue) (sd sa sb : BitVec 5) (slot : Fin 2) (kind : Fin 8)
  /-- UNDO (R95). Undoes an uncommitted husk with PROGRAM, or returns the stored outcome of an empty slot. -/
  | undo (iss : Issue) (sd : BitVec 5) (slot : Fin 2)
  /-- SKIP (R96). Releases the window set to the grant arbiter without building. -/
  | skip (iss : Issue) (sd : BitVec 5)
  /-- BEACON (R97). Arms the beacon of a BSSID, or the Pip beacon, for its next target beacon time. -/
  | beacon (iss : Issue) (sd sa : BitVec 5)
  /-- GAIN (R98). Sets the Pip receive gain step. -/
  | gain (iss : Issue) (sd sa : BitVec 5) (step : Fin 8) (fromReg : Bool)
  /-- LISTEN (R99). Opens a Pip receive window and holds SQP until it ends. -/
  | listen (iss : Issue) (sd sa sb : BitVec 5) (rate rep : Fin 4)
  /-- LISTEN_WINDOW_END (R99). A LISTEN window ends with no frame, or a frame inside it has been fully received, and LISTEN returns. -/
  | listenWindowEnd
  /-- THREAD_RESUME (R52). A write of RESUME to YCU.THR_CTL returns a halted thread to IDLE, discarding its state. -/
  | threadResume (who : Fin 4) (u : Fin 64) (v : Word)
  /-- FENCE_LIFT (R45). A write of 1 to a YCU.CL_FENCE bit lifts the fence unless a source of the cluster is unacknowledged. -/
  | fenceLift (who : Fin 4) (v : Word)
  /-- PROGRAM_LOAD_ROLL (R53). GO with MODE ROLL checks the image and loads target units in four rounds. -/
  | programLoadRoll (who : Fin 4) (v : Word)
  /-- PROGRAM_LOAD_BARRIER (R54). GO with MODE BARRIER checks the image and loads all target units together. -/
  | programLoadBarrier (who : Fin 4) (v : Word)
  /-- LOAD_UNIT_DRAINED (R53). A target unit's last old-image task ends, and the copy step begins. -/
  | loadUnitDrained (u : Fin 64)
  /-- LOAD_DRAIN_TIMEOUT (R56). The drain timeout expires and the unit is skipped, keeping its old image. -/
  | loadDrainTimeout
  /-- LOAD_COPY_DONE (R53). A unit's or sequencer's copy completes; GEN is updated and tasks or the sequencer restart on the new image. -/
  | loadCopyDone (x : Fin 68) (k : Check)
  /-- CRYSTAL_FAIL (R104). The crystal amplitude falls: TBM moves to 32.768 kHz or the fallback, source 0 is raised and the device enters Limp. -/
  | crystalFail (bad : Fin 3)
  /-- X32K_LOSS (R553). The 32.768 kHz clock goes missing, raising source 7, and TBM runs on the fallback where it would use that clock. -/
  | x32kLoss
  /-- X32K_RETURN (R553). The 32.768 kHz clock returns and TBM leaves the fallback at its next tick. -/
  | x32kReturn
  /-- TBN_RATE_WRITE (R105). A write of TIME.TBN_RATE sets rho, clamped, and clears HOLDOVER. -/
  | tbnRateWrite (who : Fin 4) (v : Word)
  /-- TBN_STEP (R106). The highest-word write of TIME.TBN_STEP adds the offset while armed, locking TBN. -/
  | tbnStep (who : Fin 4) (v : Word)
  /-- TBN_RESET (R107). RESET re-arms TBN, clearing LOCKED and HOLDOVER and setting rho to 0. -/
  | tbnReset (who : Fin 4) (v : Word)
  /-- TBN_HOLD (R109). HOLD sets rho to 0 and sets HOLDOVER. -/
  | tbnHold (who : Fin 4) (v : Word)
  /-- TSF_WRITE (R112). The highest-word write of TIME.TSF sets the TSF while no BSSID beacons, else source 5. -/
  | tsfWrite (who : Fin 4) (n : Fin 3) (v : Word)
  /-- PHASE_INPUT_COUNT (R120). A filtered encoder or pulse transition is decoded into a count or an illegal transition. -/
  | phaseInputCount (d : Fin 4) (e : Edge) (a b : Bool)
  /-- PHASE_INDEX_EDGE (R120). An index edge resets n, completes a cycle and checks for a slip. -/
  | phaseIndexEdge (d : Fin 4) (e : Edge)
  /-- MAINS_EDGE (R121). A MAINS_SENSE edge is accepted or rejected and yields an observation. -/
  | mainsEdge (d : Fin 4) (e : Edge) (rising : Bool)
  /-- HOST_OBSERVATION (R124). A highest-word write of PHS.PD_HOBS presents a host observation, or rejects it. -/
  | hostObservation (who d : Fin 4) (v : Word)
  /-- PD_CYC_WRITE (R122). A write of PHS.PD_CYC sets the cycle count while unlocked, otherwise is counted. -/
  | pdCycWrite (who d : Fin 4) (v : Word)
  /-- PD_PQ_WRITE (R126). A write of PHS.PD_PQ sets the phase whose prediction PD_PT reports. -/
  | pdPqWrite (who d : Fin 4) (v : Word)
  /-- DOMAIN_ENABLE (R128). Setting PD_CFG.EN takes a domain from OFF to ACQ and starts ACQ_TO. -/
  | domainEnable (who d : Fin 4) (v : Word)
  /-- DOMAIN_DISABLE (R128). Clearing PD_CFG.EN takes a domain to OFF, ending its phase waits and windows. -/
  | domainDisable (who d : Fin 4) (v : Word)
  /-- ACQ_TIMEOUT (R128). ACQ_TO expires without lock and raises source 19 + 4d. -/
  | acqTimeout (d : Fin 4)
  /-- LOSS_TIMEOUT (R128). No observation for LOSS_TO drops a locked domain to ACQ. -/
  | lossTimeout (d : Fin 4)
  /-- PPS_OUT_SECOND (R131). PPS_OUT rises at a whole second of the selected base and falls after WIDTH ms. -/
  | ppsOutSecond
  /-- PPS_IN_EDGE (R132). An active PPS_IN edge captures TBM and TBN stamps and counts. -/
  | ppsInEdge (falling : Bool) (t : Nat)
  /-- PPS_IN_TIMEOUT (R132). No PPS_IN edge for 2 s raises source 3 once. -/
  | ppsInTimeout
  /-- CYCLE_BOUNDARY (R136). A sequencer's schedule cycle rolls over, resetting window and station counts. -/
  | cycleBoundary (n : Fin 4)
  /-- STA_UPDATE (R141). GO in SQA.STA_UPD installs a staged station schedule entry whole. -/
  | staUpdate (who : Fin 4) (v : Word)
  /-- BIN_UPDATE (R152). GO in SQA.BIN_UPD writes the staged value to one bin. -/
  | binUpdate (who : Fin 4) (v : Word)
  /-- BIN_UPDATE_ALL (R152). GO with ALL writes the staged value to all 64 bins of a link. -/
  | binUpdateAll (who : Fin 4) (v : Word)
  /-- BIN_AGE (R152). GO with AGE sets AGED in all 64 bins of a link. -/
  | binAge (who : Fin 4) (v : Word)
  /-- EPOCH_ADVANCE (R155). SQA.EPOCH advances every AGE_PERIOD and the sweep marks stale bins aged. -/
  | epochAdvance
  /-- TWT_SP_END (R160). A TWT service period ends, TWT_NEXT advances, and a missed period is counted. -/
  | twtSpEnd (st : BitVec 11)
  /-- SEQ_ENABLE (R165). A write of EN = 1 runs a sequencer from code byte 0, unless refused. -/
  | seqEnable (who n : Fin 4) (v : Word)
  /-- SEQ_DISABLE (R165). A write of EN = 0 halts a sequencer at its next instruction boundary under R47. -/
  | seqDisable (who n : Fin 4) (v : Word)
  /-- HUSK_READY (R169). The last assembly step of a husk ends and it becomes READY. -/
  | huskReady (n : Fin 4) (slot : Fin 2)
  /-- HUSK_COMMIT (R180). A READY husk's window is open and the medium won: key generations are checked and the PHY accepts the first preamble symbol or the husk is undone with KEYGEN. -/
  | huskCommit (n : Fin 4) (m : Medium)
  /-- LAUNCH_WINDOW_END (R94). A LAUNCH window ends before commit and the husk is undone with MEDIUM, LATE or PHASE. -/
  | launchWindowEnd (n : Fin 4)
  /-- BLOCK_ACK_RECEIVE (R185). An acknowledgement for a committed husk arrives, ending its frame exchange. -/
  | blockAckReceive (n : Fin 3) (slot : Fin 2) (st : BitVec 11) (acked : List (Nat × Nat)) (ulExp ulGot : Nat)
  /-- ACK_TIMEOUT (R185). An expected acknowledgement times out and the station link's MPDUs join the retry set. -/
  | ackTimeout (n : Fin 3) (slot : Fin 2) (st : BitVec 11) (w : Silence)
  /-- MPDU_RECEIVE (R190). An MPDU with valid FCS updates the scoreboard, is acknowledged and is sent to the cipher. -/
  | mpduReceive (f : AirFrame) (k : Check) (m : RxMem) (room low : Bool)
  /-- BAR_RECEIVE (R192). A BlockAckReq moves the receive window without setting a bit. -/
  | barReceive (n : Fin 3) (st : BitVec 11) (tid : Fin 8) (start : BitVec 12)
  /-- RX_HOLD_TIMEOUT (R193). TBM reaches HOLD_T + RX_HOLD: the hole is skipped and release continues. -/
  | rxHoldTimeout (st : BitVec 11) (tid : Fin 8)
  /-- SB_OPEN (R189). SB_UPD GO with CLOSE 0 opens a block-ack agreement on a scoreboard entry. -/
  | sbOpen (who : Fin 4) (v : Word)
  /-- SB_CLOSE (R189). SB_UPD GO with CLOSE 1 releases held frames and returns the entry to WSIZE 1. -/
  | sbClose (who : Fin 4) (v : Word)
  /-- LINK_UPDATE (R202). GO in MXn.LINK_UPD installs a staged link record, or refuses it and sets ERR. -/
  | linkUpdate (who : Fin 4) (n : Fin 3) (v : Word)
  /-- WIFI_TBTT (R212). A BSSID's target beacon time arrives and the MAC contends for the armed beacon. -/
  | wifiTbtt (n : Fin 3) (b : Fin 16)
  /-- WIFI_BEACON_COMMIT (R214). An armed beacon wins the medium, its timestamp is filled and it is sent. -/
  | wifiBeaconCommit (n : Fin 3) (b : Fin 16)
  /-- BEACON_WINDOW_END (R213). A beacon window ends unsent, counting a failure and possibly starvation. -/
  | beaconWindowEnd (n : Fin 3) (b : Fin 16)
  /-- SOUNDING_FEEDBACK (R218). Beamforming feedback decodes and is written to the steering entry and bin. -/
  | soundingFeedback (n : Fin 3) (st : BitVec 11) (pre : Option (List Byte))
  /-- STEER_COPY (R218). GO in RFn.STEER_COPY copies one steering entry to another. -/
  | steerCopy (who : Fin 4) (n : Fin 3) (v : Word)
  /-- CHAN_WRITE (R220). A write of RFn.CHAN is accepted while the MAC is disabled and valid, else ignored with source 161 + 32n. -/
  | chanWrite (who : Fin 4) (n : Fin 3) (v : Word)
  /-- CHANNEL_SWITCH (R221). GO in RFn.CSW_CTL starts a channel switch with announcements. -/
  | channelSwitch (who : Fin 4) (n : Fin 3) (v : Word)
  /-- CHANNEL_RETUNE_DONE (R221). The retune completes, CHAN takes the new values and GO clears. -/
  | channelRetuneDone (n : Fin 3)
  /-- MAC_DISABLE (R223). Clearing MXn.CTL.EN undoes husks and stops sending and receiving. -/
  | macDisable (who : Fin 4) (n : Fin 3) (v : Word)
  /-- PARENT_BEACON (R225). An accepted parent beacon steps the TSF, re-anchors and resets MISSED. -/
  | parentBeacon (t : Nat) (ts : BitVec 64)
  /-- PARENT_WINDOW_END (R226). An expected parent-beacon window ends empty and MISSED advances. -/
  | parentWindowEnd
  /-- CANDIDATE_LISTEN_END (R227). The listen time for a candidate parent ends unheard and the next candidate is taken. -/
  | candidateListenEnd
  /-- RADAR_BURST (R228). The radar detector records a pulse burst as an event and raises source 198. -/
  | radarBurst (subch pulses width rssi : Nat) (chirp : Bool) (t : Nat)
  /-- PLL_UNLOCK (R230). A synthesiser loses lock, raising source 160 + 32n and undoing husks. -/
  | pllUnlock (n : Fin 4)
  /-- CHPLAN_WRITE (R236). A write of PIP.CHPLAN is refused with source 257 when it places channels out of band. -/
  | chplanWrite (who : Fin 4) (v : Word)
  /-- CHMAP_WRITE (R253). A write of an empty PIP.CHMAP is ignored with source 257. -/
  | chmapWrite (who : Fin 4) (v : Word)
  /-- CHMAP_CHANGE (R254). GO in PIP.CHMAP_AT schedules a channel-map change announced in beacons. -/
  | chmapChange (who : Fin 4) (v : Word)
  /-- PIP_DATA (R251). A received Pip DATA frame passes the checks, applies sequence bits and is answered. -/
  | pipData (f : PipFrame) (k : Check) (room : Bool)
  /-- PIP_ACK (R251). A received Pip ACK acknowledges the pending frame. -/
  | pipAck (f : PipFrame) (k : Check) (room : Bool)
  /-- PIP_POLL (R260). A received POLL from a sleepy node draws an automatic answer. -/
  | pipPoll (f : PipFrame) (k : Check) (room : Bool)
  /-- PIP_ALERT (R261). A received ALERT is checked, delivered and acknowledged, and may wake the device from Watch. -/
  | pipAlert (f : PipFrame) (k : Check) (room : Bool)
  /-- PIP_FLOOD (R262). A received FLOOD is checked against the seen cache, the MIC and the counter and delivered if addressed. -/
  | pipFlood (f : PipFrame) (k : Check) (room : Bool)
  /-- PIP_JOIN (R250). A received JOIN is delivered marked unknown or with its LIVE bit. -/
  | pipJoin (f : PipFrame) (k : Check) (room : Bool)
  /-- PIP_AUTO_ANSWER (R242). At T_IFS after a frame, the MAC sends the automatic answer. -/
  | pipAutoAnswer
  /-- PIP_ANSWER_TIMEOUT (R242). An expected answer fails to qualify in its window and the exchange ends. -/
  | pipAnswerTimeout
  /-- PIP_ANCHOR (R252). A connection event's anchor instant passes; EC and ANCHOR advance. -/
  | pipAnchor (node : Fin 16384)
  /-- PIP_SUPERVISION_TIMEOUT (R256). No frame for STO seconds ends a CONN link and passes a NOTICE. -/
  | pipSupervisionTimeout (node : Fin 16384)
  /-- PIP_TBTT (R257). A Pip target beacon time arrives; a pending map change applies. -/
  | pipTbtt
  /-- PIP_BEACON_COMMIT (R258). The armed Pip beacon wins the medium and is sent. -/
  | pipBeaconCommit
  /-- PIP_BEACON_WINDOW_END (R258). The Pip beacon window ends unsent, burning its counter and counting a failure. -/
  | pipBeaconWindowEnd
  /-- FLOOD_CACHE_EXPIRY (R262). A seen-cache entry reaches 30 s and leaves the cache. -/
  | floodCacheExpiry
  /-- NODE_UPDATE (R249). A plain NODE_UPD GO installs a staged node record, ignoring device-owned bytes. -/
  | nodeUpdate (who : Fin 4) (v : Word)
  /-- NODE_UPDATE_CONN (R249). NODE_UPD GO with CONN installs the record, takes staged counters and sets LIVE. -/
  | nodeUpdateConn (who : Fin 4) (v : Word)
  /-- NODE_UPDATE_MERGE (R249). NODE_UPD GO with MERGE takes the maximum of counters and the later event counter. -/
  | nodeUpdateMerge (who : Fin 4) (v : Word)
  /-- PIP_DISABLE (R272). Clearing PIP.CTL.EN undoes every SQP husk with RADIO. -/
  | pipDisable (who : Fin 4) (v : Word)
  /-- CU_MODE_CHANGE (R277). A write that changes CUn.CTL.MODE drops the link and starts the new mode. -/
  | cuModeChange (who : Fin 4) (c : Fin 2) (v : Word) (ok : Bool)
  /-- CU_RESTART (R277). RESTART drops the link and restarts training or auto-negotiation. -/
  | cuRestart (who : Fin 4) (c : Fin 2) (v : Word) (ok : Bool)
  /-- AUTONEG_COMPLETE (R274). Auto-negotiation resolves a rate and the link comes up. -/
  | autonegComplete (c : Fin 2) (rate : Fin 8) (master mdix txp rxp : Bool) (snr : BitVec 32) (len : Nat)
  /-- CU_FRAME_RECEIVE (R275). A received Ethernet frame is checked, buffered or dropped, and PAUSE consumed. -/
  | cuFrameReceive (c : Fin 2) (bytes : List Byte) (fcs : Bool) (t : Nat) (k : Check)
  /-- PAUSE_REFRESH (R276). Every 0x8000 quanta above XON, PAUSE is repeated. -/
  | pauseRefresh (c : Fin 2)
  /-- PAUSE_EXPIRY (R276). A received PAUSE's quanta run out and egress resumes. -/
  | pauseExpiry (c : Fin 2)
  /-- PORT_FRAME_SENT (R324). A port finishes sending a queued frame and its egress level falls. -/
  | portFrameSent (port : Fin 3) (t : Nat) (k : Check)
  /-- LR_INFO_RECEIVE (R284). A valid INFO block is received during LR training. -/
  | lrInfoReceive (c : Fin 2) (v : BitVec 64)
  /-- LR_PHASE_END (R283). An LR training phase reaches its length and the next phase begins. -/
  | lrPhaseEnd (c : Fin 2) (ok mdix : Bool) (snr : BitVec 32) (len : Nat)
  /-- LR_DETECT_TIMEOUT (R285). No valid INFO for 1 s in P0 raises source 290 + 16c. -/
  | lrDetectTimeout (c : Fin 2)
  /-- LR_OAM_RECEIVE (R282). An OAM word of a superframe is received and acted on. -/
  | lrOamReceive (c : Fin 2) (v : BitVec 48)
  /-- LR_CODE_FRAME (R281). A code frame is decoded and its CRC checked; consecutive failures lose the link. -/
  | lrCodeFrame (c : Fin 2) (w : Codeword) (start : Bool)
  /-- LR_FAST_RETRAIN_END (R289). A fast retrain ends, resuming DATA or taking the link down. -/
  | lrFastRetrainEnd (c : Fin 2) (snr : BitVec 32) (len : Nat) (partner : Bool)
  /-- DIAG_START (R291). GO in CUn.DIAG_CTL starts cable reflectometry, or is refused. -/
  | diagStart (who : Fin 4) (c : Fin 2) (v : Word)
  /-- DIAG_DONE (R291). Reflectometry results are written to DIAG_RES. -/
  | diagDone (c : Fin 2) (res : List Nat)
  /-- FRAME_PARSE (R295). The parser takes a frame or recirculated packet, walks, searches, classifies and disposes of it. -/
  | frameParse (port : Fin 6) (buf pat rule : Check) (x : Ext)
  /-- RULE_WRITE (R306). RULE_UPD OP 0 writes the staged rule and zeroes its hit count. -/
  | ruleWrite (who : Fin 4) (v : Word)
  /-- RULE_READ (R311). RULE_UPD OP 1 reads a rule into the stage and its count into RULE_HITS. -/
  | ruleRead (who : Fin 4) (v : Word)
  /-- RULE_READ_CLEAR (R311). RULE_UPD OP 2 reads a rule and clears its count. -/
  | ruleReadClear (who : Fin 4) (v : Word)
  /-- BANK_SWAP (R308). SWAP makes the other rule bank active for later matches. -/
  | bankSwap (who : Fin 4) (v : Word)
  /-- PATTERN_INSTALL (R302). GO in PRS.PAT_UPD installs a staged pattern whole. -/
  | patternInstall (who : Fin 4) (v : Word)
  /-- CREATION_RETRY (R316). The parser's held frame is offered again once the slice has room. -/
  | creationRetry
  /-- TASK_DISPATCH (R319). A ready, dispatchable task goes to an idle thread and starts with the state of R30. -/
  | taskDispatch (c : Fin 16) (pick : Nat) (w : Check)
  /-- ORDERED_RELEASE (R322). A place whose earlier places of its tag are released is released, passing its packet to egress. -/
  | orderedRelease (c : Fin 16) (k : Check)
  /-- CLMAP_WRITE (R318). A write of HTS.CLMAP is held pending. -/
  | clmapWrite (who : Fin 4) (j : Fin 16) (v : Word)
  /-- CLMAP_APPLY (R318). With no place and no lock held, a pending CLMAP write applies. -/
  | clmapApply
  /-- TASK_INJECT (R327). GO in HTS.INJ_CTL creates a task from the staged flow word, or refuses it. -/
  | taskInject (who : Fin 4) (v : Word)
  /-- REGION_FLUSH (R329). A bit written in HTS.FLUSH frees the region's undispatched tasks. -/
  | regionFlush (who : Fin 4) (v : Word)
  /-- STARVE_TIMEOUT (R321). A ready task waits STARVE us undispatched and raises source 354 + 4r. -/
  | starveTimeout (id : Nat)
  /-- EG_BP_WRITE (R325). A write of HTS.EG_BP is compared with the egress level in the next clock. -/
  | egBpWrite (who : Fin 4) (k : Fin 6) (v : Word)
  /-- CIPHER_JOB_START (R333). A free lane takes a job and copies the slot's key and GEN. -/
  | cipherJobStart (l : Fin 32) (k : Check)
  /-- GCMP_ENCRYPT (R344). A GCMP encrypt job ends, writing ciphertext and tag. -/
  | gcmpEncrypt (l : Fin 32) (k : Check) (part : Nat)
  /-- GCMP_DECRYPT (R346). A GCMP decrypt-and-verify job ends, writing plaintext only on a matching tag. -/
  | gcmpDecrypt (l : Fin 32) (m : JobMem) (part : Nat)
  /-- CCMP_ENCRYPT (R344). A CCMP encrypt job ends. -/
  | ccmpEncrypt (l : Fin 32) (k : Check) (part : Nat)
  /-- CCMP_DECRYPT (R346). A CCMP decrypt-and-verify job ends. -/
  | ccmpDecrypt (l : Fin 32) (m : JobMem) (part : Nat)
  /-- GMAC_GENERATE (R344). A GMAC generate job ends, writing the tag. -/
  | gmacGenerate (l : Fin 32) (k : Check) (part : Nat)
  /-- GMAC_VERIFY (R346). A GMAC verify job ends with the comparison result. -/
  | gmacVerify (l : Fin 32) (k : Check) (part : Nat)
  /-- CMAC_GENERATE (R344). A CMAC generate job ends, writing the tag. -/
  | cmacGenerate (l : Fin 32) (k : Check) (part : Nat)
  /-- CMAC_VERIFY (R346). A CMAC verify job ends with the comparison result. -/
  | cmacVerify (l : Fin 32) (k : Check) (part : Nat)
  /-- PNRSV (R343). A PNRSV job reserves a block of packet numbers. -/
  | pnrsv (l : Fin 32)
  /-- KEY_LOAD (R339). KEY_CMD OP 0 with GO starts expanding a key into a slot. -/
  | keyLoad (who : Fin 4) (v : Word)
  /-- KEY_ERASE (R340). KEY_CMD OP 1 with GO starts erasing a slot. -/
  | keyErase (who : Fin 4) (v : Word)
  /-- KEY_LOAD_COMPLETE (R339). The expanded key replaces the slot, LOADED sets and GEN advances. -/
  | keyLoadComplete
  /-- KEY_ERASE_COMPLETE (R342). The slot clears, GEN advances and jobs naming it end with KEY_ERASED. -/
  | keyEraseComplete
  /-- ZEROISE (R348). A write of CIP.CTL.ZERO zeroises lanes and key store. -/
  | zeroise (who : Fin 4) (v : Word)
  /-- RNG_HEALTH_FAIL (R336). An entropy health test fails, raising source 448 and zeroising. -/
  | rngHealthFail
  /-- LANE_RESEED (R336). Every 4,096 clocks a lane's mask generator is reseeded from the DRBG. -/
  | laneReseed (l : Fin 32) (ok : Bool)
  /-- LANE_PARITY_FAULT (R350). A lane's round parity mismatches, raising source 449 and zeroising. -/
  | laneParityFault (l : Fin 32)
  /-- INSERT (R358). An INSERT command allocates, writes and indexes an endpoint entry, or reports failure. -/
  | insert (slot : Fin 516) (k : Check)
  /-- REMOVE (R358). A REMOVE command unindexes an entry and sets KIND 0. -/
  | remove (slot : Fin 516) (k : Check)
  /-- EPT_ENABLE (R359). A write of EPT.CTL.EN = 1 enables lookups, ignored with fewer than two cache banks. -/
  | eptEnable (who : Fin 4) (v : Word) (bad : List Nat)
  /-- CACHE_FLUSH (R360). FLUSH writes every cached entry back to DRAM. -/
  | cacheFlush (who : Fin 4) (v : Word) (bad : List Nat)
  /-- ROUTE_ADD (R361). RT_UPD GO without REMOVE installs a prefix or sets ERR. -/
  | routeAdd (who : Fin 4)
  /-- ROUTE_REMOVE (R361). RT_UPD GO with REMOVE deletes a prefix or sets ERR. -/
  | routeRemove (who : Fin 4)
  /-- JOURNAL_MOUNT (R366). MOUNT reads every sector and record and writes the directory. -/
  | journalMount (who : Fin 4) (v : Word) (ok : Bool)
  /-- JOURNAL_APPEND (R367). JRN_APP GO appends a record under R364. -/
  | journalAppend (who : Fin 4) (v : Word)
  /-- JOURNAL_DELETE (R365). JRN_APP GO with DEL appends a deletion record. -/
  | journalDelete (who : Fin 4) (v : Word)
  /-- JOURNAL_APPEND_DONE (R364). An append commits or fails, and compaction may start at 48 sectors. -/
  | journalAppendDone (ok1 ok2 erase : Bool)
  /-- JOURNAL_COMPACT (R368). COMPACT copies one sector's live records to the head and erases it. -/
  | journalCompact (who : Fin 4) (v : Word) (ok : Bool)
  /-- FLASH_TIMEOUT (R371). The flash fails to answer in time and the operation is abandoned with source 490. -/
  | flashTimeout
  /-- DRAM_REQUEST (R379). At a command slot the controller issues the chosen request. -/
  | dramRequest (t : Nat) (new : List DramReq) (back : List Nat) (hit : Bool) (k : Ecc) (fin : Nat)
  /-- REQUEST_PROMOTE (R380). A request waits PROMO and moves up one class. -/
  | requestPromote (n : Nat)
  /-- DRAM_REFRESH (R389). Per-bank refresh falls due at tREFI. -/
  | dramRefresh
  /-- SCRUB_READ (R388). The scrubber reads an XM line and writes back a corrected line. -/
  | scrubRead (k : Ecc)
  /-- FREQUENCY_CHANGE (R390). FCHG starts moving to the other timing set. -/
  | frequencyChange (who : Fin 4) (v : Word)
  /-- FREQUENCY_CHANGE_DONE (R390). The switch and retrain finish, requests resume, or the old set is restored. -/
  | frequencyChangeDone (ok : Bool)
  /-- DRAM_TRAIN (R392). TRAIN starts full training. -/
  | dramTrain (who : Fin 4) (v : Word)
  /-- DRAM_TRAIN_DONE (R392). Training ends with a result, retrying once on failure. -/
  | dramTrainDone (r : Fin 3)
  /-- DQS_DRIFT_CHECK (R394). Every 100 ms the DQS oscillators are read and delays corrected or retrained. -/
  | dqsDriftCheck (ok : Bool)
  /-- DMA_RUN (R407). RUN starts, resumes or restarts a channel. -/
  | dmaRun (who : Fin 4) (c : Fin 64) (v : Word)
  /-- DMA_STOP (R403). STOP stops the channel at the next descriptor boundary. -/
  | dmaStop (who : Fin 4) (c : Fin 64) (v : Word)
  /-- DMA_DESC_FETCH (R399). A fetched descriptor is checked and the channel starts moving its bytes, or ends or halts. -/
  | dmaDescFetch (c : Fin 64) (ok : Bool) (host : List Byte)
  /-- DMA_CREDIT_REFILL (R401). Every 1 us each channel's credit is refilled. -/
  | dmaCreditRefill
  /-- DMA_BEAT_ISSUE (R401). A beat with credit is issued. -/
  | dmaBeatIssue
  /-- DMA_BEAT_RESPONSE (R404). A beat's response returns; a failure is retried or halts the channel. -/
  | dmaBeatResponse (c : Fin 64) (n : Nat) (ok : Bool) (host : List Byte) (dirty : List (Nat × Byte))
  /-- DMA_WRITEBACK_DONE (R402). The status write-back is answered, IRQ_DONE sets and the next descriptor is fetched. -/
  | dmaWritebackDone (c : Fin 64) (ok : Bool)
  /-- MCC_CLEAN (R411). MCC_CTL GO with OP 0 cleans the range in both management-core caches. -/
  | mccClean (who : Fin 4) (v : Word)
  /-- MCC_INVALIDATE (R411). OP 1 invalidates the range. -/
  | mccInvalidate (who : Fin 4) (v : Word)
  /-- MCC_CLEAN_INVALIDATE (R411). OP 2 cleans and invalidates the range. -/
  | mccCleanInvalidate (who : Fin 4) (v : Word)
  /-- MCC_DONE (R411). A cache maintenance operation completes and BUSY clears. -/
  | mccDone (dirty : List (Nat × Byte))
  /-- SQ_DOORBELL (R419). A write of an SQ tail doorbell posts descriptors and stamps them. -/
  | sqDoorbell (q : Fin 32) (tail : BitVec 16) (t : Nat)
  /-- CQ_DOORBELL (R422). A write of a CQ head doorbell releases completion entries. -/
  | cqDoorbell (q : Fin 32) (head : BitVec 16)
  /-- SEND (R420). A fetched SEND passes the SEQ check, is read and presented to the parser. -/
  | send (q : Fin 32) (d : SqDesc) (data : List Byte) (k kb : Check)
  /-- BUF (R420). A fetched BUF joins the queue pair's free list. -/
  | buf (q : Fin 32) (d : SqDesc) (k : Check)
  /-- HOST_NOP (R420). A fetched NOP is consumed. -/
  | hostNop (q : Fin 32) (d : SqDesc) (k : Check)
  /-- HOST_RX_DELIVER (R423). A frame in the receive queue fills the oldest BUF and its CQ entry is written. -/
  | hostRxDeliver (q : Fin 32) (k : Check)
  /-- QP_COAL_TIMEOUT (R424). COAL_US after the first entry, the queue pair's vector is sent. -/
  | qpCoalTimeout (q : Fin 32)
  /-- MSIX_UNMASK (R424). Unmasking a vector with its pending bit set sends the message. -/
  | msixUnmask (n : Fin 128) (addr : BitVec 64) (data : BitVec 32)
  /-- FUNCTION_LEVEL_RESET (R425). FLR disables queue pairs, clears MSI-X and raises source 568. -/
  | functionLevelReset
  /-- HOST_LINK_DOWN (R425). Link down, hot reset, PERST_N or removal halts queue pairs and host DMA. -/
  | hostLinkDown
  /-- HOST_LINK_UP (R425). The host link returns; halted queue pairs stay halted. -/
  | hostLinkUp (speed : Fin 5) (width : Fin 5)
  /-- QP_ENABLE_WRITE (R425). A write of QP_CTL.EN enables or disables a queue pair, restarting its rings. -/
  | qpEnableWrite (who : Fin 4) (q : Fin 32) (v : Word)
  /-- RA_READ (R426). RA_CTL GO with OP 0 sends a remote read to device DEV. -/
  | raRead (who : Fin 4) (v : Word) (x : Ext)
  /-- RA_WRITE (R426). RA_CTL GO with OP 1 sends a remote write. -/
  | raWrite (who : Fin 4) (v : Word) (x : Ext)
  /-- RA_TIMEOUT (R426). No reply within RA_TO sets STATUS 1. -/
  | raTimeout
  /-- HEARTBEAT_SEND (R438). Every HB ms a HEARTBEAT leaves on each enabled slot. -/
  | heartbeatSend (slot : Fin 8)
  /-- HEARTBEAT (R438). A received HEARTBEAT brings the slot up or keeps it, updates routes and time offset. -/
  | heartbeat (slot : Fin 8) (m : FedMsg) (t : Nat) (k : Check)
  /-- HEARTBEAT_DEADLINE (R438). A heartbeat deadline passes; MISSED advances and at 3 the slot is lost. -/
  | heartbeatDeadline (slot : Fin 8)
  /-- QUORUM_SETTLE (R448). A changed quorum holds for SETTLE and takes effect, entering or leaving Island. -/
  | quorumSettle
  /-- ACK (R436). A received fabric ACK clears acknowledged REL messages. -/
  | ack (slot : Fin 8) (m : FedMsg) (t : Nat) (k : Check)
  /-- RACC (R443). A received RACC is applied in RNUM order as a host access and answered. -/
  | racc (slot : Fin 8) (m : FedMsg) (t : Nat) (k : Check) (x : Ext)
  /-- RREP (R426). A received RREP completes the anchor's remote access. -/
  | rrep (slot : Fin 8) (m : FedMsg) (t : Nat) (k : Check)
  /-- DATA (R437). A received fabric DATA is relayed or passed to the parser. -/
  | data (slot : Fin 8) (m : FedMsg) (t : Nat) (k : Check)
  /-- JOIN (R445). A received JOIN enters the anchor's mailbox. -/
  | join (slot : Fin 8) (m : FedMsg) (t : Nat) (k : Check)
  /-- ADMIT (R445). A received ADMIT enters the joining device's mailbox. -/
  | admitDevice (slot : Fin 8) (m : FedMsg) (t : Nat) (k : Check)
  /-- LEAVE (R447). A received LEAVE enters the mailbox and its sender leaves REACH. -/
  | leave (slot : Fin 8) (m : FedMsg) (t : Nat) (k : Check)
  /-- NOTICE (R432). A received parent-lost NOTICE enters the anchor's mailbox. -/
  | notice (slot : Fin 8) (m : FedMsg) (t : Nat) (k : Check)
  /-- FAULT (R480). A received FAULT is counted in FLT.RMT and enters the mailbox. -/
  | fault (slot : Fin 8) (m : FedMsg) (t : Nat) (k : Check)
  /-- FIRMWARE_MESSAGE (R432). A received firmware-type message enters the destination's mailbox. -/
  | firmwareMessage (slot : Fin 8) (m : FedMsg) (t : Nat) (k : Check)
  /-- FABRIC_SEND (R436). GO in FED.TX_CTL sends a firmware message, REL ones entering the send table. -/
  | fabricSend (who : Fin 4) (v : Word)
  /-- ACK_GATHER (R436). Within 1 ms, or at 16 numbers, gathered acknowledgements leave as an ACK. -/
  | ackGather (src : Fin 64)
  /-- REL_RESEND (R436). RTO expires for a REL message, which is resent or dropped after its retries. -/
  | relResend (seq : BitVec 32)
  /-- RACC_GAP_TIMEOUT (R443). A held remote access waits out its gap, the missing numbers are skipped and source 588 raised. -/
  | raccGapTimeout (src : Fin 64) (x : Ext)
  /-- FED_ENABLE (R444). Setting FED.CTL.EN enters JOINING or, on the anchor, MEMBER. -/
  | fedEnable (who : Fin 4) (v : Word)
  /-- FED_DISABLE (R444). Clearing FED.CTL.EN sends LEAVE in MEMBER or ISLAND and enters OFF. -/
  | fedDisable (who : Fin 4) (v : Word)
  /-- ADMITTED (R445). ADMITTED applies EPOCH_SYS, entering SYNC or MEMBER. -/
  | admitted (who : Fin 4) (v : Word)
  /-- SYNCED (R446). SYNCED takes the device from SYNC to MEMBER. -/
  | synced (who : Fin 4) (v : Word)
  /-- ENTRY_STEP_COMPLETE (R462). A step of an entry into a lower mode completes and the next begins or a held wake event takes effect. -/
  | entryStepComplete (bad : Fin 3)
  /-- ENTRY_TIMEOUT (R462). ENTRY_TO ends with tasks running; they are ended and source 610 raised. -/
  | entryTimeout
  /-- WAKE_PIN (R465). WAKE_N held low for 1 us records and, if enabled, starts a wake. -/
  | wakePin
  /-- WAKE_HOST (R465). A host write of PWR.WAKE_HOST.GO is a wake event. -/
  | wakeHost (who : Fin 4) (v : Word)
  /-- WAKE_ALARM (R465). TBM reaches PWR.WAKE_AT and the alarm fires once. -/
  | wakeAlarm
  /-- WAKE_STAGE_READY (R466). A wake stage's ready signal holds and the next stage starts, or the wake completes. -/
  | wakeStageReady (mv : BitVec 16)
  /-- WAKE_STAGE_TIMEOUT (R467). A wake stage times out and is retried once, or fails with its outcome. -/
  | wakeStageTimeout (failing : List Nat) (bad : Fin 3)
  /-- TRIM_CHANGE (R460). A write of PWR.CTL.TRIM moves between P0 and P1. -/
  | trimChange (who : Fin 4) (v : Word)
  /-- TRIM_CHANGE_DONE (R460). The trim transition completes, or falls back with source 609. -/
  | trimChangeDone
  /-- AVS_STATUS_POLL (R469). Every 20 us a Status read checks whether the regulator reached its voltage, until timeout. -/
  | avsStatusPoll (r : Fin 3) (mv : BitVec 16) (bad : Fin 3)
  /-- GRACE1_EXPIRY (R474). A pending source's L1 grace timer expires and it enters L2. -/
  | grace1Expiry (n : Fin 640) (bad : Fin 3)
  /-- GRACE2_EXPIRY (R474). A pending source's L2 grace timer expires and it enters L3. -/
  | grace2Expiry (n : Fin 640) (bad : Fin 3)
  /-- FAULT_ACK (R476). A write to FLT.ACK from the owner acknowledges pending sources. -/
  | faultAck (who : Fin 4) (j : Fin 20) (v : Word)
  /-- FAULT_FORCE (R478). A write to FLT.FORCE is an occurrence of the source. -/
  | faultForce (who : Fin 4) (j : Fin 20) (v : Word)
  /-- DUMP_COMPLETE (R485). The dump routine programs STATE complete; DUMP record and Fault Hold follow. -/
  | dumpComplete (bad : Fin 3)
  /-- DUMP_TIMEOUT (R485). FLT.DUMP_TO passes; DUMP record and Fault Hold follow. -/
  | dumpTimeout (n : Nat) (bad : Fin 3)
  /-- DUMP_ERASE (R483). ACN.DUMP_CTL.ERASE erases the dump region. -/
  | dumpErase (who : Fin 4) (v : Word)
  /-- COUNTER_COMMIT (R490). ACN.CTL.COMMIT commits the counter block. -/
  | counterCommit (who : Fin 4) (v : Word) (bad : Fin 3)
  /-- COUNTER_PERIOD (R490). Every PERIOD minutes the counter block is committed. -/
  | counterPeriod (bad : Fin 3)
  /-- CLRRING (R491). CLRRING invalidates every fault record, keeping RSEQ. -/
  | clrring (who : Fin 4) (v : Word) (bad : Fin 3)
  /-- FIRMWARE_RECORD (R492). ACN.FW_CTL GO writes a TYPE 7 record. -/
  | firmwareRecord (who : Fin 4) (v : Word) (bad : Fin 3)
  /-- POWER_ON_RESET (R497). Supplies reach level, or an always-on rail leaves its range, and TBM restarts at 0. -/
  | powerOnReset
  /-- RESET_PIN (R498). RESET_N held low for 1 us warm-resets the package. -/
  | resetPin
  /-- WARM_RESET (R498). SEC.RST with key 0x5A and WARM resets the package. -/
  | warmReset (who : Fin 4) (v : Word)
  /-- RADIO_DIE_HOLD (R499). RDIE_HOLD 1 holds the radio die in reset. -/
  | radioDieHold (who : Fin 4) (v : Word)
  /-- RADIO_DIE_RELEASE (R499). RDIE_HOLD 0 releases the radio die. -/
  | radioDieRelease (who : Fin 4) (v : Word)
  /-- SUPPLY_PG_LOSS (R526). SUP_PG low for 10 us outside a regulator stage warm-resets the package. -/
  | supplyPgLoss
  /-- BOOT_GLITCH (R516). A supply or clock glitch resets in steps 1-6, or raises source 620 after step 7. -/
  | bootGlitch
  /-- BOOT_STEP_COMPLETE (R500). A Sprout boot step completes and the next begins, or the boot ends in Service. -/
  | bootStepComplete (avs boot fuses : Bool) (rdA rdB : Fin 3) (bad : Fin 3)
  /-- HOST_IMAGE_LOAD (R501). SEC.HLOAD_CTL.GO closes the aperture and checks the host image. -/
  | hostImageLoad (who : Fin 4) (v : Word)
  /-- IMAGE_VERIFY (R505). SEC.VER_CTL GO verifies a Hull image in GM. -/
  | imageVerify (who : Fin 4) (v : Word)
  /-- IMAGE_VERIFY_DONE (R505). The verifier reports RESULT. -/
  | imageVerifyDone
  /-- ARB_BURN (R507). SEC.ARB GO starts burning anti-rollback fuses, or is refused. -/
  | arbBurn (who : Fin 4) (v : Word)
  /-- ARB_FUSE_BURNED (R507). One anti-rollback fuse is burned. -/
  | arbFuseBurned
  /-- LIFECYCLE_ADVANCE (R509). SEC.LC_CTL GO burns a forward lifecycle state, or is refused. -/
  | lifecycleAdvance (who : Fin 4) (v : Word)
  /-- FUSE_PROGRAM_KEYHASH (R506). FUSE_CTL GO with TARGET 0-3 programs a key-hash slot. -/
  | fuseProgramKeyhash (who : Fin 4) (slot : Fin 4) (v : Word)
  /-- FUSE_PROGRAM_DEBUGKEY (R506). FUSE_CTL GO with TARGET 4 programs the debug-key slot. -/
  | fuseProgramDebugkey (who : Fin 4) (v : Word)
  /-- FUSE_REVOKE (R509). FUSE_CTL GO with TARGET 5 revokes a key-hash slot. -/
  | fuseRevoke (who : Fin 4) (v : Word)
  /-- SEC_LOCK (R510). A write of 1 to SEC.LOCK freezes every rwl field. -/
  | secLock (who : Fin 4) (v : Word)
  /-- MEAS_EXTEND (R512). SEC.MEAS_CTL GO extends MEAS2-MEAS7. -/
  | measExtend (who : Fin 4) (v : Word)
  /-- QUOTE_REQUEST (R513). SEC.QUOTE_CTL GO starts a signed quote. -/
  | quoteRequest (who : Fin 4) (v : Word)
  /-- QUOTE_DONE (R513). The quote is written to GM and STATUS reports. -/
  | quoteDone
  /-- DEBUG_CHALLENGE_REQUEST (R514). DBG_CTL REQ draws a fresh challenge. -/
  | debugChallengeRequest (who : Fin 4) (v : Word) (bad : Fin 3)
  /-- DEBUG_SUBMIT (R514). DBG_CTL SUBMIT checks the response and opens the debug port or counts a failure. -/
  | debugSubmit (who : Fin 4) (v : Word) (bad : Fin 3)
  /-- WATCHDOG_ENABLE (R515). SEC.WDT.EN starts the watchdog. -/
  | watchdogEnable (who : Fin 4) (v : Word)
  /-- WATCHDOG_KICK (R515). A write to SEC.WDT_KICK restarts the count. -/
  | watchdogKick (who : Fin 4) (v : Word)
  /-- WATCHDOG_MS_WRITE (R515). A write of MS while running applies at once to the running count. -/
  | watchdogMsWrite (who : Fin 4) (v : Word)
  /-- WATCHDOG_EXPIRY (R515). MS ms pass without a kick and the package resets with cause 5. -/
  | watchdogExpiry
  /-- TEMP_CONVERSION (R537). A junction temperature conversion updates TOP.TEMP and may raise source 636. -/
  | tempConversion (t : BitVec 16)
  /-- THERMAL_TRIP_SAMPLE (R537). Every 10 us the trip comparator samples; 1 ms at 125 C raises source 637. -/
  | thermalTripSample (t : BitVec 16) (bad : Fin 3)
  /-- ILLEGAL_INSTRUCTION (R58). Issue of a word with a reserved opcode, function or op value, or a non-zero field marked 0, raises ILLEGAL and halts the thread or sequencer. -/
  | illegalInstruction (iss : Issue)
  /-- LOAD_RESULT (R29). The data of a CM, GM or XM load miss returns, and the thread waiting for that memory result becomes ready. -/
  | loadResult (t : Fin 512) (k : Check)
  /-- PPDU_END (R146). A committed PPDU that solicits no response ends, which ends its frame exchange, frees its MPDUs and releases its grants. -/
  | ppduEnd (n : Fin 4) (slot : Fin 2)
  /-- FCS_FAIL_RECEIVE (R231). A received Wi-Fi PPDU or MPDU fails its FCS and is counted in MXn.RXCNT.FCSERR. -/
  | fcsFailReceive (n : Fin 3)
  /-- QOS_NULL_EOSP (R205). The MAC wins a TXOP and sends its own QoS Null with EOSP, and SP clears. -/
  | qosNullEosp (n : Fin 3) (st : BitVec 11)
  /-- EMLSR_TRANSITION_END (R210). The transition delay after an EMLSR station's frame exchange ends, and the arbiter releases its other links. -/
  | emlsrTransitionEnd (n : Fin 3) (st : BitVec 11)
  /-- CANDIDATE_BEACON (R227). During the parent search, a beacon from the current candidate's BSSID is heard and HEARD sets. -/
  | candidateBeacon (t : Nat)
  /-- PLL_RELOCK (R230). A radio synthesiser regains lock and RF_STAT.LOCK returns to 1. -/
  | pllRelock (n : Fin 4)
  /-- ANTENNA_FAULT (R235). Reflected power beyond limit disables a transmit chain or the Pip transmitter and raises source 163 + 32n or 259. -/
  | antennaFault (n : Fin 4) (chain : Fin 4)
  /-- RF_POWER_LIMIT (R235). Temperature or reflected power limits a chain's transmit power, setting RF_STAT.LIMIT and raising source 162 + 32n or 258. -/
  | rfPowerLimit (n : Fin 4) (chain : Fin 4) (on : Bool)
  /-- MAC_ENABLE (R223). A write of MXn.CTL.EN = 1 enables the MAC and runs RF calibration, which may fail with source 165 + 32n and leave the radio muted. -/
  | macEnable (who : Fin 4) (n : Fin 3) (v : Word) (ok : Bool)
  /-- PIP_ENABLE (R272). A write of PIP.CTL.EN = 1 enables the Pip radio and runs calibration, which may fail with source 260. -/
  | pipEnable (who : Fin 4) (v : Word) (ok : Bool)
  /-- PIP_FRAME_REJECT (R239). A Pip frame qualifies its sync word but has a LEN outside 8 to 96, a failing CRC, or a reserved TYPE or header bits, and is abandoned and counted in PIP.RXCNT.CRC. -/
  | pipFrameReject (t : Nat) (rssi : BitVec 8) (sat : Bool)
  /-- BASE_T_LINK_LOSS (R289). A copper link at 10G, 5G, 2.5G or 1000BASE-T is lost, counted in LCNT.DOWN, with source 289 + 16c. -/
  | baseTLinkLoss (c : Fin 2) (l : CuLoss)
  /-- TX_STREAM_LOW (R383). A radio's transmit stream buffer falls below TX_LO during a PPDU, and DRAM port 0 enters panic. -/
  | txStreamLow (n : Fin 3)
  /-- TX_STREAM_UNDERRUN (R384). A transmit stream buffer empties during a PPDU; the missing MPDUs go out with a corrupt FCS, UNDERRUN counts and source 502 is raised. -/
  | txStreamUnderrun (n : Fin 3)
  /-- QUICK_RETRAIN_DONE (R393). A DRAM quick retrain ends and sets READY, or fails and goes on to full training. -/
  | quickRetrainDone (ok : Bool)
  /-- PCIE_ERROR (R428). The PCIe link reports an AER correctable or uncorrectable error, raising source 565 or 566. -/
  | pcieError (uncorrectable : Bool)
  /-- DUMP_ERASE_DONE (R495). The erase of the dump region ends, BUSY clears and DUMP_CTL.STATE reads erased or flash error. -/
  | dumpEraseDone (ok : Bool)
deriving DecidableEq, Repr

end Sys2Proof
end

