-- ==== Sys2Proof/Machine/RegDesc.lean ====
section
/-! DEFINITION. How a register of the control window is described: its place, its width, and for each
field the bits, the access code (R4) and the reset value. -/

namespace Sys2Proof.Machine

/-- The access codes of R4. -/
inductive Acc where
  | rw
  | ro
  | wo
  | w1c
  | w1s
  | rc
  | sc
  | rwl
deriving DecidableEq, Repr

/-- A field's reset value: one for all, by array index, by instance, or the source's class (`FLT.SRC`). -/
inductive ResetVal where
  | all (v : Nat)
  | byIndex (v : List Nat)
  | byInst (v : List Nat)
  | cls
deriving DecidableEq, Repr

/-- One field of a register. -/
structure FieldDesc where
  hi : Nat
  lo : Nat
  acc : Acc
  reset : ResetVal
deriving DecidableEq, Repr

/-- One register of a block: `count` array elements at `stride`, `words` words each (R8), one copy per
requester when `perReq` (R544), and `comp` when its value is computed from state that is not a register word. -/
structure RDesc where
  off : Nat
  count : Nat
  stride : Nat
  words : Nat
  perReq : Bool
  comp : Bool
  fields : List FieldDesc
deriving DecidableEq, Repr

/-- One block of the map (R540): its base, its instances and their stride. -/
structure BlockDesc where
  base : Nat
  inst : Nat
  istride : Nat
  regs : List RDesc
deriving DecidableEq, Repr

/-- A named field: the offset of its register's lowest word in the window (plus 2^32 times the requester
number for a per-requester register) and its bits. -/
structure Fld where
  addr : Nat
  hi : Nat
  lo : Nat
deriving DecidableEq, Repr

/-- Where an offset of the window lands: the register, its instance, index and word. -/
structure RLoc where
  desc : RDesc
  base : Nat
  inst : Nat
  idx : Nat
  word : Nat
deriving DecidableEq, Repr

end Sys2Proof.Machine
end

