-- ==== Sys2Proof/Machine/Fields.lean ====
section
/-! DEFINITION. The fields of every register of the control window, one name each, at the offsets and
bit positions of the register rules named in `RegTable.lean` (R133 .. R545).  An instance number comes
first, then an index, then the requester of a per-requester register. -/

namespace Sys2Proof.Machine.F

/-! TOP (22_register_map.md:R545) -/
def TOP_IDENT_VENDOR : Fld := ⟨0x0, 15, 0⟩
def TOP_IDENT_PART : Fld := ⟨0x0, 31, 16⟩
def TOP_REV_STEP : Fld := ⟨0x4, 3, 0⟩
def TOP_REV_BASE : Fld := ⟨0x4, 7, 4⟩
def TOP_REV_CODE : Fld := ⟨0x4, 9, 8⟩
def TOP_FEAT_QUAL : Fld := ⟨0x8, 0, 0⟩
def TOP_TEMP_NOW : Fld := ⟨0x10, 15, 0⟩
def TOP_TEMP_MAX : Fld := ⟨0x10, 31, 16⟩
def TOP_MODE_CUR : Fld := ⟨0x20, 3, 0⟩
def TOP_MODE_BASE : Fld := ⟨0x20, 7, 4⟩
def TOP_MODE_PEND : Fld := ⟨0x20, 8, 8⟩
def TOP_MODE_BUSY : Fld := ⟨0x20, 9, 9⟩
def TOP_MODE_REQ_TARGET : Fld := ⟨0x24, 3, 0⟩
def TOP_MODE_REQ_GO : Fld := ⟨0x24, 4, 4⟩
def TOP_MODE_REQ_STATUS : Fld := ⟨0x24, 9, 8⟩
def TOP_MODE_REQ_REFUSALS : Fld := ⟨0x24, 31, 24⟩
def TOP_BADACC_COUNT : Fld := ⟨0x30, 15, 0⟩
def TOP_PEEK_EN (who : Nat) : Fld := ⟨0x34 + 0x100000000 * who, 0, 0⟩
/-! TIME (04_time_and_phase.md:R133) -/
def TIME_TBM_FRAC : Fld := ⟨0x10000, 31, 0⟩
def TIME_TBM_NS : Fld := ⟨0x10000, 95, 32⟩
def TIME_TBN_FRAC : Fld := ⟨0x10010, 31, 0⟩
def TIME_TBN_NS : Fld := ⟨0x10010, 95, 32⟩
def TIME_TBN_CTL_LOCKED : Fld := ⟨0x10020, 0, 0⟩
def TIME_TBN_CTL_ARMED : Fld := ⟨0x10020, 1, 1⟩
def TIME_TBN_CTL_HOLDOVER : Fld := ⟨0x10020, 2, 2⟩
def TIME_TBN_CTL_RESET : Fld := ⟨0x10020, 3, 3⟩
def TIME_TBN_CTL_HOLD : Fld := ⟨0x10020, 4, 4⟩
def TIME_TBN_STEP_OFS : Fld := ⟨0x10024, 95, 0⟩
def TIME_TBN_RATE_RHO : Fld := ⟨0x10030, 31, 0⟩
def TIME_CLK_STAT_SRC : Fld := ⟨0x10034, 0, 0⟩
def TIME_CLK_STAT_X32K_OK : Fld := ⟨0x10034, 1, 1⟩
def TIME_CLK_STAT_FB : Fld := ⟨0x10034, 2, 2⟩
def TIME_TSF_US (k : Nat) : Fld := ⟨0x10040 + 0x8 * (k), 63, 0⟩
def TIME_PPS_CTL_OUT_MODE : Fld := ⟨0x10060, 1, 0⟩
def TIME_PPS_CTL_WIDTH : Fld := ⟨0x10060, 11, 2⟩
def TIME_PPS_CTL_IN_EN : Fld := ⟨0x10060, 12, 12⟩
def TIME_PPS_CTL_IN_FALL : Fld := ⟨0x10060, 13, 13⟩
def TIME_PPS_CTL_PPS_TOL : Fld := ⟨0x10060, 23, 14⟩
def TIME_PPS_CAP_TBM_NS : Fld := ⟨0x10068, 63, 0⟩
def TIME_PPS_CAP_TBN_NS : Fld := ⟨0x10070, 63, 0⟩
def TIME_PPS_CNT_EDGES : Fld := ⟨0x10078, 31, 0⟩
def TIME_PORT_COMP_ING (k : Nat) : Fld := ⟨0x10100 + 0x4 * (k), 15, 0⟩
def TIME_PORT_COMP_EGR (k : Nat) : Fld := ⟨0x10100 + 0x4 * (k), 31, 16⟩
def TIME_EGTS_SEQID (k : Nat) : Fld := ⟨0x10200 + 0x10 * (k), 15, 0⟩
def TIME_EGTS_MSGTYPE (k : Nat) : Fld := ⟨0x10200 + 0x10 * (k), 19, 16⟩
def TIME_EGTS_DOMAIN (k : Nat) : Fld := ⟨0x10200 + 0x10 * (k), 27, 20⟩
def TIME_EGTS_VALID (k : Nat) : Fld := ⟨0x10200 + 0x10 * (k), 31, 31⟩
def TIME_EGTS_NS (k : Nat) : Fld := ⟨0x10200 + 0x10 * (k), 95, 32⟩
/-! PHS (04_time_and_phase.md:R134) -/
def PHS_PD_CFG_EN (n : Nat) : Fld := ⟨0x20000 + 0x100 * n, 0, 0⟩
def PHS_PD_CFG_SRC (n : Nat) : Fld := ⟨0x20000 + 0x100 * n, 3, 1⟩
def PHS_PD_CFG_INDEX_REQ (n : Nat) : Fld := ⟨0x20000 + 0x100 * n, 4, 4⟩
def PHS_PD_CFG_INV_DIR (n : Nat) : Fld := ⟨0x20000 + 0x100 * n, 5, 5⟩
def PHS_PD_CFG_KP (n : Nat) : Fld := ⟨0x20000 + 0x100 * n, 9, 6⟩
def PHS_PD_CFG_KI (n : Nat) : Fld := ⟨0x20000 + 0x100 * n, 13, 10⟩
def PHS_PD_CFG_HZN (n : Nat) : Fld := ⟨0x20000 + 0x100 * n, 17, 14⟩
def PHS_PD_CFG_LOCK_N (n : Nat) : Fld := ⟨0x20000 + 0x100 * n, 23, 18⟩
def PHS_PD_SCALE_CPR (n : Nat) : Fld := ⟨0x20004 + 0x100 * n, 16, 0⟩
def PHS_PD_SCALE_REV_TOL (n : Nat) : Fld := ⟨0x20004 + 0x100 * n, 20, 17⟩
def PHS_PD_IDX_OFS (n : Nat) : Fld := ⟨0x20008 + 0x100 * n, 15, 0⟩
def PHS_PD_IDX_FILT (n : Nat) : Fld := ⟨0x20008 + 0x100 * n, 31, 16⟩
def PHS_PD_TOL_LOCK_TOL (n : Nat) : Fld := ⟨0x2000c + 0x100 * n, 11, 0⟩
def PHS_PD_TOL_LOSS_TOL (n : Nat) : Fld := ⟨0x2000c + 0x100 * n, 23, 12⟩
def PHS_PD_TOL_EB_FLOOR (n : Nat) : Fld := ⟨0x2000c + 0x100 * n, 31, 24⟩
def PHS_PD_TO_LOSS_TO (n : Nat) : Fld := ⟨0x20010 + 0x100 * n, 15, 0⟩
def PHS_PD_TO_ACQ_TO (n : Nat) : Fld := ⟨0x20010 + 0x100 * n, 31, 16⟩
def PHS_PD_STAT_STATE (n : Nat) : Fld := ⟨0x20014 + 0x100 * n, 1, 0⟩
def PHS_PD_STAT_IDX_SEEN (n : Nat) : Fld := ⟨0x20014 + 0x100 * n, 2, 2⟩
def PHS_PD_STAT_REV (n : Nat) : Fld := ⟨0x20014 + 0x100 * n, 3, 3⟩
def PHS_PD_STAT_EB (n : Nat) : Fld := ⟨0x20014 + 0x100 * n, 31, 16⟩
def PHS_PD_NOW_PHASE (n : Nat) : Fld := ⟨0x20018 + 0x100 * n, 31, 0⟩
def PHS_PD_CYC_CYC (n : Nat) : Fld := ⟨0x2001c + 0x100 * n, 15, 0⟩
def PHS_PD_RATE_W (n : Nat) : Fld := ⟨0x20020 + 0x100 * n, 63, 0⟩
def PHS_PD_HOBS_PHASE (n : Nat) : Fld := ⟨0x20030 + 0x100 * n, 31, 0⟩
def PHS_PD_HOBS_TBM (n : Nat) : Fld := ⟨0x20030 + 0x100 * n, 95, 32⟩
def PHS_PD_PQ_PHI (n : Nat) : Fld := ⟨0x20040 + 0x100 * n, 31, 0⟩
def PHS_PD_PT_NS (n : Nat) : Fld := ⟨0x20048 + 0x100 * n, 63, 0⟩
def PHS_PD_CNT_HREJ (n : Nat) : Fld := ⟨0x20050 + 0x100 * n, 7, 0⟩
def PHS_PD_CNT_ILLEG (n : Nat) : Fld := ⟨0x20050 + 0x100 * n, 15, 8⟩
def PHS_PD_CNT_LOSSES (n : Nat) : Fld := ⟨0x20050 + 0x100 * n, 23, 16⟩
def PHS_PD_CNT_CFG (n : Nat) : Fld := ⟨0x20050 + 0x100 * n, 31, 24⟩
/-! SQ (05_air_scheduler.md:R165) -/
def SQ_CTL_EN (n : Nat) : Fld := ⟨0x100000 + 0x10000 * n, 0, 0⟩
def SQ_CTL_HALTED (n : Nat) : Fld := ⟨0x100000 + 0x10000 * n, 1, 1⟩
def SQ_CTL_CAUSE (n : Nat) : Fld := ⟨0x100000 + 0x10000 * n, 4, 2⟩
def SQ_CTL_EXC (n : Nat) : Fld := ⟨0x100000 + 0x10000 * n, 7, 5⟩
def SQ_HALT_PC_PC (n : Nat) : Fld := ⟨0x100004 + 0x10000 * n, 15, 2⟩
def SQ_CYCLE_MODE (n : Nat) : Fld := ⟨0x100008 + 0x10000 * n, 1, 0⟩
def SQ_CYCLE_PD (n : Nat) : Fld := ⟨0x100008 + 0x10000 * n, 3, 2⟩
def SQ_CYCLE_DIV (n : Nat) : Fld := ⟨0x100008 + 0x10000 * n, 7, 4⟩
def SQ_CYCLE_PERIOD (n : Nat) : Fld := ⟨0x100008 + 0x10000 * n, 31, 12⟩
def SQ_CYC_STAT_WINDOWS (n : Nat) : Fld := ⟨0x10000c + 0x10000 * n, 6, 0⟩
def SQ_CYC_STAT_STATIONS (n : Nat) : Fld := ⟨0x10000c + 0x10000 * n, 16, 7⟩
def SQ_CYC_STAT_CYCLES (n : Nat) : Fld := ⟨0x10000c + 0x10000 * n, 31, 17⟩
def SQ_EW_LEAD_NS (n : Nat) : Fld := ⟨0x100010 + 0x10000 * n, 31, 0⟩
def SQ_RATE_CFG_DOWN_TH (n : Nat) : Fld := ⟨0x100014 + 0x10000 * n, 11, 0⟩
def SQ_RATE_CFG_UP_TH (n : Nat) : Fld := ⟨0x100014 + 0x10000 * n, 23, 12⟩
def SQ_RATE_CFG_UP_N (n : Nat) : Fld := ⟨0x100014 + 0x10000 * n, 27, 24⟩
def SQ_RATE_CFG_PER_SH (n : Nat) : Fld := ⟨0x100014 + 0x10000 * n, 30, 28⟩
def SQ_SRV_CFG_UL_MCS_DELTA (n : Nat) : Fld := ⟨0x100018 + 0x10000 * n, 3, 0⟩
def SQ_SRV_CFG_UL_TGT_RSSI (n : Nat) : Fld := ⟨0x100018 + 0x10000 * n, 11, 4⟩
def SQ_SRV_CFG_AGE_MARGIN (n : Nat) : Fld := ⟨0x100018 + 0x10000 * n, 14, 12⟩
def SQ_WCNT_LATE (n : Nat) : Fld := ⟨0x100020 + 0x10000 * n, 7, 0⟩
def SQ_WCNT_UNCERTAIN (n : Nat) : Fld := ⟨0x100020 + 0x10000 * n, 15, 8⟩
def SQ_WCNT_UNLOCKED (n : Nat) : Fld := ⟨0x100020 + 0x10000 * n, 23, 16⟩
def SQ_WCNT_SKIPS (n : Nat) : Fld := ⟨0x100020 + 0x10000 * n, 31, 24⟩
def SQ_GCNT_BUDGET (n : Nat) : Fld := ⟨0x100024 + 0x10000 * n, 7, 0⟩
def SQ_GCNT_CAP (n : Nat) : Fld := ⟨0x100024 + 0x10000 * n, 15, 8⟩
def SQ_GCNT_ARB (n : Nat) : Fld := ⟨0x100024 + 0x10000 * n, 23, 16⟩
def SQ_GCNT_EW (n : Nat) : Fld := ⟨0x100024 + 0x10000 * n, 31, 24⟩
def SQ_TCNT_MISS (n : Nat) : Fld := ⟨0x100028 + 0x10000 * n, 15, 0⟩
def SQ_HUSK_STAT_S0_STATE (n : Nat) : Fld := ⟨0x100040 + 0x10000 * n, 1, 0⟩
def SQ_HUSK_STAT_S0_OUT (n : Nat) : Fld := ⟨0x100040 + 0x10000 * n, 7, 4⟩
def SQ_HUSK_STAT_S1_STATE (n : Nat) : Fld := ⟨0x100040 + 0x10000 * n, 9, 8⟩
def SQ_HUSK_STAT_S1_OUT (n : Nat) : Fld := ⟨0x100040 + 0x10000 * n, 15, 12⟩
def SQ_HUSK_STAT_S1_FIRST (n : Nat) : Fld := ⟨0x100040 + 0x10000 * n, 16, 16⟩
def SQ_HUSK_CFG_BSR_UNDO (n : Nat) : Fld := ⟨0x100044 + 0x10000 * n, 0, 0⟩
def SQ_UCNT0_MEDIUM (n : Nat) : Fld := ⟨0x100048 + 0x10000 * n, 7, 0⟩
def SQ_UCNT0_PHASE (n : Nat) : Fld := ⟨0x100048 + 0x10000 * n, 15, 8⟩
def SQ_UCNT0_PLAN (n : Nat) : Fld := ⟨0x100048 + 0x10000 * n, 23, 16⟩
def SQ_UCNT0_DECLINED (n : Nat) : Fld := ⟨0x100048 + 0x10000 * n, 31, 24⟩
def SQ_UCNT1_KEYGEN (n : Nat) : Fld := ⟨0x10004c + 0x10000 * n, 7, 0⟩
def SQ_UCNT1_PROGRAM (n : Nat) : Fld := ⟨0x10004c + 0x10000 * n, 15, 8⟩
def SQ_UCNT1_HALT (n : Nat) : Fld := ⟨0x10004c + 0x10000 * n, 23, 16⟩
def SQ_UCNT1_RADIO (n : Nat) : Fld := ⟨0x10004c + 0x10000 * n, 31, 24⟩
def SQ_UCNT2_LATE (n : Nat) : Fld := ⟨0x100050 + 0x10000 * n, 7, 0⟩
def SQ_UCNT2_CASCADE (n : Nat) : Fld := ⟨0x100050 + 0x10000 * n, 15, 8⟩
def SQ_UCNT2_ORDER (n : Nat) : Fld := ⟨0x100050 + 0x10000 * n, 23, 16⟩
def SQ_UCNT2_KEYBUSY (n : Nat) : Fld := ⟨0x100050 + 0x10000 * n, 31, 24⟩
def SQ_COMMITS_COUNT (n : Nat) : Fld := ⟨0x100054 + 0x10000 * n, 31, 0⟩
def SQ_PN_BURN_COUNT (n : Nat) : Fld := ⟨0x100058 + 0x10000 * n, 31, 0⟩
def SQ_SD_WORD (n k : Nat) : Fld := ⟨0x104000 + 0x10000 * n + 0x4 * (k), 31, 0⟩
/-! SQA (05_air_scheduler.md:R166) -/
def SQA_STA_BASE_ADDR : Fld := ⟨0x108000, 24, 0⟩
def SQA_BIN_BASE_ADDR : Fld := ⟨0x108004, 24, 0⟩
def SQA_BIN_CFG_VALID : Fld := ⟨0x108008, 0, 0⟩
def SQA_BIN_CFG_AGE_LIMIT : Fld := ⟨0x108008, 15, 8⟩
def SQA_BIN_CFG_AGE_PERIOD : Fld := ⟨0x108008, 31, 16⟩
def SQA_STA_STAGE_WORD (k : Nat) : Fld := ⟨0x108020 + 0x4 * (k), 31, 0⟩
def SQA_STA_UPD_STA : Fld := ⟨0x108040, 10, 0⟩
def SQA_STA_UPD_GO : Fld := ⟨0x108040, 16, 16⟩
def SQA_BIN_STAGE_BIN : Fld := ⟨0x108048, 63, 0⟩
def SQA_BIN_UPD_STA : Fld := ⟨0x108050, 10, 0⟩
def SQA_BIN_UPD_LINK : Fld := ⟨0x108050, 12, 11⟩
def SQA_BIN_UPD_BIN : Fld := ⟨0x108050, 18, 13⟩
def SQA_BIN_UPD_ALL : Fld := ⟨0x108050, 19, 19⟩
def SQA_BIN_UPD_AGE : Fld := ⟨0x108050, 20, 20⟩
def SQA_BIN_UPD_GO : Fld := ⟨0x108050, 24, 24⟩
def SQA_QLIM_FRAMES : Fld := ⟨0x108058, 15, 0⟩
def SQA_QDROP_NOASSOC : Fld := ⟨0x10805c, 15, 0⟩
def SQA_QDROP_QFULL : Fld := ⟨0x10805c, 31, 16⟩
def SQA_EPOCH_EPOCH : Fld := ⟨0x108060, 5, 0⟩
def SQA_SB_BASE_ADDR : Fld := ⟨0x108080, 24, 0⟩
def SQA_RX_HOLD_US : Fld := ⟨0x108084, 15, 0⟩
def SQA_RETRY_LIMIT : Fld := ⟨0x108088, 3, 0⟩
def SQA_RETRY_LIFE : Fld := ⟨0x108088, 31, 16⟩
def SQA_CT_BASE_ADDR : Fld := ⟨0x108090, 33, 0⟩
def SQA_CT_SIZE_SIZE : Fld := ⟨0x108098, 15, 0⟩
def SQA_SB_RO_ADDR : Fld := ⟨0x1080a0, 33, 0⟩
def SQA_SB_UPD_STA : Fld := ⟨0x1080a8, 10, 0⟩
def SQA_SB_UPD_TID : Fld := ⟨0x1080a8, 13, 11⟩
def SQA_SB_UPD_CLOSE : Fld := ⟨0x1080a8, 14, 14⟩
def SQA_SB_UPD_WSIZE : Fld := ⟨0x1080a8, 25, 15⟩
def SQA_SB_UPD_GO : Fld := ⟨0x1080a8, 31, 31⟩
def SQA_SB_SSN_SSN : Fld := ⟨0x1080ac, 11, 0⟩
def SQA_RXCNT_DUP : Fld := ⟨0x1080b0, 15, 0⟩
def SQA_RXCNT_RPLY : Fld := ⟨0x1080b0, 31, 16⟩
def SQA_TXDROP_RETRY : Fld := ⟨0x1080b4, 15, 0⟩
def SQA_TXDROP_LIFE : Fld := ⟨0x1080b4, 31, 16⟩
/-! MX (07_wifi_radios.md:R231) -/
def MX_CTL_EN (n : Nat) : Fld := ⟨0x200000 + 0x40000 * n, 0, 0⟩
def MX_CTL_TXOFF (n : Nat) : Fld := ⟨0x200000 + 0x40000 * n, 1, 1⟩
def MX_CTL_MUTED (n : Nat) : Fld := ⟨0x200000 + 0x40000 * n, 2, 2⟩
def MX_BSS_CFG_EN (n k : Nat) : Fld := ⟨0x200100 + 0x40000 * n + 0x10 * (k), 0, 0⟩
def MX_BSS_CFG_BCN (n k : Nat) : Fld := ⟨0x200100 + 0x40000 * n + 0x10 * (k), 1, 1⟩
def MX_BSS_CFG_NONTX (n k : Nat) : Fld := ⟨0x200100 + 0x40000 * n + 0x10 * (k), 2, 2⟩
def MX_BSS_CFG_DTIM (n k : Nat) : Fld := ⟨0x200100 + 0x40000 * n + 0x10 * (k), 15, 8⟩
def MX_BSS_CFG_BI (n k : Nat) : Fld := ⟨0x200100 + 0x40000 * n + 0x10 * (k), 31, 16⟩
def MX_BSS_TBTT_OFS (n k : Nat) : Fld := ⟨0x200104 + 0x40000 * n + 0x10 * (k), 23, 0⟩
def MX_BSS_TBTT_LATE (n k : Nat) : Fld := ⟨0x200104 + 0x40000 * n + 0x10 * (k), 31, 24⟩
def MX_BSS_ADDR_ADDR (n k : Nat) : Fld := ⟨0x200108 + 0x40000 * n + 0x10 * (k), 47, 0⟩
def MX_BCN_TPL_ADDR (n k : Nat) : Fld := ⟨0x200200 + 0x40000 * n + 0x8 * (k), 33, 0⟩
def MX_BCN_TPL_LEN (n k : Nat) : Fld := ⟨0x200200 + 0x40000 * n + 0x8 * (k), 45, 34⟩
def MX_BCN_TPL_BKEY (n k : Nat) : Fld := ⟨0x200200 + 0x40000 * n + 0x8 * (k), 58, 46⟩
def MX_BCN_TPL_BPROT (n k : Nat) : Fld := ⟨0x200200 + 0x40000 * n + 0x8 * (k), 59, 59⟩
def MX_BCN_STAT_STARVED (n : Nat) : Fld := ⟨0x200300 + 0x40000 * n, 15, 0⟩
def MX_BCN_RUN_RUN (n k : Nat) : Fld := ⟨0x200340 + 0x40000 * n + 0x4 * (k), 7, 0⟩
def MX_BCN_RUN_FAILS (n k : Nat) : Fld := ⟨0x200340 + 0x40000 * n + 0x4 * (k), 31, 16⟩
def MX_LINK_BASE_ADDR (n : Nat) : Fld := ⟨0x200400 + 0x40000 * n, 24, 0⟩
def MX_LINK_STAGE_WORD (n k : Nat) : Fld := ⟨0x200420 + 0x40000 * n + 0x4 * (k), 31, 0⟩
def MX_LINK_UPD_STA (n : Nat) : Fld := ⟨0x200440 + 0x40000 * n, 10, 0⟩
def MX_LINK_UPD_GO (n : Nat) : Fld := ⟨0x200440 + 0x40000 * n, 16, 16⟩
def MX_LINK_UPD_ERR (n : Nat) : Fld := ⟨0x200440 + 0x40000 * n, 17, 17⟩
def MX_RXCNT_FCSERR (n : Nat) : Fld := ⟨0x200450 + 0x40000 * n, 15, 0⟩
def MX_RXCNT_OVF (n : Nat) : Fld := ⟨0x200450 + 0x40000 * n, 31, 16⟩
/-! MXA (07_wifi_radios.md:R232) -/
def MXA_ML_CFG_APNSTR_AB : Fld := ⟨0x200800, 0, 0⟩
def MXA_ML_CFG_APNSTR_AC : Fld := ⟨0x200800, 1, 1⟩
def MXA_ML_CFG_APNSTR_BC : Fld := ⟨0x200800, 2, 2⟩
def MXA_ML_HOLDS_COUNT : Fld := ⟨0x200804, 31, 0⟩
def MXA_BH_CFG_RADIO : Fld := ⟨0x200810, 1, 0⟩
def MXA_BH_CFG_STA : Fld := ⟨0x200810, 12, 2⟩
def MXA_BH_CFG_WIN : Fld := ⟨0x200810, 23, 16⟩
def MXA_BH_CFG_CAND_N : Fld := ⟨0x200810, 27, 24⟩
def MXA_BH_CTL_UP : Fld := ⟨0x200814, 0, 0⟩
def MXA_BH_CTL_CUR : Fld := ⟨0x200814, 3, 1⟩
def MXA_BH_CTL_LOST : Fld := ⟨0x200814, 4, 4⟩
def MXA_BH_CTL_HEARD : Fld := ⟨0x200814, 5, 5⟩
def MXA_BH_CTL_MISSED : Fld := ⟨0x200814, 15, 8⟩
def MXA_BH_STAT_LOSSES : Fld := ⟨0x200818, 15, 0⟩
def MXA_BH_STAT_STEPS : Fld := ⟨0x200818, 31, 16⟩
def MXA_BH_LAST_LAST : Fld := ⟨0x20081c, 15, 0⟩
def MXA_BH_CAND_ADDR_BSSID (k : Nat) : Fld := ⟨0x200820 + 0x10 * (k), 47, 0⟩
def MXA_BH_CAND_CH_CH (k : Nat) : Fld := ⟨0x200828 + 0x10 * (k), 7, 0⟩
def MXA_BH_CAND_CH_BW (k : Nat) : Fld := ⟨0x200828 + 0x10 * (k), 10, 8⟩
def MXA_BH_CAND_CH_CH320_2 (k : Nat) : Fld := ⟨0x200828 + 0x10 * (k), 11, 11⟩
def MXA_BH_CAND_CH_RADIO (k : Nat) : Fld := ⟨0x200828 + 0x10 * (k), 13, 12⟩
def MXA_BH_CAND_CH_BI (k : Nat) : Fld := ⟨0x200828 + 0x10 * (k), 31, 16⟩
/-! RF (07_wifi_radios.md:R233) -/
def RF_CHAN_PRIM (n : Nat) : Fld := ⟨0x300000 + 0x40000 * n, 7, 0⟩
def RF_CHAN_BW (n : Nat) : Fld := ⟨0x300000 + 0x40000 * n, 10, 8⟩
def RF_CHAN_CH320_2 (n : Nat) : Fld := ⟨0x300000 + 0x40000 * n, 11, 11⟩
def RF_CHAN_PUNCT (n : Nat) : Fld := ⟨0x300000 + 0x40000 * n, 31, 16⟩
def RF_TXPWR_MAX (n : Nat) : Fld := ⟨0x300004 + 0x40000 * n, 5, 0⟩
def RF_TXPWR_TXCH (n : Nat) : Fld := ⟨0x300004 + 0x40000 * n, 11, 8⟩
def RF_TXPWR_RXCH (n : Nat) : Fld := ⟨0x300004 + 0x40000 * n, 15, 12⟩
def RF_CSW_CTL_CH (n : Nat) : Fld := ⟨0x300008 + 0x40000 * n, 7, 0⟩
def RF_CSW_CTL_BW (n : Nat) : Fld := ⟨0x300008 + 0x40000 * n, 10, 8⟩
def RF_CSW_CTL_CH320_2 (n : Nat) : Fld := ⟨0x300008 + 0x40000 * n, 11, 11⟩
def RF_CSW_CTL_QUIET (n : Nat) : Fld := ⟨0x300008 + 0x40000 * n, 12, 12⟩
def RF_CSW_CTL_COUNT (n : Nat) : Fld := ⟨0x300008 + 0x40000 * n, 20, 13⟩
def RF_CSW_CTL_GO (n : Nat) : Fld := ⟨0x300008 + 0x40000 * n, 21, 21⟩
def RF_CSW_PUNCT_PUNCT (n : Nat) : Fld := ⟨0x30000c + 0x40000 * n, 15, 0⟩
def RF_SND_CFG_MU (n : Nat) : Fld := ⟨0x300010 + 0x40000 * n, 0, 0⟩
def RF_SND_CFG_GROUP (n : Nat) : Fld := ⟨0x300010 + 0x40000 * n, 8, 1⟩
def RF_SND_CFG_MAXAGE (n : Nat) : Fld := ⟨0x300010 + 0x40000 * n, 20, 9⟩
def RF_STEER_COPY_SRC (n : Nat) : Fld := ⟨0x300014 + 0x40000 * n, 11, 0⟩
def RF_STEER_COPY_DST (n : Nat) : Fld := ⟨0x300014 + 0x40000 * n, 23, 12⟩
def RF_STEER_COPY_GO (n : Nat) : Fld := ⟨0x300014 + 0x40000 * n, 24, 24⟩
def RF_SND_CNT_OK (n : Nat) : Fld := ⟨0x300018 + 0x40000 * n, 15, 0⟩
def RF_SND_CNT_MISS (n : Nat) : Fld := ⟨0x300018 + 0x40000 * n, 31, 16⟩
def RF_RF_STAT_LOCK (n : Nat) : Fld := ⟨0x30001c + 0x40000 * n, 0, 0⟩
def RF_RF_STAT_ANTF (n : Nat) : Fld := ⟨0x30001c + 0x40000 * n, 4, 1⟩
def RF_RF_STAT_LIMIT (n : Nat) : Fld := ⟨0x30001c + 0x40000 * n, 8, 5⟩
def RF_RF_STAT_NOISE (n : Nat) : Fld := ⟨0x30001c + 0x40000 * n, 23, 16⟩
def RF_RF_STAT_BUSY (n : Nat) : Fld := ⟨0x30001c + 0x40000 * n, 31, 24⟩
/-! RFB (07_wifi_radios.md:R234) -/
def RFB_DET_CTL_EN : Fld := ⟨0x340100, 0, 0⟩
def RFB_DET_CTL_THR : Fld := ⟨0x340100, 8, 1⟩
def RFB_DET_EVT_SUBCH : Fld := ⟨0x340108, 15, 0⟩
def RFB_DET_EVT_PULSES : Fld := ⟨0x340108, 23, 16⟩
def RFB_DET_EVT_WIDTH : Fld := ⟨0x340108, 30, 24⟩
def RFB_DET_EVT_VALID : Fld := ⟨0x340108, 31, 31⟩
def RFB_DET_EVT_RSSI : Fld := ⟨0x340108, 39, 32⟩
def RFB_DET_EVT_CHIRP : Fld := ⟨0x340108, 40, 40⟩
def RFB_DET_EVT_NS : Fld := ⟨0x340108, 127, 64⟩
def RFB_DET_STAT_DEPTH : Fld := ⟨0x340118, 4, 0⟩
def RFB_DET_STAT_OVF : Fld := ⟨0x340118, 5, 5⟩
/-! PIP (08_pip_radio.md:R272) -/
def PIP_CTL_EN : Fld := ⟨0x400000, 0, 0⟩
def PIP_CTL_TXOFF : Fld := ⟨0x400000, 1, 1⟩
def PIP_CTL_MUTED : Fld := ⟨0x400000, 2, 2⟩
def PIP_CTL_BAND : Fld := ⟨0x400000, 3, 3⟩
def PIP_CHPLAN_F0 : Fld := ⟨0x400004, 19, 0⟩
def PIP_CHPLAN_SP : Fld := ⟨0x400004, 27, 20⟩
def PIP_HOME_CH : Fld := ⟨0x400008, 5, 0⟩
def PIP_CHMAP_MAP : Fld := ⟨0x400010, 63, 0⟩
def PIP_CHMAP_NEXT_MAP : Fld := ⟨0x400018, 63, 0⟩
def PIP_CHMAP_AT_AT : Fld := ⟨0x400020, 15, 0⟩
def PIP_CHMAP_AT_GO : Fld := ⟨0x400020, 16, 16⟩
def PIP_NETID_NETID : Fld := ⟨0x400028, 15, 0⟩
def PIP_ADDR_ADDR : Fld := ⟨0x40002c, 31, 0⟩
def PIP_TX_CFG_PWR : Fld := ⟨0x400030, 5, 0⟩
def PIP_TX_CFG_LBT : Fld := ⟨0x400030, 6, 6⟩
def PIP_TX_CFG_CCA_THR : Fld := ⟨0x400030, 14, 7⟩
def PIP_TX_CFG_PRE : Fld := ⟨0x400030, 22, 15⟩
def PIP_DET_THR : Fld := ⟨0x400034, 7, 0⟩
def PIP_DET_SYNC_MIN : Fld := ⟨0x400034, 13, 8⟩
def PIP_SYNC_WORD : Fld := ⟨0x400038, 31, 0⟩
def PIP_BCN_CFG_EN : Fld := ⟨0x400040, 0, 0⟩
def PIP_BCN_CFG_RATE : Fld := ⟨0x400040, 2, 1⟩
def PIP_BCN_CFG_REP : Fld := ⟨0x400040, 4, 3⟩
def PIP_BCN_CFG_JOIN_OPEN : Fld := ⟨0x400040, 5, 5⟩
def PIP_BCN_CFG_LATE : Fld := ⟨0x400040, 15, 8⟩
def PIP_BCN_CFG_BI : Fld := ⟨0x400040, 31, 16⟩
def PIP_BCN_OFS_OFS : Fld := ⟨0x400044, 31, 0⟩
def PIP_BCN_KEY_SLOT : Fld := ⟨0x400048, 12, 0⟩
def PIP_BCN_STAT_STARVED : Fld := ⟨0x40004c, 0, 0⟩
def PIP_BCN_STAT_RUN : Fld := ⟨0x40004c, 15, 8⟩
def PIP_BCN_STAT_FAILS : Fld := ⟨0x40004c, 31, 16⟩
def PIP_BCTR_NEXT : Fld := ⟨0x400050, 31, 0⟩
def PIP_FCTR_NEXT : Fld := ⟨0x400054, 31, 0⟩
def PIP_NODE_BASE_ADDR : Fld := ⟨0x400060, 24, 0⟩
def PIP_EV_LEAD_NS : Fld := ⟨0x400064, 31, 0⟩
def PIP_RETRY_LIMIT : Fld := ⟨0x400068, 3, 0⟩
def PIP_QLIM_FRAMES : Fld := ⟨0x40006c, 7, 0⟩
def PIP_NODE_STAGE_WORD (k : Nat) : Fld := ⟨0x400080 + 0x4 * (k), 31, 0⟩
def PIP_NODE_UPD_NODE : Fld := ⟨0x4000c0, 13, 0⟩
def PIP_NODE_UPD_GO : Fld := ⟨0x4000c0, 16, 16⟩
def PIP_NODE_UPD_CONN : Fld := ⟨0x4000c0, 17, 17⟩
def PIP_NODE_UPD_MERGE : Fld := ⟨0x4000c0, 18, 18⟩
def PIP_NODE_UPD_ERR : Fld := ⟨0x4000c0, 19, 19⟩
def PIP_RXCNT_CRC : Fld := ⟨0x4000d0, 15, 0⟩
def PIP_RXCNT_MIC : Fld := ⟨0x4000d0, 31, 16⟩
def PIP_RXCNT2_DUP : Fld := ⟨0x4000d4, 15, 0⟩
def PIP_RXCNT2_RPLY : Fld := ⟨0x4000d4, 31, 16⟩
def PIP_LCNT_STO : Fld := ⟨0x4000d8, 15, 0⟩
def PIP_LCNT_UNKNOWN : Fld := ⟨0x4000d8, 31, 16⟩
def PIP_QDROP_NOCONN : Fld := ⟨0x4000dc, 15, 0⟩
def PIP_QDROP_QFULL : Fld := ⟨0x4000dc, 31, 16⟩
def PIP_FLOOD_SEEN : Fld := ⟨0x4000e0, 15, 0⟩
def PIP_FLOOD_EVICT : Fld := ⟨0x4000e0, 31, 16⟩
def PIP_TXDROP_RETRY : Fld := ⟨0x4000e4, 15, 0⟩
def PIP_EGDROP_SIZE : Fld := ⟨0x4000e8, 15, 0⟩
def PIP_EGDROP_TYPE : Fld := ⟨0x4000e8, 31, 16⟩
def PIP_RX_STAT_RSSI : Fld := ⟨0x4000ec, 7, 0⟩
def PIP_RX_STAT_SAT : Fld := ⟨0x4000ec, 8, 8⟩
def PIP_RX_STAT_SATCNT : Fld := ⟨0x4000ec, 31, 16⟩
def PIP_TXTIME_NS : Fld := ⟨0x4000f0, 63, 0⟩
/-! CU (09_copper_ports.md:R293) -/
def CU_CTL_MODE (n : Nat) : Fld := ⟨0x500000 + 0x20000 * n, 2, 0⟩
def CU_CTL_RESTART (n : Nat) : Fld := ⟨0x500000 + 0x20000 * n, 3, 3⟩
def CU_CTL_TREP (n : Nat) : Fld := ⟨0x500000 + 0x20000 * n, 5, 4⟩
def CU_CTL_ROLE (n : Nat) : Fld := ⟨0x500000 + 0x20000 * n, 7, 6⟩
def CU_CTL_FRT (n : Nat) : Fld := ⟨0x500000 + 0x20000 * n, 8, 8⟩
def CU_CTL_RXPAUSE (n : Nat) : Fld := ⟨0x500000 + 0x20000 * n, 9, 9⟩
def CU_CTL_TXPAUSE (n : Nat) : Fld := ⟨0x500000 + 0x20000 * n, 10, 10⟩
def CU_AN_ADV_RATES (n : Nat) : Fld := ⟨0x500004 + 0x20000 * n, 3, 0⟩
def CU_STAT_UP (n : Nat) : Fld := ⟨0x500008 + 0x20000 * n, 0, 0⟩
def CU_STAT_RATE (n : Nat) : Fld := ⟨0x500008 + 0x20000 * n, 3, 1⟩
def CU_STAT_MASTER (n : Nat) : Fld := ⟨0x500008 + 0x20000 * n, 4, 4⟩
def CU_STAT_MDIX (n : Nat) : Fld := ⟨0x500008 + 0x20000 * n, 5, 5⟩
def CU_STAT_TREP (n : Nat) : Fld := ⟨0x500008 + 0x20000 * n, 7, 6⟩
def CU_STAT_PHASE (n : Nat) : Fld := ⟨0x500008 + 0x20000 * n, 10, 8⟩
def CU_STAT_RFAULT (n : Nat) : Fld := ⟨0x500008 + 0x20000 * n, 11, 11⟩
def CU_MAXLEN_LEN (n : Nat) : Fld := ⟨0x50000c + 0x20000 * n, 13, 0⟩
def CU_MARGIN_MIN (n : Nat) : Fld := ⟨0x500010 + 0x20000 * n, 7, 0⟩
def CU_MARGIN_FRAME_LOSS (n : Nat) : Fld := ⟨0x500010 + 0x20000 * n, 15, 8⟩
def CU_SNR_MARGIN0 (n : Nat) : Fld := ⟨0x500014 + 0x20000 * n, 7, 0⟩
def CU_SNR_MARGIN1 (n : Nat) : Fld := ⟨0x500014 + 0x20000 * n, 15, 8⟩
def CU_SNR_MARGIN2 (n : Nat) : Fld := ⟨0x500014 + 0x20000 * n, 23, 16⟩
def CU_SNR_MARGIN3 (n : Nat) : Fld := ⟨0x500014 + 0x20000 * n, 31, 24⟩
def CU_LEN_M (n : Nat) : Fld := ⟨0x500018 + 0x20000 * n, 9, 0⟩
def CU_PAUSE_TH_XOFF (n : Nat) : Fld := ⟨0x50001c + 0x20000 * n, 7, 0⟩
def CU_PAUSE_TH_XON (n : Nat) : Fld := ⟨0x50001c + 0x20000 * n, 15, 8⟩
def CU_DIAG_CTL_GO (n : Nat) : Fld := ⟨0x500020 + 0x20000 * n, 0, 0⟩
def CU_DIAG_CTL_PAIRS (n : Nat) : Fld := ⟨0x500020 + 0x20000 * n, 4, 1⟩
def CU_DIAG_CTL_ERR (n : Nat) : Fld := ⟨0x500020 + 0x20000 * n, 5, 5⟩
def CU_DIAG_CTL_NVP (n : Nat) : Fld := ⟨0x500020 + 0x20000 * n, 25, 16⟩
def CU_DIAG_RES_STATE (n k : Nat) : Fld := ⟨0x500024 + 0x20000 * n + 0x4 * (k), 2, 0⟩
def CU_DIAG_RES_XP (n k : Nat) : Fld := ⟨0x500024 + 0x20000 * n + 0x4 * (k), 4, 3⟩
def CU_DIAG_RES_DIST (n k : Nat) : Fld := ⟨0x500024 + 0x20000 * n + 0x4 * (k), 14, 5⟩
def CU_DIAG_RES_AMP (n k : Nat) : Fld := ⟨0x500024 + 0x20000 * n + 0x4 * (k), 22, 15⟩
def CU_PCSCNT_FRAME (n : Nat) : Fld := ⟨0x500040 + 0x20000 * n, 15, 0⟩
def CU_PCSCNT_FRT (n : Nat) : Fld := ⟨0x500040 + 0x20000 * n, 31, 16⟩
def CU_MACCNT_RXBAD (n : Nat) : Fld := ⟨0x500044 + 0x20000 * n, 15, 0⟩
def CU_MACCNT_RXOVF (n : Nat) : Fld := ⟨0x500044 + 0x20000 * n, 31, 16⟩
def CU_EGCNT_LONG (n : Nat) : Fld := ⟨0x500048 + 0x20000 * n, 15, 0⟩
def CU_EGCNT_DOWN (n : Nat) : Fld := ⟨0x500048 + 0x20000 * n, 31, 16⟩
def CU_LCNT_DOWN (n : Nat) : Fld := ⟨0x50004c + 0x20000 * n, 15, 0⟩
def CU_LCNT_TFAIL (n : Nat) : Fld := ⟨0x50004c + 0x20000 * n, 31, 16⟩
/-! PRS (10_parser_classifier.md:R311) -/
def PRS_CFG_INNER_GRE : Fld := ⟨0x600000, 0, 0⟩
def PRS_CFG_INNER_VXLAN : Fld := ⟨0x600000, 1, 1⟩
def PRS_CFG_INNER_IPIP : Fld := ⟨0x600000, 2, 2⟩
def PRS_CFG_VXLAN_EN : Fld := ⟨0x600000, 3, 3⟩
def PRS_CFG_VXLAN_PORT : Fld := ⟨0x600000, 31, 16⟩
def PRS_BANK_ACTIVE : Fld := ⟨0x600004, 0, 0⟩
def PRS_BANK_SWAP : Fld := ⟨0x600004, 1, 1⟩
def PRS_BANK_SWAPS : Fld := ⟨0x600004, 31, 16⟩
def PRS_HASH_SEED_SEED : Fld := ⟨0x600008, 31, 0⟩
def PRS_PREC_BASE_ADDR : Fld := ⟨0x60000c, 24, 0⟩
def PRS_HOST_RAW_QP : Fld := ⟨0x600010, 31, 0⟩
def PRS_PAT_PORTS_PORTS : Fld := ⟨0x600014, 5, 0⟩
def PRS_DEF_ACT_WORD (k : Nat) : Fld := ⟨0x600020 + 0x4 * (k), 31, 0⟩
def PRS_MAL_ACT_ACT (k : Nat) : Fld := ⟨0x600044 + 0x4 * (k - 1), 1, 0⟩
def PRS_MAL_ACT_CLASS (k : Nat) : Fld := ⟨0x600044 + 0x4 * (k - 1), 7, 2⟩
def PRS_MAL_ACT_QP (k : Nat) : Fld := ⟨0x600044 + 0x4 * (k - 1), 12, 8⟩
def PRS_MAL_CNT_COUNT (k : Nat) : Fld := ⟨0x600084 + 0x4 * (k - 1), 31, 0⟩
def PRS_PCNT_PASSES : Fld := ⟨0x6000c0, 31, 0⟩
def PRS_CNT_NOHIT : Fld := ⟨0x6000c4, 15, 0⟩
def PRS_CNT_RDROP : Fld := ⟨0x6000c4, 31, 16⟩
def PRS_CNT2_RECIRC : Fld := ⟨0x6000c8, 15, 0⟩
def PRS_CNT2_ERR : Fld := ⟨0x6000c8, 31, 16⟩
def PRS_REGMAP_R (k : Nat) : Fld := ⟨0x600100 + 0x4 * (k), 31, 0⟩
def PRS_RULE_STAGE_WORD (k : Nat) : Fld := ⟨0x600400 + 0x4 * (k), 31, 0⟩
def PRS_RULE_UPD_INDEX : Fld := ⟨0x6004a0, 13, 0⟩
def PRS_RULE_UPD_BANK : Fld := ⟨0x6004a0, 14, 14⟩
def PRS_RULE_UPD_OP : Fld := ⟨0x6004a0, 16, 15⟩
def PRS_RULE_UPD_GO : Fld := ⟨0x6004a0, 17, 17⟩
def PRS_RULE_UPD_ERR : Fld := ⟨0x6004a0, 18, 18⟩
def PRS_RULE_HITS_HITS : Fld := ⟨0x6004a4, 31, 0⟩
def PRS_PAT_STAGE_WORD (k : Nat) : Fld := ⟨0x600500 + 0x4 * (k), 31, 0⟩
def PRS_PAT_UPD_PAT : Fld := ⟨0x600560, 9, 0⟩
def PRS_PAT_UPD_GO : Fld := ⟨0x600560, 10, 10⟩
def PRS_PAT_UPD_ERR : Fld := ⟨0x600560, 11, 11⟩
/-! HTS (11_task_scheduling.md:R330) -/
def HTS_CTL_PAUSE : Fld := ⟨0x700000, 0, 0⟩
def HTS_CTL_CLMAP_PEND : Fld := ⟨0x700000, 1, 1⟩
def HTS_CTL_AFF_EN : Fld := ⟨0x700000, 2, 2⟩
def HTS_TS_LIM_PARSER : Fld := ⟨0x700004, 14, 0⟩
def HTS_TS_LIM_INJ : Fld := ⟨0x700004, 30, 16⟩
def HTS_STARVE_US : Fld := ⟨0x700008, 15, 0⟩
def HTS_CLASS_PRI_P (k : Nat) : Fld := ⟨0x700010 + 0x4 * (k), 31, 0⟩
def HTS_CLMAP_C (k : Nat) : Fld := ⟨0x700020 + 0x4 * (k), 31, 0⟩
def HTS_EG_BP_XOFF (k : Nat) : Fld := ⟨0x700060 + 0x4 * (k), 7, 0⟩
def HTS_EG_BP_XON (k : Nat) : Fld := ⟨0x700060 + 0x4 * (k), 15, 8⟩
def HTS_EG_BP_MAX (k : Nat) : Fld := ⟨0x700060 + 0x4 * (k), 23, 16⟩
def HTS_EG_BP_SRC (k : Nat) : Fld := ⟨0x700060 + 0x4 * (k), 29, 24⟩
def HTS_EG_BP_ON (k : Nat) : Fld := ⟨0x700060 + 0x4 * (k), 30, 30⟩
def HTS_EG_LVL_PKTS (k : Nat) : Fld := ⟨0x700080 + 0x4 * (k), 17, 0⟩
def HTS_OCC_TASKS (k : Nat) : Fld := ⟨0x7000a0 + 0x4 * (k), 14, 0⟩
def HTS_OCC_MATCH (k : Nat) : Fld := ⟨0x7000a0 + 0x4 * (k), 28, 16⟩
def HTS_ROB_OCC_PLACES (k : Nat) : Fld := ⟨0x7000c0 + 0x4 * (k), 12, 0⟩
def HTS_CNT_FORKREF : Fld := ⟨0x700100, 15, 0⟩
def HTS_CNT_INJREF : Fld := ⟨0x700100, 31, 16⟩
def HTS_CNT2_LOST : Fld := ⟨0x700104, 15, 0⟩
def HTS_CNT2_PSTALL : Fld := ⟨0x700104, 31, 16⟩
def HTS_CNT3_PIPDROP : Fld := ⟨0x700108, 15, 0⟩
def HTS_EGDROP_COUNT (k : Nat) : Fld := ⟨0x700110 + 0x4 * (k), 31, 0⟩
def HTS_FLUSH_REGION : Fld := ⟨0x700130, 3, 0⟩
def HTS_INJ_FLOW_FLOW (who : Nat) : Fld := ⟨0x700140 + 0x100000000 * who, 63, 0⟩
def HTS_INJ_VAL_VAL (who : Nat) : Fld := ⟨0x700148 + 0x100000000 * who, 63, 0⟩
def HTS_INJ_CTL_GO (who : Nat) : Fld := ⟨0x700150 + 0x100000000 * who, 0, 0⟩
def HTS_INJ_CTL_ACC (who : Nat) : Fld := ⟨0x700150 + 0x100000000 * who, 1, 1⟩
def HTS_INJ_CTL_ERR (who : Nat) : Fld := ⟨0x700150 + 0x100000000 * who, 2, 2⟩
/-! YCU (02_yalvo_architecture.md:R52) -/
def YCU_TASK_BUDGET_LIMIT : Fld := ⟨0x800010, 19, 0⟩
def YCU_GM_WPROT_BANK : Fld := ⟨0x800014, 31, 0⟩
def YCU_FAULT_DROPS_COUNT : Fld := ⟨0x800018, 31, 0⟩
def YCU_NOEMIT_DROPS_COUNT : Fld := ⟨0x80001c, 31, 0⟩
def YCU_CL_FENCE_FENCED : Fld := ⟨0x800020, 15, 0⟩
def YCU_LOAD_SRC_ADDR : Fld := ⟨0x800100, 24, 0⟩
def YCU_LOAD_CTL_GO : Fld := ⟨0x800104, 0, 0⟩
def YCU_LOAD_CTL_MODE : Fld := ⟨0x800104, 1, 1⟩
def YCU_LOAD_CTL_SEQ : Fld := ⟨0x800104, 7, 4⟩
def YCU_LOAD_CTL_DRAIN : Fld := ⟨0x800104, 31, 16⟩
def YCU_LOAD_UNITS_UNIT : Fld := ⟨0x800108, 63, 0⟩
def YCU_LOAD_STAT_STATUS : Fld := ⟨0x800110, 1, 0⟩
def YCU_LOAD_STAT_CRCERR : Fld := ⟨0x800110, 2, 2⟩
def YCU_LOAD_STAT_HDRERR : Fld := ⟨0x800110, 3, 3⟩
def YCU_LOAD_STAT_SKIPPED : Fld := ⟨0x800110, 15, 8⟩
def YCU_GEN_GEN (k : Nat) : Fld := ⟨0x801000 + 0x4 * (k), 31, 0⟩
def YCU_THR_STATE_T (k : Nat) : Fld := ⟨0x802000 + 0x4 * (k), 31, 0⟩
def YCU_THR_CTL_RESUME (k : Nat) : Fld := ⟨0x802100 + 0x4 * (k), 7, 0⟩
def YCU_THR_PC_PC (k : Nat) : Fld := ⟨0x802200 + 0x4 * (k), 15, 2⟩
def YCU_GWIN_G (k : Nat) : Fld := ⟨0x810000 + 0x8 * (k), 63, 0⟩
def YCU_PWWIN_PW (k : Nat) : Fld := ⟨0x830000 + 0x4 * (k), 31, 0⟩
/-! CIP (12_cipher_engine.md:R352) -/
def CIP_CTL_ZERO : Fld := ⟨0x900000, 0, 0⟩
def CIP_CTL_ALARM : Fld := ⟨0x900000, 1, 1⟩
def CIP_CTL_RT_BURST : Fld := ⟨0x900000, 11, 4⟩
def CIP_CTL_POOL : Fld := ⟨0x900000, 15, 12⟩
def CIP_KEY_STAGE_KEY (k who : Nat) : Fld := ⟨0x900100 + 0x4 * (k) + 0x100000000 * who, 31, 0⟩
def CIP_KEY_PN_PN (who : Nat) : Fld := ⟨0x900120 + 0x100000000 * who, 47, 0⟩
def CIP_KEY_CMD_SLOT (who : Nat) : Fld := ⟨0x900130 + 0x100000000 * who, 12, 0⟩
def CIP_KEY_CMD_OP (who : Nat) : Fld := ⟨0x900130 + 0x100000000 * who, 14, 13⟩
def CIP_KEY_CMD_TYPE (who : Nat) : Fld := ⟨0x900130 + 0x100000000 * who, 15, 15⟩
def CIP_KEY_CMD_USE (who : Nat) : Fld := ⟨0x900130 + 0x100000000 * who, 21, 16⟩
def CIP_KEY_CMD_GO (who : Nat) : Fld := ⟨0x900130 + 0x100000000 * who, 22, 22⟩
def CIP_KEY_CMD_ERR (who : Nat) : Fld := ⟨0x900130 + 0x100000000 * who, 23, 23⟩
def CIP_SLOT_SEL_SLOT : Fld := ⟨0x900140, 12, 0⟩
def CIP_SLOT_INFO_LOADED : Fld := ⟨0x900144, 0, 0⟩
def CIP_SLOT_INFO_TYPE : Fld := ⟨0x900144, 1, 1⟩
def CIP_SLOT_INFO_GEN : Fld := ⟨0x900144, 5, 2⟩
def CIP_SLOT_INFO_USE : Fld := ⟨0x900144, 11, 6⟩
def CIP_SLOT_PN_PN : Fld := ⟨0x900148, 47, 0⟩
def CIP_CNT_AUTHFAIL : Fld := ⟨0x900160, 15, 0⟩
def CIP_CNT_ERASED : Fld := ⟨0x900160, 31, 16⟩
def CIP_CNT2_REFUSED : Fld := ⟨0x900164, 15, 0⟩
def CIP_CNT2_MEMERR : Fld := ⟨0x900164, 31, 16⟩
def CIP_ZERO_STAT_SRC : Fld := ⟨0x900170, 9, 0⟩
def CIP_ZERO_STAT_COUNT : Fld := ⟨0x900170, 31, 16⟩
def CIP_LANE_BUSY_LANES : Fld := ⟨0x900180, 31, 0⟩
def CIP_QOCC_ENGINE : Fld := ⟨0x900184, 8, 0⟩
def CIP_RNG_STAT_OK : Fld := ⟨0x900190, 0, 0⟩
def CIP_RNG_STAT_RESEEDS : Fld := ⟨0x900190, 31, 16⟩
/-! EPT (13_endpoints_forwarding.md:R372) -/
def EPT_CTL_EN : Fld := ⟨0xa00000, 0, 0⟩
def EPT_CTL_FLUSH : Fld := ⟨0xa00000, 1, 1⟩
def EPT_TBL_BASE_ADDR : Fld := ⟨0xa00008, 33, 0⟩
def EPT_IDX_BASE_ADDR : Fld := ⟨0xa00010, 33, 0⟩
def EPT_RT_BASE_ADDR : Fld := ⟨0xa00018, 33, 0⟩
def EPT_CACHE_BANKS : Fld := ⟨0xa00020, 31, 0⟩
def EPT_CMD_BASE_ADDR : Fld := ⟨0xa00024, 24, 0⟩
def EPT_ALLOC_FLOOR_X : Fld := ⟨0xa00028, 17, 0⟩
def EPT_SEED_SEED : Fld := ⟨0xa0002c, 31, 0⟩
def EPT_EPOCH_NUM : Fld := ⟨0xa00030, 30, 0⟩
def EPT_EPOCH_ISLAND : Fld := ⟨0xa00030, 31, 31⟩
def EPT_OCC_ENTRIES : Fld := ⟨0xa00034, 18, 0⟩
def EPT_CNT_FULL : Fld := ⟨0xa00038, 15, 0⟩
def EPT_CNT_NOFREE : Fld := ⟨0xa00038, 31, 16⟩
def EPT_RT_STAGE_WORD (k : Nat) : Fld := ⟨0xa00040 + 0x4 * (k), 31, 0⟩
def EPT_RT_UPD_GO : Fld := ⟨0xa00060, 0, 0⟩
def EPT_RT_UPD_ERR : Fld := ⟨0xa00060, 1, 1⟩
def EPT_RT_OCC4_N : Fld := ⟨0xa00064, 16, 0⟩
def EPT_RT_OCC6_N : Fld := ⟨0xa00068, 16, 0⟩
def EPT_ILOG_BASE_ADDR : Fld := ⟨0xa00070, 33, 0⟩
def EPT_ILOG_CTL_KINDS : Fld := ⟨0xa00078, 7, 0⟩
def EPT_ILOG_CTL_SIZE : Fld := ⟨0xa00078, 23, 8⟩
def EPT_ILOG_CTL_OVF : Fld := ⟨0xa00078, 24, 24⟩
def EPT_ILOG_WR_PTR : Fld := ⟨0xa0007c, 15, 0⟩
def EPT_ILOG_RD_PTR : Fld := ⟨0xa00080, 15, 0⟩
def EPT_JRN_CFG_OFS : Fld := ⟨0xa00084, 15, 0⟩
def EPT_JRN_CTL_MOUNT : Fld := ⟨0xa00088, 0, 0⟩
def EPT_JRN_CTL_MOUNTED : Fld := ⟨0xa00088, 1, 1⟩
def EPT_JRN_CTL_COMPACT : Fld := ⟨0xa00088, 2, 2⟩
def EPT_JRN_CTL_BUSY : Fld := ⟨0xa00088, 3, 3⟩
def EPT_JRN_APP_TYPE (who : Nat) : Fld := ⟨0xa0008c + 0x100000000 * who, 7, 0⟩
def EPT_JRN_APP_LEN (who : Nat) : Fld := ⟨0xa0008c + 0x100000000 * who, 19, 8⟩
def EPT_JRN_APP_DEL (who : Nat) : Fld := ⟨0xa0008c + 0x100000000 * who, 20, 20⟩
def EPT_JRN_APP_GO (who : Nat) : Fld := ⟨0xa0008c + 0x100000000 * who, 21, 21⟩
def EPT_JRN_APP_STATUS (who : Nat) : Fld := ⟨0xa0008c + 0x100000000 * who, 24, 22⟩
def EPT_JRN_ID_ID (who : Nat) : Fld := ⟨0xa00090 + 0x100000000 * who, 31, 0⟩
def EPT_JRN_SRC_ADDR (who : Nat) : Fld := ⟨0xa00094 + 0x100000000 * who, 24, 0⟩
def EPT_JRN_DIR_ADDR : Fld := ⟨0xa00098, 33, 0⟩
def EPT_JRN_STAT_USED : Fld := ⟨0xa000a0, 6, 0⟩
def EPT_JRN_STAT_LIVE : Fld := ⟨0xa000a0, 29, 7⟩
def EPT_JRN_KEYS_N : Fld := ⟨0xa000a4, 16, 0⟩
def EPT_JRN_SEQ_SEQ : Fld := ⟨0xa000a8, 63, 0⟩
def EPT_JRN_CNT_TORN : Fld := ⟨0xa000b0, 15, 0⟩
def EPT_JRN_CNT_COMPACT : Fld := ⟨0xa000b0, 31, 16⟩
/-! DMC (14_dram_controller.md:R396) -/
def DMC_CTL_EN : Fld := ⟨0xb00000, 0, 0⟩
def DMC_CTL_ECC_EN : Fld := ⟨0xb00000, 1, 1⟩
def DMC_CTL_MAP : Fld := ⟨0xb00000, 3, 2⟩
def DMC_CTL_RANKS : Fld := ⟨0xb00000, 4, 4⟩
def DMC_CTL_DENS : Fld := ⟨0xb00000, 6, 5⟩
def DMC_CTL_TRAIN : Fld := ⟨0xb00000, 8, 8⟩
def DMC_CTL_FCHG : Fld := ⟨0xb00000, 9, 9⟩
def DMC_CTL_HOLD_AIR : Fld := ⟨0xb00000, 10, 10⟩
def DMC_CTL_SCRUB_EN : Fld := ⟨0xb00000, 11, 11⟩
def DMC_STAT_READY : Fld := ⟨0xb00004, 0, 0⟩
def DMC_STAT_TSET : Fld := ⟨0xb00004, 1, 1⟩
def DMC_STAT_RATE : Fld := ⟨0xb00004, 4, 2⟩
def DMC_STAT_FBUSY : Fld := ⟨0xb00004, 5, 5⟩
def DMC_STAT_TBUSY : Fld := ⟨0xb00004, 6, 6⟩
def DMC_STAT_PANIC : Fld := ⟨0xb00004, 23, 16⟩
def DMC_XM_SIZE_MIB : Fld := ⟨0xb00008, 14, 0⟩
def DMC_PORT_CFG_CLASS (k : Nat) : Fld := ⟨0xb00020 + 0x4 * (k), 1, 0⟩
def DMC_PORT_CFG_SPEC (k : Nat) : Fld := ⟨0xb00020 + 0x4 * (k), 2, 2⟩
def DMC_PORT_CFG_LAT (k : Nat) : Fld := ⟨0xb00020 + 0x4 * (k), 13, 4⟩
def DMC_PORT_CFG_PROMO (k : Nat) : Fld := ⟨0xb00020 + 0x4 * (k), 23, 14⟩
def DMC_PANIC_CFG_TX_LO : Fld := ⟨0xb00040, 7, 0⟩
def DMC_PANIC_CFG_RX_LO : Fld := ⟨0xb00040, 15, 8⟩
def DMC_PANIC_CFG_HYST : Fld := ⟨0xb00040, 23, 16⟩
def DMC_PANIC_CFG_ROWHIT_MAX : Fld := ⟨0xb00040, 27, 24⟩
def DMC_ECC_CNT_CE : Fld := ⟨0xb00050, 15, 0⟩
def DMC_ECC_CNT_TRANS : Fld := ⟨0xb00050, 31, 16⟩
def DMC_ECC_CNT2_UE : Fld := ⟨0xb00054, 15, 0⟩
def DMC_ECC_CNT2_SCRUBFIX : Fld := ⟨0xb00054, 31, 16⟩
def DMC_PORT_STAT_MISS (k : Nat) : Fld := ⟨0xb00060 + 0x4 * (k), 15, 0⟩
def DMC_PORT_STAT_MAXLAT (k : Nat) : Fld := ⟨0xb00060 + 0x4 * (k), 31, 16⟩
def DMC_PANIC_CNT_PANICS : Fld := ⟨0xb00080, 15, 0⟩
def DMC_PANIC_CNT_UNDERRUN : Fld := ⟨0xb00080, 31, 16⟩
def DMC_SPEC_CNT_DROPS : Fld := ⟨0xb00084, 31, 0⟩
def DMC_SCRUB_HOURS : Fld := ⟨0xb00090, 15, 0⟩
def DMC_TRAIN_STAT_RESULT : Fld := ⟨0xb00094, 1, 0⟩
def DMC_TRAIN_STAT_RETRAINS : Fld := ⟨0xb00094, 31, 16⟩
def DMC_TSET0_WORD (k : Nat) : Fld := ⟨0xb00400 + 0x4 * (k), 31, 0⟩
def DMC_TSET1_WORD (k : Nat) : Fld := ⟨0xb00480 + 0x4 * (k), 31, 0⟩
/-! DMA (15_dma_coherency.md:R414) -/
def DMA_CH_CTL_RUN (n : Nat) : Fld := ⟨0xc00000 + 0x40 * n, 0, 0⟩
def DMA_CH_CTL_STOP (n : Nat) : Fld := ⟨0xc00000 + 0x40 * n, 1, 1⟩
def DMA_CH_CTL_STOPPED (n : Nat) : Fld := ⟨0xc00000 + 0x40 * n, 2, 2⟩
def DMA_CH_CTL_DONE (n : Nat) : Fld := ⟨0xc00000 + 0x40 * n, 3, 3⟩
def DMA_CH_CTL_ERR (n : Nat) : Fld := ⟨0xc00000 + 0x40 * n, 4, 4⟩
def DMA_CH_CTL_CAUSE (n : Nat) : Fld := ⟨0xc00000 + 0x40 * n, 7, 5⟩
def DMA_CH_CFG_SHARE (n : Nat) : Fld := ⟨0xc00004 + 0x40 * n, 7, 0⟩
def DMA_CH_CFG_PRI (n : Nat) : Fld := ⟨0xc00004 + 0x40 * n, 9, 8⟩
def DMA_CH_CFG_RETRY (n : Nat) : Fld := ⟨0xc00004 + 0x40 * n, 12, 10⟩
def DMA_CH_CFG_NS (n : Nat) : Fld := ⟨0xc00004 + 0x40 * n, 13, 13⟩
def DMA_CH_CFG_RO (n : Nat) : Fld := ⟨0xc00004 + 0x40 * n, 14, 14⟩
def DMA_CH_CFG_DEST (n : Nat) : Fld := ⟨0xc00004 + 0x40 * n, 16, 15⟩
def DMA_CH_CFG_VEC (n : Nat) : Fld := ⟨0xc00004 + 0x40 * n, 23, 17⟩
def DMA_CH_HEAD_PTR (n : Nat) : Fld := ⟨0xc00008 + 0x40 * n, 63, 0⟩
def DMA_CH_CUR_PTR (n : Nat) : Fld := ⟨0xc00010 + 0x40 * n, 63, 0⟩
def DMA_CH_COUNT_BYTES (n : Nat) : Fld := ⟨0xc00018 + 0x40 * n, 23, 0⟩
def DMA_CH_CNT_TRANS (n : Nat) : Fld := ⟨0xc0001c + 0x40 * n, 15, 0⟩
def DMA_CH_CNT_DESCS (n : Nat) : Fld := ⟨0xc0001c + 0x40 * n, 31, 16⟩
/-! DMAS (15_dma_coherency.md:R415) -/
def DMAS_IRQ_DONE_CH : Fld := ⟨0xc01000, 63, 0⟩
def DMAS_IRQ_ERR_CH : Fld := ⟨0xc01008, 63, 0⟩
def DMAS_IRQ_DONE_EN_CH : Fld := ⟨0xc01010, 63, 0⟩
def DMAS_IRQ_ERR_EN_CH : Fld := ⟨0xc01018, 63, 0⟩
def DMAS_RATE_REF : Fld := ⟨0xc01020, 15, 0⟩
def DMAS_MCC_ADDR_ADDR (who : Nat) : Fld := ⟨0xc01030 + 0x100000000 * who, 34, 0⟩
def DMAS_MCC_LEN_LEN (who : Nat) : Fld := ⟨0xc01038 + 0x100000000 * who, 31, 0⟩
def DMAS_MCC_CTL_OP (who : Nat) : Fld := ⟨0xc0103c + 0x100000000 * who, 1, 0⟩
def DMAS_MCC_CTL_GO (who : Nat) : Fld := ⟨0xc0103c + 0x100000000 * who, 2, 2⟩
def DMAS_MCC_CTL_BUSY (who : Nat) : Fld := ⟨0xc0103c + 0x100000000 * who, 3, 3⟩
/-! HST (16_host_interface.md:R427) -/
def HST_LINK_SPEED : Fld := ⟨0xd00000, 2, 0⟩
def HST_LINK_WIDTH : Fld := ⟨0xd00000, 5, 3⟩
def HST_LINK_UP : Fld := ⟨0xd00000, 6, 6⟩
def HST_LINK_LIMP : Fld := ⟨0xd00000, 7, 7⟩
def HST_MISC_VEC_VEC : Fld := ⟨0xd00004, 6, 0⟩
def HST_MISC_VEC_EN : Fld := ⟨0xd00004, 7, 7⟩
def HST_RA_DEV_DEV : Fld := ⟨0xd00010, 5, 0⟩
def HST_RA_ADDR_ADDR : Fld := ⟨0xd00014, 25, 2⟩
def HST_RA_DATA_DATA : Fld := ⟨0xd00018, 31, 0⟩
def HST_RA_CTL_GO : Fld := ⟨0xd0001c, 0, 0⟩
def HST_RA_CTL_OP : Fld := ⟨0xd0001c, 1, 1⟩
def HST_RA_CTL_BUSY : Fld := ⟨0xd0001c, 2, 2⟩
def HST_RA_CTL_STATUS : Fld := ⟨0xd0001c, 4, 3⟩
def HST_RA_CTL_RA_TO : Fld := ⟨0xd0001c, 15, 8⟩
/-! HSTQ (16_host_interface.md:R427) -/
def HSTQ_QP_CTL_EN (n : Nat) : Fld := ⟨0xd01000 + 0x40 * n, 0, 0⟩
def HSTQ_QP_CTL_HALTED (n : Nat) : Fld := ⟨0xd01000 + 0x40 * n, 1, 1⟩
def HSTQ_QP_CTL_CAUSE (n : Nat) : Fld := ⟨0xd01000 + 0x40 * n, 3, 2⟩
def HSTQ_QP_CFG_SQ_LOG (n : Nat) : Fld := ⟨0xd01004 + 0x40 * n, 3, 0⟩
def HSTQ_QP_CFG_CQ_LOG (n : Nat) : Fld := ⟨0xd01004 + 0x40 * n, 7, 4⟩
def HSTQ_QP_CFG_NS (n : Nat) : Fld := ⟨0xd01004 + 0x40 * n, 8, 8⟩
def HSTQ_QP_CFG_RO (n : Nat) : Fld := ⟨0xd01004 + 0x40 * n, 9, 9⟩
def HSTQ_QP_CFG_VEC (n : Nat) : Fld := ⟨0xd01004 + 0x40 * n, 16, 10⟩
def HSTQ_QP_CFG_IRQ_EN (n : Nat) : Fld := ⟨0xd01004 + 0x40 * n, 17, 17⟩
def HSTQ_QP_COAL_N (n : Nat) : Fld := ⟨0xd01008 + 0x40 * n, 7, 0⟩
def HSTQ_QP_COAL_US (n : Nat) : Fld := ⟨0xd01008 + 0x40 * n, 23, 8⟩
def HSTQ_QP_SQBASE_ADDR (n : Nat) : Fld := ⟨0xd01010 + 0x40 * n, 63, 0⟩
def HSTQ_QP_CQBASE_ADDR (n : Nat) : Fld := ⟨0xd01018 + 0x40 * n, 63, 0⟩
def HSTQ_QP_IDX_SQHEAD (n : Nat) : Fld := ⟨0xd01020 + 0x40 * n, 15, 0⟩
def HSTQ_QP_IDX_CQTAIL (n : Nat) : Fld := ⟨0xd01020 + 0x40 * n, 31, 16⟩
def HSTQ_QP_RXLIM_FRAMES (n : Nat) : Fld := ⟨0xd01024 + 0x40 * n, 11, 0⟩
def HSTQ_QP_CNT_DUP (n : Nat) : Fld := ⟨0xd01028 + 0x40 * n, 15, 0⟩
def HSTQ_QP_CNT_STALE (n : Nat) : Fld := ⟨0xd01028 + 0x40 * n, 31, 16⟩
def HSTQ_QP_CNT2_RXDROP (n : Nat) : Fld := ⟨0xd0102c + 0x40 * n, 15, 0⟩
def HSTQ_QP_CNT2_BAD (n : Nat) : Fld := ⟨0xd0102c + 0x40 * n, 31, 16⟩
/-! FED (17_federation.md:R453) -/
def FED_CTL_EN : Fld := ⟨0xe00000, 0, 0⟩
def FED_CTL_ADMITTED : Fld := ⟨0xe00000, 1, 1⟩
def FED_CTL_SYNCED : Fld := ⟨0xe00000, 2, 2⟩
def FED_STAT_STATE : Fld := ⟨0xe00004, 2, 0⟩
def FED_STAT_QUORUM : Fld := ⟨0xe00004, 3, 3⟩
def FED_STAT_SERVE : Fld := ⟨0xe00004, 4, 4⟩
def FED_STAT_VIEW_PEND : Fld := ⟨0xe00004, 5, 5⟩
def FED_STAT_NREACH : Fld := ⟨0xe00004, 14, 8⟩
def FED_SIZE_CLASS_CLASS : Fld := ⟨0xe00008, 0, 0⟩
def FED_ETYPE_ETYPE : Fld := ⟨0xe0000c, 15, 0⟩
def FED_ID_ID : Fld := ⟨0xe00010, 5, 0⟩
def FED_ID_ANCHOR : Fld := ⟨0xe00010, 13, 8⟩
def FED_INCARN_INCARN : Fld := ⟨0xe00014, 31, 0⟩
def FED_EPOCH_SYS_NUM : Fld := ⟨0xe00018, 30, 0⟩
def FED_KEY_MAC : Fld := ⟨0xe0001c, 12, 0⟩
def FED_KEY_WRAP : Fld := ⟨0xe0001c, 28, 16⟩
def FED_TIMING_HB : Fld := ⟨0xe00020, 7, 0⟩
def FED_TIMING_RTO : Fld := ⟨0xe00020, 15, 8⟩
def FED_TIMING_RETRIES : Fld := ⟨0xe00020, 18, 16⟩
def FED_TIMING_SETTLE : Fld := ⟨0xe00020, 31, 24⟩
def FED_MEMBERS_SET : Fld := ⟨0xe00028, 63, 0⟩
def FED_ELIG_SET : Fld := ⟨0xe00030, 63, 0⟩
def FED_VOTE_W (k : Nat) : Fld := ⟨0xe00040 + 0x4 * (k), 31, 0⟩
def FED_REACH_SET : Fld := ⟨0xe00060, 63, 0⟩
def FED_LLADDR_ADDR : Fld := ⟨0xe00068, 47, 0⟩
def FED_SYS_GM_ADDR : Fld := ⟨0xe00070, 24, 0⟩
def FED_MBOX_BASE_ADDR : Fld := ⟨0xe00074, 24, 0⟩
def FED_MBOX_SIZE_N : Fld := ⟨0xe00078, 9, 0⟩
def FED_MBOX_WR_PTR : Fld := ⟨0xe0007c, 9, 0⟩
def FED_MBOX_RD_PTR : Fld := ⟨0xe00080, 9, 0⟩
def FED_TX_SRC_ADDR (who : Nat) : Fld := ⟨0xe00088 + 0x100000000 * who, 24, 0⟩
def FED_TX_CTL_TYPE (who : Nat) : Fld := ⟨0xe0008c + 0x100000000 * who, 7, 0⟩
def FED_TX_CTL_DST (who : Nat) : Fld := ⟨0xe0008c + 0x100000000 * who, 13, 8⟩
def FED_TX_CTL_ALL (who : Nat) : Fld := ⟨0xe0008c + 0x100000000 * who, 14, 14⟩
def FED_TX_CTL_REL (who : Nat) : Fld := ⟨0xe0008c + 0x100000000 * who, 15, 15⟩
def FED_TX_CTL_WRAP (who : Nat) : Fld := ⟨0xe0008c + 0x100000000 * who, 16, 16⟩
def FED_TX_CTL_LEN (who : Nat) : Fld := ⟨0xe0008c + 0x100000000 * who, 27, 17⟩
def FED_TX_CTL_GO (who : Nat) : Fld := ⟨0xe0008c + 0x100000000 * who, 28, 28⟩
def FED_TX_CTL_STATUS (who : Nat) : Fld := ⟨0xe0008c + 0x100000000 * who, 31, 29⟩
def FED_TX_SEQ_SEQ (who : Nat) : Fld := ⟨0xe00090 + 0x100000000 * who, 31, 0⟩
def FED_CNT_DUP : Fld := ⟨0xe000a0, 15, 0⟩
def FED_CNT_STALE : Fld := ⟨0xe000a0, 31, 16⟩
def FED_CNT2_MIC : Fld := ⟨0xe000a4, 15, 0⟩
def FED_CNT2_NOROUTE : Fld := ⟨0xe000a4, 31, 16⟩
def FED_CNT3_RETX : Fld := ⟨0xe000a8, 15, 0⟩
def FED_CNT3_SYNCDROP : Fld := ⟨0xe000a8, 31, 16⟩
def FED_CNT4_MBOXOVF : Fld := ⟨0xe000ac, 15, 0⟩
def FED_CNT4_OPENDROP : Fld := ⟨0xe000ac, 31, 16⟩
def FED_ROUTE_HOPS (k : Nat) : Fld := ⟨0xe00200 + 0x4 * (k), 3, 0⟩
def FED_ROUTE_LINK (k : Nat) : Fld := ⟨0xe00200 + 0x4 * (k), 6, 4⟩
/-! FEDS (17_federation.md:R453) -/
def FEDS_LINK_CFG_EN (n : Nat) : Fld := ⟨0xe00100 + 0x20 * n, 0, 0⟩
def FEDS_LINK_CFG_STA (n : Nat) : Fld := ⟨0xe00100 + 0x20 * n, 11, 1⟩
def FEDS_LINK_STAT_UP (n : Nat) : Fld := ⟨0xe00104 + 0x20 * n, 0, 0⟩
def FEDS_LINK_STAT_OPEN (n : Nat) : Fld := ⟨0xe00104 + 0x20 * n, 1, 1⟩
def FEDS_LINK_STAT_PEER (n : Nat) : Fld := ⟨0xe00104 + 0x20 * n, 7, 2⟩
def FEDS_LINK_STAT_MISSED (n : Nat) : Fld := ⟨0xe00104 + 0x20 * n, 15, 8⟩
def FEDS_LINK_STAT_LOSSES (n : Nat) : Fld := ⟨0xe00104 + 0x20 * n, 31, 16⟩
def FEDS_LINK_OFS_NS (n : Nat) : Fld := ⟨0xe00108 + 0x20 * n, 31, 0⟩
def FEDS_LINK_DLY_NS (n : Nat) : Fld := ⟨0xe0010c + 0x20 * n, 31, 0⟩
/-! PWR (18_power_states.md:R471) -/
def PWR_CTL_TRIM : Fld := ⟨0xf00000, 0, 0⟩
def PWR_CTL_LRADIO : Fld := ⟨0xf00000, 2, 1⟩
def PWR_STAT_STATE : Fld := ⟨0xf00004, 2, 0⟩
def PWR_STAT_AVS : Fld := ⟨0xf00004, 3, 3⟩
def PWR_STAT_STAGE : Fld := ⟨0xf00004, 6, 4⟩
def PWR_STAT_HOLD : Fld := ⟨0xf00004, 7, 7⟩
def PWR_STAT_ENTRY : Fld := ⟨0xf00004, 8, 8⟩
def PWR_STAT_APT : Fld := ⟨0xf00004, 10, 9⟩
def PWR_DOM_ON : Fld := ⟨0xf00008, 13, 0⟩
def PWR_GRN_RET_BANKS : Fld := ⟨0xf00010, 31, 0⟩
def PWR_GRN_LOST_BANKS : Fld := ⟨0xf00014, 31, 0⟩
def PWR_RET_CFG_IMEM : Fld := ⟨0xf00018, 3, 0⟩
def PWR_RET_CFG_SQMEM : Fld := ⟨0xf00018, 4, 4⟩
def PWR_RET_CFG_KEYS : Fld := ⟨0xf00018, 5, 5⟩
def PWR_WAKE_EN_SRC : Fld := ⟨0xf00020, 3, 0⟩
def PWR_WAKE_STAT_SRC : Fld := ⟨0xf00024, 3, 0⟩
def PWR_WAKE_STAT_EXTRA : Fld := ⟨0xf00024, 31, 16⟩
def PWR_WAKE_TGT_MODE : Fld := ⟨0xf00028, 3, 0⟩
def PWR_WAKE_HOST_GO : Fld := ⟨0xf0002c, 0, 0⟩
def PWR_WAKE_AT_NS : Fld := ⟨0xf00030, 63, 0⟩
def PWR_ENTRY_TO_US : Fld := ⟨0xf00038, 15, 0⟩
def PWR_WAKE_LOG_RETRIED : Fld := ⟨0xf00040, 3, 0⟩
def PWR_WAKE_LOG_FAILED : Fld := ⟨0xf00040, 7, 4⟩
def PWR_WAKE_LOG_TIME : Fld := ⟨0xf00040, 31, 8⟩
def PWR_CNT_TRANS : Fld := ⟨0xf00044, 15, 0⟩
def PWR_CNT_ABORTS : Fld := ⟨0xf00044, 31, 16⟩
def PWR_OFFACC_COUNT : Fld := ⟨0xf00048, 15, 0⟩
def PWR_AVS_CFG_DIV : Fld := ⟨0xf00050, 5, 0⟩
def PWR_AVS_CFG_RAIL : Fld := ⟨0xf00050, 9, 6⟩
def PWR_AVS_CFG_TO : Fld := ⟨0xf00050, 31, 16⟩
def PWR_AVS_V_MV (k : Nat) : Fld := ⟨0xf00060 + 0x4 * (k), 9, 0⟩
def PWR_AVS_STAT_MV : Fld := ⟨0xf00080, 9, 0⟩
def PWR_AVS_STAT_NACK : Fld := ⟨0xf00080, 10, 10⟩
def PWR_AVS_STAT_FAILS : Fld := ⟨0xf00080, 31, 16⟩
/-! FLT (19_faults_acorn.md:R494) -/
def FLT_CTL_DUMP_EN : Fld := ⟨0x1000000, 0, 0⟩
def FLT_CTL_FORCE_EN : Fld := ⟨0x1000000, 1, 1⟩
def FLT_CTL_ACK_OWN : Fld := ⟨0x1000000, 3, 2⟩
def FLT_CTL_IRQ_HOST : Fld := ⟨0x1000000, 4, 4⟩
def FLT_CTL_IRQ_MC0 : Fld := ⟨0x1000000, 5, 5⟩
def FLT_CTL_IRQ_MC1 : Fld := ⟨0x1000000, 6, 6⟩
def FLT_STAT_MAXLVL : Fld := ⟨0x1000004, 1, 0⟩
def FLT_STAT_NPEND : Fld := ⟨0x1000004, 11, 2⟩
def FLT_CLASS_CFG01_ENTRY (k : Nat) : Fld := ⟨0x1000010 + 0x4 * (k), 1, 0⟩
def FLT_CLASS_CFG2_ENTRY : Fld := ⟨0x1000018, 1, 0⟩
def FLT_CLASS_CFG3_ENTRY : Fld := ⟨0x100001c, 1, 0⟩
def FLT_GRACE1_01_US (k : Nat) : Fld := ⟨0x1000020 + 0x4 * (k), 19, 0⟩
def FLT_GRACE1_2_US : Fld := ⟨0x1000028, 19, 0⟩
def FLT_GRACE1_3_US : Fld := ⟨0x100002c, 19, 0⟩
def FLT_GRACE2_01_US (k : Nat) : Fld := ⟨0x1000030 + 0x4 * (k), 19, 0⟩
def FLT_GRACE2_2_US : Fld := ⟨0x1000038, 19, 0⟩
def FLT_GRACE2_3_US : Fld := ⟨0x100003c, 19, 0⟩
def FLT_CLASS_STAT_MERGED (k : Nat) : Fld := ⟨0x1000040 + 0x4 * (k), 15, 0⟩
def FLT_CLASS_STAT_ESC (k : Nat) : Fld := ⟨0x1000040 + 0x4 * (k), 31, 16⟩
def FLT_STICKY_SRC (k : Nat) : Fld := ⟨0x1000100 + 0x4 * (k), 31, 0⟩
def FLT_PEND_SRC (k : Nat) : Fld := ⟨0x1000180 + 0x4 * (k), 31, 0⟩
def FLT_ACK_SRC (k : Nat) : Fld := ⟨0x1000200 + 0x4 * (k), 31, 0⟩
def FLT_FORCE_SRC (k : Nat) : Fld := ⟨0x1000280 + 0x4 * (k), 31, 0⟩
def FLT_IRQ_CLASS : Fld := ⟨0x1000300, 3, 0⟩
def FLT_IRQ_EN_CLASS : Fld := ⟨0x1000304, 3, 0⟩
def FLT_HOLD_WR_COUNT : Fld := ⟨0x1000308, 15, 0⟩
def FLT_DUMP_TO_MS : Fld := ⟨0x100030c, 15, 0⟩
def FLT_RMT_COUNT (k : Nat) : Fld := ⟨0x1000400 + 0x4 * (k), 15, 0⟩
def FLT_RMT_SRC (k : Nat) : Fld := ⟨0x1000400 + 0x4 * (k), 25, 16⟩
def FLT_RMT_LEVEL (k : Nat) : Fld := ⟨0x1000400 + 0x4 * (k), 27, 26⟩
def FLT_SRC_LEVEL (k : Nat) : Fld := ⟨0x1001000 + 0x4 * (k), 1, 0⟩
def FLT_SRC_STICKY (k : Nat) : Fld := ⟨0x1001000 + 0x4 * (k), 2, 2⟩
def FLT_SRC_PEND (k : Nat) : Fld := ⟨0x1001000 + 0x4 * (k), 3, 3⟩
def FLT_SRC_FORCED (k : Nat) : Fld := ⟨0x1001000 + 0x4 * (k), 4, 4⟩
def FLT_SRC_CLASS (k : Nat) : Fld := ⟨0x1001000 + 0x4 * (k), 6, 5⟩
def FLT_SRC_MERGE (k : Nat) : Fld := ⟨0x1001000 + 0x4 * (k), 15, 8⟩
def FLT_SRC_COUNT (k : Nat) : Fld := ⟨0x1001000 + 0x4 * (k), 31, 16⟩
/-! ACN (19_faults_acorn.md:R495) -/
def ACN_CTL_PERIOD : Fld := ⟨0x1100000, 7, 0⟩
def ACN_CTL_COMMIT : Fld := ⟨0x1100000, 8, 8⟩
def ACN_CTL_CLRRING : Fld := ⟨0x1100000, 9, 9⟩
def ACN_STAT_FRESH : Fld := ⟨0x1100004, 0, 0⟩
def ACN_STAT_BUSY : Fld := ⟨0x1100004, 1, 1⟩
def ACN_STAT_TORN : Fld := ⟨0x1100004, 31, 16⟩
def ACN_RSEQ_N : Fld := ⟨0x1100008, 31, 0⟩
def ACN_BOOTS_N : Fld := ⟨0x110000c, 31, 0⟩
def ACN_FW_REC_DETAIL : Fld := ⟨0x1100010, 127, 0⟩
def ACN_FW_CTL_GO : Fld := ⟨0x1100020, 0, 0⟩
def ACN_FW_CTL_ERR : Fld := ⟨0x1100020, 1, 1⟩
def ACN_DUMP_CFG_OFS : Fld := ⟨0x1100030, 15, 0⟩
def ACN_DUMP_CFG_SIZE : Fld := ⟨0x1100030, 31, 16⟩
def ACN_DUMP_SEL_BANKS : Fld := ⟨0x1100034, 31, 0⟩
def ACN_DUMP_FW_ADDR : Fld := ⟨0x1100038, 24, 0⟩
def ACN_DUMP_FWLEN_LEN : Fld := ⟨0x110003c, 16, 0⟩
def ACN_DUMP_CTL_ERASE : Fld := ⟨0x1100040, 0, 0⟩
def ACN_DUMP_CTL_STATE : Fld := ⟨0x1100040, 2, 1⟩
def ACN_DUMP_CTL_BUSY : Fld := ⟨0x1100040, 3, 3⟩
def ACN_DUMP_CTL_DUMPNO : Fld := ⟨0x1100040, 31, 16⟩
def ACN_WIN_BYTES (k : Nat) : Fld := ⟨0x1180000 + 0x4 * (k), 31, 0⟩
/-! SEC (20_boot_security.md:R517) -/
def SEC_STRAP_AVS : Fld := ⟨0x1200000, 0, 0⟩
def SEC_STRAP_BOOT : Fld := ⟨0x1200000, 1, 1⟩
def SEC_STRAP_BSLOT : Fld := ⟨0x1200000, 31, 16⟩
def SEC_LC_STATE : Fld := ⟨0x1200004, 1, 0⟩
def SEC_LC_CTL_TARGET : Fld := ⟨0x1200008, 1, 0⟩
def SEC_LC_CTL_CONFIRM : Fld := ⟨0x1200008, 15, 8⟩
def SEC_LC_CTL_GO : Fld := ⟨0x1200008, 16, 16⟩
def SEC_LC_CTL_ERR : Fld := ⟨0x1200008, 17, 17⟩
def SEC_LOCK_LOCK : Fld := ⟨0x120000c, 0, 0⟩
def SEC_KEYCTL_HOST : Fld := ⟨0x1200010, 0, 0⟩
def SEC_SERIAL_SN : Fld := ⟨0x1200018, 63, 0⟩
def SEC_BOOT_STAT_SRC : Fld := ⟨0x1200020, 1, 0⟩
def SEC_BOOT_STAT_WAIT : Fld := ⟨0x1200020, 2, 2⟩
def SEC_BOOT_STAT_RESA : Fld := ⟨0x1200020, 6, 3⟩
def SEC_BOOT_STAT_RESB : Fld := ⟨0x1200020, 10, 7⟩
def SEC_BOOT_STAT_RESH : Fld := ⟨0x1200020, 14, 11⟩
def SEC_BOOT_STAT_FUSEERR : Fld := ⟨0x1200020, 15, 15⟩
def SEC_HLOAD_CTL_GO : Fld := ⟨0x1200024, 0, 0⟩
def SEC_KEYHASH_STAT_VALID : Fld := ⟨0x1200028, 3, 0⟩
def SEC_KEYHASH_STAT_REVOKED : Fld := ⟨0x1200028, 7, 4⟩
def SEC_KEYHASH_STAT_SPOILED : Fld := ⟨0x1200028, 11, 8⟩
def SEC_KEYHASH_STAT_RUN : Fld := ⟨0x1200028, 13, 12⟩
def SEC_FUSE_STAGE_WORD (k : Nat) : Fld := ⟨0x1200040 + 0x4 * (k), 31, 0⟩
def SEC_FUSE_CTL_TARGET : Fld := ⟨0x1200070, 2, 0⟩
def SEC_FUSE_CTL_SLOT : Fld := ⟨0x1200070, 4, 3⟩
def SEC_FUSE_CTL_GO : Fld := ⟨0x1200070, 5, 5⟩
def SEC_FUSE_CTL_ERR : Fld := ⟨0x1200070, 6, 6⟩
def SEC_ARB_TARGET : Fld := ⟨0x1200074, 6, 0⟩
def SEC_ARB_FLOOR : Fld := ⟨0x1200074, 14, 8⟩
def SEC_ARB_GO : Fld := ⟨0x1200074, 15, 15⟩
def SEC_ARB_ERR : Fld := ⟨0x1200074, 16, 16⟩
def SEC_VER_SRC_ADDR (who : Nat) : Fld := ⟨0x1200080 + 0x100000000 * who, 24, 0⟩
def SEC_VER_CTL_GO (who : Nat) : Fld := ⟨0x1200084 + 0x100000000 * who, 0, 0⟩
def SEC_VER_CTL_BUSY (who : Nat) : Fld := ⟨0x1200084 + 0x100000000 * who, 1, 1⟩
def SEC_VER_CTL_RESULT (who : Nat) : Fld := ⟨0x1200084 + 0x100000000 * who, 7, 4⟩
def SEC_MEAS_IN_WORD (k : Nat) : Fld := ⟨0x1200100 + 0x4 * (k), 31, 0⟩
def SEC_MEAS_CTL_INDEX : Fld := ⟨0x1200130, 2, 0⟩
def SEC_MEAS_CTL_GO : Fld := ⟨0x1200130, 3, 3⟩
def SEC_MEAS_WORD (k : Nat) : Fld := ⟨0x1200140 + 0x4 * (k), 31, 0⟩
def SEC_QUOTE_NONCE_WORD (k who : Nat) : Fld := ⟨0x1200300 + 0x4 * (k) + 0x100000000 * who, 31, 0⟩
def SEC_QUOTE_DST_ADDR (who : Nat) : Fld := ⟨0x1200330 + 0x100000000 * who, 24, 0⟩
def SEC_QUOTE_CTL_GO (who : Nat) : Fld := ⟨0x1200334 + 0x100000000 * who, 0, 0⟩
def SEC_QUOTE_CTL_BUSY (who : Nat) : Fld := ⟨0x1200334 + 0x100000000 * who, 1, 1⟩
def SEC_QUOTE_CTL_STATUS (who : Nat) : Fld := ⟨0x1200334 + 0x100000000 * who, 3, 2⟩
def SEC_DBG_CHAL_WORD (k : Nat) : Fld := ⟨0x1200400 + 0x4 * (k), 31, 0⟩
def SEC_DBG_RESP_WORD (k : Nat) : Fld := ⟨0x1200420 + 0x4 * (k), 31, 0⟩
def SEC_DBG_CTL_REQ : Fld := ⟨0x12004e8, 0, 0⟩
def SEC_DBG_CTL_SUBMIT : Fld := ⟨0x12004e8, 1, 1⟩
def SEC_DBG_CTL_OPEN : Fld := ⟨0x12004e8, 2, 2⟩
def SEC_DBG_CTL_FAILS : Fld := ⟨0x12004e8, 4, 3⟩
def SEC_DBG_CTL_BARRED : Fld := ⟨0x12004e8, 5, 5⟩
def SEC_RST_KEY : Fld := ⟨0x1200500, 7, 0⟩
def SEC_RST_WARM : Fld := ⟨0x1200500, 8, 8⟩
def SEC_RST_RDIE_HOLD : Fld := ⟨0x1200500, 9, 9⟩
def SEC_WDT_MS : Fld := ⟨0x1200508, 15, 0⟩
def SEC_WDT_EN : Fld := ⟨0x1200508, 16, 16⟩
def SEC_WDT_KICK_ANY : Fld := ⟨0x120050c, 31, 0⟩
def SEC_CERT_WORD (k : Nat) : Fld := ⟨0x1200800 + 0x4 * (k), 31, 0⟩

end Sys2Proof.Machine.F
end

