-- ==== Sys2Proof/Machine/RegTable.lean ====
section
/-! DEFINITION. The register table of the control window: every register of every block with its offset,
index count and stride, width in words, and each field's bits, access code and reset value, as the rule
named beside each block lists them. -/

namespace Sys2Proof.Machine

/-- TOP, 22_register_map.md:R545. -/
def regsTOP0 : List RDesc := [
  -- IDENT (R545)
  ⟨0x0, 1, 0x4, 1, false, false, [⟨15, 0, .ro, .all 0xc5a⟩, ⟨31, 16, .ro, .all 0x9640⟩]⟩,
  -- REV (R545)
  ⟨0x4, 1, 0x4, 1, false, false, [⟨3, 0, .ro, .all 0x1⟩, ⟨7, 4, .ro, .all 0xa⟩, ⟨9, 8, .ro, .all 0x0⟩]⟩,
  -- FEAT (R545)
  ⟨0x8, 1, 0x4, 1, false, false, [⟨0, 0, .ro, .all 0x1⟩]⟩,
  -- TEMP (R545)
  ⟨0x10, 1, 0x4, 1, false, false, [⟨15, 0, .ro, .all 0x0⟩, ⟨31, 16, .rc, .all 0x8000⟩]⟩,
  -- MODE (R22)
  ⟨0x20, 1, 0x4, 1, false, false, [⟨3, 0, .ro, .all 0x1⟩, ⟨7, 4, .ro, .all 0x1⟩, ⟨8, 8, .ro, .all 0x0⟩, ⟨9, 9, .ro, .all 0x0⟩]⟩,
  -- MODE_REQ (R23)
  ⟨0x24, 1, 0x4, 1, false, false, [⟨3, 0, .rw, .all 0x0⟩, ⟨4, 4, .sc, .all 0x0⟩, ⟨9, 8, .ro, .all 0x0⟩, ⟨31, 24, .rc, .all 0x0⟩]⟩,
  -- BADACC (R545)
  ⟨0x30, 1, 0x4, 1, false, false, [⟨15, 0, .rc, .all 0x0⟩]⟩,
  -- PEEK (R547)
  ⟨0x34, 1, 0x4, 1, true, false, [⟨0, 0, .rw, .all 0x0⟩]⟩]
/-- TIME, 04_time_and_phase.md:R133. -/
def regsTIME0 : List RDesc := [
  -- TBM (R133)
  ⟨0x0, 1, 0xc, 3, false, true, [⟨31, 0, .ro, .all 0x0⟩, ⟨95, 32, .ro, .all 0x0⟩]⟩,
  -- TBN (R133)
  ⟨0x10, 1, 0xc, 3, false, true, [⟨31, 0, .ro, .all 0x0⟩, ⟨95, 32, .ro, .all 0x0⟩]⟩,
  -- TBN_CTL (R133)
  ⟨0x20, 1, 0x4, 1, false, false, [⟨0, 0, .ro, .all 0x0⟩, ⟨1, 1, .ro, .all 0x1⟩, ⟨2, 2, .ro, .all 0x0⟩, ⟨3, 3, .sc, .all 0x0⟩, ⟨4, 4, .sc, .all 0x0⟩]⟩,
  -- TBN_STEP (R133)
  ⟨0x24, 1, 0xc, 3, false, false, [⟨95, 0, .wo, .all 0x0⟩]⟩,
  -- TBN_RATE (R133)
  ⟨0x30, 1, 0x4, 1, false, false, [⟨31, 0, .rw, .all 0x0⟩]⟩,
  -- CLK_STAT (R133)
  ⟨0x34, 1, 0x4, 1, false, false, [⟨0, 0, .ro, .all 0x0⟩, ⟨1, 1, .ro, .all 0x0⟩, ⟨2, 2, .ro, .all 0x0⟩]⟩,
  -- TSF (R133)
  ⟨0x40, 3, 0x8, 2, false, true, [⟨63, 0, .rw, .all 0x0⟩]⟩,
  -- PPS_CTL (R133)
  ⟨0x60, 1, 0x4, 1, false, false, [⟨1, 0, .rw, .all 0x0⟩, ⟨11, 2, .rw, .all 0x64⟩, ⟨12, 12, .rw, .all 0x0⟩, ⟨13, 13, .rw, .all 0x0⟩, ⟨23, 14, .rw, .all 0xa⟩]⟩,
  -- PPS_CAP_TBM (R133)
  ⟨0x68, 1, 0x8, 2, false, false, [⟨63, 0, .ro, .all 0x0⟩]⟩,
  -- PPS_CAP_TBN (R133)
  ⟨0x70, 1, 0x8, 2, false, false, [⟨63, 0, .ro, .all 0x0⟩]⟩,
  -- PPS_CNT (R133)
  ⟨0x78, 1, 0x4, 1, false, false, [⟨31, 0, .ro, .all 0x0⟩]⟩,
  -- PORT_COMP (R133)
  ⟨0x100, 8, 0x4, 1, false, false, [⟨15, 0, .rw, .all 0x0⟩, ⟨31, 16, .rw, .all 0x0⟩]⟩,
  -- EGTS (R133)
  ⟨0x200, 2, 0x10, 3, false, true, [⟨15, 0, .rc, .all 0x0⟩, ⟨19, 16, .rc, .all 0x0⟩, ⟨27, 20, .rc, .all 0x0⟩, ⟨31, 31, .rc, .all 0x0⟩, ⟨95, 32, .ro, .all 0x0⟩]⟩]
/-- PHS, 04_time_and_phase.md:R134. -/
def regsPHS0 : List RDesc := [
  -- PD_CFG (R134)
  ⟨0x0, 1, 0x4, 1, false, false, [⟨0, 0, .rw, .all 0x0⟩, ⟨3, 1, .rw, .all 0x0⟩, ⟨4, 4, .rw, .all 0x1⟩, ⟨5, 5, .rw, .all 0x0⟩, ⟨9, 6, .rw, .all 0x2⟩, ⟨13, 10, .rw, .all 0x4⟩, ⟨17, 14, .rw, .all 0xa⟩, ⟨23, 18, .rw, .all 0x8⟩]⟩,
  -- PD_SCALE (R134)
  ⟨0x4, 1, 0x4, 1, false, false, [⟨16, 0, .rw, .all 0x1000⟩, ⟨20, 17, .rw, .all 0x4⟩]⟩,
  -- PD_IDX (R134)
  ⟨0x8, 1, 0x4, 1, false, false, [⟨15, 0, .rw, .all 0x0⟩, ⟨31, 16, .rw, .all 0x64⟩]⟩,
  -- PD_TOL (R134)
  ⟨0xc, 1, 0x4, 1, false, false, [⟨11, 0, .rw, .all 0x40⟩, ⟨23, 12, .rw, .all 0x400⟩, ⟨31, 24, .rw, .all 0x0⟩]⟩,
  -- PD_TO (R134)
  ⟨0x10, 1, 0x4, 1, false, false, [⟨15, 0, .rw, .all 0x64⟩, ⟨31, 16, .rw, .all 0x3e8⟩]⟩,
  -- PD_STAT (R134)
  ⟨0x14, 1, 0x4, 1, false, false, [⟨1, 0, .ro, .all 0x0⟩, ⟨2, 2, .ro, .all 0x0⟩, ⟨3, 3, .ro, .all 0x0⟩, ⟨31, 16, .ro, .all 0xffff⟩]⟩,
  -- PD_NOW (R134)
  ⟨0x18, 1, 0x4, 1, false, false, [⟨31, 0, .ro, .all 0x0⟩]⟩,
  -- PD_CYC (R134)
  ⟨0x1c, 1, 0x4, 1, false, false, [⟨15, 0, .rw, .all 0x0⟩]⟩,
  -- PD_RATE (R134)
  ⟨0x20, 1, 0x8, 2, false, false, [⟨63, 0, .ro, .all 0x0⟩]⟩,
  -- PD_HOBS (R134)
  ⟨0x30, 1, 0xc, 3, false, false, [⟨31, 0, .wo, .all 0x0⟩, ⟨95, 32, .wo, .all 0x0⟩]⟩,
  -- PD_PQ (R134)
  ⟨0x40, 1, 0x4, 1, false, false, [⟨31, 0, .rw, .all 0x0⟩]⟩,
  -- PD_PT (R134)
  ⟨0x48, 1, 0x8, 2, false, false, [⟨63, 0, .ro, .all 0xffffffffffffffff⟩]⟩,
  -- PD_CNT (R134)
  ⟨0x50, 1, 0x4, 1, false, false, [⟨7, 0, .rc, .all 0x0⟩, ⟨15, 8, .rc, .all 0x0⟩, ⟨23, 16, .rc, .all 0x0⟩, ⟨31, 24, .rc, .all 0x0⟩]⟩]
/-- SQ, 05_air_scheduler.md:R165. -/
def regsSQ0 : List RDesc := [
  -- CTL (R165)
  ⟨0x0, 1, 0x4, 1, false, false, [⟨0, 0, .rw, .all 0x0⟩, ⟨1, 1, .ro, .all 0x0⟩, ⟨4, 2, .ro, .all 0x0⟩, ⟨7, 5, .ro, .all 0x0⟩]⟩,
  -- HALT_PC (R165)
  ⟨0x4, 1, 0x4, 1, false, false, [⟨15, 2, .ro, .all 0x0⟩]⟩,
  -- CYCLE (R165)
  ⟨0x8, 1, 0x4, 1, false, false, [⟨1, 0, .rw, .all 0x0⟩, ⟨3, 2, .rw, .all 0x0⟩, ⟨7, 4, .rw, .all 0x0⟩, ⟨31, 12, .rw, .all 0x2710⟩]⟩,
  -- CYC_STAT (R165)
  ⟨0xc, 1, 0x4, 1, false, false, [⟨6, 0, .ro, .all 0x0⟩, ⟨16, 7, .ro, .all 0x0⟩, ⟨31, 17, .ro, .all 0x0⟩]⟩,
  -- EW_LEAD (R165)
  ⟨0x10, 1, 0x4, 1, false, false, [⟨31, 0, .rw, .all 0x0⟩]⟩,
  -- RATE_CFG (R165)
  ⟨0x14, 1, 0x4, 1, false, false, [⟨11, 0, .rw, .all 0x333⟩, ⟨23, 12, .rw, .all 0xcd⟩, ⟨27, 24, .rw, .all 0x4⟩, ⟨30, 28, .rw, .all 0x3⟩]⟩,
  -- SRV_CFG (R165)
  ⟨0x18, 1, 0x4, 1, false, false, [⟨3, 0, .rw, .all 0x1⟩, ⟨11, 4, .rw, .all 0xb5⟩, ⟨14, 12, .rw, .all 0x2⟩]⟩,
  -- WCNT (R165)
  ⟨0x20, 1, 0x4, 1, false, false, [⟨7, 0, .rc, .all 0x0⟩, ⟨15, 8, .rc, .all 0x0⟩, ⟨23, 16, .rc, .all 0x0⟩, ⟨31, 24, .rc, .all 0x0⟩]⟩,
  -- GCNT (R165)
  ⟨0x24, 1, 0x4, 1, false, false, [⟨7, 0, .rc, .all 0x0⟩, ⟨15, 8, .rc, .all 0x0⟩, ⟨23, 16, .rc, .all 0x0⟩, ⟨31, 24, .rc, .all 0x0⟩]⟩,
  -- TCNT (R165)
  ⟨0x28, 1, 0x4, 1, false, false, [⟨15, 0, .rc, .all 0x0⟩]⟩,
  -- HUSK_STAT (R196)
  ⟨0x40, 1, 0x4, 1, false, false, [⟨1, 0, .ro, .all 0x0⟩, ⟨7, 4, .ro, .all 0xf⟩, ⟨9, 8, .ro, .all 0x0⟩, ⟨15, 12, .ro, .all 0xf⟩, ⟨16, 16, .ro, .all 0x0⟩]⟩,
  -- HUSK_CFG (R196)
  ⟨0x44, 1, 0x4, 1, false, false, [⟨0, 0, .rw, .all 0x1⟩]⟩,
  -- UCNT0 (R196)
  ⟨0x48, 1, 0x4, 1, false, false, [⟨7, 0, .rc, .all 0x0⟩, ⟨15, 8, .rc, .all 0x0⟩, ⟨23, 16, .rc, .all 0x0⟩, ⟨31, 24, .rc, .all 0x0⟩]⟩,
  -- UCNT1 (R196)
  ⟨0x4c, 1, 0x4, 1, false, false, [⟨7, 0, .rc, .all 0x0⟩, ⟨15, 8, .rc, .all 0x0⟩, ⟨23, 16, .rc, .all 0x0⟩, ⟨31, 24, .rc, .all 0x0⟩]⟩]
/-- SQ, 05_air_scheduler.md:R165. -/
def regsSQ1 : List RDesc := [
  -- UCNT2 (R196)
  ⟨0x50, 1, 0x4, 1, false, false, [⟨7, 0, .rc, .all 0x0⟩, ⟨15, 8, .rc, .all 0x0⟩, ⟨23, 16, .rc, .all 0x0⟩, ⟨31, 24, .rc, .all 0x0⟩]⟩,
  -- COMMITS (R196)
  ⟨0x54, 1, 0x4, 1, false, false, [⟨31, 0, .rc, .all 0x0⟩]⟩,
  -- PN_BURN (R196)
  ⟨0x58, 1, 0x4, 1, false, false, [⟨31, 0, .rc, .all 0x0⟩]⟩,
  -- SD (R165)
  ⟨0x4000, 4096, 0x4, 1, false, true, [⟨31, 0, .rw, .all 0x0⟩]⟩]
/-- SQA, 05_air_scheduler.md:R166. -/
def regsSQA0 : List RDesc := [
  -- STA_BASE (R166)
  ⟨0x8000, 1, 0x4, 1, false, false, [⟨24, 0, .rw, .all 0x0⟩]⟩,
  -- BIN_BASE (R166)
  ⟨0x8004, 1, 0x4, 1, false, false, [⟨24, 0, .rw, .all 0x0⟩]⟩,
  -- BIN_CFG (R166)
  ⟨0x8008, 1, 0x4, 1, false, false, [⟨0, 0, .rw, .all 0x0⟩, ⟨15, 8, .rw, .all 0x18⟩, ⟨31, 16, .rw, .all 0xa⟩]⟩,
  -- STA_STAGE (R166)
  ⟨0x8020, 8, 0x4, 1, false, false, [⟨31, 0, .rw, .all 0x0⟩]⟩,
  -- STA_UPD (R166)
  ⟨0x8040, 1, 0x4, 1, false, false, [⟨10, 0, .rw, .all 0x0⟩, ⟨16, 16, .sc, .all 0x0⟩]⟩,
  -- BIN_STAGE (R166)
  ⟨0x8048, 1, 0x8, 2, false, false, [⟨63, 0, .rw, .all 0x0⟩]⟩,
  -- BIN_UPD (R166)
  ⟨0x8050, 1, 0x4, 1, false, false, [⟨10, 0, .rw, .all 0x0⟩, ⟨12, 11, .rw, .all 0x0⟩, ⟨18, 13, .rw, .all 0x0⟩, ⟨19, 19, .rw, .all 0x0⟩, ⟨20, 20, .rw, .all 0x0⟩, ⟨24, 24, .sc, .all 0x0⟩]⟩,
  -- QLIM (R166)
  ⟨0x8058, 1, 0x4, 1, false, false, [⟨15, 0, .rw, .all 0x400⟩]⟩,
  -- QDROP (R166)
  ⟨0x805c, 1, 0x4, 1, false, false, [⟨15, 0, .rc, .all 0x0⟩, ⟨31, 16, .rc, .all 0x0⟩]⟩,
  -- EPOCH (R166)
  ⟨0x8060, 1, 0x4, 1, false, false, [⟨5, 0, .ro, .all 0x0⟩]⟩,
  -- SB_BASE (R197)
  ⟨0x8080, 1, 0x4, 1, false, false, [⟨24, 0, .rw, .all 0x0⟩]⟩,
  -- RX_HOLD (R197)
  ⟨0x8084, 1, 0x4, 1, false, false, [⟨15, 0, .rw, .all 0x2710⟩]⟩,
  -- RETRY (R197)
  ⟨0x8088, 1, 0x4, 1, false, false, [⟨3, 0, .rw, .all 0x8⟩, ⟨31, 16, .rw, .all 0x1f4⟩]⟩,
  -- CT_BASE (R197)
  ⟨0x8090, 1, 0x8, 2, false, false, [⟨33, 0, .rw, .all 0x0⟩]⟩]
/-- SQA, 05_air_scheduler.md:R166. -/
def regsSQA1 : List RDesc := [
  -- CT_SIZE (R197)
  ⟨0x8098, 1, 0x4, 1, false, false, [⟨15, 0, .rw, .all 0x200⟩]⟩,
  -- SB_RO (R197)
  ⟨0x80a0, 1, 0x8, 2, false, false, [⟨33, 0, .rw, .all 0x0⟩]⟩,
  -- SB_UPD (R197)
  ⟨0x80a8, 1, 0x4, 1, false, false, [⟨10, 0, .rw, .all 0x0⟩, ⟨13, 11, .rw, .all 0x0⟩, ⟨14, 14, .rw, .all 0x0⟩, ⟨25, 15, .rw, .all 0x40⟩, ⟨31, 31, .sc, .all 0x0⟩]⟩,
  -- SB_SSN (R197)
  ⟨0x80ac, 1, 0x4, 1, false, false, [⟨11, 0, .rw, .all 0x0⟩]⟩,
  -- RXCNT (R197)
  ⟨0x80b0, 1, 0x4, 1, false, false, [⟨15, 0, .rc, .all 0x0⟩, ⟨31, 16, .rc, .all 0x0⟩]⟩,
  -- TXDROP (R197)
  ⟨0x80b4, 1, 0x4, 1, false, false, [⟨15, 0, .rc, .all 0x0⟩, ⟨31, 16, .rc, .all 0x0⟩]⟩]
/-- MX, 07_wifi_radios.md:R231. -/
def regsMX0 : List RDesc := [
  -- CTL (R231)
  ⟨0x0, 1, 0x4, 1, false, false, [⟨0, 0, .rw, .all 0x0⟩, ⟨1, 1, .rw, .all 0x0⟩, ⟨2, 2, .ro, .all 0x0⟩]⟩,
  -- BSS_CFG (R231)
  ⟨0x100, 16, 0x10, 1, false, false, [⟨0, 0, .rw, .all 0x0⟩, ⟨1, 1, .rw, .all 0x0⟩, ⟨2, 2, .rw, .all 0x0⟩, ⟨15, 8, .rw, .all 0x1⟩, ⟨31, 16, .rw, .all 0x64⟩]⟩,
  -- BSS_TBTT (R231)
  ⟨0x104, 16, 0x10, 1, false, false, [⟨23, 0, .rw, .all 0x0⟩, ⟨31, 24, .rw, .all 0x28⟩]⟩,
  -- BSS_ADDR (R231)
  ⟨0x108, 16, 0x10, 2, false, false, [⟨47, 0, .rw, .all 0x0⟩]⟩,
  -- BCN_TPL (R231)
  ⟨0x200, 16, 0x8, 2, false, false, [⟨33, 0, .rw, .all 0x0⟩, ⟨45, 34, .rw, .all 0x0⟩, ⟨58, 46, .rw, .all 0x0⟩, ⟨59, 59, .rw, .all 0x0⟩]⟩,
  -- BCN_STAT (R231)
  ⟨0x300, 1, 0x4, 1, false, false, [⟨15, 0, .ro, .all 0x0⟩]⟩,
  -- BCN_RUN (R231)
  ⟨0x340, 16, 0x4, 1, false, false, [⟨7, 0, .ro, .all 0x0⟩, ⟨31, 16, .rc, .all 0x0⟩]⟩,
  -- LINK_BASE (R231)
  ⟨0x400, 1, 0x4, 1, false, false, [⟨24, 0, .rw, .all 0x0⟩]⟩,
  -- LINK_STAGE (R231)
  ⟨0x420, 8, 0x4, 1, false, false, [⟨31, 0, .rw, .all 0x0⟩]⟩,
  -- LINK_UPD (R231)
  ⟨0x440, 1, 0x4, 1, false, false, [⟨10, 0, .rw, .all 0x0⟩, ⟨16, 16, .sc, .all 0x0⟩, ⟨17, 17, .ro, .all 0x0⟩]⟩,
  -- RXCNT (R231)
  ⟨0x450, 1, 0x4, 1, false, false, [⟨15, 0, .rc, .all 0x0⟩, ⟨31, 16, .rc, .all 0x0⟩]⟩]
/-- MXA, 07_wifi_radios.md:R232. -/
def regsMXA0 : List RDesc := [
  -- ML_CFG (R232)
  ⟨0x800, 1, 0x4, 1, false, false, [⟨0, 0, .rw, .all 0x0⟩, ⟨1, 1, .rw, .all 0x0⟩, ⟨2, 2, .rw, .all 0x0⟩]⟩,
  -- ML_HOLDS (R232)
  ⟨0x804, 1, 0x4, 1, false, false, [⟨31, 0, .rc, .all 0x0⟩]⟩,
  -- BH_CFG (R232)
  ⟨0x810, 1, 0x4, 1, false, false, [⟨1, 0, .rw, .all 0x3⟩, ⟨12, 2, .rw, .all 0x0⟩, ⟨23, 16, .rw, .all 0x20⟩, ⟨27, 24, .rw, .all 0x0⟩]⟩,
  -- BH_CTL (R232)
  ⟨0x814, 1, 0x4, 1, false, false, [⟨0, 0, .rw, .all 0x0⟩, ⟨3, 1, .rw, .all 0x0⟩, ⟨4, 4, .w1c, .all 0x0⟩, ⟨5, 5, .w1c, .all 0x0⟩, ⟨15, 8, .ro, .all 0x0⟩]⟩,
  -- BH_STAT (R232)
  ⟨0x818, 1, 0x4, 1, false, false, [⟨15, 0, .rc, .all 0x0⟩, ⟨31, 16, .rc, .all 0x0⟩]⟩,
  -- BH_LAST (R232)
  ⟨0x81c, 1, 0x4, 1, false, false, [⟨15, 0, .ro, .all 0x0⟩]⟩,
  -- BH_CAND_ADDR (R232)
  ⟨0x820, 8, 0x10, 2, false, false, [⟨47, 0, .rw, .all 0x0⟩]⟩,
  -- BH_CAND_CH (R232)
  ⟨0x828, 8, 0x10, 1, false, false, [⟨7, 0, .rw, .all 0x0⟩, ⟨10, 8, .rw, .all 0x0⟩, ⟨11, 11, .rw, .all 0x0⟩, ⟨13, 12, .rw, .all 0x0⟩, ⟨31, 16, .rw, .all 0x64⟩]⟩]
/-- RF, 07_wifi_radios.md:R233. -/
def regsRF0 : List RDesc := [
  -- CHAN (R233)
  ⟨0x0, 1, 0x4, 1, false, false, [⟨7, 0, .rw, .byInst [0x6, 0x24, 0x25]⟩, ⟨10, 8, .rw, .byInst [0x1, 0x3, 0x4]⟩, ⟨11, 11, .rw, .all 0x0⟩, ⟨31, 16, .rw, .all 0x0⟩]⟩,
  -- TXPWR (R233)
  ⟨0x4, 1, 0x4, 1, false, false, [⟨5, 0, .rw, .all 0x28⟩, ⟨11, 8, .rw, .all 0xf⟩, ⟨15, 12, .rw, .all 0xf⟩]⟩,
  -- CSW_CTL (R233)
  ⟨0x8, 1, 0x4, 1, false, false, [⟨7, 0, .rw, .all 0x0⟩, ⟨10, 8, .rw, .all 0x0⟩, ⟨11, 11, .rw, .all 0x0⟩, ⟨12, 12, .rw, .all 0x0⟩, ⟨20, 13, .rw, .all 0x0⟩, ⟨21, 21, .sc, .all 0x0⟩]⟩,
  -- CSW_PUNCT (R233)
  ⟨0xc, 1, 0x4, 1, false, false, [⟨15, 0, .rw, .all 0x0⟩]⟩,
  -- SND_CFG (R233)
  ⟨0x10, 1, 0x4, 1, false, false, [⟨0, 0, .rw, .all 0x0⟩, ⟨8, 1, .rw, .all 0x0⟩, ⟨20, 9, .rw, .all 0xc8⟩]⟩,
  -- STEER_COPY (R233)
  ⟨0x14, 1, 0x4, 1, false, false, [⟨11, 0, .rw, .all 0x0⟩, ⟨23, 12, .rw, .all 0x0⟩, ⟨24, 24, .sc, .all 0x0⟩]⟩,
  -- SND_CNT (R233)
  ⟨0x18, 1, 0x4, 1, false, false, [⟨15, 0, .rc, .all 0x0⟩, ⟨31, 16, .rc, .all 0x0⟩]⟩,
  -- RF_STAT (R233)
  ⟨0x1c, 1, 0x4, 1, false, false, [⟨0, 0, .ro, .all 0x0⟩, ⟨4, 1, .ro, .all 0x0⟩, ⟨8, 5, .ro, .all 0x0⟩, ⟨23, 16, .ro, .all 0x0⟩, ⟨31, 24, .ro, .all 0x0⟩]⟩]
/-- RFB, 07_wifi_radios.md:R234. -/
def regsRFB0 : List RDesc := [
  -- DET_CTL (R234)
  ⟨0x100, 1, 0x4, 1, false, false, [⟨0, 0, .rw, .all 0x0⟩, ⟨8, 1, .rw, .all 0xc2⟩]⟩,
  -- DET_EVT (R234)
  ⟨0x108, 1, 0x10, 4, false, true, [⟨15, 0, .rc, .all 0x0⟩, ⟨23, 16, .rc, .all 0x0⟩, ⟨30, 24, .rc, .all 0x0⟩, ⟨31, 31, .rc, .all 0x0⟩, ⟨39, 32, .ro, .all 0x0⟩, ⟨40, 40, .ro, .all 0x0⟩, ⟨127, 64, .ro, .all 0x0⟩]⟩,
  -- DET_STAT (R234)
  ⟨0x118, 1, 0x4, 1, false, false, [⟨4, 0, .ro, .all 0x0⟩, ⟨5, 5, .w1c, .all 0x0⟩]⟩]
/-- PIP, 08_pip_radio.md:R272. -/
def regsPIP0 : List RDesc := [
  -- CTL (R272)
  ⟨0x0, 1, 0x4, 1, false, false, [⟨0, 0, .rw, .all 0x0⟩, ⟨1, 1, .rw, .all 0x0⟩, ⟨2, 2, .ro, .all 0x0⟩, ⟨3, 3, .rw, .all 0x0⟩]⟩,
  -- CHPLAN (R272)
  ⟨0x4, 1, 0x4, 1, false, false, [⟨19, 0, .rw, .all 0xd2b7c⟩, ⟨27, 20, .rw, .all 0x4⟩]⟩,
  -- HOME (R272)
  ⟨0x8, 1, 0x4, 1, false, false, [⟨5, 0, .rw, .all 0x0⟩]⟩,
  -- CHMAP (R272)
  ⟨0x10, 1, 0x8, 2, false, false, [⟨63, 0, .rw, .all 0xffffffffffffffff⟩]⟩,
  -- CHMAP_NEXT (R272)
  ⟨0x18, 1, 0x8, 2, false, false, [⟨63, 0, .rw, .all 0xffffffffffffffff⟩]⟩,
  -- CHMAP_AT (R272)
  ⟨0x20, 1, 0x4, 1, false, false, [⟨15, 0, .rw, .all 0x0⟩, ⟨16, 16, .sc, .all 0x0⟩]⟩,
  -- NETID (R272)
  ⟨0x28, 1, 0x4, 1, false, false, [⟨15, 0, .rw, .all 0x0⟩]⟩,
  -- ADDR (R272)
  ⟨0x2c, 1, 0x4, 1, false, false, [⟨31, 0, .rw, .all 0x0⟩]⟩,
  -- TX_CFG (R272)
  ⟨0x30, 1, 0x4, 1, false, false, [⟨5, 0, .rw, .all 0x14⟩, ⟨6, 6, .rw, .all 0x1⟩, ⟨14, 7, .rw, .all 0xb0⟩, ⟨22, 15, .rw, .all 0x20⟩]⟩,
  -- DET (R272)
  ⟨0x34, 1, 0x4, 1, false, false, [⟨7, 0, .rw, .all 0x9c⟩, ⟨13, 8, .rw, .all 0x1c⟩]⟩,
  -- SYNC (R272)
  ⟨0x38, 1, 0x4, 1, false, false, [⟨31, 0, .rw, .all 0x93b51a6d⟩]⟩,
  -- BCN_CFG (R272)
  ⟨0x40, 1, 0x4, 1, false, false, [⟨0, 0, .rw, .all 0x0⟩, ⟨2, 1, .rw, .all 0x0⟩, ⟨4, 3, .rw, .all 0x0⟩, ⟨5, 5, .rw, .all 0x0⟩, ⟨15, 8, .rw, .all 0x14⟩, ⟨31, 16, .rw, .all 0x400⟩]⟩,
  -- BCN_OFS (R272)
  ⟨0x44, 1, 0x4, 1, false, false, [⟨31, 0, .rw, .all 0x0⟩]⟩,
  -- BCN_KEY (R272)
  ⟨0x48, 1, 0x4, 1, false, false, [⟨12, 0, .rw, .all 0x0⟩]⟩]
/-- PIP, 08_pip_radio.md:R272. -/
def regsPIP1 : List RDesc := [
  -- BCN_STAT (R272)
  ⟨0x4c, 1, 0x4, 1, false, false, [⟨0, 0, .ro, .all 0x0⟩, ⟨15, 8, .ro, .all 0x0⟩, ⟨31, 16, .rc, .all 0x0⟩]⟩,
  -- BCTR (R272)
  ⟨0x50, 1, 0x4, 1, false, false, [⟨31, 0, .rwl, .all 0x0⟩]⟩,
  -- FCTR (R272)
  ⟨0x54, 1, 0x4, 1, false, false, [⟨31, 0, .rwl, .all 0x0⟩]⟩,
  -- NODE_BASE (R272)
  ⟨0x60, 1, 0x4, 1, false, false, [⟨24, 0, .rw, .all 0x0⟩]⟩,
  -- EV_LEAD (R272)
  ⟨0x64, 1, 0x4, 1, false, false, [⟨31, 0, .rw, .all 0xc35000⟩]⟩,
  -- RETRY (R272)
  ⟨0x68, 1, 0x4, 1, false, false, [⟨3, 0, .rw, .all 0x8⟩]⟩,
  -- QLIM (R272)
  ⟨0x6c, 1, 0x4, 1, false, false, [⟨7, 0, .rw, .all 0x8⟩]⟩,
  -- NODE_STAGE (R272)
  ⟨0x80, 16, 0x4, 1, false, false, [⟨31, 0, .rw, .all 0x0⟩]⟩,
  -- NODE_UPD (R272)
  ⟨0xc0, 1, 0x4, 1, false, false, [⟨13, 0, .rw, .all 0x0⟩, ⟨16, 16, .sc, .all 0x0⟩, ⟨17, 17, .rw, .all 0x0⟩, ⟨18, 18, .rw, .all 0x0⟩, ⟨19, 19, .ro, .all 0x0⟩]⟩,
  -- RXCNT (R272)
  ⟨0xd0, 1, 0x4, 1, false, false, [⟨15, 0, .rc, .all 0x0⟩, ⟨31, 16, .rc, .all 0x0⟩]⟩,
  -- RXCNT2 (R272)
  ⟨0xd4, 1, 0x4, 1, false, false, [⟨15, 0, .rc, .all 0x0⟩, ⟨31, 16, .rc, .all 0x0⟩]⟩,
  -- LCNT (R272)
  ⟨0xd8, 1, 0x4, 1, false, false, [⟨15, 0, .rc, .all 0x0⟩, ⟨31, 16, .rc, .all 0x0⟩]⟩,
  -- QDROP (R272)
  ⟨0xdc, 1, 0x4, 1, false, false, [⟨15, 0, .rc, .all 0x0⟩, ⟨31, 16, .rc, .all 0x0⟩]⟩,
  -- FLOOD (R272)
  ⟨0xe0, 1, 0x4, 1, false, false, [⟨15, 0, .rc, .all 0x0⟩, ⟨31, 16, .rc, .all 0x0⟩]⟩]
/-- PIP, 08_pip_radio.md:R272. -/
def regsPIP2 : List RDesc := [
  -- TXDROP (R272)
  ⟨0xe4, 1, 0x4, 1, false, false, [⟨15, 0, .rc, .all 0x0⟩]⟩,
  -- EGDROP (R272)
  ⟨0xe8, 1, 0x4, 1, false, false, [⟨15, 0, .rc, .all 0x0⟩, ⟨31, 16, .rc, .all 0x0⟩]⟩,
  -- RX_STAT (R272)
  ⟨0xec, 1, 0x4, 1, false, false, [⟨7, 0, .ro, .all 0x0⟩, ⟨8, 8, .w1c, .all 0x0⟩, ⟨31, 16, .rc, .all 0x0⟩]⟩,
  -- TXTIME (R272)
  ⟨0xf0, 1, 0x8, 2, false, false, [⟨63, 0, .ro, .all 0x0⟩]⟩]
/-- CU, 09_copper_ports.md:R293. -/
def regsCU0 : List RDesc := [
  -- CTL (R293)
  ⟨0x0, 1, 0x4, 1, false, false, [⟨2, 0, .rw, .all 0x0⟩, ⟨3, 3, .sc, .all 0x0⟩, ⟨5, 4, .rw, .all 0x3⟩, ⟨7, 6, .rw, .all 0x0⟩, ⟨8, 8, .rw, .all 0x1⟩, ⟨9, 9, .rw, .all 0x1⟩, ⟨10, 10, .rw, .all 0x1⟩]⟩,
  -- AN_ADV (R293)
  ⟨0x4, 1, 0x4, 1, false, false, [⟨3, 0, .rw, .all 0xf⟩]⟩,
  -- STAT (R293)
  ⟨0x8, 1, 0x4, 1, false, false, [⟨0, 0, .ro, .all 0x0⟩, ⟨3, 1, .ro, .all 0x0⟩, ⟨4, 4, .ro, .all 0x0⟩, ⟨5, 5, .ro, .all 0x0⟩, ⟨7, 6, .ro, .all 0x0⟩, ⟨10, 8, .ro, .all 0x7⟩, ⟨11, 11, .ro, .all 0x0⟩]⟩,
  -- MAXLEN (R293)
  ⟨0xc, 1, 0x4, 1, false, false, [⟨13, 0, .rw, .all 0x5f2⟩]⟩,
  -- MARGIN (R293)
  ⟨0x10, 1, 0x4, 1, false, false, [⟨7, 0, .rw, .all 0xc⟩, ⟨15, 8, .rw, .all 0x20⟩]⟩,
  -- SNR (R293)
  ⟨0x14, 1, 0x4, 1, false, false, [⟨7, 0, .ro, .all 0x0⟩, ⟨15, 8, .ro, .all 0x0⟩, ⟨23, 16, .ro, .all 0x0⟩, ⟨31, 24, .ro, .all 0x0⟩]⟩,
  -- LEN (R293)
  ⟨0x18, 1, 0x4, 1, false, false, [⟨9, 0, .ro, .all 0x0⟩]⟩,
  -- PAUSE_TH (R293)
  ⟨0x1c, 1, 0x4, 1, false, false, [⟨7, 0, .rw, .all 0xc0⟩, ⟨15, 8, .rw, .all 0x60⟩]⟩,
  -- DIAG_CTL (R293)
  ⟨0x20, 1, 0x4, 1, false, false, [⟨0, 0, .sc, .all 0x0⟩, ⟨4, 1, .rw, .all 0xf⟩, ⟨5, 5, .ro, .all 0x0⟩, ⟨25, 16, .rw, .all 0x2a4⟩]⟩,
  -- DIAG_RES (R293)
  ⟨0x24, 4, 0x4, 1, false, false, [⟨2, 0, .ro, .all 0x0⟩, ⟨4, 3, .ro, .all 0x0⟩, ⟨14, 5, .ro, .all 0x0⟩, ⟨22, 15, .ro, .all 0x0⟩]⟩,
  -- PCSCNT (R293)
  ⟨0x40, 1, 0x4, 1, false, false, [⟨15, 0, .rc, .all 0x0⟩, ⟨31, 16, .rc, .all 0x0⟩]⟩,
  -- MACCNT (R293)
  ⟨0x44, 1, 0x4, 1, false, false, [⟨15, 0, .rc, .all 0x0⟩, ⟨31, 16, .rc, .all 0x0⟩]⟩,
  -- EGCNT (R293)
  ⟨0x48, 1, 0x4, 1, false, false, [⟨15, 0, .rc, .all 0x0⟩, ⟨31, 16, .rc, .all 0x0⟩]⟩,
  -- LCNT (R293)
  ⟨0x4c, 1, 0x4, 1, false, false, [⟨15, 0, .rc, .all 0x0⟩, ⟨31, 16, .rc, .all 0x0⟩]⟩]
/-- PRS, 10_parser_classifier.md:R311. -/
def regsPRS0 : List RDesc := [
  -- CFG (R311)
  ⟨0x0, 1, 0x4, 1, false, false, [⟨0, 0, .rw, .all 0x0⟩, ⟨1, 1, .rw, .all 0x0⟩, ⟨2, 2, .rw, .all 0x0⟩, ⟨3, 3, .rw, .all 0x1⟩, ⟨31, 16, .rw, .all 0x12b5⟩]⟩,
  -- BANK (R311)
  ⟨0x4, 1, 0x4, 1, false, false, [⟨0, 0, .ro, .all 0x0⟩, ⟨1, 1, .sc, .all 0x0⟩, ⟨31, 16, .ro, .all 0x0⟩]⟩,
  -- HASH_SEED (R311)
  ⟨0x8, 1, 0x4, 1, false, false, [⟨31, 0, .rw, .all 0xffffffff⟩]⟩,
  -- PREC_BASE (R311)
  ⟨0xc, 1, 0x4, 1, false, false, [⟨24, 0, .rw, .all 0x0⟩]⟩,
  -- HOST_RAW (R311)
  ⟨0x10, 1, 0x4, 1, false, false, [⟨31, 0, .rw, .all 0x0⟩]⟩,
  -- PAT_PORTS (R311)
  ⟨0x14, 1, 0x4, 1, false, false, [⟨5, 0, .rw, .all 0x3f⟩]⟩,
  -- DEF_ACT (R311)
  ⟨0x20, 4, 0x4, 1, false, false, [⟨31, 0, .rw, .byIndex [0x1e002, 0x0, 0x0, 0x0]⟩]⟩,
  -- MAL_ACT (R311)
  ⟨0x44, 8, 0x4, 1, false, false, [⟨1, 0, .rw, .all 0x0⟩, ⟨7, 2, .rw, .all 0x0⟩, ⟨12, 8, .rw, .all 0x0⟩]⟩,
  -- MAL_CNT (R311)
  ⟨0x84, 8, 0x4, 1, false, false, [⟨31, 0, .rc, .all 0x0⟩]⟩,
  -- PCNT (R311)
  ⟨0xc0, 1, 0x4, 1, false, false, [⟨31, 0, .rc, .all 0x0⟩]⟩,
  -- CNT (R311)
  ⟨0xc4, 1, 0x4, 1, false, false, [⟨15, 0, .rc, .all 0x0⟩, ⟨31, 16, .rc, .all 0x0⟩]⟩,
  -- CNT2 (R311)
  ⟨0xc8, 1, 0x4, 1, false, false, [⟨15, 0, .rc, .all 0x0⟩, ⟨31, 16, .rc, .all 0x0⟩]⟩,
  -- REGMAP (R311)
  ⟨0x100, 16, 0x4, 1, false, false, [⟨31, 0, .rw, .all 0xe4e4e4e4⟩]⟩,
  -- RULE_STAGE (R311)
  ⟨0x400, 40, 0x4, 1, false, false, [⟨31, 0, .rw, .all 0x0⟩]⟩]
/-- PRS, 10_parser_classifier.md:R311. -/
def regsPRS1 : List RDesc := [
  -- RULE_UPD (R311)
  ⟨0x4a0, 1, 0x4, 1, false, false, [⟨13, 0, .rw, .all 0x0⟩, ⟨14, 14, .rw, .all 0x0⟩, ⟨16, 15, .rw, .all 0x0⟩, ⟨17, 17, .sc, .all 0x0⟩, ⟨18, 18, .ro, .all 0x0⟩]⟩,
  -- RULE_HITS (R311)
  ⟨0x4a4, 1, 0x4, 1, false, false, [⟨31, 0, .ro, .all 0x0⟩]⟩,
  -- PAT_STAGE (R311)
  ⟨0x500, 18, 0x4, 1, false, false, [⟨31, 0, .rw, .all 0x0⟩]⟩,
  -- PAT_UPD (R311)
  ⟨0x560, 1, 0x4, 1, false, false, [⟨9, 0, .rw, .all 0x0⟩, ⟨10, 10, .sc, .all 0x0⟩, ⟨11, 11, .ro, .all 0x0⟩]⟩]
/-- HTS, 11_task_scheduling.md:R330. -/
def regsHTS0 : List RDesc := [
  -- CTL (R330)
  ⟨0x0, 1, 0x4, 1, false, false, [⟨0, 0, .rw, .all 0x0⟩, ⟨1, 1, .ro, .all 0x0⟩, ⟨2, 2, .rw, .all 0x1⟩]⟩,
  -- TS_LIM (R330)
  ⟨0x4, 1, 0x4, 1, false, false, [⟨14, 0, .rw, .all 0x3c00⟩, ⟨30, 16, .rw, .all 0x3f00⟩]⟩,
  -- STARVE (R330)
  ⟨0x8, 1, 0x4, 1, false, false, [⟨15, 0, .rw, .all 0x3e8⟩]⟩,
  -- CLASS_PRI (R330)
  ⟨0x10, 4, 0x4, 1, false, false, [⟨31, 0, .rw, .all 0x55555555⟩]⟩,
  -- CLMAP (R330)
  ⟨0x20, 16, 0x4, 1, false, false, [⟨31, 0, .rw, .all 0xe4e4e4e4⟩]⟩,
  -- EG_BP (R330)
  ⟨0x60, 6, 0x4, 1, false, false, [⟨7, 0, .rw, .all 0x40⟩, ⟨15, 8, .rw, .all 0x20⟩, ⟨23, 16, .rw, .all 0x80⟩, ⟨29, 24, .rw, .byIndex [0x3f, 0x3f, 0x3f, 0x3f, 0x0, 0x0]⟩, ⟨30, 30, .ro, .all 0x0⟩]⟩,
  -- EG_LVL (R330)
  ⟨0x80, 6, 0x4, 1, false, false, [⟨17, 0, .ro, .all 0x0⟩]⟩,
  -- OCC (R330)
  ⟨0xa0, 4, 0x4, 1, false, true, [⟨14, 0, .ro, .all 0x0⟩, ⟨28, 16, .ro, .all 0x80⟩]⟩,
  -- ROB_OCC (R330)
  ⟨0xc0, 16, 0x4, 1, false, true, [⟨12, 0, .ro, .all 0x0⟩]⟩,
  -- CNT (R330)
  ⟨0x100, 1, 0x4, 1, false, false, [⟨15, 0, .rc, .all 0x0⟩, ⟨31, 16, .rc, .all 0x0⟩]⟩,
  -- CNT2 (R330)
  ⟨0x104, 1, 0x4, 1, false, false, [⟨15, 0, .rc, .all 0x0⟩, ⟨31, 16, .rc, .all 0x0⟩]⟩,
  -- CNT3 (R330)
  ⟨0x108, 1, 0x4, 1, false, false, [⟨15, 0, .rc, .all 0x0⟩]⟩,
  -- EGDROP (R330)
  ⟨0x110, 6, 0x4, 1, false, false, [⟨31, 0, .rc, .all 0x0⟩]⟩,
  -- FLUSH (R330)
  ⟨0x130, 1, 0x4, 1, false, false, [⟨3, 0, .sc, .all 0x0⟩]⟩]
/-- HTS, 11_task_scheduling.md:R330. -/
def regsHTS1 : List RDesc := [
  -- INJ_FLOW (R330)
  ⟨0x140, 1, 0x8, 2, true, false, [⟨63, 0, .rw, .all 0x0⟩]⟩,
  -- INJ_VAL (R330)
  ⟨0x148, 1, 0x8, 2, true, false, [⟨63, 0, .rw, .all 0x0⟩]⟩,
  -- INJ_CTL (R330)
  ⟨0x150, 1, 0x4, 1, true, false, [⟨0, 0, .sc, .all 0x0⟩, ⟨1, 1, .ro, .all 0x0⟩, ⟨2, 2, .ro, .all 0x0⟩]⟩]
/-- YCU, 02_yalvo_architecture.md:R52. -/
def regsYCU0 : List RDesc := [
  -- TASK_BUDGET (R52)
  ⟨0x10, 1, 0x4, 1, false, false, [⟨19, 0, .rw, .all 0x10000⟩]⟩,
  -- GM_WPROT (R52)
  ⟨0x14, 1, 0x4, 1, false, false, [⟨31, 0, .rwl, .all 0x0⟩]⟩,
  -- FAULT_DROPS (R52)
  ⟨0x18, 1, 0x4, 1, false, false, [⟨31, 0, .rc, .all 0x0⟩]⟩,
  -- NOEMIT_DROPS (R52)
  ⟨0x1c, 1, 0x4, 1, false, false, [⟨31, 0, .rc, .all 0x0⟩]⟩,
  -- CL_FENCE (R52)
  ⟨0x20, 1, 0x4, 1, false, false, [⟨15, 0, .w1c, .all 0x0⟩]⟩,
  -- LOAD_SRC (R52)
  ⟨0x100, 1, 0x4, 1, false, false, [⟨24, 0, .rw, .all 0x0⟩]⟩,
  -- LOAD_CTL (R52)
  ⟨0x104, 1, 0x4, 1, false, false, [⟨0, 0, .sc, .all 0x0⟩, ⟨1, 1, .rw, .all 0x0⟩, ⟨7, 4, .rw, .all 0x0⟩, ⟨31, 16, .rw, .all 0x3e8⟩]⟩,
  -- LOAD_UNITS (R52)
  ⟨0x108, 1, 0x8, 2, false, false, [⟨63, 0, .rw, .all 0x0⟩]⟩,
  -- LOAD_STAT (R52)
  ⟨0x110, 1, 0x4, 1, false, false, [⟨1, 0, .ro, .all 0x0⟩, ⟨2, 2, .ro, .all 0x0⟩, ⟨3, 3, .ro, .all 0x0⟩, ⟨15, 8, .ro, .all 0x0⟩]⟩,
  -- GEN (R52)
  ⟨0x1000, 68, 0x4, 1, false, false, [⟨31, 0, .ro, .all 0xffffffff⟩]⟩,
  -- THR_STATE (R52)
  ⟨0x2000, 64, 0x4, 1, false, true, [⟨31, 0, .ro, .all 0x44444444⟩]⟩,
  -- THR_CTL (R52)
  ⟨0x2100, 64, 0x4, 1, false, false, [⟨7, 0, .sc, .all 0x0⟩]⟩,
  -- THR_PC (R52)
  ⟨0x2200, 512, 0x4, 1, false, true, [⟨15, 2, .ro, .all 0x0⟩]⟩,
  -- GWIN (R52)
  ⟨0x10000, 16384, 0x8, 2, false, true, [⟨63, 0, .ro, .all 0x0⟩]⟩]
/-- YCU, 02_yalvo_architecture.md:R52. -/
def regsYCU1 : List RDesc := [
  -- PWWIN (R52)
  ⟨0x30000, 65536, 0x4, 1, false, true, [⟨31, 0, .ro, .all 0x0⟩]⟩]
/-- CIP, 12_cipher_engine.md:R352. -/
def regsCIP0 : List RDesc := [
  -- CTL (R352)
  ⟨0x0, 1, 0x4, 1, false, false, [⟨0, 0, .sc, .all 0x0⟩, ⟨1, 1, .ro, .all 0x0⟩, ⟨11, 4, .rw, .all 0x3⟩, ⟨15, 12, .rw, .all 0xf⟩]⟩,
  -- KEY_STAGE (R352)
  ⟨0x100, 8, 0x4, 1, true, false, [⟨31, 0, .wo, .all 0x0⟩]⟩,
  -- KEY_PN (R352)
  ⟨0x120, 1, 0x8, 2, true, false, [⟨47, 0, .wo, .all 0x0⟩]⟩,
  -- KEY_CMD (R352)
  ⟨0x130, 1, 0x4, 1, true, false, [⟨12, 0, .rw, .all 0x0⟩, ⟨14, 13, .rw, .all 0x0⟩, ⟨15, 15, .rw, .all 0x0⟩, ⟨21, 16, .rw, .all 0x0⟩, ⟨22, 22, .sc, .all 0x0⟩, ⟨23, 23, .ro, .all 0x0⟩]⟩,
  -- SLOT_SEL (R352)
  ⟨0x140, 1, 0x4, 1, false, false, [⟨12, 0, .rw, .all 0x0⟩]⟩,
  -- SLOT_INFO (R352)
  ⟨0x144, 1, 0x4, 1, false, true, [⟨0, 0, .ro, .all 0x0⟩, ⟨1, 1, .ro, .all 0x0⟩, ⟨5, 2, .ro, .all 0x0⟩, ⟨11, 6, .ro, .all 0x0⟩]⟩,
  -- SLOT_PN (R352)
  ⟨0x148, 1, 0x8, 2, false, true, [⟨47, 0, .ro, .all 0x0⟩]⟩,
  -- CNT (R352)
  ⟨0x160, 1, 0x4, 1, false, false, [⟨15, 0, .rc, .all 0x0⟩, ⟨31, 16, .rc, .all 0x0⟩]⟩,
  -- CNT2 (R352)
  ⟨0x164, 1, 0x4, 1, false, false, [⟨15, 0, .rc, .all 0x0⟩, ⟨31, 16, .rc, .all 0x0⟩]⟩,
  -- ZERO_STAT (R352)
  ⟨0x170, 1, 0x4, 1, false, false, [⟨9, 0, .ro, .all 0x0⟩, ⟨31, 16, .ro, .all 0x0⟩]⟩,
  -- LANE_BUSY (R352)
  ⟨0x180, 1, 0x4, 1, false, true, [⟨31, 0, .ro, .all 0x0⟩]⟩,
  -- QOCC (R352)
  ⟨0x184, 1, 0x4, 1, false, true, [⟨8, 0, .ro, .all 0x0⟩]⟩,
  -- RNG_STAT (R352)
  ⟨0x190, 1, 0x4, 1, false, false, [⟨0, 0, .ro, .all 0x0⟩, ⟨31, 16, .ro, .all 0x0⟩]⟩]
/-- EPT, 13_endpoints_forwarding.md:R372. -/
def regsEPT0 : List RDesc := [
  -- CTL (R372)
  ⟨0x0, 1, 0x4, 1, false, false, [⟨0, 0, .rw, .all 0x0⟩, ⟨1, 1, .sc, .all 0x0⟩]⟩,
  -- TBL_BASE (R372)
  ⟨0x8, 1, 0x8, 2, false, false, [⟨33, 0, .rw, .all 0x0⟩]⟩,
  -- IDX_BASE (R372)
  ⟨0x10, 1, 0x8, 2, false, false, [⟨33, 0, .rw, .all 0x0⟩]⟩,
  -- RT_BASE (R372)
  ⟨0x18, 1, 0x8, 2, false, false, [⟨33, 0, .rw, .all 0x0⟩]⟩,
  -- CACHE (R372)
  ⟨0x20, 1, 0x4, 1, false, false, [⟨31, 0, .rw, .all 0x3⟩]⟩,
  -- CMD_BASE (R372)
  ⟨0x24, 1, 0x4, 1, false, false, [⟨24, 0, .rw, .all 0x0⟩]⟩,
  -- ALLOC_FLOOR (R372)
  ⟨0x28, 1, 0x4, 1, false, false, [⟨17, 0, .rw, .all 0x0⟩]⟩,
  -- SEED (R372)
  ⟨0x2c, 1, 0x4, 1, false, false, [⟨31, 0, .rw, .all 0xffffffff⟩]⟩,
  -- EPOCH (R372)
  ⟨0x30, 1, 0x4, 1, false, false, [⟨30, 0, .rw, .all 0x0⟩, ⟨31, 31, .ro, .all 0x0⟩]⟩,
  -- OCC (R372)
  ⟨0x34, 1, 0x4, 1, false, false, [⟨18, 0, .ro, .all 0x0⟩]⟩,
  -- CNT (R372)
  ⟨0x38, 1, 0x4, 1, false, false, [⟨15, 0, .rc, .all 0x0⟩, ⟨31, 16, .rc, .all 0x0⟩]⟩,
  -- RT_STAGE (R372)
  ⟨0x40, 6, 0x4, 1, false, false, [⟨31, 0, .rw, .all 0x0⟩]⟩,
  -- RT_UPD (R372)
  ⟨0x60, 1, 0x4, 1, false, false, [⟨0, 0, .sc, .all 0x0⟩, ⟨1, 1, .ro, .all 0x0⟩]⟩,
  -- RT_OCC4 (R372)
  ⟨0x64, 1, 0x4, 1, false, false, [⟨16, 0, .ro, .all 0x0⟩]⟩]
/-- EPT, 13_endpoints_forwarding.md:R372. -/
def regsEPT1 : List RDesc := [
  -- RT_OCC6 (R372)
  ⟨0x68, 1, 0x4, 1, false, false, [⟨16, 0, .ro, .all 0x0⟩]⟩,
  -- ILOG_BASE (R372)
  ⟨0x70, 1, 0x8, 2, false, false, [⟨33, 0, .rw, .all 0x0⟩]⟩,
  -- ILOG_CTL (R372)
  ⟨0x78, 1, 0x4, 1, false, false, [⟨7, 0, .rw, .all 0xe⟩, ⟨23, 8, .rw, .all 0x400⟩, ⟨24, 24, .w1c, .all 0x0⟩]⟩,
  -- ILOG_WR (R372)
  ⟨0x7c, 1, 0x4, 1, false, false, [⟨15, 0, .ro, .all 0x0⟩]⟩,
  -- ILOG_RD (R372)
  ⟨0x80, 1, 0x4, 1, false, false, [⟨15, 0, .rw, .all 0x0⟩]⟩,
  -- JRN_CFG (R372)
  ⟨0x84, 1, 0x4, 1, false, false, [⟨15, 0, .rwl, .all 0x0⟩]⟩,
  -- JRN_CTL (R372)
  ⟨0x88, 1, 0x4, 1, false, false, [⟨0, 0, .sc, .all 0x0⟩, ⟨1, 1, .ro, .all 0x0⟩, ⟨2, 2, .sc, .all 0x0⟩, ⟨3, 3, .ro, .all 0x0⟩]⟩,
  -- JRN_APP (R372)
  ⟨0x8c, 1, 0x4, 1, true, false, [⟨7, 0, .rw, .all 0x0⟩, ⟨19, 8, .rw, .all 0x0⟩, ⟨20, 20, .rw, .all 0x0⟩, ⟨21, 21, .sc, .all 0x0⟩, ⟨24, 22, .ro, .all 0x0⟩]⟩,
  -- JRN_ID (R372)
  ⟨0x90, 1, 0x4, 1, true, false, [⟨31, 0, .rw, .all 0x0⟩]⟩,
  -- JRN_SRC (R372)
  ⟨0x94, 1, 0x4, 1, true, false, [⟨24, 0, .rw, .all 0x0⟩]⟩,
  -- JRN_DIR (R372)
  ⟨0x98, 1, 0x8, 2, false, false, [⟨33, 0, .rw, .all 0x0⟩]⟩,
  -- JRN_STAT (R372)
  ⟨0xa0, 1, 0x4, 1, false, false, [⟨6, 0, .ro, .all 0x0⟩, ⟨29, 7, .ro, .all 0x0⟩]⟩,
  -- JRN_KEYS (R372)
  ⟨0xa4, 1, 0x4, 1, false, false, [⟨16, 0, .ro, .all 0x0⟩]⟩,
  -- JRN_SEQ (R372)
  ⟨0xa8, 1, 0x8, 2, false, false, [⟨63, 0, .ro, .all 0x0⟩]⟩]
/-- EPT, 13_endpoints_forwarding.md:R372. -/
def regsEPT2 : List RDesc := [
  -- JRN_CNT (R372)
  ⟨0xb0, 1, 0x4, 1, false, false, [⟨15, 0, .rc, .all 0x0⟩, ⟨31, 16, .rc, .all 0x0⟩]⟩]
/-- DMC, 14_dram_controller.md:R396. -/
def regsDMC0 : List RDesc := [
  -- CTL (R396)
  ⟨0x0, 1, 0x4, 1, false, false, [⟨0, 0, .rw, .all 0x0⟩, ⟨1, 1, .rw, .all 0x1⟩, ⟨3, 2, .rw, .all 0x2⟩, ⟨4, 4, .rw, .all 0x0⟩, ⟨6, 5, .rw, .all 0x0⟩, ⟨8, 8, .sc, .all 0x0⟩, ⟨9, 9, .sc, .all 0x0⟩, ⟨10, 10, .rw, .all 0x1⟩, ⟨11, 11, .rw, .all 0x1⟩]⟩,
  -- STAT (R396)
  ⟨0x4, 1, 0x4, 1, false, false, [⟨0, 0, .ro, .all 0x0⟩, ⟨1, 1, .ro, .all 0x0⟩, ⟨4, 2, .ro, .all 0x5⟩, ⟨5, 5, .ro, .all 0x0⟩, ⟨6, 6, .ro, .all 0x0⟩, ⟨23, 16, .ro, .all 0x0⟩]⟩,
  -- XM_SIZE (R396)
  ⟨0x8, 1, 0x4, 1, false, true, [⟨14, 0, .ro, .all 0x0⟩]⟩,
  -- PORT_CFG (R396)
  ⟨0x20, 8, 0x4, 1, false, false, [⟨1, 0, .rw, .byIndex [0x3, 0x3, 0x1, 0x1, 0x2, 0x2, 0x1, 0x1]⟩, ⟨2, 2, .rw, .byIndex [0x0, 0x0, 0x1, 0x1, 0x0, 0x0, 0x0, 0x0]⟩, ⟨13, 4, .rw, .byIndex [0x28, 0x28, 0xc8, 0xc8, 0xc8, 0xc8, 0xc8, 0xc8]⟩, ⟨23, 14, .rw, .all 0x64⟩]⟩,
  -- PANIC_CFG (R396)
  ⟨0x40, 1, 0x4, 1, false, false, [⟨7, 0, .rw, .all 0x10⟩, ⟨15, 8, .rw, .all 0x20⟩, ⟨23, 16, .rw, .all 0x4⟩, ⟨27, 24, .rw, .all 0x8⟩]⟩,
  -- ECC_CNT (R396)
  ⟨0x50, 1, 0x4, 1, false, false, [⟨15, 0, .rc, .all 0x0⟩, ⟨31, 16, .rc, .all 0x0⟩]⟩,
  -- ECC_CNT2 (R396)
  ⟨0x54, 1, 0x4, 1, false, false, [⟨15, 0, .rc, .all 0x0⟩, ⟨31, 16, .rc, .all 0x0⟩]⟩,
  -- PORT_STAT (R396)
  ⟨0x60, 8, 0x4, 1, false, false, [⟨15, 0, .rc, .all 0x0⟩, ⟨31, 16, .rc, .all 0x0⟩]⟩,
  -- PANIC_CNT (R396)
  ⟨0x80, 1, 0x4, 1, false, false, [⟨15, 0, .rc, .all 0x0⟩, ⟨31, 16, .rc, .all 0x0⟩]⟩,
  -- SPEC_CNT (R396)
  ⟨0x84, 1, 0x4, 1, false, false, [⟨31, 0, .rc, .all 0x0⟩]⟩,
  -- SCRUB (R396)
  ⟨0x90, 1, 0x4, 1, false, false, [⟨15, 0, .rw, .all 0x18⟩]⟩,
  -- TRAIN_STAT (R396)
  ⟨0x94, 1, 0x4, 1, false, false, [⟨1, 0, .ro, .all 0x0⟩, ⟨31, 16, .rc, .all 0x0⟩]⟩,
  -- TSET0 (R396)
  ⟨0x400, 32, 0x4, 1, false, false, [⟨31, 0, .rw, .byIndex [0x5]⟩]⟩,
  -- TSET1 (R396)
  ⟨0x480, 32, 0x4, 1, false, false, [⟨31, 0, .rw, .byIndex [0x5]⟩]⟩]
/-- DMA, 15_dma_coherency.md:R414. -/
def regsDMA0 : List RDesc := [
  -- CH_CTL (R414)
  ⟨0x0, 1, 0x4, 1, false, false, [⟨0, 0, .sc, .all 0x0⟩, ⟨1, 1, .sc, .all 0x0⟩, ⟨2, 2, .ro, .all 0x0⟩, ⟨3, 3, .ro, .all 0x0⟩, ⟨4, 4, .ro, .all 0x0⟩, ⟨7, 5, .ro, .all 0x0⟩]⟩,
  -- CH_CFG (R414)
  ⟨0x4, 1, 0x4, 1, false, false, [⟨7, 0, .rw, .all 0xff⟩, ⟨9, 8, .rw, .all 0x0⟩, ⟨12, 10, .rw, .all 0x3⟩, ⟨13, 13, .rw, .all 0x0⟩, ⟨14, 14, .rw, .all 0x0⟩, ⟨16, 15, .rw, .all 0x0⟩, ⟨23, 17, .rw, .all 0x0⟩]⟩,
  -- CH_HEAD (R414)
  ⟨0x8, 1, 0x8, 2, false, false, [⟨63, 0, .rw, .all 0x0⟩]⟩,
  -- CH_CUR (R414)
  ⟨0x10, 1, 0x8, 2, false, false, [⟨63, 0, .ro, .all 0x0⟩]⟩,
  -- CH_COUNT (R414)
  ⟨0x18, 1, 0x4, 1, false, false, [⟨23, 0, .ro, .all 0x0⟩]⟩,
  -- CH_CNT (R414)
  ⟨0x1c, 1, 0x4, 1, false, false, [⟨15, 0, .rc, .all 0x0⟩, ⟨31, 16, .rc, .all 0x0⟩]⟩]
/-- DMAS, 15_dma_coherency.md:R415. -/
def regsDMAS0 : List RDesc := [
  -- IRQ_DONE (R415)
  ⟨0x0, 1, 0x8, 2, false, false, [⟨63, 0, .w1c, .all 0x0⟩]⟩,
  -- IRQ_ERR (R415)
  ⟨0x8, 1, 0x8, 2, false, false, [⟨63, 0, .w1c, .all 0x0⟩]⟩,
  -- IRQ_DONE_EN (R415)
  ⟨0x10, 1, 0x8, 2, false, false, [⟨63, 0, .rw, .all 0x0⟩]⟩,
  -- IRQ_ERR_EN (R415)
  ⟨0x18, 1, 0x8, 2, false, false, [⟨63, 0, .rw, .all 0x0⟩]⟩,
  -- RATE (R415)
  ⟨0x20, 1, 0x4, 1, false, false, [⟨15, 0, .rw, .all 0xfa⟩]⟩,
  -- MCC_ADDR (R415)
  ⟨0x30, 1, 0x8, 2, true, false, [⟨34, 0, .rw, .all 0x0⟩]⟩,
  -- MCC_LEN (R415)
  ⟨0x38, 1, 0x4, 1, true, false, [⟨31, 0, .rw, .all 0x0⟩]⟩,
  -- MCC_CTL (R415)
  ⟨0x3c, 1, 0x4, 1, true, false, [⟨1, 0, .rw, .all 0x0⟩, ⟨2, 2, .sc, .all 0x0⟩, ⟨3, 3, .ro, .all 0x0⟩]⟩]
/-- HST, 16_host_interface.md:R427. -/
def regsHST0 : List RDesc := [
  -- LINK (R427)
  ⟨0x0, 1, 0x4, 1, false, false, [⟨2, 0, .ro, .all 0x0⟩, ⟨5, 3, .ro, .all 0x0⟩, ⟨6, 6, .ro, .all 0x0⟩, ⟨7, 7, .ro, .all 0x0⟩]⟩,
  -- MISC_VEC (R427)
  ⟨0x4, 1, 0x4, 1, false, false, [⟨6, 0, .rw, .all 0x0⟩, ⟨7, 7, .rw, .all 0x0⟩]⟩,
  -- RA_DEV (R427)
  ⟨0x10, 1, 0x4, 1, false, false, [⟨5, 0, .rw, .all 0x0⟩]⟩,
  -- RA_ADDR (R427)
  ⟨0x14, 1, 0x4, 1, false, false, [⟨25, 2, .rw, .all 0x0⟩]⟩,
  -- RA_DATA (R427)
  ⟨0x18, 1, 0x4, 1, false, false, [⟨31, 0, .rw, .all 0x0⟩]⟩,
  -- RA_CTL (R427)
  ⟨0x1c, 1, 0x4, 1, false, false, [⟨0, 0, .sc, .all 0x0⟩, ⟨1, 1, .rw, .all 0x0⟩, ⟨2, 2, .ro, .all 0x0⟩, ⟨4, 3, .ro, .all 0x0⟩, ⟨15, 8, .rw, .all 0x32⟩]⟩]
/-- HSTQ, 16_host_interface.md:R427. -/
def regsHSTQ0 : List RDesc := [
  -- QP_CTL (R427)
  ⟨0x0, 1, 0x4, 1, false, false, [⟨0, 0, .rw, .all 0x0⟩, ⟨1, 1, .ro, .all 0x0⟩, ⟨3, 2, .ro, .all 0x0⟩]⟩,
  -- QP_CFG (R427)
  ⟨0x4, 1, 0x4, 1, false, false, [⟨3, 0, .rw, .all 0x6⟩, ⟨7, 4, .rw, .all 0x6⟩, ⟨8, 8, .rw, .all 0x0⟩, ⟨9, 9, .rw, .all 0x0⟩, ⟨16, 10, .rw, .all 0x0⟩, ⟨17, 17, .rw, .all 0x0⟩]⟩,
  -- QP_COAL (R427)
  ⟨0x8, 1, 0x4, 1, false, false, [⟨7, 0, .rw, .all 0x1⟩, ⟨23, 8, .rw, .all 0x32⟩]⟩,
  -- QP_SQBASE (R427)
  ⟨0x10, 1, 0x8, 2, false, false, [⟨63, 0, .rw, .all 0x0⟩]⟩,
  -- QP_CQBASE (R427)
  ⟨0x18, 1, 0x8, 2, false, false, [⟨63, 0, .rw, .all 0x0⟩]⟩,
  -- QP_IDX (R427)
  ⟨0x20, 1, 0x4, 1, false, false, [⟨15, 0, .ro, .all 0x0⟩, ⟨31, 16, .ro, .all 0x0⟩]⟩,
  -- QP_RXLIM (R427)
  ⟨0x24, 1, 0x4, 1, false, false, [⟨11, 0, .rw, .all 0x100⟩]⟩,
  -- QP_CNT (R427)
  ⟨0x28, 1, 0x4, 1, false, false, [⟨15, 0, .rc, .all 0x0⟩, ⟨31, 16, .rc, .all 0x0⟩]⟩,
  -- QP_CNT2 (R427)
  ⟨0x2c, 1, 0x4, 1, false, false, [⟨15, 0, .rc, .all 0x0⟩, ⟨31, 16, .rc, .all 0x0⟩]⟩]
/-- FED, 17_federation.md:R453. -/
def regsFED0 : List RDesc := [
  -- CTL (R453)
  ⟨0x0, 1, 0x4, 1, false, false, [⟨0, 0, .rw, .all 0x0⟩, ⟨1, 1, .sc, .all 0x0⟩, ⟨2, 2, .sc, .all 0x0⟩]⟩,
  -- STAT (R453)
  ⟨0x4, 1, 0x4, 1, false, false, [⟨2, 0, .ro, .all 0x0⟩, ⟨3, 3, .ro, .all 0x1⟩, ⟨4, 4, .ro, .all 0x1⟩, ⟨5, 5, .ro, .all 0x0⟩, ⟨14, 8, .ro, .all 0x1⟩]⟩,
  -- SIZE_CLASS (R453)
  ⟨0x8, 1, 0x4, 1, false, false, [⟨0, 0, .rwl, .all 0x0⟩]⟩,
  -- ETYPE (R453)
  ⟨0xc, 1, 0x4, 1, false, false, [⟨15, 0, .rwl, .all 0x88b5⟩]⟩,
  -- ID (R453)
  ⟨0x10, 1, 0x4, 1, false, false, [⟨5, 0, .rw, .all 0x0⟩, ⟨13, 8, .rw, .all 0x0⟩]⟩,
  -- INCARN (R453)
  ⟨0x14, 1, 0x4, 1, false, false, [⟨31, 0, .ro, .all 0x0⟩]⟩,
  -- EPOCH_SYS (R453)
  ⟨0x18, 1, 0x4, 1, false, false, [⟨30, 0, .rw, .all 0x0⟩]⟩,
  -- KEY (R453)
  ⟨0x1c, 1, 0x4, 1, false, false, [⟨12, 0, .rw, .all 0x0⟩, ⟨28, 16, .rw, .all 0x0⟩]⟩,
  -- TIMING (R453)
  ⟨0x20, 1, 0x4, 1, false, false, [⟨7, 0, .rw, .all 0xa⟩, ⟨15, 8, .rw, .all 0x14⟩, ⟨18, 16, .rw, .all 0x3⟩, ⟨31, 24, .rw, .all 0x5⟩]⟩,
  -- MEMBERS (R453)
  ⟨0x28, 1, 0x8, 2, false, false, [⟨63, 0, .rw, .all 0x0⟩]⟩,
  -- ELIG (R453)
  ⟨0x30, 1, 0x8, 2, false, false, [⟨63, 0, .rw, .all 0x1⟩]⟩,
  -- VOTE (R453)
  ⟨0x40, 8, 0x4, 1, false, false, [⟨31, 0, .rw, .all 0x11111111⟩]⟩,
  -- REACH (R453)
  ⟨0x60, 1, 0x8, 2, false, false, [⟨63, 0, .ro, .all 0x1⟩]⟩,
  -- LLADDR (R453)
  ⟨0x68, 1, 0x8, 2, false, false, [⟨47, 0, .rw, .all 0x100004f9c03⟩]⟩]
/-- FED, 17_federation.md:R453. -/
def regsFED1 : List RDesc := [
  -- SYS_GM (R453)
  ⟨0x70, 1, 0x4, 1, false, false, [⟨24, 0, .rw, .all 0x0⟩]⟩,
  -- MBOX_BASE (R453)
  ⟨0x74, 1, 0x4, 1, false, false, [⟨24, 0, .rw, .all 0x0⟩]⟩,
  -- MBOX_SIZE (R453)
  ⟨0x78, 1, 0x4, 1, false, false, [⟨9, 0, .rw, .all 0x40⟩]⟩,
  -- MBOX_WR (R453)
  ⟨0x7c, 1, 0x4, 1, false, false, [⟨9, 0, .ro, .all 0x0⟩]⟩,
  -- MBOX_RD (R453)
  ⟨0x80, 1, 0x4, 1, false, false, [⟨9, 0, .rw, .all 0x0⟩]⟩,
  -- TX_SRC (R453)
  ⟨0x88, 1, 0x4, 1, true, false, [⟨24, 0, .rw, .all 0x0⟩]⟩,
  -- TX_CTL (R453)
  ⟨0x8c, 1, 0x4, 1, true, false, [⟨7, 0, .rw, .all 0x0⟩, ⟨13, 8, .rw, .all 0x0⟩, ⟨14, 14, .rw, .all 0x0⟩, ⟨15, 15, .rw, .all 0x0⟩, ⟨16, 16, .rw, .all 0x0⟩, ⟨27, 17, .rw, .all 0x0⟩, ⟨28, 28, .sc, .all 0x0⟩, ⟨31, 29, .ro, .all 0x0⟩]⟩,
  -- TX_SEQ (R453)
  ⟨0x90, 1, 0x4, 1, true, false, [⟨31, 0, .ro, .all 0x0⟩]⟩,
  -- CNT (R453)
  ⟨0xa0, 1, 0x4, 1, false, false, [⟨15, 0, .rc, .all 0x0⟩, ⟨31, 16, .rc, .all 0x0⟩]⟩,
  -- CNT2 (R453)
  ⟨0xa4, 1, 0x4, 1, false, false, [⟨15, 0, .rc, .all 0x0⟩, ⟨31, 16, .rc, .all 0x0⟩]⟩,
  -- CNT3 (R453)
  ⟨0xa8, 1, 0x4, 1, false, false, [⟨15, 0, .rc, .all 0x0⟩, ⟨31, 16, .rc, .all 0x0⟩]⟩,
  -- CNT4 (R453)
  ⟨0xac, 1, 0x4, 1, false, false, [⟨15, 0, .rc, .all 0x0⟩, ⟨31, 16, .rc, .all 0x0⟩]⟩,
  -- ROUTE (R453)
  ⟨0x200, 64, 0x4, 1, false, false, [⟨3, 0, .ro, .all 0xf⟩, ⟨6, 4, .ro, .all 0x0⟩]⟩]
/-- FEDS, 17_federation.md:R453. -/
def regsFEDS0 : List RDesc := [
  -- LINK_CFG (R453)
  ⟨0x0, 1, 0x4, 1, false, false, [⟨0, 0, .rw, .all 0x0⟩, ⟨11, 1, .rw, .all 0x0⟩]⟩,
  -- LINK_STAT (R453)
  ⟨0x4, 1, 0x4, 1, false, false, [⟨0, 0, .ro, .all 0x0⟩, ⟨1, 1, .ro, .all 0x0⟩, ⟨7, 2, .ro, .all 0x0⟩, ⟨15, 8, .ro, .all 0x0⟩, ⟨31, 16, .rc, .all 0x0⟩]⟩,
  -- LINK_OFS (R453)
  ⟨0x8, 1, 0x4, 1, false, false, [⟨31, 0, .ro, .all 0x0⟩]⟩,
  -- LINK_DLY (R453)
  ⟨0xc, 1, 0x4, 1, false, false, [⟨31, 0, .ro, .all 0x0⟩]⟩]
/-- PWR, 18_power_states.md:R471. -/
def regsPWR0 : List RDesc := [
  -- CTL (R471)
  ⟨0x0, 1, 0x4, 1, false, false, [⟨0, 0, .rw, .all 0x0⟩, ⟨2, 1, .rw, .all 0x0⟩]⟩,
  -- STAT (R471)
  ⟨0x4, 1, 0x4, 1, false, false, [⟨2, 0, .ro, .all 0x0⟩, ⟨3, 3, .ro, .all 0x0⟩, ⟨6, 4, .ro, .all 0x0⟩, ⟨7, 7, .ro, .all 0x0⟩, ⟨8, 8, .ro, .all 0x0⟩, ⟨10, 9, .ro, .all 0x0⟩]⟩,
  -- DOM (R471)
  ⟨0x8, 1, 0x4, 1, false, false, [⟨13, 0, .ro, .all 0x1f⟩]⟩,
  -- GRN_RET (R471)
  ⟨0x10, 1, 0x4, 1, false, false, [⟨31, 0, .rw, .all 0xffffffff⟩]⟩,
  -- GRN_LOST (R471)
  ⟨0x14, 1, 0x4, 1, false, false, [⟨31, 0, .w1c, .all 0x0⟩]⟩,
  -- RET_CFG (R471)
  ⟨0x18, 1, 0x4, 1, false, false, [⟨3, 0, .rw, .all 0xf⟩, ⟨4, 4, .rw, .all 0x1⟩, ⟨5, 5, .rwl, .all 0x0⟩]⟩,
  -- WAKE_EN (R471)
  ⟨0x20, 1, 0x4, 1, false, false, [⟨3, 0, .rw, .all 0x7⟩]⟩,
  -- WAKE_STAT (R471)
  ⟨0x24, 1, 0x4, 1, false, false, [⟨3, 0, .w1c, .all 0x0⟩, ⟨31, 16, .rc, .all 0x0⟩]⟩,
  -- WAKE_TGT (R471)
  ⟨0x28, 1, 0x4, 1, false, false, [⟨3, 0, .rw, .all 0x7⟩]⟩,
  -- WAKE_HOST (R471)
  ⟨0x2c, 1, 0x4, 1, false, false, [⟨0, 0, .sc, .all 0x0⟩]⟩,
  -- WAKE_AT (R471)
  ⟨0x30, 1, 0x8, 2, false, false, [⟨63, 0, .rw, .all 0xffffffffffffffff⟩]⟩,
  -- ENTRY_TO (R471)
  ⟨0x38, 1, 0x4, 1, false, false, [⟨15, 0, .rw, .all 0x3e8⟩]⟩,
  -- WAKE_LOG (R471)
  ⟨0x40, 1, 0x4, 1, false, false, [⟨3, 0, .ro, .all 0x0⟩, ⟨7, 4, .ro, .all 0x0⟩, ⟨31, 8, .ro, .all 0x0⟩]⟩,
  -- CNT (R471)
  ⟨0x44, 1, 0x4, 1, false, false, [⟨15, 0, .rc, .all 0x0⟩, ⟨31, 16, .rc, .all 0x0⟩]⟩]
/-- PWR, 18_power_states.md:R471. -/
def regsPWR1 : List RDesc := [
  -- OFFACC (R471)
  ⟨0x48, 1, 0x4, 1, false, false, [⟨15, 0, .rc, .all 0x0⟩]⟩,
  -- AVS_CFG (R471)
  ⟨0x50, 1, 0x4, 1, false, false, [⟨5, 0, .rw, .all 0x9⟩, ⟨9, 6, .rw, .all 0x0⟩, ⟨31, 16, .rw, .all 0x7d0⟩]⟩,
  -- AVS_V (R471)
  ⟨0x60, 5, 0x4, 1, false, false, [⟨9, 0, .rw, .byIndex [0x320, 0x2bc, 0x28a, 0x258, 0x226]⟩]⟩,
  -- AVS_STAT (R471)
  ⟨0x80, 1, 0x4, 1, false, false, [⟨9, 0, .ro, .all 0x0⟩, ⟨10, 10, .ro, .all 0x0⟩, ⟨31, 16, .rc, .all 0x0⟩]⟩]
/-- FLT, 19_faults_acorn.md:R494. -/
def regsFLT0 : List RDesc := [
  -- CTL (R494)
  ⟨0x0, 1, 0x4, 1, false, false, [⟨0, 0, .rw, .all 0x1⟩, ⟨1, 1, .rwl, .all 0x1⟩, ⟨3, 2, .rw, .all 0x0⟩, ⟨4, 4, .rw, .all 0x1⟩, ⟨5, 5, .rw, .all 0x0⟩, ⟨6, 6, .rw, .all 0x0⟩]⟩,
  -- STAT (R494)
  ⟨0x4, 1, 0x4, 1, false, true, [⟨1, 0, .ro, .all 0x0⟩, ⟨11, 2, .ro, .all 0x0⟩]⟩,
  -- CLASS_CFG01 (R494)
  ⟨0x10, 2, 0x4, 1, false, false, [⟨1, 0, .rw, .byIndex [0x0, 0x1]⟩]⟩,
  -- CLASS_CFG2 (R494)
  ⟨0x18, 1, 0x4, 1, false, false, [⟨1, 0, .ro, .all 0x3⟩]⟩,
  -- CLASS_CFG3 (R494)
  ⟨0x1c, 1, 0x4, 1, false, false, [⟨1, 0, .rw, .all 0x1⟩]⟩,
  -- GRACE1_01 (R494)
  ⟨0x20, 2, 0x4, 1, false, false, [⟨19, 0, .rw, .byIndex [0xf4240, 0x186a0]⟩]⟩,
  -- GRACE1_2 (R494)
  ⟨0x28, 1, 0x4, 1, false, false, [⟨19, 0, .ro, .all 0x0⟩]⟩,
  -- GRACE1_3 (R494)
  ⟨0x2c, 1, 0x4, 1, false, false, [⟨19, 0, .rw, .all 0x2710⟩]⟩,
  -- GRACE2_01 (R494)
  ⟨0x30, 2, 0x4, 1, false, false, [⟨19, 0, .rw, .byIndex [0xf4240, 0xf4240]⟩]⟩,
  -- GRACE2_2 (R494)
  ⟨0x38, 1, 0x4, 1, false, false, [⟨19, 0, .ro, .all 0x0⟩]⟩,
  -- GRACE2_3 (R494)
  ⟨0x3c, 1, 0x4, 1, false, false, [⟨19, 0, .rw, .all 0x186a0⟩]⟩,
  -- CLASS_STAT (R494)
  ⟨0x40, 4, 0x4, 1, false, false, [⟨15, 0, .rc, .all 0x0⟩, ⟨31, 16, .rc, .all 0x0⟩]⟩,
  -- STICKY (R494)
  ⟨0x100, 20, 0x4, 1, false, true, [⟨31, 0, .w1c, .all 0x0⟩]⟩,
  -- PEND (R494)
  ⟨0x180, 20, 0x4, 1, false, true, [⟨31, 0, .ro, .all 0x0⟩]⟩]
/-- FLT, 19_faults_acorn.md:R494. -/
def regsFLT1 : List RDesc := [
  -- ACK (R494)
  ⟨0x200, 20, 0x4, 1, false, false, [⟨31, 0, .wo, .all 0x0⟩]⟩,
  -- FORCE (R494)
  ⟨0x280, 20, 0x4, 1, false, false, [⟨31, 0, .wo, .all 0x0⟩]⟩,
  -- IRQ (R494)
  ⟨0x300, 1, 0x4, 1, false, false, [⟨3, 0, .w1c, .all 0x0⟩]⟩,
  -- IRQ_EN (R494)
  ⟨0x304, 1, 0x4, 1, false, false, [⟨3, 0, .rw, .all 0xf⟩]⟩,
  -- HOLD_WR (R494)
  ⟨0x308, 1, 0x4, 1, false, false, [⟨15, 0, .rc, .all 0x0⟩]⟩,
  -- DUMP_TO (R494)
  ⟨0x30c, 1, 0x4, 1, false, false, [⟨15, 0, .rw, .all 0x2710⟩]⟩,
  -- RMT (R494)
  ⟨0x400, 64, 0x4, 1, false, false, [⟨15, 0, .rc, .all 0x0⟩, ⟨25, 16, .ro, .all 0x0⟩, ⟨27, 26, .ro, .all 0x0⟩]⟩,
  -- SRC (R494)
  ⟨0x1000, 640, 0x4, 1, false, false, [⟨1, 0, .ro, .all 0x0⟩, ⟨2, 2, .ro, .all 0x0⟩, ⟨3, 3, .ro, .all 0x0⟩, ⟨4, 4, .ro, .all 0x0⟩, ⟨6, 5, .ro, .cls⟩, ⟨15, 8, .rc, .all 0x0⟩, ⟨31, 16, .rc, .all 0x0⟩]⟩]
/-- ACN, 19_faults_acorn.md:R495. -/
def regsACN0 : List RDesc := [
  -- CTL (R495)
  ⟨0x0, 1, 0x4, 1, false, false, [⟨7, 0, .rw, .all 0xa⟩, ⟨8, 8, .sc, .all 0x0⟩, ⟨9, 9, .sc, .all 0x0⟩]⟩,
  -- STAT (R495)
  ⟨0x4, 1, 0x4, 1, false, false, [⟨0, 0, .ro, .all 0x0⟩, ⟨1, 1, .ro, .all 0x0⟩, ⟨31, 16, .ro, .all 0x0⟩]⟩,
  -- RSEQ (R495)
  ⟨0x8, 1, 0x4, 1, false, true, [⟨31, 0, .ro, .all 0x0⟩]⟩,
  -- BOOTS (R495)
  ⟨0xc, 1, 0x4, 1, false, true, [⟨31, 0, .ro, .all 0x0⟩]⟩,
  -- FW_REC (R495)
  ⟨0x10, 1, 0x10, 4, false, false, [⟨127, 0, .wo, .all 0x0⟩]⟩,
  -- FW_CTL (R495)
  ⟨0x20, 1, 0x4, 1, false, false, [⟨0, 0, .sc, .all 0x0⟩, ⟨1, 1, .ro, .all 0x0⟩]⟩,
  -- DUMP_CFG (R495)
  ⟨0x30, 1, 0x4, 1, false, false, [⟨15, 0, .rwl, .all 0x0⟩, ⟨31, 16, .rwl, .all 0x0⟩]⟩,
  -- DUMP_SEL (R495)
  ⟨0x34, 1, 0x4, 1, false, false, [⟨31, 0, .rw, .all 0x0⟩]⟩,
  -- DUMP_FW (R495)
  ⟨0x38, 1, 0x4, 1, false, false, [⟨24, 0, .rw, .all 0x0⟩]⟩,
  -- DUMP_FWLEN (R495)
  ⟨0x3c, 1, 0x4, 1, false, false, [⟨16, 0, .rw, .all 0x0⟩]⟩,
  -- DUMP_CTL (R495)
  ⟨0x40, 1, 0x4, 1, false, false, [⟨0, 0, .sc, .all 0x0⟩, ⟨2, 1, .ro, .all 0x0⟩, ⟨3, 3, .ro, .all 0x0⟩, ⟨31, 16, .ro, .all 0x0⟩]⟩,
  -- WIN (R495)
  ⟨0x80000, 65536, 0x4, 1, false, true, [⟨31, 0, .rw, .all 0x0⟩]⟩]
/-- SEC, 20_boot_security.md:R517. -/
def regsSEC0 : List RDesc := [
  -- STRAP (R517)
  ⟨0x0, 1, 0x4, 1, false, false, [⟨0, 0, .ro, .all 0x0⟩, ⟨1, 1, .ro, .all 0x0⟩, ⟨31, 16, .ro, .all 0x0⟩]⟩,
  -- LC (R517)
  ⟨0x4, 1, 0x4, 1, false, false, [⟨1, 0, .ro, .all 0x0⟩]⟩,
  -- LC_CTL (R517)
  ⟨0x8, 1, 0x4, 1, false, false, [⟨1, 0, .rw, .all 0x0⟩, ⟨15, 8, .rw, .all 0x0⟩, ⟨16, 16, .sc, .all 0x0⟩, ⟨17, 17, .ro, .all 0x0⟩]⟩,
  -- LOCK (R517)
  ⟨0xc, 1, 0x4, 1, false, false, [⟨0, 0, .w1s, .all 0x0⟩]⟩,
  -- KEYCTL (R517)
  ⟨0x10, 1, 0x4, 1, false, false, [⟨0, 0, .rwl, .all 0x0⟩]⟩,
  -- SERIAL (R517)
  ⟨0x18, 1, 0x8, 2, false, true, [⟨63, 0, .ro, .all 0x0⟩]⟩,
  -- BOOT_STAT (R517)
  ⟨0x20, 1, 0x4, 1, false, false, [⟨1, 0, .ro, .all 0x0⟩, ⟨2, 2, .ro, .all 0x0⟩, ⟨6, 3, .ro, .all 0x0⟩, ⟨10, 7, .ro, .all 0x0⟩, ⟨14, 11, .ro, .all 0x0⟩, ⟨15, 15, .ro, .all 0x0⟩]⟩,
  -- HLOAD_CTL (R517)
  ⟨0x24, 1, 0x4, 1, false, false, [⟨0, 0, .sc, .all 0x0⟩]⟩,
  -- KEYHASH_STAT (R517)
  ⟨0x28, 1, 0x4, 1, false, true, [⟨3, 0, .ro, .all 0x0⟩, ⟨7, 4, .ro, .all 0x0⟩, ⟨11, 8, .ro, .all 0x0⟩, ⟨13, 12, .ro, .all 0x0⟩]⟩,
  -- FUSE_STAGE (R517)
  ⟨0x40, 12, 0x4, 1, false, false, [⟨31, 0, .wo, .all 0x0⟩]⟩,
  -- FUSE_CTL (R517)
  ⟨0x70, 1, 0x4, 1, false, false, [⟨2, 0, .rw, .all 0x0⟩, ⟨4, 3, .rw, .all 0x0⟩, ⟨5, 5, .sc, .all 0x0⟩, ⟨6, 6, .ro, .all 0x0⟩]⟩,
  -- ARB (R517)
  ⟨0x74, 1, 0x4, 1, false, false, [⟨6, 0, .rw, .all 0x0⟩, ⟨14, 8, .ro, .all 0x0⟩, ⟨15, 15, .sc, .all 0x0⟩, ⟨16, 16, .ro, .all 0x0⟩]⟩,
  -- VER_SRC (R517)
  ⟨0x80, 1, 0x4, 1, true, false, [⟨24, 0, .rw, .all 0x0⟩]⟩,
  -- VER_CTL (R517)
  ⟨0x84, 1, 0x4, 1, true, false, [⟨0, 0, .sc, .all 0x0⟩, ⟨1, 1, .ro, .all 0x0⟩, ⟨7, 4, .ro, .all 0x0⟩]⟩]
/-- SEC, 20_boot_security.md:R517. -/
def regsSEC1 : List RDesc := [
  -- MEAS_IN (R517)
  ⟨0x100, 12, 0x4, 1, false, false, [⟨31, 0, .wo, .all 0x0⟩]⟩,
  -- MEAS_CTL (R517)
  ⟨0x130, 1, 0x4, 1, false, false, [⟨2, 0, .rw, .all 0x0⟩, ⟨3, 3, .sc, .all 0x0⟩]⟩,
  -- MEAS (R517)
  ⟨0x140, 96, 0x4, 1, false, true, [⟨31, 0, .ro, .all 0x0⟩]⟩,
  -- QUOTE_NONCE (R517)
  ⟨0x300, 12, 0x4, 1, true, false, [⟨31, 0, .wo, .all 0x0⟩]⟩,
  -- QUOTE_DST (R517)
  ⟨0x330, 1, 0x4, 1, true, false, [⟨24, 0, .rw, .all 0x0⟩]⟩,
  -- QUOTE_CTL (R517)
  ⟨0x334, 1, 0x4, 1, true, false, [⟨0, 0, .sc, .all 0x0⟩, ⟨1, 1, .ro, .all 0x0⟩, ⟨3, 2, .ro, .all 0x0⟩]⟩,
  -- DBG_CHAL (R517)
  ⟨0x400, 8, 0x4, 1, false, false, [⟨31, 0, .ro, .all 0x0⟩]⟩,
  -- DBG_RESP (R517)
  ⟨0x420, 49, 0x4, 1, false, false, [⟨31, 0, .wo, .all 0x0⟩]⟩,
  -- DBG_CTL (R517)
  ⟨0x4e8, 1, 0x4, 1, false, false, [⟨0, 0, .sc, .all 0x0⟩, ⟨1, 1, .sc, .all 0x0⟩, ⟨2, 2, .ro, .all 0x0⟩, ⟨4, 3, .ro, .all 0x0⟩, ⟨5, 5, .ro, .all 0x0⟩]⟩,
  -- RST (R517)
  ⟨0x500, 1, 0x4, 1, false, false, [⟨7, 0, .wo, .all 0x0⟩, ⟨8, 8, .wo, .all 0x0⟩, ⟨9, 9, .rw, .all 0x0⟩]⟩,
  -- WDT (R517)
  ⟨0x508, 1, 0x4, 1, false, false, [⟨15, 0, .rw, .all 0x3e8⟩, ⟨16, 16, .w1s, .all 0x0⟩]⟩,
  -- WDT_KICK (R517)
  ⟨0x50c, 1, 0x4, 1, false, false, [⟨31, 0, .wo, .all 0x0⟩]⟩,
  -- CERT (R517)
  ⟨0x800, 256, 0x4, 1, false, true, [⟨31, 0, .ro, .all 0x0⟩]⟩]

/-- Every block layout: base, instances, instance stride, registers. -/
def regBlocks : List BlockDesc := [
  ⟨0x0, 1, 0x100000, regsTOP0⟩,
  ⟨0x10000, 1, 0x100000, regsTIME0⟩,
  ⟨0x20000, 4, 0x100, regsPHS0⟩,
  ⟨0x100000, 4, 0x10000, regsSQ0 ++ regsSQ1⟩,
  ⟨0x100000, 1, 0x100000, regsSQA0 ++ regsSQA1⟩,
  ⟨0x200000, 3, 0x40000, regsMX0⟩,
  ⟨0x200000, 1, 0x100000, regsMXA0⟩,
  ⟨0x300000, 3, 0x40000, regsRF0⟩,
  ⟨0x340000, 1, 0x100000, regsRFB0⟩,
  ⟨0x400000, 1, 0x100000, regsPIP0 ++ regsPIP1 ++ regsPIP2⟩,
  ⟨0x500000, 2, 0x20000, regsCU0⟩,
  ⟨0x600000, 1, 0x100000, regsPRS0 ++ regsPRS1⟩,
  ⟨0x700000, 1, 0x100000, regsHTS0 ++ regsHTS1⟩,
  ⟨0x800000, 1, 0x100000, regsYCU0 ++ regsYCU1⟩,
  ⟨0x900000, 1, 0x100000, regsCIP0⟩,
  ⟨0xa00000, 1, 0x100000, regsEPT0 ++ regsEPT1 ++ regsEPT2⟩,
  ⟨0xb00000, 1, 0x100000, regsDMC0⟩,
  ⟨0xc00000, 64, 0x40, regsDMA0⟩,
  ⟨0xc01000, 1, 0x100000, regsDMAS0⟩,
  ⟨0xd00000, 1, 0x100000, regsHST0⟩,
  ⟨0xd01000, 32, 0x40, regsHSTQ0⟩,
  ⟨0xe00000, 1, 0x100000, regsFED0 ++ regsFED1⟩,
  ⟨0xe00100, 8, 0x20, regsFEDS0⟩,
  ⟨0xf00000, 1, 0x100000, regsPWR0 ++ regsPWR1⟩,
  ⟨0x1000000, 1, 0x100000, regsFLT0 ++ regsFLT1⟩,
  ⟨0x1100000, 1, 0x100000, regsACN0⟩,
  ⟨0x1200000, 1, 0x100000, regsSEC0 ++ regsSEC1⟩]

end Sys2Proof.Machine
end

