-- ==== Sys2Proof/Config.lean ====
section
/-! DEFINITION. What one CH9640 fixes (fuses, straps, board) and the free values: opaque
constants with no body, so nothing can evaluate them and every claim holds whatever they are. -/

namespace Sys2Proof.Config

/-- Installed DRAM is given by `DMC.XM_SIZE`, a function of RANKS, DENS and training (R375). -/
def granaryBytes : Nat := 0x2000000

/-- Free value: a fresh number for each draw of the model's counter (log 3). -/
opaque freeNat : Nat → Nat

/-- Free value: the DRBG's output bytes, per draw and byte index (R336, R514; log 3). -/
opaque drbgByte : Nat → Nat → Byte

/-- Free value: the fixed delay in µs from a frame's first preamble symbol to its Timestamp field on radio `n` (R214
gives it no number; log 9). -/
opaque stampDelay : Nat → Nat

/-- Free value: SHA-384 of the test key, held in ROM (R504; log 2). -/
opaque testKeyHash : Nat

/-- Free value: the 256-bit identity seed in the fuses (R506, R511; log 2). -/
opaque seed : Nat

/-- Free value: the 64-bit serial number in the fuses (R506; log 2). -/
opaque serial : Nat

/-- Free value: the fuse field `BSLOT`, 16 bits (R501, R506; log 2). -/
opaque bslot : Nat

/-- Free value: bytes of the identity certificate in the fuses (R511; log 2). -/
opaque certByte : Nat → Byte

/-- Free value: the MLD address of the access point, 48 bits (R178 names it; no register holds it, log 40). -/
opaque apMld : Nat

/-- Handle of a held receive frame (R188), by a counter of such frames; the spec gives it no value (log 39). -/
opaque frameHandle : Nat → BitVec 64

/-- Free value: the RSSI in dBm, 8 bits, that the Pip receiver measures before a TBM nanosecond (R241; log 3). -/
opaque pipRssi : Nat → Nat

/-- Free value: NOISE and BUSY of `RFn.RF_STAT`, 16 bits, of radio `n` at a TBM nanosecond (R233: measured; log 3). -/
opaque rfSense : Nat → Nat → Nat

end Sys2Proof.Config
end

