-- ==== Sys2Proof/Machine/Sources.lean ====
section
/-! DEFINITION. The 640 fault sources: which are raised at all (R549) and the class of each (the source
table of each block's chapter). -/

namespace Sys2Proof.Machine

/-- Class codes of `FLT.SRC.CLASS` (R494): 0 C, 1 U, 2 F, 3 S.  Reserved sources read 0 (R549). -/
def sourceClass (n : Nat) : Nat :=
  if n < 16 then (if n = 0 ∨ n = 7 then 1 else 0)                                   -- R135
  else if n < 32 then (if n % 4 = 3 then 1 else 0)                                  -- R135
  else if n < 64 then (if n % 8 = 0 ∨ n % 8 = 6 ∨ n = 63 then 1 else 0)             -- R167
  else if n < 160 then                                                              -- R198, R235
    (if (n - 64) % 32 ∈ [0, 1, 25, 28, 29] then 1 else 0)
  else if n < 256 then (if (n - 160) % 32 ∈ [0, 3, 5] then 1 else 0)                -- R235
  else if n < 288 then (if n ∈ [256, 259, 260, 261, 264] then 1 else 0)             -- R273
  else if n < 320 then (if (n - 288) % 16 ∈ [0, 3, 8] then 1 else 0)                -- R294
  else if n < 352 then (if n < 324 then 1 else 0)                                   -- R312
  else if n < 384 then (if n < 368 ∧ n % 4 ≠ 3 then 1 else 0)                       -- R331
  else if n < 448 then (if n % 4 = 1 then 0 else 1)                                 -- R44
  else if n < 480 then (if n < 450 then 3 else if n < 452 then 1 else 0)            -- R353
  else if n < 496 then (if n ∈ [480, 481, 484, 486, 487, 490] then 1 else 0)        -- R373
  else if n < 528 then (if n ∈ [498, 499, 503, 505] then 1 else 0)                  -- R397
  else if n < 560 then (if n ∈ [529, 530, 532] then 1 else 0)                       -- R416
  else if n < 576 then (if n ∈ [561, 563, 566] then 1 else 0)                       -- R428
  else if n < 600 then (if n ∈ [578, 587] then 1 else 0)                            -- R454
  else if n < 616 then                                                              -- R472
    (if n ∈ [601, 607] then 2 else if n ∈ [603, 605, 609] then 1 else 0)
  else if n < 632 then (if n ∈ [619, 620] then 3 else if n = 617 then 1 else 0)     -- R518
  else (if n = 637 then 2 else if n ∈ [633, 634, 636] then 1 else 0)                -- R496, R550

/-- The sources a block raises; every other number is reserved (R549). -/
def sourceRaised (n : Nat) : Bool :=
  decide (n < 8) || decide (16 ≤ n ∧ n < 32)
  || decide (32 ≤ n ∧ n < 64 ∧ (n % 8 < 7 ∨ n = 63))
  || decide (64 ≤ n ∧ n < 160 ∧ ((n - 64) % 32 < 5 ∨ (24 ≤ (n - 64) % 32 ∧ (n - 64) % 32 < 30)))
  || decide (160 ≤ n ∧ n < 256 ∧ (n - 160) % 32 < 6) || decide (n = 198 ∨ n = 199)
  || decide (256 ≤ n ∧ n < 265) || decide (288 ≤ n ∧ n < 320 ∧ (n - 288) % 16 < 9)
  || decide (320 ≤ n ∧ n < 324) || decide (329 ≤ n ∧ n < 337)
  || decide (352 ≤ n ∧ n < 368 ∧ n % 4 < 3) || decide (368 ≤ n ∧ n < 374)
  || decide (384 ≤ n ∧ n < 454) || decide (480 ≤ n ∧ n < 491) || decide (496 ≤ n ∧ n < 506)
  || decide (528 ≤ n ∧ n < 533) || decide (560 ≤ n ∧ n < 569) || decide (576 ≤ n ∧ n < 589)
  || decide (600 ≤ n ∧ n < 612) || decide (616 ≤ n ∧ n < 623) || decide (632 ≤ n ∧ n < 639)

end Sys2Proof.Machine
end

