-- ==== Sys2Proof/Machine/State.lean ====
section
/-! DEFINITION. State: everything the spec gives the block, as plain data, with the queue of waiting
commands; its reset value; the reasons a step can stop. -/

namespace Sys2Proof.Machine

/-! ## Faults and refusals -/

/-- Why the machine stops with a fault.  The spec gives every command of the table an effect, so the one
fault is the model's guard for a command that no sender can send. -/
inductive Fault where
  /-- Raised by no meaning of the table's rows on a well-formed command: a command whose operands break
  `WellFormed` (a thread number above 511, a lane above 31 ...) names hardware that does not exist.  Safe:
  the machine stops where no hardware behaviour exists. -/
  | noSuchHardware
deriving DecidableEq, Repr

/-- Why a command has no meaning. -/
inductive Refusal where
  /-- Raised only by an arm of `exec` that has no meaning yet.  Safe: nothing is claimed of it. -/
  | notModelled (mnemonic : String)
deriving DecidableEq, Repr

/-! ## Packets and egress -/

/-- One packet in the data path (R12, R69): its buffer reference, its bytes as received, and what the parser
learnt of it. -/
structure Packet where
  /-- opaque buffer reference, [47:0] of the handle (R69) -/
  ref : Nat := 0
  /-- bytes as received -/
  bytes : List Byte := []
  /-- ingress port code (R296) -/
  port : Nat := 0
  /-- start kind of the walk (R296) -/
  start : Nat := 0
  /-- source identifier: station, node, queue pair or device (R296) -/
  srcid : Nat := 0
  /-- ingress TBM in whole nanoseconds (R12) -/
  stamp : Nat := 0
  /-- on its second pass (R307) -/
  pass2 : Bool := false
  /-- META of the parse record: link and TID of an air frame -/
  info : Nat := 0
  /-- cipher status word of a frame decrypted on arrival (R30, R315) -/
  cstat : Option Nat := none
  /-- pattern matches kept for PMAT: (offset, pattern), in order (R77) -/
  hits : List (Nat × Nat) := []
  /-- matches found, saturating at 2,047 (R77) -/
  pcount : Nat := 0
  /-- the 128-byte parse record of its last pass (R309) -/
  record : List Byte := []
  /-- the packet was made by the device itself and carries a NOTICE (R256, R227) -/
  notice : Bool := false
deriving DecidableEq, Repr

/-- A packet queued to an egress (R70, R324). -/
structure EgItem where
  kind : Nat := 0
  target : Nat := 0
  tc : Nat := 0
  pkt : Packet := {}
  /-- returned to its queue by an undo, so it never counts against `SQA.QLIM` (R183) -/
  ret : Bool := false
deriving DecidableEq, Repr

/-! ## Yalvo (chapters 02, 03) -/

/-- Where an accelerator result goes: a thread's slot while its task runs, or a creation operand of a task
that waits in the matching store (R40, R315). -/
inductive Dest where
  | slot (thread task slot : Nat)
  | creation (task slot : Nat)
deriving DecidableEq, Repr

/-- One operand slot of a thread (R40). -/
inductive Slot where
  | empty
  | outstanding
  | result (v : DWord)
deriving DecidableEq, Repr

/-- One entry of a thread's store buffer (R35): space code, byte address, bytes. -/
structure StoreEnt where
  space : Nat := 0
  addr : Nat := 0
  bytes : List Byte := []
deriving DecidableEq, Repr

/-- What a thread waits for inside an instruction (R29). -/
inductive Wait where
  /-- a CM, GM or XM load: destination, space, address, size, sign extension, the thread's own stored bytes -/
  | load (gd space addr size : Nat) (sext : Bool) (own : List (Nat × Byte))
  /-- a store into a full buffer -/
  | store (e : StoreEnt)
  /-- FENCE.D -/
  | fenceD
  /-- WAITOP: destination and slot -/
  | operand (gd slot : Nat)
deriving DecidableEq, Repr

/-- The state of a thread as `YCU.THR_STATE` reads it (R52). -/
inductive ThrState where
  | idle
  | run
  | wait (w : Wait)
  | halt
  | off
deriving DecidableEq, Repr

/-- One task (R313): what it carries at creation. -/
structure Task where
  /-- creation order (R314) -/
  id : Nat := 0
  tag : Nat := 0
  atomic : Bool := false
  ordered : Bool := false
  cls : Nat := 0
  region : Nat := 0
  pkt : Option Packet := none
  /-- slots present, as delivered in g6 [3:0] -/
  mask : Nat := 0
  /-- creation operands of slots 1, 2, 3 -/
  op1 : Nat := 0
  op2 : Nat := 0
  op3 : Nat := 0
  /-- slot 1 or slot 2 still awaited (R315) -/
  await1 : Bool := false
  await2 : Bool := false
  /-- EPT entry pinned by the creation operand (its table index), if any -/
  pin : Option Nat := none
  /-- TBM ns at which the slice accepted the creation (R30, g7 without a packet) -/
  made : Nat := 0
  /-- TBM ns at which it joined its ready list (R321) -/
  since : Nat := 0
  /-- source 354 + 4r already raised for it (R321) -/
  starved : Bool := false
deriving DecidableEq, Repr

/-- One thread of a unit (R30, R40, R42). -/
structure Thread where
  st : ThrState := .off
  pc : Nat := 0
  task : Option Task := none
  /-- the packet the task holds (R69) -/
  held : Option Packet := none
  /-- the creation pin still held (R83) -/
  cpin : Option Nat := none
  /-- entries pinned by LKUP (R75) -/
  pins : List Nat := []
  ordr : Bool := false
  instrs : Nat := 0
  slots : List Slot := [.empty, .empty, .empty, .empty]
  /-- store buffer, oldest first (R35) -/
  sbuf : List StoreEnt := []
deriving DecidableEq, Repr

/-- One line of a unit's data cache: space, 64-byte line number, bytes (R32 table). -/
structure CacheLine where
  unit : Nat := 0
  space : Nat := 0
  line : Nat := 0
  bytes : List Byte := []
deriving DecidableEq, Repr

/-- A program load in progress (R53 - R56). -/
structure Load where
  barrier : Bool := false
  src : Nat := 0
  /-- target units not yet finished -/
  units : List Nat := []
  /-- sequencers not yet finished -/
  seqs : List Nat := []
  /-- ROLL round 0-3 -/
  round : Nat := 0
  /-- units that take no tasks: step 1 done, still draining -/
  draining : List Nat := []
  /-- units and sequencers (64 + n) whose copy runs -/
  copying : List Nat := []
  /-- BARRIER: drained, waiting for the others -/
  ready : List Nat := []
  /-- BARRIER: copied, waiting for step 4 in all -/
  copied : List Nat := []
  /-- drain timeout in us; 0 none -/
  drain : Nat := 0
  /-- targets left on their old image -/
  skipped : Nat := 0
  /-- TBM ns at which draining times out; 0 none -/
  deadline : Nat := 0
  /-- a Granary read failed in some copy -/
  failed : Bool := false
  /-- the load waits for a mode transition to end (R56) -/
  waiting : Bool := false
deriving DecidableEq, Repr

/-- An accelerator result on its way to its destination (R40). -/
structure Arrive where
  dest : Dest
  value : DWord
  /-- entry pinned with it -/
  pin : Option Nat := none
deriving DecidableEq, Repr

/-- A lookup submitted to the endpoint engine (R73, R356). -/
structure Lookup where
  dest : Dest
  table : Nat := 0
  key : List Byte := []
deriving DecidableEq, Repr

/-- State of the 64 units. -/
structure Yalvo where
  threads : Tab Thread := []
  /-- the thread of each unit that issued last, plus one; 0 none (R28) -/
  last : Tab Nat := []
  /-- g registers, key 32 x thread + register (R30) -/
  g : Tab DWord := []
  /-- packet windows, key 512 x thread + offset -/
  pw : Mem := []
  /-- LM, key 65,536 x unit + address -/
  lm : Mem := []
  /-- CM, key 2^20 x cluster + address -/
  cm : Mem := []
  /-- instruction memories, key 65,536 x (unit, or 64 + sequencer) + address -/
  im : Mem := []
  dcache : List CacheLine := []
  load : Option Load := none
  /-- accelerator results in flight -/
  arriving : List Arrive := []
deriving DecidableEq, Repr

/-! ## Task scheduler (chapter 11) -/

/-- The packet and egress word that ORDR has passed to a place. -/
structure PlaceOut where
  item : EgItem
deriving DecidableEq, Repr

/-- One place of a reorder buffer (R322). -/
structure Place where
  /-- creation order of the task that holds it -/
  task : Nat := 0
  tag : Nat := 0
  region : Nat := 0
  cluster : Nat := 0
  /-- its task has issued ORDR or ended -/
  done : Bool := false
  out : Option EgItem := none
  /-- waits in the slice for room in the buffer (R323) -/
  parked : Bool := false
deriving DecidableEq, Repr

/-- An affinity record (R319): the unit that last ran the tag. -/
structure Affin where
  tag : Nat := 0
  unit : Nat := 64
deriving DecidableEq, Repr

/-- State of the four slices. -/
structure Hts where
  /-- next creation order number (R314) -/
  nextId : Nat := 1
  /-- undispatched tasks of all slices, in creation order -/
  tasks : List Task := []
  /-- places of all reorder buffers, in rank order -/
  places : List Place := []
  /-- atomic locks: (cluster, tag, thread) (R320) -/
  locks : List (Nat × Nat × Nat) := []
  /-- affinity records, key 1,024 x cluster + tag[9:0] -/
  affin : Tab Affin := []
  /-- pending CLMAP words, if any (R318) -/
  clmapPend : Option (List (Nat × Nat)) := none
  /-- queued egress packets of kinds 0-5, in queue order (R324) -/
  egress : List EgItem := []
deriving DecidableEq, Repr

/-! ## Modes, power and wake (chapters 01, 18) -/

/-- Why a request sits in the pending slot, and which one it is (R20, R23). -/
structure ModeReq where
  target : Nat := 0
  /-- it is the latest request filed by GO, so STATUS follows it (R23) -/
  latest : Bool := true
deriving DecidableEq, Repr

/-- An entry into a lower mode in progress (R462). -/
structure Entry where
  /-- mode left -/
  source : Nat := 0
  target : Nat := 0
  /-- step being carried out, 1-4 -/
  step : Nat := 1
  /-- requested by GO and still the latest (R23) -/
  latest : Bool := true
  /-- TBM ns at which ENTRY_TO ends step 2; 0 outside step 2 -/
  deadline : Nat := 0
  /-- an enabled wake event waits for the next abort point (R463) -/
  wakeHeld : Bool := false
  /-- the abort point the last finished step reached; 0 none (R463) -/
  point : Nat := 0
  /-- TBM ns at which the voltage step of step 4 times out; 0 when none runs (R469) -/
  avs : Nat := 0
deriving DecidableEq, Repr

/-- A wake in progress (R466, R467). -/
structure Wake where
  source : Nat := 0
  target : Nat := 0
  /-- stage 1 regulator, 2 oscillator, 3 memory, 4 logic -/
  stage : Nat := 1
  retry : Bool := false
  /-- TBM ns at its start, for WAKE_LOG.TIME -/
  start : Nat := 0
  /-- TBM ns at which the present stage, or its retry, began -/
  at' : Nat := 0
  latest : Bool := false
  /-- the boot's power-up of step 6 of R500 -/
  boot : Bool := false
  /-- in the memory stage, once it has timed out: the Granary banks (0-31), unit memories (32 + unit) and sequencer
  memories (96 + n) being retried -/
  failing : List Nat := []
deriving DecidableEq, Repr

/-- A trim transition in progress (R460). -/
structure TrimMove where
  target : Nat := 0
  /-- the AVS step: TBM ns at which its Status reads time out; 0 native or over -/
  deadline : Nat := 0
  /-- the voltage step has failed once and is being retried (R460) -/
  retry : Bool := false
  /-- it has failed -/
  failed : Bool := false
deriving DecidableEq, Repr

/-- Mode, power and reset state that is not a register word. -/
structure Ctl where
  /-- the pending slot (R20) -/
  slot : Option ModeReq := none
  /-- the request that started the running transition is the latest filed -/
  entry : Option Entry := none
  wake : Option Wake := none
  trim : Option TrimMove := none
  /-- TRIM was written while a transition ran -/
  trimLate : Bool := false
  /-- PWR.WAKE_AT still to fire (R471) -/
  alarm : Bool := false
  /-- writes to the calibration trim windows (R9) -/
  trimWrites : Nat := 0
  /-- step of the boot being carried out, 1-7 (R500); none once it has ended -/
  boot : Option Nat := some 1
  /-- cause code of the last reset (R498) -/
  cause : Nat := 0
  /-- front ends enabled: 0-2 Wi-Fi A-C, 3 Pip, 4 CU0, 5 CU1 (R455) -/
  fronts : List Nat := []
deriving DecidableEq, Repr

/-! ## Faults (chapter 19) -/

/-- What the collector keeps of one pending source beyond its `FLT.SRC` word. -/
structure Pending where
  /-- order in which it became pending (R477) -/
  order : Nat := 0
  /-- merged into this source (R477), or none: it has a level -/
  merged : Option Nat := none
  /-- TBM ns at which its grace timer expires (R475); 0 when none runs -/
  deadline : Nat := 0
deriving DecidableEq, Repr

/-- State of the fault collector. -/
structure Flt where
  pend : Tab (Option Pending) := []
  /-- next order number -/
  nextOrder : Nat := 1
  /-- sources whose first L2 of this boot is recorded (R489) -/
  recorded : List Nat := []
  /-- TBM ns of the last raise of each source limited to one per second, plus one; 0 never -/
  last : Tab Nat := []
  /-- TBM ns, source and TOP.MODE byte at the L3 that stopped the device (R484) -/
  l3 : Option (Nat × Nat × Nat) := none
  /-- deadline of the running dump (R485), and whether it found the region occupied -/
  dump : Option Nat := none
deriving DecidableEq, Repr

/-- State of Acorn (R487 - R492). -/
structure Acn where
  /-- the 256 KiB of MRAM, by Acorn offset -/
  mem : Mem := []
  rseq : Nat := 0
  /-- the counter block as it runs (R490), byte offset to value of that field -/
  cnt : Tab Nat := []
  /-- copy of the newest HOLD record (R490) -/
  hold : List Byte := []
  /-- TBM ns up to which the time counters have been kept -/
  since : Nat := 0
  /-- outcome of the command's next Acorn write: 0 good, 1 good on retry, 2 failed twice (R489) -/
  bad : Nat := 0
  /-- TBM ns at which PERIOD next commits the counter block (R490) -/
  due : Nat := 0
  /-- SVN of the running image (R488) -/
  svn : Nat := 0
deriving DecidableEq, Repr

/-! ## Boot, fuses and security (chapter 20) -/

/-- A fuse slot for a key hash (R506). -/
structure KeyHash where
  /-- the 384 bits -/
  hash : Nat := 0
  valid : Bool := false
deriving DecidableEq, Repr

/-- The fuses that change in the field (R506); those of a new part are all unburned (log 2). -/
structure Fuse where
  /-- ordering code of the part: 0 CH9640-FI, 1 CH9640-FE (R1, R546) -/
  code : Fin 2 := 0
  /-- 0 TEST, 1 DEVELOP, 2 DEPLOYED, 3 RMA -/
  lifecycle : Nat := 0
  slots : List KeyHash := [{}, {}, {}, {}]
  revoked : Nat := 0
  dbgKey : KeyHash := {}
  /-- burned anti-rollback fuses -/
  floor : Nat := 0
  /-- seed kill -/
  kill : Bool := false
deriving DecidableEq, Repr

/-- State of SEC and of TOP's temperature logic that is not a register. -/
structure Sec where
  /-- identity private key, derived at step 3 of a boot (R511) -/
  key : Option Nat := none
  /-- an image has been checked and runs or is about to run -/
  image : Bool := false
  /-- private SRAM of the management cores, and the image's entry (R503) -/
  sram : Mem := []
  entry : Nat := 0
  /-- SHA-384 of its signed bytes, until step 5 writes MEAS0 (R512) -/
  signed : Nat := 0
  /-- a challenge waits for its SUBMIT (R514) -/
  chal : Bool := false
  /-- verifications in progress: requester and GM address (R505) -/
  vers : List (Nat × Nat) := []
  /-- quotes in progress, in window order: requester, nonce bytes, destination (R513) -/
  quotes : List (Nat × List Byte × Nat) := []
  /-- TARGET of an anti-rollback burn in progress (R507) -/
  arb : Option Nat := none
  /-- watchdog: TBM ns since which the count runs, and what it counted before (R515) -/
  wdtAt : Nat := 0
  wdtUsed : Nat := 0
  /-- a conversion has been made since reset (R545) -/
  conv : Bool := false
  /-- source 636 has been raised and not armed again (R550) -/
  hot : Bool := false
  /-- samples in a row at or above 125 °C, and source 637 raised and not armed again (R537) -/
  trip : Nat := 0
  tripped : Bool := false
deriving DecidableEq, Repr

/-! ## Time bases and phase domains (chapter 04) -/

/-- One egress timestamp entry (R111, R133). -/
structure EgTs where
  seqid : Nat := 0
  msgtype : Nat := 0
  domain : Nat := 0
  ns : Nat := 0
deriving DecidableEq, Repr

/-- Time bases that are not register words. -/
structure Time where
  /-- TBM in units of 2^-32 ns (R101) -/
  tbm : Nat := 0
  /-- TBM runs on the fallback oscillator: `TIME.CLK_STAT.FB` (R553) -/
  fb : Bool := false
  /-- TBN at its last re-anchoring, and TBM then, both in 2^-32 ns (R105) -/
  tbnBase : Nat := 0
  tbnAnchor : Nat := 0
  /-- TSF bases in TBM ns: TSF = (TBM - base) / 1,000 (R112) -/
  tsfBase : List Int := [0, 0, 0]
  /-- egress timestamp queues of CU0 and CU1 (R111) -/
  egts : List (List EgTs) := [[], []]
  /-- level of PPS_OUT, and the TBM ns at which it falls (R131) -/
  ppsOut : Bool := false
  ppsFall : Nat := 0
  /-- TBM ns of the last PPS_IN edge or of IN_EN, and source 3 raised since (R132) -/
  ppsLast : Nat := 0
  ppsLost : Bool := false
  /-- steps and resets of TBN so far (R441 compares it across an exchange) -/
  tbnSteps : Nat := 0
deriving DecidableEq, Repr

/-- One phase domain (R119 - R128). -/
structure PhaseDom where
  refT : Nat := 0
  refP : Nat := 0
  w : Nat := 0
  tLast : Nat := 0
  tFirst : Nat := 0
  pFirst : Nat := 0
  ares : Nat := 0
  obs : Nat := 0
  /-- consecutive observations within LOCK_TOL -/
  good : Nat := 0
  /-- input count since index, cycle counter excluded (R119) -/
  n : Int := 0
  /-- counts behind the furthest count (R123) -/
  back : Nat := 0
  /-- no count has come since enable (R120) -/
  fresh : Bool := true
  /-- n stands for counts since an index, or since the first count with INDEX_REQ at 0 (R120) -/
  known : Bool := false
  /-- levels of A and B at the last sample -/
  a : Bool := false
  b : Bool := false
  /-- stamps of the last accepted rising and falling mains edges, plus one; 0 none -/
  rise : Nat := 0
  fall : Nat := 0
  /-- the domain has locked since enable (R121) -/
  locked1 : Bool := false
  /-- phase of the last observation, 32.16 (R123) -/
  lastP : Nat := 0
  /-- reported phase word (R123) -/
  rep : Nat := 0
  /-- TBM ns of entry to ACQ, and source 19 + 4d raised since -/
  acqAt : Nat := 0
  acqOut : Bool := false
deriving DecidableEq, Repr

/-! ## Sequencers (chapters 02, 03, 05) -/

/-- What holds a sequencer inside an instruction (R87). -/
inductive SeqWait where
  /-- WAITPH: result register, target word, guard, domain -/
  | phase (sd target guard pd : Nat)
  /-- WAITT: result register, base, target -/
  | time (sd base target : Nat)
  /-- LAUNCH: result register, slot, kind, start, length, and the window's end in TBM ns as it stood at issue -/
  | launch (sd slot kind sa sb issueEnd : Nat)
  /-- LISTEN: result register, window [wstart, wend) in TBM ns, channel, rate, repetition -/
  | listen (sd wstart wend ch rate rep : Nat)
deriving DecidableEq, Repr

/-- A halt ordered for a sequencer: CAUSE, EXC and the outcome its husks are undone with (R47, R86, R165). -/
structure HaltReq where
  cause : Nat
  exc : Nat
  outcome : Nat
deriving DecidableEq, Repr

/-- One sequencer. -/
structure Seqr where
  pc : Nat := 0
  wait : Option SeqWait := none
  halting : Option HaltReq := none
deriving DecidableEq, Repr

/-! ## Cipher engine (chapter 12) -/

/-- One key slot (R338); its generation is `gen` plus the store's `genBase`, modulo 16. -/
structure KeySlot where
  loaded : Bool := false
  /-- 0 AES-128, 1 AES-256 -/
  type : Nat := 0
  use : Nat := 0
  gen : Nat := 0
  /-- next packet number to reserve -/
  pn : Nat := 0
  /-- raw key, byte 0 lowest -/
  key : Nat := 0
deriving DecidableEq, Repr

/-- Who submitted a job and where its result goes (R332, R345). -/
inductive JobSrc where
  /-- CIPH of a thread in a region -/
  | program (dest : Dest) (region : Nat)
  /-- a received MPDU: its place in the scoreboard -/
  | rx (radio sta tid sn : Nat)
  /-- an MPDU of a husk: sequencer, build order, station, TID, sequence number -/
  | husk (seq order sta tid sn : Nat)
deriving DecidableEq, Repr

/-- One cipher job (R344). -/
structure Job where
  src : JobSrc
  op : Nat := 0
  slot : Nat := 0
  /-- tag length in bytes -/
  tlen : Nat := 0
  srcGm : Bool := false
  dstGm : Bool := false
  aadLen : Nat := 0
  len : Nat := 0
  srcA : Nat := 0
  dstA : Nat := 0
  /-- an engine's job carries its bytes: nonce, AAD, text and tag, as in a source buffer -/
  data : List Byte := []
  /-- lane that runs it -/
  lane : Option Nat := none
  /-- copied at job start (R341) -/
  type : Nat := 0
  gen : Nat := 0
  key : Nat := 0
deriving DecidableEq, Repr

/-- A key command being carried out (R339, R340). -/
structure KeyCmd where
  who : Nat := 0
  erase : Bool := false
  slot : Nat := 0
  type : Nat := 0
  use : Nat := 0
  key : Nat := 0
  pn : Nat := 0
deriving DecidableEq, Repr

/-- One cipher lane. -/
structure Lane where
  /-- engine jobs taken in a row while its program queue was not empty (R333) -/
  burst : Nat := 0
  /-- one reseed missed; it takes no jobs after a second (R336) -/
  late : Bool := false
  stopped : Bool := false
deriving DecidableEq, Repr

/-- State of the cipher engine. -/
structure Cip where
  keys : Tab KeySlot := []
  genBase : Nat := 0
  cmds : List KeyCmd := []
  /-- jobs queued or running, oldest first -/
  jobs : List Job := []
  lanes : Tab Lane := []
  /-- sources whose acknowledgement ends the alarm (R349) -/
  alarm : List Nat := []
deriving DecidableEq, Repr


/-! ## Air: schedule, husks, receive scoreboard, MACs (chapters 05 - 08) -/

/-- One MPDU taken from a station queue or in a retry set (R169, R174, R176). -/
structure Mpdu where
  item : EgItem := {}
  sta : Nat := 0
  tid : Nat := 0
  sn : Nat := 0
  pn : Nat := 0
  /-- key slot, when protected, and the generation its job carried -/
  slot : Option Nat := none
  gen : Nat := 0
  /-- its block of the ciphertext area: XM address and bytes (R179) -/
  cta : Nat := 0
  ct : Nat := 0
  /-- transmissions so far -/
  tries : Nat := 0
  /-- taken new by the husk that holds it -/
  isNew : Bool := true
  /-- its cipher job has ended, or it needs none -/
  done : Bool := true
  /-- its key slot was erased after its number was reserved (R195) -/
  dead : Bool := false
deriving DecidableEq, Repr

/-- User Info of a trigger frame (R158): the station, its resource unit as 26-tone positions, MCS, streams less one, and
target receive power in dBm. -/
structure UserInfo where
  sta : Nat := 0
  place : List Nat := []
  mcs : Nat := 0
  nss : Nat := 0
  rssi : Int := 0
deriving DecidableEq, Repr

/-- A trigger frame (R93, R158): its Trigger Type, the uplink PPDU length solicited in µs, and its users. -/
structure Trigger where
  type : Nat := 0
  len : Nat := 0
  users : List UserInfo := []
deriving DecidableEq, Repr

/-- One station of a husk, with the values it is served with (R153). -/
structure HuskSta where
  sta : Nat := 0
  bin : Nat := 0
  mcs : Nat := 0
  nss : Nat := 0
  /-- RU class wanted -/
  ru : Nat := 0
  pwr : Nat := 0
  steer : Nat := 0
  /-- its resource unit, as 26-tone positions from the lowest frequency (R157); none outside kinds 1 and 2 -/
  place : List Nat := []
  /-- picked under policy 3, so that its deficit is charged (R150) -/
  drr : Bool := false
  /-- taken for a PS-Poll, and the bits BUILD set in its last MPDU: More Data, EOSP (R205) -/
  poll : Bool := false
  more : Bool := false
  eosp : Bool := false
  /-- an initial control frame comes before its data (R210) -/
  icf : Bool := false
  /-- after commit: its acknowledgement outcome is awaited -/
  await : Bool := false
deriving DecidableEq, Repr

/-- The Pip frame of a husk (R267) or of an automatic answer (R260). -/
structure PipTx where
  node : Nat := 0
  type : Nat := 1
  body : List Byte := []
  ctr : Nat := 0
  slot : Nat := 0
  gen : Nat := 0
  /-- event: anchor and counter; 0 for MESH -/
  anchor : Nat := 0
  ec : Nat := 0
  ch : Nat := 0
  /-- the MPDU as it goes on air (R244) -/
  mpdu : List Byte := []
  /-- the packet it came from, and whether it came from the pending slot -/
  item : Option EgItem := none
  pend : Bool := false
deriving DecidableEq, Repr

/-- A husk (R168): 1 ASSEMBLING, 2 READY, 3 COMMITTED. -/
structure Husk where
  st : Nat := 1
  /-- build order (R172) -/
  order : Nat := 0
  kind : Nat := 0
  stas : List HuskSta := []
  mpdus : List Mpdu := []
  trig : Option Trigger := none
  pip : Option PipTx := none
  commitNs : Nat := 0
  /-- its sequencer halted after the commit, which released its grants (R146) -/
  freed : Bool := false
deriving DecidableEq, Repr

/-- Schedule state of one sequencer (R86, R90, R136 - R149). -/
structure SqAir where
  window : List Nat := []
  /-- policy of the PICK that formed it (R150) -/
  policy : Nat := 0
  /-- events of the window set's Pip nodes: node, anchor, event counter (R266) -/
  events : List (Nat × Nat × Nat) := []
  /-- bins recorded by BIN: (station, bin) -/
  bins : List (Nat × Nat) := []
  rotor : Nat := 0
  rotorList : Nat := 0
  /-- distinct stations granted this cycle -/
  granted : List Nat := []
  budgetHit : Bool := false
  capHit : Bool := false
  /-- the domain of MODE 1 was not LOCKED at the last boundary: the next one falls by PERIOD (R136) -/
  unlk : Bool := false
  husk0 : Option Husk := none
  husk1 : Option Husk := none
  nextOrder : Nat := 0
  /-- source 36 + 8n raised for this spell of VALID 0 (R156) -/
  noStore : Bool := false
  /-- stations in a committed husk during their present TWT service period (R160) -/
  served : List Nat := []
deriving DecidableEq, Repr

/-- A station's sequence space per TID (R174). -/
structure SnSpace where
  next : Nat := 0
  oldest : Nat := 0
  retry : List Mpdu := []
  /-- a dropped number awaits a BlockAckReq with the new start (R187) -/
  bar : Bool := false
deriving DecidableEq, Repr

/-- A beacon armed (R97, R214, R258): BSSID, key slot and its generation when protected. -/
structure Arm where
  b : Nat := 0
  slot : Option Nat := none
  gen : Nat := 0
  /-- packet number or counter reserved for it -/
  pn : Nat := 0
  /-- the template as read at arming, and TYPE and key of the slot then (R214) -/
  tpl : List Byte := []
  type : Nat := 0
  key : Nat := 0
deriving DecidableEq, Repr

/-- A steering entry (R217): group, time of writing, precoding as the feedback gave it. -/
structure Steer where
  group : Nat := 0
  ns : Nat := 0
  pre : List Byte := []
deriving DecidableEq, Repr

/-- A radar event (R228, R234). -/
structure Radar where
  subch : Nat := 0
  pulses : Nat := 0
  width : Nat := 0
  rssi : Nat := 0
  chirp : Bool := false
  ns : Nat := 0
deriving DecidableEq, Repr

/-- A channel switch in progress (R221), with the setting its GO named. -/
structure Csw where
  /-- the count a beacon announces -/
  left : Nat := 0
  /-- the first target beacon time of BSSID 0 since GO has come, so that the next ones count down -/
  began : Bool := false
  prim : Nat := 0
  bw : Nat := 0
  second : Nat := 0
  punct : Nat := 0
  quiet : Bool := false
  /-- the switch instant has come and waits for an exchange to end -/
  due : Bool := false
  /-- step 4 runs -/
  tuning : Bool := false
deriving DecidableEq, Repr

/-- The fields the MAC filled into the last beacon it sent (R207, R214): an output of the model. -/
structure Beacon where
  b : Nat := 0
  /-- Timestamp -/
  tsf : Nat := 0
  dtim : Nat := 0
  /-- group traffic bit, and the AIDs whose bit is set -/
  group : Bool := false
  aids : List Nat := []
  /-- announced count and switch mode while a switch is pending -/
  csa : Option (Nat × Bool) := none
  /-- TSF offsets reported for the other radios, in 2 µs units -/
  offsets : List Int := []
  /-- packet number of the Management MIC, when protected -/
  pn : Option Nat := none
  /-- the frame's bytes: the template with its TIM, Channel Switch Announcement, Timestamp and Management MIC elements -/
  frame : List Byte := []
deriving DecidableEq, Repr

/-- One MPDU as it went on air (R169 step 5, R178, R205): its addresses, numbers and header bits, and the bytes after the
header (an output of the model). -/
structure AirMpdu where
  tid : Nat := 0
  sn : Nat := 0
  pn : Option Nat := none
  a1 : Nat := 0
  a2 : Nat := 0
  a3 : Nat := 0
  retry : Bool := false
  more : Bool := false
  eosp : Bool := false
  body : List Byte := []
deriving DecidableEq, Repr

/-- What one station of a PPDU was sent (R151, R153, R157, R187): the values it was served with, transmit power in half
dBm, a BlockAckReq per TID with its starting number, and its MPDUs in order. -/
structure PpduUser where
  sta : Nat := 0
  mcs : Nat := 0
  nss : Nat := 0
  pwr : Nat := 0
  steer : Nat := 0
  place : List Nat := []
  bars : List (Nat × Nat) := []
  mpdus : List AirMpdu := []
deriving DecidableEq, Repr

/-- The PPDU of a committed husk (an output of the model): the initial control frame's stations with their padding codes
(R210), whether an NDPA and an NDP lead (R217), the users, and the trigger frame. -/
structure Ppdu where
  icf : List (Nat × Nat) := []
  ndp : Bool := false
  users : List PpduUser := []
  trig : Option Trigger := none
deriving DecidableEq, Repr

/-- The response a MAC last sent (R190, R191): a block acknowledgement of the entry as it stood (an output of the
model). -/
structure Response where
  sta : Nat := 0
  tid : Nat := 0
  start : Nat := 0
  size : Nat := 0
  bitmap : Nat := 0
deriving DecidableEq, Repr

/-- State of one Wi-Fi radio that is not a register. -/
structure Radio where
  armed : List Arm := []
  /-- open beacon windows: BSSID and its end in TSF µs (R212) -/
  bwin : List (Nat × Nat) := []
  /-- DTIM count of each BSSID at its last target beacon time -/
  dtim : Tab Nat := []
  /-- TSF µs of the last target beacon time taken, plus one -/
  tbtt : Tab Nat := []
  beacon : Option Beacon := none
  /-- BSSIDs whose group endpoint is awake after a DTIM beacon (R206) -/
  grpOn : List Nat := []
  csw : Option Csw := none
  steer : Tab Steer := []
  radar : List Radar := []
  /-- calibration failed when the radio was enabled (R235) -/
  calFail : Bool := false
  /-- the present LAUNCH has already counted a hold (R209) -/
  heldOff : Bool := false
  /-- the synthesiser lost lock, and lock or acknowledgement is still to come (R230) -/
  unlocked : Bool := false
  /-- stations owed a QoS Null with EOSP (R205) -/
  eosp : List Nat := []
  /-- MPDUs delivered in each station's open service period (R205) -/
  spent : Tab Nat := []
  ppdu : Option Ppdu := none
  resp : Option Response := none
  /-- TBM ns up to which the detector is blanked after a transmission, radio B (R228) -/
  blank : Nat := 0
deriving DecidableEq, Repr

/-- Backhaul (R224 - R227). -/
structure Backhaul where
  /-- Timestamp of the last accepted beacon, and the index of the next window, 1 - 3 -/
  anchor : Option Nat := none
  k : Nat := 1
  /-- a candidate search runs; the candidates tried in this pass -/
  search : Bool := false
  tried : Nat := 0
  /-- TBM ns at which listening for the present candidate ends -/
  listenEnd : Nat := 0
  /-- a parent-lost report waits for a fabric link -/
  report : Bool := false
deriving DecidableEq, Repr

/-- A received MPDU on its way to release (R190, R193). -/
structure RxFrame where
  radio : Nat := 0
  sta : Nat := 0
  tid : Nat := 0
  sn : Nat := 0
  pn : Nat := 0
  /-- packet number checked against RPN: the MPDU was protected -/
  prot : Bool := false
  pkt : Packet := {}
  /-- 0 with the cipher, 1 held in its reorder slot, 2 failed or dropped: its place counts as filled -/
  st : Nat := 0
  /-- TBM ns at which it was stored in its reorder slot (R188) -/
  stored : Nat := 0
deriving DecidableEq, Repr

/-- What holds the Pip radio in an exchange (R242, R255, R269).  `slot` is the husk whose exchange it belongs to, or 2. -/
inductive PipEx where
  | none
  /-- an automatic answer to a node is due at TBM ns `time`: the frame R260 chooses, or an ACK -/
  | answer (node time : Nat) (choose : Bool) (slot : Nat)
  /-- an answer of a node must qualify in [lo, hi) -/
  | await (node slot lo hi : Nat)
deriving DecidableEq, Repr

/-- Pip state that is not a register or a node record. -/
structure PipSt where
  /-- frames pending acknowledgement: node and packet -/
  pending : List (Nat × EgItem) := []
  /-- seen cache, oldest first: address, counter, TBM ns (R262) -/
  seen : List (Nat × Nat × Nat) := []
  armed : Option Arm := none
  /-- MPDU of the armed beacon (R258), and the MPDU the radio last sent (an output of the model) -/
  beacon : List Byte := []
  sent : List Byte := []
  /-- TBM ns of the last target beacon time taken, plus one -/
  tbtt : Nat := 0
  /-- end of the open beacon window in TBM ns -/
  bwin : Option Nat := none
  ex : PipEx := .none
  /-- gain step in force from TBM ns `gainSince` on, and the step before it (R98, R240) -/
  gain : Nat := 0
  gainSince : Nat := 0
  gainWas : Nat := 0
  /-- line bits and power of the frame last sent, the power in dBm x 2 (R238, R241): an output of the model -/
  line : List Bool := []
  power : Int := 0
  /-- an antenna fault turned the transmitter off (R273) -/
  txBad : Bool := false
  /-- deficits of the nodes under policy 3 (R265) -/
  deficit : Tab Int := []
  calFail : Bool := false
deriving DecidableEq, Repr

/-- Air state. -/
structure Air where
  sq : List SqAir := [{}, {}, {}, {}]
  radio : List Radio := [{}, {}, {}]
  /-- sequence spaces, key 8 x station + TID; group endpoints: 2^20 + 16 x radio + BSSID -/
  sn : Tab SnSpace := []
  /-- bytes of the last uplink buffer report, key 8 x station + TID; none before the first -/
  bsr : Tab (Option Nat) := []
  /-- EMLSR stations whose other links stay held after an exchange (R210) -/
  emlHold : List Nat := []
  rx : List RxFrame := []
  bh : Backhaul := {}
  pip : PipSt := {}
deriving DecidableEq, Repr


/-! ## Endpoint engine (chapter 13) -/

/-- The device's own copy of the device-owned fields of an endpoint entry (R354); KIND 0 is a free entry. -/
structure EptEnt where
  kind : Nat := 0
  t1 : Nat := 0
  t2 : Nat := 0
  k2 : Bool := false
  cepoch : Nat := 0
  last : Nat := 0
  hits : Nat := 0
  key1 : List Byte := []
  key2 : List Byte := []
deriving DecidableEq, Repr

/-- A cached entry (R359): its index, the Granary address of its line, and a write-back that failed (R371). -/
structure EptLine where
  entry : Nat := 0
  gaddr : Nat := 0
  stuck : Bool := false
deriving DecidableEq, Repr

/-- One installed prefix (R361), with its address bits beyond PLEN 0. -/
structure Route where
  v6 : Bool := false
  plen : Nat := 0
  pre : Nat := 0
  nh : Nat := 0
deriving DecidableEq, Repr

/-- An append waiting or running (R367), with its payload as it stood at GO. -/
structure JrnReq where
  who : Nat := 0
  type : Nat := 0
  del : Bool := false
  id : Nat := 0
  payload : List Byte := []
deriving DecidableEq, Repr

/-- Endpoint engine state that is not a register, in XM or in a command slot in GM. -/
structure Ept where
  ents : Tab EptEnt := []
  /-- cached entries, oldest hit first -/
  lines : List EptLine := []
  routes : List Route := []
  /-- pins held on each entry index (R74) -/
  pins : Tab Nat := []
  /-- entries removed while pinned: their index is not free yet (R358) -/
  leaving : List Nat := []
  /-- lookups submitted and not yet finished, oldest first (R73) -/
  lookups : List Lookup := []
  /-- appends, oldest first -/
  appends : List JrnReq := []
deriving DecidableEq, Repr

/-! ## Parser (chapter 10) -/

/-- One rule of a bank (R306): its 40 words and its hit count. -/
structure Rule where
  words : List Nat := []
  hits : Nat := 0
deriving DecidableEq, Repr

/-- Parser state that is not a register. -/
structure Prs where
  /-- frames the ports have delivered, oldest first -/
  input : List Packet := []
  /-- the task whose creation the scheduler refused; the parser takes no other frame (R295, R316) -/
  stalled : Option Task := none
  /-- the stalled task's lookup, if one is to be made -/
  stalledKey : Option (Nat × List Byte) := none
  /-- rules of both banks, key 16,384 x bank + number -/
  rules : Tab Rule := []
  /-- patterns by number: the 18 staged words (R311) -/
  pats : Tab (List Nat) := []
  /-- next buffer reference -/
  nextRef : Nat := 1
deriving DecidableEq, Repr


/-! ## DRAM controller (chapter 14) -/

/-- A request that waits at a port of the controller (R379). -/
structure DmcReq where
  port : Nat := 0
  addr : Nat := 0
  write : Bool := false
  /-- a write of fewer than 8 bytes to a word -/
  part : Bool := false
  spec : Bool := false
  /-- classes gained by age (R380), and the TBM ns since which it stands in its present class -/
  promos : Nat := 0
  since : Nat := 0
  arrived : Nat := 0
deriving DecidableEq, Repr

/-- DRAM controller state that is not a register. -/
structure Dmc where
  /-- waiting requests, in the order they reached the controller -/
  reqs : List DmcReq := []
  /-- open row of each bank, plus one; 0 none -/
  rows : Tab Nat := []
  /-- row-hit bypasses in a row, per bank -/
  hits : Tab Nat := []
  /-- radios whose transmit stream is low, radios and copper ports whose receive buffer is nearly full, until their
  level has moved HYST back (R383) -/
  txLow : List Nat := []
  rxLow : List Nat := []
  cuLow : List Nat := []
  /-- refreshes postponed by panic (R384) -/
  postponed : Nat := 0
  /-- trained values are held (R393) -/
  trained : Bool := false
  /-- a quick retrain runs (R393, R394) -/
  quick : Bool := false
  /-- next line the scrubber reads -/
  scrub : Nat := 0
  /-- TBM ns of the last reading of the DQS oscillators -/
  dqsAt : Nat := 0
  /-- XM words whose check byte is poisoned (R386), by word number -/
  poison : List Nat := []
deriving DecidableEq, Repr

/-! ## Copper ports (chapter 09) -/

/-- What an LR port knows of its partner and its training (R283 - R289). -/
structure LrSt where
  /-- step in hand, 0-5 in the order of R287 -/
  step : Nat := 0
  /-- own seed (R284) -/
  seed : Nat := 0
  /-- a valid DETECT has been heard in this P0, so that ACK is sent -/
  heard : Bool := false
  /-- TBM ns of the last valid INFO, or of the entry to P0, or of the last report of silence -/
  heardAt : Nat := 0
  /-- TBM ns at which the present phase began -/
  phaseAt : Nat := 0
  /-- own TRAIN_OK sent, and the partner's received (R286) -/
  okSent : Bool := false
  okRecv : Bool := false
  /-- estimated length, reported once the link is up -/
  len : Nat := 0
  /-- a fast retrain runs (R289) -/
  retrain : Bool := false
  /-- code frames failed in a row, and superframes without marker in a row -/
  bad : Nat := 0
  noMark : Nat := 0
  /-- precoder taps the partner sent in P3, key 32 x pair + tap -/
  taps : Tab Nat := []
  /-- MSG of the last OAM word sent (R282): an output of the model -/
  sent : Nat := 0
  /-- receive and transmit scramblers, 58 bits each (R278) -/
  rxScr : Nat := 0
  txScr : Nat := 0
  /-- OAM bits of the superframe being received, none after a code frame that failed (R282) -/
  oam : Option (List Bool) := none
  /-- number in its superframe of the next code frame sent -/
  txPos : Nat := 0
  /-- blocks of the last code frame received, and codewords of the last frame sent: outputs of the model (R278 - R281) -/
  rxBlocks : List (List Bool) := []
  txFrames : List (List Bool) := []
  /-- INFO block sent in P0, and PAM levels of the last frame sent: outputs of the model (R280, R284) -/
  info : List Bool := []
  levels : List (List Int) := []
deriving DecidableEq, Repr

/-- State of one copper port that is not a register. -/
structure CuSt where
  lr : LrSt := {}
  /-- PAUSE as auto-negotiation resolved it (R276): to send, to obey -/
  txp : Bool := false
  rxp : Bool := false
  /-- the partner has been paused: TBM ns of the last PAUSE sent, plus one -/
  paused : Nat := 0
  /-- quanta of the last PAUSE sent: an output of the model -/
  quanta : Option Nat := none
  /-- TBM ns at which a received PAUSE runs out; 0 none -/
  stopTo : Nat := 0
  /-- TBM ns at which that PAUSE arrived: the frame then in progress finishes -/
  stopFrom : Nat := 0
  /-- pairs being measured (R291) -/
  diag : Option Nat := none
  /-- analog calibration failed at enable (R294) -/
  calFail : Bool := false
deriving DecidableEq, Repr


/-! ## DMA (chapter 15) -/

/-- One DMA channel beyond its registers (R398 - R407). -/
structure DmaCh where
  /-- 0 idle, 1 fetches its next descriptor, 2 moves bytes, 3 waits for its status write-back -/
  ph : Nat := 0
  /-- the current descriptor (R398) -/
  ctl : Nat := 0
  len : Nat := 0
  src : Nat := 0
  dst : Nat := 0
  next : Nat := 0
  /-- beats issued and not answered: offset in the descriptor, bytes, retries made -/
  out : List (Nat × Nat × Nat) := []
  /-- some beat needed a retry: STATUS 1 -/
  trans : Bool := false
  /-- the channel halts with this CAUSE once its issued beats are answered -/
  halting : Option Nat := none
  /-- credit in quarters of a byte (R401) -/
  credit : Int := 0
deriving DecidableEq, Repr

/-- A cache-maintenance operation of a requester (R411): who, OP, address and length. -/
structure MccOp where
  who : Nat := 0
  op : Nat := 0
  addr : Nat := 0
  len : Nat := 0
deriving DecidableEq, Repr

/-- DMA state that is not a register. -/
structure Dma where
  ch : Tab DmaCh := []
  /-- the channel that issued last in each PRI, for the rotation -/
  turn : Tab Nat := []
  /-- cache-maintenance operations, the running one first -/
  mcc : List MccOp := []
  /-- TBM µs of the last credit refill -/
  refill : Nat := 0
deriving DecidableEq, Repr

/-! ## Host interface (chapter 16) -/

/-- One MSI-X vector: masked, pending, its table entry, and the messages sent (an output of the model). -/
structure MsixVec where
  masked : Bool := true
  pend : Bool := false
  addr : Nat := 0
  data : Nat := 0
  sent : Nat := 0
deriving DecidableEq, Repr

/-- A posted receive buffer (R419). -/
structure HostBuf where
  tag : Nat := 0
  seq : Nat := 0
  len : Nat := 0
  addr : Nat := 0
deriving DecidableEq, Repr

/-- One queue pair beyond its registers (R419 - R424). -/
structure Qp where
  sqTail : Nat := 0
  /-- posted descriptors not yet fetched: how many, and the stamp of their doorbell write -/
  posts : List (Nat × Nat) := []
  /-- the SEQ record (R421): H, and bit i for number H - i -/
  h : Nat := 0
  seen : Nat := 0
  bufs : List HostBuf := []
  cqHead : Nat := 0
  cqUsed : Nat := 0
  /-- PHASE of the present pass of the CQ -/
  phase : Bool := true
  /-- entries since the last interrupt, and the TBM ns of the first -/
  coal : Nat := 0
  coalAt : Nat := 0
deriving DecidableEq, Repr

/-- A request that the device sent to host memory (R402, R412, R420): a write or a read, its address and the two PCIe
attributes (an output of the model). -/
structure Tlp where
  write : Bool := false
  addr : Nat := 0
  noSnoop : Bool := false
  relaxed : Bool := false
deriving DecidableEq, Repr

/-- Host interface state that is not a register. -/
structure HstSt where
  /-- the last request sent to host memory -/
  tlp : Option Tlp := none
  qps : Tab Qp := []
  msix : Tab MsixVec := []
  /-- TBM ns at which the remote access was sent, and its number and target -/
  raAt : Nat := 0
  raDev : Nat := 0
  raNum : Nat := 0
  /-- it writes -/
  raOp : Bool := false
deriving DecidableEq, Repr



/-! ## Federation (chapter 17) -/

/-- One fabric link slot beyond its registers (R429, R438, R441). -/
structure FedSlot where
  /-- stamp (TBM ns) and period (ms) of the last heartbeat accepted -/
  at' : Nat := 0
  hb : Nat := 1
  /-- the hops the peer advertises, by device -/
  adv : List Nat := []
  /-- TX of the last heartbeat accepted, and the TBN stamp of its receipt -/
  echoTx : Nat := 0
  echoRx : Nat := 0
  /-- TX of the heartbeats sent, latest first, each with the count of TBN steps then -/
  sent : List (Nat × Nat) := []
  /-- TBM ns at which the next heartbeat is due -/
  due : Nat := 0
  /-- source 577 raised since the last matching heartbeat -/
  sizeBad : Bool := false
  /-- stamps of the last OPEN messages relayed (R434) -/
  opens : List Nat := []
deriving DecidableEq, Repr

/-- What the destination keeps per sender (R435): bit i of `seen` stands for number h - i. -/
structure FedPeer where
  empty : Bool := true
  inc : Nat := 0
  h : Nat := 0
  seen : Nat := 0
deriving DecidableEq, Repr

/-- One entry of the send table (R436): the requester told of the outcome, if any, the message, resends made, and the
TBM ns of the next. -/
structure FedRel where
  who : Option Nat := none
  msg : FedMsg
  tries : Nat := 0
  due : Nat := 0
deriving DecidableEq, Repr

/-- Acknowledgements gathered for one sender (R436). -/
structure FedAcks where
  src : Nat := 0
  seqs : List Nat := []
  at' : Nat := 0
deriving DecidableEq, Repr

/-- A remote access as its message carries it, with the stamp of its arrival (R443). -/
structure FedAcc where
  rnum : Nat := 0
  op : Nat := 0
  addr : Nat := 0
  data : Nat := 0
  at' : Nat := 0
deriving DecidableEq, Repr

/-- The target's side of remote access, per sender (R443). -/
structure FedRacc where
  inc : Nat := 0
  next : Nat := 0
  held : List FedAcc := []
  /-- the last 16 replies, latest first: RNUM, STATUS, DATA -/
  replies : List (Nat × Nat × Nat) := []
deriving DecidableEq, Repr

/-- Federation state that is not a register. -/
structure Fed where
  /-- SEQ of the next message -/
  seq : Nat := 0
  slots : Tab FedSlot := []
  peers : Tab FedPeer := []
  rel : List FedRel := []
  acks : List FedAcks := []
  racc : Tab FedRacc := []
  /-- RNUM of the next RACC to each device (R443) -/
  rnum : Tab Nat := []
  /-- a quorum result that differs from STAT.QUORUM, and the TBM ns since which it holds (R448) -/
  pend : Option (Bool × Nat) := none
  /-- devices that have sent LEAVE and nothing since (R447) -/
  left : List Nat := []
  /-- DATA to relay that waits for a paused copper port: slot and message -/
  held : List (Nat × FedMsg) := []
  /-- the messages that left in the last command that sent any, with their slots (an output of the model) -/
  out : List (Nat × FedMsg) := []
deriving DecidableEq, Repr

/-! ## The whole machine -/

/-- The levels of the output pins that the state alone decides: `FAULT_N` (R481), `SUP_EN` (R466, R526). -/
structure Pins where
  faultN : Bool := false
  supEn : Bool := false
deriving DecidableEq, Repr

/-- State of the CH9640, with the queue of commands waiting to be carried out. -/
structure State where
  /-- register words of the control window by offset (plus 2^32 x requester for per-requester copies); an
  unlisted word reads its reset value (`regReset`) -/
  regs : Tab Word := []
  /-- wide-register read captures, key 2^32 x requester + register offset (R8) -/
  capture : Tab Nat := []
  /-- wide-register write staging, key 2^32 x requester + word offset (R8) -/
  stage : Tab Word := []
  /-- the word each requester's last read returned (an output of the model, log 4) -/
  readData : Tab Word := []
  /-- fault occurrences of this clock not yet taken: (source, forced) (R477) -/
  raised : List (Nat × Bool) := []
  /-- counter of the free values (log 3) -/
  freeCtr : Nat := 0
  pins : Pins := {}
  ctl : Ctl := {}
  flt : Flt := {}
  acn : Acn := {}
  /-- fuses (R506) -/
  fuse : Fuse := {}
  sec : Sec := {}
  time : Time := {}
  phs : List PhaseDom := [{}, {}, {}, {}]
  yal : Yalvo := {}
  hts : Hts := {}
  seqs : List Seqr := [{}, {}, {}, {}]
  /-- sequencer data memories, key 16,384 x n + address -/
  sd : Mem := []
  cip : Cip := {}
  air : Air := {}
  ept : Ept := {}
  prs : Prs := {}
  dmc : Dmc := {}
  dma : Dma := {}
  hst : HstSt := {}
  fed : Fed := {}
  /-- bytes the device has written to host memory (an output of the model) -/
  hostOut : Mem := []
  /-- CU0 and CU1 -/
  cu : List CuSt := [{}, {}]
  /-- packets waiting to recirculate through the parser, oldest first (R307) -/
  recirc : List Packet := []
  /-- Granary, 32 MiB -/
  gm : Mem := []
  /-- installed DRAM, up to 16 GiB -/
  xm : Mem := []
  /-- the NOR flash behind xSPI; a byte that nothing has programmed reads 0xFF (R363) -/
  flash : Mem := []
  /-- commands waiting, first in first out -/
  pending : List Instr := []
deriving DecidableEq, Repr

/-- The machine right after power-on reset. -/
def State.reset : State := {}

end Sys2Proof.Machine
end

