-- ==== Sys2Proof/Machine/Tab.lean ====
section
/-! DEFINITION. Operations over sparse tables and byte memories in canonical form, and the plain
bit-field, byte-order and list helpers that every block uses. -/

namespace Sys2Proof.Machine

/-- Read a table: an unlisted key reads as `d key`. -/
def tabGet {α : Type} (d : Nat → α) : Tab α → Nat → α
  | [], k => d k
  | (k', v) :: t, k => if k = k' then v else tabGet d t k

/-- A table without the entries of one key. -/
def tabDel {α : Type} (k : Nat) : Tab α → Tab α
  | [] => []
  | e :: t => if e.1 = k then tabDel k t else e :: tabDel k t

/-- An entry put before the first entry of a higher key. -/
def tabIns {α : Type} (k : Nat) (v : α) : Tab α → Tab α
  | [] => [(k, v)]
  | e :: t => if k < e.1 then (k, v) :: e :: t else e :: tabIns k v t

/-- Write a table, keeping the canonical form: a value equal to the default removes the entry. -/
def tabSet {α : Type} [DecidableEq α] (d : Nat → α) (t : Tab α) (k : Nat) (v : α) : Tab α :=
  if v = d k then tabDel k t else tabIns k v (tabDel k t)

/-- Every key of the table is above `k`. -/
def tabAbove {α : Type} (k : Nat) : Tab α → Bool
  | [] => true
  | (k', _) :: _ => decide (k < k')

/-- The canonical form: keys strictly rising, no entry equal to its default. -/
def tabWf {α : Type} [DecidableEq α] (d : Nat → α) : Tab α → Bool
  | [] => true
  | (k, v) :: t => decide (v ≠ d k) && tabAbove k t && tabWf d t

/-- Change the entry of one key. -/
def tabMod {α : Type} [DecidableEq α] (d : Nat → α) (t : Tab α) (k : Nat) (f : α → α) : Tab α :=
  tabSet d t k (f (tabGet d t k))

/-- A byte of memory that nothing has written reads as 0 (DESIGN CHOICE, log 1). -/
def memDflt (_ : Nat) : Byte := 0

/-- One byte of a memory. -/
def memByte (m : Mem) (a : Nat) : Byte := tabGet memDflt m a

/-- Store one byte. -/
def memPut (m : Mem) (a : Nat) (b : Byte) : Mem := tabSet memDflt m a b

/-- `n` bytes from address `a`, lowest address first. -/
def memBytes (m : Mem) (a : Nat) : Nat → List Byte
  | 0 => []
  | n + 1 => memByte m a :: memBytes m (a + 1) n

/-- Store a byte list, first byte at `a`. -/
def memPutBytes (m : Mem) (a : Nat) : List Byte → Mem
  | [] => m
  | b :: bs => memPutBytes (memPut m a b) (a + 1) bs

/-- Every byte from `a` on, `n` of them, becomes 0. -/
def memZero (m : Mem) (a n : Nat) : Mem := m.filter (fun e => decide (e.1 < a ∨ a + n ≤ e.1))

/-- The little-endian number of a byte list. -/
def leNat : List Byte → Nat
  | [] => 0
  | b :: bs => b.toNat + 256 * leNat bs

/-- The big-endian (network order) number of a byte list. -/
def beNat (bs : List Byte) : Nat := bs.foldl (fun n b => 256 * n + b.toNat) 0

/-- The `n` little-endian bytes of a number. -/
def natLe (v : Nat) : Nat → List Byte
  | 0 => []
  | n + 1 => BitVec.ofNat 8 v :: natLe (v / 256) n

/-- The `n` big-endian bytes of a number. -/
def natBe (v n : Nat) : List Byte := (natLe v n).reverse

/-- The little-endian number of the `n` bytes at `a`. -/
def memNat (m : Mem) (a n : Nat) : Nat := leNat (memBytes m a n)

/-- Store the `n` little-endian bytes of `v` at `a`. -/
def memPutNat (m : Mem) (a n v : Nat) : Mem := memPutBytes m a (natLe v n)

/-- Bits `hi:lo` of a number. -/
def bits (v hi lo : Nat) : Nat := v / 2 ^ lo % 2 ^ (hi + 1 - lo)

/-- Bit `i` of a number. -/
def bit (v i : Nat) : Bool := v / 2 ^ i % 2 == 1

/-- A number with bits `hi:lo` replaced by the low bits of `x`. -/
def setBits (v hi lo x : Nat) : Nat :=
  v / 2 ^ (hi + 1) * 2 ^ (hi + 1) + x % 2 ^ (hi + 1 - lo) * 2 ^ lo + v % 2 ^ lo

/-- A number with bit `i` set or cleared. -/
def setBit (v i : Nat) (b : Bool) : Nat := setBits v i i (if b then 1 else 0)

/-- 1 for true. -/
def b2n (b : Bool) : Nat := if b then 1 else 0

/-- The signed value of the low `w` bits of a number. -/
def signed (w v : Nat) : Int :=
  let u := v % 2 ^ w
  if 2 ^ w ≤ 2 * u then (u : Int) - 2 ^ w else u

/-- An integer as `w` bits. -/
def ofSigned (w : Nat) (v : Int) : Nat := (v % (2 ^ w : Int)).toNat

/-- Number of 1 bits among the low `n` bits. -/
def popCount (v : Nat) : Nat → Nat
  | 0 => 0
  | n + 1 => b2n (bit v n) + popCount v n

/-- The positions of the 1 bits among the low `n` bits, rising. -/
def onesOf (v n : Nat) : List Nat := (List.range n).filter (bit v)

/-- The number with exactly the bits of the list set. -/
def maskOf (l : List Nat) : Nat := l.foldl (fun v i => setBit v i true) 0

/-- The first element that a test accepts, with its position. -/
def findIdx {α : Type} (p : α → Bool) : List α → Nat → Option (Nat × α)
  | [], _ => none
  | x :: xs, i => if p x then some (i, x) else findIdx p xs (i + 1)

/-- Replace element `i` of a list (no effect past the end). -/
def setAt {α : Type} : List α → Nat → α → List α
  | [], _, _ => []
  | _ :: xs, 0, v => v :: xs
  | x :: xs, i + 1, v => x :: setAt xs i v

/-- Insert in rising order of a key, after the elements of the same key. -/
def insertBy {α : Type} (key : α → Nat) (v : α) : List α → List α
  | [] => [v]
  | x :: xs => if key v < key x then v :: x :: xs else x :: insertBy key v xs

/-- Sort by rising key; elements of one key keep their order. -/
def sortBy {α : Type} (key : α → Nat) (l : List α) : List α := l.foldl (fun r v => insertBy key v r) []

/-- The element of least key, the earlier one on a tie. -/
def minBy {α : Type} (key : α → Nat) : List α → Option α
  | [] => none
  | x :: xs =>
    match minBy key xs with
    | none => some x
    | some y => if key y < key x then some y else some x

/-- Apply a state change once per element, in list order. -/
def forEach {α σ : Type} (l : List α) (f : α → σ → σ) (s : σ) : σ := l.foldl (fun t a => f a t) s

/-- Ceiling division. -/
def cdiv (a b : Nat) : Nat := (a + b - 1) / b

/-- One step of the reflected CRC register `c` of polynomial `p` over one bit. -/
def crcBit (p c : Nat) : Nat := if c % 2 = 1 then Nat.xor (c / 2) p else c / 2

/-- Reflected CRC over bytes (bit 0 first), register `c`, reflected polynomial `p`. -/
def crcRefl (p : Nat) (c : Nat) : List Byte → Nat
  | [] => c
  | b :: bs =>
    let x := Nat.xor c b.toNat
    crcRefl p (crcBit p (crcBit p (crcBit p (crcBit p (crcBit p (crcBit p (crcBit p (crcBit p x)))))))) bs

/-- CRC-32 of IEEE 802.3 (reflected, all-ones start, complemented).  PRESUMED from the standard the
spec names (log 5). -/
def crc32 (bs : List Byte) : Nat := Nat.xor (crcRefl 0xEDB88320 0xFFFFFFFF bs) 0xFFFFFFFF

end Sys2Proof.Machine
end

