-- ==== Sys2Proof/Machine/RegOps.lean ====
section
/-! DEFINITION. The register file: finding the register at an offset, its reset value, and reading and
writing named fields (R3, R540, R544).  A register word that nothing has written reads its reset value. -/

namespace Sys2Proof.Machine

/-- The register of a block at offset `r` of an instance, if it holds one. -/
def findInBlock (base inst r : Nat) : List RDesc → Option RLoc
  | [] => none
  | d :: ds =>
    if d.off ≤ r ∧ (r - d.off) / d.stride < d.count ∧ (r - d.off) % d.stride < 4 * d.words then
      some ⟨d, base, inst, (r - d.off) / d.stride, (r - d.off) % d.stride / 4⟩
    else findInBlock base inst r ds

/-- The register at window offset `a` (R540): blocks are tried in the order of the map. -/
def findReg (a : Nat) : List BlockDesc → Option RLoc
  | [] => none
  | b :: bs =>
    if b.base ≤ a ∧ (a - b.base) / b.istride < b.inst then
      match findInBlock b.base ((a - b.base) / b.istride) ((a - b.base) % b.istride) b.regs with
      | some l => some l
      | none => findReg a bs
    else findReg a bs

/-- A field's reset value at an instance and index. -/
def resetOf (inst idx : Nat) : ResetVal → Nat
  | .all v => v
  | .byIndex l => l.getD idx 0
  | .byInst l => l.getD inst 0
  | .cls => sourceClass idx

/-- The reset value of word `w` of a register. -/
def resetWord (l : RLoc) : Nat :=
  l.desc.fields.foldl (fun v f => v + resetOf l.inst l.idx f.reset * 2 ^ f.lo) 0 / 2 ^ (32 * l.word) % 2 ^ 32

/-- What a register word reads before anything has written it: its reset value. -/
def regReset (k : Nat) : Word :=
  match findReg (k % 0x100000000) regBlocks with
  | some l => BitVec.ofNat 32 (resetWord l)
  | none => 0

/-- One stored register word. -/
def State.word (s : State) (a : Nat) : Word := tabGet regReset s.regs a

/-- Store one register word. -/
def State.setWord (s : State) (a : Nat) (v : Word) : State := { s with regs := tabSet regReset s.regs a v }

/-- `n` consecutive words as one number, lowest word first (R8). -/
def State.wide (s : State) (a : Nat) : Nat → Nat
  | 0 => 0
  | n + 1 => (s.word a).toNat + 2 ^ 32 * s.wide (a + 4) n

/-- Store a number in `n` consecutive words, lowest word first (R8). -/
def State.setWide (s : State) (a : Nat) : Nat → Nat → State
  | 0, _ => s
  | n + 1, v => (s.setWord a (BitVec.ofNat 32 v)).setWide (a + 4) n (v / 2 ^ 32)

/-- The value of a field. -/
def State.get (s : State) (f : Fld) : Nat :=
  bits (s.wide f.addr (f.hi / 32 + 1)) f.hi f.lo

/-- A one-bit field as a truth value. -/
def State.on (s : State) (f : Fld) : Bool := s.get f == 1

/-- Set a field, keeping the register's other bits. -/
def State.put (s : State) (f : Fld) (v : Nat) : State :=
  s.setWide f.addr (f.hi / 32 + 1) (setBits (s.wide f.addr (f.hi / 32 + 1)) f.hi f.lo v)

/-- Add to a counter field, saturating at all ones. -/
def State.bump (s : State) (f : Fld) (k : Nat) : State :=
  s.put f (min (2 ^ (f.hi + 1 - f.lo) - 1) (s.get f + k))

/-- Add to a counter field, wrapping at its width. -/
def State.addWrap (s : State) (f : Fld) (k : Nat) : State := s.put f (s.get f + k)

/-- Bit `i` of a field. -/
def State.fbit (s : State) (f : Fld) (i : Nat) : Bool := bit (s.get f) i

/-- Set or clear bit `i` of a field. -/
def State.putBit (s : State) (f : Fld) (i : Nat) (b : Bool) : State := s.put f (setBit (s.get f) i b)

/-- Present TBM in whole nanoseconds (R101). -/
def State.now (s : State) : Nat := s.time.tbm / 2 ^ 32

/-- One tick of the 32.768 kHz clock, exactly 1/32,768 s, in units of 2^-32 ns (R103). -/
def slowTick : Nat := 30517 * 2 ^ 32 + 0x94000000

/-- TBM advances by `k` ticks of its source (R103, R553): on the 32.768 kHz clock, each tick runs on that clock or, while
it is absent, on the fallback. -/
def State.ticks (s : State) (k : Nat) : State :=
  if s.on F.TIME_CLK_STAT_SRC then
    { s with time := { s.time with tbm := s.time.tbm + k * slowTick, fb := !s.on F.TIME_CLK_STAT_X32K_OK } }
  else { s with time := { s.time with tbm := s.time.tbm + k * 2 ^ 32 } }

/-- A timed event occurs at TBM instant `ns`: when it lies ahead, TBM advances to it, on the 32.768 kHz clock to the first
tick at or beyond it; it never decreases (R103; log 6). -/
def State.until (s : State) (ns : Nat) : State :=
  if ns * 2 ^ 32 ≤ s.time.tbm then s
  else s.ticks (if s.on F.TIME_CLK_STAT_SRC then (ns * 2 ^ 32 - s.time.tbm + slowTick - 1) / slowTick else ns - s.now)

/-- Power domain `d` of R455 is on. -/
def State.domOn (s : State) (d : Nat) : Bool := bit (s.get F.PWR_DOM_ON) d

/-- The current mode code (R22). -/
def State.mode (s : State) : Nat := s.get F.TOP_MODE_CUR

/-- Power domains on in a mode (R458); none stated for Dump, which changes none. -/
def modeDomains (m : Nat) : List Nat :=
  if m = 0 then [0] else if m = 2 then [0, 1, 2] else if m = 3 then [0, 2]
  else if m = 4 then [0, 2, 3, 4, 5, 6, 13]
  else if m = 5 then [0, 1, 2, 3, 4, 5, 6, 7, 11, 13]
  else if m = 1 ∨ m = 0xB then [0, 1, 2, 3, 4]
  else List.range 14

/-- An entry is past its first step and takes domain `d` off (R462 step 2). -/
def State.leaving (s : State) (d : Nat) : Bool :=
  match s.ctl.entry with
  | some e => decide (2 ≤ e.step) && !(modeDomains e.target).contains d
  | none => false

/-- A mode transition or a trim runs: `TOP.MODE.BUSY` (R20, R22, R460). -/
def State.transiting (s : State) : Bool := s.ctl.entry.isSome || s.ctl.wake.isSome || s.ctl.trim.isSome

/-- A fresh free value (log 3): the opaque constant at the counter, which advances. -/
def State.fresh (s : State) : Nat × State := (Config.freeNat s.freeCtr, { s with freeCtr := s.freeCtr + 1 })

end Sys2Proof.Machine
end

