-- ==== Sys2Proof/Machine/Flags.lean ====
section
/-! DEFINITION. Status and interrupt flags: reporting an occurrence to the collector (R473), sources limited
to one raise per second, the level a source stands at, and the halts a block takes from its sources. -/

namespace Sys2Proof.Machine

/-- A block reports an occurrence of source `n`; the collector takes it at the end of the clock (R477). -/
def State.raise (s : State) (n : Nat) : State := { s with raised := s.raised ++ [(n, false)] }

/-- Report an occurrence only when the condition holds. -/
def State.raiseIf (s : State) (b : Bool) (n : Nat) : State := if b then s.raise n else s

/-- One second in nanoseconds. -/
def second : Nat := 1000000000

/-- Report an occurrence of a source raised at most once per second (TBM). -/
def State.raiseSec (s : State) (n : Nat) : State :=
  let last := tabGet (fun _ => 0) s.flt.last n
  if last = 0 ∨ last - 1 + second ≤ s.now then
    { s with flt := { s.flt with last := tabSet (fun _ => 0) s.flt.last n (s.now + 1) } }.raise n
  else s

/-- The level of source `n`: 0 not pending or merged, 1 - 3 (R494). -/
def State.level (s : State) (n : Nat) : Nat := s.get (F.FLT_SRC_LEVEL n)

/-- Source `n` is pending, merged included. -/
def State.isPending (s : State) (n : Nat) : Bool := s.on (F.FLT_SRC_PEND n)

/-- Some source of a list stands at L2 or L3: the containing block is halted (R474).  A reserved source has no containing
block (R549). -/
def State.halted (s : State) (l : List Nat) : Bool := l.any (fun n => sourceRaised n && decide (2 ≤ s.level n))

/-- The numbers from `lo` up to but not including `hi`. -/
def span (lo hi : Nat) : List Nat := (List.range (hi - lo)).map (· + lo)

/-- A PRS source stands at L2: the parser takes no frame (R312). -/
def State.prsHalted (s : State) : Bool := s.halted (span 320 337)

/-- Slice `r` is halted by one of its sources (R331). -/
def State.sliceHalted (s : State) (r : Nat) : Bool := s.halted [352 + 4 * r, 353 + 4 * r, 354 + 4 * r]

/-- Sequencer `n` is halted and muted by one of its sources, or by source 63 (R167). -/
def State.seqSourceHalt (s : State) (n : Nat) : Bool := s.halted (63 :: (span (32 + 8 * n) (39 + 8 * n)))

/-- Radio `n` is muted by an MXn or RFn source at L2 (R223). -/
def State.radioSourceMute (s : State) (n : Nat) : Bool :=
  s.halted (span (64 + 32 * n) (96 + 32 * n) ++ span (160 + 32 * n) (192 + 32 * n))

/-- Any source at L2 or L3 (R481). -/
def State.anyL2 (s : State) : Bool := (List.range 640).any (fun n => decide (2 ≤ s.level n))

/-- The device is in Dump or Fault Hold. -/
def State.stopped (s : State) : Bool := decide (s.mode = 0xA ∨ s.mode = 0xB)

/-- `FAULT_N` is driven low (R481): a source at L2 or L3, Sprout hold, Limp, Dump, Fault Hold, or a reset whose boot has
not reached step 7 (R530). -/
def State.faultNLow (s : State) : Bool :=
  s.anyL2 || s.on F.PWR_STAT_HOLD || s.mode == 2 || s.stopped || s.ctl.boot.isSome

/-- `SUP_EN` is high: from the regulator stage of a boot or wake (R466) up to step 4 of an entry to Retain or Off (R462,
R464); low in a boot before step 6, and where its fuse check failed at step 1 (R518, R526). -/
def State.supEn (s : State) : Bool :=
  !(s.mode == 3 || s.mode == 0)
    && (match s.ctl.entry with | some e => !(e.step == 4 && (e.target == 3 || e.target == 0)) | none => true)
    && (match s.ctl.boot with | some k => decide (6 ≤ k) | none => !s.on F.SEC_BOOT_STAT_FUSEERR)

/-- The end of a command: the output pins take the levels that the state gives them, and an outcome given for an Acorn write
that the command did not make is gone. -/
def State.close (s : State) : State :=
  { s with pins := { faultN := !s.faultNLow, supEn := s.supEn }, acn := { s.acn with bad := 0 } }

end Sys2Proof.Machine
end

