-- ==== Sys2Proof/Machine/Ops.lean ====
section
/-! DEFINITION. Shared operations: registers and memories of the Yalvo units and sequencers, the task store
and its places, the end of a task, and taking an exception (R43, R47) as one operation. -/

namespace Sys2Proof.Machine

/-! ### Threads and registers -/

/-- One thread. -/
def State.thread (s : State) (t : Nat) : Thread := tabGet (fun _ => {}) s.yal.threads t

/-- Replace one thread. -/
def State.setThread (s : State) (t : Nat) (x : Thread) : State :=
  { s with yal := { s.yal with threads := tabSet (fun _ => {}) s.yal.threads t x } }

/-- The number of an issuer: a thread's global number, or 512 + n for sequencer n. -/
def issuerNum : Issuer → Nat
  | .thr t => t.val
  | .seq n => 512 + n.val

/-- The value of register `r` of issuer number `x`: register 0 reads 0 (R30, R46). -/
def State.reg (s : State) (x r : Nat) : DWord :=
  if r = 0 then 0 else tabGet (fun _ => 0) s.yal.g (32 * x + r)

/-- Write a register; writes of register 0 are discarded (R30, R46). -/
def State.setReg (s : State) (x r : Nat) (v : DWord) : State :=
  if r = 0 then s else { s with yal := { s.yal with g := tabSet (fun _ => 0) s.yal.g (32 * x + r) v } }

/-- Write several registers from register `r` on, register 0 included in the count and discarded. -/
def State.setRegs (s : State) (x r : Nat) : List DWord → State
  | [] => s
  | v :: vs => (s.setReg x r v).setRegs x (r + 1) vs

/-- The unit of a thread. -/
def unitOf (t : Nat) : Nat := t / 8
/-- The cluster of a thread. -/
def clusterOf (t : Nat) : Nat := t / 32
/-- The region of a thread. -/
def regionOf (t : Nat) : Nat := t / 128

/-- Power domain of a cluster (R455). -/
def clusterDomain (c : Nat) : Nat := if c = 0 then 6 else if c < 4 then 7 else 7 + c / 4

/-- Power domain of the slice and cipher lanes of a region (R455). -/
def regionDomain (r : Nat) : Nat := if r = 0 then 6 else 7 + r

/-- Cluster `c` is fenced (R45). -/
def State.fenced (s : State) (c : Nat) : Bool := s.fbit F.YCU_CL_FENCE_FENCED c

/-- Cluster `c` runs: powered, not going off in an entry, and not fenced (R317, R462). -/
def State.clusterRuns (s : State) (c : Nat) : Bool :=
  s.domOn (clusterDomain c) && !s.leaving (clusterDomain c) && !s.fenced c

/-- The slice of region `r` is powered, and not going off in an entry. -/
def State.sliceOn (s : State) (r : Nat) : Bool := s.domOn (regionDomain r) && !s.leaving (regionDomain r)

/-- The region meant by `r`: itself, or the lowest-numbered region that runs (R305). -/
def State.liveRegion (s : State) (r : Nat) : Nat :=
  if s.sliceOn r then r else ((List.range 4).find? s.sliceOn).getD r

/-- Unit `u` holds a valid image (R48). -/
def State.hasImage (s : State) (u : Nat) : Bool := s.get (F.YCU_GEN_GEN u) != 0xFFFFFFFF

/-- Unit `u` is excluded from dispatch by a program load (R53, R54). -/
def State.loadHolds (s : State) (u : Nat) : Bool :=
  match s.yal.load with
  | some l => u ∈ l.draining || u ∈ l.ready || u ∈ l.copying || u ∈ l.copied
  | none => false

/-! ### Memory spaces (R33) -/

/-- XM space in MiB (R374, R375): raw capacity, less an eighth with ECC. -/
def State.xmMib (s : State) : Nat :=
  let raw := 2048 * 2 ^ min 2 (s.get F.DMC_CTL_DENS) * (s.get F.DMC_CTL_RANKS + 1)
  if s.on F.DMC_CTL_ECC_EN then raw / 8 * 7 else raw

/-- Size in bytes of memory space `sp` for a unit. -/
def State.spaceSize (s : State) (sp : Nat) : Nat :=
  if sp = 0 then 0x10000 else if sp = 1 then 0x100000 else if sp = 2 then 0x2000000
  else s.xmMib * 0x100000

/-- Bytes of a space as the home memory holds them, for unit `u`. -/
def State.spaceBytes (s : State) (u sp a n : Nat) : List Byte :=
  if sp = 0 then memBytes s.yal.lm (0x10000 * u + a) n
  else if sp = 1 then memBytes s.yal.cm (0x100000 * (u / 4) + a) n
  else if sp = 2 then memBytes s.gm a n
  else memBytes s.xm a n

/-- Write bytes to the home memory of a space, for unit `u`. -/
def State.spacePut (s : State) (u sp a : Nat) (bs : List Byte) : State :=
  if sp = 0 then { s with yal := { s.yal with lm := memPutBytes s.yal.lm (0x10000 * u + a) bs } }
  else if sp = 1 then { s with yal := { s.yal with cm := memPutBytes s.yal.cm (0x100000 * (u / 4) + a) bs } }
  else if sp = 2 then { s with gm := memPutBytes s.gm a bs }
  else { s with xm := memPutBytes s.xm a bs }

/-- Bytes of a thread's packet window. -/
def State.pwBytes (s : State) (t a n : Nat) : List Byte := memBytes s.yal.pw (512 * t + a) n

/-- Write bytes of a thread's packet window. -/
def State.pwPut (s : State) (t a : Nat) (bs : List Byte) : State :=
  { s with yal := { s.yal with pw := memPutBytes s.yal.pw (512 * t + a) bs } }

/-- The cache line that holds an address of unit `u`, if the unit's data cache holds it. -/
def State.cacheLine (s : State) (u sp a : Nat) : Option CacheLine :=
  s.yal.dcache.find? (fun l => l.unit == u && l.space == sp && l.line == a / 64)

/-- Drop the lines that a test accepts. -/
def State.dropLines (s : State) (p : CacheLine → Bool) : State :=
  { s with yal := { s.yal with dcache := s.yal.dcache.filter (fun l => !p l) } }

/-- Fill a line of unit `u` from the home memory.  The cache holds 256 lines; which line leaves a full cache
is not stated, so a free value chooses it (log 3). -/
def State.fillLine (s : State) (u sp a : Nat) : State :=
  let new : CacheLine := ⟨u, sp, a / 64, s.spaceBytes u sp (a / 64 * 64) 64⟩
  let mine := s.yal.dcache.filter (fun l => l.unit == u)
  if mine.length < 256 then { s with yal := { s.yal with dcache := s.yal.dcache ++ [new] } }
  else
    let (n, s1) := s.fresh
    let gone := mine.getD (n % 256) new
    { s1 with yal := { s1.yal with dcache := s1.yal.dcache.filter (fun l => l != gone) ++ [new] } }

/-- Overlay bytes at addresses onto a byte list that starts at `a`. -/
def overlay (own : List (Nat × Byte)) (a : Nat) : List Byte → List Byte
  | [] => []
  | b :: bs => ((own.reverse.find? (fun c => c.1 == a)).map (·.2)).getD b :: overlay own (a + 1) bs

/-- Addresses and bytes of a store buffer's entries in one space, oldest first (R34). -/
def ownBytes (sp : Nat) (l : List StoreEnt) : List (Nat × Byte) :=
  (l.filter (fun e => e.space == sp)).flatMap (fun e => e.bytes.zipIdx.map (fun (b, i) => (e.addr + i, b)))

/-- Write a cached copy of bytes, where the line is held. -/
def lineWrite (l : CacheLine) (a : Nat) (bs : List Byte) : CacheLine :=
  { l with bytes := overlay (bs.zipIdx.map (fun (b, i) => (a + i, b))) (64 * l.line) l.bytes }

/-- A store leaves the buffer of thread `t`: its home memory takes it, the unit's own line is updated, and for
CM the lines of the cluster's other units go (R35). -/
def State.storeLand (s : State) (t : Nat) (e : StoreEnt) : State :=
  let u := unitOf t
  let s := s.spacePut u e.space e.addr e.bytes
  let upd := s.yal.dcache.map (fun l =>
    if l.unit == u && l.space == e.space && l.line == e.addr / 64 then lineWrite l e.addr e.bytes else l)
  let kept := upd.filter (fun l =>
    !(e.space == 1 && l.space == 1 && l.unit / 4 == u / 4 && l.unit != u && l.line == e.addr / 64))
  { s with yal := { s.yal with dcache := kept } }

/-! ### Pins -/

/-- Pin an endpoint entry once more (R74). -/
def State.pinEntry (s : State) (i : Nat) : State :=
  { s with ept := { s.ept with pins := tabMod (fun _ => 0) s.ept.pins i (· + 1) } }

/-- Entries not free: in use, or removed while still pinned (R358). -/
def State.eptOcc (s : State) : Nat := s.ept.ents.length + s.ept.leaving.length

/-- Take one pin off an entry; the last pin of a removed entry returns its index to the free list (R358), and its line
with it. -/
def State.unpin (s : State) (i : Nat) : State :=
  let n := tabGet (fun _ => 0) s.ept.pins i - 1
  let s := { s with ept := { s.ept with pins := tabSet (fun _ => 0) s.ept.pins i n } }
  if n = 0 ∧ s.ept.leaving.contains i = true then
    let s := { s with ept := { s.ept with leaving := s.ept.leaving.filter (· != i),
                                          lines := s.ept.lines.filter (fun l => l.entry != i) } }
    s.put F.EPT_OCC_ENTRIES s.eptOcc
  else s

/-! ### Reorder-buffer places (R322, R323) -/

/-- Places held in the buffer of cluster `c`; places parked in the slice do not count. -/
def State.robCount (s : State) (c : Nat) : Nat :=
  (s.hts.places.filter (fun p => p.cluster == c && !p.parked)).length

/-- Record what a task's place releases: its task has issued ORDR or ended. -/
def State.placeDone (s : State) (task : Nat) (out : Option EgItem) : State :=
  let l := s.hts.places.map (fun p => if p.task == task && !p.done then { p with done := true, out := out } else p)
  { s with hts := { s.hts with places := l } }

/-- Home cluster of a tag in a region (R317): the cluster CLMAP gives, or the next that runs; none when no
cluster of the region runs. -/
def State.homeCluster (s : State) (r tag : Nat) : Option Nat :=
  let lo := tag % 256
  let c := bits (s.get (F.HTS_CLMAP_C (lo / 16))) (2 * (lo % 16) + 1) (2 * (lo % 16))
  ((List.range 4).map (fun k => 4 * r + (c + k) % 4)).find? s.clusterRuns

/-- Task-store entries in use in region `r`: tasks not yet dispatched and running tasks (R315). -/
def State.storeCount (s : State) (r : Nat) : Nat :=
  (s.hts.tasks.filter (fun k => k.region == r)).length
  + (s.yal.threads.filter (fun e => match e.2.task with | some k => k.region == r | none => false)).length

/-- Creation entries of the matching store in use in region `r` (R315). -/
def State.matchCount (s : State) (r : Nat) : Nat :=
  (s.hts.tasks.filter (fun k => k.region == r && (k.await1 || k.await2))).length

/-! ### The end of a task and taking an exception -/

/-- A task ends (R41): lock, pins, place and slots are given up, a packet still held is freed and counted in
`NOEMIT_DROPS`, or in `FAULT_DROPS` when it ends by a fault (R43).  The store buffer keeps draining. -/
def State.endTask (s : State) (t : Nat) (fault : Bool) : State :=
  let th := s.thread t
  match th.task with
  | none => s
  | some k =>
    let s := { s with hts := { s.hts with locks := s.hts.locks.filter (fun l => l.2.2 != t) } }
    let s := forEach (th.cpin.toList ++ th.pins) (fun i s => s.unpin i) s
    let s := if k.ordered && !th.ordr then s.placeDone k.id none else s
    let s := match th.held with
      | none => s
      | some _ => if fault then s.bump F.YCU_FAULT_DROPS_COUNT 1 else s.bump F.YCU_NOEMIT_DROPS_COUNT 1
    s.setThread t { s.thread t with
      task := none, held := none, cpin := none, pins := [], ordr := false, instrs := 0,
      slots := [.empty, .empty, .empty, .empty], st := .idle }

/-- The exceptions of R43 and R47. -/
inductive Exc where
  | illegal
  | align
  | space
  | operand
  | task
  | ecc
  | budget
deriving DecidableEq, Repr

/-- Source kind of an exception in a unit (R43, R44). -/
def Exc.kind : Exc → Nat
  | .ecc => 2
  | .budget => 3
  | _ => 0

/-- A thread halts with its registers, pw and pc kept; its task ends as by a fault (R43, R45). -/
def State.haltThread (s : State) (t : Nat) : State :=
  let s := s.endTask t true
  s.setThread t { s.thread t with st := .halt }

/-- One sequencer. -/
def State.seq (s : State) (n : Nat) : Seqr := s.seqs.getD n {}

/-- Replace one sequencer. -/
def State.setSeq (s : State) (n : Nat) (q : Seqr) : State := { s with seqs := setAt s.seqs n q }

/-- Taking an exception: in a unit the thread halts and source 384 + 4c + k is raised (R43, R44); in a
sequencer the halt of R47 is ordered, with CAUSE 2 for ECC and 1 otherwise, and source 32 + 8n (or 38 + 8n for
ECC) is raised (R167).  The instruction has no other effect and the pc stays at it. -/
def State.exception (s : State) (x : Issuer) (e : Exc) : State :=
  match x with
  | .thr t => (s.haltThread t.val).raise (384 + 4 * clusterOf t.val + e.kind)
  | .seq n =>
    let q := s.seq n.val
    let exc := match e with | .illegal => 1 | .align => 2 | .space => 3 | _ => 0
    let cause := if e = .ecc then 2 else 1
    (s.setSeq n.val { q with halting := some ⟨cause, exc, 7⟩ }).raise
      (if e = .ecc then 38 + 8 * n.val else 32 + 8 * n.val)

/-! ### Issuing an instruction -/

/-- How an instruction leaves its thread. -/
inductive Flow where
  /-- goes on at the next word -/
  | next (s : State)
  /-- goes on at a byte address -/
  | jump (pc : Nat) (s : State)
  /-- stays at the instruction (it waits inside, or the task or sequencer program no longer runs) -/
  | stay (s : State)
  /-- takes an exception -/
  | exc (e : Exc)

/-- The thread in unit `u` that issues next: the first ready one in round-robin order after the one that issued last
(R28, R29). -/
def State.nextReady (s : State) (u : Nat) : Option Nat :=
  ((List.range 8).map (fun k => (tabGet (fun _ => 0) s.yal.last u + k) % 8)).find?
    (fun t => (s.thread (8 * u + t)).st == .run)

/-- The issuer can issue: the thread whose turn it is in its unit (R28), or a sequencer enabled, not halted and not
waiting. -/
def State.canIssue (s : State) : Issuer → Bool
  | .thr t => s.nextReady (unitOf t.val) == some (t.val % 8)
  | .seq n => s.on (F.SQ_CTL_EN n.val) && !s.on (F.SQ_CTL_HALTED n.val)
      && (s.seq n.val).wait.isNone && (s.seq n.val).halting.isNone

/-- The pc of an issuer. -/
def State.pcOf (s : State) : Issuer → Nat
  | .thr t => (s.thread t.val).pc
  | .seq n => (s.seq n.val).pc

/-- Set the pc of an issuer, modulo 65,536 (R60). -/
def State.setPc (s : State) (x : Issuer) (pc : Nat) : State :=
  match x with
  | .thr t => s.setThread t.val { s.thread t.val with pc := pc % 0x10000 }
  | .seq n => s.setSeq n.val { s.seq n.val with pc := pc % 0x10000 }

/-- The issuer has issued: the round robin of its unit goes on after it (R28). -/
def State.issued (s : State) : Issuer → State
  | .thr t => { s with yal := { s.yal with last := tabSet (fun _ => 0) s.yal.last (unitOf t.val) (t.val % 8 + 1) } }
  | .seq _ => s

/-- Count an instruction against the task's budget (R42); its thread is the last that issued. -/
def State.countInstr (s : State) (x : Issuer) : State :=
  match x with
  | .thr t => (s.issued x).setThread t.val { s.thread t.val with instrs := (s.thread t.val).instrs + 1 }
  | .seq _ => s

/-- The instruction would exceed `TASK_BUDGET.LIMIT` (R42); 0 is no limit. -/
def State.overBudget (s : State) : Issuer → Bool
  | .thr t => s.get F.YCU_TASK_BUDGET_LIMIT != 0 && decide (s.get F.YCU_TASK_BUDGET_LIMIT ≤ (s.thread t.val).instrs)
  | .seq _ => false

/-- Which profiles run an instruction (R61). -/
inductive Profile where
  | both
  | p
  | s
deriving DecidableEq, Repr

/-- The instruction may run for this issuer: its profile, and in the S-profile register fields below 16 (R58, R61). -/
def legalFor (pr : Profile) (regs : List (BitVec 5)) : Issuer → Bool
  | .thr _ => pr != .s
  | .seq _ => pr != .p && regs.all (fun r => decide (r.toNat < 16))

/-- What is left of an instruction once it has issued: the pc moves, or the exception is taken. -/
def State.finish (s : State) (x : Issuer) : Flow → State
  | .next t => t.setPc x (t.pcOf x + 4)
  | .jump pc t => t.setPc x pc
  | .stay t => t
  | .exc e => s.exception x e

/-- Issue one instruction (R28, R42, R58, R61, R100): nothing when the issuer is not ready or another thread of its unit
comes first; BUDGET and a lasting
fetch error before anything else; ILLEGAL for the wrong profile; then its own effect. -/
def State.issue (s : State) (i : Issue) (pr : Profile) (regs : List (BitVec 5)) (body : State → Flow) : State :=
  if !s.canIssue i.who then s
  else if s.overBudget i.who then (s.issued i.who).exception i.who .budget
  else if i.fetch = .lasting then (s.issued i.who).exception i.who .ecc
  else
    let s := match i.fetch, i.who with
      | .corrected, .thr t => s.raise (385 + 4 * clusterOf t.val)
      | _, _ => s
    let s := s.countInstr i.who
    if !legalFor pr regs i.who then s.exception i.who .illegal
    else s.finish i.who (body s)

end Sys2Proof.Machine
end

