-- ==== Sys2Proof/Machine/Operands.lean ====
section
/-! DEFINITION. Every operand form of the Yalvo instructions (R57, R60), the words the task-control
instructions exchange (R69 - R71), and the address checks of loads and stores (R33, R66, R68). -/

namespace Sys2Proof.Machine

/-- imm16 sign-extended to 64 bits (R60). -/
def sext16 (i : BitVec 16) : DWord := i.signExtend 64
/-- imm16 zero-extended to 64 bits (R60). -/
def zext16 (i : BitVec 16) : DWord := i.zeroExtend 64

/-- Branch target: (pc + 4 x off21) modulo 65,536, off21 signed (R60). -/
def branchTarget (pc : Nat) (off : BitVec 21) : Nat := ((pc + 4 * off.toInt) % 0x10000 : Int).toNat

/-- M-format address: ga plus the sign-extended 14-bit byte offset (R33), modulo 2^64 (R10). -/
def mAddress (ga : DWord) (off : BitVec 14) : Nat := (ga + off.signExtend 64).toNat

/-- The mask of a bit field of `width` = w1 + 1 bits. -/
def fieldMask (w1 : BitVec 6) : DWord := BitVec.ofNat 64 (2 ^ (w1.toNat + 1) - 1)

/-- An address check of R33 for an access of `n` bytes to space `sp`, a store or not. -/
def State.accessCheck (s : State) (x : Issuer) (sp a n : Nat) (store : Bool) : Option Exc :=
  if a % n ≠ 0 then some .align
  else match x with
    | .seq _ => if sp ≠ 0 ∨ 0x4000 < a + n then some .space else none
    | .thr _ =>
      if s.spaceSize sp < a + n then some .space
      else if store && sp == 2 && s.fbit F.YCU_GM_WPROT_BANK (a / 0x100000) then some .space
      else none

/-- The value of loaded bytes: little-endian (R66), zero- or sign-extended to 64 bits. -/
def loadValue (bs : List Byte) (sext : Bool) : DWord :=
  if sext then BitVec.ofInt 64 (signed (8 * bs.length) (leNat bs)) else BitVec.ofNat 64 (leNat bs)

/-- The low `n` bytes of a register, little-endian. -/
def storeBytes (v : DWord) (n : Nat) : List Byte := natLe v.toNat n

/-- The packet handle (R69): length in [63:48], buffer reference in [47:0]. -/
def handleOf (p : Packet) : DWord := BitVec.ofNat 64 (p.bytes.length % 0x10000 * 2 ^ 48 + p.ref % 2 ^ 48)

/-- The egress word of EMIT and ORDR (R70). -/
structure EgWord where
  h : Nat
  c : Nat
  kind : Nat
  target : Nat
  tc : Nat
  rest : Nat
deriving DecidableEq, Repr

/-- Read an egress word (R70). -/
def egWord (v : DWord) : EgWord :=
  let n := v.toNat
  ⟨bits n 9 0, bits n 19 10, bits n 23 20, bits n 41 24, bits n 45 42, bits n 63 46⟩

/-- TARGET is in the range of its KIND (R70); `own` is the device's own ID. -/
def validTarget (w : EgWord) (own : Nat) : Bool :=
  if w.kind ≤ 1 then w.target == 0
  else if w.kind = 2 then decide (w.target < 32)
  else if w.kind = 3 then decide (w.target < 64) && w.target != own
  else if w.kind = 4 then decide (w.target < 2048)
  else if w.kind = 5 then decide (w.target < 16384)
  else if w.kind = 6 then decide (w.target < 5)
  else false

/-- The egress word is valid for a packet of `len` bytes (R70, R82). -/
def validEgWord (w : EgWord) (len own : Nat) : Bool :=
  decide (w.h ≤ 512 ∧ w.c ≤ min len 512) && validTarget w own && decide (w.tc < 8) && w.rest == 0
    && decide (w.h + len - w.c ≠ 0)

/-- The flow word of FORK and of an injection (R71). -/
structure FlowWord where
  tag : Nat
  atomic : Bool
  ordered : Bool
  cls : Nat
  region : Nat
  expl : Bool
  h : Nat
  c : Nat
  rest : Nat
deriving DecidableEq, Repr

/-- Read a flow word (R71). -/
def flowWord (n : Nat) : FlowWord :=
  ⟨bits n 31 0, bit n 32, bit n 33, bits n 39 34, bits n 41 40, bit n 42, bits n 52 43, bits n 62 53, bits n 63 63⟩

/-- A packet with a new head: pw bytes 0 .. h - 1, then the bytes as received from `c` on (R31, R70). -/
def rewrite (p : Packet) (pw : List Byte) (h c : Nat) : Packet :=
  { p with bytes := pw.take h ++ p.bytes.drop c }

end Sys2Proof.Machine
end

