-- ==== Sys2Proof/Machine/Alu.lean ====
section
/-! DEFINITION. The results of the ALU group and of the immediate instructions (R63, R64), as functions of
the operand values, and the two shapes in which they issue. -/

namespace Sys2Proof.Machine

/-- 1 or 0 as a register value. -/
def flag (b : Bool) : DWord := if b then 1 else 0

/-- DIVU: all ones when gb = 0. -/
def aluDivu (a b : DWord) : DWord := if b = 0 then BitVec.allOnes 64 else a / b
/-- REMU: ga when gb = 0. -/
def aluRemu (a b : DWord) : DWord := if b = 0 then a else a % b
/-- DIV: -1 when gb = 0; ga when ga = -2^63 and gb = -1 (the quotient wraps); truncation toward zero (R10). -/
def aluDiv (a b : DWord) : DWord :=
  if b = 0 then BitVec.allOnes 64 else BitVec.ofInt 64 (a.toInt.tdiv b.toInt)
/-- REM: sign of ga; ga when gb = 0; 0 when ga = -2^63 and gb = -1. -/
def aluRem (a b : DWord) : DWord :=
  if b = 0 then a else BitVec.ofInt 64 (a.toInt.tmod b.toInt)
/-- MULHU: the high half of the unsigned product. -/
def aluMulhu (a b : DWord) : DWord := BitVec.ofNat 64 (a.toNat * b.toNat / 2 ^ 64)
/-- CLZ: 64 for 0. -/
def aluClz (a : DWord) : DWord :=
  BitVec.ofNat 64 ((List.range 64).takeWhile (fun i => !a.getLsbD (63 - i))).length
/-- CTZ: 64 for 0. -/
def aluCtz (a : DWord) : DWord :=
  BitVec.ofNat 64 ((List.range 64).takeWhile (fun i => !a.getLsbD i)).length
/-- POPC. -/
def aluPopc (a : DWord) : DWord := BitVec.ofNat 64 (popCount a.toNat 64)
/-- BSWAP: 8 bytes reversed. -/
def aluBswap (a : DWord) : DWord := BitVec.ofNat 64 (leNat (natLe a.toNat 8).reverse)
/-- BSWAP32: the low 4 bytes reversed, zero-extended. -/
def aluBswap32 (a : DWord) : DWord := BitVec.ofNat 64 (leNat (natLe a.toNat 4).reverse)
/-- One's-complement addition of 16-bit values, with end-around carry. -/
def addOnes (x y : Nat) : Nat := let t := x + y; if 0x10000 ≤ t then t - 0xFFFF else t
/-- CSUM: the one's-complement sum of the four lanes of ga and the four of gb, not complemented. -/
def aluCsum (a b : DWord) : DWord :=
  let lane (v : Nat) (i : Nat) := bits v (16 * i + 15) (16 * i)
  BitVec.ofNat 64 (((List.range 4).map (lane a.toNat) ++ (List.range 4).map (lane b.toNat)).foldl addOnes 0)

/-- EXT: (ga >> pos) & (2^width - 1). -/
def aluExt (a : DWord) (pos w1 : BitVec 6) : DWord := (a >>> pos.toNat) &&& fieldMask w1
/-- INS: the field of gd is replaced by the low bits of ga; bits beyond 63 are discarded. -/
def aluIns (d a : DWord) (pos w1 : BitVec 6) : DWord :=
  let m := fieldMask w1 <<< pos.toNat
  (d &&& ~~~m) ||| (((a &&& fieldMask w1) <<< pos.toNat) &&& m)
/-- MOVK: 16-bit lane k of gd. -/
def aluMovk (d : DWord) (k : BitVec 2) (i : BitVec 16) : DWord :=
  let m := (0xFFFF : DWord) <<< (16 * k.toNat)
  (d &&& ~~~m) ||| (zext16 i <<< (16 * k.toNat))

/-- An instruction that writes gd with a function of ga and gb (A format). -/
def State.aluRR (s : State) (i : Issue) (gd ga gb : BitVec 5) (f : DWord → DWord → DWord) : State :=
  s.issue i .both [gd, ga, gb] (fun s =>
    let x := issuerNum i.who
    .next (s.setReg x gd.toNat (f (s.reg x ga.toNat) (s.reg x gb.toNat))))

/-- An instruction that writes gd with a function of ga alone. -/
def State.aluR (s : State) (i : Issue) (gd ga : BitVec 5) (f : DWord → DWord) : State :=
  s.issue i .both [gd, ga] (fun s =>
    let x := issuerNum i.who
    .next (s.setReg x gd.toNat (f (s.reg x ga.toNat))))

/-- An instruction that writes gd with a function of its old value and of ga (INS, MOVK). -/
def State.aluD (s : State) (i : Issue) (gd ga : BitVec 5) (f : DWord → DWord → DWord) : State :=
  s.issue i .both [gd, ga] (fun s =>
    let x := issuerNum i.who
    .next (s.setReg x gd.toNat (f (s.reg x gd.toNat) (s.reg x ga.toNat))))

/-- A conditional branch on ga (B format, R65). -/
def State.branchIf (s : State) (i : Issue) (ga : BitVec 5) (off : BitVec 21) (c : DWord → Bool) : State :=
  s.issue i .both [ga] (fun s =>
    if c (s.reg (issuerNum i.who) ga.toNat) then .jump (branchTarget (s.pcOf i.who) off) s else .next s)

/-- A jump to the address in ga: ALIGN when not word-aligned, SPACE at or above 65,536 (R65); the link value
pc + 4 goes to `link`, if any. -/
def State.jumpTo (s : State) (i : Issue) (ga : BitVec 5) (link : Option (BitVec 5)) : State :=
  s.issue i .both (ga :: link.toList) (fun s =>
    let x := issuerNum i.who
    let t := (s.reg x ga.toNat).toNat
    if t % 4 ≠ 0 then .exc .align
    else if 0x10000 ≤ t then .exc .space
    else match link with
      | some r => .jump t (s.setReg x r.toNat (BitVec.ofNat 64 (s.pcOf i.who + 4)))
      | none => .jump t s)

/-- CALL: link register g31 (s15) := pc + 4, then branch (R65). -/
def State.call (s : State) (i : Issue) (off : BitVec 21) : State :=
  s.issue i .both [] (fun s =>
    let r := match i.who with | .thr _ => 31 | .seq _ => 15
    .jump (branchTarget (s.pcOf i.who) off)
      (s.setReg (issuerNum i.who) r (BitVec.ofNat 64 (s.pcOf i.who + 4))))

/-- RDTM: gd := TBM whole nanoseconds at issue. -/
def State.rdtm (s : State) (i : Issue) (gd : BitVec 5) : State :=
  s.issue i .both [gd] (fun s => .next (s.setReg (issuerNum i.who) gd.toNat (BitVec.ofNat 64 s.now)))

/-- RDID: 8u + t in a unit, 64 + n in sequencer n (R65). -/
def State.rdid (s : State) (i : Issue) (gd : BitVec 5) : State :=
  s.issue i .both [gd] (fun s =>
    let v := match i.who with | .thr t => t.val | .seq n => 64 + n.val
    .next (s.setReg (issuerNum i.who) gd.toNat (BitVec.ofNat 64 v)))

end Sys2Proof.Machine
end

