-- ==== Sys2Proof/Machine/Dram.lean ====
section
/-! DEFINITION. The DRAM controller (chapter 14): arbitration, panic, ECC accounting, refresh, frequency change and
training.  The data of an access moves in the command that makes it; here it is timed and checked. -/

namespace Sys2Proof.Machine

/-- Ports 0 to 6 end every request as a lasting error: a class-U source of DMC at L2, or training failed (R392, R397). -/
def State.xmDead (s : State) : Bool := s.halted [498, 499, 503, 505] || s.get F.DMC_TRAIN_STAT_RESULT == 3

/-- `DMC.CTL.HOLD_AIR` holds commits during a frequency change and training (R390, R392). -/
def State.airHeld (s : State) : Bool :=
  s.on F.DMC_CTL_HOLD_AIR && (s.on F.DMC_STAT_FBUSY || s.on F.DMC_STAT_TBUSY)

/-! ### Panic (R383, R384) -/

/-- Ports in panic, as `DMC.STAT.PANIC` shows them, after any change of a buffer's level: each entry counts. -/
def State.panicUpdate (s : State) : State :=
  let want (p : Nat) : Bool :=
    s.domOn 4 && (if p = 0 then !s.dmc.txLow.isEmpty || !s.dmc.rxLow.isEmpty else !s.dmc.cuLow.isEmpty)
  forEach [0, 1] (fun p s =>
    let was := s.fbit F.DMC_STAT_PANIC p
    let s := s.putBit F.DMC_STAT_PANIC p (want p)
    if want p && !was then (s.bump F.DMC_PANIC_CNT_PANICS 1).raiseSec 501 else s) s

/-- Add to a list without repeats. -/
def addOnce (l : List Nat) (x : Nat) : List Nat := if l.contains x then l else l ++ [x]

/-- Radio `n`'s transmit stream buffer falls below TX_LO during a PPDU (R383). -/
def State.txStreamLow (s : State) (n : Nat) : State :=
  ({ s with dmc := { s.dmc with txLow := addOnce s.dmc.txLow n } } : State).panicUpdate

/-- Radio `n`'s receive buffer has less than RX_LO free (R383). -/
def State.rxBufLow (s : State) (n : Nat) : State :=
  ({ s with dmc := { s.dmc with rxLow := addOnce s.dmc.rxLow n } } : State).panicUpdate

/-- A transmit stream buffer empties during a PPDU (R384). -/
def State.txUnderrun (s : State) (n : Nat) : State :=
  (({ s with dmc := { s.dmc with txLow := addOnce s.dmc.txLow n } } : State).panicUpdate.bump
    F.DMC_PANIC_CNT_UNDERRUN 1).raise 502

/-- Free bytes `free` of copper port `c`'s receive buffer against RX_LO and HYST (R383). -/
def State.cuLevel (s : State) (c free : Nat) : State :=
  let lo := 1024 * s.get F.DMC_PANIC_CFG_RX_LO
  let low := s.dmc.cuLow
  let low := if free < lo then addOnce low c
    else if lo + 1024 * s.get F.DMC_PANIC_CFG_HYST ≤ free then low.filter (· != c) else low
  ({ s with dmc := { s.dmc with cuLow := low } } : State).panicUpdate

/-- Radio levels that have moved HYST back past their threshold: 0 - 2 transmit streams, 3 - 5 receive buffers. -/
def State.levelsBack (s : State) (back : List Nat) : State :=
  ({ s with dmc := { s.dmc with txLow := s.dmc.txLow.filter (fun n => !back.contains n),
                                rxLow := s.dmc.rxLow.filter (fun n => !back.contains (3 + n)) } } : State).panicUpdate

/-! ### Address map (R376) -/

/-- Bytes of one rank, both channels (R374). -/
def State.rankBytes (s : State) : Nat := 2 ^ 31 * 2 ^ min 2 (s.get F.DMC_CTL_DENS)

/-- Channel of a raw address. -/
def State.dramChannel (s : State) (a : Nat) : Nat :=
  let m := s.get F.DMC_CTL_MAP
  if m = 0 then bits a 11 11 else if m = 3 then Nat.xor (Nat.xor (bits a 6 6) (bits a 12 12)) (Nat.xor (bits a 16 16) (bits a 20 20))
  else bits a 6 6

/-- Bank of a raw address: rank, channel and bank as one number. -/
def State.dramBank (s : State) (a : Nat) : Nat :=
  let m := s.get F.DMC_CTL_MAP
  let b := if m < 2 then bits a 15 12 else Nat.xor (bits a 15 12) (bits a 19 16)
  32 * (a / s.rankBytes) + 16 * s.dramChannel a + b

/-- Row of a raw address. -/
def State.dramRow (s : State) (a : Nat) : Nat := a % s.rankBytes / 2 ^ 16

/-- Column of a raw address. -/
def State.dramCol (s : State) (a : Nat) : Nat := if s.get F.DMC_CTL_MAP = 0 then bits a 10 6 else bits a 11 7

/-- Raw address of the check byte of the XM word at `a` (R386). -/
def State.checkByteAddr (s : State) (a : Nat) : Nat := (s.rankBytes * (s.get F.DMC_CTL_RANKS + 1)) / 8 * 7 + a / 8

/-! ### Arbitration (R379 - R382) -/

/-- The class a request stands in (R380): its port's, raised by age, never above HI unless the port is RT; a speculative
read is BULK (R385). -/
def State.reqClass (s : State) (r : DmcReq) : Nat :=
  let c := s.get (F.DMC_PORT_CFG_CLASS r.port)
  if r.spec then 0 else if c = 3 then 3 else min 2 (c + r.promos)

/-- Some port is in panic. -/
def State.panics (s : State) : Bool := s.get F.DMC_STAT_PANIC != 0

/-- New requests reach their ports at TBM ns `t`: those beyond XM, or while the DMC is stopped, end as lasting errors;
a prefetch is dropped while any port panics or its class queue is full (R385, R395, R397). -/
def State.dramArrive (s : State) (t : Nat) (l : List DramReq) : State :=
  forEach (sortBy (fun r => r.port.val) l) (fun r s =>
    let spec := r.spec && (r.port.val == 2 || r.port.val == 3)
    if spec && !s.on (F.DMC_PORT_CFG_SPEC r.port.val) then s
    else if s.xmMib * 0x100000 ≤ r.addr.toNat then s.raise 505
    else if s.xmDead && r.port.val != 7 then s
    else if spec && (s.panics || r.full) then s.bump F.DMC_SPEC_CNT_DROPS 1
    else
      let q : DmcReq := { port := r.port.val, addr := r.addr.toNat, write := r.write, part := r.part, spec := spec,
                          since := t, arrived := t }
      { s with dmc := { s.dmc with reqs := s.dmc.reqs ++ [q] } }) s

/-- Requests that no older request to their line holds back (R381), with their positions, oldest first. -/
def eligible : List (Nat × DmcReq) → List Nat → List (Nat × DmcReq)
  | [], _ => []
  | (i, r) :: l, lines =>
    if lines.contains (r.addr / 64) then eligible l lines else (i, r) :: eligible l (lines ++ [r.addr / 64])

/-- The row of a request's bank is open. -/
def State.rowOpen (s : State) (r : DmcReq) : Bool :=
  tabGet (fun _ => 0) s.dmc.rows (s.dramBank r.addr) == s.dramRow r.addr + 1

/-- The request the controller issues at this slot, and whether it bypasses older ones (R379, R384); `hit` says whether
it takes the bypass it may take. -/
def State.dramChoose (s : State) (hit : Bool) : Option (Nat × DmcReq × Bool) :=
  let l := eligible ((List.range s.dmc.reqs.length).zip s.dmc.reqs) []
  let panic (p : Nat) := if s.fbit F.DMC_STAT_PANIC p then l.find? (fun x => x.2.port == p) else none
  match panic 0, panic 1 with
  | some x, _ => some (x.1, x.2, false)
  | none, some x => some (x.1, x.2, false)
  | none, none =>
    let l := if s.panics then l.filter (fun x => s.reqClass x.2 != 0) else l
    match [3, 2, 1, 0].find? (fun c => l.any (fun x => s.reqClass x.2 == c)) with
    | none => none
    | some c =>
      let l := l.filter (fun x => s.reqClass x.2 == c)
      let by' := l.find? (fun x => s.rowOpen x.2
        && decide (tabGet (fun _ => 0) s.dmc.hits (s.dramBank x.2.addr) < s.get F.DMC_PANIC_CFG_ROWHIT_MAX))
      match l, by' with
      | x :: _, some y => if hit && !s.panics && y.1 != x.1 then some (y.1, y.2, true) else some (x.1, x.2, false)
      | x :: _, none => some (x.1, x.2, false)
      | [], _ => none

/-- What ECC found is counted and reported (R387). -/
def State.eccResult (s : State) (k : Ecc) : State :=
  if !s.on F.DMC_CTL_ECC_EN then s
  else match k with
    | .good => s
    | .single => (s.bump F.DMC_ECC_CNT_CE 1).raiseSec 496
    | .retry => (s.bump F.DMC_ECC_CNT_TRANS 1).raise 497
    | .lasting => (s.bump F.DMC_ECC_CNT2_UE 1).raise 498

/-- The words of a request: the one a partial write touches, or the eight of its line. -/
def reqWords (r : DmcReq) : List Nat := if r.part then [r.addr / 8] else span (r.addr / 64 * 8) (r.addr / 64 * 8 + 8)

/-- One request is carried out: ECC, poisoning (R386), the open row, and its latency, `fin` being the TBM ns of its last
beat or write acknowledgement (R382). -/
def State.dramIssue (s : State) (i : Nat) (r : DmcReq) (bypass : Bool) (k : Ecc) (fin : Nat) : State :=
  let b := s.dramBank r.addr
  let ws := reqWords r
  let reads := !r.write || r.part
  let k := if reads && ws.any (fun w => s.dmc.poison.contains w) then .lasting else if reads then k else .good
  let poison := if r.write && !r.part then s.dmc.poison.filter (fun w => !ws.contains w)
    else if r.write && k == .lasting && s.on F.DMC_CTL_ECC_EN then forEach ws (fun w l => addOnce l w) s.dmc.poison
    else s.dmc.poison
  let s := { s with dmc := { s.dmc with
    reqs := s.dmc.reqs.eraseIdx i, poison := poison,
    rows := tabSet (fun _ => 0) s.dmc.rows b (s.dramRow r.addr + 1),
    hits := tabSet (fun _ => 0) s.dmc.hits b (if bypass then tabGet (fun _ => 0) s.dmc.hits b + 1 else 0) } }
  let s := s.eccResult k
  let lat := fin - r.arrived
  let s := s.put (F.DMC_PORT_STAT_MAXLAT r.port) (max (s.get (F.DMC_PORT_STAT_MAXLAT r.port)) (min 65535 (lat / 10)))
  if 10 * s.get (F.DMC_PORT_CFG_LAT r.port) < lat then (s.bump (F.DMC_PORT_STAT_MISS r.port) 1).raiseSec 500 else s

/-- Speculative reads go while a port panics (R384). -/
def State.dropSpec (s : State) : State :=
  if s.panics then
    let n := (s.dmc.reqs.filter (fun r => r.spec)).length
    { s with dmc := { s.dmc with reqs := s.dmc.reqs.filter (fun r => !r.spec) } }.bump F.DMC_SPEC_CNT_DROPS n
  else s

/-- A command slot at TBM ns `t` (R379): requests that have reached their ports join, buffer levels that have recovered
are seen, and the chosen request is issued; none is while training, a frequency change or a quick retrain runs. -/
def State.dramRequest (s : State) (t : Nat) (new : List DramReq) (back : List Nat) (hit : Bool) (k : Ecc) (fin : Nat) : State :=
  if !s.domOn 4 || !s.on F.DMC_CTL_EN then s
  else
    let s := s.until t
    let s := ((s.levelsBack back).dramArrive s.now new).dropSpec
    if s.on F.DMC_STAT_FBUSY || s.on F.DMC_STAT_TBUSY || s.dmc.quick then s
    else match s.dramChoose hit with
      | some (i, r, by') => s.dramIssue i r by' k (max fin s.now)
      | none => s

/-- Waiting request `i` has stood PROMO in its class (R380). -/
def State.requestPromote (s : State) (i : Nat) : State :=
  match s.dmc.reqs[i]? with
  | none => s
  | some r =>
    let promo := s.get (F.DMC_PORT_CFG_PROMO r.port)
    if r.spec || promo == 0 || decide (2 ≤ s.reqClass r) then s
    else
      let s := s.until (r.since + 10 * promo)
      { s with dmc := { s.dmc with reqs := setAt s.dmc.reqs i { r with promos := r.promos + 1, since := s.now } } }

/-- Refreshes LPDDR5X lets a controller postpone (PRESUMED from JEDEC LPDDR5, log 17). -/
def postponeLimit : Nat := 8

/-- A refresh falls due (R384, R389): postponed in panic up to the limit; else done with those postponed. -/
def State.dramRefresh (s : State) : State :=
  if !s.domOn 4 || !s.on F.DMC_CTL_EN then s
  else if s.panics && decide (s.dmc.postponed < postponeLimit) then
    { s with dmc := { s.dmc with postponed := s.dmc.postponed + 1 } }
  else { s with dmc := { s.dmc with postponed := if s.panics then s.dmc.postponed else 0 } }

/-- The scrubber reads one line as BULK (R384, R388). -/
def State.scrubRead (s : State) (k : Ecc) : State :=
  if !s.domOn 4 || !s.on F.DMC_CTL_SCRUB_EN || !s.on F.DMC_STAT_READY || !s.on F.DMC_CTL_ECC_EN || s.panics
      || s.on F.DMC_STAT_FBUSY || s.on F.DMC_STAT_TBUSY then s
  else
    let lines := s.xmMib * 0x100000 / 64
    let k := if s.dmc.poison.any (fun w => w / 8 == s.dmc.scrub) then .lasting else k
    let s := { s with dmc := { s.dmc with scrub := if s.dmc.scrub + 1 < lines then s.dmc.scrub + 1 else 0 } }
    (s.eccResult k).bump F.DMC_ECC_CNT2_SCRUBFIX (if k = .single then 1 else 0)

/-! ### Frequency change and training (R390 - R394) -/

/-- Word `k` of the timing set `i`. -/
def State.tset (s : State) (i k : Nat) : Nat := s.get (if i = 0 then F.DMC_TSET0_WORD k else F.DMC_TSET1_WORD k)

/-- A mode transition runs, so that a frequency change waits (R395). -/
def State.modeBusy (s : State) : Bool := s.transiting

/-- A frequency change or training asked for starts once nothing holds it back (R390, R392, R395). -/
def State.dmcStart (s : State) : State :=
  if s.on F.DMC_STAT_FBUSY || s.on F.DMC_STAT_TBUSY || !s.on F.DMC_CTL_EN || !s.domOn 4 then s
  else if s.on F.DMC_CTL_FCHG && !s.modeBusy then s.put F.DMC_STAT_FBUSY 1
  else if s.on F.DMC_CTL_TRAIN then s.put F.DMC_STAT_TBUSY 1
  else s

/-- FCHG (R390). -/
def State.frequencyChange (s : State) : State :=
  if s.on F.DMC_CTL_EN then (s.put F.DMC_CTL_FCHG 1).dmcStart else s

/-- TRAIN (R392). -/
def State.dramTrain (s : State) : State :=
  if s.on F.DMC_CTL_EN then (s.put F.DMC_CTL_TRAIN 1).dmcStart else s

/-- A committed PPDU's exchange still runs on some radio (R390). -/
def State.exchangeRuns (s : State) : Bool :=
  s.air.sq.any (fun x => [x.husk0, x.husk1].any (fun h => match h with | some h => h.st == 3 | none => false))

/-- A frequency change ends (R390): with the other set, or with the old one and source 503. -/
def State.frequencyDone (s : State) (ok : Bool) : State :=
  if !s.on F.DMC_STAT_FBUSY || (s.on F.DMC_CTL_HOLD_AIR && s.exchangeRuns) then s
  else
    let t := 1 - s.get F.DMC_STAT_TSET
    let rate := bits (s.tset t 0) 2 0
    let s := (s.put F.DMC_STAT_FBUSY 0).put F.DMC_CTL_FCHG 0
    let s := if ok then (s.put F.DMC_STAT_TSET t).put F.DMC_STAT_RATE (min 5 rate) else s.raise 503
    s.dmcStart

/-- Training ends (R392): 0 passed, 1 passed on the retry, else failed. -/
def State.trainDone (s : State) (r : Nat) : State :=
  if !s.on F.DMC_STAT_TBUSY then s
  else
    let s := (s.put F.DMC_STAT_TBUSY 0).put F.DMC_CTL_TRAIN 0
    let s := if r < 2 then
        let s := { s with dmc := { s.dmc with trained := true, dqsAt := s.now } }
        (s.put F.DMC_TRAIN_STAT_RESULT (r + 1)).put F.DMC_STAT_READY (s.get F.DMC_CTL_EN)
      else ((s.put F.DMC_TRAIN_STAT_RESULT 3).put F.DMC_STAT_READY 0).raise 499
    s.dmcStart

/-- A quick retrain ends (R393): READY, or full training follows. -/
def State.quickDone (s : State) (ok : Bool) : State :=
  if !s.dmc.quick then s
  else
    let s := { s with dmc := { s.dmc with quick := false } }
    if ok then { s with dmc := { s.dmc with dqsAt := s.now } }.put F.DMC_STAT_READY (s.get F.DMC_CTL_EN)
    else ((s.put F.DMC_STAT_READY 0).put F.DMC_CTL_TRAIN 1).put F.DMC_STAT_TBUSY 1

/-- The DQS oscillators are read every 100 ms (R394); `ok`: the drift is within the correction range. -/
def State.dqsCheck (s : State) (ok : Bool) : State :=
  if !s.domOn 4 || !s.on F.DMC_STAT_READY || s.dmc.quick then s
  else
    let s := s.until (s.dmc.dqsAt + 100000000)
    let s := { s with dmc := { s.dmc with dqsAt := s.now } }
    if ok then s
    else ({ s with dmc := { s.dmc with quick := true } }.bump F.DMC_TRAIN_STAT_RETRAINS 1).raise 504

/-- A write of `DMC.CTL` (R377, R390, R392): MAP, DENS, RANKS and ECC_EN hold while EN is 1, and a change of any of them
loses the contents, which read as memory that nothing has written (log 1). -/
def State.dmcCtlWrite (s : State) (v : Word) : State :=
  let old := (s.word F.DMC_CTL_EN.addr).toNat
  let w := v.toNat
  let held := bit old 0
  let keep := if held then setBits w 6 1 (bits old 6 1) else w
  let w := setBits (keep % 2 ^ 12) 9 7 (bits old 9 7)
  let s := s.setWord F.DMC_CTL_EN.addr (BitVec.ofNat 32 w)
  let s := if bits w 6 1 ≠ bits old 6 1 then { s with xm := [], dmc := { s.dmc with poison := [], rows := [], scrub := 0 } } else s
  let s := if !bit w 0 then s.put F.DMC_STAT_READY 0
    else if s.dmc.trained && !s.dmc.quick && s.get F.DMC_TRAIN_STAT_RESULT != 3 then s.put F.DMC_STAT_READY 1 else s
  let s := if bit v.toNat 9 then s.frequencyChange else s
  if bit v.toNat 8 then s.dramTrain else s

/-- A write of a timing-set word (R390): the active set does not change.  DEDUCED (log 17): words 21 to 31, which R391 calls
reserved, hold what is written, for R396 lists all 32 words as rw [31:0]. -/
def State.tsetWrite (s : State) (i k : Nat) (v : Word) : State :=
  if s.get F.DMC_STAT_TSET = i then s else s.setWord (if i = 0 then F.DMC_TSET0_WORD k else F.DMC_TSET1_WORD k).addr v

end Sys2Proof.Machine
end

