-- ==== Sys2Proof/Machine/Memory.lean ====
section
/-! DEFINITION. Loads, stores, atomics, the packet window and the fences (R33 - R37, R66 - R68). -/

namespace Sys2Proof.Machine

/-- A memory check's effect in cluster `c` when it did not last: source 385 + 4c for a correction (R44). -/
def State.corrected (s : State) (k : Check) (x : Issuer) : State :=
  match k, x with
  | .corrected, .thr t => s.raise (385 + 4 * clusterOf t.val)
  | _, _ => s

/-- Bytes of sequencer `n`'s SD. -/
def State.sdBytes (s : State) (n a k : Nat) : List Byte := memBytes s.sd (0x4000 * n + a) k

/-- Write bytes of sequencer `n`'s SD. -/
def State.sdPut (s : State) (n a : Nat) (bs : List Byte) : State :=
  { s with sd := memPutBytes s.sd (0x4000 * n + a) bs }

/-- A load of `n` bytes (R66).  LM, SD and a data-cache hit complete in the pipeline; a CM or XM miss and every
GM load hold the thread until LOAD_RESULT.  The thread's own buffered stores are seen first (R34). -/
def State.load (s : State) (i : Issue) (gd ga : BitVec 5) (sp : Nat) (off : BitVec 14) (n : Nat) (sext : Bool)
    (k : Check) : State :=
  s.issue i .both [gd, ga] (fun s =>
    let x := issuerNum i.who
    let a := mAddress (s.reg x ga.toNat) off
    match s.accessCheck i.who sp a n false with
    | some e => .exc e
    | none =>
      match i.who with
      | .seq q =>
        if k = .lasting then .exc .ecc
        else .next (s.setReg x gd.toNat (loadValue (s.sdBytes q.val a n) sext))
      | .thr t =>
        let u := unitOf t.val
        let own := ownBytes sp (s.thread t.val).sbuf
        let done (bs : List Byte) : Flow :=
          if k = .lasting then .exc .ecc
          else .next ((s.corrected k i.who).setReg x gd.toNat (loadValue (overlay own a bs) sext))
        if sp = 0 then done (s.spaceBytes u sp a n)
        else match (if sp = 2 then none else s.cacheLine u sp a) with
          | some l => done ((l.bytes.drop (a % 64)).take n)
          | none => .stay (s.setThread t.val { s.thread t.val with st := .wait (.load gd.toNat sp a n sext own) }))

/-- The data of a load miss returns to thread `t` (R29): the line fills for CM and XM, gd takes the value and the
thread goes on; a lasting error raises ECC. -/
def State.loadResult (s : State) (t : Fin 512) (k : Check) : State :=
  match (s.thread t.val).st with
  | .wait (.load gd sp a n sext own) =>
    if k = .lasting ∨ (sp = 3 ∧ s.xmDead) then s.exception (.thr t) .ecc
    else
      let u := unitOf t.val
      let s := s.corrected k (.thr t)
      let s := if sp = 2 then s else if (s.cacheLine u sp a).isSome then s else s.fillLine u sp a
      let s := s.setReg t.val gd (loadValue (overlay own a (s.spaceBytes u sp a n)) sext)
      s.setThread t.val { s.thread t.val with st := .run, pc := ((s.thread t.val).pc + 4) % 0x10000 }
  | _ => s

/-- A store of the low `n` bytes of gd (R35, R66): to LM and SD at once, otherwise into the 8-entry store buffer;
a full buffer holds the thread. -/
def State.store (s : State) (i : Issue) (gd ga : BitVec 5) (sp : Nat) (off : BitVec 14) (n : Nat) : State :=
  s.issue i .both [gd, ga] (fun s =>
    let x := issuerNum i.who
    let a := mAddress (s.reg x ga.toNat) off
    let bs := storeBytes (s.reg x gd.toNat) n
    match s.accessCheck i.who sp a n true with
    | some e => .exc e
    | none =>
      match i.who with
      | .seq q => .next (s.sdPut q.val a bs)
      | .thr t =>
        if sp = 0 then .next (s.spacePut (unitOf t.val) 0 a bs)
        else
          let th := s.thread t.val
          if th.sbuf.length < 8 then .next (s.setThread t.val { th with sbuf := th.sbuf ++ [⟨sp, a, bs⟩] })
          else .stay (s.setThread t.val { th with st := .wait (.store ⟨sp, a, bs⟩) }))

/-- The oldest store of thread `t` leaves its buffer and becomes visible; a store held by a full buffer, or a
FENCE.D whose buffer is now empty, goes on (R35, R36). -/
def State.drainStore (s : State) (t : Fin 512) : State :=
  match (s.thread t.val).sbuf with
  | [] => s
  | e :: rest =>
    let s := if e.space = 3 ∧ s.xmDead then s else s.storeLand t.val e
    let th := { s.thread t.val with sbuf := rest }
    match th.st with
    | .wait (.store w) =>
      s.setThread t.val { th with sbuf := rest ++ [w], st := .run, pc := (th.pc + 4) % 0x10000 }
    | .wait .fenceD =>
      if rest = [] then s.setThread t.val { th with st := .run, pc := (th.pc + 4) % 0x10000 }
      else s.setThread t.val th
    | _ => s.setThread t.val th

/-- AADD and ASWP (R67): 8 aligned bytes of LM become `f old gd`, and gd takes the old value; other spaces raise
SPACE. -/
def State.atomic (s : State) (i : Issue) (gd ga : BitVec 5) (sp : Nat) (off : BitVec 14)
    (f : DWord → DWord → DWord) (k : Check) : State :=
  s.issue i .p [gd, ga] (fun s =>
    let x := issuerNum i.who
    let a := mAddress (s.reg x ga.toNat) off
    if sp ≠ 0 then .exc .space
    else match i.who, s.accessCheck i.who 0 a 8 true with
      | .thr t, none =>
        if k = .lasting then .exc .ecc
        else
          let s := s.corrected k i.who
          let old := loadValue (s.spaceBytes (unitOf t.val) 0 a 8) false
          let s1 := s.spacePut (unitOf t.val) 0 a (storeBytes (f old (s.reg x gd.toNat)) 8)
          .next (s1.setReg x gd.toNat old)
      | _, some e => .exc e
      | .seq _, none => .exc .illegal)

/-- The pw address of PWL and PWS: ga plus the 9-bit offset (R68). -/
def pwAddress (ga : DWord) (off : BitVec 9) : Nat := (ga + off.zeroExtend 64).toNat

/-- Bytes in network order when asked for (R68). -/
def byteOrder (be : Bool) (bs : List Byte) : List Byte := if be then bs.reverse else bs

/-- PWL (R68): 1, 2, 4 or 8 bytes of pw, in either byte order, zero- or sign-extended. -/
def State.pwLoad (s : State) (i : Issue) (gd ga : BitVec 5) (off : BitVec 9) (size : Fin 4) (be sext : Bool) : State :=
  s.issue i .p [gd, ga] (fun s =>
    let x := issuerNum i.who
    let a := pwAddress (s.reg x ga.toNat) off
    let n := 2 ^ size.val
    if 512 < a + n then .exc .space
    else .next (s.setReg x gd.toNat (loadValue (byteOrder be (s.pwBytes x a n)) sext)))

/-- PWS (R68). -/
def State.pwStore (s : State) (i : Issue) (gd ga : BitVec 5) (off : BitVec 9) (size : Fin 4) (be : Bool) : State :=
  s.issue i .p [gd, ga] (fun s =>
    let x := issuerNum i.who
    let a := pwAddress (s.reg x ga.toNat) off
    let n := 2 ^ size.val
    if 512 < a + n then .exc .space
    else .next (s.pwPut x a (byteOrder be (storeBytes (s.reg x gd.toNat) n))))

/-- FENCE.D holds the thread until its store buffer is empty (R36). -/
def State.fenceD (s : State) (i : Issue) : State :=
  s.issue i .p [] (fun s =>
    match i.who with
    | .thr t =>
      let th := s.thread t.val
      if th.sbuf = [] then .next s else .stay (s.setThread t.val { th with st := .wait .fenceD })
    | .seq _ => .exc .illegal)

/-- FENCE.X invalidates every XM line of the unit's data cache (R37); its wait of at most 4 clocks is not modelled. -/
def State.fenceX (s : State) (i : Issue) : State :=
  s.issue i .p [] (fun s =>
    match i.who with
    | .thr t => .next (s.dropLines (fun l => l.unit == unitOf t.val && l.space == 3))
    | .seq _ => .exc .illegal)

end Sys2Proof.Machine
end

