-- ==== Sys2Proof/Machine/Egress.lean ====
section
/-! DEFINITION. The six egresses: their levels and back-pressure (R324, R325), and what each port does with a
packet passed to it (R70, R148, R204, R247, R275, R423, R452). -/

namespace Sys2Proof.Machine

/-- Base of radio `n`'s link table (R231): bits [4:0] ignored. -/
def State.linkBase (s : State) (n : Nat) : Nat := s.get (F.MX_LINK_BASE_ADDR n) / 32 * 32

/-- The link table lies inside the Granary (R231). -/
def State.linkTableOk (s : State) (n : Nat) : Bool := decide (s.linkBase n + 0x10000 ≤ Config.granaryBytes)

/-- The link record of station `st` on radio `n`: byte `off`, `k` bytes (R201); 0 when the table cannot be read. -/
def State.linkNat (s : State) (n st off k : Nat) : Nat :=
  if s.linkTableOk n then memNat s.gm (s.linkBase n + 32 * st + off) k else 0

/-- Write `k` bytes of a link record. -/
def State.linkPut (s : State) (n st off k v : Nat) : State :=
  if s.linkTableOk n then { s with gm := memPutNat s.gm (s.linkBase n + 32 * st + off) k v } else s

/-- CFG word of a link record (R201). -/
def State.linkCfg (s : State) (n st : Nat) : Nat := s.linkNat n st 0 4

/-- The station has a present link on radio `n`. -/
def State.linkPresent (s : State) (n st : Nat) : Bool := bit (s.linkCfg n st) 0

/-- The station index may be queued to: a present link, or a present group endpoint (R148, R203, R204). -/
def State.stationKnown (s : State) (st : Nat) : Bool := [0, 1, 2].any (fun n => s.linkPresent n st)

/-- The station is associated: some present link record that is no group endpoint and not the parent (R203). -/
def State.associated (s : State) (st : Nat) : Bool :=
  [0, 1, 2].any (fun n => s.linkPresent n st && !bit (s.linkCfg n st) 1 && !bit (s.linkCfg n st) 2)

/-- Packets queued to an egress and target. -/
def State.queued (s : State) (kind target : Nat) : List EgItem :=
  s.hts.egress.filter (fun i => i.kind == kind && i.target == target)

/-- Queued packets that count against a station's or node's limit: those an undo returned do not (R183, R268). -/
def State.limited (s : State) (kind target : Nat) : Nat := ((s.queued kind target).filter (fun i => !i.ret)).length

/-- Asserting and clearing back-pressure against the present thresholds (R325). -/
def State.egressCompare (s : State) (k : Nat) : State :=
  let lvl := s.get (F.HTS_EG_LVL_PKTS k)
  let xoff := max 1 (s.get (F.HTS_EG_BP_XOFF k))
  let xon := min (s.get (F.HTS_EG_BP_XON k)) xoff
  if !s.on (F.HTS_EG_BP_ON k) && decide (xoff * 256 ≤ lvl) then (s.put (F.HTS_EG_BP_ON k) 1).raiseSec 371
  else if s.on (F.HTS_EG_BP_ON k) && decide (lvl ≤ xon * 256) then s.put (F.HTS_EG_BP_ON k) 0
  else s

/-- `n` packets of egress `k` have been sent, dropped by the port or freed: the level falls (R324). -/
def State.egressFall (s : State) (k n : Nat) : State :=
  if 6 ≤ k then s
  else
    let s := s.put (F.HTS_EG_LVL_PKTS k) (s.get (F.HTS_EG_LVL_PKTS k) - n)
    let xoff := max 1 (s.get (F.HTS_EG_BP_XOFF k))
    if s.on (F.HTS_EG_BP_ON k)
        && decide (s.get (F.HTS_EG_LVL_PKTS k) ≤ min (s.get (F.HTS_EG_BP_XON k)) xoff * 256)
    then s.put (F.HTS_EG_BP_ON k) 0 else s

/-- Body limit of an emitted Pip frame by TYPE (R245, R247); none for a TYPE that is not sent this way. -/
def pipBodyLimit (type : Nat) : Option Nat :=
  if type = 1 then some 80 else if type = 5 then some 80 else if type = 7 then some 80 else none

/-- MAXLEN as it takes effect (R293). -/
def State.cuMaxLen (s : State) (c : Nat) : Nat := min 9600 (max 64 (s.get (F.CU_MAXLEN_LEN c)))

/-- What the port does with a packet instead of queueing it: the drop's effect, or none when it is queued. -/
def State.portDrop (s : State) (it : EgItem) : Option State :=
  let len := it.pkt.bytes.length
  if it.kind ≤ 1 then                                                       -- R275
    if !s.on (F.CU_STAT_UP it.kind) then some (s.bump (F.CU_EGCNT_DOWN it.kind) 1)
    else if s.cuMaxLen it.kind < len + 4 then some (s.bump (F.CU_EGCNT_LONG it.kind) 1)
    else none
  else if it.kind = 2 then                                                  -- R423, R425
    let full := decide (max 1 (s.get (F.HSTQ_QP_RXLIM_FRAMES it.target)) ≤ (s.queued 2 it.target).length)
    if full || !s.on (F.HSTQ_QP_CTL_EN it.target) || s.on (F.HSTQ_QP_CTL_HALTED it.target)
        || !s.on F.HST_LINK_UP then
      some ((s.bump (F.HSTQ_QP_CNT2_RXDROP it.target) 1).raiseSec 564)
    else none
  else if it.kind = 3 then                                                  -- R440, R452
    if 15 ≤ s.get (F.FED_ROUTE_HOPS it.target) || !s.on F.FED_STAT_SERVE || !s.fbit F.FED_REACH_SET it.target then
      some ((s.bump F.FED_CNT2_NOROUTE 1).raiseSec 584)
    else none
  else if it.kind = 4 then                                                  -- R148, R204
    if !s.stationKnown it.target then some (s.bump F.SQA_QDROP_NOASSOC 1)
    else if max 1 (s.get F.SQA_QLIM_FRAMES) ≤ s.limited 4 it.target then some (s.bump F.SQA_QDROP_QFULL 1)
    else none
  else                                                                       -- R247
    match it.pkt.bytes with
    | [] => some (s.bump F.PIP_EGDROP_TYPE 1)
    | b :: body =>
      match pipBodyLimit (b.toNat % 16) with
      | none => some (s.bump F.PIP_EGDROP_TYPE 1)
      | some lim =>
        if lim < body.length then some (s.bump F.PIP_EGDROP_SIZE 1)
        else if max 1 (s.get F.PIP_QLIM_FRAMES) ≤ s.limited 5 it.target then some (s.bump F.PIP_QDROP_QFULL 1)
        else none

/-- A packet reaches its egress (R324): against the level it is dropped at MAX, otherwise the port drops it
under its own rules or it is queued and the level rises; KIND 6 goes back to the parser (R307). -/
def State.egressPut (s : State) (it : EgItem) : State :=
  if it.kind = 6 then { s with recirc := s.recirc ++ [{ it.pkt with start := it.target }] }
  else if 6 < it.kind then s
  else
    let k := it.kind
    let max := s.get (F.HTS_EG_BP_MAX k)
    if max ≠ 0 ∧ max * 256 ≤ s.get (F.HTS_EG_LVL_PKTS k) then
      (s.bump (F.HTS_EGDROP_COUNT k) 1).raiseSec 372
    else match s.portDrop it with
      | some t => t
      | none =>
        let s := { s with hts := { s.hts with egress := s.hts.egress ++ [it] } }
        let s := s.put (F.HTS_EG_LVL_PKTS k) (s.get (F.HTS_EG_LVL_PKTS k) + 1)
        if !s.on (F.HTS_EG_BP_ON k)
            && decide (max' k s * 256 ≤ s.get (F.HTS_EG_LVL_PKTS k)) then
          (s.put (F.HTS_EG_BP_ON k) 1).raiseSec 371
        else s
where
  /-- XOFF, 0 taken as 1 (R330). -/
  max' (k : Nat) (s : State) : Nat := max 1 (s.get (F.HTS_EG_BP_XOFF k))

/-- Free the queued packets that a test accepts: they leave their queues and their levels fall. -/
def State.freeQueued (s : State) (p : EgItem → Bool) : State :=
  let gone := s.hts.egress.filter p
  let s := { s with hts := { s.hts with egress := s.hts.egress.filter (fun i => !p i) } }
  forEach gone (fun i s => s.egressFall i.kind 1) s

end Sys2Proof.Machine
end

