-- ==== Sys2Proof/Machine/Hts.lean ====
section
/-! DEFINITION. The task scheduler (chapter 11): creating a task, homes and dispatch, ordered release,
CLMAP, injection, flush, starvation, and what fences and power-downs do to tasks and places. -/

namespace Sys2Proof.Machine

/-- Who asks for a creation (R313). -/
inductive Creator where
  | classifier
  | fork
  | injection
deriving DecidableEq, Repr

/-- The task-store limit of a creator (R316, R330). -/
def State.storeLimit (s : State) : Creator → Nat
  | .classifier => min 16384 (s.get F.HTS_TS_LIM_PARSER)
  | .injection => min 16384 (s.get F.HTS_TS_LIM_INJ)
  | .fork => 16384

/-- The slice refuses the creation (R316); a halted or unpowered slice creates nothing (R331). -/
def State.refuses (s : State) (c : Creator) (k : Task) : Bool :=
  s.on F.HTS_CTL_PAUSE
  || decide (s.storeLimit c ≤ s.storeCount k.region)
  || ((k.await1 || k.await2) && decide (3968 ≤ s.matchCount k.region))
  || (k.ordered && (match s.homeCluster k.region k.tag with
        | some h => decide (4096 ≤ s.robCount h)
        | none => false))
  || s.sliceHalted k.region || !s.sliceOn k.region || s.stopped

/-- A slice accepts a creation (R314, R315): the task takes the next creation order, its place if it is ordered
(R322), and joins its ready list at once when no operand is awaited. -/
def State.accept (s : State) (k : Task) : State :=
  let k := { k with id := s.hts.nextId, made := s.now, since := s.now }
  let place : Place := ⟨k.id, k.tag, k.region, (s.homeCluster k.region k.tag).getD (4 * k.region), false, none, false⟩
  let ps := if k.ordered then s.hts.places ++ [place] else s.hts.places
  { s with hts := { s.hts with nextId := s.hts.nextId + 1, tasks := s.hts.tasks ++ [k], places := ps } }

/-- Ask a slice for a creation: the new state, or none when it is refused (R316). -/
def State.createTask (s : State) (c : Creator) (k : Task) : Option State :=
  if s.refuses c k then none else some (s.accept k)

/-- Unit `u` takes tasks: an image, power, no fence, no load step (R39, R48, R53, R319). -/
def State.takesTasks (s : State) (u : Nat) : Bool :=
  s.hasImage u && s.clusterRuns (u / 4) && !s.loadHolds u

/-- Threads of unit `u` in IDLE. -/
def State.idleThreads (s : State) (u : Nat) : List Nat :=
  if s.takesTasks u then ((List.range 8).map (8 * u + ·)).filter (fun t => (s.thread t).st == .idle) else []

/-- Priority of a task class (R321). -/
def State.classPri (s : State) (cls : Nat) : Nat :=
  bits (s.get (F.HTS_CLASS_PRI_P (cls / 16))) (2 * (cls % 16) + 1) (2 * (cls % 16))

/-- The atomic lock of a tag is held in cluster `c` (R320). -/
def State.lockHeld (s : State) (c tag : Nat) : Bool := s.hts.locks.any (fun l => l.1 == c && l.2.1 == tag)

/-- An earlier atomic task of the same tag in the same region still waits (R320: they run in creation order). -/
def State.earlierAtomic (s : State) (k : Task) : Bool :=
  s.hts.tasks.any (fun j => j.atomic && j.tag == k.tag && j.region == k.region && decide (j.id < k.id))

/-- A ready task that may be dispatched in cluster `c` now (R319, R320). -/
def State.dispatchable (s : State) (c : Nat) (k : Task) : Bool :=
  !k.await1 && !k.await2 && s.homeCluster k.region k.tag == some c
  && !(k.atomic && (s.lockHeld c k.tag || s.earlierAtomic k))

/-- The oldest dispatchable task of the highest priority that has one (R321). -/
def State.nextTask (s : State) (c : Nat) : Option Task :=
  let l := s.hts.tasks.filter (s.dispatchable c)
  minBy (fun k => (3 - s.classPri k.cls) * 2 ^ 64 + k.id) l

/-- The unit of cluster `c` that takes a task of `tag`: the affine unit when it may, else the unit with most idle
threads, ties to the lowest number (R319). -/
def State.chooseUnit (s : State) (c tag : Nat) : Option Nat :=
  let a := tabGet (fun _ => {}) s.hts.affin (1024 * c + tag % 1024)
  let us := (List.range 4).map (4 * c + ·)
  if s.on F.HTS_CTL_AFF_EN && a.unit < 64 && a.tag == tag && !(s.idleThreads a.unit).isEmpty then some a.unit
  else minBy (fun u => (8 - (s.idleThreads u).length) * 64 + u) (us.filter (fun u => !(s.idleThreads u).isEmpty))

/-- Start a task on a thread with the state of R30 and its parse record in GM (R309). -/
def State.startTask (s : State) (t : Nat) (k : Task) : State :=
  let handle := match k.pkt with | some p => handleOf p | none => 0
  let g6 := k.mask % 16 + k.cls * 16
  let g7 := match k.pkt with | some p => p.stamp | none => k.made
  let vals : List DWord := [0, BitVec.ofNat 64 (k.tag + b2n k.atomic * 2 ^ 32 + b2n k.ordered * 2 ^ 33), handle,
    BitVec.ofNat 64 k.op1, BitVec.ofNat 64 k.op2, BitVec.ofNat 64 k.op3, BitVec.ofNat 64 g6, BitVec.ofNat 64 g7]
    ++ List.replicate 24 0
  let s := s.setRegs t 0 vals
  let head := match k.pkt with | some p => p.bytes.take 512 | none => []
  let s := s.pwPut t 0 (head ++ List.replicate (512 - head.length) 0)
  let rec' := match k.pkt with | some p => p.record | none => []
  let at' := s.get F.PRS_PREC_BASE_ADDR / 0x10000 * 0x10000 + 128 * t
  let s := { s with gm := memPutBytes s.gm at' (rec' ++ List.replicate (128 - rec'.length) 0) }
  let entry := memNat s.yal.im (0x10000 * unitOf t + 4 * k.cls) 4
  s.setThread t { s.thread t with
    st := .run, pc := entry % 0x10000, task := some k, held := k.pkt, cpin := k.pin, pins := [], ordr := false,
    instrs := 0, slots := [.empty, .empty, .empty, .empty] }

/-- A dispatched task whose parse record could not be written (R310, R312): its packet is dropped, and its place, lock
and pin are given up. -/
def State.recordFail (s : State) (k : Task) : State :=
  let s := forEach k.pin.toList (fun i s => s.unpin i) s
  let s := if k.ordered then s.placeDone k.id none else s
  (s.bump F.PRS_CNT2_ERR 1).raise 322

/-- Dispatch in cluster `c` (R319 - R321): the chosen task goes to idle thread number `pick` (counted modulo the
idle threads, which the spec leaves free) of the chosen unit; `w` is the check of the parse record's write. -/
def State.dispatch (s : State) (c pick : Nat) (w : Check) : State :=
  if s.stopped || s.sliceHalted (c / 4) || !s.sliceOn (c / 4) then s
  else match s.nextTask c with
    | none => s
    | some k =>
      match s.chooseUnit c k.tag with
      | none => s
      | some u =>
        let idle := s.idleThreads u
        let t := idle.getD (pick % max 1 idle.length) (8 * u)
        let tasks := s.hts.tasks.filter (fun j => j.id != k.id)
        let s := { s with hts := { s.hts with tasks := tasks } }
        if w = .lasting ∧ k.pkt.isSome = true then s.recordFail k
        else
          let locks := if k.atomic then s.hts.locks ++ [(c, k.tag, t)] else s.hts.locks
          let affin := tabSet (fun _ => ({} : Affin)) s.hts.affin (1024 * c + k.tag % 1024) ⟨k.tag, u⟩
          let s := { s with hts := { s.hts with locks := locks, affin := affin } }
          s.startTask t k

/-! ### Ordered release -/

/-- The places of cluster `c` whose task is done and before which no place of their tag is held (R322). -/
def releasable (c : Nat) : List Place → List Nat → Option Place
  | [], _ => none
  | p :: ps, tags =>
    if p.cluster = c then
      if p.done ∧ p.parked = false ∧ p.tag ∉ tags then some p else releasable c ps (p.tag :: tags)
    else releasable c ps tags

/-- Give room to the oldest parked place of cluster `c` (R323). -/
def State.unpark (s : State) (c : Nat) : State :=
  if s.robCount c < 4096 then
    match findIdx (fun p : Place => p.cluster == c && p.parked) s.hts.places 0 with
    | some (i, p) => { s with hts := { s.hts with places := setAt s.hts.places i { p with parked := false } } }
    | none => s
  else s

/-- Release one place: it leaves the buffer and its packet, if any, goes to its egress (R80, R322). -/
def State.releasePlace (s : State) (p : Place) : State :=
  let s := { s with hts := { s.hts with places := s.hts.places.filter (fun q => q.task != p.task) } }
  let s := s.unpark p.cluster
  match p.out with
  | some it => s.egressPut it
  | none => s

/-- The next release of cluster `c` (R322). -/
def State.orderedRelease (s : State) (c : Nat) (k : Check) : State :=
  match releasable c s.hts.places [] with
  | none => s
  | some p =>
    if k = .lasting then                                   -- R329: no output, packet freed, LOST, source 353 + 4r
      ((s.releasePlace { p with out := none }).bump F.HTS_CNT2_LOST 1).raise (353 + 4 * (c / 4))
    else s.releasePlace p

/-- Release every place of a cluster that a test accepts, in rank order, with the packets ORDR had passed (R323). -/
def State.releaseAll (s : State) (sel : Place → Bool) : State :=
  forEach (s.hts.places.filter sel) (fun p s => s.releasePlace p) s

/-! ### Moves and losses -/

/-- Free one undispatched task with its packet: pins, place (with no output) and packet are given up, and LOST
counts (R329, R552). -/
def State.loseTask (s : State) (k : Task) : State :=
  let s := { s with hts := { s.hts with tasks := s.hts.tasks.filter (fun j => j.id != k.id) } }
  let s := forEach k.pin.toList (fun i s => s.unpin i) s
  let s := if k.ordered then s.placeDone k.id none else s
  s.bump F.HTS_CNT2_LOST 1

/-- Free the undispatched tasks that a test accepts. -/
def State.loseTasks (s : State) (sel : Task → Bool) : State :=
  forEach (s.hts.tasks.filter sel) (fun k s => s.loseTask k) s

/-- After a change of the clusters that run, the places of tasks not yet dispatched follow their tags to the new home (R317,
R323).  Where its buffer has no room for all, the oldest of them are parked in the slice, so the youngest move first. -/
def State.rehome (s : State) : State :=
  let step (p : Place) (s : State) : State :=
    match s.homeCluster p.region p.tag with
    | none => s
    | some h =>
      if h = p.cluster ∨ s.hts.tasks.all (fun k => k.id != p.task) = true then s
      else
        let full := decide (4096 ≤ s.robCount h)
        let l := s.hts.places.map (fun q => if q.task == p.task then { q with cluster := h, parked := full } else q)
        { s with hts := { s.hts with places := l } }
  s.hts.places.foldr step s

/-- A cluster is fenced (R45, R323): its bit sets, every thread with a task halts, its buffer releases all places
but those of tasks that still wait, and these move to the new home. -/
def State.fenceCluster (s : State) (c : Nat) : State :=
  if s.fenced c then s
  else
    let s := s.putBit F.YCU_CL_FENCE_FENCED c true
    let s := forEach ((List.range 32).map (32 * c + ·))
      (fun t s => if (s.thread t).task.isSome then s.haltThread t else s) s
    let waiting (p : Place) : Bool := s.hts.tasks.any (fun k => k.id == p.task)
    let s := s.releaseAll (fun p => p.cluster == c && !waiting p)
    s.rehome

/-- A halted thread returns to IDLE, its state discarded (R45, R52); OFF when its unit holds no image (R48). -/
def State.resumeThread (s : State) (t : Nat) : State :=
  if (s.thread t).st = .halt then
    let s := s.setRegs t 0 (List.replicate 32 0)
    let s := s.pwPut t 0 (List.replicate 512 0)
    s.setThread t { s.thread t with st := if s.hasImage (unitOf t) then .idle else .off, pc := 0 }
  else s

/-- A write of 1 to `YCU.CL_FENCE` bit `c` (R45): ignored in Dump and Fault Hold and while a source of the cluster
stands unacknowledged; otherwise the fence lifts and the halted threads return to IDLE. -/
def State.fenceLift (s : State) (c : Nat) : State :=
  if s.stopped || !s.fenced c || (span (384 + 4 * c) (388 + 4 * c)).any (fun n => decide (1 ≤ s.level n)) then s
  else
    let s := s.putBit F.YCU_CL_FENCE_FENCED c false
    (forEach ((List.range 32).map (32 * c + ·)) (fun t s => s.resumeThread t) s).rehome

/-- `YCU.THR_CTL` (R52): each 1 returns a halted thread of unit `u` to IDLE; ignored in Dump and Fault Hold (R45). -/
def State.threadResume (s : State) (u mask : Nat) : State :=
  if s.stopped then s
  else forEach (onesOf mask 8) (fun t s => s.resumeThread (8 * u + t)) s

/-- A task-store or matching-store read fails after its retry (R329): the task ends as under R43, its packet
freed. -/
def State.storeFail (s : State) (id : Nat) : State :=
  match s.hts.tasks.find? (fun k => k.id == id) with
  | some k => (s.loseTask k).raise (352 + 4 * k.region)
  | none => s

/-! ### CLMAP, injection, flush, starvation -/

/-- A `HTS.CLMAP` write is held pending; a second write while one is pending replaces it (R318). -/
def State.clmapWrite (s : State) (j : Nat) (v : Nat) : State :=
  { s with hts := { s.hts with clmapPend := some [(j, v)] } }.put F.HTS_CTL_CLMAP_PEND 1

/-- No buffer holds a place, none is parked, and no atomic lock is held (R318, R323). -/
def State.clmapQuiet (s : State) : Bool := s.hts.places.isEmpty && s.hts.locks.isEmpty

/-- A pending `HTS.CLMAP` write applies at the first quiet instant (R318). -/
def State.clmapApply (s : State) : State :=
  match s.hts.clmapPend with
  | some l =>
    if s.clmapQuiet then
      let s := forEach l (fun w s => s.put (F.HTS_CLMAP_C w.1) w.2) s
      { s with hts := { s.hts with clmapPend := none } }.put F.HTS_CTL_CLMAP_PEND 0
    else s
  | none => s

/-- The region that `PRS.REGMAP` gives at an 8-bit index, read as R305 reads it. -/
def State.regmap (s : State) (i : Nat) : Nat :=
  s.liveRegion (bits (s.get (F.PRS_REGMAP_R (i / 16))) (2 * (i % 16) + 1) (2 * (i % 16)))

/-- The task a flow word describes (R71). -/
def taskOf (w : FlowWord) (region : Nat) (pkt : Option Packet) (pin : Option (Nat × Nat)) (v : DWord) : Task :=
  { tag := w.tag, atomic := w.atomic, ordered := w.ordered, cls := w.cls, region := region, pkt := pkt,
    mask := b2n pkt.isSome + 2 * b2n pin.isSome + 8,
    op1 := match pin with | some p => p.2 | none => 0, op3 := v.toNat, pin := pin.map (·.1) }

/-- GO in `HTS.INJ_CTL` (R327). -/
def State.inject (s : State) (who : Nat) : State :=
  let w := flowWord (s.get (F.HTS_INJ_FLOW_FLOW who))
  if w.rest ≠ 0 ∨ w.h ≠ 0 ∨ w.c ≠ 0 then
    (s.put (F.HTS_INJ_CTL_ERR who) 1).put (F.HTS_INJ_CTL_ACC who) 0
  else
    let r := if w.expl then w.region else s.regmap (w.tag / 2 ^ 24)
    let k := taskOf w r none none (BitVec.ofNat 64 (s.get (F.HTS_INJ_VAL_VAL who)))
    let s := s.put (F.HTS_INJ_CTL_ERR who) 0
    match s.createTask .injection k with
    | some t => t.put (F.HTS_INJ_CTL_ACC who) 1
    | none => ((s.put (F.HTS_INJ_CTL_ACC who) 0).bump F.HTS_CNT_INJREF 1).raiseSec 370

/-- `HTS.FLUSH` (R329): every task of the named regions not yet dispatched is freed. -/
def State.flush (s : State) (mask : Nat) : State := s.loseTasks (fun k => bit mask k.region)

/-- A ready task has waited STARVE us undispatched (R321): source 354 + 4r once for it; STARVE 0 disables. -/
def State.starve (s : State) (id : Nat) : State :=
  let lim := s.get F.HTS_STARVE_US
  match s.hts.tasks.find? (fun k => k.id == id) with
  | some k =>
    if lim ≠ 0 ∧ k.await1 = false ∧ k.await2 = false ∧ k.starved = false then
      let s := s.until (k.since + 1000 * lim)
      let l := s.hts.tasks.map (fun j => if j.id == id then { j with starved := true } else j)
      { s with hts := { s.hts with tasks := l } }.raise (354 + 4 * k.region)
    else s
  | none => s

/-- An operand arrives (R40, R315): in a running task's slot, where a WAITOP that waits on it goes on, or as a
creation operand of a waiting task.  The result of a task that has ended is discarded, with its pin (R41). -/
def State.operandArrive (s : State) (i : Nat) : State :=
  match s.yal.arriving[i]? with
  | none => s
  | some a =>
    let s := { s with yal := { s.yal with arriving := s.yal.arriving.eraseIdx i } }
    match a.dest with
    | .slot t id k =>
      let th := s.thread t
      match th.task with
      | some task =>
        if task.id = id then
          let th := { th with pins := th.pins ++ a.pin.toList }
          match th.st with
          | .wait (.operand gd k') =>
            if k' = k then
              let s := s.setThread t { th with
                slots := setAt th.slots k .empty, st := .run, pc := (th.pc + 4) % 0x10000 }
              s.setReg t gd a.value
            else s.setThread t { th with slots := setAt th.slots k (.result a.value) }
          | _ => s.setThread t { th with slots := setAt th.slots k (.result a.value) }
        else forEach a.pin.toList (fun p s => s.unpin p) s
      | none => forEach a.pin.toList (fun p s => s.unpin p) s
    | .creation id k =>
      if s.hts.tasks.any (fun j => j.id == id) then
        let upd (j : Task) : Task :=
          if j.id = id then
            let j := if k = 1 then { j with await1 := false, op1 := a.value.toNat, pin := a.pin }
              else { j with await2 := false, op2 := a.value.toNat }
            { j with since := s.now }
          else j
        { s with hts := { s.hts with tasks := s.hts.tasks.map upd } }
      else forEach a.pin.toList (fun p s => s.unpin p) s

end Sys2Proof.Machine
end

