-- ==== Sys2Proof/Machine/YalvoTask.lean ====
section
/-! DEFINITION. The accelerator and task-control instructions (R69 - R84), but CIPH, which stands with the
cipher engine. -/

namespace Sys2Proof.Machine

/-- Key length in bytes of a lookup table (R73). -/
def keyLen (table : Nat) : Nat :=
  [8, 4, 16, 40, 4, 16, 4].getD table 0

/-- Where the result of a request of thread `t` goes: its present task's slot. -/
def State.slotDest (s : State) (t slot : Nat) : Dest :=
  .slot t (match (s.thread t).task with | some k => k.id | none => 0) slot

/-- Mark a slot of thread `t`. -/
def State.setSlot (s : State) (t slot : Nat) (v : Slot) : State :=
  s.setThread t { s.thread t with slots := setAt (s.thread t).slots slot v }

/-- The slot of thread `t`. -/
def State.slotOf (s : State) (t slot : Nat) : Slot := (s.thread t).slots.getD slot .empty

/-- LKUP (R73, R75): OPERAND when the slot is not empty, SPACE when the key runs past LM; the key is copied now
and the lookup submitted. -/
def State.lkup (s : State) (i : Issue) (ga : BitVec 5) (slot : Fin 4) (table : Fin 7) : State :=
  s.issue i .p [ga] (fun s =>
    match i.who with
    | .seq _ => .exc .illegal
    | .thr t =>
      let a := (s.reg t.val ga.toNat).toNat
      let n := keyLen table.val
      if s.slotOf t.val slot.val ≠ .empty then .exc .operand
      else if 0x10000 < a + n then .exc .space
      else
        let l : Lookup := ⟨s.slotDest t.val slot.val, table.val, s.spaceBytes (unitOf t.val) 0 a n⟩
        let s := s.setSlot t.val slot.val .outstanding
        .next { s with ept := { s.ept with lookups := s.ept.lookups ++ [l] } })

/-- The word PMAT fetches: match `n` of the packet's search (R77). -/
def pmatWord (p : Packet) (n : Nat) : DWord :=
  match p.hits[n]? with
  | some h => BitVec.ofNat 64 (h.1 % 2048 + h.2 % 1024 * 2 ^ 11 + min 2047 p.pcount * 2 ^ 21 + 2 ^ 32)
  | none => BitVec.ofNat 64 (min 2047 p.pcount * 2 ^ 21)

/-- PMAT (R77): TASK without a packet or with bits above ga[10:0]; the word is on its way to the slot. -/
def State.pmat (s : State) (i : Issue) (ga : BitVec 5) (slot : Fin 4) : State :=
  s.issue i .p [ga] (fun s =>
    match i.who with
    | .seq _ => .exc .illegal
    | .thr t =>
      let a := (s.reg t.val ga.toNat).toNat
      if s.slotOf t.val slot.val ≠ .empty then .exc .operand
      else match (s.thread t.val).held with
        | none => .exc .task
        | some p =>
          if 2048 ≤ a then .exc .task
          else
            let r : Arrive := ⟨s.slotDest t.val slot.val, pmatWord p a, none⟩
            let s := s.setSlot t.val slot.val .outstanding
            .next { s with yal := { s.yal with arriving := s.yal.arriving ++ [r] } })

/-- WAITOP (R78): OPERAND on an empty slot; an arrived result moves to gd and empties the slot; otherwise the
thread waits. -/
def State.waitop (s : State) (i : Issue) (gd : BitVec 5) (slot : Fin 4) : State :=
  s.issue i .p [gd] (fun s =>
    match i.who with
    | .seq _ => .exc .illegal
    | .thr t =>
      match s.slotOf t.val slot.val with
      | .empty => .exc .operand
      | .outstanding =>
        .stay (s.setThread t.val { s.thread t.val with st := .wait (.operand gd.toNat slot.val) })
      | .result v => .next ((s.setSlot t.val slot.val .empty).setReg t.val gd.toNat v))

/-- YIELD (R41, R79). -/
def State.yield (s : State) (i : Issue) : State :=
  s.issue i .p [] (fun s =>
    match i.who with
    | .seq _ => .exc .illegal
    | .thr t => .stay (s.endTask t.val false))

/-- The packet that passes on: the held packet with pw as its new head, when the handle names it and the egress
word is valid (R31, R70, R82). -/
def State.passOn (s : State) (t : Nat) (handle word : DWord) : Option EgItem :=
  match (s.thread t).held with
  | none => none
  | some p =>
    let w := egWord word
    if handle = handleOf p ∧ validEgWord w p.bytes.length (s.get F.FED_ID_ID) = true then
      some { kind := w.kind, target := w.target, tc := w.tc, pkt := rewrite p (s.pwBytes t 0 512) w.h w.c }
    else none

/-- The task of thread `t` holds no packet any more. -/
def State.dropHeld (s : State) (t : Nat) : State := s.setThread t { s.thread t with held := none }

/-- EMIT (R82): the packet goes to its egress at once. -/
def State.emit (s : State) (i : Issue) (gd ga : BitVec 5) : State :=
  s.issue i .p [gd, ga] (fun s =>
    match i.who with
    | .seq _ => .exc .illegal
    | .thr t =>
      match s.passOn t.val (s.reg t.val gd.toNat) (s.reg t.val ga.toNat) with
      | none => .exc .task
      | some it => .next ((s.dropHeld t.val).egressPut it))

/-- The task of thread `t`. -/
def State.taskNow (s : State) (t : Nat) : Task := (s.thread t).task.getD {}

/-- ORDR (R80, R81): in an ordered flow the place takes the packet, or no output with g0, once; in a flow that is
not ordered it acts as EMIT, or does nothing with g0. -/
def State.ordrOp (s : State) (i : Issue) (gd ga : BitVec 5) : State :=
  s.issue i .p [gd, ga] (fun s =>
    match i.who with
    | .seq _ => .exc .illegal
    | .thr t =>
      let k := s.taskNow t.val
      let th := s.thread t.val
      if k.ordered && th.ordr then .exc .task
      else if gd = 0 then
        if k.ordered then .next ((s.setThread t.val { th with ordr := true }).placeDone k.id none) else .next s
      else match s.passOn t.val (s.reg t.val gd.toNat) (s.reg t.val ga.toNat) with
        | none => .exc .task
        | some it =>
          let s := s.dropHeld t.val
          if k.ordered then
            .next ((s.setThread t.val { s.thread t.val with ordr := true }).placeDone k.id (some it))
          else .next (s.egressPut it))

/-- The flow word breaks R71 for a FORK that passes a packet of `len` bytes, or passes none. -/
def badFlow (w : FlowWord) (len : Option Nat) : Bool :=
  w.rest != 0 || match len with
    | some n => decide (512 < w.h ∨ min n 512 < w.c ∨ w.h + n - w.c = 0)
    | none => w.h != 0 || w.c != 0

/-- FORK (R83, R84): creates a task whose operands are complete; gd reads 0, or 1 when the slice refused it. -/
def State.forkOp (s : State) (i : Issue) (gd ga : BitVec 5) (passPkt passPin : Bool) : State :=
  s.issue i .p [gd, ga] (fun s =>
    match i.who with
    | .seq _ => .exc .illegal
    | .thr t =>
      let th := s.thread t.val
      let w := flowWord (s.reg t.val ga.toNat).toNat
      if passPkt && th.held.isNone then .exc .task
      else if passPin && th.cpin.isNone then .exc .task
      else
        let p := if passPkt then th.held else none
        if badFlow w (p.map (fun q => q.bytes.length)) then .exc .task
        else
          let k := s.taskNow t.val
          let region := s.liveRegion (if w.expl then w.region else k.region)
          let pin := if passPin then th.cpin.map (fun e => (e, k.op1)) else none
          let pkt := p.map (fun q => rewrite q (s.pwBytes t.val 0 512) w.h w.c)
          match s.createTask .fork (taskOf w region pkt pin (s.reg t.val gd.toNat)) with
          | none => .next (((s.bump F.HTS_CNT_FORKREF 1).raiseSec 369).setReg t.val gd.toNat 1)
          | some s =>
            let th := s.thread t.val
            let th := { th with held := if passPkt then none else th.held, cpin := if passPin then none else th.cpin }
            let s := s.setThread t.val th
            let s := if passPin then s.setReg t.val 3 0 else s
            .next (s.setReg t.val gd.toNat 0))

/-- A word whose opcode, function or op value is reserved, or with a non-zero field marked 0 (R58). -/
def State.illegal (s : State) (i : Issue) : State := s.issue i .both [] (fun _ => .exc .illegal)

end Sys2Proof.Machine
end

