-- ==== Sys2Proof/Machine/Loader.lean ====
section
/-! DEFINITION. The program loader (R48 - R56): the image check, ROLL and BARRIER loads of units, loads of
sequencers, and their end. -/

namespace Sys2Proof.Machine

/-- A load is filed and has not ended (R52). -/
def State.loadBusy (s : State) : Bool := s.yal.load.isSome

/-- Outcome of the loader's check of a staged image (R51). -/
inductive ImageCheck where
  | good
  | header
  | crc
deriving DecidableEq, Repr

/-- Profile word of the image at `a`. -/
def State.imgProfile (s : State) (a : Nat) : Nat := memNat s.gm (a + 4) 4
/-- Generation of the image at `a`. -/
def State.imgGen (s : State) (a : Nat) : Nat := memNat s.gm (a + 8) 4
/-- Code length of the image at `a`. -/
def State.imgCode (s : State) (a : Nat) : Nat := memNat s.gm (a + 12) 4
/-- Data length of the image at `a`. -/
def State.imgData (s : State) (a : Nat) : Nat := memNat s.gm (a + 16) 4

/-- The header obeys R49; an image that runs past the Granary does not. -/
def State.headerGood (s : State) (a : Nat) : Bool :=
  decide (a + 0x20 ≤ Config.granaryBytes)
  && memNat s.gm a 4 == 0x4F564C59
  && decide (s.imgProfile a < 2) && s.imgGen a != 0xFFFFFFFF
  && s.imgCode a % 4 == 0
  && decide ((if s.imgProfile a = 0 then 260 else 4) ≤ s.imgCode a ∧ s.imgCode a ≤ 0x10000)
  && decide (s.imgData a ≤ (if s.imgProfile a = 0 then 0x10000 else 0x4000))
  && memNat s.gm (a + 0x18) 8 == 0
  && decide (a + 0x20 + s.imgCode a + s.imgData a ≤ Config.granaryBytes)

/-- The 64 entry words of a P-profile image obey R50. -/
def State.entriesGood (s : State) (a : Nat) : Bool :=
  (List.range 64).all (fun k =>
    let e := memNat s.gm (a + 0x20 + 4 * k) 4
    e % 4 == 0 && decide (256 ≤ e ∧ e < s.imgCode a))

/-- The check of R51 for a load of `units` and `seqs`. -/
def State.imageCheck (s : State) (a : Nat) (units seqs : List Nat) : ImageCheck :=
  if !s.headerGood a then .header
  else if s.imgProfile a = 0 ∧ !s.entriesGood a then .header
  else if s.imgProfile a = 0 ∧ seqs ≠ [] then .header
  else if s.imgProfile a = 1 ∧ units ≠ [] then .header
  else if crc32 (memBytes s.gm (a + 0x20) (s.imgCode a + s.imgData a)) ≠ memNat s.gm (a + 0x14) 4 then .crc
  else .good

/-- Replace the load in progress. -/
def State.setLoad (s : State) (l : Option Load) : State := { s with yal := { s.yal with load := l } }

/-- The load ends with a STATUS (R52, R56); SKIPPED and the error bits take the load's values. -/
def State.loadEnd (s : State) (status skipped : Nat) (hdr crc : Bool) : State :=
  (((((s.setLoad none).put F.YCU_LOAD_STAT_STATUS status).put F.YCU_LOAD_STAT_CRCERR (b2n crc)).put
    F.YCU_LOAD_STAT_HDRERR (b2n hdr)).put F.YCU_LOAD_STAT_SKIPPED (min 255 skipped)).put F.YCU_LOAD_CTL_GO 0

/-- The unit may not be loaded: a halted thread, a fenced or an unpowered cluster (R56). -/
def State.unitBarred (s : State) (u : Nat) : Bool :=
  !s.clusterRuns (u / 4) || (List.range 8).any (fun t => (s.thread (8 * u + t)).st == .halt)

/-- Move a load on: the next ROLL round, step 4 of a BARRIER, or the end (R53, R54).  A unit that cannot be loaded
at all is skipped when its turn comes. -/
def State.loadAdvance (s : State) : Nat → State
  | 0 => s
  | fuel + 1 =>
    match s.yal.load with
    | none => s
    | some l =>
      if l.waiting || l.draining ≠ [] || l.copying ≠ [] then s
      else if l.ready ≠ [] then s.setLoad (some { l with copying := l.ready, ready := [], deadline := 0 })
      else
        let mine := if l.barrier then l.units else l.units.filter (fun u => u % 4 == l.round)
        if mine = [] then
          if l.barrier || l.units = [] then
            s.loadEnd (if l.skipped = 0 && !l.failed then 2 else 3) l.skipped false false
          else (s.setLoad (some { l with round := l.round + 1 })).loadAdvance fuel
        else
          let out := mine.filter s.unitBarred
          let go := mine.filter (fun u => !s.unitBarred u)
          let l := { l with
            units := l.units.filter (fun u => u ∉ mine), draining := go, copied := [],
            skipped := l.skipped + out.length,
            deadline := if l.drain = 0 then 0 else s.now + 1000 * l.drain }
          (s.setLoad (some l)).loadAdvance fuel

/-- The image is checked and the load begins (R51, R53 - R55); each sequencer named is ordered to halt with the outcome of
R47 under program reload.  DESIGN CHOICE (log 32): the CAUSE it shows until it restarts is 0, for R165 has no code for a
reload. -/
def State.loadBegin (s : State) (l : Load) : State :=
  match s.imageCheck l.src l.units l.seqs with
  | .header => s.loadEnd 3 0 true false
  | .crc => s.loadEnd 3 0 false true
  | .good =>
    if l.seqs ≠ [] then
      let halt (n : Nat) (s : State) : State :=
        if s.on (F.SQ_CTL_EN n) && !s.on (F.SQ_CTL_HALTED n) then
          s.setSeq n { s.seq n with halting := some ⟨0, 0, 8⟩ }
        else s
      (forEach l.seqs halt s).setLoad (some { l with waiting := false, copying := l.seqs.map (64 + ·) })
    else (s.setLoad (some { l with waiting := false })).loadAdvance 8

/-- GO in `YCU.LOAD_CTL` (R52): ignored while a load is busy; a load filed during a mode transition waits for its
end (R56). -/
def State.programLoad (s : State) : State :=
  if s.loadBusy then s
  else
    let l : Load := { barrier := s.on F.YCU_LOAD_CTL_MODE, src := s.get F.YCU_LOAD_SRC_ADDR / 32 * 32,
                      units := onesOf (s.get F.YCU_LOAD_UNITS_UNIT) 64, seqs := onesOf (s.get F.YCU_LOAD_CTL_SEQ) 4,
                      drain := s.get F.YCU_LOAD_CTL_DRAIN, waiting := true }
    let s := ((s.put F.YCU_LOAD_STAT_STATUS 1).put F.YCU_LOAD_CTL_GO 1).setLoad (some l)
    if s.transiting then s else s.loadBegin l

/-- A mode transition has ended: a load that waited for it starts (R56). -/
def State.loadResume (s : State) : State :=
  match s.yal.load with
  | some l => if l.waiting && !s.transiting then s.loadBegin l else s
  | none => s

/-- A unit of the load is skipped (R56): it keeps its image and takes tasks again. -/
def State.loadSkip (s : State) (u : Nat) : State :=
  match s.yal.load with
  | some l => s.setLoad (some { l with draining := l.draining.filter (· != u), skipped := l.skipped + 1 })
  | none => s

/-- No task runs on unit `u`. -/
def State.unitQuiet (s : State) (u : Nat) : Bool :=
  (List.range 8).all (fun t => (s.thread (8 * u + t)).task.isNone)

/-- The last old task of target unit `u` has ended (R53 step 2): its copy begins, in BARRIER mode once every target
has drained; a unit with a halted thread or in a fenced cluster is skipped. -/
def State.loadUnitDrained (s : State) (u : Nat) : State :=
  match s.yal.load with
  | some l =>
    if u ∈ l.draining ∧ s.unitQuiet u = true then
      if s.unitBarred u then (s.loadSkip u).loadAdvance 8
      else
        let l := { l with draining := l.draining.filter (· != u) }
        let l := if l.barrier then { l with ready := l.ready ++ [u] } else { l with copying := l.copying ++ [u] }
        (s.setLoad (some l)).loadAdvance 8
    else s
  | none => s

/-- The drain timeout expires (R56): the targets that still drain are skipped. -/
def State.loadDrainTimeout (s : State) : State :=
  match s.yal.load with
  | some l =>
    if l.deadline ≠ 0 ∧ l.draining ≠ [] then
      (forEach l.draining (fun u s => s.loadSkip u) (s.until l.deadline)).loadAdvance 8
    else s
  | none => s

/-- Unit `u` loses its image: GEN reads 0xFFFF_FFFF and its threads are OFF (R48). -/
def State.dropImage (s : State) (u : Nat) : State :=
  let s := s.put (F.YCU_GEN_GEN u) 0xFFFFFFFF
  forEach (List.range 8) (fun t s =>
    if (s.thread (8 * u + t)).st = .idle then s.setThread (8 * u + t) { s.thread (8 * u + t) with st := .off } else s) s

/-- Code and data of the image at `a` go to target `x` (a unit, or 64 + a sequencer), which takes its
generation (R49, R53 step 3); the instruction memory beyond the code holds zero words (R59). -/
def State.copyImage (s : State) (a x : Nat) : State :=
  let code := memBytes s.gm (a + 0x20) (s.imgCode a)
  let data := memBytes s.gm (a + 0x20 + s.imgCode a) (s.imgData a)
  let s := { s with yal := { s.yal with im := memPutBytes (memZero s.yal.im (0x10000 * x) 0x10000) (0x10000 * x) code } }
  let s := if x < 64 then { s with yal := { s.yal with lm := memPutBytes s.yal.lm (0x10000 * x) data } }
    else { s with sd := memPutBytes s.sd (0x4000 * (x - 64)) data }
  let s := s.put (F.YCU_GEN_GEN x) (s.imgGen a)
  if x < 64 then
    forEach (List.range 8) (fun t s =>
      if (s.thread (8 * x + t)).st = .off then s.setThread (8 * x + t) { s.thread (8 * x + t) with st := .idle } else s) s
  else s

/-- A sequencer starts at code byte 0 with its registers at 0 (R46). -/
def State.seqStart (s : State) (n : Nat) : State :=
  let s := s.setRegs (512 + n) 0 (List.replicate 16 0)
  let s := s.setSeq n { s.seq n with pc := 0, wait := none, halting := none }
  (((s.put (F.SQ_CTL_HALTED n) 0).put (F.SQ_CTL_CAUSE n) 0).put (F.SQ_CTL_EXC n) 0).put (F.SQ_HALT_PC_PC n) 0

/-- The copy of target `x` ends (R53 step 3, R55): the new generation, or no image after a lasting Granary error
(R56); the unit takes tasks, in BARRIER mode together with the others, and an enabled sequencer restarts.  DESIGN CHOICE
(log 32): a lasting error in a sequencer's copy, of which R56 says nothing, leaves it halted with GEN 0xFFFF_FFFF and raises
no source. -/
def State.loadCopyDone (s : State) (x : Nat) (k : Check) : State :=
  match s.yal.load with
  | some l =>
    if x ∈ l.copying then
      let l := { l with copying := l.copying.filter (· != x), failed := l.failed || k = .lasting,
                        copied := if l.barrier && decide (x < 64) then l.copied ++ [x] else [] }
      let l := if l.copying = [] && l.draining = [] && l.ready = [] then { l with copied := [] } else l
      let s := s.setLoad (some l)
      let s :=
        if k = .lasting then
          if x < 64 then (s.dropImage x).raise (386 + 4 * (x / 4)) else s.put (F.YCU_GEN_GEN x) 0xFFFFFFFF
        else
          let s := s.copyImage l.src x
          if 64 ≤ x && s.on (F.SQ_CTL_EN (x - 64)) then s.seqStart (x - 64) else s
      s.loadAdvance 8
    else s
  | none => s

end Sys2Proof.Machine
end

