-- ==== Sys2Proof/Machine/Ept.lean ====
section
/-! DEFINITION. The endpoint engine: lookups, the Granary cache, the INSERT and REMOVE commands, routes and the island log
(chapter 13, R354 - R362, R369). -/

namespace Sys2Proof.Machine

/-- CRC-32C of R304 and R356: started from `seed`, result complemented. -/
def crc32c (seed : Nat) (bs : List Byte) : Nat := Nat.xor (crcRefl 0x82F63B78 seed bs) 0xFFFFFFFF

/-- The endpoint entry `x` as the device keeps it. -/
def State.ent (s : State) (x : Nat) : EptEnt := tabGet (fun _ => {}) s.ept.ents x

/-- Replace an entry's own copy. -/
def State.setEnt (s : State) (x : Nat) (e : EptEnt) : State :=
  let s := { s with ept := { s.ept with ents := tabSet (fun _ => {}) s.ept.ents x e } }
  s.put F.EPT_OCC_ENTRIES s.eptOcc

/-- XM address of entry `x` (R354, R372). -/
def State.entAddr (s : State) (x : Nat) : Nat := s.get F.EPT_TBL_BASE_ADDR / 256 * 256 + 256 * x

/-- XM address of bucket `b` (R356, R372). -/
def State.bucketAddr (s : State) (b : Nat) : Nat := s.get F.EPT_IDX_BASE_ADDR / 64 * 64 + 64 * b

/-- An EPT source of class U stands at L2 (R373). -/
def State.eptHalted (s : State) : Bool := s.halted [480, 481, 484, 486, 487, 490]

/-- The table, index and route structures lie inside XM, and the DRAM controller serves them (R395, R397). -/
def State.eptXmOk (s : State) (a n : Nat) : Bool := decide (a + n ≤ s.xmMib * 0x100000) && !s.xmDead

/-! ### Entries as bytes -/

/-- Pad bytes with 0 to a length. -/
def padTo (n : Nat) (l : List Byte) : List Byte := l.take n ++ List.replicate (n - l.length) 0

/-- Bytes 0x00 - 0x0F of an entry (R354). -/
def EptEnt.head (e : EptEnt) : List Byte :=
  natLe (e.kind + 8 * b2n e.k2 + 16 * e.t1 + 128 * e.t2) 4 ++ natLe e.cepoch 4 ++ natLe e.last 4 ++ natLe e.hits 4

/-- Bytes 0x18 - 0x67 of an entry. -/
def EptEnt.keys (e : EptEnt) : List Byte := padTo 40 e.key1 ++ padTo 40 e.key2

/-- Read an entry's device-owned fields from its bytes. -/
def entOfBytes (l : List Byte) : EptEnt :=
  let h := leNat (l.take 4)
  let t1 := bits h 6 4
  let t2 := bits h 9 7
  let k2 := bit h 3
  { kind := bits h 2 0, t1 := t1, t2 := t2, k2 := k2, cepoch := leNat ((l.drop 4).take 4),
    last := leNat ((l.drop 8).take 4), hits := leNat ((l.drop 12).take 4),
    key1 := (l.drop 0x18).take (keyLen t1), key2 := if k2 then (l.drop 0x40).take (keyLen t2) else [] }

/-- The entry holds a key under a table. -/
def EptEnt.holds (e : EptEnt) (t : Nat) (key : List Byte) : Bool :=
  e.kind != 0 && ((e.t1 == t && e.key1 == key) || (e.k2 && e.t2 == t && e.key2 == key))

/-! ### Buckets (R356) -/

/-- First CRC of a key under a table. -/
def State.hash1 (s : State) (t : Nat) (key : List Byte) : Nat :=
  crc32c (s.get F.EPT_SEED_SEED) (BitVec.ofNat 8 t :: key)

/-- The two buckets of a key, the first bucket first. -/
def State.buckets (s : State) (t : Nat) (key : List Byte) : List Nat :=
  let h1 := s.hash1 t key
  let a := h1 % 0x20000
  let b := crc32c (s.get F.EPT_SEED_SEED) (natLe h1 4) % 0x20000
  if a = b then [a] else [a, b]

/-- Slot `i` of bucket `b`. -/
def State.slotWord (s : State) (b i : Nat) : Nat := memNat s.xm (s.bucketAddr b + 8 * i) 8

/-- Write a bucket slot. -/
def State.slotPut (s : State) (b i v : Nat) : State := { s with xm := memPutNat s.xm (s.bucketAddr b + 8 * i) 8 v }

/-- The eight slots of each bucket of a key: (bucket, slot). -/
def State.keySlots (s : State) (t : Nat) (key : List Byte) : List (Nat × Nat) :=
  (s.buckets t key).flatMap (fun b => (List.range 8).map (fun i => (b, i)))

/-- The entry that a slot names when table and signature match. -/
def State.slotEntry (s : State) (t h1 : Nat) (p : Nat × Nat) : Option Nat :=
  let w := s.slotWord p.1 p.2
  if bit w 18 && bits w 21 19 == t && bits w 63 32 == h1 then some (bits w 17 0) else none

/-- The entry indexed under a key (R356). -/
def State.findKey (s : State) (t : Nat) (key : List Byte) : Option Nat :=
  (s.keySlots t key).findSome? (fun p =>
    match s.slotEntry t (s.hash1 t key) p with
    | some x => if (s.ent x).holds t key then some x else none
    | none => none)

/-- The first free slot of a key's buckets that is not in `used`. -/
def State.freeSlot (s : State) (t : Nat) (key : List Byte) (used : List (Nat × Nat)) : Option (Nat × Nat) :=
  (s.keySlots t key).find? (fun p => !bit (s.slotWord p.1 p.2) 18 && !used.contains p)

/-- A slot's content for an entry (R356). -/
def State.slotFor (s : State) (t : Nat) (key : List Byte) (x : Nat) : Nat :=
  x + 2 ^ 18 + t * 2 ^ 19 + s.hash1 t key * 2 ^ 32

/-- Remove an entry's key from the index. -/
def State.unindex (s : State) (x t : Nat) (key : List Byte) : State :=
  match (s.keySlots t key).find? (fun p => s.slotEntry t (s.hash1 t key) p == some x) with
  | some p => s.slotPut p.1 p.2 0
  | none => s

/-! ### The cache (R359, R360) -/

/-- Banks of the cache, lowest first. -/
def State.eptBanks (s : State) : List Nat := onesOf (s.get F.EPT_CACHE_BANKS) 32

/-- The line that holds an entry. -/
def State.eptLine (s : State) (x : Nat) : Option EptLine := s.ept.lines.find? (fun l => l.entry == x)

/-- Lowest Granary address of a line in no use: bank by bank. -/
def State.freeLine (s : State) : Option Nat :=
  let used := s.ept.lines.map (fun l => l.gaddr)
  (s.eptBanks.findSome? (fun b =>
    ((List.range (used.length + 1)).find? (fun i => decide (i < 4096) && !used.contains (0x100000 * b + 256 * i))).map
      (fun i => 0x100000 * b + 256 * i)))

/-- Write a cached entry back whole, with the device's own copy of its fields (R354, R359). -/
def State.writeBack (s : State) (l : EptLine) : State :=
  let body := memBytes s.gm l.gaddr 256
  let e := s.ent l.entry
  let bs := e.head ++ (body.drop 16).take 8 ++ e.keys ++ body.drop 0x68
  { s with xm := memPutBytes s.xm (s.entAddr l.entry) bs }

/-- Drop a line. -/
def State.dropLine (s : State) (x : Nat) : State :=
  { s with ept := { s.ept with lines := s.ept.lines.filter (fun l => l.entry != x) } }

/-- Set the mark of a write-back that failed, or that succeeded. -/
def State.markLine (s : State) (x : Nat) (bad : Bool) : State :=
  { s with ept := { s.ept with lines := s.ept.lines.map (fun l => if l.entry == x then { l with stuck := bad } else l) } }

/-- The line that leaves a full cache: the unpinned entry with the oldest hit (R359). -/
def State.victim (s : State) : Option EptLine :=
  s.ept.lines.find? (fun l => !l.stuck && tabGet (fun _ => 0) s.ept.pins l.entry == 0)

/-- A line for a new entry: a free one, or the victim's after its write-back; `wb` is the check of that write-back, and
after a failure the next victim is taken (R371). -/
def State.makeLine (s : State) (wb : Check) : Option Nat × State :=
  match s.freeLine with
  | some g => (some g, s)
  | none =>
    match s.victim with
    | none => (none, s)
    | some v =>
      if wb ≠ .lasting ∧ s.xmDead = false then (some v.gaddr, (s.writeBack v).dropLine v.entry)
      else
        let s := (s.markLine v.entry true).raise 481
        match s.victim with
        | some w => if s.xmDead then (none, s) else (some w.gaddr, (s.writeBack w).dropLine w.entry)
        | none => (none, s)

/-- Bring an entry into the cache; none when no line can be had. -/
def State.bring (s : State) (x : Nat) (wb : Check) : Option Nat × State :=
  match s.eptLine x with
  | some l => (some l.gaddr, s)
  | none =>
    match s.makeLine wb with
    | (some g, s) =>
      let s := { s with gm := memPutBytes s.gm g (memBytes s.xm (s.entAddr x) 256) }
      (some g, { s with ept := { s.ept with lines := s.ept.lines ++ [⟨x, g, false⟩] } })
    | (none, s) => (none, s)

/-- A hit (R354, R356): LAST, HITS, the own copy written into the line, and the entry becomes the newest hit. -/
def State.entHit (s : State) (x g : Nat) : State :=
  let e := s.ent x
  let e := { e with last := s.now / 2 ^ 30 % 2 ^ 32, hits := min 0xFFFFFFFF (e.hits + 1) }
  let s := s.setEnt x e
  let s := { s with gm := memPutBytes (memPutBytes s.gm g e.head) (g + 0x18) e.keys }
  let mine := s.ept.lines.filter (fun l => l.entry == x)
  { s with ept := { s.ept with lines := s.ept.lines.filter (fun l => l.entry != x) ++ mine } }

/-- FLUSH (R360): every cached entry is written back and stays cached; `bad` lists the entries whose write-back failed
after one retry (R371). -/
def State.cacheFlush (s : State) (bad : List Nat) : State :=
  forEach s.ept.lines (fun l s =>
    if bad.contains l.entry || s.xmDead then (s.markLine l.entry true).raise 481
    else (s.writeBack l).markLine l.entry false) s

/-- Banks of the cache have lost their contents (R360, R461): what was not written back is lost and the DRAM copy stands. -/
def State.eptLose (s : State) (banks : List Nat) : State :=
  forEach (s.ept.lines.filter (fun l => banks.contains (l.gaddr / 0x100000))) (fun l s =>
    (s.dropLine l.entry).setEnt l.entry (entOfBytes (memBytes s.xm (s.entAddr l.entry) 256))) s

/-- A write of `EPT.CTL.EN` = 1 (R359): ignored with fewer than two banks; lines outside the banks go back to DRAM. -/
def State.eptEnable (s : State) : State :=
  if s.on F.EPT_CTL_EN || decide (s.eptBanks.length < 2) then s
  else
    let out := s.ept.lines.filter (fun l => !s.eptBanks.contains (l.gaddr / 0x100000))
    (forEach out (fun l s => (s.writeBack l).dropLine l.entry) s).put F.EPT_CTL_EN 1

/-! ### Lookups (R73 - R75, R356, R361) -/

/-- The longest matching prefix (R361). -/
def State.routeFind (s : State) (v6 : Bool) (a : Nat) : Option Route :=
  let w := if v6 then 128 else 32
  minBy (fun r => w - r.plen)
    (s.ept.routes.filter (fun r => r.v6 == v6 && r.pre == a / 2 ^ (w - r.plen) * 2 ^ (w - r.plen)))

/-- Where a lookup ends: a miss, a route, an entry, or a read error with the source it raises. -/
inductive Found where
  | miss
  | route (r : Route)
  | entry (x : Nat)
  | bad (src : Nat)
deriving DecidableEq, Repr

/-- Every entry that a slot of a key's buckets names by table and signature can be read: it is cached, or lies inside XM. -/
def State.slotsRead (s : State) (t : Nat) (key : List Byte) : Bool :=
  ((s.keySlots t key).filterMap (s.slotEntry t (s.hash1 t key))).all
    (fun x => (s.eptLine x).isSome || s.eptXmOk (s.entAddr x) 256)

/-- Search a table (R356, R361); `k` is the check of its reads. -/
def State.search (s : State) (t : Nat) (key : List Byte) (k : Check) : Found :=
  if t = 4 ∨ t = 5 then
    if k = .lasting ∨ s.xmDead = true then .bad 484
    else match s.routeFind (t == 5) (beNat key) with | some r => .route r | none => .miss
  else if t = 1 then
    let v := leNat key
    let x := v % 2 ^ 18
    if 2 ^ 18 ≤ v then .miss
    else if k = .lasting ∨ ((s.eptLine x).isNone ∧ s.eptXmOk (s.entAddr x) 256 = false) then .bad 480
    else if (s.ent x).kind = 0 then .miss else .entry x
  else if k = .lasting ∨ (s.buckets t key).any (fun b => !s.eptXmOk (s.bucketAddr b) 64) = true
      ∨ s.slotsRead t key = false then .bad 480
  else match s.findKey t key with | some x => .entry x | none => .miss

/-- The result word of R74. -/
def lookupWord (gaddr epx plen status : Nat) : Nat := gaddr % 2 ^ 25 + epx * 2 ^ 25 + plen * 2 ^ 43 + status * 2 ^ 51

/-- Pins that a destination's task holds, results on their way included (R75).  Each hit counts, also a second one on an entry
the task already pins: R75 does not say whether it counts entries or pins (DESIGN CHOICE, log 39). -/
def State.pinsHeld (s : State) (d : Dest) : Nat :=
  let flying := (s.yal.arriving.filter (fun a => a.pin.isSome
    && (match a.dest, d with
        | .slot t k _, .slot t' k' _ => t == t' && k == k'
        | .creation k _, .creation k' _ => k == k'
        | _, _ => false))).length
  match d with
  | .slot t id _ =>
    let th := s.thread t
    if (match th.task with | some k => k.id == id | none => false) then
      th.pins.length + th.cpin.toList.length + flying else flying
  | .creation _ _ => flying

/-- The result word is on its way; the slot of a task that waits to be created takes the Granary address alone, which
is 0 where no entry was found (R30, R310; log 13). -/
def State.lookupResult (s : State) (d : Dest) (v : Nat) (pin : Option Nat) : State :=
  let v := match d with | .creation _ _ => v % 2 ^ 25 | .slot _ _ _ => v
  { s with yal := { s.yal with arriving := s.yal.arriving ++ [⟨d, BitVec.ofNat 64 v, pin⟩] } }

/-- Lookup `i` of those submitted finishes (R74, R75, R356, R371, R373): `k` is the check of its reads, `wb` that of a
write-back it forces.  While EN is 0 it misses; with no line to be had it reads as an error (log 13).  A hit on an entry that a
failed write-back left unpinnable answers as one past the pin limit, STATUS 3 and GADDR 0: R371 names no STATUS for it
(DESIGN CHOICE, log 39). -/
def State.lookupComplete (s : State) (i : Nat) (k wb : Check) : State :=
  match s.ept.lookups[i]? with
  | none => s
  | some l =>
    let s := { s with ept := { s.ept with lookups := s.ept.lookups.eraseIdx i } }
    if s.eptHalted then s.lookupResult l.dest (lookupWord 0 0 0 2) none
    else if !s.on F.EPT_CTL_EN then s.lookupResult l.dest (lookupWord 0 0 0 1) none
    else match s.search l.table l.key k with
      | .miss => s.lookupResult l.dest (lookupWord 0 0 0 1) none
      | .bad src => (s.raise src).lookupResult l.dest (lookupWord 0 0 0 2) none
      | .route r => s.lookupResult l.dest (lookupWord 0 r.nh r.plen 0) none
      | .entry x =>
        match s.bring x wb with
        | (none, s) => s.lookupResult l.dest (lookupWord 0 0 0 2) none
        | (some g, s) =>
          let s := s.entHit x g
          let stuck := match s.eptLine x with | some c => c.stuck | none => false
          if 8 ≤ s.pinsHeld l.dest ∨ stuck = true then s.lookupResult l.dest (lookupWord 0 x 0 3) none
          else (s.pinEntry x).lookupResult l.dest (lookupWord g x 0 0) (some x)

/-! ### The island log (R369) -/

/-- Append a record of a completed command in Island; a full ring sets OVF and raises source 489.  Positions run modulo
65,536 and name record PTR modulo SIZE (log 14). -/
def State.islandLog (s : State) (op kind x : Nat) (key1 : List Byte) : State :=
  if s.mode ≠ 9 || !bit (s.get F.EPT_ILOG_CTL_KINDS) kind then s
  else
    let size := max 1 (s.get F.EPT_ILOG_CTL_SIZE)
    let wr := s.get F.EPT_ILOG_WR_PTR
    let rd := s.get F.EPT_ILOG_RD_PTR
    if size ≤ (wr + 65536 - rd) % 65536 then (s.put F.EPT_ILOG_CTL_OVF 1).raise 489
    else
      let ep := s.get F.EPT_EPOCH_NUM + 2 ^ 31 * s.get F.EPT_EPOCH_ISLAND
      let rec' := [BitVec.ofNat 8 op, BitVec.ofNat 8 kind, 0, 0] ++ natLe x 4 ++ padTo 40 key1 ++ natLe s.now 8
        ++ natLe ep 4 ++ natLe 0 4
      let a := s.get F.EPT_ILOG_BASE_ADDR / 64 * 64 + 64 * (wr % size)
      { s with xm := memPutBytes s.xm a rec' }.put F.EPT_ILOG_WR_PTR (wr + 1)

/-! ### Commands (R357, R358) -/

/-- GM address of command slot `k`. -/
def State.cmdAddr (s : State) (k : Nat) : Nat := s.get F.EPT_CMD_BASE_ADDR / 128 * 128 + 128 * k

/-- The index of an entry is free. -/
def State.entFree (s : State) (x : Nat) : Bool := (s.ent x).kind == 0 && !s.ept.leaving.contains x

/-- The lowest free index at or above `lo`, at most 262,143 (R358): one of the first used + 1. -/
def State.allocIndex (s : State) (lo : Nat) : Option Nat :=
  ((List.range (s.eptOcc + 1)).find? (fun i => decide (lo + i < 0x40000) && s.entFree (lo + i))).map (lo + ·)

/-- What a command answers: STATUS, RESULT and the state. -/
structure CmdEnd where
  status : Nat
  result : Nat
  st : State

/-- INSERT (R358), its checks in their order. -/
def State.insertRun (s : State) (d : List Byte) : CmdEnd :=
  let op := leNat (d.take 4)
  let epx := leNat ((d.drop 4).take 4)
  let kind := bits op 6 4
  let t1 := bits op 9 7
  let t2 := bits op 12 10
  let k2 := bit op 13
  let key1 := (d.drop 8).take (keyLen t1)
  let key2 := if k2 then (d.drop 0x30).take (keyLen t2) else []
  let badT (t : Nat) : Bool := !([0, 2, 3, 6].contains t)
  let bad := bits op 31 14 != 0 || bits epx 30 18 != 0 || kind == 0 || decide (5 < kind) || badT t1 || (k2 && badT t2)
    || ((d.drop 0x68).take 20).any (· != 0)
  let bks := s.buckets t1 key1 ++ (if k2 then s.buckets t2 key2 else [])
  if bad then ⟨5, 0, s⟩
  else if bks.any (fun b => !s.eptXmOk (s.bucketAddr b) 64) then ⟨6, 0, s.raise 480⟩
  else match (match s.findKey t1 key1 with | some x => some x | none => if k2 then s.findKey t2 key2 else none) with
    | some x => ⟨1, x, s⟩
    | none =>
      let p1 := s.freeSlot t1 key1 []
      let p2 := if k2 then s.freeSlot t2 key2 p1.toList else none
      if p1.isNone || (k2 && p2.isNone) then ⟨2, 0, (s.bump F.EPT_CNT_FULL 1).raise 482⟩
      else
        let want := if bit epx 31 then (if s.entFree (bits epx 17 0) then some (bits epx 17 0) else none)
          else s.allocIndex (s.get F.EPT_ALLOC_FLOOR_X)
        match want with
        | none => ⟨3, 0, (s.bump F.EPT_CNT_NOFREE 1).raise 483⟩
        | some x =>
          if !s.eptXmOk (s.entAddr x) 256 then ⟨6, 0, s.raise 480⟩
          else
            let e : EptEnt := { kind := kind, t1 := t1, t2 := if k2 then t2 else 0, k2 := k2,
                                cepoch := s.get F.EPT_EPOCH_NUM + 2 ^ 31 * s.get F.EPT_EPOCH_ISLAND,
                                key1 := key1, key2 := key2 }
            let s := s.setEnt x e
            let bs := e.head ++ (d.drop 0x58).take 8 ++ e.keys ++ List.replicate 152 0
            let s := { s with xm := memPutBytes s.xm (s.entAddr x) bs }
            let s := match p1 with | some p => s.slotPut p.1 p.2 (s.slotFor t1 key1 x) | none => s
            let s := match p2 with | some p => s.slotPut p.1 p.2 (s.slotFor t2 key2 x) | none => s
            ⟨0, x, s.islandLog 1 kind x key1⟩

/-- REMOVE (R358). -/
def State.removeRun (s : State) (d : List Byte) : CmdEnd :=
  let op := leNat (d.take 4)
  let epx := leNat ((d.drop 4).take 4)
  let x := bits epx 17 0
  let e := s.ent x
  if bits op 31 14 != 0 || bits epx 30 18 != 0 || ((d.drop 0x68).take 20).any (· != 0) then ⟨5, x, s⟩
  else if e.kind = 0 then ⟨4, x, s⟩
  else if !s.eptXmOk (s.entAddr x) 256 then ⟨6, x, s.raise 480⟩
  else
    let s := s.unindex x e.t1 e.key1
    let s := if e.k2 then s.unindex x e.t2 e.key2 else s
    let pinned := tabGet (fun _ => 0) s.ept.pins x != 0
    let gone := { e with kind := 0 }
    let s := match s.eptLine x with
      | some l => { s with gm := memPutBytes s.gm l.gaddr gone.head }
      | none => s
    let s := { s with xm := memPutBytes s.xm (s.entAddr x) gone.head }
    let s := if pinned then { s with ept := { s.ept with leaving := s.ept.leaving ++ [x] } } else s.dropLine x
    ⟨0, x, (s.setEnt x {}).islandLog 2 e.kind x e.key1⟩

/-- The command of slot `k` is carried out when its GO word is not 0 and its OP is `remove` or not (R357): STATUS and
RESULT are written, and GO returns to 0.  A lasting read error or a halted engine gives MEMERR (R371, R373). -/
def State.eptCommand (s : State) (k : Nat) (remove : Bool) (c : Check) : State :=
  let a := s.cmdAddr k
  let d := memBytes s.gm a 128
  let op := leNat (d.take 4) % 16
  if !s.on F.EPT_CTL_EN || leNat (d.drop 0x7C) == 0 || (op == 2) != remove then s
  else
    let named := if op = 2 then leNat ((d.drop 4).take 4) % 2 ^ 18 else 0
    let r : CmdEnd :=
      if s.eptHalted then ⟨6, named, s⟩
      else if c = .lasting then ⟨6, named, s.raise 480⟩
      else if op = 1 then s.insertRun d
      else if op = 2 then s.removeRun d
      else ⟨5, 0, s⟩
    { r.st with gm := memPutNat (memPutNat (memPutNat r.st.gm (a + 0x60) 4 r.status) (a + 0x64) 4 r.result) (a + 0x7C) 4 0 }

/-! ### Routes (R361) -/

/-- GO in `EPT.RT_UPD`: the staged route. -/
def State.routeUpdate (s : State) : State :=
  let w4 := s.get (F.EPT_RT_STAGE_WORD 4)
  let plen := bits w4 7 0
  let v6 := bit w4 8
  let w := if v6 then 128 else 32
  let raw := (List.range 4).flatMap (fun k => natLe (s.get (F.EPT_RT_STAGE_WORD k)) 4)
  let a := beNat (raw.take (w / 8))
  let cap := if v6 then 32768 else 65536
  if w < plen then s.put F.EPT_RT_UPD_ERR 1
  else
    let pre := a / 2 ^ (w - plen) * 2 ^ (w - plen)
    let same (r : Route) : Bool := r.v6 == v6 && r.plen == plen && r.pre == pre
    let here := s.ept.routes.any same
    let rest := s.ept.routes.filter (fun r => !same r)
    let set (l : List Route) (s : State) : State :=
      let s := { s with ept := { s.ept with routes := l } }.put F.EPT_RT_UPD_ERR 0
      s.put (if v6 then F.EPT_RT_OCC6_N else F.EPT_RT_OCC4_N) (l.filter (fun r => r.v6 == v6)).length
    if bit w4 9 then (if here then set rest s else s.put F.EPT_RT_UPD_ERR 1)
    else if !here && decide (cap ≤ (s.ept.routes.filter (fun r => r.v6 == v6)).length) then
      (s.put F.EPT_RT_UPD_ERR 1).raise 485
    else set (rest ++ [⟨v6, plen, pre, bits (s.get (F.EPT_RT_STAGE_WORD 5)) 17 0⟩]) s

/-- The node number a Pip address stands for (R250): the endpoint of table 6, its node the target of its egress word. -/
def State.pipIndex (s : State) (addr : Nat) : Option Nat :=
  if !s.on F.EPT_CTL_EN then none
  else match s.findKey 6 (natLe addr 4) with
    | some x =>
      let e := match s.eptLine x with
        | some l => memNat s.gm (l.gaddr + 0x10) 8
        | none => memNat s.xm (s.entAddr x + 0x10) 8
      some (bits e 41 24 % 16384)
    | none => none

end Sys2Proof.Machine
end

