-- ==== Sys2Proof/Machine/Journal.lean ====
section
/-! DEFINITION. The configuration journal in NOR flash (R363 - R368, R371). -/

namespace Sys2Proof.Machine

/-! ### Flash -/

/-- A flash byte that nothing has programmed since an erase. -/
def flashDflt (_ : Nat) : Byte := 0xFF

/-- Bytes of the flash. -/
def flashBytes (m : Mem) (a : Nat) : Nat → List Byte
  | 0 => []
  | n + 1 => tabGet flashDflt m a :: flashBytes m (a + 1) n

/-- Program bytes: programming only clears bits (R364). -/
def flashProgram (m : Mem) (a : Nat) : List Byte → Mem
  | [] => m
  | b :: bs => flashProgram (tabSet flashDflt m a (tabGet flashDflt m a &&& b)) (a + 1) bs

/-- Erase a 64 KiB block. -/
def flashErase (m : Mem) (a : Nat) : Mem := m.filter (fun e => decide (e.1 < a ∨ a + 0x10000 ≤ e.1))

/-- Flash byte address of journal sector `i` (R363). -/
def State.sectorAddr (s : State) (i : Nat) : Nat := 0x10000 * (s.get F.EPT_JRN_CFG_OFS + i)

/-- Bytes of a sector. -/
def State.sectorBytes (s : State) (i off n : Nat) : List Byte := flashBytes s.flash (s.sectorAddr i + off) n

/-- Magic of a sector header. -/
def jrnMagic : Nat := 0x4A524E4C

/-- A sector header is good: magic and CRC (R363). -/
def State.sectorGood (s : State) (i : Nat) : Bool :=
  let h := s.sectorBytes i 0 20
  leNat (h.take 4) == jrnMagic && leNat (h.drop 16) == crc32 (h.take 16)

/-- Erase count of a sector. -/
def State.sectorErases (s : State) (i : Nat) : Nat := leNat (s.sectorBytes i 4 4)
/-- Sector sequence. -/
def State.sectorSeq (s : State) (i : Nat) : Nat := leNat (s.sectorBytes i 8 8)

/-- A sector header (R363). -/
def sectorHeader (erases seq : Nat) : List Byte :=
  let h := natLe jrnMagic 4 ++ natLe erases 4 ++ natLe seq 8
  h ++ natLe (crc32 h) 4 ++ List.replicate 12 0xFF

/-! ### Records -/

/-- One record as it stands in flash (R363). -/
structure JrnRec where
  sector : Nat := 0
  off : Nat := 0
  state : Nat := 0
  type : Nat := 0
  id : Nat := 0
  seq : Nat := 0
  epoch : Nat := 0
  dev : Nat := 0
  payload : List Byte := []
  crcOk : Bool := false
deriving DecidableEq, Repr

/-- A committed record with a valid CRC (R364). -/
def JrnRec.good (r : JrnRec) : Bool := r.state == 0xFC && r.crcOk

/-- A deletion. -/
def JrnRec.del (r : JrnRec) : Bool := bit r.dev 15

/-- Bytes a record takes: 32 of header, and the payload padded to a multiple of 32. -/
def jrnSize (len : Nat) : Nat := 32 + cdiv len 32 * 32

/-- Bytes 0x01 - 0x17 of a record. -/
def jrnBody (type len id seq epoch dev : Nat) : List Byte :=
  natLe type 1 ++ natLe len 2 ++ natLe id 4 ++ natLe seq 8 ++ natLe epoch 4 ++ natLe dev 2 ++ [0xFF, 0xFF]

/-- The bytes of a record with STATE 0xFE (R363, R364). -/
def jrnBytes (type id seq epoch dev : Nat) (payload : List Byte) : List Byte :=
  let b := jrnBody type payload.length id seq epoch dev
  [0xFE] ++ b ++ natLe (crc32 (b ++ payload)) 4 ++ List.replicate 4 0xFF
    ++ payload ++ List.replicate (cdiv payload.length 32 * 32 - payload.length) 0xFF

/-- Read the record at an offset of a sector. -/
def State.jrnRead (s : State) (i off : Nat) : JrnRec :=
  let h := s.sectorBytes i off 32
  let len := leNat ((h.drop 2).take 2)
  let p := s.sectorBytes i (off + 32) (min len 4064)
  { sector := i, off := off, state := leNat (h.take 1), type := leNat ((h.drop 1).take 1), id := leNat ((h.drop 4).take 4),
    seq := leNat ((h.drop 8).take 8), epoch := leNat ((h.drop 16).take 4), dev := leNat ((h.drop 20).take 2), payload := p,
    crcOk := decide (len ≤ 4064) && leNat ((h.drop 24).take 4) == crc32 ((h.drop 1).take 23 ++ p) }

/-- Walk the records of a sector from an offset: the records, and the first free offset. -/
def State.jrnWalk (s : State) (i : Nat) : Nat → Nat → List JrnRec × Nat
  | 0, off => ([], off)
  | n + 1, off =>
    if 0x10000 < off + 32 then ([], 0x10000)
    else
      let r := s.jrnRead i off
      if r.state = 0xFF then ([], off)
      else
        let next := off + jrnSize r.payload.length
        let t := s.jrnWalk i n next
        (r :: t.1, t.2)

/-- Records of a sector. -/
def State.jrnRecords (s : State) (i : Nat) : List JrnRec := (s.jrnWalk i 2048 32).1
/-- First free offset of a sector. -/
def State.jrnFree (s : State) (i : Nat) : Nat := (s.jrnWalk i 2048 32).2

/-- The sectors with good headers. -/
def State.goodSectors (s : State) : List Nat := (List.range 64).filter s.sectorGood
/-- The sectors that hold data, lowest sequence first. -/
def State.dataSectors (s : State) : List Nat :=
  sortBy s.sectorSeq (s.goodSectors.filter (fun i => decide (32 < s.jrnFree i)))

/-- Every good record, in sector order and place. -/
def State.goodRecords (s : State) : List JrnRec := s.dataSectors.flatMap (fun i => (s.jrnRecords i).filter JrnRec.good)

/-- Keep the later of two records of a key: highest SEQ, then the later sector (R365, R368). -/
def keepLater (l : List JrnRec) (r : JrnRec) : List JrnRec :=
  match l.find? (fun q => q.type == r.type && q.id == r.id) with
  | some q => if q.seq ≤ r.seq then l.filter (fun x => x != q) ++ [r] else l
  | none => l ++ [r]

/-- The live record of every key, in ascending SEQ (R365, R366). -/
def State.liveRecords (s : State) : List JrnRec := sortBy (fun r => r.seq) (s.goodRecords.foldl keepLater [])

/-- Bytes of the live records. -/
def State.liveBytes (s : State) : Nat := (s.liveRecords.map (fun r => jrnSize r.payload.length)).sum

/-- One directory entry (R366). -/
def State.dirEntry (s : State) (r : JrnRec) : List Byte :=
  natLe r.type 1 ++ natLe (b2n r.del) 1 ++ natLe r.payload.length 2 ++ natLe r.id 4 ++ natLe (s.sectorAddr r.sector + r.off) 4
    ++ natLe r.epoch 4 ++ natLe r.seq 8 ++ natLe (r.dev % 64) 2 ++ List.replicate 6 0

/-- Write the directory and the registers that follow the flash (R366, R372). -/
def State.jrnRefresh (s : State) : State :=
  let live := s.liveRecords
  let dir := live.flatMap s.dirEntry
  let s := { s with xm := memPutBytes s.xm (s.get F.EPT_JRN_DIR_ADDR / 32 * 32) dir }
  let s := s.put F.EPT_JRN_KEYS_N live.length
  (s.put F.EPT_JRN_STAT_USED s.dataSectors.length).put F.EPT_JRN_STAT_LIVE s.liveBytes

/-- MOUNT (R366): torn records are counted, the directory is written, and appends may follow. -/
def State.journalMount (s : State) : State :=
  let torn := ((s.goodSectors.flatMap s.jrnRecords).filter (fun r => !r.good)).length
  let top := (s.goodRecords.map (fun r => r.seq)).foldl max 0
  let s := (s.bump F.EPT_JRN_CNT_TORN torn).put F.EPT_JRN_SEQ_SEQ (max top (s.get F.EPT_JRN_SEQ_SEQ))
  s.jrnRefresh.put F.EPT_JRN_CTL_MOUNTED 1

/-! ### Appending -/

/-- The highest sector sequence in use. -/
def State.topSectorSeq (s : State) : Nat := (s.goodSectors.map s.sectorSeq).foldl max 0

/-- Erase a sector and write its header with the next sequence (R363, R368).  A sector without a good header starts its
erase count at 1 (log 15). -/
def State.freshSector (s : State) (i : Nat) : State :=
  let n := if s.sectorGood i then s.sectorErases i + 1 else 1
  let seq := s.topSectorSeq + 1
  { s with flash := flashProgram (flashErase s.flash (s.sectorAddr i)) (s.sectorAddr i) (sectorHeader n seq) }

/-- The sector at the head: the data sector of highest sequence. -/
def State.headSector (s : State) : Option Nat := s.dataSectors.getLast?

/-- The empty sector that is taken next: the one of lowest sequence with a good header, else the lowest-numbered other. -/
def State.nextSector (s : State) : Option Nat :=
  let empty := s.goodSectors.filter (fun i => decide (s.jrnFree i ≤ 32))
  match minBy s.sectorSeq empty with
  | some i => some i
  | none => (List.range 64).find? (fun i => !s.sectorGood i)

/-- Sectors that hold no data, `held` of them apart. -/
def State.sparesBeyond (s : State) (held : Nat) : Bool := decide (held + s.dataSectors.length < 64)

/-- Where a record of `n` bytes goes: the head, or a fresh sector; `held` sectors are held back from it, two from an append
and none from a compaction (R368). -/
def State.jrnPlace (s : State) (n held : Nat) : Option (Nat × Nat) × State :=
  let fresh (s : State) : Option (Nat × Nat) × State :=
    match (if s.sparesBeyond held then s.nextSector else none) with
    | some i => (some (i, 32), if s.sectorGood i then s else s.freshSector i)
    | none => (none, s)
  match s.headSector with
  | some i => let off := s.jrnFree i; if off + n ≤ 0x10000 then (some (i, off), s) else fresh s
  | none => fresh s

/-- Program a record: written, and committed when its read-back compares (R364). -/
def State.jrnProgram (s : State) (bs : List Byte) (ok : Bool) (held : Nat) : State :=
  match s.jrnPlace bs.length held with
  | (some (i, off), s) =>
    let a := s.sectorAddr i + off
    let m := flashProgram s.flash a bs
    { s with flash := if ok then flashProgram m a [0xFC] else m }
  | (none, s) => s

/-- An older record of the key remains in some sector (R365). -/
def State.olderRemains (s : State) (r : JrnRec) : Bool :=
  s.goodRecords.any (fun q => q.type == r.type && q.id == r.id && decide (q.seq < r.seq))

/-- Compact one sector (R368): the live records of the sector of lowest sequence go to the head, a deletion with no older
record of its key is dropped, and the sector is erased; `ok` tells whether the erase succeeded.  With no sector to copy to, none
is compacted (log 15). -/
def State.compactOne (s : State) (ok : Bool) : State :=
  match (if s.sparesBeyond 0 then s.dataSectors else []) with
  | [] => s
  | i :: _ =>
    let live := s.liveRecords.filter (fun r => r.sector == i && !(r.del && !s.olderRemains r))
    let s := forEach live (fun r s => s.jrnProgram (jrnBytes r.type r.id r.seq r.epoch r.dev r.payload) true 0) s
    let s := s.bump F.EPT_JRN_CNT_COMPACT 1
    if ok then s.freshSector i else s.raise 487

/-- Compact until fewer than 48 sectors hold data (R368). -/
def State.compactAll (s : State) (ok : Bool) : Nat → State
  | 0 => s
  | n + 1 =>
    if s.dataSectors.length < 48 then s
    else
      let t := s.compactOne ok
      if ok then t.compactAll ok n else t

/-- COMPACT (R368, R372): one sector now. -/
def State.journalCompact (s : State) (ok : Bool) : State :=
  if s.on F.EPT_JRN_CTL_MOUNTED then (s.compactOne ok).jrnRefresh else s

/-- The live data and the directory have room for one more record (R367). -/
def State.jrnRoom (s : State) (q : JrnReq) : Bool :=
  let l := s.liveRecords
  let here := l.any (fun r => r.type == q.type && r.id == q.id)
  decide (s.liveBytes + jrnSize q.payload.length ≤ 2883584) && (here || decide (l.length < 65536))

/-- GO in `EPT.JRN_APP` (R366, R367): refusals at once, otherwise the append waits its turn.  A GO while the requester's
own append runs is ignored (R7). -/
def State.journalAppend (s : State) (who : Nat) : State :=
  if s.ept.appends.any (fun q => q.who == who) then s
  else
    let type := s.get (F.EPT_JRN_APP_TYPE who)
    let len := s.get (F.EPT_JRN_APP_LEN who)
    let q : JrnReq := ⟨who, type, s.on (F.EPT_JRN_APP_DEL who), s.get (F.EPT_JRN_ID_ID who),
      memBytes s.gm (s.get (F.EPT_JRN_SRC_ADDR who)) len⟩
    if !s.on F.EPT_JRN_CTL_MOUNTED then s.put (F.EPT_JRN_APP_STATUS who) 1
    else if type = 0 ∨ 4064 < len then s.put (F.EPT_JRN_APP_STATUS who) 4
    else if !s.jrnRoom q then (s.put (F.EPT_JRN_APP_STATUS who) 2).raise 488
    else
      let s := { s with ept := { s.ept with appends := s.ept.appends ++ [q] } }
      (s.put (F.EPT_JRN_APP_GO who) 1).put F.EPT_JRN_CTL_BUSY 1

/-- The oldest append ends with a STATUS. -/
def State.appendEnds (s : State) (q : JrnReq) (status : Nat) : State :=
  let rest := s.ept.appends.drop 1
  let s := { s with ept := { s.ept with appends := rest } }
  let s := (s.put (F.EPT_JRN_APP_GO q.who) 0).put (F.EPT_JRN_APP_STATUS q.who) status
  if rest = [] then s.put F.EPT_JRN_CTL_BUSY 0 else s

/-- The oldest append is carried out (R364, R367, R368): `ok1` and `ok2` tell how its read-back and that of its retry
compare, `erase` whether a compaction's erase succeeds.  With no sector to take, as after erases that failed, it ends as a
flash error (DESIGN CHOICE, log 15). -/
def State.journalAppendDone (s : State) (ok1 ok2 erase : Bool) : State :=
  match s.ept.appends with
  | [] => s
  | q :: _ =>
    if !s.jrnRoom q then (s.appendEnds q 2).raise 488
    else
      let seq := s.get F.EPT_JRN_SEQ_SEQ + 1
      let dev := s.get F.FED_ID_ID + 2 ^ 15 * b2n q.del
      let bs := jrnBytes q.type q.id seq (s.get F.EPT_EPOCH_NUM + 2 ^ 31 * s.get F.EPT_EPOCH_ISLAND) dev q.payload
      let s := s.put F.EPT_JRN_SEQ_SEQ seq
      let room := (s.jrnPlace bs.length 2).1.isSome
      let s := s.jrnProgram bs ok1 2
      let s := if ok1 then s else s.jrnProgram bs ok2 2
      let s := if room && (ok1 || ok2) then s.appendEnds q 0 else (s.appendEnds q 3).raise 486
      (s.compactAll erase 64).jrnRefresh

/-- The flash does not answer in time (R371): the running append is abandoned with its record at 0xFE. -/
def State.flashTimeout (s : State) : State :=
  match s.ept.appends with
  | [] => s
  | q :: _ => (s.appendEnds q 3).raise 490

end Sys2Proof.Machine
end

