-- ==== Sys2Proof/Machine/Crypto.lean ====
section
/-! DEFINITION. The ciphers of the job operations (R344): AES with 128- and 256-bit keys, GCM, CCM and CMAC.
The spec names the standards and does not restate them: PRESUMED (log 7).  Blocks are lists of 16 bytes as
numbers. -/

namespace Sys2Proof.Machine

/-- The AES substitution box. -/
def aesSbox : List Nat :=
  [0x63, 0x7C, 0x77, 0x7B, 0xF2, 0x6B, 0x6F, 0xC5, 0x30, 0x01, 0x67, 0x2B, 0xFE, 0xD7, 0xAB, 0x76]
  ++ [0xCA, 0x82, 0xC9, 0x7D, 0xFA, 0x59, 0x47, 0xF0, 0xAD, 0xD4, 0xA2, 0xAF, 0x9C, 0xA4, 0x72, 0xC0]
  ++ [0xB7, 0xFD, 0x93, 0x26, 0x36, 0x3F, 0xF7, 0xCC, 0x34, 0xA5, 0xE5, 0xF1, 0x71, 0xD8, 0x31, 0x15]
  ++ [0x04, 0xC7, 0x23, 0xC3, 0x18, 0x96, 0x05, 0x9A, 0x07, 0x12, 0x80, 0xE2, 0xEB, 0x27, 0xB2, 0x75]
  ++ [0x09, 0x83, 0x2C, 0x1A, 0x1B, 0x6E, 0x5A, 0xA0, 0x52, 0x3B, 0xD6, 0xB3, 0x29, 0xE3, 0x2F, 0x84]
  ++ [0x53, 0xD1, 0x00, 0xED, 0x20, 0xFC, 0xB1, 0x5B, 0x6A, 0xCB, 0xBE, 0x39, 0x4A, 0x4C, 0x58, 0xCF]
  ++ [0xD0, 0xEF, 0xAA, 0xFB, 0x43, 0x4D, 0x33, 0x85, 0x45, 0xF9, 0x02, 0x7F, 0x50, 0x3C, 0x9F, 0xA8]
  ++ [0x51, 0xA3, 0x40, 0x8F, 0x92, 0x9D, 0x38, 0xF5, 0xBC, 0xB6, 0xDA, 0x21, 0x10, 0xFF, 0xF3, 0xD2]
  ++ [0xCD, 0x0C, 0x13, 0xEC, 0x5F, 0x97, 0x44, 0x17, 0xC4, 0xA7, 0x7E, 0x3D, 0x64, 0x5D, 0x19, 0x73]
  ++ [0x60, 0x81, 0x4F, 0xDC, 0x22, 0x2A, 0x90, 0x88, 0x46, 0xEE, 0xB8, 0x14, 0xDE, 0x5E, 0x0B, 0xDB]
  ++ [0xE0, 0x32, 0x3A, 0x0A, 0x49, 0x06, 0x24, 0x5C, 0xC2, 0xD3, 0xAC, 0x62, 0x91, 0x95, 0xE4, 0x79]
  ++ [0xE7, 0xC8, 0x37, 0x6D, 0x8D, 0xD5, 0x4E, 0xA9, 0x6C, 0x56, 0xF4, 0xEA, 0x65, 0x7A, 0xAE, 0x08]
  ++ [0xBA, 0x78, 0x25, 0x2E, 0x1C, 0xA6, 0xB4, 0xC6, 0xE8, 0xDD, 0x74, 0x1F, 0x4B, 0xBD, 0x8B, 0x8A]
  ++ [0x70, 0x3E, 0xB5, 0x66, 0x48, 0x03, 0xF6, 0x0E, 0x61, 0x35, 0x57, 0xB9, 0x86, 0xC1, 0x1D, 0x9E]
  ++ [0xE1, 0xF8, 0x98, 0x11, 0x69, 0xD9, 0x8E, 0x94, 0x9B, 0x1E, 0x87, 0xE9, 0xCE, 0x55, 0x28, 0xDF]
  ++ [0x8C, 0xA1, 0x89, 0x0D, 0xBF, 0xE6, 0x42, 0x68, 0x41, 0x99, 0x2D, 0x0F, 0xB0, 0x54, 0xBB, 0x16]

/-- Multiplication by x in the AES field. -/
def aesX (a : Nat) : Nat := if a < 128 then 2 * a else Nat.xor (2 * a) 0x11B

/-- Byte-wise exclusive or of two byte lists. -/
def xorBytes (a b : List Nat) : List Nat := List.zipWith Nat.xor a b

/-- Substitute each byte. -/
def aesSub (l : List Nat) : List Nat := l.map (fun b => aesSbox.getD b 0)

/-- Row r of the state moves left by r places; byte 4c + r stands in row r, column c. -/
def aesShift (l : List Nat) : List Nat :=
  (List.range 16).map (fun i => l.getD ((i + 4 * (i % 4)) % 16) 0)

/-- Mix one column. -/
def aesMixCol (a b c d : Nat) : List Nat :=
  let f (p q r s : Nat) := Nat.xor (Nat.xor (aesX p) (Nat.xor (aesX q) q)) (Nat.xor r s)
  [f a b c d, f b c d a, f c d a b, f d a b c]

/-- Mix the four columns. -/
def aesMix : List Nat → List Nat
  | a :: b :: c :: d :: t => aesMixCol a b c d ++ aesMix t
  | _ => []

/-- The next key word: `n` words so far, `nk` words of key, the word `nk` back and the last word. -/
def aesNextWord (nk n rcon : Nat) (back last : List Nat) : List Nat :=
  let rot := last.drop 1 ++ last.take 1
  let t := if n % nk = 0 then
      match aesSub rot with
      | x :: r => Nat.xor x rcon :: r
      | [] => []
    else if nk = 8 ∧ n % 8 = 4 then aesSub last else last
  xorBytes back t

/-- The key schedule, words in reverse order, built `k` more words on. -/
def aesExpand (nk : Nat) : Nat → Nat → Nat → List (List Nat) → List (List Nat)
  | 0, _, _, w => w
  | k + 1, n, rcon, w =>
    let nw := aesNextWord nk n rcon (w.getD (nk - 1) []) (w.getD 0 [])
    aesExpand nk k (n + 1) (if n % nk = 0 then aesX rcon else rcon) (nw :: w)

/-- Split a byte list into groups of `n`. -/
def chunks (n : Nat) : Nat → List Nat → List (List Nat)
  | 0, _ => []
  | k + 1, l => l.take n :: chunks n k (l.drop n)

/-- The round keys of a 16- or 32-byte key. -/
def aesRoundKeys (key : List Nat) : List (List Nat) :=
  let nk := key.length / 4
  let rounds := nk + 6
  let words := (aesExpand nk (4 * (rounds + 1) - nk) nk 1 (chunks 4 nk key).reverse).reverse
  chunks 16 (rounds + 1) words.flatten

/-- The rounds after the first key addition. -/
def aesRounds : List (List Nat) → List Nat → List Nat
  | [], s => s
  | [k], s => xorBytes (aesShift (aesSub s)) k
  | k :: ks, s => aesRounds ks (xorBytes (aesMix (aesShift (aesSub s))) k)

/-- AES encryption of one block. -/
def aesBlock (key block : List Nat) : List Nat :=
  match aesRoundKeys key with
  | [] => block
  | k :: ks => aesRounds ks (xorBytes block k)

/-- Pad with zeros to a whole number of blocks. -/
def pad16 (l : List Nat) : List Nat := l ++ List.replicate ((16 - l.length % 16) % 16) 0

/-- The blocks of a byte list, the last one padded with zeros. -/
def blocks16 (l : List Nat) : List (List Nat) := chunks 16 (cdiv l.length 16) (pad16 l)

/-- The `n` big-endian bytes of a number. -/
def beBytes (v : Nat) : Nat → List Nat
  | 0 => []
  | n + 1 => beBytes (v / 256) n ++ [v % 256]

/-- The number of big-endian bytes. -/
def ofBe (l : List Nat) : Nat := l.foldl (fun n b => 256 * n + b) 0

/-- Counter mode over blocks of text from a 32-bit counter in the last 4 bytes. -/
def ctrBlocks (key pre : List Nat) : Nat → List (List Nat) → List Nat
  | _, [] => []
  | c, b :: bs => xorBytes (aesBlock key (pre ++ beBytes (c % 2 ^ 32) 4)) b ++ ctrBlocks key pre (c + 1) bs

/-- Multiplication in GCM's field: bit 127 of a block, as a big-endian number, is the constant term. -/
def ghashMul : Nat → Nat → Nat → Nat
  | 0, _, _ => 0
  | n + 1, x, v =>
    let r := ghashMul n x (if v % 2 = 1 then Nat.xor (v / 2) (0xE1 * 2 ^ 120) else v / 2)
    if bit x n then Nat.xor r v else r

/-- GHASH of blocks under H. -/
def ghash (h : Nat) (bs : List (List Nat)) : Nat := bs.foldl (fun y b => ghashMul 128 (Nat.xor y (ofBe b)) h) 0

/-- The GCM tag of ciphertext `c` and AAD `a`. -/
def gcmTag (key nonce a c : List Nat) : List Nat :=
  let h := ofBe (aesBlock key (List.replicate 16 0))
  let len := beBytes (8 * a.length) 8 ++ beBytes (8 * c.length) 8
  xorBytes (beBytes (ghash h (blocks16 a ++ blocks16 c ++ [len])) 16) (aesBlock key (nonce ++ [0, 0, 0, 1]))

/-- GCM encryption or decryption of text with a 12-byte nonce. -/
def gcmText (key nonce text : List Nat) : List Nat := (ctrBlocks key nonce 2 (blocks16 text)).take text.length

/-- CBC-MAC of blocks. -/
def cbcMac (key : List Nat) (bs : List (List Nat)) : List Nat :=
  bs.foldl (fun y b => aesBlock key (xorBytes y b)) (List.replicate 16 0)

/-- The CCM tag of plaintext `p` and AAD `a`, a 13-byte nonce, before truncation to `t` bytes. -/
def ccmTag (key nonce a p : List Nat) (t : Nat) : List Nat :=
  let b0 := (64 * b2n (!a.isEmpty) + 8 * ((t - 2) / 2) + 1) :: nonce ++ beBytes p.length 2
  let ad := if a.isEmpty then [] else blocks16 (beBytes a.length 2 ++ a)
  xorBytes (cbcMac key (b0 :: ad ++ blocks16 p)) (aesBlock key (1 :: nonce ++ [0, 0]))

/-- CCM encryption or decryption of text with a 13-byte nonce. -/
def ccmText (key nonce text : List Nat) : List Nat :=
  (ctrBlocks key (1 :: nonce.take 11) (ofBe (nonce.drop 11) * 65536 + 1) (blocks16 text)).take text.length

/-- Doubling in CMAC's field. -/
def cmacDouble (l : List Nat) : List Nat :=
  let v := 2 * ofBe l
  beBytes (if 2 ^ 128 ≤ v then Nat.xor (v - 2 ^ 128) 0x87 else v) 16

/-- AES-CMAC of a message. -/
def cmac (key msg : List Nat) : List Nat :=
  let k1 := cmacDouble (aesBlock key (List.replicate 16 0))
  let n := cdiv msg.length 16 - 1
  let last := msg.drop (16 * n)
  let fin := if last.length = 16 then xorBytes last k1
    else xorBytes (pad16 (last ++ [0x80])) (cmacDouble k1)
  cbcMac key (chunks 16 n msg ++ [fin])

end Sys2Proof.Machine
end

