-- ==== Sys2Proof/Machine/Time.lean ====
section
/-! DEFINITION. The time bases (R101 - R112), egress stamps, PPS, and how a sequencer's wait ends. -/

namespace Sys2Proof.Machine

/-- The signed rate ρ in units of 2^-40 (R105). -/
def State.rho (s : State) : Int := signed 32 (s.get F.TIME_TBN_RATE_RHO)

/-- TBN at TBM instant `t` (both in 2^-32 ns), under the mapping in force (R105), modulo 2^96. -/
def State.tbnAt (s : State) (t : Nat) : Nat :=
  ofSigned 96 (s.time.tbnBase + ((t : Int) - s.time.tbnAnchor) * (2 ^ 40 + s.rho) / 2 ^ 40)

/-- Present TBN in units of 2^-32 ns. -/
def State.tbn (s : State) : Nat := s.tbnAt s.time.tbm

/-- The least TBM nanosecond at which TBN reaches `v` whole nanoseconds (R126, R129). -/
def State.tbnToTbm (s : State) (v : Nat) : Int :=
  let d : Int := (v : Int) * 2 ^ 32 - s.time.tbnBase
  let t : Int := s.time.tbnAnchor + -(-(d * 2 ^ 40) / (2 ^ 40 + s.rho))
  (-(-t / 2 ^ 32) : Int)

/-- Fix TBN's present value as its new base. -/
def State.tbnRebase (s : State) : State :=
  { s with time := { s.time with tbnBase := s.tbn, tbnAnchor := s.time.tbm } }

/-- A new rate word applies from now (R105); TBN does not step. -/
def State.setRho (s : State) (v : Int) : State := s.tbnRebase.put F.TIME_TBN_RATE_RHO (ofSigned 32 v)

/-- Largest rate magnitude, ±1,000 ppm (R108). -/
def rhoMax : Int := 1099511628

/-- `TIME.TBN_RATE` (R105, R108, R109): clamped with source 2, and HOLDOVER clears. -/
def State.tbnRateWrite (s : State) (v : Word) : State :=
  let r := v.toInt
  let c := if r < -rhoMax then -rhoMax else if rhoMax < r then rhoMax else r
  ((s.setRho c).put F.TIME_TBN_CTL_HOLDOVER 0).raiseIf (decide (c ≠ r)) 2

/-- `TIME.TBN_STEP` (R106): `ofs` is the 96-bit signed offset; ignored with source 1 while not armed. -/
def State.tbnStep (s : State) (ofs : Nat) : State :=
  if s.on F.TIME_TBN_CTL_ARMED then
    let s := s.tbnRebase
    let s := { s with time := { s.time with tbnBase := ofSigned 96 (s.time.tbnBase + signed 96 ofs) } }
    let s := { s with time := { s.time with tbnSteps := s.time.tbnSteps + 1 } }
    (s.put F.TIME_TBN_CTL_LOCKED 1).put F.TIME_TBN_CTL_ARMED 0
  else s.raise 1

/-- A wait of sequencer `n` ends with a result, and the program goes on. -/
def State.seqResume (s : State) (n sd : Nat) (v : Nat) : State :=
  let q := s.seq n
  (s.setSeq n { q with wait := none, pc := (q.pc + 4) % 0x10000 }).setReg (512 + n) sd (BitVec.ofNat 64 v)

/-- `PPS_OUT` follows TBN (modes 1 and 2) or TBM (mode 3), or is held low (R131). -/
def State.ppsActive (s : State) : Bool :=
  let m := s.get F.TIME_PPS_CTL_OUT_MODE
  s.domOn 5 && (m == 2 || m == 3 || (m == 1 && s.on F.TIME_TBN_CTL_LOCKED))

/-- A pulse of `PPS_OUT` that no longer follows its base ends; the ball rises again at a whole second only (R131). -/
def State.ppsCut (s : State) : State :=
  if s.ppsActive then s else { s with time := { s.time with ppsOut := false } }

/-- A reset of TBN ends the WAITTs on TBN with status 2 (R89). -/
def State.endTbnWaits (s : State) : State :=
  forEach (List.range 4) (fun n s =>
    match (s.seq n).wait with
    | some (.time sd 1 _) => s.seqResume n sd 2
    | _ => s) s

/-- RESET in `TIME.TBN_CTL` (R107). -/
def State.tbnReset (s : State) : State :=
  let s := { s with time := { s.time with tbnSteps := s.time.tbnSteps + 1 } }
  let s := (((s.setRho 0).put F.TIME_TBN_CTL_LOCKED 0).put F.TIME_TBN_CTL_HOLDOVER 0).put F.TIME_TBN_CTL_ARMED 1
  s.ppsCut.endTbnWaits

/-- HOLD (R109). -/
def State.tbnHold (s : State) : State := (s.setRho 0).put F.TIME_TBN_CTL_HOLDOVER 1

/-- Radio `n`'s TSF in µs (R112). -/
def State.tsf (s : State) (n : Nat) : Nat :=
  ofSigned 64 (((s.now : Int) - s.time.tsfBase.getD n 0) / 1000)

/-- Set radio `n`'s TSF: the present nanosecond becomes its microsecond boundary, and every target beacon time of the new
value is still to come (R211). -/
def State.setTsf (s : State) (n : Nat) (v : Nat) : State :=
  let x := s.air.radio.getD n {}
  { s with time := { s.time with tsfBase := setAt s.time.tsfBase n ((s.now : Int) - 1000 * v) },
           air := { s.air with radio := setAt s.air.radio n { x with tbtt := [] } } }

/-- The TBM nanosecond at which radio `n`'s TSF, read as 64 bits, is `v` microseconds (R112). -/
def State.tsfToTbm (s : State) (n : Nat) (v : Nat) : Int := s.time.tsfBase.getD n 0 + 1000 * v

/-- BSSID `b` of radio `n` beacons (R211, R215). -/
def State.bssBeacons (s : State) (n b : Nat) : Bool :=
  s.on (F.MX_BSS_CFG_EN n b) && s.on (F.MX_BSS_CFG_BCN n b) && (b == 0 || !s.on (F.MX_BSS_CFG_NONTX n b))
    && s.get (F.MX_BCN_TPL_LEN n b) != 0

/-- Some BSSID of radio `n` is enabled for beaconing (R112). -/
def State.beaconing (s : State) (n : Nat) : Bool := (List.range 16).any (s.bssBeacons n)

/-- `TIME.TSF[n]` (R112): refused with source 5 while the radio beacons. -/
def State.tsfWrite (s : State) (n : Nat) (v : Nat) : State :=
  if s.beaconing n then s.raise 5 else s.setTsf n v

/-- The 32.768 kHz clock goes missing (R553): source 7; a TBM that runs on it moves to the fallback at its next tick. -/
def State.x32kLoss (s : State) : State := (s.put F.TIME_CLK_STAT_X32K_OK 0).raise 7

/-- The 32.768 kHz clock returns (R553): a TBM on the fallback leaves it at its next tick. -/
def State.x32kReturn (s : State) : State := s.put F.TIME_CLK_STAT_X32K_OK 1

/-- TBM moves to the 32.768 kHz clock, or to the fallback when that is absent (R104, R553). -/
def State.tbmSlow (s : State) : State :=
  { s.put F.TIME_CLK_STAT_SRC 1 with time := { s.time with fb := !s.on F.TIME_CLK_STAT_X32K_OK } }

/-- TBM returns to the crystal (R104). -/
def State.tbmCrystal (s : State) : State :=
  { s.put F.TIME_CLK_STAT_SRC 0 with time := { s.time with fb := false } }

/-- The clock advances by one tick of TBM's source (R103, R553): 1 ns, or exactly 1/32,768 s. -/
def State.tick (s : State) : State := s.ticks 1

/-! ### Stamps and PPS -/

/-- The ingress stamp of port `p` at TBM instant `t` (R113): the signed delay added, never below 0. -/
def State.stampIn (s : State) (p t : Nat) : Nat := ((t : Int) + signed 16 (s.get (F.TIME_PORT_COMP_ING p))).toNat

/-- The egress stamp of port `p` at TBM instant `t` (R113). -/
def State.stampOut (s : State) (p t : Nat) : Nat := ((t : Int) + signed 16 (s.get (F.TIME_PORT_COMP_EGR p))).toNat

/-- An entry for the egress timestamp queue of copper port `c` (R111): a full queue drops it with source 6. -/
def State.egtsPush (s : State) (c : Nat) (e : EgTs) : State :=
  let q := s.time.egts.getD c []
  if q.length < 64 then { s with time := { s.time with egts := setAt s.time.egts c (q ++ [e]) } }
  else s.raise 6

/-- The next rise of `PPS_OUT` (R131): the first whole second of the selected base whose TBM instant, advanced by the egress
delay, still lies ahead. -/
def State.nextSecond (s : State) : Nat :=
  let adv := signed 16 (s.get (F.TIME_PORT_COMP_EGR 7))
  let t := ((s.now : Int) + adv).toNat
  let k := if s.get F.TIME_PPS_CTL_OUT_MODE = 3 then (((t / second + 1) * second : Nat) : Int)
    else s.tbnToTbm ((s.tbnAt (t * 2 ^ 32) / 2 ^ 32 / second + 1) * second)
  (k - adv).toNat

/-- `PPS_OUT` rises at a whole second and falls after WIDTH ms, 1 to 999 (R131, R133). -/
def State.ppsOutSecond (s : State) : State :=
  if s.ppsActive then
    let s := s.until s.nextSecond
    let w := min 999 (max 1 (s.get F.TIME_PPS_CTL_WIDTH))
    { s with time := { s.time with ppsOut := true, ppsFall := s.now + 1000000 * w } }
  else { s with time := { s.time with ppsOut := false } }

/-- Level of the `PPS_OUT` ball (R131). -/
def State.ppsLevel (s : State) : Bool := s.ppsActive && s.time.ppsOut && decide (s.now < s.time.ppsFall)

/-- An edge of `PPS_IN` at TBM instant `t` (R132). -/
def State.ppsInEdge (s : State) (falling : Bool) (t : Nat) : State :=
  let s := s.until t
  if s.on F.TIME_PPS_CTL_IN_EN && s.on F.TIME_PPS_CTL_IN_FALL == falling && s.domOn 5 then
    let st := s.stampIn 7 t
    let tbn := s.tbnAt (st * 2 ^ 32) / 2 ^ 32
    let s := ((s.put F.TIME_PPS_CAP_TBM_NS st).put F.TIME_PPS_CAP_TBN_NS tbn).addWrap F.TIME_PPS_CNT_EDGES 1
    let s := { s with time := { s.time with ppsLast := t, ppsLost := false } }
    let off := min (tbn % second) (second - tbn % second)
    s.raiseIf (s.on F.TIME_TBN_CTL_LOCKED && decide (1000 * s.get F.TIME_PPS_CTL_PPS_TOL < off)) 4
  else s

/-- No `PPS_IN` edge for 2 s (R132): source 3, once until an edge returns. -/
def State.ppsInTimeout (s : State) : State :=
  if s.on F.TIME_PPS_CTL_IN_EN && !s.time.ppsLost && s.domOn 5 then
    let s := s.until (s.time.ppsLast + 2 * second)
    { s with time := { s.time with ppsLost := true } }.raise 3
  else s

end Sys2Proof.Machine
end

