-- ==== Sys2Proof/Machine/PhaseEst.lean ====
section
/-! DEFINITION. The phase estimate of a domain (R118, R123, R125 - R127): what the sequencers and registers
read of it.  Phases are 32.16 fixed point modulo 2^48. -/

namespace Sys2Proof.Machine

/-- One phase domain. -/
def State.pd (s : State) (d : Nat) : PhaseDom := s.phs.getD d {}

/-- Replace one phase domain. -/
def State.setPd (s : State) (d : Nat) (p : PhaseDom) : State := { s with phs := setAt s.phs d p }

/-- The domain's state: 0 OFF, 1 ACQ, 2 LOCKED (R134). -/
def State.pdState (s : State) (d : Nat) : Nat := s.get (F.PHS_PD_STAT_STATE d)

/-- The domain is LOCKED. -/
def State.locked (s : State) (d : Nat) : Bool := s.pdState d == 2

/-- est(t) of R125, modulo 2^48. -/
def PhaseDom.est (p : PhaseDom) (t : Nat) : Nat := (p.refP + (t - p.refT) * p.w / 2 ^ 32) % 2 ^ 48

/-- Cycle period in ns: 65,536 pu at `w` pu per ns x 2^48; 0 while there is no rate. -/
def PhaseDom.period (p : PhaseDom) : Nat := if p.w = 0 then 0 else 2 ^ 64 / p.w

/-- The later of two phase words by their signed 32-bit difference (R118, R123). -/
def laterPhase (a b : Nat) : Nat := if 0 ≤ signed 32 (b + 2 ^ 32 - a % 2 ^ 32) then b % 2 ^ 32 else a % 2 ^ 32

/-- The reported phase word (R123): it never decreases; the estimate while locked, else the last observation. -/
def State.phaseNow (s : State) (d : Nat) : Nat :=
  let p := s.pd d
  laterPhase p.rep (if s.locked d then p.est s.now / 2 ^ 16 else p.lastP / 2 ^ 16)

/-- The phase estimate `ns` nanoseconds ahead, in whole pu (R143). -/
def State.phaseAhead (s : State) (d ns : Nat) : Nat := (s.pd d).est (s.now + ns) / 2 ^ 16

/-- predict_tbm of R126 for a phase word, the difference from ref_p taken as signed 48 bits; none without a rate. -/
def State.predict (s : State) (d phi : Nat) : Option Int :=
  let p := s.pd d
  if p.w = 0 then none
  else
    let diff := signed 48 (phi * 2 ^ 16 + 2 ^ 48 - p.refP)
    some (p.refT + -(-(diff * 2 ^ 32) / (p.w : Int)))

/-- The error bound of R127, in pu; all ones while not locked (R134). -/
def State.errBound (s : State) (d : Nat) : Nat :=
  let p := s.pd d
  if s.locked d then
    let travelled := (s.now - p.refT) * p.w / 2 ^ 32 - (p.tLast - p.refT) * p.w / 2 ^ 32
    min 65535 (s.get (F.PHS_PD_TOL_EB_FLOOR d) + 2 * (p.ares / 2 ^ 16) + travelled / 2 ^ (16 + s.get (F.PHS_PD_CFG_HZN d)))
  else 65535

/-- The fraction `f` lies in the recurring window from `a` to `b` (R115, R116). -/
def inRecurring (f a b : Nat) : Bool :=
  if a < b then decide (a ≤ f ∧ f < b) else if b < a then decide (a ≤ f ∨ f < b) else false

end Sys2Proof.Machine
end

