-- ==== Sys2Proof/Machine/CipherCore.lean ====
section
/-! DEFINITION. Key slots, key commands, job queues and what a job computes (chapter 12).  What the end of a job
does to its submitter stands in `Cipher.lean`. -/

namespace Sys2Proof.Machine

/-- One key slot. -/
def State.keySlot (s : State) (i : Nat) : KeySlot := tabGet (fun _ => {}) s.cip.keys i

/-- Replace one key slot. -/
def State.setKeySlot (s : State) (i : Nat) (k : KeySlot) : State :=
  { s with cip := { s.cip with keys := tabSet (fun _ => {}) s.cip.keys i k } }

/-- Present generation of a slot (R338). -/
def State.keyGen (s : State) (i : Nat) : Nat := ((s.keySlot i).gen + s.cip.genBase) % 16

/-- A CIP source of class U stands at L2: the engine is halted (R353). -/
def State.cipHalted (s : State) : Bool := s.halted [450, 451]

/-- Submitter bits of USE (R338). -/
def useAirTx : Nat := 0
/-- Air receive. -/
def useAirRx : Nat := 1
/-- Beacon and group management. -/
def useBeacon : Nat := 2
/-- Pip. -/
def usePip : Nat := 3
/-- Fabric. -/
def useFabric : Nat := 4
/-- Program. -/
def useProgram : Nat := 5

/-- Submitter bit of a job. -/
def JobSrc.use : JobSrc → Nat
  | .program _ _ => useProgram
  | .rx _ _ _ _ => useAirRx
  | .husk _ _ _ _ _ => useAirTx

/-- TYPE fits the operation: none fits for PNRSV on a slot without air-transmit use (R345). -/
def typeFits (op : Nat) (k : KeySlot) : Bool := op != 8 || bit k.use useAirTx

/-- A code that ends a job at submission (R342, R345, R349, R353), from its slot; none when it is queued. -/
def State.slotRefusal (s : State) (op slot use : Nat) : Option Nat :=
  let k := s.keySlot slot
  if s.on F.CIP_CTL_ALARM then some 7
  else if s.cipHalted then some 6
  else if !k.loaded then some 3
  else if !bit k.use use || !typeFits op k then some 4
  else none

/-- A field of a 32-byte job descriptor. -/
def descNat (d : List Byte) (off n : Nat) : Nat := leNat ((d.drop off).take n)

/-- The job a descriptor describes (R344). -/
def descJob (d : List Byte) (src : JobSrc) : Job :=
  let c := descNat d 0 4
  { src := src, op := bits c 3 0, slot := bits c 16 4, tlen := 4 * (bits c 18 17 + 1), srcGm := bit c 19,
    dstGm := bit c 20, aadLen := descNat d 4 2, len := descNat d 6 2, srcA := descNat d 8 8, dstA := descNat d 16 8 }

/-- Operations that verify a tag. -/
def verifyOp (op : Nat) : Bool := op == 1 || op == 3 || op == 5 || op == 7

/-- Bytes a job reads at SRC. -/
def Job.srcLen (j : Job) : Nat := if j.op = 8 then 0 else 16 + j.aadLen + j.len + (if verifyOp j.op then j.tlen else 0)

/-- Bytes a job writes at DST. -/
def Job.dstLen (j : Job) : Nat :=
  if j.op = 1 ∨ j.op = 3 then j.len
  else if j.op = 0 ∨ j.op = 2 then j.len + j.tlen
  else if j.op = 4 ∨ j.op = 6 then j.len + j.tlen
  else 0

/-- An address and length lie inside GM or XM. -/
def State.inSpace (s : State) (gm : Bool) (a n : Nat) : Bool :=
  if gm then decide (a + n ≤ Config.granaryBytes) else decide (a + n ≤ min (2 ^ 34) (s.xmMib * 0x100000))

/-- A descriptor that ends its job with DESC (R345): DST is 0 for the verifications of GMAC and CMAC and for PNRSV. -/
def State.badDesc (s : State) (d : List Byte) : Bool :=
  let c := descNat d 0 4
  let j := descJob d (.program (.slot 0 0 0) 0)
  decide (8 < j.op) || bits c 31 21 != 0 || descNat d 0x18 8 != 0 || decide (256 < j.aadLen)
  || (if j.op = 8 then j.len == 0 || j.srcA != 0 || j.dstA != 0
      else decide (12288 < j.len) || !s.inSpace j.srcGm j.srcA j.srcLen
        || (if j.dstLen = 0 && (j.op == 5 || j.op == 7) then j.dstA != 0 else !s.inSpace j.dstGm j.dstA j.dstLen))

/-- Count a job that ends with a code (R346, R352, R353). -/
def State.countCode (s : State) (code : Nat) : State :=
  if code = 1 then s.bump F.CIP_CNT_AUTHFAIL 1
  else if code = 2 then s.bump F.CIP_CNT_ERASED 1
  else if code = 3 then s.bump F.CIP_CNT2_REFUSED 1
  else if code = 4 ∨ code = 5 then (s.bump F.CIP_CNT2_REFUSED 1).raiseSec 452
  else if code = 6 then s.bump F.CIP_CNT2_MEMERR 1
  else if code = 8 then s.raise 453
  else s

/-- The status word of R345. -/
def statusWord (code gen pn : Nat) : Nat :=
  code % 256 + (if code = 0 then gen % 16 * 2 ^ 8 + pn % 2 ^ 48 * 2 ^ 16 else 0)

/-- A program's result goes on its way to its slot. -/
def State.arrive (s : State) (d : Dest) (v : Nat) : State :=
  { s with yal := { s.yal with arriving := s.yal.arriving ++ [⟨d, BitVec.ofNat 64 v, none⟩] } }

/-- Queue a job. -/
def State.queueJob (s : State) (j : Job) : State := { s with cip := { s.cip with jobs := s.cip.jobs ++ [j] } }

/-- CIPH (R76): OPERAND when the slot is not empty, SPACE past LM; the descriptor is copied now, and the job is queued
to the region's lanes or ends at once. -/
def State.ciph (s : State) (i : Issue) (ga : BitVec 5) (slot : Fin 4) : State :=
  s.issue i .p [ga] (fun s =>
    match i.who with
    | .seq _ => .exc .illegal
    | .thr t =>
      let a := (s.reg t.val ga.toNat).toNat
      if s.slotOf t.val slot.val ≠ .empty then .exc .operand
      else if 0x10000 < a + 32 then .exc .space
      else
        let d := s.spaceBytes (unitOf t.val) 0 a 32
        let dest := s.slotDest t.val slot.val
        let j := descJob d (.program dest (regionOf t.val))
        let s := s.setSlot t.val slot.val .outstanding
        let code := if s.badDesc d && !s.on F.CIP_CTL_ALARM then some 5 else s.slotRefusal j.op j.slot useProgram
        match code with
        | some c => .next ((s.countCode c).arrive dest (statusWord c 0 0))
        | none => .next (s.queueJob j))

/-! ### Lanes -/

/-- One lane. -/
def State.lane (s : State) (l : Nat) : Lane := tabGet (fun _ => {}) s.cip.lanes l

/-- Replace one lane. -/
def State.setLane (s : State) (l : Nat) (x : Lane) : State :=
  { s with cip := { s.cip with lanes := tabSet (fun _ => {}) s.cip.lanes l x } }

/-- The job lane `l` runs. -/
def State.laneJob (s : State) (l : Nat) : Option Job := s.cip.jobs.find? (fun j => j.lane == some l)

/-- A job of the engine queue. -/
def Job.engine (j : Job) : Bool := match j.src with | .program _ _ => false | _ => true

/-- A job of region `r`'s program queue. -/
def Job.ofRegion (j : Job) (r : Nat) : Bool := match j.src with | .program _ q => q == r | _ => false

/-- Replace the first queued job that a test accepts by one that lane `l` runs with the slot's key (R341). -/
def State.takeJob (s : State) (l : Nat) (p : Job → Bool) : State :=
  match findIdx (fun j => p j && j.lane.isNone) s.cip.jobs 0 with
  | some (i, j) =>
    let k := s.keySlot j.slot
    let j := { j with lane := some l, type := k.type, gen := s.keyGen j.slot, key := k.key }
    { s with cip := { s.cip with jobs := setAt s.cip.jobs i j } }
  | none => s

/-- A free lane takes a job (R332, R333): the oldest engine job, but a program job after RT_BURST engine jobs in a row
while its program queue waited, or when the engine queue is empty. -/
def State.jobStart (s : State) (l : Nat) : State :=
  let r := l / 8
  let ln := s.lane l
  if (s.laneJob l).isSome || ln.stopped || !s.domOn (regionDomain r) || s.on F.CIP_CTL_ALARM || s.cipHalted then s
  else
    let pool := let p := s.get F.CIP_CTL_POOL; if p = 0 then 15 else p
    let eng := bit pool r && s.cip.jobs.any (fun j => j.engine && j.lane.isNone)
    let prog := s.cip.jobs.any (fun j => j.ofRegion r && j.lane.isNone)
    let lim := max 1 (s.get F.CIP_CTL_RT_BURST)
    if eng && !(prog && decide (lim ≤ ln.burst)) then
      (s.takeJob l Job.engine).setLane l { ln with burst := if prog then ln.burst + 1 else 0 }
    else if prog then (s.takeJob l (fun j => j.ofRegion r)).setLane l { ln with burst := 0 }
    else s

/-! ### What a job computes -/

/-- Bytes of GM or XM. -/
def State.bufBytes (s : State) (gm : Bool) (a n : Nat) : List Byte :=
  if gm then memBytes s.gm a n else memBytes s.xm a n

/-- Write bytes to GM or XM. -/
def State.bufPut (s : State) (gm : Bool) (a : Nat) (bs : List Byte) : State :=
  if gm then { s with gm := memPutBytes s.gm a bs } else { s with xm := memPutBytes s.xm a bs }

/-- The source bytes of a job: its own, or those at SRC. -/
def State.jobSource (s : State) (j : Job) : List Byte :=
  if j.data = [] then s.bufBytes j.srcGm j.srcA j.srcLen else j.data

/-- Bytes as numbers. -/
def nums (l : List Byte) : List Nat := l.map BitVec.toNat
/-- Numbers as bytes. -/
def byteList (l : List Nat) : List Byte := l.map (BitVec.ofNat 8)

/-- The key bytes of a TYPE. -/
def keyBytes (type key : Nat) : List Nat := nums (natLe key (if type = 0 then 16 else 32))

/-- The full tag of a job over nonce block, AAD and text; for a decryption `text` is the received ciphertext. -/
def jobTag (op tlen : Nat) (key nonce aad text : List Nat) : List Nat :=
  if op ≤ 1 then gcmTag key (nonce.take 12) aad text
  else if op ≤ 3 then ccmTag key (nonce.take 13) aad text tlen
  else if op ≤ 5 then gcmTag key (nonce.take 12) aad text
  else cmac key text

/-- What a job computes: none when a verify operation's tag does not match, otherwise the output bytes (R344, R346). -/
def jobOutput (op tlen aadLen len : Nat) (key : List Nat) (src : List Byte) : Option (List Byte) :=
  let b := nums src
  let nonce := b.take 16
  let aad := (b.drop 16).take aadLen
  let text := (b.drop (16 + aadLen)).take len
  let tag := ((b.drop (16 + aadLen + len))).take tlen
  if op = 0 then
    let c := gcmText key (nonce.take 12) text
    some (byteList (c ++ (jobTag 0 tlen key nonce aad c).take tlen))
  else if op = 1 then
    if (jobTag 1 tlen key nonce aad text).take tlen = tag then some (byteList (gcmText key (nonce.take 12) text)) else none
  else if op = 2 then
    some (byteList (ccmText key (nonce.take 13) text ++ (jobTag 2 tlen key nonce aad text).take tlen))
  else if op = 3 then
    let p := ccmText key (nonce.take 13) text
    if (jobTag 3 tlen key nonce aad p).take tlen = tag then some (byteList p) else none
  else if op = 4 ∨ op = 6 then some (byteList (text ++ (jobTag op tlen key nonce aad text).take tlen))
  else if op = 5 ∨ op = 7 then
    if (jobTag op tlen key nonce aad text).take tlen = tag then some [] else none
  else some []

/-- Remove the job that lane `l` runs. -/
def State.dropLaneJob (s : State) (l : Nat) : State :=
  { s with cip := { s.cip with jobs := s.cip.jobs.filter (fun j => j.lane != some l) } }

/-- Reserve `n` packet numbers of a slot (R343): the lowest of the block and the new state, or none when refused. -/
def State.pnReserve (s : State) (slot n : Nat) : Option (Nat × State) :=
  let k := s.keySlot slot
  if 2 ^ 48 < k.pn + n then none else some (k.pn, s.setKeySlot slot { k with pn := k.pn + n })

/-- CMAC of an engine that computes it itself (Pip, fabric, beacons): the code and the full tag (R345, R347). -/
def State.engineCmac (s : State) (slot use : Nat) (msg : List Byte) : Nat × List Byte :=
  match s.slotRefusal 6 slot use with
  | some c => (c, [])
  | none => (0, byteList (cmac (keyBytes (s.keySlot slot).type (s.keySlot slot).key) (nums msg)))

/-! ### Key commands -/

/-- Key bytes 4k to 4k + 3 that a requester has staged, as one number. -/
def State.keyStage (s : State) (who : Nat) : Nat → Nat
  | 0 => 0
  | k + 1 => s.keyStage who k + s.get (F.CIP_KEY_STAGE_KEY k who) * 2 ^ (32 * k)

/-- A requester's stage registers clear (R339). -/
def State.clearStage (s : State) (who : Nat) : State :=
  forEach (List.range 8) (fun k s => s.put (F.CIP_KEY_STAGE_KEY k who) 0) s

/-- GO in `CIP.KEY_CMD` (R339, R340): ERR for OP 2 and 3 and while an alarm stands; ignored while the requester's
previous command runs; `allowed` is the right of R508. -/
def State.keyCommand (s : State) (who : Nat) (allowed : Bool) : State :=
  if s.on (F.CIP_KEY_CMD_GO who) then s
  else
    let op := s.get (F.CIP_KEY_CMD_OP who)
    if !allowed || decide (2 ≤ op) || s.on F.CIP_CTL_ALARM then (s.put (F.CIP_KEY_CMD_ERR who) 1).clearStage who
    else
      let type := s.get (F.CIP_KEY_CMD_TYPE who)
      let c : KeyCmd := ⟨who, op == 1, s.get (F.CIP_KEY_CMD_SLOT who), type, s.get (F.CIP_KEY_CMD_USE who),
        s.keyStage who (if type = 0 then 4 else 8), s.get (F.CIP_KEY_PN_PN who)⟩
      let s := (s.put (F.CIP_KEY_CMD_ERR who) 0).put (F.CIP_KEY_CMD_GO who) 1
      { s with cip := { s.cip with cmds := s.cip.cmds ++ [c] } }

/-- The oldest key command has been carried out. -/
def State.keyCmdEnd (s : State) (c : KeyCmd) : State :=
  { s with cip := { s.cip with cmds := s.cip.cmds.drop 1 } }.put (F.CIP_KEY_CMD_GO c.who) 0

/-- A load completes (R339): the slot's contents change in one clock and GEN advances. -/
def State.keyLoadComplete (s : State) : State :=
  match s.cip.cmds with
  | c :: _ =>
    if c.erase then s
    else
      let g := (s.keySlot c.slot).gen
      ((s.setKeySlot c.slot ⟨true, c.type, c.use, (g + 1) % 16, c.pn % 2 ^ 48, c.key⟩).clearStage c.who).keyCmdEnd c
  | [] => s

/-- The slot clears and its GEN advances (R340). -/
def State.clearSlot (s : State) (slot : Nat) : State :=
  let k := s.keySlot slot
  s.setKeySlot slot { k with loaded := false, gen := (k.gen + 1) % 16, pn := 0, key := 0 }

/-- A lane's reseed at its 4,096 clocks (R336): a missed one is borne once, the next stops the lane and raises 448. -/
def State.laneReseed (s : State) (l : Nat) (ok : Bool) : State :=
  let ln := s.lane l
  if ok then s.setLane l { ln with late := false, stopped := false }
  else if ln.late then
    if ln.stopped then s else (s.setLane l { ln with stopped := true }).raise 448
  else s.setLane l { ln with late := true }

end Sys2Proof.Machine
end

