-- ==== Sys2Proof/Machine/Air.lean ====
section
/-! DEFINITION. Scheduling access to the air (chapter 05): the station table, eligibility, the grant arbiter,
PICK, BIN, SKIP, schedule cycles, phase bins, target wake time, and WAITPH and WAITT. -/

namespace Sys2Proof.Machine

/-! ### Access to the air state -/

/-- Schedule state of sequencer `n`. -/
def State.sqa (s : State) (n : Nat) : SqAir := s.air.sq.getD n {}

/-- Replace the schedule state of sequencer `n`. -/
def State.setSqa (s : State) (n : Nat) (x : SqAir) : State :=
  { s with air := { s.air with sq := setAt s.air.sq n x } }

/-- One Wi-Fi radio. -/
def State.radio (s : State) (n : Nat) : Radio := s.air.radio.getD n {}

/-- Replace one Wi-Fi radio. -/
def State.setRadio (s : State) (n : Nat) (x : Radio) : State :=
  { s with air := { s.air with radio := setAt s.air.radio n x } }

/-- The husk in a slot of sequencer `n`. -/
def State.husk (s : State) (n slot : Nat) : Option Husk := if slot = 0 then (s.sqa n).husk0 else (s.sqa n).husk1

/-- Replace the husk in a slot. -/
def State.setHusk (s : State) (n slot : Nat) (h : Option Husk) : State :=
  let x := s.sqa n
  s.setSqa n (if slot = 0 then { x with husk0 := h } else { x with husk1 := h })

/-- Base of the station schedule table (R166). -/
def State.staBase (s : State) : Nat := s.get F.SQA_STA_BASE_ADDR / 32 * 32
/-- The table lies inside the Granary. -/
def State.staTableOk (s : State) : Bool := decide (s.staBase + 0x10000 ≤ Config.granaryBytes)
/-- Bytes of a station's entry (R140). -/
def State.staNat (s : State) (st off k : Nat) : Nat := memNat s.gm (s.staBase + 32 * st + off) k
/-- Write bytes of a station's entry. -/
def State.staPut (s : State) (st off k v : Nat) : State :=
  { s with gm := memPutNat s.gm (s.staBase + 32 * st + off) k v }

/-- CFG word of a station's entry. -/
def State.staCfg (s : State) (st : Nat) : Nat := s.staNat st 0 4
/-- The station is bound to a phase domain. -/
def State.staBound (s : State) (st : Nat) : Bool := bit (s.staCfg st) 0
/-- The domain a station is bound to. -/
def State.staPd (s : State) (st : Nat) : Nat := bits (s.staCfg st) 2 1

/-- The running deficit of a station (R140, R150). -/
def State.deficit (s : State) (st : Nat) : Int := signed 20 (s.staNat st 0x1C 4)
/-- Set the deficit, saturating. -/
def State.setDeficit (s : State) (st : Nat) (v : Int) : State :=
  let c := max (-524288) (min 524287 v)
  s.staPut st 0x1C 4 (setBits (s.staNat st 0x1C 4) 19 0 (ofSigned 20 c))

/-- Base of the bin store (R151, R166). -/
def State.binBase (s : State) : Nat := s.get F.SQA_BIN_BASE_ADDR / 512 * 512
/-- The bin store lies inside the Granary. -/
def State.binStoreOk (s : State) : Bool := decide (s.binBase + 0x300000 ≤ Config.granaryBytes)
/-- Address of a bin. -/
def State.binAddr (s : State) (st l b : Nat) : Nat := s.binBase + 8 * (192 * st + 64 * l + b)
/-- A bin's 64-bit word. -/
def State.bin (s : State) (st l b : Nat) : Nat := memNat s.gm (s.binAddr st l b) 8
/-- Write a bin. -/
def State.setBin (s : State) (st l b v : Nat) : State := { s with gm := memPutNat s.gm (s.binAddr st l b) 8 v }

/-! ### Holding and eligibility -/

/-- Sequencer `n` holds station `st` in its window set or a husk. -/
def State.holds (s : State) (n st : Nat) : Bool :=
  let x := s.sqa n
  let inHusk (h : Option Husk) : Bool := match h with
    | some h => !h.freed && h.stas.any (fun k => k.sta == st)
    | none => false
  x.window.contains st || inHusk x.husk0 || inHusk x.husk1

/-- Write `STATE.GRANTED` of a station from what holds it (R140). -/
def State.markGranted (s : State) (st : Nat) : State :=
  let g := maskOf ((List.range 3).filter (fun n => s.holds n st))
  if bits (s.staNat st 0x1C 4) 22 20 = g then s
  else s.staPut st 0x1C 4 (setBits (s.staNat st 0x1C 4) 22 20 g)

/-- Mark several stations. -/
def State.markAll (s : State) (l : List Nat) : State := forEach l (fun st s => s.markGranted st) s

/-- PS word of a link (R201). -/
def State.linkPs (s : State) (n st : Nat) : Nat := s.linkNat n st 0x18 4
/-- The link is dozing. -/
def State.linkDoze (s : State) (n st : Nat) : Bool := bit (s.linkPs n st) 0
/-- BSSID index of a link. -/
def State.linkBss (s : State) (n st : Nat) : Nat := bits (s.linkCfg n st) 6 3
/-- The link record is a group endpoint (R204). -/
def State.linkGrp (s : State) (n st : Nat) : Bool := bit (s.linkCfg n st) 1

/-- Some present link of BSSID `b` on radio `n` dozes (R206). -/
def State.bssDozes (s : State) (n b : Nat) : Bool :=
  (List.range 2048).any (fun st =>
    s.linkPresent n st && !s.linkGrp n st && s.linkBss n st == b && s.linkDoze n st)

/-- The MAC holds the link awake (R206). -/
def State.linkAwake (s : State) (n st : Nat) : Bool :=
  if s.linkGrp n st then !s.bssDozes n (s.linkBss n st) || (s.radio n).grpOn.contains (s.linkBss n st)
  else !s.linkDoze n st || bit (s.linkPs n st) 1 || bit (s.linkPs n st) 2

/-- The station has an active TWT agreement on link `n` (R159). -/
def State.twtActive (s : State) (st n : Nat) : Bool :=
  let c := s.staNat st 0x14 4
  bit c 18 && bits c 17 16 == n && bits c 15 0 != 0 && decide (bits c 15 0 ≤ s.staNat st 0x10 4)

/-- The TSF's signed distance past TWT_NEXT, in µs (R159). -/
def State.twtDelta (s : State) (st n : Nat) : Int := signed 32 (s.tsf n + 2 ^ 32 - s.staNat st 0x18 4 % 2 ^ 32)

/-- The TSF lies in the service period. -/
def State.twtOpen (s : State) (st n : Nat) : Bool :=
  let d := s.twtDelta st n
  decide (0 ≤ d ∧ d < bits (s.staNat st 0x14 4) 15 0)

/-- Key of a sequence space (R174): per station and TID; one per BSSID of each radio for group frames. -/
def State.snKey (s : State) (n st tid : Nat) : Nat :=
  if s.linkPresent n st && s.linkGrp n st then 0x100000 + 16 * n + s.linkBss n st else 8 * st + tid
/-- A sequence space. -/
def State.snSpace (s : State) (k : Nat) : SnSpace := tabGet (fun _ => {}) s.air.sn k
/-- Replace a sequence space. -/
def State.setSn (s : State) (k : Nat) (x : SnSpace) : State :=
  { s with air := { s.air with sn := tabSet (fun _ => {}) s.air.sn k x } }
/-- Last buffer report of a station and TID, bytes; none before the first (R143). -/
def State.bsrSaid (s : State) (st tid : Nat) : Option Nat := tabGet (fun _ => none) s.air.bsr (8 * st + tid)
/-- Uplink bytes that the last report shows. -/
def State.bsrOf (s : State) (st tid : Nat) : Nat := (s.bsrSaid st tid).getD 0

/-- TIDs mapped to a link. -/
def State.tidsOf (s : State) (n st : Nat) : List Nat := onesOf (s.linkNat n st 0x12 1) 8

/-- Queued packets of a station on TIDs mapped to link `n`. -/
def State.linkQueue (s : State) (n st : Nat) : List EgItem :=
  (s.queued 4 st).filter (fun i => (s.tidsOf n st).contains i.tc)

/-- MPDUs in the retry sets of TIDs mapped to link `n`. -/
def State.linkRetry (s : State) (n st : Nat) : List Mpdu :=
  (s.tidsOf n st).flatMap (fun t => (s.snSpace (s.snKey n st t)).retry)

/-- The station has work on link `n` (R143). -/
def State.hasWork (s : State) (n st : Nat) : Bool :=
  !(s.linkQueue n st).isEmpty || !(s.linkRetry n st).isEmpty
  || (s.tidsOf n st).any (fun t => decide (0 < s.bsrOf st t)) || bit (s.staCfg st) 5

/-- Every queue of the station is empty, retry sets included, and its last report shows no uplink data (R150, R174). -/
def State.stationIdle (s : State) (st : Nat) : Bool :=
  (s.queued 4 st).isEmpty && (List.range 8).all (fun t => (s.snSpace (8 * st + t)).retry.isEmpty && s.bsrOf st t == 0)

/-- The deficit of a station with nothing left to send returns to 0 (R150). -/
def State.restDeficit (s : State) (st : Nat) : State :=
  if s.stationIdle st && s.deficit st != 0 then s.setDeficit st 0 else s

/-- The eligibility window lets the station through (R143). -/
def State.windowOpen (s : State) (n st : Nat) : Bool :=
  let c := s.staCfg st
  if !bit c 3 || !bit c 0 then true
  else
    let d := bits c 2 1
    if s.locked d then
      let ew := s.staNat st 4 4
      inRecurring (s.phaseAhead d (s.get (F.SQ_EW_LEAD_NS n)) % 65536) (bits ew 15 0) (bits ew 31 16)
    else bit c 4

/-- Eligible on radio `n` but for the eligibility window (R143). -/
def State.eligibleBase (s : State) (n st : Nat) : Bool :=
  s.linkPresent n st && (s.associated st || s.linkGrp n st || bit (s.linkCfg n st) 2)
  && s.linkAwake n st && (!s.twtActive st n || s.twtOpen st n) && s.hasWork n st

/-- The pair bit of R140 for radios `a` and `b`: 6 AB, 7 AC, 8 BC. -/
def pairBit (a b : Nat) : Nat := 5 + a + b

/-- The other links of an EMLSR station are held after an exchange on radio `m` (R210): refused to `n` on another
radio, and on `m` itself where the NSTR bit of a pair is 1. -/
def State.emlRefuses (s : State) (n m st : Nat) : Bool :=
  s.air.emlHold.contains (4 * st + m)
  && (m != n || (List.range 3).any (fun l => l != n && s.linkPresent l st && bit (s.staCfg st) (pairBit l n)))

/-- The arbiter refuses station `st` to sequencer `n` (R144): held by another sequencer, or an EMLSR delay. -/
def State.arbRefuses (s : State) (n st : Nat) : Bool :=
  (List.range 3).any (fun m => (m != n && s.holds m st) || s.emlRefuses n m st)

/-! ### Pip nodes in PICK -/

/-- Base of the node table (R272). -/
def State.nodeBase (s : State) : Nat := s.get F.PIP_NODE_BASE_ADDR / 64 * 64
/-- The node table lies inside the Granary. -/
def State.nodeTableOk (s : State) : Bool := decide (s.nodeBase + 0x100000 ≤ Config.granaryBytes)
/-- Bytes of a node record (R248). -/
def State.nodeNat (s : State) (node off k : Nat) : Nat := memNat s.gm (s.nodeBase + 64 * node + off) k
/-- Write bytes of a node record. -/
def State.nodePut (s : State) (node off k v : Nat) : State :=
  { s with gm := memPutNat s.gm (s.nodeBase + 64 * node + off) k v }
/-- CFG of a node record. -/
def State.nodeCfg (s : State) (node : Nat) : Nat := s.nodeNat node 0 4
/-- The record is present. -/
def State.nodePresent (s : State) (node : Nat) : Bool := s.nodeTableOk && bit (s.nodeCfg node) 0
/-- KIND: 0 CONN, 1 SLEEPY, 2 MESH, 3 ALERT_ONLY. -/
def State.nodeKind (s : State) (node : Nat) : Nat := bits (s.nodeCfg node) 2 1
/-- LINK word of a node record. -/
def State.nodeLink (s : State) (node : Nat) : Nat := s.nodeNat node 0x1A 2
/-- The connection is LIVE. -/
def State.nodeLive (s : State) (node : Nat) : Bool := bit (s.nodeLink node) 0
/-- Supervision timeout in seconds, 4 to 64. -/
def State.nodeSto (s : State) (node : Nat) : Nat := max 4 (min 64 (s.nodeNat node 0x0C 1))
/-- ANCHOR of a node record. -/
def State.nodeAnchor (s : State) (node : Nat) : Nat := s.nodeNat node 0x10 8
/-- A node is DUE (R265). -/
def State.nodeDue (s : State) (node : Nat) : Bool :=
  decide (s.nodeNat node 0x30 8 + s.nodeSto node * 500000000 ≤ s.now)
/-- The frame pending acknowledgement of a node. -/
def State.nodePending (s : State) (node : Nat) : Option EgItem :=
  (s.air.pip.pending.find? (fun p => p.1 == node)).map (·.2)
/-- A node has a frame pending or queued. -/
def State.nodeWork (s : State) (node : Nat) : Bool := (s.nodePending node).isSome || !(s.queued 5 node).isEmpty

/-- A node is eligible in PICK on SQP (R265). -/
def State.nodeEligible (s : State) (node : Nat) : Bool :=
  let reserved (h : Option Husk) : Bool := match h with
    | some h => h.stas.any (fun k => k.sta == node)
    | none => false
  s.nodePresent node && !reserved (s.sqa 3).husk0 && !reserved (s.sqa 3).husk1
  && ((s.nodeKind node == 0 && s.nodeLive node
        && decide (s.now ≤ s.nodeAnchor node ∧ s.nodeAnchor node < s.now + s.get F.PIP_EV_LEAD_NS)
        && (s.nodeWork node || s.nodeDue node))
      || (s.nodeKind node == 2 && !(s.queued 5 node).isEmpty))

/-- Priority 7 is served first (R247): the head of a node's queue. -/
def State.nodeHead (s : State) (node : Nat) : Option EgItem :=
  minBy (fun i => 7 - i.tc) (s.queued 5 node)

/-- Channel of event `ec` of a node (R253). -/
def State.nodeChannel (s : State) (node ec : Nat) : Nat :=
  let hop := let h := s.nodeNat node 0x0E 1; if h = 0 then 1 else h
  let map := s.get F.PIP_CHMAP_MAP
  let u := (s.nodeNat node 0x0D 1 + ec * hop) % 64
  if bit map u then u else (onesOf map 64).getD (u % max 1 (popCount map 64)) 0

/-! ### PICK -/

/-- The list PICK reads at SD address `a` (R91): at most 512 entries. -/
def State.pickList (s : State) (n a : Nat) : List Nat :=
  (List.range (min 512 (memNat s.sd (0x4000 * n + a) 2))).map (fun i => memNat s.sd (0x4000 * n + a + 2 + 2 * i) 2)

/-- Keep the first of equal entries. -/
def dedup : List Nat → List Nat → List Nat
  | [], _ => []
  | x :: xs, seen => if seen.contains x then dedup xs seen else x :: dedup xs (x :: seen)

/-- What the arbiter and the table say of one list entry. -/
inductive Verdict where
  | yes
  | skip
  | ew
  | arb
  | fail
deriving DecidableEq, Repr

/-- The verdict on a list entry of sequencer `n`; `bad` lists the entries whose table read failed (R167). -/
def State.verdict (s : State) (n : Nat) (bad : List Nat) (x : Nat) : Verdict :=
  if n = 3 then
    if 16384 ≤ x then .skip
    else if bad.contains x || !s.nodeTableOk then .fail
    else if s.nodeEligible x then .yes else .skip
  else if 2048 ≤ x then .skip
  else if bad.contains x || !s.staTableOk then .fail
  else if !s.eligibleBase n x then .skip
  else if !s.windowOpen n x then .ew
  else if s.arbRefuses n x then .arb
  else .yes

/-- Head frame of a TID: the retry set goes first (R149, R169). -/
def State.headFrame (s : State) (n st tid : Nat) : Option EgItem :=
  match (s.snSpace (s.snKey n st tid)).retry with
  | m :: _ => some m.item
  | [] => (s.queued 4 st).find? (fun i => i.tc == tid)

/-- Earliest ingress stamp of the head frames of the TIDs mapped to link `n` (R149); none with nothing queued. -/
def State.headStamp (s : State) (n st : Nat) : Option Nat :=
  minBy id (((s.tidsOf n st).filterMap (s.headFrame n st)).map (fun i => i.pkt.stamp))

/-- Bytes queued on TIDs mapped to the link, plus the last report's (R149). -/
def State.queueBytes (s : State) (n st : Nat) : Nat :=
  ((s.linkRetry n st).map (fun m => m.item.pkt.bytes.length)).sum
  + ((s.linkQueue n st).map (fun i => i.pkt.bytes.length)).sum
  + ((s.tidsOf n st).map (s.bsrOf st)).sum

/-- Bytes queued for a node. -/
def State.nodeBytes (s : State) (node : Nat) : Nat :=
  ((s.queued 5 node).map (fun i => i.pkt.bytes.length)).sum
  + (match s.nodePending node with | some i => i.pkt.bytes.length | none => 0)

/-- Sort key of policies 0 - 2 (R149, R265); ties keep list order. -/
def State.pickKey (s : State) (n policy x : Nat) : Nat :=
  if policy = 0 then
    if n = 3 then
      if s.nodeKind x = 0 then s.nodeAnchor x
      else 2 ^ 64 + (match s.nodeHead x with | some i => i.pkt.stamp | none => 0)
    else match s.headStamp n x with | some t => t | none => 2 ^ 80
  else if policy = 1 then 2 ^ 80 - (if n = 3 then s.nodeBytes x else s.queueBytes n x)
  else 0

/-- Take candidates in order up to `k`, refusing those beyond the 512 cap (R138): taken, cap refusals. -/
def capTake : List Nat → Nat → List Nat → List Nat × Nat
  | [], _, _ => ([], 0)
  | _ :: _, 0, _ => ([], 0)
  | x :: xs, k + 1, granted =>
    if granted.contains x then let r := capTake xs k granted; (x :: r.1, r.2)
    else if 512 ≤ granted.length then let r := capTake xs (k + 1) granted; (r.1, r.2 + 1)
    else let r := capTake xs k (x :: granted); (x :: r.1, r.2)

/-- A list whose repeated entries are blanked, so that PICK skips them (R91). -/
def blankRepeats : List Nat → List Nat → List Nat
  | [], _ => []
  | x :: xs, seen => (if seen.contains x then 0x10000 else x) :: blankRepeats xs (x :: seen)

/-- Deficit of a station, or in SQP of a node (R150, R265). -/
def State.credit (s : State) (n x : Nat) : Int :=
  if n = 3 then tabGet (fun _ => 0) s.air.pip.deficit x else s.deficit x

/-- Set it, saturating (R150). -/
def State.setCredit (s : State) (n x : Nat) (v : Int) : State :=
  if n = 3 then
    { s with air := { s.air with pip := { s.air.pip with
      deficit := tabSet (fun _ => 0) s.air.pip.deficit x (max (-524288) (min 524287 v)) } } }
  else s.setDeficit x v

/-- The quantum of R140 in bytes; a node record has none, so a node's is the least (DESIGN CHOICE, log 39). -/
def State.quantum (s : State) (n x : Nat) : Nat := 256 * (if n = 3 then 1 else max 1 (bits (s.staCfg x) 23 16))

/-- Deficit round-robin of R149 over the list from index `i`: `seen` counts down; the state carries the deficits. -/
def State.drr (s : State) (n count : Nat) (list : List Nat) (ok : Nat → Bool) :
    Nat → Nat → Nat → List Nat → Nat → State × List Nat × Nat × Nat
  | 0, _, _, acc, caps => (s, acc, (s.sqa n).rotor, caps)
  | seen + 1, i, k, acc, caps =>
    if k ≤ acc.length then (s, acc, (s.sqa n).rotor, caps)
    else
      let x := list.getD i 0
      let nexti := (i + 1) % max 1 count
      if ok x && !acc.contains x then
        let g := (s.sqa n).granted
        if !g.contains x && decide (512 ≤ (g ++ acc.filter (fun y => !g.contains y)).length) then
          s.drr n count list ok seen nexti k acc (caps + 1)
        else
          let s := if s.credit n x ≤ 0 then s.setCredit n x (s.credit n x + s.quantum n x) else s
          if 0 < s.credit n x then
            let s := s.setSqa n { s.sqa n with rotor := nexti }
            s.drr n count list ok seen nexti k (acc ++ [x]) caps
          else s.drr n count list ok seen nexti k acc caps
      else s.drr n count list ok seen nexti k acc caps

/-- Release the window set (R146): its stations' GRANTED bits follow. -/
def State.releaseWindow (s : State) (n : Nat) : State :=
  let w := (s.sqa n).window
  let s := s.setSqa n { s.sqa n with window := [] }
  if n = 3 then s else s.markAll w

/-- Event entry `i` of a picked node (R266). -/
def State.eventEntry (s : State) (i node : Nat) : State :=
  let conn := s.nodeKind node == 0
  let ec := if conn then s.nodeNat node 0x18 2 else 0
  let ch := if conn then s.nodeChannel node ec else s.get F.PIP_HOME_CH
  let c := s.nodeCfg node
  let b1 := bits c 6 5 + bits c 8 7 * 4 + bits c 14 12 * 16 + b2n (s.nodeDue node) * 128
  let a := 0x4000 * 3 + 0x2000 + 16 * i
  let anchor := if conn then s.nodeAnchor node else 0
  { s with sd := memPutNat (memPutNat s.sd a 8 (ch + b1 * 2 ^ 8 + node * 2 ^ 16 + ec * 2 ^ 32)) (a + 8) 8 anchor }

/-- PICK (R91, R137, R138, R149): `bad` lists the stations whose table read fails after its retry. -/
def State.pick (s : State) (i : Issue) (sd sa : BitVec 5) (limit : BitVec 10) (policy : BitVec 2) (bad : List Nat) : State :=
  s.issue i .s [sd, sa] (fun s =>
    match i.who with
    | .thr _ => .exc .illegal
    | .seq q =>
      let n := q.val
      let a := (s.reg (512 + n) sa.toNat).toNat
      if 0x4000 < a + 2 then .exc .space
      else
        let total := memNat s.sd (0x4000 * n + a) 2
        let spent := decide (64 ≤ s.get (F.SQ_CYC_STAT_WINDOWS n))
        let k := if spent then 0 else limit.toNat
        if 0x4000 < a + 2 + 2 * min 512 total then .exc .space
        else
          let list := s.pickList n a
          let verdicts := (dedup list []).map (fun x => (x, s.verdict n bad x))
          let yes := (verdicts.filter (fun v => v.2 == .yes)).map (·.1)
          let num (v : Verdict) := (verdicts.filter (fun w => w.2 == v)).length
          let x := s.sqa n
          let r : State × List Nat × Nat :=
            if k = 0 then (s, [], 0)
            else if policy = 3 then
              let start := if x.rotorList = a then x.rotor else 0
              let d := (s.setSqa n { x with rotor := start }).drr n list.length (blankRepeats list [])
                (fun y => yes.contains y) list.length start k [] 0
              (d.1.setSqa n { d.1.sqa n with rotorList := a }, d.2.1, d.2.2.2)
            else
              let c := capTake (sortBy (s.pickKey n policy.toNat) yes) k x.granted
              (s, c.1, c.2)
          let picked := r.2.1
          let out := a + 2 + 2 * total
          if 0x4000 < out + 2 + 2 * picked.length then .exc .space
          else
            let s := r.1
            let s := if (s.sqa n).window = [] then s else (s.releaseWindow n).bump (F.SQ_WCNT_SKIPS n) 1
            let x := s.sqa n
            let granted := picked.foldl (fun g y => if g.contains y then g else g ++ [y]) x.granted
            let budgetNow := spent && !x.budgetHit
            let capNow := decide (0 < r.2.2) && !x.capHit
            let s := s.setSqa n { x with
              window := picked, policy := policy.toNat, granted := granted,
              events := picked.map (fun y => (y, s.nodeAnchor y, s.nodeNat y 0x18 2)),
              budgetHit := x.budgetHit || spent, capHit := x.capHit || decide (0 < r.2.2) }
            let opened := s.get (F.SQ_CYC_STAT_WINDOWS n) + b2n (!picked.isEmpty)
            let s := (s.put (F.SQ_CYC_STAT_STATIONS n) (min 512 granted.length)).put (F.SQ_CYC_STAT_WINDOWS n) opened
            let s := ((s.bump (F.SQ_GCNT_BUDGET n) (b2n spent)).bump (F.SQ_GCNT_CAP n) r.2.2)
            let s := if k = 0 then s else (s.bump (F.SQ_GCNT_ARB n) (num .arb)).bump (F.SQ_GCNT_EW n) (num .ew)
            let s := (s.raiseIf budgetNow (34 + 8 * n)).raiseIf capNow (35 + 8 * n)
            let s := s.raiseIf (decide (0 < num .fail)) (if n = 3 then 261 else 63)
            let s := { s with sd := memPutNat s.sd (0x4000 * n + out) 2 picked.length }
            let s := forEach picked.zipIdx (fun p s =>
              { s with sd := memPutNat s.sd (0x4000 * n + out + 2 + 2 * p.2) 2 p.1 }) s
            let s := if n = 3 then forEach picked.zipIdx (fun p s => s.eventEntry p.2 p.1) s else s.markAll picked
            .next (s.setReg (512 + n) sd.toNat (BitVec.ofNat 64 (picked.length + b2n (decide (512 < total)) * 2 ^ 16))))

/-- SKIP (R96). -/
def State.skip (s : State) (i : Issue) (sd : BitVec 5) : State :=
  s.issue i .s [sd] (fun s =>
    match i.who with
    | .thr _ => .exc .illegal
    | .seq q =>
      let n := q.val
      let m := (s.sqa n).window.length
      let s := if m = 0 then s else (s.releaseWindow n).bump (F.SQ_WCNT_SKIPS n) 1
      .next (s.setReg (512 + n) sd.toNat (BitVec.ofNat 64 m)))

/-! ### Phase bins -/

/-- A bin is aged (R153, R155). -/
def State.binAged (s : State) (w : Nat) : Bool :=
  let lim := max 1 (min 32 (s.get F.SQA_BIN_CFG_AGE_LIMIT))
  bit w 56 || decide (lim ≤ (s.get F.SQA_EPOCH_EPOCH + 64 - bits w 63 58) % 64)

/-- BIN (R62, R90): ILLEGAL in SQP.  R90 gives no result for a handle with a bit of [63:13] set or link 3, or for a table
outside the Granary: each is answered as an absent link, bit 8; a group endpoint or the parent link, which R203 calls no
association, has a present link and records a bin (DESIGN CHOICE, log 39). -/
def State.binSelect (s : State) (i : Issue) (sd sa sb : BitVec 5) : State :=
  s.issue i .s [sd, sa, sb] (fun s =>
    match i.who with
    | .thr _ => .exc .illegal
    | .seq q =>
      let n := q.val
      let h := (s.reg (512 + n) sa.toNat).toNat
      let st := h % 2048
      let l := bits h 12 11
      let r : State × Nat :=
        if 8192 ≤ h ∨ l = 3 ∨ !s.linkPresent l st ∨ !s.staTableOk then (s, 256)
        else
          let bound := s.staBound st
          let b := if bound then bits (s.reg (512 + n) sb.toNat).toNat 15 10 else 0
          let w := if s.binStoreOk && s.on F.SQA_BIN_CFG_VALID then s.bin st l b else 0
          let aged := bits w 47 40 != 0 && s.binAged w
          let x := s.sqa n
          let s := s.setSqa n { x with bins := (st + 2048 * l, b) :: x.bins.filter (fun e => e.1 != st + 2048 * l) }
          (s, b + b2n aged * 64 + b2n (!bound) * 128)
      if n = 3 then .exc .illegal else .next (r.1.setReg (512 + n) sd.toNat (BitVec.ofNat 64 r.2)))

/-- GO in `SQA.STA_UPD` (R141): the staged entry is installed whole; the STATE word keeps GRANTED and takes the
staged DEFICIT. -/
def State.staUpdate (s : State) : State :=
  let st := s.get F.SQA_STA_UPD_STA
  let wd (k : Nat) := s.get (F.SQA_STA_STAGE_WORD k)
  let old := s.staNat st 0x1C 4
  let t := forEach (List.range 7) (fun k s => s.staPut st (4 * k) 4 (wd k)) s
  if s.staTableOk then t.staPut st 0x1C 4 (setBits old 19 0 (wd 7)) else s

/-- GO in `SQA.BIN_UPD` (R152): one bin, all 64 of the link, or AGED in all 64; link 3 does nothing. -/
def State.binUpdate (s : State) (all age : Bool) : State :=
  let st := s.get F.SQA_BIN_UPD_STA
  let l := s.get F.SQA_BIN_UPD_LINK
  let v := s.get F.SQA_BIN_STAGE_BIN
  if l = 3 || !s.binStoreOk then s
  else if age then forEach (List.range 64) (fun b s => s.setBin st l b (setBit (s.bin st l b) 56 true)) s
  else if all then forEach (List.range 64) (fun b s => s.setBin st l b v) s
  else s.setBin st l (s.get F.SQA_BIN_UPD_BIN) v

/-- Bins that the sweep can change: every one, or those with a bit set while an all-zero bin is not stale. -/
def State.sweepBins (s : State) : List Nat :=
  if !s.binStoreOk then []
  else if s.binAged 0 then List.range 393216
  else dedup ((s.gm.filter (fun c => decide (s.binBase ≤ c.1 ∧ c.1 < s.binBase + 0x300000))).map
    (fun c => (c.1 - s.binBase) / 8)) []

/-- The background sweep of R155, once an epoch: AGED sets where the distance reaches AGE_LIMIT. -/
def State.binSweep (s : State) : State :=
  forEach s.sweepBins
    (fun k s =>
      let a := s.binBase + 8 * k
      let w := memNat s.gm a 8
      if s.binAged w then { s with gm := memPutNat s.gm a 8 (setBit w 56 true) } else s) s

/-- `SQA.EPOCH` advances (R155); the sweep of the epoch that ends has visited every bin by then (log 6). -/
def State.epochAdvance (s : State) : State :=
  let per := max 1 (s.get F.SQA_BIN_CFG_AGE_PERIOD) * second
  let s := (s.until ((s.now / per + 1) * per)).binSweep
  s.put F.SQA_EPOCH_EPOCH ((s.get F.SQA_EPOCH_EPOCH + 1) % 64)

/-- One outcome update of a bin (R154): `cnt` MPDUs solicited acknowledgement, `f` of them were not acknowledged. -/
def binStep (w start cnt f dn up upN sh maxMcs epoch : Nat) (aged : Bool) : Nat :=
  if cnt = 0 then w
  else
    let fr := min 4096 (f * 4096 / cnt)
    let mid := (dn + up) / 2
    let w :=
      if bits w 47 40 = 0 then
        let w := setBits (setBits (setBits (setBits w 3 0 (bits start 3 0)) 5 4 (bits start 5 4)) 9 6 (bits start 9 6))
          15 10 (bits start 15 10)
        setBits (setBits (setBits w 39 28 fr) 47 40 1) 55 48 0
      else
        let per := (bits w 39 28 : Int) + ((fr : Int) - (bits w 39 28 : Int)) / (2 ^ sh : Int)
        let w := setBits (setBits w 39 28 (per % 4096).toNat) 47 40 (min 255 (bits w 47 40 + 1))
        let p := bits w 39 28
        let mcs := bits w 3 0
        let pin := bit w 57
        if aged then setBits (setBit w 56 false) 55 48 0
        else if !pin && decide (dn < p) then
          let w := if 0 < mcs then setBits (setBits w 3 0 (mcs - 1)) 39 28 mid else w
          setBits w 55 48 0
        else if fr ≤ up ∧ p ≤ up then
          let st := min 255 (bits w 55 48 + 1)
          let w := setBits w 55 48 st
          if !pin && decide (upN ≤ st) && decide (mcs < maxMcs) then
            setBits (setBits (setBits w 3 0 (mcs + 1)) 39 28 mid) 55 48 0
          else w
        else setBits w 55 48 0
    setBits w 63 58 epoch

/-- The outcome update of station `st` on link `n` in bin `b` (R154). -/
def State.binOutcome (s : State) (n st b cnt f : Nat) : State :=
  if cnt = 0 || !s.binStoreOk then s
  else
    let w := s.bin st n b
    s.setBin st n b (binStep w (s.staNat st (8 + 2 * n) 2) cnt f (s.get (F.SQ_RATE_CFG_DOWN_TH n))
      (s.get (F.SQ_RATE_CFG_UP_TH n)) (max 1 (s.get (F.SQ_RATE_CFG_UP_N n))) (s.get (F.SQ_RATE_CFG_PER_SH n))
      (bits (s.linkCfg n st) 28 25) (s.get F.SQA_EPOCH_EPOCH) (s.binAged w))

/-- Transmit chains of radio `n` that are on and not disabled by an antenna fault (R233). -/
def State.txChains (s : State) (n : Nat) : Nat :=
  ((onesOf (s.get (F.RF_TXPWR_TXCH n)) 4).filter (fun c => !s.fbit (F.RF_RF_STAT_ANTF n) c)).length

/-- The values a husk serves a station with (R153); its streams never exceed the chains that are on (R233), and its
power is the back-off below the link's maximum (R151).  `ok` is false when its entry or bin cannot be read (R167). -/
def State.serve (s : State) (n st : Nat) (rec : Option Nat) (ok : Bool) : HuskSta :=
  let start := s.staNat st (8 + 2 * n) 2
  let bound := s.staBound st
  let d := s.staPd st
  let frac := (if s.locked d then (s.pd d).est s.now / 2 ^ 16 else s.phaseNow d) % 65536
  let b := match rec with | some b => b | none => if bound then frac / 1024 else 0
  let margin := s.get (F.SQ_SRV_CFG_AGE_MARGIN n)
  let valid := ok && s.on F.SQA_BIN_CFG_VALID && s.binStoreOk
  let w := if valid then s.bin st n b else 0
  let fresh := bits w 47 40 == 0
  let useStart := !valid || fresh
  let mcs0 := min 13 (if useStart then bits start 3 0 else bits w 3 0)
  let cut := !valid || (!fresh && s.binAged w) || (bound && !s.locked d)
  let mcs := min (bits (s.linkCfg n st) 28 25) (if cut then mcs0 - margin else mcs0)
  let src := if useStart then start else w
  let entry := if useStart then 0 else bits w 27 16
  let maxAge := s.get (F.RF_SND_CFG_MAXAGE n)
  let old := maxAge ≠ 0 ∧ (tabGet (fun _ => {}) (s.radio n).steer entry).ns + maxAge * 1000000 < s.now
  { sta := st, bin := b, mcs := mcs, nss := min (bits src 5 4) (s.txChains n - 1), ru := bits src 9 6,
    pwr := min 0x2E (s.get (F.RF_TXPWR_MAX n)) - bits src 15 10, steer := if old then 0 else entry }

/-! ### Cycles and service periods -/

/-- The next boundary of MODE 0 (R136): the next whole multiple of PERIOD µs. -/
def State.nextPeriod (s : State) (n : Nat) : Nat :=
  let p := 1000 * max 1 (min 1000000 (s.get (F.SQ_CYCLE_PERIOD n)))
  (s.now / p + 1) * p

/-- A cycle boundary of sequencer `n` (R136, R139): at its instant by PERIOD, or by the phase of its domain while that is
LOCKED and was so at the last boundary, the window and station counts return to 0 and the cycle count advances. -/
def State.cycleBoundary (s : State) (n : Nat) : State :=
  let d := s.get (F.SQ_CYCLE_PD n)
  let mode1 := s.get (F.SQ_CYCLE_MODE n) == 1
  let x := s.sqa n
  let step := 65536 / 2 ^ min 14 (s.get (F.SQ_CYCLE_DIV n))
  let atPhase := s.predict d (((s.phaseNow d / step + 1) * step) % 2 ^ 32)
  let s := match mode1 && s.locked d && !x.unlk, atPhase with
    | true, some t => s.until t.toNat
    | _, _ => s.until (s.nextPeriod n)
  let s := s.setSqa n { x with granted := [], budgetHit := false, capHit := false, unlk := mode1 && !s.locked d }
  ((s.put (F.SQ_CYC_STAT_WINDOWS n) 0).put (F.SQ_CYC_STAT_STATIONS n) 0).addWrap (F.SQ_CYC_STAT_CYCLES n) 1

/-- A service period of station `st` on its TWT link ends (R159, R160). -/
def State.twtSpEnd (s : State) (st : Nat) : State :=
  let c := s.staNat st 0x14 4
  let n := bits c 17 16
  if n < 3 ∧ s.twtActive st n = true then
    let spd := bits c 15 0
    let wi := s.staNat st 0x10 4
    let rest := (spd : Int) - s.twtDelta st n
    let s := s.until ((s.now : Int) + 1000 * max 0 rest).toNat
    let d := s.twtDelta st n
    let hops := max 1 ((((d - spd) / (wi : Int)) + 1).toNat)
    let x := s.sqa n
    let missed := s.hasWork n st && !x.served.contains st
    let s := s.setSqa n { x with served := x.served.filter (· != st) }
    let s := s.staPut st 0x18 4 ((s.staNat st 0x18 4 + hops * wi) % 2 ^ 32)
    (s.bump (F.SQ_TCNT_MISS n) (b2n missed)).raiseIf missed (37 + 8 * n)
  else s

/-! ### Waits for a phase or a time -/

/-- Count a WAITPH status (R161). -/
def State.countWait (s : State) (n status : Nat) : State :=
  if status = 1 then s.bump (F.SQ_WCNT_LATE n) 1
  else if status = 2 then s.bump (F.SQ_WCNT_UNLOCKED n) 1
  else if status = 3 then s.bump (F.SQ_WCNT_UNCERTAIN n) 1
  else s

/-- Status of a WAITPH whose target has been reached (R88). -/
def State.phaseStatus (s : State) (d guard : Nat) : Nat := if guard < s.errBound d then 3 else 0

/-- WAITPH (R88). -/
def State.waitph (s : State) (i : Issue) (sd sa sb : BitVec 5) (d : Fin 4) : State :=
  s.issue i .s [sd, sa, sb] (fun s =>
    match i.who with
    | .thr _ => .exc .illegal
    | .seq q =>
      let n := q.val
      let phi := (s.reg (512 + n) sa.toNat).toNat % 2 ^ 32
      let guard := (s.reg (512 + n) sb.toNat).toNat
      let ends (v : Nat) : Flow := .next ((s.countWait n v).setReg (512 + n) sd.toNat (BitVec.ofNat 64 v))
      if !s.locked d.val then ends 2
      else if (guard : Int) ≤ signed 32 (s.phaseNow d.val + 2 ^ 32 - phi) then ends 1
      else match s.predict d.val phi with
        | none => .stay (s.setSeq n { s.seq n with wait := some (.phase sd.toNat phi guard d.val) })
        | some t =>
          if t ≤ s.now then ends (s.phaseStatus d.val guard)
          else .stay (s.setSeq n { s.seq n with wait := some (.phase sd.toNat phi guard d.val) }))

/-- The predicted instant of a WAITPH arrives (R88). -/
def State.waitphWake (s : State) (n : Nat) : State :=
  match (s.seq n).wait with
  | some (.phase sd phi guard d) =>
    match s.predict d phi with
    | some t =>
      let s := s.until t.toNat
      let v := s.phaseStatus d guard
      (s.countWait n v).seqResume n sd v
    | none => s
  | _ => s

/-- Present value of a WAITT base (R89): TBM or TBN ns, or a TSF in µs. -/
def State.baseNow (s : State) (base : Nat) : Nat :=
  if base = 0 then s.now else if base = 1 then s.tbn / 2 ^ 32 else s.tsf (base - 2)

/-- WAITT (R89): 0 when the base reaches sa, 1 beyond it, 2 while TBN is not locked. -/
def State.waitt (s : State) (i : Issue) (sd sa : BitVec 5) (base : Fin 5) : State :=
  s.issue i .s [sd, sa] (fun s =>
    match i.who with
    | .thr _ => .exc .illegal
    | .seq q =>
      let n := q.val
      let v := (s.reg (512 + n) sa.toNat).toNat
      let b := s.baseNow base.val
      let ends (r : Nat) : Flow := .next (s.setReg (512 + n) sd.toNat (BitVec.ofNat 64 r))
      if base.val = 1 && !s.on F.TIME_TBN_CTL_LOCKED then ends 2
      else if v = b then ends 0
      else if v < b then ends 1
      else .stay (s.setSeq n { s.seq n with wait := some (.time sd.toNat base.val v) }))

/-- The base of a WAITT reaches its target (R89). -/
def State.waittWake (s : State) (n : Nat) : State :=
  match (s.seq n).wait with
  | some (.time sd base v) =>
    let t : Int := if base = 0 then v else if base = 1 then s.tbnToTbm v else s.tsfToTbm (base - 2) v
    (s.until t.toNat).seqResume n sd 0
  | _ => s

end Sys2Proof.Machine
end

