-- ==== Sys2Proof/Machine/AirHeader.lean ====
section
/-! DEFINITION. What an MPDU to a station looks like on air (R169 step 5, R178, R204): its addresses, and the nonce and
additional authenticated data of its protection. -/

namespace Sys2Proof.Machine

/-- Link MAC address of a station (R201), first byte on air lowest. -/
def State.linkAddr (s : State) (n st : Nat) : Nat := s.linkNat n st 4 6

/-- MLD address of a station (R201). -/
def State.linkMld (s : State) (n st : Nat) : Nat := s.linkNat n st 0x0A 6

/-- BSSID of a link (R231). -/
def State.linkBssid (s : State) (n st : Nat) : Nat := s.get (F.MX_BSS_ADDR_ADDR n (s.linkBss n st))

/-- Receiver and transmitter addresses that the nonce and the additional data use (R178): the MLD addresses for a station
that is an MLD, else those of the link; a group frame goes to the address in the frame, from the BSSID (R204). -/
def State.keyAddrs (s : State) (n st : Nat) (frame : List Byte) : Nat × Nat :=
  if s.linkGrp n st then (leNat (frame.take 6), s.linkBssid n st)
  else if s.linkMld n st ≠ s.linkAddr n st then (s.linkMld n st, Config.apMld)
  else (s.linkAddr n st, s.linkBssid n st)

/-- The 16-byte nonce block of an MPDU (R344): transmitter address and packet number, highest byte first, for GCMP; before
them the TID for CCMP (PRESUMED from IEEE 802.11, log 40). -/
def airNonce (gcm : Bool) (tid ta pn : Nat) : List Byte :=
  let body := natLe ta 6 ++ (natLe pn 6).reverse
  let l := if gcm then body else BitVec.ofNat 8 tid :: body
  l ++ List.replicate (16 - l.length) 0

/-- Additional authenticated data of a QoS Data MPDU (PRESUMED from IEEE 802.11, log 40): frame control with its mutable
bits 0, the three addresses, and sequence and QoS control with sequence number and all but the TID 0. -/
def airAad (tid ra ta a3 : Nat) : List Byte :=
  [0x88, 0x42] ++ natLe ra 6 ++ natLe ta 6 ++ natLe a3 6 ++ [0, 0, BitVec.ofNat 8 tid, 0]

/-- Bytes of the tag: 16 for GCMP, and for CCMP 8 under a 128-bit key and 16 under a 256-bit one (log 40). -/
def tagLen (gcm : Bool) (type : Nat) : Nat := if gcm then 16 else if type = 0 then 8 else 16

/-- The bytes an encryption job of an MPDU works on (R169 step 4, R344). -/
def State.mpduSource (s : State) (n : Nat) (m : Mpdu) (gcm : Bool) : List Byte :=
  let frame := m.item.pkt.bytes
  let a := s.keyAddrs n m.sta frame
  airNonce gcm m.tid a.2 m.pn ++ airAad m.tid a.1 a.2 (leNat ((frame.drop 6).take 6)) ++ frame

/-- An MPDU as it goes on air on link `n` (R178): the link's addresses, the Retry bit of one sent before, and the body from
its plaintext or ciphertext buffer (R170); `last` marks the station's last MPDU, which carries More Data and EOSP (R205). -/
def State.airMpdu (s : State) (n : Nat) (k : HuskSta) (last : Bool) (m : Mpdu) : AirMpdu :=
  let frame := m.item.pkt.bytes
  { tid := m.tid, sn := m.sn, pn := m.slot.map (fun _ => m.pn),
    a1 := if s.linkGrp n k.sta then leNat (frame.take 6) else s.linkAddr n k.sta,
    a2 := s.linkBssid n k.sta, a3 := leNat ((frame.drop 6).take 6),
    retry := !m.isNew, more := last && k.more, eosp := last && k.eosp,
    body := if m.slot.isSome then memBytes s.xm m.cta m.ct else frame }

/-! ### Sizes of resource units -/

/-- Data subcarriers of an RU class (R157; tone counts PRESUMED from IEEE 802.11be, log 40). -/
def ruTones (c : Nat) : Nat :=
  [0, 24, 48, 72, 102, 126, 234, 468, 702, 980, 1448, 1682, 1960, 2940, 3408, 3920].getD c 3920

/-- Bits a subcarrier carries in one symbol at an MCS, in sixtieths (log 40). -/
def mcsBits (m : Nat) : Nat := [30, 60, 90, 120, 180, 240, 270, 300, 360, 400, 450, 500, 540, 600].getD m 600

/-- Bytes that a unit of class `c` carries in `us` microseconds at an MCS and `nss` + 1 streams: whole symbols of
13.6 µs, preamble not counted (log 40). -/
def ruCarries (c mcs nss us : Nat) : Nat := us * 10 / 136 * ruTones c * mcsBits mcs * (nss + 1) / 480

end Sys2Proof.Machine
end

