-- ==== Sys2Proof/Machine/HuskBase.lean ====
section
/-! DEFINITION. Husk assembly and undo (R168 - R184): taking MPDUs, sequence and packet numbers, resource units,
and returning everything a husk held. -/

namespace Sys2Proof.Machine

/-! ### Muting -/

/-- Radio `n` (3: the Pip radio) has power and its die is out of reset: its MAC's domain, the radio die, and its front
end (R14, R15, R455, R458). -/
def State.radioPowered (s : State) (n : Nat) : Bool :=
  s.domOn (if n = 3 then 5 else 11) && s.domOn 13 && s.ctl.fronts.contains n && !s.on F.SEC_RST_RDIE_HOLD

/-- Radio `n` hears: its MAC is enabled and it has power (R223). -/
def State.radioHears (s : State) (n : Nat) : Bool :=
  (if n = 3 then s.on F.PIP_CTL_EN else s.on (F.MX_CTL_EN n)) && s.radioPowered n

/-- Radio `n` (3: the Pip radio) is muted (R167, R223, R235, R272, R458): a source at L2, a failed calibration, Dump or
Fault Hold. -/
def State.muted (s : State) (n : Nat) : Bool :=
  s.stopped || s.seqSourceHalt n
  || (if n = 3 then s.halted (span 256 288) || s.air.pip.calFail
      else s.radioSourceMute n || (s.radio n).calFail
        || ((s.radio n).unlocked && (!s.on (F.RF_RF_STAT_LOCK n) || s.isPending (160 + 32 * n))))

/-- Radio `n` can hold husks: enabled, powered and not muted (R223, R272). -/
def State.radioOk (s : State) (n : Nat) : Bool := s.radioHears n && !s.muted n

/-! ### Sequence spaces -/

/-- All husks of the three Wi-Fi sequencers. -/
def State.wifiHusks (s : State) : List Husk :=
  (List.range 3).flatMap (fun n => (s.sqa n).husk0.toList ++ (s.sqa n).husk1.toList)

/-- Window of a station and TID for transmission (R174): the negotiated block-ack size, or 1. -/
def State.txWindow (s : State) (st tid : Nat) : Nat :=
  let a := s.get F.SQA_SB_BASE_ADDR / 64 * 64 + 192 * (8 * st + tid)
  max 1 (min 1024 (memNat s.gm (a + 0x82) 2))

/-- OLDEST moves to the lowest number still held in a husk or the retry set, or to NEXT_SN (R185). -/
def State.moveOldest (s : State) (n st tid : Nat) : State :=
  let k := s.snKey n st tid
  let x := s.snSpace k
  let held := (s.wifiHusks.flatMap (fun h => h.mpdus.filter (fun m => s.snKey n m.sta m.tid == k && m.sta == st)))
    ++ x.retry
  let d := minBy id (held.map (fun m => (m.sn + 4096 - x.oldest) % 4096))
  s.setSn k { x with oldest := match d with | some d => (x.oldest + d) % 4096 | none => x.next }

/-- Put an MPDU into its retry set, in ascending number from OLDEST (R185). -/
def State.toRetry (s : State) (n : Nat) (m : Mpdu) : State :=
  let k := s.snKey n m.sta m.tid
  let x := s.snSpace k
  s.setSn k { x with retry := insertBy (fun q => (q.sn + 4096 - x.oldest) % 4096) { m with isNew := false } x.retry }

/-- A numbered MPDU is dropped for good: freed, and its number abandoned with a BlockAckReq to come (R187). -/
def State.abandon (s : State) (n : Nat) (m : Mpdu) : State :=
  let k := s.snKey n m.sta m.tid
  let s := s.setSn k { s.snSpace k with bar := true }
  (s.egressFall 4 1).moveOldest n m.sta m.tid

/-! ### Step 1 of assembly: taking MPDUs -/

/-- Remove the first element that a test accepts. -/
def eraseFirst {α : Type} (p : α → Bool) : List α → List α
  | [] => []
  | x :: xs => if p x then xs else x :: eraseFirst p xs

/-- The packet is past its lifetime (R187). -/
def State.tooOld (s : State) (it : EgItem) : Bool :=
  let life := s.get F.SQA_RETRY_LIFE
  life != 0 && decide (it.pkt.stamp + life * 1000000 < s.now)

/-- A group endpoint whose queue is empty stays awake no longer (R206): nothing is queued or in an uncommitted husk. -/
def State.groupRest (s : State) (n st : Nat) : State :=
  if s.linkGrp n st && (s.queued 4 st).isEmpty
      && !((s.sqa n).husk0.toList ++ (s.sqa n).husk1.toList).any (fun h =>
        decide (h.st < 3) && h.mpdus.any (fun m => m.sta == st)) then
    s.setRadio n { s.radio n with grpOn := (s.radio n).grpOn.filter (· != s.linkBss n st) }
  else s

/-- Lifetime drops of station `st` at the start of step 1 on link `n` (R187), on every TID, mapped or not (R203). -/
def State.dropOld (s : State) (n st : Nat) : State :=
  let old (i : EgItem) : Bool := i.kind == 4 && i.target == st && s.tooOld i
  let cnt := (s.hts.egress.filter old).length
  let s := (s.freeQueued old).bump F.SQA_TXDROP_LIFE cnt
  let s := forEach (List.range 8) (fun t s =>
    let k := s.snKey n st t
    let gone := (s.snSpace k).retry.filter (fun m => s.tooOld m.item)
    let s := s.setSn k { s.snSpace k with retry := (s.snSpace k).retry.filter (fun m => !s.tooOld m.item) }
    forEach gone (fun m s => (s.bump F.SQA_TXDROP_LIFE 1).abandon n m) s) s
  (s.restDeficit st).groupRest n st

/-- The ciphertext of MPDUs under erased key slots can no longer be verified (R195). -/
def State.killCt (s : State) (p : Nat → Bool) : State :=
  let upd (m : Mpdu) : Mpdu := match m.slot with | some k => if p k then { m with dead := true } else m | none => m
  let husk (h : Husk) : Husk := { h with mpdus := h.mpdus.map upd }
  let sq := s.air.sq.map (fun x => { x with husk0 := x.husk0.map husk, husk1 := x.husk1.map husk })
  { s with air := { s.air with sq := sq, sn := s.air.sn.map (fun e => (e.1, { e.2 with retry := e.2.retry.map upd })) } }

/-- A retried MPDU whose key slot has been erased is dropped, even if the slot was loaded anew since (R195). -/
def State.dropErased (s : State) (n st : Nat) : State :=
  let dead (s : State) (m : Mpdu) : Bool :=
    m.dead || (match m.slot with | some k => !(s.keySlot k).loaded | none => false)
  forEach (s.tidsOf n st) (fun t s =>
    let k := s.snKey n st t
    let x := s.snSpace k
    let s' := s.setSn k { x with retry := x.retry.filter (fun m => !dead s m) }
    forEach (x.retry.filter (dead s)) (fun m s => (s.bump F.SQA_TXDROP_RETRY 1).abandon n m) s') s

/-- What a retry set gives, at most `f` MPDUs in order from position `pos`: those taken, those whose buffer reads fail
(R171), those left, and the next position. -/
def pickRetry (lost : List Nat) : List Mpdu → Nat → Nat → List Mpdu × List Mpdu × List Mpdu × Nat
  | [], _, pos => ([], [], [], pos)
  | m :: ms, 0, pos => ([], [], m :: ms, pos)
  | m :: ms, f + 1, pos =>
    if lost.contains pos then
      let r := pickRetry lost ms (f + 1) (pos + 1)
      (r.1, m :: r.2.1, r.2.2.1, r.2.2.2)
    else
      let r := pickRetry lost ms f (pos + 1)
      (m :: r.1, r.2.1, r.2.2.1, r.2.2.2)

/-- What step 1 takes of one station link. -/
structure Taken where
  mpdus : List Mpdu := []
  /-- numbered MPDUs whose buffer reads failed -/
  gone : List Mpdu := []
  /-- MPDUs looked at so far -/
  pos : Nat := 0
  /-- the ciphertext area was full -/
  full : Bool := false

/-- Take up to `f` MPDUs from the retry sets of the link, ascending within each TID (R169 step 1). -/
def State.takeRetry (s : State) (n st f : Nat) (lost : List Nat) : State × Taken :=
  (s.tidsOf n st).foldl (fun (r : State × Taken) t =>
    let k := r.1.snKey n st t
    let x := r.1.snSpace k
    let p := pickRetry lost x.retry (f - r.2.mpdus.length) r.2.pos
    (r.1.setSn k { x with retry := p.2.2.1 },
     { r.2 with mpdus := r.2.mpdus ++ p.1, gone := r.2.gone ++ p.2.1, pos := p.2.2.2 })) (s, {})

/-- The station's frames on the link are protected under this slot (R201). -/
def State.linkKey (s : State) (n st : Nat) : Option Nat :=
  let w := s.linkNat n st 0x10 2
  if bit w 15 then some (w % 8192) else none

/-- The ciphertext block of `len` bytes: rounded up to 64 (R179). -/
def ctBlock (len : Nat) : Nat := cdiv len 64 * 64

/-- Blocks of the ciphertext area in use: address and size (R179). -/
def State.ctBlocks (s : State) : List (Nat × Nat) :=
  let held := s.wifiHusks.flatMap (fun h => h.mpdus) ++ s.air.sn.flatMap (fun e => e.2.retry)
  (held.filter (fun m => m.ct != 0)).map (fun m => (m.cta, ctBlock m.ct))

/-- The lowest address at or beyond `cur` with `need` bytes free before `fin`, between blocks in rising order. -/
def firstFit (need fin : Nat) : List (Nat × Nat) → Nat → Option Nat
  | [], cur => if cur + need ≤ fin then some cur else none
  | b :: bs, cur => if cur + need ≤ b.1 then some cur else firstFit need fin bs (max cur (b.1 + b.2))

/-- Room in the ciphertext area for `len` bytes beside the blocks in use and those of `acc` (R179): the lowest free place
(DESIGN CHOICE, log 40). -/
def State.ctRoom (s : State) (acc : List (Nat × Nat)) (len : Nat) : Option Nat :=
  let base := s.get F.SQA_CT_BASE_ADDR / 64 * 64
  let fin := base + 65536 * max 1 (s.get F.SQA_CT_SIZE_SIZE)
  firstFit (ctBlock len) fin (sortBy (fun b => b.1) (s.ctBlocks ++ acc)) base

/-- Take up to `f` new MPDUs from the heads of the TID queues mapped to the link, oldest queued first (R169 steps 1, 2): one
whose buffer read fails is dropped (R171), and a full ciphertext area ends it (R179).  `held` are the blocks already taken
in this assembly, `tlen` the bytes of a tag. -/
def State.takeNew (s : State) (n st tlen : Nat) (lost : List Nat) (held : List (Nat × Nat)) : Nat → Nat → Taken → State × Taken
  | 0, _, r => (s, r)
  | _ + 1, 0, r => (s, r)
  | fuel + 1, f + 1, r =>
    let room (t : Nat) : Bool :=
      let x := s.snSpace (s.snKey n st t)
      decide ((x.next + 4096 - x.oldest) % 4096 < s.txWindow st t)
    let p (i : EgItem) : Bool := i.kind == 4 && i.target == st && (s.tidsOf n st).contains i.tc && room i.tc
    match s.hts.egress.find? p with
    | none => (s, r)
    | some it =>
      let out := { s with hts := { s.hts with egress := eraseFirst p s.hts.egress } }
      if lost.contains r.pos then
        (((out.egressFall 4 1).bump F.SQA_TXDROP_RETRY 1).raise (89 + 32 * n)).takeNew n st tlen lost held fuel (f + 1)
          { r with pos := r.pos + 1 }
      else
        let key := s.linkKey n st
        let len := it.pkt.bytes.length + tlen
        let k := s.snKey n st it.tc
        let x := s.snSpace k
        let m : Mpdu := { item := it, sta := st, tid := it.tc, sn := x.next, slot := key }
        let s' := out.setSn k { x with next := (x.next + 1) % 4096 }
        if key.isNone then
          s'.takeNew n st tlen lost held fuel f { r with mpdus := r.mpdus ++ [m], pos := r.pos + 1 }
        else match s.ctRoom (held ++ (r.mpdus.filter (fun q => q.ct != 0)).map (fun q => (q.cta, ctBlock q.ct))) len with
          | none => (s, { r with full := true })
          | some a =>
            s'.takeNew n st tlen lost held fuel f
              { r with mpdus := r.mpdus ++ [{ m with cta := a, ct := len }], pos := r.pos + 1 }

/-- New MPDUs go back to the heads of their TID queues in their order, and NEXT_SN to the lowest of them (R175, R183); they
count against no queue limit. -/
def State.returnNew (s : State) (n : Nat) (l : List Mpdu) : State :=
  let s := { s with hts := { s.hts with egress := l.map (fun m => { m.item with ret := true }) ++ s.hts.egress } }
  forEach l.reverse (fun m s =>
    let k := s.snKey n m.sta m.tid
    s.setSn k { s.snSpace k with next := m.sn }) s

/-- The key slot holds an uncommitted block reserved by a husk of another sequencer (R177). -/
def State.keyBusy (s : State) (n slot : Nat) : Bool :=
  (List.range 3).any (fun m => m != n &&
    ((s.sqa m).husk0.toList ++ (s.sqa m).husk1.toList).any (fun h =>
      decide (h.st < 3) && h.mpdus.any (fun q => q.isNew && q.slot == some slot)))

/-- Give packet numbers to new protected MPDUs of one slot as one contiguous block (R176); none when refused. -/
def State.numberBlock (s : State) (l : List Mpdu) (slot : Nat) : Option (State × List Mpdu) :=
  match s.pnReserve slot l.length with
  | none => none
  | some (pn, s) => some (s, l.zipIdx.map (fun p => { p.1 with pn := pn + p.2 }))

/-- MPDUs still to be delivered in the station's open service period on the link (R205). -/
def State.spLeft (s : State) (n st : Nat) : Nat :=
  let c := bits (s.linkNat n st 0x14 2) 9 8
  if c = 0 then 0xFFFF else 2 * c - tabGet (fun _ => 0) (s.radio n).spent st

/-- A dozing link awake for a PS-Poll takes one MPDU, and one awake for a service period as many as its length leaves
(R205). -/
def State.psLimit (s : State) (n st fit : Nat) : Nat :=
  if !s.linkDoze n st then fit
  else if bit (s.linkPs n st) 1 then min fit (s.spLeft n st)
  else if bit (s.linkPs n st) 2 then min 1 fit
  else fit

/-- Steps 1 to 3 for one station (R169): `fit` MPDUs at most; `lost` are the positions, from 0 in the order of taking, of
MPDUs whose buffer reads fail (R171); `gcm` names the cipher suite. -/
def State.takeMpdus (s : State) (n st fit : Nat) (lost : List Nat) (gcm : Bool) (held : List (Nat × Nat)) : State × Taken :=
  let s := (s.dropOld n st).dropErased n st
  let fit := s.psLimit n st fit
  let r := s.takeRetry n st fit lost
  let left := fit - r.2.mpdus.length
  let s := r.1
  let key := s.linkKey n st
  let busy := match key with | some k => s.keyBusy n k | none => false
  if busy then
    let cnt := min left (s.linkQueue n st).length
    (s.bump (F.SQ_UCNT2_KEYBUSY n) cnt, r.2)
  else
    let tlen := match key with | some k => tagLen gcm (s.keySlot k).type | none => 0
    let t := s.takeNew n st tlen lost held s.hts.egress.length left { pos := r.2.pos }
    let s := t.1.restDeficit st
    let got (l : List Mpdu) : Taken :=
      { mpdus := r.2.mpdus ++ l, gone := r.2.gone, pos := t.2.pos, full := t.2.full }
    match key, t.2.mpdus with
    | some k, m :: ms =>
      match s.numberBlock (m :: ms) k with
      | some (s, l) => (s, got (l.map (fun q => { q with done := false })))
      | none => ((s.returnNew n (m :: ms)).raise (90 + 32 * n), got [])
    | _, l => (s, got l)

/-! ### Resource units (R157) -/

/-- 20 MHz subchannels of a width code (R201). -/
def subchannels (bw : Nat) : Nat := 2 ^ min 4 bw

/-- The largest RU class a channel of `w` subchannels holds. -/
def maxClass (w : Nat) : Nat := if w = 1 then 6 else if w = 2 then 7 else if w = 4 then 9 else if w = 8 then 12 else 15

/-- Groups of `g` of the numbers below `w`, aligned. -/
def aligned (w g : Nat) : List (List Nat) := (List.range (w / g)).map (fun i => span (g * i) (g * i + g))

/-- Each aligned group of `g` without each aligned subgroup of `h`, the one that fills the lowest frequencies first. -/
def without (w g h : Nat) : List (List Nat) :=
  (aligned w g).flatMap (fun l => (aligned w h).reverse.filterMap (fun o =>
    if o.all (fun x => l.contains x) then some (l.filter (fun x => !o.contains x)) else none))

/-- 26-tone positions, nine to a subchannel, of the units of a class: lowest frequency first. -/
def ruPlaces (w c : Nat) : List (List Nat) :=
  let inSub (ls : List (List Nat)) : List (List Nat) :=
    (List.range w).flatMap (fun sc => ls.map (fun l => l.map (9 * sc + ·)))
  let whole (ls : List (List Nat)) : List (List Nat) := ls.map (fun l => l.flatMap (fun sc => span (9 * sc) (9 * sc + 9)))
  if c = 1 then inSub ((List.range 9).map (fun i => [i]))
  else if c = 2 then inSub [[0, 1], [2, 3], [5, 6], [7, 8]]
  else if c = 3 then inSub [[2, 3, 4], [4, 5, 6]]
  else if c = 4 then inSub [[0, 1, 2, 3], [5, 6, 7, 8]]
  else if c = 5 then inSub [[0, 1, 2, 3, 4], [4, 5, 6, 7, 8]]
  else if c = 6 then whole (aligned w 1)
  else if c = 7 then whole (aligned w 2)
  else if c = 8 then whole (without w 4 1)
  else if c = 9 then whole (aligned w 4)
  else if c = 10 then whole (without w 8 2)
  else if c = 11 then whole (without w 8 1)
  else if c = 12 then whole (aligned w 8)
  else if c = 13 then whole (without w 16 4)
  else if c = 14 then whole (without w 16 2)
  else whole (aligned w 16)

/-- The lowest-frequency free unit of class `c`, or of each smaller class in turn, none smaller than `lo` (R157 steps 3, 4). -/
def placeRu (w lo : Nat) (used : List Nat) : Nat → Option (List Nat)
  | 0 => none
  | c + 1 =>
    if c + 1 < lo then none
    else match (ruPlaces w (c + 1)).find? (fun l => l.all (fun x => !used.contains x)) with
      | some l => some l
      | none => placeRu w lo used c

/-- Users placed as one: their class, the least class they accept, and their stations. -/
structure RuGroup where
  cls : Nat
  lo : Nat
  stas : List Nat

/-- Place groups of users in order: the stations placed, each with its unit. -/
def placeAll (w : Nat) : List RuGroup → List Nat → List (Nat × List Nat)
  | [], _ => []
  | g :: gs, used =>
    match placeRu w g.lo used g.cls with
    | some l => g.stas.map (fun st => (st, l)) ++ placeAll w gs (used ++ l)
    | none => placeAll w gs used

/-- Class 0 resolved (R157 step 1): the smallest class that carries `bytes` within `limit` µs, or the largest of the
channel. -/
def sizeClass (w bytes mcs nss limit : Nat) : Nat :=
  ((span 1 (maxClass w + 1)).find? (fun c => decide (bytes ≤ ruCarries c mcs nss limit))).getD (maxClass w)

/-- RU class a station asks for, capped to the channel (R157, R158): for class 0 by the bytes queued for the link, or for an
uplink by its buffer report; a station without a report gets the smallest unit (log 40). -/
def State.ruWanted (s : State) (n : Nat) (uplink : Bool) (limit : Nat) (k : HuskSta) : Nat :=
  let w := subchannels (s.get (F.RF_CHAN_BW n))
  let tids := s.tidsOf n k.sta
  if k.ru ≠ 0 then min (maxClass w) k.ru
  else if uplink then
    if tids.all (fun t => (s.bsrSaid k.sta t).isNone) then 1
    else sizeClass w (tids.map (s.bsrOf k.sta)).sum k.mcs k.nss limit
  else
    sizeClass w (((s.linkRetry n k.sta).map (fun m => m.item.pkt.bytes.length)).sum
      + ((s.linkQueue n k.sta).map (fun i => i.pkt.bytes.length)).sum) k.mcs k.nss limit

/-- The stations that get a resource unit, each with it (R157): on the downlink, users of one multi-user steering group
share a unit of class 6 or larger when their streams total at most 4 (R200: no uplink MU-MIMO); the rest are placed one by
one, largest class first. -/
def State.allocate (s : State) (n : Nat) (uplink : Bool) (limit : Nat) (us : List HuskSta) : List (Nat × List Nat) :=
  let w := subchannels (s.get (F.RF_CHAN_BW n))
  let cls (k : HuskSta) := s.ruWanted n uplink limit k
  let punct := (onesOf (s.get (F.RF_CHAN_PUNCT n)) 16).flatMap (fun sc => span (9 * sc) (9 * sc + 9))
  let grp (k : HuskSta) : Nat := if k.steer = 0 then 0 else (tabGet (fun _ => {}) (s.radio n).steer k.steer).group
  let share (k : HuskSta) : List HuskSta := us.filter (fun j => grp j == grp k)
  let shares (k : HuskSta) : Bool :=
    !uplink && grp k != 0 && decide (2 ≤ (share k).length)
    && (share k).any (fun j => decide (6 ≤ cls j)) && decide (((share k).map (fun j => j.nss + 1)).sum ≤ 4)
  let groups : List RuGroup := us.filterMap (fun k =>
    if shares k then
      match share k with
      | f :: _ => if f.sta = k.sta then
          some ⟨((share k).map cls).foldl max 1, 6, (share k).map (fun j => j.sta)⟩ else none
      | [] => none
    else some ⟨cls k, 1, [k.sta]⟩)
  placeAll w (sortBy (fun g => 16 - g.cls) groups) punct

/-- Target receive power of an uplink in dBm, clamped (R165). -/
def State.ulRssi (s : State) (n : Nat) : Int := max (-110) (min (-20) (signed 8 (s.get (F.SQ_SRV_CFG_UL_TGT_RSSI n))))

/-- User Info of the stations that get an uplink unit (R158). -/
def State.userInfos (s : State) (n limit : Nat) (us : List HuskSta) : List UserInfo :=
  (s.allocate n true limit us).filterMap (fun p => (us.find? (fun k => k.sta == p.1)).map (fun k =>
    { sta := k.sta, place := p.2, mcs := k.mcs - s.get (F.SQ_SRV_CFG_UL_MCS_DELTA n), nss := k.nss, rssi := s.ulRssi n }))

/-! ### Undo -/

/-- Stored outcome of a slot. -/
def outField (n slot : Nat) : Fld := if slot = 0 then F.SQ_HUSK_STAT_S0_OUT n else F.SQ_HUSK_STAT_S1_OUT n

/-- Count an undo by its code (R196). -/
def State.countUndo (s : State) (n code : Nat) : State :=
  if code = 1 then s.bump (F.SQ_UCNT0_MEDIUM n) 1
  else if code = 2 then s.bump (F.SQ_UCNT0_PHASE n) 1
  else if code = 3 then s.bump (F.SQ_UCNT0_PLAN n) 1
  else if code = 4 then s.bump (F.SQ_UCNT0_DECLINED n) 1
  else if code = 5 then s.bump (F.SQ_UCNT1_KEYGEN n) 1
  else if code = 6 then s.bump (F.SQ_UCNT1_PROGRAM n) 1
  else if code = 7 ∨ code = 8 then s.bump (F.SQ_UCNT1_HALT n) 1
  else if code = 9 then s.bump (F.SQ_UCNT1_RADIO n) 1
  else if code = 10 then s.bump (F.SQ_UCNT2_LATE n) 1
  else s

/-- The husk shares a station and TID with another (R173). -/
def sharesTid (a b : Husk) : Bool := a.mpdus.any (fun m => b.mpdus.any (fun q => q.sta == m.sta && q.tid == m.tid))

/-- Undo one husk (R183, R268): MPDUs, sequence numbers and grants go back, packet numbers burn, and the outcome is
stored and counted. -/
def State.undoOne (s : State) (n slot code : Nat) : State :=
  match s.husk n slot with
  | none => s
  | some h =>
    let s := s.setHusk n slot none
    let fresh := h.mpdus.filter (fun m => m.isNew)
    let s := s.returnNew n fresh
    let s := forEach (h.mpdus.filter (fun m => !m.isNew)) (fun m s => s.toRetry n m) s
    let burnt := (fresh.filter (fun m => m.slot.isSome)).length + (if h.pip.isSome then 1 else 0)
    let s := s.bump (F.SQ_PN_BURN_COUNT n) burnt
    let s := if n = 3 then s else s.markAll (h.stas.map (fun k => k.sta))
    (s.put (outField n slot) code).countUndo n code

/-- A LAUNCH that waits on an empty slot returns the stored outcome, which clears (R94). -/
def State.launchReturn (s : State) (n : Nat) : State :=
  match (s.seq n).wait with
  | some (.launch sd slot _ _ _ _) =>
    if (s.husk n slot).isNone then
      (s.seqResume n sd (s.get (outField n slot))).put (outField n slot) 15
    else s
  | _ => s

/-- Undo an uncommitted husk, with the later-built one of the sequencer when they share a station and TID (R173); a
LAUNCH on it returns. -/
def State.undo (s : State) (n slot code : Nat) : State :=
  match s.husk n slot with
  | none => s
  | some h =>
    if 3 ≤ h.st then s
    else
      let other := 1 - slot
      let s := match s.husk n other with
        | some k =>
          if k.st < 3 ∧ h.order < k.order ∧ sharesTid h k = true then
            (s.undoOne n other code).bump (F.SQ_UCNT2_CASCADE n) 1
          else s
        | none => s
      (s.undoOne n slot code).launchReturn n

/-- The slot of the earlier-built husk of sequencer `n`. -/
def State.firstSlot (s : State) (n : Nat) : Nat :=
  match s.husk n 0, s.husk n 1 with
  | some a, some b => if b.order < a.order then 1 else 0
  | none, some _ => 1
  | _, none => 0

/-- Undo with `code` every uncommitted husk of sequencer `n` that a test accepts, the earlier-built first, so that it takes
the later one with it under R173. -/
def State.undoWhere (s : State) (n code : Nat) (p : Husk → Bool) : State :=
  let hit (s : State) (slot : Nat) : Bool := match s.husk n slot with | some h => decide (h.st < 3) && p h | none => false
  let a := s.firstSlot n
  let s := if hit s a then s.undo n a code else s
  if hit s (1 - a) then s.undo n (1 - a) code else s

/-- Undo every uncommitted husk of sequencer `n`. -/
def State.undoAll (s : State) (n code : Nat) : State := s.undoWhere n code (fun _ => true)

/-- Undo every husk of radio `n` that holds station `st`. -/
def State.undoStation (s : State) (n st code : Nat) : State :=
  s.undoWhere n code (fun h => h.stas.any (fun k => k.sta == st))

/-- Step 3 of a channel switch (R221): every uncommitted husk of the radio is undone with RADIO and it retunes; a frame
exchange still running makes it wait. -/
def State.switchNow (s : State) (n : Nat) : State :=
  match (s.radio n).csw with
  | none => s
  | some c =>
    let busy := [(s.sqa n).husk0, (s.sqa n).husk1].any (fun h => match h with | some h => h.st == 3 | none => false)
    if busy then s.setRadio n { s.radio n with csw := some { c with due := true } }
    else (s.setRadio n { s.radio n with csw := some { c with due := true, tuning := true } }).undoAll n 9

/-- A switch that waits for the end of a frame exchange goes on. -/
def State.switchOn (s : State) (n : Nat) : State :=
  match (s.radio n).csw with
  | some c => if c.due && !c.tuning then s.switchNow n else s
  | none => s

/-! ### Links that go -/

/-- The last link of a station has gone (R148, R203): it leaves every window set, and its queued and retried frames are
freed and counted. -/
def State.disassociate (s : State) (st : Nat) : State :=
  let p (i : EgItem) : Bool := i.kind == 4 && i.target == st
  let cnt := (s.hts.egress.filter p).length
  let s := (s.freeQueued p).bump F.SQA_QDROP_NOASSOC cnt
  let s := forEach (List.range 3) (fun n s =>
    s.setSqa n { s.sqa n with window := (s.sqa n).window.filter (· != st) }) s
  let s := forEach (List.range 8) (fun t s =>
    let x := s.snSpace (8 * st + t)
    let s := (s.egressFall 4 x.retry.length).bump F.SQA_QDROP_NOASSOC x.retry.length
    (s.setSn (8 * st + t) { x with retry := [] }).moveOldest 0 st t) s
  (s.markGranted st).restDeficit st

/-- A link of a station has gone (R203): its husks there are undone with PLAN, and without another link the station has
disassociated. -/
def State.linkGone (s : State) (n st : Nat) : State :=
  let s := s.undoStation n st 3
  if s.stationKnown st then s else s.disassociate st

/-- A halt or reload releases the grants of a committed husk too (R146). -/
def State.freeCommitted (s : State) (n : Nat) : State :=
  let x := s.sqa n
  let free (h : Husk) : Husk := if h.st = 3 then { h with freed := true } else h
  let stas := (x.husk0.toList ++ x.husk1.toList).flatMap (fun h => h.stas.map (fun k => k.sta))
  let s := s.setSqa n { x with husk0 := x.husk0.map free, husk1 := x.husk1.map free }
  if n = 3 then s else s.markAll stas

/-- A sequencer halts (R47, R87, R146, R165): waits end, window set and husks go, and CAUSE, EXC and HALT_PC report. -/
def State.seqHalt (s : State) (n : Nat) (r : HaltReq) : State :=
  let q := s.seq n
  let s := s.setSeq n { q with wait := none, halting := none }
  let s := s.releaseWindow n
  let s := (s.undoAll n r.outcome).freeCommitted n
  let s := ((s.put (F.SQ_CTL_HALTED n) 1).put (F.SQ_CTL_CAUSE n) r.cause).put (F.SQ_CTL_EXC n) r.exc
  s.put (F.SQ_HALT_PC_PC n) (if r.cause = 1 ∨ r.cause = 2 then q.pc / 4 else 0)

/-- A write of EN = 1 (R165): ignored while a source of the sequencer, or source 63, stands unacknowledged, or without a
valid image. -/
def State.seqEnable (s : State) (n : Nat) : State :=
  if (63 :: span (32 + 8 * n) (39 + 8 * n)).any (fun k => decide (1 ≤ s.level k)) || s.get (F.YCU_GEN_GEN (64 + n)) == 0xFFFFFFFF
      || (s.on (F.SQ_CTL_EN n) && !s.on (F.SQ_CTL_HALTED n)) then s
  else (s.seqStart n).put (F.SQ_CTL_EN n) 1

/-- A write of EN = 0 (R165): the sequencer halts with CAUSE 3 at its next instruction boundary. -/
def State.seqDisable (s : State) (n : Nat) : State :=
  let on := s.on (F.SQ_CTL_EN n) && !s.on (F.SQ_CTL_HALTED n)
  let s := s.put (F.SQ_CTL_EN n) 0
  if on then s.seqHalt n ⟨3, 0, 7⟩ else s

end Sys2Proof.Machine
end

