-- ==== Sys2Proof/Machine/PipLine.lean ====
section
/-! DEFINITION. A Pip frame as line bits (R237, R238): CRC-16, whitening, preamble and sync word, repetition. -/

namespace Sys2Proof.Machine

/-- Bits of a byte, least significant first (R238). -/
def byteBits (b : Nat) : List Bool := (List.range 8).map (fun i => b.testBit i)

/-- One bit of the CRC-16 of R238, polynomial 0x1021. -/
def crc16Bit (c : Nat) (b : Bool) : Nat :=
  let top := c.testBit 15 != b
  (c * 2 % 65536) ^^^ (if top then 0x1021 else 0)

/-- CRC-16 over bytes, initial value 0xFFFF; a byte enters its register high bit first, as is usual for the polynomial
(DEDUCED, log 12). -/
def crc16 (l : List Nat) : Nat := (l.flatMap (fun b => (byteBits b).reverse)).foldl crc16Bit 0xFFFF

/-- The PN9 sequence x^9 + x^5 + 1 (R238): `n` bits from state `x`, the low bit first (DEDUCED, log 12). -/
def pn9 : Nat → Nat → List Bool
  | 0, _ => []
  | n + 1, x => x.testBit 0 :: pn9 n (x / 2 + (if x.testBit 0 != x.testBit 5 then 256 else 0))

/-- Bits whitened with PN9 from its seed 0x1FF. -/
def whiten (l : List Bool) : List Bool := List.zipWith (fun a b => a != b) l (pn9 l.length 0x1FF)

/-- Line bit period of a rate code in ns (R237). -/
def lineBitNs (rate : Nat) : Nat := if rate = 0 then 20000 else if rate = 1 then 10000 else 5000

/-- Each bit sent `r` times in a row. -/
def repeated (r : Nat) (l : List Bool) : List Bool := l.flatMap (fun b => List.replicate r b)

/-- The line bits of an MPDU (R238): preamble of `pre` x r bits, sync word bit 0 first, LEN, MPDU and CRC. -/
def pipLine (pre sync rep : Nat) (mpdu : List Nat) : List Bool :=
  let r := 2 ^ rep
  let data := mpdu.length :: mpdu
  let crc := crc16 data
  (List.range (pre * r)).map (fun i => i % 2 == 1)
    ++ repeated r ((List.range 32).map (fun i => sync.testBit i)
      ++ whiten (data.flatMap byteBits ++ byteBits (crc % 256) ++ byteBits (crc / 256)))

/-- A received frame's CRC passes (R239). -/
def crcOk (mpdu : List Nat) (crc : Nat) : Bool := crc16 (mpdu.length :: mpdu) == crc

end Sys2Proof.Machine
end

