-- ==== Sys2Proof/Machine/Husk.lean ====
section
/-! DEFINITION. BUILD, TRIG, LAUNCH and UNDO, commit, and the end of a frame exchange (R92 - R95, R169 - R187). -/

namespace Sys2Proof.Machine

/-- Codes 1, 5, 2, 3 and 4 of BUILD (R92); none when assembly starts. -/
def State.buildRefusal (s : State) (n slot : Nat) (suits : Bool) (limit : Nat) : Option Nat :=
  match s.husk n slot with
  | some h => some (if h.st < 3 then 1 else 5)
  | none =>
    if (s.sqa n).window = [] then some 2
    else if !suits then some 3
    else if limit < 1 ∨ 5484 < limit then some 4
    else none

/-- The stored outcome of a slot clears when a BUILD starts into it (R86). -/
def State.startHusk (s : State) (n slot : Nat) (h : Husk) : State :=
  let x := s.sqa n
  let h := { h with order := x.nextOrder }
  let s := s.setSqa n { x with window := [], nextOrder := x.nextOrder + 1 }
  (s.setHusk n slot (some h)).put (outField n slot) 15

/-- Submit the jobs of a husk's new protected MPDUs (R169 step 4, R170, R179): each reads its plaintext and writes its block
of the ciphertext area; true when one was refused (R347). -/
def State.submitHusk (s : State) (n : Nat) (h : Husk) (gcm : Bool) : State × Bool :=
  h.mpdus.foldl (fun (r : State × Bool) m =>
    match m.slot with
    | some k =>
      if !m.isNew then r
      else match r.1.slotRefusal 0 k useAirTx with
        | some c => (r.1.countCode c, true)
        | none =>
          (r.1.queueJob { src := .husk n h.order m.sta m.tid m.sn, op := if gcm then 0 else 2, slot := k,
                          tlen := m.ct - m.item.pkt.bytes.length, aadLen := 24, len := m.item.pkt.bytes.length,
                          dstA := m.cta, data := r.1.mpduSource n m gcm }, r.2)
    | none => r) (s, false)

/-- The bin store reads as not valid at a BUILD (R156): source 36 + 8n, once until it is valid again. -/
def State.noteStore (s : State) (n : Nat) : State :=
  let valid := s.on F.SQA_BIN_CFG_VALID
  let x := s.sqa n
  if valid then s.setSqa n { x with noStore := false }
  else if x.noStore then s else (s.setSqa n { x with noStore := true }).raise (36 + 8 * n)

/-- What BUILD is told of station `i` of the window set. -/
def fitOf (fits : List Fit) (i : Nat) : Fit := fits.getD i ⟨0, []⟩

/-- The delivery-enabled ACs of a link hold no frames (R205). -/
def State.deliveryEmpty (s : State) (n st : Nat) : Bool :=
  let ac (t : Nat) : Nat := [1, 0, 0, 1, 2, 2, 3, 3].getD t 1
  let en := s.linkNat n st 0x14 2
  (s.queued 4 st).all (fun i => !bit en (ac i.tc))

/-- More Data and EOSP that BUILD sets in a station's last MPDU of `cnt` (R205). -/
def State.psBits (s : State) (n : Nat) (k : HuskSta) (cnt : Nat) : HuskSta :=
  let ps := s.linkPs n k.sta
  let sp := bit ps 0 && bit ps 1
  let poll := bit ps 0 && bit ps 2
  { k with poll := poll, more := poll && !(s.linkQueue n k.sta).isEmpty,
           eosp := sp && decide (0 < cnt) && (s.deliveryEmpty n k.sta || decide (s.spLeft n k.sta ≤ cnt)),
           icf := bit (s.linkCfg n k.sta) 18 }

/-- Steps 1 to 3 for the stations of a husk in order: the state, the stations, and what was taken of all. -/
def State.takeAll (s : State) (n : Nat) (gcm : Bool) (us : List (HuskSta × Fit)) : State × List HuskSta × Taken :=
  us.foldl (fun (r : State × List HuskSta × Taken) u =>
    let blocks := (r.2.2.mpdus.filter (fun m => m.ct != 0)).map (fun m => (m.cta, ctBlock m.ct))
    let t := r.1.takeMpdus n u.1.sta u.2.mpdus u.2.lost gcm blocks
    (t.1, r.2.1 ++ [t.1.psBits n u.1 t.2.mpdus.length],
      { r.2.2 with mpdus := r.2.2.mpdus ++ t.2.mpdus, gone := r.2.2.gone ++ t.2.gone, full := r.2.2.full || t.2.full }))
    (s, [], {})

/-- Numbered MPDUs whose buffer reads failed are dropped (R171): counted, source 89 + 32n, and their numbers abandoned. -/
def State.dropGone (s : State) (n : Nat) (l : List Mpdu) : State :=
  forEach l (fun m s => ((s.bump F.SQA_TXDROP_RETRY 1).raise (89 + 32 * n)).abandon n m) s

/-- Assemble a Wi-Fi husk for the stations `us` (R169); a refused job undoes it with KEYGEN at once (R347). -/
def State.assemble (s : State) (n slot kind limit : Nat) (us : List (HuskSta × Fit)) (gcm : Bool) : State :=
  let placed : List (Nat × List Nat) :=
    if kind = 1 ∨ kind = 2 then s.allocate n (kind == 2) limit (us.map (fun u => u.1))
    else us.map (fun u => (u.1.sta, []))
  let win := (s.sqa n).window
  let used := us.filterMap (fun u => (placed.find? (fun p => p.1 == u.1.sta)).map (fun p =>
    ({ u.1 with place := p.2 }, u.2)))
  let r := if kind = 2 then (s, used.map (fun u => { u.1 with icf := bit (s.linkCfg n u.1.sta) 18 }), {})
    else s.takeAll n gcm used
  let s := r.1.raiseIf r.2.2.full (88 + 32 * n)
  let h : Husk := { kind := kind, stas := r.2.1, mpdus := r.2.2.mpdus }
  let order := (s.sqa n).nextOrder
  let s := (s.startHusk n slot h).dropGone n r.2.2.gone
  let s := s.markAll win
  let t := s.submitHusk n { h with order := order } gcm
  if t.2 then t.1.undo n slot 5 else t.1

/-- BUILD of kinds 0 to 2 (R92, R157): `fits` and `gcm` say what the air standard fixes and the spec does not (log 8), and
`chks` what the reads of each station's schedule entry and bin found, in order (R167). -/
def State.build (s : State) (i : Issue) (sd sa : BitVec 5) (slot : Fin 2) (kind : Nat) (fits : List Fit) (gcm : Bool)
    (chks : List Check) : State :=
  s.issue i .s [sd, sa] (fun s =>
    match i.who with
    | .thr _ => .exc .illegal
    | .seq q =>
      let n := q.val
      let limit := (s.reg (512 + n) sa.toNat).toNat
      match s.buildRefusal n slot.val (n != 3) limit with
      | some c => .next (s.setReg (512 + n) sd.toNat (BitVec.ofNat 64 c))
      | none =>
        let s := (s.noteStore n).raiseIf (!s.linkTableOk n) (65 + 32 * n)
        let x := s.sqa n
        let all := if kind = 0 then x.window.take 1 else x.window.take 32
        let good (i : Nat) : Bool := decide (chks.getD i .good ≠ .lasting) && s.binStoreOk && s.staTableOk
        let s := s.raiseIf (all.zipIdx.any (fun p => !good p.2)) 63
        let us := all.zipIdx.map (fun p =>
          let rec' := (x.bins.find? (fun e => e.1 == p.1 + 2048 * n)).map (·.2)
          ({ s.serve n p.1 rec' (good p.2) with drr := x.policy == 3 }, fitOf fits p.2))
        let s := s.setSqa n { s.sqa n with bins := x.bins.filter (fun e => !(all.any (fun st => e.1 == st + 2048 * n))) }
        .next ((s.assemble n slot.val kind limit us gcm).setReg (512 + n) sd.toNat 0))

/-- The CTR a frame of a TYPE to a node takes (R246): FCTR for FLOOD, else DNCTR; none when it would pass its last value
(R268). -/
def State.takeCounter (s : State) (node type : Nat) : Option (Nat × State) :=
  if type = 5 then
    let c := s.get F.PIP_FCTR_NEXT
    if c = 0xFFFFFFFF then none else some (c, s.put F.PIP_FCTR_NEXT (c + 1))
  else
    let c := s.nodeNat node 0x20 4
    if c = 0xFFFFFFFF then none else some (c, s.nodePut node 0x20 4 (c + 1))

/-- TYPE and body of a packet queued to a node (R247). -/
def pipBody (it : EgItem) : Nat × List Byte :=
  match it.pkt.bytes with
  | b :: bs => (b.toNat % 16, bs)
  | [] => (1, [])

/-- The frame a husk or an automatic answer sends to a node (R255): the pending one, else the queue head, else an
empty DATA. -/
def State.pipChoose (s : State) (node : Nat) : Option EgItem × Bool :=
  match s.nodePending node with
  | some it => (some it, true)
  | none => (s.nodeHead node, false)

/-- Preamble line bits (R272). -/
def State.pipPre (s : State) : Nat := max 16 (s.get F.PIP_TX_CFG_PRE)

/-- Duration of a Pip frame of `len` MPDU bytes in ns (R237, R238). -/
def State.pipDuration (s : State) (rate rep len : Nat) : Nat := (s.pipPre + 32 + 8 * (len + 3)) * 2 ^ rep * lineBitNs rate

/-- MPDU length of a Pip frame with a body, SEC = 1 (R244). -/
def pipLen (body : List Byte) : Nat := 16 + body.length

/-- The MPDU of a frame from the device (R243, R244, R246): SEC is 1, and TTL stands outside the check value. -/
def State.pipMpdu (s : State) (type seq nesn ttl addr ctr slot : Nat) (md : Bool) (body : List Byte) : List Byte :=
  let fc := type + 16 * seq + 32 * nesn + 64 * b2n md + 128
  let rest := natLe (s.get F.PIP_NETID_NETID) 2 ++ natLe addr 4 ++ natLe ctr 4 ++ body
  let mic := (s.engineCmac slot usePip (natLe fc 2 ++ rest)).2.take 4
  natLe (fc + 256 * ttl) 2 ++ rest ++ mic

/-- The MPDU of a frame to a node: the sequence bits of its record, MD while more frames wait (R251, R260). -/
def State.nodeMpdu (s : State) (node type ctr slot : Nat) (body : List Byte) (held : Nat) : List Byte :=
  let l := s.nodeLink node
  let more := decide (held < (s.queued 5 node).length + (s.nodePending node).toList.length)
  if type = 5 then s.pipMpdu 5 0 0 (bits (s.nodeCfg node) 11 9) (s.get F.PIP_ADDR_ADDR) ctr slot false body
  else s.pipMpdu type (if type = 1 then b2n (bit l 1) else 0) (b2n (bit l 2)) 0 (s.nodeNat node 4 4) ctr slot more body

/-- BUILD of kind 3 (R267): the first node of the window set; a refused counter leaves a husk with no frame. -/
def State.buildPip (s : State) (i : Issue) (sd sa : BitVec 5) (slot : Fin 2) : State :=
  s.issue i .s [sd, sa] (fun s =>
    match i.who with
    | .thr _ => .exc .illegal
    | .seq q =>
      let n := q.val
      let limit := (s.reg (512 + n) sa.toNat).toNat
      match s.buildRefusal n slot.val (n == 3) limit with
      | some c => .next (s.setReg (512 + n) sd.toNat (BitVec.ofNat 64 c))
      | none =>
        let x := s.sqa 3
        let node := x.window.headD 0
        let mesh := s.nodeKind node == 2
        let ev := (x.events.find? (fun e => e.1 == node)).getD (node, s.nodeAnchor node, s.nodeNat node 0x18 2)
        let h : Husk := { kind := 3, stas := [{ sta := node, drr := x.policy == 3 }] }
        let c := s.pipChoose node
        let key := s.nodeNat node 8 2 % 8192
        let tb := match c.1 with | some it => pipBody it | none => (1, [])
        let type := if mesh then 5 else tb.1
        let s := match s.takeCounter node type with
          | none => (s.startHusk 3 slot.val h).raise 262
          | some (ctr, s) =>
            let tx : PipTx := { node := node, type := type, body := tb.2, ctr := ctr, slot := key,
                                gen := s.keyGen key, anchor := if mesh then 0 else ev.2.1, ec := if mesh then 0 else ev.2.2,
                                ch := if mesh then s.get F.PIP_HOME_CH else s.nodeChannel node ev.2.2,
                                mpdu := s.nodeMpdu node type ctr key tb.2 c.1.toList.length,
                                item := c.1, pend := c.2 }
            let s := s.startHusk 3 slot.val { h with pip := some tx }
            match s.slotRefusal 6 key usePip with
            | some code => (s.countCode code).undo 3 slot.val 5
            | none => s
        .next (s.setReg (512 + n) sd.toNat 0))

/-- Trigger Types that TRIG supports (R93). -/
def trigType (t : Nat) : Bool := t == 0 || t == 1 || t == 2 || t == 3 || t == 4 || t == 6

/-- The stations a sounding husk keeps (R217): 16, or with MU at 1 at most 4 whose streams total at most 4. -/
def soundKeep (mu : Bool) (l : List HuskSta) : List HuskSta :=
  if mu then
    (l.foldl (fun (r : List HuskSta × Nat) k =>
      if r.1.length < 4 ∧ r.2 + k.nss + 1 ≤ 4 then (r.1 ++ [k], r.2 + k.nss + 1) else r) ([], 0)).1
  else l.take 16

/-- TRIG (R62, R93, R158, R217): ILLEGAL in SQP. -/
def State.trig (s : State) (i : Issue) (sd sa sb : BitVec 5) (slot : Fin 2) : State :=
  s.issue i .s [sd, sa, sb] (fun s =>
    match i.who with
    | .thr _ => .exc .illegal
    | .seq q =>
      let n := q.val
      let t := (s.reg (512 + n) sa.toNat).toNat
      let len := (s.reg (512 + n) sb.toNat).toNat
      let ends (s : State) (v : Nat) : Flow := .next (s.setReg (512 + n) sd.toNat (BitVec.ofNat 64 v))
      if n = 3 then .exc .illegal
      else match s.husk n slot.val with
      | none => ends s 1
      | some h =>
        if h.st = 3 then ends s 4
        else if !trigType t then ends s 2
        else if h.trig.isSome then ends s 3
        else
          let keep := if h.kind = 2 ∧ t = 1 then soundKeep (s.on (F.RF_SND_CFG_MU n)) h.stas else h.stas
          let frame : Trigger := { type := t, len := len, users := s.userInfos n len keep }
          let s := s.setHusk n slot.val (some { h with st := 1, trig := some frame, stas := keep })
          ends (s.markAll (h.stas.map (fun k => k.sta))) 0)

/-- A LAUNCH window mapped onto TBM (R94, R115, R129): start and end, the end absent for kind 7; none when a phase
window cannot be predicted. -/
def State.launchWindow (s : State) (n kind sa sb : Nat) : Option (Int × Option Int) :=
  if kind = 0 then some (sa, some ((sa + sb : Nat) : Int))
  else if kind = 1 then some (s.tbnToTbm sa, some (s.tbnToTbm (sa + sb)))
  else if kind = 2 then some (s.tsfToTbm n sa, some (s.tsfToTbm n (sa + sb)))
  else if kind = 7 then some (s.now, none)
  else
    let d := kind - 3
    if !s.locked d then none
    else
      let len := signed 32 sb
      match s.predict d (sa % 2 ^ 32), s.predict d ((sa + sb) % 2 ^ 32) with
      | some a, some b => if 0 < len then some (a, some b) else some (a, some a)
      | _, _ => none

/-- A CONN husk also ends with its event's window (R267). -/
def Husk.eventEnd (h : Husk) : Option Int :=
  match h.pip with
  | some p => if p.anchor = 0 then none else some ((p.anchor + 1000000 : Nat) : Int)
  | none => none

/-- The earlier of two ends. -/
def minEnd : Option Int → Option Int → Option Int
  | some a, some b => some (min a b)
  | some a, none => some a
  | none, b => b

/-- Outcome of a husk whose window has ended (R94): PHASE when re-prediction moved the end earlier than at issue, else
LATE while assembling or for an empty window, else MEDIUM. -/
def endOutcome (h : Husk) (w : Option (Int × Option Int)) (kind issueEnd : Nat) : Nat :=
  match w with
  | none => 2
  | some (t0, some t1) =>
    if 3 ≤ kind ∧ kind ≤ 6 ∧ t1 < issueEnd then 2
    else if t1 ≤ t0 ∨ h.st < 2 then 10 else 1
  | some (_, none) => if h.st < 2 then 10 else 1

/-- LAUNCH (R94, R172).  A window of kind 3 to 6 issued while its domain is not LOCKED cannot be predicted: the husk is
undone at once with PHASE, whatever the length (DESIGN CHOICE, log 39). -/
def State.launch (s : State) (i : Issue) (sd sa sb : BitVec 5) (slot : Fin 2) (kind : Fin 8) : State :=
  s.issue i .s [sd, sa, sb] (fun s =>
    match i.who with
    | .thr _ => .exc .illegal
    | .seq q =>
      let n := q.val
      let a := (s.reg (512 + n) sa.toNat).toNat
      let b := (s.reg (512 + n) sb.toNat).toNat
      let ends (s : State) (v : Nat) : Flow := .next (s.setReg (512 + n) sd.toNat (BitVec.ofNat 64 v))
      if n = 3 ∧ kind.val = 2 then .exc .illegal
      else match s.husk n slot.val with
        | none =>
          let o := s.get (outField n slot.val)
          ends (s.put (outField n slot.val) 15) o
        | some h =>
          if h.st = 3 then ends s (h.commitNs % 2 ^ 56 * 256)
          else
            let against := match s.husk n (1 - slot.val) with
              | some k => decide (k.st < 3 ∧ k.order < h.order)
              | none => false
            if against then
              let s := (s.undoAll n 6).bump (F.SQ_UCNT2_ORDER n) 1
              let s := s.raiseIf (n != 3) (91 + 32 * n)
              ends (s.put (outField n slot.val) 15) 6
            else
              let w := s.launchWindow n kind.val a b
              let fin := match w with | some (_, e) => minEnd e h.eventEnd | none => some 0
              let ended := match w, fin with
                | some (t0, _), some t1 => decide (t1 ≤ t0 ∨ t1 ≤ (s.now : Int))
                | _, some _ => true
                | _, none => false
              let at' := match fin with | some t => t.toNat | none => 0
              if ended then
                let s := s.undo n slot.val (endOutcome h w kind.val at')
                let o := s.get (outField n slot.val)
                ends (s.put (outField n slot.val) 15) o
              else
                let s := s.setSeq n { s.seq n with wait := some (.launch sd.toNat slot.val kind.val a b at') }
                .stay (if n = 3 then s else s.setRadio n { s.radio n with heldOff := false }))

/-- UNDO (R95). -/
def State.undoInstr (s : State) (i : Issue) (sd : BitVec 5) (slot : Fin 2) : State :=
  s.issue i .s [sd] (fun s =>
    match i.who with
    | .thr _ => .exc .illegal
    | .seq q =>
      let n := q.val
      let ends (s : State) (v : Nat) : Flow := .next (s.setReg (512 + n) sd.toNat (BitVec.ofNat 64 v))
      match s.husk n slot.val with
      | some h =>
        if h.st = 3 then ends s 0
        else ends ((s.undo n slot.val 6).put (outField n slot.val) 15) 6
      | none =>
        let o := s.get (outField n slot.val)
        ends (s.put (outField n slot.val) 15) o)

/-! ### Ready and commit -/

/-- The last assembly step of a husk ends (R169): READY; a muted or disabled radio undoes it with RADIO (R223). -/
def State.huskReady (s : State) (n slot : Nat) : State :=
  match s.husk n slot with
  | some h =>
    if h.st = 1 && h.mpdus.all (fun m => m.done) && (h.kind != 3 || h.pip.isSome) then
      let s := s.setHusk n slot (some { h with st := 2 })
      if s.radioOk n then s else s.undo n slot 9
    else s
  | none => s

/-- AP-NSTR holds radio `n` while another radio of a configured pair receives (R209): `rx` names the radios that do. -/
def State.apNstrHold (s : State) (n rx : Nat) : Bool :=
  (List.range 3).any (fun m => m != n && bit rx m &&
    s.on (if pairBit m n = 6 then F.MXA_ML_CFG_APNSTR_AB else if pairBit m n = 7 then F.MXA_ML_CFG_APNSTR_AC
      else F.MXA_ML_CFG_APNSTR_BC))

/-- The MAC can commit a husk of sequencer `n` now, AP-NSTR apart (R212, R221 - R223, R257, R269). -/
def State.mayCommit (s : State) (n : Nat) : Bool :=
  !s.airHeld && if n = 3 then
    s.radioOk 3 && !s.on F.PIP_CTL_TXOFF && !s.air.pip.txBad && s.air.pip.bwin.isNone && s.air.pip.ex == .none
  else
    s.radioOk n && !s.on (F.MX_CTL_TXOFF n) && (s.radio n).bwin.isEmpty
    && (match (s.radio n).csw with | some c => !c.tuning && !c.due | none => true)

/-- Every key-slot job of the husk carries its slot's present generation (R180). -/
def State.gensMatch (s : State) (h : Husk) : Bool :=
  h.mpdus.all (fun m => match m.slot with | some k => !m.isNew || s.keyGen k == m.gen | none => true)
  && (match h.pip with | some p => s.keyGen p.slot == p.gen | none => true)

/-- Charge deficits at commit (R150, R265): the bytes carried to a station or node picked under policy 3; 0 when nothing
is left to send. -/
def State.chargeDeficit (s : State) (n : Nat) (h : Husk) : State :=
  forEach h.stas (fun k s =>
    let b := match h.pip with
      | some p => p.mpdu.length
      | none => ((h.mpdus.filter (fun m => m.sta == k.sta)).map (fun m => m.item.pkt.bytes.length)).sum
    let s := if k.drr then s.setCredit n k.sta (s.credit n k.sta - b) else s
    if n = 3 then (if s.nodeWork k.sta || s.credit 3 k.sta == 0 then s else s.setCredit 3 k.sta 0) else s.restDeficit k.sta) s

/-- Write the PS word of a link when it changes. -/
def State.setPs (s : State) (n st v : Nat) : State := if s.linkPs n st = v then s else s.linkPut n st 0x18 4 v

/-- Power save at a commit (R205, R206): POLL clears with the husk built for it, SP with the husk that carries EOSP; a
group endpoint whose queue has emptied rests. -/
def State.psCommit (s : State) (n : Nat) (h : Husk) : State :=
  forEach h.stas (fun k s =>
    let cnt := (h.mpdus.filter (fun m => m.sta == k.sta)).length
    let ps := if k.poll then setBit (s.linkPs n k.sta) 2 false else s.linkPs n k.sta
    let ps := if k.eosp then setBit ps 1 false else ps
    let s := s.setPs n k.sta ps
    let x := s.radio n
    let s := s.setRadio n { x with
      spent := tabSet (fun _ => 0) x.spent k.sta (if bit ps 1 then tabGet (fun _ => 0) x.spent k.sta + cnt else 0) }
    s.groupRest n k.sta) s

/-- The BlockAckReqs that lead a station's MPDUs (R187): one per TID with a dropped number, with the new start. -/
def State.barsFor (s : State) (n : Nat) (h : Husk) (st : Nat) : List (Nat × Nat) :=
  (dedup ((h.mpdus.filter (fun m => m.sta == st)).map (fun m => m.tid)) []).filterMap (fun t =>
    let x := s.snSpace (s.snKey n st t)
    if x.bar then some (t, x.oldest) else none)

/-- A sounding husk (R217): kind 2 with a BFRP trigger. -/
def Husk.sounding (h : Husk) : Bool := h.kind == 2 && (match h.trig with | some t => t.type == 1 | none => false)

/-- The PPDU of a husk as it commits (R153, R169 step 5, R187, R210, R217). -/
def State.huskPpdu (s : State) (n : Nat) (h : Husk) : Ppdu :=
  { icf := (h.stas.filter (fun k => k.icf)).map (fun k => (k.sta, bits (s.linkNat n k.sta 0x13 1) 2 0)),
    ndp := h.sounding,
    users := h.stas.map (fun k =>
      let l := h.mpdus.filter (fun m => m.sta == k.sta)
      { sta := k.sta, mcs := k.mcs, nss := k.nss, pwr := k.pwr, steer := k.steer, place := k.place,
        bars := s.barsFor n h k.sta,
        mpdus := l.zipIdx.map (fun p => s.airMpdu n k (p.2 + 1 == l.length) p.1) }),
    trig := h.trig }

/-- LINK word with PEND and TRIES (R248). -/
def State.setPend (s : State) (node : Nat) (pend : Bool) (tries : Nat) : State :=
  s.nodePut node 0x1A 2 (setBits (setBit (s.nodeLink node) 3 pend) 7 4 (min 15 tries))

/-- The Pip radio sends an MPDU (R238, R241, R272): its line bits, its power and the time it takes. -/
def State.pipEmit (s : State) (mpdu : List Byte) (rate rep : Nat) : State :=
  let line := pipLine s.pipPre (s.get F.PIP_SYNC_WORD) rep (nums mpdu)
  let p := { s.air.pip with sent := mpdu, line := line, power := (min 60 (s.get F.PIP_TX_CFG_PWR) : Int) - 20 }
  { s with air := { s.air with pip := p } }.put F.PIP_TXTIME_NS (s.get F.PIP_TXTIME_NS + s.pipDuration rate rep mpdu.length)

/-- A Pip frame goes on air (R251, R268): LASTTX advances, and a DATA frame with a body is pending from now on and counted
in TRIES; any other frame has left its queue. -/
def State.pipSent (s : State) (tx : PipTx) (rate rep : Nat) : State :=
  let s := (s.nodePut tx.node 0x30 8 (s.now % 2 ^ 64)).pipEmit tx.mpdu rate rep
  match tx.item with
  | none => s
  | some it =>
    if tx.type = 1 && !tx.body.isEmpty then
      if tx.pend then s.setPend tx.node true (bits (s.nodeLink tx.node) 7 4 + 1)
      else
        let s := { s with hts := { s.hts with egress := eraseFirst (fun i => i == it) s.hts.egress } }
        let s := { s with air := { s.air with pip := { s.air.pip with pending := s.air.pip.pending ++ [(tx.node, it)] } } }
        s.setPend tx.node true 1
    else { s with hts := { s.hts with egress := eraseFirst (fun i => i == it) s.hts.egress } }.egressFall 5 1

/-- The window in which a node's answer to a frame of `len` MPDU bytes must qualify (R242). -/
def State.pipAwait (s : State) (node slot rate rep len : Nat) : State :=
  let fin := s.now + s.pipDuration rate rep len
  { s with air := { s.air with pip := { s.air.pip with
    ex := .await node slot (fin + 450000) (fin + 600000 + (s.pipPre + 32) * 2 ^ rep * lineBitNs rate) } } }

/-- A committed husk awaits the outcome of a station (R154, R185): it carries MPDUs that solicit an acknowledgement, or its
trigger names the station; a group endpoint solicits none (R204), and only a DATA frame of Pip is answered (R255). -/
def State.solicits (s : State) (n : Nat) (h : Husk) (st : Nat) : Bool :=
  match h.pip with
  | some p => p.type == 1
  | none => n != 3 && !s.linkGrp n st && (h.mpdus.any (fun m => m.sta == st)
      || (match h.trig with | some t => t.users.any (fun u => u.sta == st) | none => false))

/-- MPDUs whose bytes an uncorrectable error took from the MAC's buffer are dropped (R235): source 64 + 32n; `bad` are
their positions in the husk. -/
def State.dropUnsent (s : State) (n slot : Nat) (h : Husk) (bad : List Nat) : State × Husk :=
  let gone := (h.mpdus.zipIdx.filter (fun p => bad.contains p.2)).map (fun p => p.1)
  let h := { h with mpdus := (h.mpdus.zipIdx.filter (fun p => !bad.contains p.2)).map (fun p => p.1) }
  let s := (s.setHusk n slot (some h)).bump (F.SQ_PN_BURN_COUNT n)
    (gone.filter (fun m => m.isNew && m.slot.isSome)).length
  (forEach gone (fun m s => (s.raise (64 + 32 * n)).abandon n m) s, h)

/-- What a Wi-Fi husk does at its commit: the PPDU goes on air, deficits and power save follow, a station is served in its
service period (R160), and the BlockAckReqs owed are sent. -/
def State.wifiSent (s : State) (n : Nat) (h : Husk) : State :=
  let s := s.setRadio n { s.radio n with ppdu := some (s.huskPpdu n h) }
  let s := (s.chargeDeficit n h).psCommit n h
  let x := s.sqa n
  let now := (h.stas.map (fun k => k.sta)).filter (fun st => !x.served.contains st && s.twtActive st n && s.twtOpen st n)
  let s := s.setSqa n { x with served := x.served ++ now }
  forEach h.mpdus (fun m s =>
    let k := s.snKey n m.sta m.tid
    if (s.snSpace k).bar then s.setSn k { s.snSpace k with bar := false } else s) s

/-- A husk commits (R181): it is on air, and COMMITS counts. -/
def State.commit (s : State) (n slot : Nat) (h : Husk) : State :=
  let ns := s.stampOut n s.now
  let h := { h with st := 3, commitNs := ns, stas := h.stas.map (fun k => { k with await := s.solicits n h k.sta }) }
  let s := (s.setHusk n slot (some h)).bump (F.SQ_COMMITS_COUNT n) 1
  let s := if n = 3 then
      match h.pip with
      | some p =>
        let c := s.nodeCfg p.node
        let s := (s.pipSent p (bits c 6 5) (bits c 8 7)).chargeDeficit 3 h
        if p.type = 1 then s.pipAwait p.node slot (bits c 6 5) (bits c 8 7) (pipLen p.body) else s
      | none => s
    else s.wifiSent n h
  match (s.seq n).wait with
  | some (.launch sd sl _ _ _ _) =>
    if sl = slot then s.seqResume n sd (ns % 2 ^ 56 * 256) else s
  | _ => s

/-- The Pip channel counts as clear at the RSSI measured now (R241; a free value, log 3). -/
def State.pipClear (s : State) : Bool :=
  !s.on F.PIP_TX_CFG_LBT || decide (signed 8 (Config.pipRssi s.now % 256) < signed 8 (s.get F.PIP_TX_CFG_CCA_THR))

/-- The medium is won for the husk a LAUNCH holds (R94, R180): it commits when its window is open and its key generations
match, or is undone with KEYGEN; AP-NSTR counts a hold once per LAUNCH, `rx` naming the radios that receive, and `bad`
the MPDUs that the MAC's buffer lost. -/
def State.huskCommit (s : State) (n rx : Nat) (bad : List Nat) : State :=
  match (s.seq n).wait with
  | some (.launch _ slot kind a b _) =>
    match s.husk n slot, s.launchWindow n kind a b with
    | some h, some (t0, e) =>
      let t0 := match h.pip with | some p => max t0 p.anchor | none => t0
      let fin := minEnd e h.eventEnd
      let open' := match fin with | some t1 => decide (t0 < t1 ∧ (s.now : Int) < t1) | none => true
      if h.st ≠ 2 || !open' || !s.mayCommit n || (n == 3 && !s.pipClear) then s
      else if n ≠ 3 && s.apNstrHold n rx then
        if (s.radio n).heldOff then s
        else (s.setRadio n { s.radio n with heldOff := true }).bump F.MXA_ML_HOLDS_COUNT 1
      else
        let s := s.until t0.toNat
        if s.gensMatch h then
          let r := if n = 3 ∨ bad = [] then (s, h) else s.dropUnsent n slot h bad
          r.1.commit n slot r.2
        else s.undo n slot 5
    | _, _ => s
  | _ => s

/-- The window of a LAUNCH ends before commit (R94): the husk is undone with PHASE, LATE or MEDIUM. -/
def State.launchWindowEnd (s : State) (n : Nat) : State :=
  match (s.seq n).wait with
  | some (.launch _ slot kind a b ie) =>
    match s.husk n slot with
    | some h =>
      let w := s.launchWindow n kind a b
      match w, (match w with | some (_, e) => minEnd e h.eventEnd | none => some 0) with
      | some (_, _), some t1 => (s.until t1.toNat).undo n slot (endOutcome h w kind ie)
      | none, _ => s.undo n slot 2
      | _, none => s
    | none => s
  | _ => s

/-! ### The end of a frame exchange -/

/-- An MPDU was acknowledged, or needs no acknowledgement: freed (R185). -/
def State.mpduFreed (s : State) (n : Nat) (m : Mpdu) : State :=
  ((s.egressFall 4 1).moveOldest n m.sta m.tid).restDeficit m.sta

/-- An MPDU was not acknowledged (R185, R187): to the retry set, or dropped at the limit; freed when its station is no
longer associated (R148). -/
def State.mpduFailed (s : State) (n : Nat) (m : Mpdu) : State :=
  let lim := max 1 (s.get F.SQA_RETRY_LIMIT)
  let m := { m with tries := m.tries + 1 }
  if !s.stationKnown m.sta then (s.bump F.SQA_QDROP_NOASSOC 1).mpduFreed n m
  else if lim ≤ m.tries then ((s.bump F.SQA_TXDROP_RETRY 1).abandon n m).restDeficit m.sta
  else (s.toRetry n m).moveOldest n m.sta m.tid

/-- Transition delay of an EMLSR link (R201). -/
def State.emlDelay (s : State) (n st : Nat) : Nat := bits (s.linkNat n st 0x13 1) 5 3

/-- The exchange of a committed husk has ended when no outcome is awaited: its slot empties and its grants are released
(R146, R168); an EMLSR station's other links stay held for its transition delay (R210); a link removed meanwhile goes now
(R230); radio B's detector stays blanked for 20 µs (R228). -/
def State.exchangeEnd (s : State) (n slot : Nat) : State :=
  match s.husk n slot with
  | some h =>
    if h.st = 3 ∧ h.stas.all (fun k => !k.await) = true then
      let s := forEach h.mpdus (fun m s => s.mpduFreed n m) (s.setHusk n slot none)
      let eml := if n = 3 then [] else
        h.stas.filterMap (fun k => if bit (s.linkCfg n k.sta) 18 && s.emlDelay n k.sta != 0 then some (4 * k.sta + n) else none)
      let s := { s with air := { s.air with emlHold := s.air.emlHold ++ eml.filter (fun e => !s.air.emlHold.contains e) } }
      if n = 3 then s
      else
        let stas := h.stas.map (fun k => k.sta)
        let s := (s.setRadio n { s.radio n with blank := s.now + 20000 }).markAll stas
        (forEach (stas.filter (fun st => !s.linkPresent n st)) (fun st s => s.linkGone n st) s).switchOn n
    else s
  | none => s

/-- The acknowledgement outcome of station `st` of a committed husk (R154, R185): `acked` lists the TIDs and numbers
acknowledged; `ulExp` MPDUs were expected in answer to a trigger and `ulGot` acknowledged (R158).  A station that sent no CTS
to its initial control frame was sent no MPDU, so no bin learns of it (R210; DEDUCED, log 39). -/
def State.ackOutcome (s : State) (n slot st : Nat) (acked : List (Nat × Nat)) (ulExp ulGot : Nat) (noCts : Bool) : State :=
  match s.husk n slot with
  | some h =>
    match h.stas.find? (fun k => k.sta == st && k.await) with
    | some k =>
      if h.st = 3 then
        let mine := h.mpdus.filter (fun m => m.sta == st)
        let ok (m : Mpdu) : Bool := acked.contains (m.tid, m.sn)
        let h' := { h with mpdus := h.mpdus.filter (fun m => m.sta != st),
                           stas := h.stas.map (fun j => if j.sta == st then { j with await := false } else j) }
        let s := s.setHusk n slot (some h')
        let s := forEach (mine.filter ok) (fun m s => s.mpduFreed n m) s
        let s := forEach (mine.filter (fun m => !ok m)) (fun m s => s.mpduFailed n m) s
        let s := if noCts && k.icf || n == 3 then s
          else (s.binOutcome n st k.bin mine.length (mine.filter (fun m => !ok m)).length).binOutcome n st k.bin ulExp
            (ulExp - ulGot)
        s.exchangeEnd n slot
      else s
    | none => s
  | none => s

/-- An acknowledgement for station `st` arrives (R185). -/
def State.blockAckReceive (s : State) (n slot st : Nat) (acked : List (Nat × Nat)) (ulExp ulGot : Nat) : State :=
  s.ackOutcome n slot st acked ulExp ulGot false

/-- Feedback is missing, unusable, or for STEER 0 (R218). -/
def State.soundMiss (s : State) (n : Nat) : State := (s.bump (F.RF_SND_CNT_MISS n) 1).raise (164 + 32 * n)

/-- The acknowledgement of station `st` times out (R154, R185): every MPDU counts as failed; for a sounding husk its
feedback is missing (R218). -/
def State.ackTimeout (s : State) (n slot st ulExp : Nat) (noCts : Bool) : State :=
  let missing := match s.husk n slot with
    | some h => h.st == 3 && h.sounding && h.stas.any (fun k => k.sta == st && k.await)
    | none => false
  let s := s.ackOutcome n slot st [] ulExp 0 noCts
  if missing then s.soundMiss n else s

/-- A committed PPDU that solicits no response ends (R146, R185): its MPDUs are freed and its grants released. -/
def State.ppduEnd (s : State) (n slot : Nat) : State := s.exchangeEnd n slot

/-- The transition delay of an EMLSR station after an exchange on radio `n` ends (R210). -/
def State.emlsrEnd (s : State) (n st : Nat) : State :=
  { s with air := { s.air with emlHold := s.air.emlHold.filter (· != 4 * st + n) } }

end Sys2Proof.Machine
end

