-- ==== Sys2Proof/Machine/Rx.lean ====
section
/-! DEFINITION. Reception on the Wi-Fi radios: the scoreboard (R188 - R194), power save (R205), and the hand-over of
frames to the parser. -/

namespace Sys2Proof.Machine

/-- A frame reaches the parser's input with a buffer of its own (R296). -/
def State.deliver (s : State) (p : Packet) : State :=
  { s with prs := { s.prs with input := s.prs.input ++ [{ p with ref := s.prs.nextRef }], nextRef := s.prs.nextRef + 1 } }

/-! ### Scoreboard entries -/

/-- Base of the scoreboard (R188, R197). -/
def State.sbBase (s : State) : Nat := s.get F.SQA_SB_BASE_ADDR / 64 * 64
/-- The scoreboard lies inside the Granary. -/
def State.sbOk (s : State) : Bool := decide (s.sbBase + 0x300000 ≤ Config.granaryBytes)
/-- Bytes of the entry of a station and TID. -/
def State.sbNat (s : State) (st tid off k : Nat) : Nat := memNat s.gm (s.sbBase + 192 * (8 * st + tid) + off) k
/-- Write bytes of an entry. -/
def State.sbPut (s : State) (st tid off k v : Nat) : State :=
  { s with gm := memPutNat s.gm (s.sbBase + 192 * (8 * st + tid) + off) k v }
/-- Window start. -/
def State.sbWs (s : State) (st tid : Nat) : Nat := s.sbNat st tid 0x80 2 % 4096
/-- Window size, at least 1. -/
def State.sbSize (s : State) (st tid : Nat) : Nat := max 1 (min 1024 (s.sbNat st tid 0x82 2))
/-- Add to one of the entry's wrapping counters. -/
def State.sbCount (s : State) (st tid off k : Nat) : State := s.sbPut st tid off 4 (s.sbNat st tid off 4 + k)

/-- The frame with a number in an entry's places. -/
def State.rxFrame (s : State) (st tid sn : Nat) : Option RxFrame :=
  s.air.rx.find? (fun f => f.sta == st && f.tid == tid && f.sn == sn)

/-- Take a frame out of its place. -/
def State.rxDrop (s : State) (st tid sn : Nat) : State :=
  { s with air := { s.air with rx := s.air.rx.filter (fun f => !(f.sta == st && f.tid == tid && f.sn == sn)) } }

/-- TID under which a protected management frame waits for its tag; it has no place in a scoreboard entry. -/
def mgmtTid : Nat := 8

/-- Pass one frame to the parser after the replay check (R193). -/
def State.rxRelease (s : State) (f : RxFrame) : State :=
  let s := s.rxDrop f.sta f.tid f.sn
  if f.st ≠ 1 then s
  else if f.tid = mgmtTid then s.deliver f.pkt
  else if f.prot && decide (f.pn ≤ s.sbNat f.sta f.tid 0x90 6) then
    (s.sbCount f.sta f.tid 0xA4 1).bump F.SQA_RXCNT_RPLY 1
  else (if f.prot then s.sbPut f.sta f.tid 0x90 6 f.pn else s).deliver f.pkt

/-- Move the window start on by one place: the bitmap shifts. -/
def State.sbStep (s : State) (st tid : Nat) : State :=
  let w := s.sbNat st tid 0x80 2
  let s := s.sbPut st tid 0 128 (s.sbNat st tid 0 128 / 2)
  s.sbPut st tid 0x80 2 (setBits w 11 0 ((w % 4096 + 1) % 4096))

/-- Frames of an entry that wait for release, lowest number first; those the window has passed come before it. -/
def State.rxWaiting (s : State) (st tid : Nat) : List RxFrame :=
  let ws := s.sbWs st tid
  sortBy (fun f => (f.sn + 2048 - ws + 4096) % 4096) (s.air.rx.filter (fun f => f.sta == st && f.tid == tid))

/-- The window has passed this number. -/
def State.rxBehind (s : State) (f : RxFrame) : Bool := decide (2048 ≤ (f.sn + 4096 - s.sbWs f.sta f.tid) % 4096)

/-- Release in number order (R190, R193): frames the window has passed, and those at its start, which moves on with each;
one still with the cipher stops it. -/
def State.releaseInOrder (s : State) (st tid : Nat) : Nat → State
  | 0 => s
  | n + 1 =>
    match s.rxWaiting st tid with
    | [] => s
    | f :: _ =>
      if f.st = 0 then s
      else if s.rxBehind f then (s.rxRelease f).releaseInOrder st tid n
      else if f.sn = s.sbWs st tid then ((s.rxRelease f).sbStep st tid).releaseInOrder st tid n
      else s

/-- The window start moves on by `k` places; empty ones count in HOLE, and filled ones go in their order (R190). -/
def State.releaseBelow (s : State) (st tid : Nat) : Nat → State
  | 0 => s
  | n + 1 =>
    let s := if bit (s.sbNat st tid 0 128) 0 then s else s.sbCount st tid 0xA8 1
    (s.sbStep st tid).releaseBelow st tid n

/-- A hole stands at WS: its number has not been received. -/
def State.sbHole (s : State) (st tid : Nat) : Bool := !bit (s.sbNat st tid 0 128) 0

/-- HELD and HOLD_T follow the frames in their places (R188): HOLD_T is the earliest storing of one held above a hole. -/
def State.sbHeld (s : State) (st tid : Nat) : State :=
  let held := s.air.rx.filter (fun f => f.sta == st && f.tid == tid && f.st == 1)
  let t := if s.sbHole st tid then (minBy id (held.map (fun f => f.stored))).getD 0 else 0
  (s.sbPut st tid 0x84 2 held.length).sbPut st tid 0x88 8 t

/-- Finish an update of an entry: release in order, then HELD and HOLD_T. -/
def State.sbSettle (s : State) (st tid : Nat) : State := (s.releaseInOrder st tid 4096).sbHeld st tid

/-- Move the window start to `nws` (R190, R192), releasing what lies below. -/
def State.sbMove (s : State) (st tid nws : Nat) : State :=
  let d := (nws + 4096 - s.sbWs st tid) % 4096
  if 2048 ≤ d then s else s.releaseBelow st tid (min d 2048)

/-- A duplicate (R191, R194): counted; the stored copy takes the earlier stamp. -/
def State.rxDuplicate (s : State) (f : AirFrame) : State :=
  let st := f.sta.toNat
  let upd (r : RxFrame) : RxFrame :=
    if r.sta = st ∧ r.tid = f.tid.val ∧ r.sn = f.sn.toNat ∧ r.st < 2 then
      { r with pkt := { r.pkt with stamp := min r.pkt.stamp (s.stampIn f.radio.val f.stamp.toNat) } }
    else r
  let s := (s.sbCount st f.tid.val 0xA0 1).bump F.SQA_RXCNT_DUP 1
  { s with air := { s.air with rx := s.air.rx.map upd } }

/-- The packet a received MPDU becomes: data as an Ethernet frame, management as it is, with the stamp of its own first
symbol (R12, R296). -/
def State.rxPacket (s : State) (f : AirFrame) (text : List Byte) : Packet :=
  { bytes := f.head ++ text, port := 4, start := if f.mgmt then 1 else 0, srcid := f.sta.toNat,
    stamp := s.stampIn f.radio.val f.stamp.toNat, info := f.radio.val + 4 * f.tid.val }

/-- A frame whose tag has passed, or that needs none, stands in its place.  One above the window start is held in its reorder
slot: a handle, whose value the spec leaves open, is written at RO_BASE + 8 x (number mod WSIZE) (R188; the place within
RO_BASE, and that a frame at the start needs no slot, are DESIGN CHOICES, log 39).  When that write fails for good the frame
is dropped, its place counts as filled, and source 92 + 32n is raised (R198). -/
def State.rxStore (s : State) (st tid sn : Nat) (ro : Check) : State :=
  match s.rxFrame st tid sn with
  | none => s
  | some f =>
    let held := !s.rxBehind f && sn != s.sbWs st tid
    let fails := held = true ∧ (ro = .lasting ∨ s.xmDead = true)
    let upd (r : RxFrame) : RxFrame :=
      if r.sta = st ∧ r.tid = tid ∧ r.sn = sn then
        (if fails then { r with st := 2 } else { r with st := 1, stored := s.now })
      else r
    let s := { s with air := { s.air with rx := s.air.rx.map upd } }
    if fails then s.raise (92 + 32 * f.radio)
    else if held then
      { s with xm := memPutNat s.xm (s.sbNat st tid 0x98 8 + 8 * (sn % s.sbSize st tid)) 8
                 (Config.frameHandle s.prs.nextRef).toNat,
               prs := { s.prs with nextRef := s.prs.nextRef + 1 } }
    else s

/-- The decryption job of a protected frame (R192): refused at once, or queued; true when refused. -/
def State.rxDecrypt (s : State) (f : AirFrame) (tid key : Nat) : State × Bool :=
  let op := if f.gcm then 1 else 3
  let nonce := f.nonce.take 16
  match s.slotRefusal op key useAirRx with
  | some c => (s.countCode c, true)
  | none =>
    (s.queueJob { src := .rx f.radio.val f.sta.toNat tid f.sn.toNat, op := op, slot := key, tlen := f.tag.length,
                  aadLen := f.aad.length, len := f.text.length,
                  data := nonce ++ List.replicate (16 - nonce.length) 0 ++ f.aad ++ f.text ++ f.tag }, false)

/-- A new number in the window (R190): its bit sets, and the frame goes to the cipher, or to its place unprotected. -/
def State.rxAccept (s : State) (f : AirFrame) (key : Nat) (ro : Check) : State :=
  let st := f.sta.toNat
  let t := f.tid.val
  let d := (f.sn.toNat + 4096 - s.sbWs st t) % 4096
  let s := s.sbPut st t 0 128 (setBit (s.sbNat st t 0 128) d true)
  let r := if f.prot then s.rxDecrypt f t key else (s, false)
  let fr : RxFrame := { radio := f.radio.val, sta := st, tid := t, sn := f.sn.toNat, pn := f.pn.toNat, prot := f.prot,
                        pkt := s.rxPacket f f.text, st := if r.2 then 2 else 0 }
  let s := { r.1 with air := { r.1.air with rx := r.1.air.rx ++ [fr] } }
  let s := if f.prot then s else s.rxStore st t f.sn.toNat ro
  s.sbSettle st t

/-- A protected management frame reaches the parser only when its tag passes (R11). -/
def State.rxManagement (s : State) (f : AirFrame) (key : Nat) : State :=
  if !f.prot then s.deliver (s.rxPacket f f.text)
  else
    let r := s.rxDecrypt f mgmtTid key
    if r.2 then r.1
    else
      let fr : RxFrame := { radio := f.radio.val, sta := f.sta.toNat, tid := mgmtTid, sn := f.sn.toNat, prot := true,
                            pkt := s.rxPacket f f.text }
      { r.1 with air := { r.1.air with rx := r.1.air.rx ++ [fr] } }

/-- The radio may answer now (R221 - R223): enabled and not muted, with TXOFF 0 and no retuning. -/
def State.canReply (s : State) (n : Nat) : Bool :=
  s.radioOk n && !s.on (F.MX_CTL_TXOFF n) && (match (s.radio n).csw with | some c => !c.tuning | none => true)

/-- The acknowledgement an MPDU solicits, on the link it came by, with the entry as it stands (R190, R191). -/
def State.rxRespond (s : State) (f : AirFrame) : State :=
  let n := f.radio.val
  let st := f.sta.toNat
  let t := f.tid.val
  if f.ack && s.canReply n then
    s.setRadio n { s.radio n with resp := some ⟨st, t, s.sbWs st t, s.sbSize st t, s.sbNat st t 0 128⟩ }
  else s

/-- The update of R190 for an MPDU with valid FCS, and the acknowledgement it solicits. -/
def State.scoreboard (s : State) (f : AirFrame) (key : Nat) (ro : Check) : State :=
  let st := f.sta.toNat
  let t := f.tid.val
  let s := if bit (s.sbNat st t 0x80 2) 15 then s
    else (s.sbPut st t 0x80 2 (f.sn.toNat + 0x8000)).sbPut st t 0 128 0
  let size := s.sbSize st t
  let d := (f.sn.toNat + 4096 - s.sbWs st t) % 4096
  if 2048 ≤ d then (s.rxDuplicate f).rxRespond f
  else
    let s := if size ≤ d then s.sbMove st t ((f.sn.toNat + 4096 - size + 1) % 4096) else s
    let d := (f.sn.toNat + 4096 - s.sbWs st t) % 4096
    if bit (s.sbNat st t 0 128) d then (s.rxDuplicate f).rxRespond f else (s.rxAccept f key ro).rxRespond f

/-! ### Power save and reports -/

/-- AC of a TID: 0 BK, 1 BE, 2 VI, 3 VO (R205). -/
def acOf (tid : Nat) : Nat := [1, 0, 0, 1, 2, 2, 3, 3].getD tid 0

/-- PM, PS-Poll and triggers of a received frame whose exchange completes: acknowledged, or needing none (R205). -/
def State.powerSave (s : State) (f : AirFrame) : State :=
  let n := f.radio.val
  let st := f.sta.toNat
  let ps := s.linkPs n st
  if f.ack && !s.canReply n then s
  else if f.psPoll then if bit ps 0 then s.setPs n st (setBit ps 2 true) else s
  else
    let s := s.setPs n st (setBit ps 0 f.pm)
    let s := if f.pm then s.undoStation n st 3 else s
    let trig := f.qos && bit ps 0 && f.pm && bit (s.linkNat n st 0x14 2) (4 + acOf f.tid.val)
    if trig then
      let s := s.setPs n st (setBit (s.linkPs n st) 1 true)
      let s := s.setRadio n { s.radio n with spent := tabSet (fun _ => 0) (s.radio n).spent st 0 }
      if s.deliveryEmpty n st then
        s.setRadio n { s.radio n with eosp := (s.radio n).eosp.filter (· != st) ++ [st] }
      else s
    else s

/-- 20 MHz subchannels that a resource unit spans. -/
def placeWidth (l : List Nat) : Nat :=
  match l with
  | [] => 0
  | x :: xs => xs.foldl max x / 9 - xs.foldl min x / 9 + 1

/-- The users a husk's trigger solicits. -/
def Husk.solicited (h : Husk) : List UserInfo := match h.trig with | some t => t.users | none => []

/-- Operating Mode control (R183, R205): ULMUD, and DECLINED for husks whose trigger solicits the station when it disables
uplink, or its width or streams fall below what the husk assigns it. -/
def State.opMode (s : State) (n st : Nat) (om : Bool × Fin 5 × Fin 8) : State :=
  let s := s.setPs n st (setBit (s.linkPs n st) 3 om.1)
  s.undoWhere n 4 (fun h => h.solicited.any (fun u => u.sta == st
    && (om.1 || decide (2 ^ om.2.1.val < placeWidth u.place) || decide (om.2.2.val < u.nss))))

/-- A buffer report (R143, R150, R183): with BSR_UNDO, a husk whose trigger solicits only stations that report nothing on
the TIDs mapped to the link is undone with PLAN. -/
def State.bufferReport (s : State) (st tid bytes : Nat) : State :=
  let s := { s with air := { s.air with bsr := tabSet (fun _ => none) s.air.bsr (8 * st + tid) (some bytes) } }
  let s := s.restDeficit st
  forEach (List.range 3) (fun n s =>
    if s.on (F.SQ_HUSK_CFG_BSR_UNDO n) then
      s.undoWhere n 3 (fun h => h.solicited.any (fun u => u.sta == st)
        && h.solicited.all (fun u => (s.tidsOf n u.sta).all (fun t => s.bsrSaid u.sta t == some 0)))
    else s) s

/-- Radio `n` decodes a PPDU of format `fmt` (R200): DSSS and CCK on A alone, HT on A and B, VHT on B alone, and non-HT on C
for control and management frames only. -/
def ppduOk (n fmt : Nat) (data : Bool) : Bool :=
  if fmt = 0 then n == 0 else if fmt = 1 then n != 2 || !data else if fmt = 2 then n != 2 else if fmt = 3 then n == 1 else true

/-- RSSI and LASTRX of a link (R201). -/
def State.linkHeard (s : State) (n st rssi : Nat) : State :=
  (s.setPs n st (setBits (s.linkPs n st) 15 8 rssi)).linkPut n st 0x1C 4 (s.now / 1024 % 2 ^ 32)

/-- A frame with valid FCS is received (R190, R205, R296): `k` is the check of the MAC's buffer, `sb` that of the
scoreboard entry, `lk` that of the link record, `ro` that of the reorder slot it may be written to, `room` whether the
receive buffer holds the frame, and `low` whether less than RX_LO is left free. -/
def State.mpduReceive (s : State) (f : AirFrame) (k sb lk ro : Check) (room low : Bool) : State :=
  let n := f.radio.val
  let st := f.sta.toNat
  if !s.radioHears n || !ppduOk n f.fmt.val f.data then s
  else
    let s := s.until f.stamp.toNat
    let s := if low then s.rxBufLow n else s
    if k = .lasting then s.raise (64 + 32 * n)
    else if !room then (s.bump (F.MX_RXCNT_OVF n) 1).raise (66 + 32 * n)
    else
      let bad := lk = .lasting ∨ s.linkTableOk n = false
      let s := s.raiseIf (decide bad) (65 + 32 * n)
      let here := decide (¬ bad) && s.linkPresent n st
      let data := f.data && !f.mgmt && here
      if data && (sb == .lasting || !s.sbOk) then s.raise (93 + 32 * n)
      else
        let s := if here then (s.linkHeard n st f.rssi.toNat).powerSave f else s
        let s := match f.om with | some om => if here then s.opMode n st om else s | none => s
        let s := match f.bsr with | some b => if here then s.bufferReport st f.tid.val b.toNat else s | none => s
        let key := s.linkNat n st 0x10 2 % 8192
        if f.mgmt then (if f.prot && !here then s else s.rxManagement f key)
        else if data then s.scoreboard f key ro
        else s

/-- A BlockAckReq moves the window without setting a bit (R192). -/
def State.barReceive (s : State) (st tid start : Nat) : State :=
  let d := (start + 4096 - s.sbWs st tid) % 4096
  if !s.sbOk || !bit (s.sbNat st tid 0x80 2) 15 || d == 0 || decide (2048 ≤ d) then s
  else (s.sbMove st tid start).sbSettle st tid

/-- TBM reaches HOLD_T + RX_HOLD (R193): the hole at WS is skipped. -/
def State.rxHoldTimeout (s : State) (st tid : Nat) : State :=
  let t := s.sbNat st tid 0x88 8
  if !s.sbOk || t == 0 || !s.sbHole st tid then s
  else
    let s := s.until (t + 1000 * max 1 (s.get F.SQA_RX_HOLD_US))
    let ws := s.sbWs st tid
    let ds := (s.air.rx.filter (fun f => f.sta == st && f.tid == tid && !s.rxBehind f)).map (fun f => (f.sn + 4096 - ws) % 4096)
    match minBy id ds with
    | some d => (s.releaseBelow st tid d).sbSettle st tid
    | none => s.sbHeld st tid

/-- GO in `SQA.SB_UPD` with CLOSE 0 (R189): an agreement opens with its size, start and reorder slots. -/
def State.sbOpen (s : State) : State :=
  let st := s.get F.SQA_SB_UPD_STA
  let t := s.get F.SQA_SB_UPD_TID
  let size := max 1 (min 1024 (s.get F.SQA_SB_UPD_WSIZE))
  if !s.sbOk then s else
  let s := s.sbPut st t 0 128 0
  let s := (s.sbPut st t 0x80 2 (s.get F.SQA_SB_SSN_SSN + 0x8000)).sbPut st t 0x82 2 size
  s.sbPut st t 0x98 8 (s.get F.SQA_SB_RO_ADDR / 8 * 8)

/-- CLOSE (R189): every held frame is released in number order, and WSIZE returns to 1. -/
def State.sbClose (s : State) : State :=
  let st := s.get F.SQA_SB_UPD_STA
  let t := s.get F.SQA_SB_UPD_TID
  let ws := s.sbWs st t
  let dist (f : RxFrame) : Nat := (f.sn + 4096 - ws) % 4096
  let ahead := s.air.rx.filter (fun f => f.sta == st && f.tid == t && f.st != 0 && !s.rxBehind f)
  let last := (ahead.map dist).foldl (fun m d => max m (d + 1)) 0
  if s.sbOk then
    let s := s.releaseBelow st t (min last 2048)
    let s := forEach ((s.rxWaiting st t).filter (fun f => f.st != 0)) (fun f s => s.rxRelease f) s
    (s.sbPut st t 0x82 2 1).sbHeld st t
  else s

/-- The job of a received frame ends (R192, R347): a data frame stands in its place, or its place counts as filled; a
management frame whose tag passed is delivered.  `ro` is the check of the reorder slot. -/
def State.rxJobDone (s : State) (st tid sn : Nat) (plain : Option (List Byte)) (status : Nat) (ro : Check) : State :=
  match s.rxFrame st tid sn with
  | none => s
  | some f =>
    let upd (r : RxFrame) : RxFrame :=
      if r.sta = st ∧ r.tid = tid ∧ r.sn = sn then
        match plain with
        | some p =>
          let head := r.pkt.bytes.take (r.pkt.bytes.length - p.length)
          { r with st := if tid = mgmtTid then 1 else 0, pkt := { r.pkt with bytes := head ++ p, cstat := some status } }
        | none => { r with st := 2 }
      else r
    let s := { s with air := { s.air with rx := s.air.rx.map upd } }
    if tid = mgmtTid then
      match s.rxFrame st tid sn with
      | some f => s.rxRelease f
      | none => s
    else (if plain.isSome then s.rxStore st tid sn ro else s).sbSettle st tid

end Sys2Proof.Machine
end

