-- ==== Sys2Proof/Machine/Cipher.lean ====
section
/-! DEFINITION. The end of cipher jobs and what it does to their submitters (R342, R345 - R347), erasure and
zeroisation (R340, R348, R349), and the engine's own faults (R336, R350, R351, R353). -/

namespace Sys2Proof.Machine

/-- The job of an MPDU of a husk ends (R180, R182, R347): the MPDU is done under the generation copied, or the husk is
undone with KEYGEN. -/
def State.huskJobDone (s : State) (n order st tid sn code gen : Nat) : State :=
  if code ≠ 0 then s.undoWhere n 5 (fun h => h.order == order)
  else
    let upd (h : Husk) : Husk :=
      if h.order = order then
        { h with mpdus := h.mpdus.map (fun m =>
            if m.sta == st && m.tid == tid && m.sn == sn then { m with done := true, gen := gen } else m) }
      else h
    let x := s.sqa n
    s.setSqa n { x with husk0 := x.husk0.map upd, husk1 := x.husk1.map upd }

/-- A job's status word reaches its submitter (R345, R347): `out` is what an engine's job computed, `ro` the check of the
reorder slot a received frame goes to. -/
def State.jobResult (s : State) (j : Job) (code pn : Nat) (out : List Byte) (ro : Check) : State :=
  match j.src with
  | .program dest _ => s.arrive dest (statusWord code j.gen pn)
  | .rx _ st tid sn => s.rxJobDone st tid sn (if code = 0 then some out else none) (statusWord code j.gen 0) ro
  | .husk n order st tid sn => s.huskJobDone n order st tid sn code j.gen

/-- A job that a lane runs or that waits ends with a code and no output. -/
def State.jobFails (s : State) (j : Job) (code : Nat) : State := (s.countCode code).jobResult j code 0 [] .good

/-- A husk's job: its bytes are its own, and its output goes to the ciphertext area (R179). -/
def Job.ofHusk (j : Job) : Bool := match j.src with | .husk _ _ _ _ _ => true | _ => false

/-- A job writes its output to memory at DST: a program's, or a husk's. -/
def Job.stores (j : Job) : Bool := j.data.isEmpty || j.ofHusk

/-- Every job that a test accepts ends with a code (R342, R348, R353). -/
def State.endJobs (s : State) (p : Job → Bool) (code : Nat) : State :=
  let gone := s.cip.jobs.filter p
  let s := { s with cip := { s.cip with jobs := s.cip.jobs.filter (fun j => !p j) } }
  forEach gone (fun j s => s.jobFails j code) s

/-- A job's buffer lies in XM while the DRAM controller ends every access as a lasting error (R397). -/
def State.jobXmDead (s : State) (j : Job) : Bool :=
  s.xmDead && j.op != 8 && ((j.data.isEmpty && !j.srcGm) || (j.stores && decide (0 < j.dstLen) && !j.dstGm))

/-- An operation that encrypts or generates, whose failed write may leave part of its output at DST (R345). -/
def writesOut (op : Nat) : Bool := op == 0 || op == 2 || op == 4 || op == 6

/-- The job that lane `l` runs ends when it has operation `op` (R344 - R346).  `k` is the check of its buffers and of
the lane's own; `part` is how many output bytes an encrypt that failed while writing had written, and `ro` the check of the
reorder slot of a received frame. -/
def State.jobEnd (s : State) (l op : Nat) (k : Check) (part : Nat) (ro : Check) : State :=
  match s.laneJob l with
  | none => s
  | some j =>
    if j.op ≠ op then s
    else
      let src := s.jobSource j
      let out := jobOutput j.op j.tlen j.aadLen j.len (keyBytes j.type j.key) src
      let failed := k = .lasting ∨ s.jobXmDead j = true
      let s := s.dropLaneJob l
      if failed then
        let s := match out with
          | some o => if writesOut j.op && j.stores then s.bufPut j.dstGm j.dstA (o.take (min part (o.length - 1))) else s
          | none => s
        (s.jobFails j 6).raise 451
      else match out with
        | none => s.jobFails j 1
        | some o =>
          let s := if j.stores && o != [] then s.bufPut j.dstGm j.dstA o else s
          s.jobResult j 0 0 o ro

/-- A PNRSV job ends (R343): the lowest number of its block, or PN_EXHAUSTED. -/
def State.pnrsvEnd (s : State) (l : Nat) : State :=
  match s.laneJob l with
  | none => s
  | some j =>
    if j.op ≠ 8 then s
    else
      let s := s.dropLaneJob l
      match s.pnReserve j.slot j.len with
      | some (pn, s) => s.jobResult j 0 pn [] .good
      | none => s.jobFails j 8

/-! ### Erasure -/

/-- Every husk still ASSEMBLING that uses an erased key slot is undone with KEYGEN at once (R182, R348). -/
def State.undoKeyed (s : State) (p : Nat → Bool) : State :=
  forEach (List.range 4) (fun n s =>
    s.undoWhere n 5 (fun h => h.st == 1
      && ((match h.pip with | some t => p t.slot | none => false)
        || h.mpdus.any (fun m => m.isNew && (match m.slot with | some k => p k | none => false))))) s

/-- A slot is erased (R340, R342): every job that names it ends with KEY_ERASED; husks that use it are undone (R182), and
retries under it are lost (R195). -/
def State.eraseSlot (s : State) (slot : Nat) : State :=
  (((s.clearSlot slot).endJobs (fun j => j.slot == slot) 2).undoKeyed (· == slot)).killCt (· == slot)

/-- An erase command completes. -/
def State.keyEraseComplete (s : State) : State :=
  match s.cip.cmds with
  | c :: _ => if c.erase then ((s.eraseSlot c.slot).clearStage c.who).keyCmdEnd c else s
  | [] => s

/-- CIPHER_JOB_START: `k` is the check of the key-store words the lane copies; a lasting error erases the slot and
raises source 450 (R351). -/
def State.cipherJobStart (s : State) (l : Nat) (k : Check) : State :=
  let t := s.jobStart l
  if k = .lasting ∧ (s.laneJob l).isNone then
    match t.laneJob l with
    | some j => (s.eraseSlot j.slot).raise 450
    | none => t
  else t

/-! ### Zeroisation -/

/-- The four steps of R348 for a cause: a source number, or 0x3FF for ZERO. -/
def State.zeroise (s : State) (cause : Nat) : State :=
  let s := if cause = 0x3FF then s else
    { s with cip := { s.cip with alarm := s.cip.alarm.filter (· != cause) ++ [cause] } }.put F.CIP_CTL_ALARM 1
  let s := s.endJobs (fun _ => true) 7
  let s := (s.undoKeyed (fun _ => true)).killCt (fun _ => true)
  let keys := forEach (s.cip.keys.map (fun e => e.1)) (fun i t =>
    tabMod (fun _ => {}) t i (fun k => { k with loaded := false, pn := 0, key := 0 })) s.cip.keys
  let cmds := s.cip.cmds
  let s := { s with cip := { s.cip with keys := keys, genBase := (s.cip.genBase + 1) % 16, cmds := [], lanes := [] } }
  let s := forEach cmds (fun c s =>
    ((s.clearStage c.who).put (F.CIP_KEY_CMD_GO c.who) 0).put (F.CIP_KEY_CMD_ERR c.who) 1) s
  let s := s.addWrap F.CIP_RNG_STAT_RESEEDS 1
  (s.put F.CIP_ZERO_STAT_SRC cause).addWrap F.CIP_ZERO_STAT_COUNT 1

/-- A source that zeroised has been acknowledged (R349): ALARM ends with the last of them. -/
def State.alarmAck (s : State) (src : Nat) : State :=
  if s.cip.alarm.contains src then
    let l := s.cip.alarm.filter (· != src)
    let s := { s with cip := { s.cip with alarm := l } }
    if l = [] then s.put F.CIP_CTL_ALARM 0 else s
  else s

/-- An entropy health test fails (R336): source 448, whose class zeroises. -/
def State.rngHealthFail (s : State) : State := (s.put F.CIP_RNG_STAT_OK 0).raise 448

/-- The parity of a round of lane `l` mismatches (R350). -/
def State.laneParityFault (s : State) (l : Nat) : State := s.raiseIf (s.laneJob l).isSome 449

/-- A class-U source of CIP enters L2 (R353): every job ends with MEMERR. -/
def State.cipHalt (s : State) : State := s.endJobs (fun _ => true) 6

end Sys2Proof.Machine
end

