-- ==== Sys2Proof/Machine/LrCode.lean ====
section
/-! DEFINITION. The LR code frame (R278 - R280, R282): its fields, its CRC, the LDPC code and the PAM labels, over
lists of bits in order of transmission. -/

namespace Sys2Proof.Machine

/-- A CRC that takes message bits in order into the top of a register of `w` bits (R278, R282). -/
def crcMsb (w poly : Nat) : Nat → List Bool → Nat
  | c, [] => c
  | c, b :: bs =>
    let top := (bit c (w - 1)) != b
    let c := c * 2 % 2 ^ w
    crcMsb w poly (if top then Nat.xor c poly else c) bs

/-- CRC-32 of bits 0 to 1,631 of a code frame (R278). -/
def lrCrc32 (bs : List Bool) : Nat := Nat.xor (crcMsb 32 0x04C11DB7 0xFFFFFFFF bs) 0xFFFFFFFF

/-- CRC-16 of an OAM word or an INFO block over bits sent lowest first (R282, R284). -/
def lrCrc16 (bs : List Bool) : Nat := crcMsb 16 0x1021 0xFFFF bs

/-- The low `n` bits of a number, bit 0 first. -/
def bitList (v n : Nat) : List Bool := (List.range n).map (bit v)

/-- A code frame's CRC field: CRC bit 31 is sent first (R278). -/
def crcField (f : List Bool) : Nat := ((f.drop 1632).take 32).foldl (fun c b => 2 * c + b2n b) 0

/-- The CRC of a decoded code frame passes (R278, R281). -/
def frameOk (f : List Bool) : Bool := lrCrc32 (f.take 1632) == crcField f

/-- The superframe marker, bit 1,625 (R278). -/
def frameMarker (f : List Bool) : Bool := f.getD 1625 false

/-- The six OAM bits of a code frame (R278). -/
def frameOam (f : List Bool) : List Bool := (f.drop 1626).take 6

/-- Circulant shift of block (r, c), c at most 12 (R279). -/
def ldpcShift (r c : Nat) : Nat := (7 * (r + 1) * (2 * c + 1) + 5 * r) % 128

/-- Exclusive or of two bit lists. -/
def xorBits (a b : List Bool) : List Bool := List.zipWith (fun x y => x != y) a b

/-- A 128-bit block times a circulant cycled by `s`: row `i` takes the bit at (i + s) mod 128. -/
def cycled (s : Nat) (b : List Bool) : List Bool := b.drop (s % 128) ++ b.take (s % 128)

/-- Block `c` of a bit list. -/
def block128 (v : List Bool) (c : Nat) : List Bool := (v.drop (128 * c)).take 128

/-- s(r) of R279: the sum of the information blocks in block row `r`. -/
def ldpcSum (v : List Bool) (r : Nat) : List Bool :=
  (List.range 13).foldl (fun a c => xorBits a (cycled (ldpcShift r c) (block128 v c))) (List.replicate 128 false)

/-- Parity block `j` (R279): p(0) = s(0), p(j) = s(j) xor p(j - 1). -/
def ldpcParity (v : List Bool) : Nat → List Bool
  | 0 => ldpcSum v 0
  | j + 1 => xorBits (ldpcSum v (j + 1)) (ldpcParity v j)

/-- The codeword: the information bits followed by 896 parity bits (R279). -/
def ldpcEncode (v : List Bool) : List Bool := v ++ (List.range 7).flatMap (ldpcParity v)

/-- Block row `r` of H times a codeword (R279). -/
def ldpcCheck (w : List Bool) (r : Nat) : List Bool :=
  let s := xorBits (ldpcSum w r) (block128 w (13 + r))
  if r = 0 then s else xorBits s (block128 w (13 + (r - 1)))

/-- The number whose Gray code is `g` (of at most 4 bits, R280). -/
def grayInv (g : Nat) : Nat := Nat.xor g (Nat.xor (g / 2) (Nat.xor (g / 4) (g / 8)))

/-- PAM level of a label of `k` bits, its first bit most significant (R280). -/
def pamLevel (k : Nat) (label : List Bool) : Int :=
  2 * (grayInv (label.foldl (fun c b => 2 * c + b2n b) 0) : Int) - (2 ^ k - 1)

/-- The levels of a codeword in label order: label `j` goes on pair j mod 4 at symbol time j / 4 (R280). -/
def lrLevels (k : Nat) (w : List Bool) : List Int :=
  (List.range (w.length / k)).map (fun j => pamLevel k ((w.drop (k * j)).take k))

/-! ### Blocks of 65 bits and the scrambler (R278) -/

/-- One bit through the scrambler x^58 + x^39 + 1: bit k of the state is the line bit sent k + 1 bits ago. -/
def scrambleBit (x : Nat) (b : Bool) : Bool × Nat :=
  let y := (b != bit x 38) != bit x 57
  (y, (x * 2 + b2n y) % 2 ^ 58)

/-- One line bit through the descrambler. -/
def descrambleBit (x : Nat) (y : Bool) : Bool × Nat := ((y != bit x 38) != bit x 57, (x * 2 + b2n y) % 2 ^ 58)

/-- Bits through one of them, and the state after. -/
def throughScrambler (f : Nat → Bool → Bool × Nat) : Nat → List Bool → List Bool × Nat
  | x, [] => ([], x)
  | x, b :: bs =>
    let r := f x b
    let t := throughScrambler f r.2 bs
    (r.1 :: t.1, t.2)

/-- Blocks whose 64 payload bits go through one of them; header bits do not. -/
def blocksThrough (f : Nat → Bool → Bool × Nat) : Nat → List (List Bool) → List (List Bool) × Nat
  | x, [] => ([], x)
  | x, b :: bs =>
    let r := throughScrambler f x (b.drop 1)
    let t := blocksThrough f r.2 bs
    ((b.take 1 ++ r.1) :: t.1, t.2)

/-- The 25 blocks of a code frame. -/
def frameBlocks (f : List Bool) : List (List Bool) := (List.range 25).map (fun i => (f.drop (65 * i)).take 65)

/-- A control block of Clause 49: header 1, block type, and what follows, low bit first (PRESUMED, log 18). -/
def controlBlock (type rest : Nat) : List Bool := true :: (bitList type 8 ++ bitList rest 56)

/-- The error control block: type 0x1E with eight codes 0x1E. -/
def errorBlock : List Bool :=
  controlBlock 0x1E ((List.range 8).foldl (fun v i => v + 0x1E * 2 ^ (7 * i)) 0)

/-- The idle control block. -/
def idleBlock : List Bool := controlBlock 0x1E 0

/-- A data block of eight bytes. -/
def dataBlock (l : List Nat) : List Bool := false :: l.flatMap (fun b => bitList b 8)

/-- The block that ends a frame with `k` more bytes (Clause 49 types T0 to T7). -/
def endBlock (l : List Nat) : List Bool :=
  let type := [0x87, 0x99, 0xAA, 0xB4, 0xCC, 0xD2, 0xE1, 0xFF].getD l.length 0x87
  (true :: (bitList type 8 ++ l.flatMap (fun b => bitList b 8))) ++ List.replicate (56 - 8 * l.length) false

/-- Whole data blocks and the end block of the bytes after a frame's delimiter; `n` bounds the walk. -/
def bodyBlocks : Nat → List Nat → List (List Bool)
  | 0, l => [endBlock (l.take 7)]
  | n + 1, l => if l.length < 8 then [endBlock l] else dataBlock (l.take 8) :: bodyBlocks n (l.drop 8)

/-- The frame check sequence of IEEE 802.3 over bytes sent low bit first, as bytes. -/
def etherFcs (l : List Nat) : List Nat :=
  let c := lrCrc32 (l.flatMap (fun b => bitList b 8))
  (List.range 4).map (fun i => (List.range 8).foldl (fun v j => v + b2n (bit c (31 - 8 * i - j)) * 2 ^ j) 0)

/-- A frame of bytes without its FCS as blocks: the start block with the preamble, data, FCS and end. -/
def etherBlocks (l : List Nat) : List (List Bool) :=
  let all := l ++ etherFcs l
  controlBlock 0x78 (0x55 * 0x10101010101 + 0xD5 * 2 ^ 48) :: bodyBlocks all.length all

/-- Groups of 25 blocks, the last one filled with idle; `n` bounds their number. -/
def blockGroups : Nat → List (List Bool) → List (List (List Bool))
  | 0, _ => []
  | n + 1, l =>
    if l.isEmpty then []
    else (l.take 25 ++ List.replicate (25 - (l.take 25).length) idleBlock) :: blockGroups n (l.drop 25)

/-- The 1,664 information bits of a code frame (R278): blocks already scrambled, the superframe marker and six OAM bits, and
the CRC, bit 31 first. -/
def infoBits (blocks : List (List Bool)) (first : Bool) (oam : List Bool) : List Bool :=
  let l := blocks.flatten ++ first :: oam
  l ++ (bitList (lrCrc32 l) 32).reverse

/-- An OAM word (R282): MSG and the worst margin, with its CRC. -/
def oamWord (msg margin : Nat) : List Bool :=
  let l := bitList (msg + margin % 256 * 256) 32
  l ++ bitList (lrCrc16 l) 16

/-- An INFO block of 64 content bits as its 96 symbols (R284): delimiter, content and CRC, each low bit first. -/
def infoBlock (v : Nat) : List Bool := bitList 0xC3A5 16 ++ bitList v 64 ++ bitList (lrCrc16 (bitList v 64)) 16

/-- Code frames from number `k` of the superframe on: the codewords, and the scrambler after them. -/
def codeFrames (oam : List Bool) : Nat → Nat → List (List (List Bool)) → List (List Bool) × Nat
  | _, x, [] => ([], x)
  | k, x, g :: gs =>
    let r := blocksThrough scrambleBit x g
    let t := codeFrames oam ((k + 1) % 8) r.2 gs
    (ldpcEncode (infoBits r.1 (k == 0) ((oam.drop (6 * k)).take 6)) :: t.1, t.2)

/-- What a receiver makes of 2,560 received bits (R279): the information bits of a codeword, or else what its decoder
finds. -/
def lrDecoded (w dec : List Bool) : List Bool :=
  if (List.range 7).all (fun r => (ldpcCheck w r).all (fun b => !b)) then w.take 1664 else dec

end Sys2Proof.Machine
end

