-- ==== Sys2Proof/Machine/BeaconFrame.lean ====
section
/-! DEFINITION. The bytes of a Wi-Fi beacon (R207, R214): the template with its TIM element, the Channel Switch
Announcement, the Timestamp and the Management MIC.  Element layouts are PRESUMED from IEEE 802.11 (log 40). -/

namespace Sys2Proof.Machine

/-- The virtual bitmap's byte `k` for a set of AIDs. -/
def timByte (aids : List Nat) (k : Nat) : Byte := BitVec.ofNat 8 (maskOf ((aids.filter (fun a => a / 8 == k)).map (fun a => a % 8)))

/-- The smallest partial virtual bitmap (R207): its even offset and its bytes, one byte of 0 when no bit is set. -/
def partialBitmap (aids : List Nat) : Nat × List Byte :=
  match aids with
  | [] => (0, [0])
  | a :: l =>
    let lo := l.foldl min a / 8 / 2 * 2
    let hi := l.foldl max a / 8
    (lo, (span lo (hi + 1)).map (timByte aids))

/-- The TIM element: DTIM count and period, the group traffic bit with the offset, and the bitmap. -/
def timElement (count period : Nat) (group : Bool) (aids : List Nat) : List Byte :=
  let p := partialBitmap aids
  [5, BitVec.ofNat 8 (3 + p.2.length), BitVec.ofNat 8 count, BitVec.ofNat 8 period, BitVec.ofNat 8 (b2n group + p.1)] ++ p.2

/-- The Channel Switch Announcement element: mode, new channel and count. -/
def csaElement (quiet : Bool) (ch count : Nat) : List Byte :=
  [37, 3, BitVec.ofNat 8 (b2n quiet), BitVec.ofNat 8 ch, BitVec.ofNat 8 count]

/-- The elements of a beacon body with its TIM placeholder replaced; `n` bounds the walk. -/
def replaceTim (tim : List Byte) : Nat → List Byte → List Byte
  | 0, l => l
  | n + 1, l =>
    match l with
    | id :: len :: rest =>
      if id = 5 then tim ++ rest.drop len.toNat
      else id :: len :: rest.take len.toNat ++ replaceTim tim n (rest.drop len.toNat)
    | _ => l

/-- Bytes of a beacon before its elements: the header, Timestamp, interval and capabilities. -/
def beaconFixed : Nat := 36

/-- A beacon frame from its template with a Timestamp. -/
def beaconBody (tpl tim csa : List Byte) (tsf : Nat) : List Byte :=
  tpl.take 24 ++ natLe tsf 8 ++ (tpl.drop 32).take 4 ++ replaceTim tim tpl.length (tpl.drop beaconFixed) ++ csa

/-- The Management MIC element under a 128-bit key, BIP-CMAC-128, or a 256-bit one, BIP-GMAC-256: key ID 6, the packet
number, and the MIC over the frame with its own Timestamp and MIC taken as 0. -/
def mmeElement (type key pn : Nat) (masked : List Byte) : List Byte :=
  let n := if type = 0 then 8 else 16
  let head : List Byte := [76, BitVec.ofNat 8 (8 + n), 6, 0] ++ natLe pn 6
  let msg := masked.take 2 ++ (masked.drop 4).take 18 ++ masked.drop 24 ++ head ++ List.replicate n 0
  let k := keyBytes type key
  let nonce := (masked.drop 10).take 6 ++ (natLe pn 6).reverse
  head ++ byteList ((if type = 0 then cmac k (nums msg) else gcmTag k (nums nonce) (nums msg) []).take n)

end Sys2Proof.Machine
end

