-- ==== Sys2Proof/Machine/Mac.lean ====
section
/-! DEFINITION. The three Wi-Fi MACs and radios (chapter 07): link records, beacons, sounding, channels and channel
switches, Backhaul and the radar detector. -/

namespace Sys2Proof.Machine

/-! ### Link records (R201 - R203) -/

/-- A staged word of a link record. -/
def State.linkStage (s : State) (n k : Nat) : Nat := s.get (F.MX_LINK_STAGE_WORD n k)

/-- The refusals of R202. -/
def State.linkRefused (s : State) (n : Nat) : Bool :=
  let st := s.get (F.MX_LINK_UPD_STA n)
  let cfg := s.linkStage n 0
  let b := bits cfg 6 3
  let present := bit cfg 0
  let grp := bit cfg 1
  let parent := bit cfg 2
  (present && !s.on (F.MX_BSS_CFG_EN n b))
  || (grp && (List.range 2048).any (fun o => o != st && s.linkPresent n o && s.linkGrp n o && s.linkBss n o == b))
  || (parent && (n != s.get F.MXA_BH_CFG_RADIO || st != s.get F.MXA_BH_CFG_STA))
  || (grp && parent)

/-- A committed husk of radio `n` holds the station. -/
def State.onAir (s : State) (n st : Nat) : Bool :=
  ((s.sqa n).husk0.toList ++ (s.sqa n).husk1.toList).any (fun h => h.st == 3 && h.stas.any (fun k => k.sta == st))

/-- A station associates (R189): each TID's scoreboard entry opens with an empty bitmap, WSIZE 1 and WS still to be taken
from the first frame; the rest of the entry stays as it is (DESIGN CHOICE, log 39). -/
def State.sbAssociate (s : State) (st : Nat) : State :=
  if s.sbOk then
    forEach (List.range 8) (fun t s => ((s.sbPut st t 0 128 0).sbPut st t 0x80 2 0).sbPut st t 0x82 2 1) s
  else s

/-- GO in `MXn.LINK_UPD` (R202): the staged record but for PS and LASTRX.  A station's first link associates it (R189,
R203); a link removed while a committed husk serves it goes at the end of the exchange (R230). -/
def State.linkUpdate (s : State) (n : Nat) : State :=
  let st := s.get (F.MX_LINK_UPD_STA n)
  let s := s.raiseIf (!s.linkTableOk n) (65 + 32 * n)
  if s.linkRefused n then s.put (F.MX_LINK_UPD_ERR n) 1
  else
    let was := s.linkPresent n st
    let known := s.associated st
    let s := s.put (F.MX_LINK_UPD_ERR n) 0
    let s := forEach (List.range 6) (fun k s => s.linkPut n st (4 * k) 4 (s.linkStage n k)) s
    let s := if !known && s.associated st then s.sbAssociate st else s
    if was && !s.linkPresent n st && !s.onAir n st then s.linkGone n st else s

/-! ### Beacons (R97, R211 - R216) -/

/-- Beacon interval in µs (R211). -/
def State.bssInterval (s : State) (n b : Nat) : Nat := max 1 (s.get (F.MX_BSS_CFG_BI n b)) * 1024

/-- The next target beacon time of `b` in TSF µs that has not been taken (R211). -/
def State.nextTbtt (s : State) (n b : Nat) : Nat :=
  let p := s.bssInterval n b
  let from' := max (s.tsf n) (tabGet (fun _ => 0) (s.radio n).tbtt b)
  from' + (s.get (F.MX_BSS_TBTT_OFS n b) % p + p - from' % p) % p

/-- Length of a beacon window in µs (R212). -/
def State.beaconLate (s : State) (n b : Nat) : Nat := max 1 (s.get (F.MX_BSS_TBTT_LATE n b)) * 256

/-- A beacon failure (R213): counted, and starvation at three in a row. -/
def State.beaconFail (s : State) (n b : Nat) : State :=
  let s := (s.bump (F.MX_BCN_RUN_RUN n b) 1).bump (F.MX_BCN_RUN_FAILS n b) 1
  if 3 ≤ s.get (F.MX_BCN_RUN_RUN n b) && !s.fbit (F.MX_BCN_STAT_STARVED n) b then
    (s.putBit (F.MX_BCN_STAT_STARVED n) b true).raise (33 + 8 * n)
  else s

/-- Take the arming of `b` away. -/
def State.disarm (s : State) (n b : Nat) : State :=
  s.setRadio n { s.radio n with armed := (s.radio n).armed.filter (fun a => a.b != b) }

/-- Close the beacon window of `b`. -/
def State.closeWindow (s : State) (n b : Nat) : State :=
  s.setRadio n { s.radio n with bwin := (s.radio n).bwin.filter (fun w => w.1 != b) }

/-- A beacon that is not sent burns its packet number (R176, R214). -/
def State.burnArm (s : State) (n b : Nat) : State :=
  match (s.radio n).armed.find? (fun a => a.b == b) with
  | some a => (if a.slot.isSome && a.gen != 16 then s.bump (F.SQ_PN_BURN_COUNT n) 1 else s).disarm n b
  | none => s

/-- Arming a beacon (R97, R214): the template as it stands, and the packet number, key and generation of a protected one.  A
MIC that the engine refuses leaves a generation that no slot shows, so the check at commit fails. -/
def State.armBeacon (s : State) (n b : Nat) : State :=
  let slot := s.get (F.MX_BCN_TPL_BKEY n b)
  let tpl := memBytes s.xm (s.get (F.MX_BCN_TPL_ADDR n b) / 64 * 64) (s.get (F.MX_BCN_TPL_LEN n b))
  let r : State × Arm :=
    if !s.on (F.MX_BCN_TPL_BPROT n b) then (s, { b := b, tpl := tpl })
    else match s.slotRefusal 6 slot useBeacon with
      | some c => (s.countCode c, { b := b, slot := some slot, gen := 16, tpl := tpl })
      | none => match s.pnReserve slot 1 with
        | some (pn, s) => (s, { b := b, slot := some slot, gen := s.keyGen slot, pn := pn, tpl := tpl,
                                type := (s.keySlot slot).type, key := (s.keySlot slot).key })
        | none => (s, { b := b, slot := some slot, gen := 16, tpl := tpl })
  r.1.setRadio n { r.1.radio n with armed := (r.1.radio n).armed ++ [r.2] }

/-- The code BEACON returns on a Wi-Fi sequencer, and the state it leaves (R97, R215).  R97 names only indices 0 to 15 and
gives a larger one no result: it is answered as a BSSID that is not enabled (DESIGN CHOICE, log 39). -/
def State.beaconArm (s : State) (n b : Nat) : Nat × State :=
  if 15 < b || !s.bssBeacons n b then (2, s)
  else if (s.radio n).armed.any (fun a => a.b == b) then (1, s)
  else (0, s.armBeacon n b)

/-- The count of a channel switch goes down at each target beacon time of BSSID 0 but the first, whose beacon announces COUNT
(R221; DEDUCED, log 11): the switch at 0. -/
def State.switchCount (s : State) (n : Nat) : State :=
  match (s.radio n).csw with
  | some c =>
    if c.due then s
    else if !c.began then s.setRadio n { s.radio n with csw := some { c with began := true } }
    else
      let s := s.setRadio n { s.radio n with csw := some { c with left := c.left - 1 } }
      if c.left ≤ 1 then s.switchNow n else s
  | none => s

/-- The target beacon time at which radio `n` switches channel sends no beacon (R213, R221). -/
def State.switching (s : State) (n : Nat) : Bool := match (s.radio n).csw with | some c => c.due | none => false

/-- A target beacon time of BSSID `b` (R206, R211 - R213, R221): it comes whether or not the radio can send, as long as the
MAC has power (R97, R213). -/
def State.wifiTbtt (s : State) (n b : Nat) : State :=
  if !s.domOn 11 || (0 < b && s.on (F.MX_BSS_CFG_NONTX n b)) then s
  else
    let t := s.nextTbtt n b
    let s := s.until (s.tsfToTbm n t).toNat
    let open' := (s.radio n).bwin.any (fun w => w.1 == b)
    let s := if open' then ((s.closeWindow n b).burnArm n b).beaconFail n b else s
    let d := tabGet (fun _ => 0) (s.radio n).dtim b
    let d' := if d = 0 then max 1 (s.get (F.MX_BSS_CFG_DTIM n b)) - 1 else d - 1
    let x := s.radio n
    let s := s.setRadio n { x with tbtt := tabSet (fun _ => 0) x.tbtt b (t + 1),
                                   dtim := tabSet (fun _ => 0) x.dtim b d',
                                   grpOn := x.grpOn.filter (· != b) }
    let s := if b = 0 then s.switchCount n else s
    if s.switching n || !s.bssBeacons n b then s
    else if (s.radio n).armed.any (fun a => a.b == b) then
      s.setRadio n { s.radio n with bwin := (s.radio n).bwin ++ [(b, t + s.beaconLate n b)] }
    else s.beaconFail n b

/-- AIDs whose bit is set in the partial virtual bitmap of BSSID `b` (R207). -/
def State.timAids (s : State) (n b : Nat) : List Nat :=
  let mine := (List.range 2048).filter (fun st =>
    s.linkPresent n st && !s.linkGrp n st && s.linkBss n st == b && !(s.queued 4 st).isEmpty
      && [0, 1, 2].all (fun m => !s.linkPresent m st || s.linkDoze m st))
  dedup (sortBy id (mine.map (fun st => bits (s.linkCfg n st) 17 7))) []

/-- BSSID `b`'s group endpoint has frames queued. -/
def State.groupWaits (s : State) (n b : Nat) : Bool :=
  (List.range 2048).any (fun st => s.linkPresent n st && s.linkGrp n st && s.linkBss n st == b && !(s.queued 4 st).isEmpty)

/-- TSF offset of a partner link in 2 µs units, truncated toward zero (R214). -/
def State.tsfOffset (s : State) (n m : Nat) : Int := (signed 64 (s.tsf m + 2 ^ 64 - s.tsf n)).tdiv 2

/-- The fields the MAC fills into a beacon at commit (R207, R214, R221), and the frame that carries them. -/
def State.fillBeacon (s : State) (n : Nat) (a : Arm) : Beacon :=
  let d := tabGet (fun _ => 0) (s.radio n).dtim a.b
  let tsf := (s.tsf n + Config.stampDelay n) % 2 ^ 64
  let group := d == 0 && s.groupWaits n a.b
  let aids := s.timAids n a.b
  let tim := timElement d (max 1 (s.get (F.MX_BSS_CFG_DTIM n a.b))) group aids
  let csa := match (s.radio n).csw with | some c => csaElement c.quiet c.prim c.left | none => []
  let mme := if a.slot.isSome then mmeElement a.type a.key a.pn (beaconBody a.tpl tim csa 0) else []
  { b := a.b, tsf := tsf, dtim := d, group := group, aids := aids,
    csa := (s.radio n).csw.map (fun c => (c.left, c.quiet)),
    offsets := ([0, 1, 2].filter (· != n)).map (s.tsfOffset n),
    pn := a.slot.map (fun _ => a.pn), frame := beaconBody a.tpl tim csa tsf ++ mme }

/-- Nothing of sequencer `n` is sent by itself while it is halted or reloads (R47, R55, R100), and no beacon while a frame
exchange runs (R212). -/
def State.beaconHeld (s : State) (n : Nat) : Bool :=
  s.on (F.SQ_CTL_HALTED n)
  || ((s.sqa n).husk0.toList ++ (s.sqa n).husk1.toList).any (fun h => h.st == 3)

/-- An armed beacon wins the medium (R212 - R214): lower BSSIDs of the same target beacon time go first, and the key
generation is checked. -/
def State.wifiBeaconCommit (s : State) (n b : Nat) : State :=
  let x := s.radio n
  match x.bwin.find? (fun w => w.1 == b), x.armed.find? (fun a => a.b == b) with
  | some w, some a =>
    let start (v : Nat × Nat) : Nat := v.2 - s.beaconLate n v.1
    let behind := x.bwin.any (fun v => decide (v.1 < b) && start v == start w)
    let busy := [x.csw].any (fun c => match c with | some c => c.due | none => false)
    if behind || busy || s.beaconHeld n || !s.radioOk n || s.on (F.MX_CTL_TXOFF n) || decide (w.2 ≤ s.tsf n) then s
    else
      let good := match a.slot with | some k => s.keyGen k == a.gen | none => true
      if !good then ((s.closeWindow n b).burnArm n b).beaconFail n b
      else
        let dtim := tabGet (fun _ => 0) x.dtim b == 0
        let on := dtim && s.groupWaits n b
        let bc := s.fillBeacon n a
        let s := (s.closeWindow n b).disarm n b
        let s := (s.put (F.MX_BCN_RUN_RUN n b) 0).putBit (F.MX_BCN_STAT_STARVED n) b false
        let y := s.radio n
        s.setRadio n { y with beacon := some bc, grpOn := if on then y.grpOn.filter (· != b) ++ [b] else y.grpOn }
  | _, _ => s

/-- A beacon window ends unsent (R212, R213). -/
def State.beaconWindowEnd (s : State) (n b : Nat) : State :=
  match (s.radio n).bwin.find? (fun w => w.1 == b) with
  | some w =>
    let s := s.until (s.tsfToTbm n w.2).toNat
    ((s.closeWindow n b).burnArm n b).beaconFail n b
  | none => s

/-- The MAC sends its own QoS Null with EOSP to a station it owes one (R205). -/
def State.qosNullEosp (s : State) (n st : Nat) : State :=
  if (s.radio n).eosp.contains st && s.mayCommit n then
    (s.setRadio n { s.radio n with eosp := (s.radio n).eosp.filter (· != st) }).setPs n st (setBit (s.linkPs n st) 1 false)
  else s

/-- A PPDU or MPDU fails its FCS (R231). -/
def State.fcsFail (s : State) (n : Nat) : State := if s.radioHears n then s.bump (F.MX_RXCNT_FCSERR n) 1 else s

/-! ### Sounding (R217, R218) -/

/-- The slot of a committed sounding husk that awaits station `st`. -/
def State.soundingSlot (s : State) (n st : Nat) : Option (Nat × HuskSta) :=
  let look (k : Nat) : Option (Nat × HuskSta) :=
    match s.husk n k with
    | some h => if h.st == 3 && h.sounding then (h.stas.find? (fun j => j.sta == st && j.await)).map (fun j => (k, j)) else none
    | none => none
  match look 0 with
  | some r => some r
  | none => look 1

/-- Feedback of a station arrives (R218): `pre` is its precoding, none when it cannot be decoded. -/
def State.soundingFeedback (s : State) (n st : Nat) (pre : Option (List Byte)) : State :=
  match s.soundingSlot n st with
  | none => s
  | some (slot, j) =>
    let e := s.linkNat n st 0x16 2 % 4096
    let mu := s.on (F.RF_SND_CFG_MU n)
    let s := match pre with
      | some p =>
        if e = 0 then s.soundMiss n
        else
          let x := s.radio n
          let g := if mu then s.get (F.RF_SND_CFG_GROUP n) else 0
          let s := s.setRadio n { x with steer := tabSet (fun _ => {}) x.steer e ⟨g, s.now, p⟩ }
          let s := if s.binStoreOk then s.setBin st n j.bin (setBits (s.bin st n j.bin) 27 16 e) else s
          s.bump (F.RF_SND_CNT_OK n) 1
      | none => s.soundMiss n
    s.ackOutcome n slot st [] 0 0 false

/-- GO in `RFn.STEER_COPY` (R218): one entry to another; entry 0 as either does nothing. -/
def State.steerCopy (s : State) (n : Nat) : State :=
  let a := s.get (F.RF_STEER_COPY_SRC n)
  let b := s.get (F.RF_STEER_COPY_DST n)
  if a = 0 ∨ b = 0 then s
  else
    let x := s.radio n
    s.setRadio n { x with steer := tabSet (fun _ => {}) x.steer b (tabGet (fun _ => {}) x.steer a) }

/-! ### Channels (R220, R221) -/

/-- A primary 20 MHz channel number of the IEEE 802.11 channel sets that lies in the radio's band (R199).  The numbers
are PRESUMED from IEEE 802.11 (log 10). -/
def primaryInBand (n ch : Nat) : Bool :=
  if n = 0 then decide (1 ≤ ch ∧ ch ≤ 13)
  else if n = 1 then
    decide ((36 ≤ ch ∧ ch ≤ 64 ∨ 100 ≤ ch ∧ ch ≤ 144) ∧ ch % 4 = 0 ∨ 149 ≤ ch ∧ ch ≤ 177 ∧ ch % 4 = 1)
  else decide (ch ≤ 233 ∧ ch % 4 = 1 ∨ ch = 2)

/-- Place of the primary among the 20 MHz subchannels of its channel, lowest first (log 10). -/
def primaryIndex (n ch bw : Nat) (second : Bool) : Nat :=
  let k := if n = 1 then (if ch < 100 then (ch - 36) / 4 else if ch < 149 then (ch - 100) / 4 else (ch - 149) / 4)
    else if second && bw == 4 then (ch + 31) / 4 else (ch - 1) / 4
  if n = 0 then 0 else k % subchannels bw

/-- Widest width code of a radio. -/
def widest (n : Nat) : Nat := if n = 0 then 1 else if n = 1 then 3 else 4

/-- Whole aligned groups of `g` subchannels punctured exactly (`m` as a list). -/
def oneGroup (w g m : Nat) : Bool := (aligned w g).any (fun l => maskOf l == m)

/-- A puncturing pattern that IEEE 802.11be permits for a width (log 10): one 20 MHz of 80, one 20 or 40 of 160, one 40 or
80 of 320, or an outer 80 of 320 with one 40 of the rest; on the radios that puncture (R200). -/
def punctureOk (n bw m : Nat) : Bool :=
  if m = 0 then true
  else if n = 0 then false
  else if bw = 2 then oneGroup 4 1 m
  else if bw = 3 then oneGroup 8 1 m || oneGroup 8 2 m
  else if bw = 4 then
    oneGroup 16 2 m || oneGroup 16 4 m
    || [span 0 4, span 12 16].any (fun o => (aligned 16 2).any (fun l => l.all (fun x => !o.contains x) && maskOf (o ++ l) == m))
  else false

/-- The checks of R220 on a channel setting, EN apart. -/
def channelOk (n prim bw : Nat) (second : Bool) (punct : Nat) : Bool :=
  primaryInBand n prim && decide (bw ≤ widest n) && !bit punct (primaryIndex n prim bw second) && punctureOk n bw punct

/-- A write of `RFn.CHAN` (R220). -/
def State.chanWrite (s : State) (n : Nat) (v : Word) : State :=
  let w := v.toNat
  if !s.on (F.MX_CTL_EN n) && channelOk n (bits w 7 0) (bits w 10 8) (bit w 11) (bits w 31 16) then
    (((s.put (F.RF_CHAN_PRIM n) (bits w 7 0)).put (F.RF_CHAN_BW n) (bits w 10 8)).put (F.RF_CHAN_CH320_2 n) (bits w 11 11)).put
      (F.RF_CHAN_PUNCT n) (bits w 31 16)
  else s.raise (161 + 32 * n)

/-- GO in `RFn.CSW_CTL` (R221), with the checks of R220: ignored while a switch is pending.  The switch keeps the setting
that its GO names, and beacons announce COUNT until BSSID 0's first target beacon time has passed (DEDUCED, log 11). -/
def State.channelSwitch (s : State) (n : Nat) : State :=
  if (s.radio n).csw.isSome then s
  else if !channelOk n (s.get (F.RF_CSW_CTL_CH n)) (s.get (F.RF_CSW_CTL_BW n)) (s.on (F.RF_CSW_CTL_CH320_2 n))
      (s.get (F.RF_CSW_PUNCT_PUNCT n)) then s.raise (161 + 32 * n)
  else
    let c := s.get (F.RF_CSW_CTL_COUNT n)
    let sw : Csw := { left := c, prim := s.get (F.RF_CSW_CTL_CH n), bw := s.get (F.RF_CSW_CTL_BW n),
                      second := s.get (F.RF_CSW_CTL_CH320_2 n), punct := s.get (F.RF_CSW_PUNCT_PUNCT n),
                      quiet := s.on (F.RF_CSW_CTL_QUIET n) }
    let s := (s.put (F.RF_CSW_CTL_GO n) 1).setRadio n { s.radio n with csw := some sw }
    if c = 0 then s.switchNow n else s

/-- Steps 4 and 5 of a switch (R221): the new values stand and GO clears. -/
def State.retuneDone (s : State) (n : Nat) : State :=
  match (s.radio n).csw with
  | some c =>
    if !c.tuning then s
    else
      let s := (s.put (F.RF_CHAN_PRIM n) c.prim).put (F.RF_CHAN_BW n) c.bw
      let s := (s.put (F.RF_CHAN_CH320_2 n) c.second).put (F.RF_CHAN_PUNCT n) c.punct
      (s.put (F.RF_CSW_CTL_GO n) 0).setRadio n { s.radio n with csw := none }
  | none => s

/-! ### Enable, lock and antenna -/

/-- EN rises: calibration runs, and its failure mutes the radio with source 165 + 32n (R223, R235). -/
def State.macEnable (s : State) (n : Nat) (ok : Bool) : State :=
  if s.on (F.MX_CTL_EN n) then s
  else
    let s := (s.put (F.MX_CTL_EN n) 1).setRadio n { s.radio n with calFail := !ok }
    if ok then s.put (F.RF_RF_STAT_LOCK n) 1 else s.raise (165 + 32 * n)

/-- EN falls (R223): every uncommitted husk is undone with RADIO. -/
def State.macDisable (s : State) (n : Nat) : State := (s.put (F.MX_CTL_EN n) 0).undoAll n 9

/-- A synthesiser loses lock (R230, R273): `n` = 3 is the Pip radio. -/
def State.pllUnlock (s : State) (n : Nat) : State :=
  if n = 3 then (s.undoAll 3 9).raise 256
  else
    ((s.put (F.RF_RF_STAT_LOCK n) 0).setRadio n { s.radio n with unlocked := true }).undoAll n 9 |>.raise (160 + 32 * n)

/-- The mute of a lost lock lifts once lock is back and its source acknowledged (R230). -/
def State.lockCheck (s : State) (n : Nat) : State :=
  if (s.radio n).unlocked && s.on (F.RF_RF_STAT_LOCK n) && !s.isPending (160 + 32 * n) then
    s.setRadio n { s.radio n with unlocked := false }
  else s

/-- A synthesiser regains lock (R230). -/
def State.pllRelock (s : State) (n : Nat) : State := if n = 3 then s else (s.put (F.RF_RF_STAT_LOCK n) 1).lockCheck n

/-- Reflected power beyond limit (R235, R273): the chain, or the Pip transmitter, is off, the latter until EN rises again
(DESIGN CHOICE, log 39). -/
def State.antennaFault (s : State) (n chain : Nat) : State :=
  if n = 3 then { s with air := { s.air with pip := { s.air.pip with txBad := true } } }.raise 259 else (s.putBit (F.RF_RF_STAT_ANTF n) chain true).raise (163 + 32 * n)

/-- Transmit power is limited on a chain, or the limit ends (R235, R273). -/
def State.rfPowerLimit (s : State) (n chain : Nat) (on : Bool) : State :=
  if n = 3 then s.raiseIf on 258
  else (s.putBit (F.RF_RF_STAT_LIMIT n) chain on).raiseIf on (162 + 32 * n)

/-! ### Backhaul (R224 - R227) -/

/-- Radio of candidate `k` (3: invalid). -/
def State.candRadio (s : State) (k : Nat) : Nat := s.get (F.MXA_BH_CAND_CH_RADIO k)

/-- Valid candidates, of the first CAND_N. -/
def State.candidates (s : State) : List Nat :=
  (List.range (min 8 (s.get F.MXA_BH_CFG_CAND_N))).filter (fun k => s.candRadio k != 3)

/-- The candidate after the current one, wrapping (R227 step 4). -/
def State.nextCandidate (s : State) : Option Nat :=
  let cur := s.get F.MXA_BH_CTL_CUR
  match s.candidates.find? (fun k => decide (cur < k)) with
  | some k => some k
  | none => s.candidates.head?

/-- Beacon interval of the current candidate in µs. -/
def State.bhInterval (s : State) : Nat := max 1 (s.get (F.MXA_BH_CAND_CH_BI (s.get F.MXA_BH_CTL_CUR))) * 1024

/-- BCN clears on every BSSID of a radio (R224, R227). -/
def State.clearBcn (s : State) (n : Nat) : State :=
  forEach (List.range 16) (fun b s => s.put (F.MX_BSS_CFG_BCN n b) 0) s

/-- Retuning bound of a radio in ns (R221). -/
def retuneNs (r : Nat) : Nat := if r = 2 then 200000 else 150000

/-- Steps 4 to 6 of R227: the next candidate, its radio and channel, and the listening time, which begins once the radio
stands on that channel. -/
def State.searchNext (s : State) : State :=
  match s.nextCandidate with
  | none => { s with air := { s.air with bh := { s.air.bh with search := false } } }
  | some k =>
    let s := s.put F.MXA_BH_CTL_CUR k
    let r := s.candRadio k
    let s := if r = s.get F.MXA_BH_CFG_RADIO then s else (s.clearBcn r).put F.MXA_BH_CFG_RADIO r
    let there := s.get (F.RF_CHAN_PRIM r) == s.get (F.MXA_BH_CAND_CH_CH k) && s.get (F.RF_CHAN_BW r) == s.get (F.MXA_BH_CAND_CH_BW k)
      && s.get (F.RF_CHAN_CH320_2 r) == s.get (F.MXA_BH_CAND_CH_CH320_2 k)
    let tune := if there then 0 else retuneNs r
    let s := ((s.put (F.RF_CHAN_PRIM r) (s.get (F.MXA_BH_CAND_CH_CH k))).put (F.RF_CHAN_BW r)
      (s.get (F.MXA_BH_CAND_CH_BW k))).put (F.RF_CHAN_CH320_2 r) (s.get (F.MXA_BH_CAND_CH_CH320_2 k))
    { s with air := { s.air with bh := { s.air.bh with search := true, tried := s.air.bh.tried + 1,
                                                       listenEnd := s.now + tune + 3 * s.bhInterval * 1000 } } }

/-- The parent is lost (R227); the fabric's part follows in the federation block. -/
def State.parentLost (s : State) : State :=
  let n := s.get F.MXA_BH_CFG_RADIO
  let st := s.get F.MXA_BH_CFG_STA
  let s := s.tbnHold
  let s := ((s.put F.MXA_BH_CTL_UP 0).put F.MXA_BH_CTL_LOST 1).bump F.MXA_BH_STAT_LOSSES 1
  let s := s.raise (67 + 32 * n)
  let s := (s.setPs n st (setBit (s.linkPs n st) 0 true)).undoStation n st 3
  { s with air := { s.air with bh := { s.air.bh with anchor := none, k := 1, tried := 0, report := true } } }.searchNext

/-- End of window `k` of the present anchor, in TSF µs (R226). -/
def State.parentWindow (s : State) (a k : Nat) : Nat := a + k * s.bhInterval + max 1 (s.get F.MXA_BH_CFG_WIN) * 64

/-- An expected window ends empty (R226). -/
def State.missWindow (s : State) : State :=
  let s := s.bump F.MXA_BH_CTL_MISSED 1
  let s := { s with air := { s.air with bh := { s.air.bh with k := s.air.bh.k + 1 } } }
  if 3 ≤ s.get F.MXA_BH_CTL_MISSED then s.parentLost else s

/-- PARENT_WINDOW_END: at the end of the present window. -/
def State.parentWindowEnd (s : State) : State :=
  match s.air.bh.anchor with
  | some a =>
    if s.on F.MXA_BH_CTL_UP && decide (s.air.bh.k ≤ 3) then
      (s.until (s.tsfToTbm (s.get F.MXA_BH_CFG_RADIO) (s.parentWindow a s.air.bh.k)).toNat).missWindow
    else s
  | none => s

/-- Windows that ended by the present TSF count first (R115, R226). -/
def State.pastWindows (s : State) : Nat → State
  | 0 => s
  | j + 1 =>
    match s.air.bh.anchor with
    | some a =>
      if s.on F.MXA_BH_CTL_UP && decide (s.air.bh.k ≤ 3)
          && decide (s.parentWindow a s.air.bh.k ≤ s.tsf (s.get F.MXA_BH_CFG_RADIO)) then
        s.missWindow.pastWindows j
      else s
    | none => s

/-- UP rises (R226): windows that ended while it was 0 ran for nobody, and the next one still to end is the first. -/
def State.skipWindows (s : State) : Nat → State
  | 0 => s
  | j + 1 =>
    match s.air.bh.anchor with
    | some a =>
      if s.air.bh.k ≤ 3 ∧ s.parentWindow a s.air.bh.k ≤ s.tsf (s.get F.MXA_BH_CFG_RADIO) then
        { s with air := { s.air with bh := { s.air.bh with k := s.air.bh.k + 1 } } }.skipWindows j
      else s
    | none => s

/-- `MXA.BH_CTL` (R226, R232): UP and CUR; LOST and HEARD clear where 1 is written. -/
def State.bhCtlWrite (s : State) (v : Word) : State :=
  let rises := bit v.toNat 0 && !s.on F.MXA_BH_CTL_UP
  let s := (s.put F.MXA_BH_CTL_UP (bits v.toNat 0 0)).put F.MXA_BH_CTL_CUR (bits v.toNat 3 1)
  let s := if bit v.toNat 4 then s.put F.MXA_BH_CTL_LOST 0 else s
  let s := if bit v.toNat 5 then s.put F.MXA_BH_CTL_HEARD 0 else s
  if rises then s.skipWindows 3 else s

/-- An accepted beacon of the parent, stamped `t`, with Timestamp `ts` (R225, R226). -/
def State.parentBeacon (s : State) (t ts : Nat) : State :=
  if !s.on F.MXA_BH_CTL_UP then s
  else
    let s := (s.until t).pastWindows 3
    if !s.on F.MXA_BH_CTL_UP then s
    else
      let n := s.get F.MXA_BH_CFG_RADIO
      let v := (ts + Config.stampDelay n) % 2 ^ 64
      let step := signed 64 (v + 2 ^ 64 - s.tsf n)
      let s := (s.setTsf n v).bump F.MXA_BH_STAT_STEPS 1
      let s := s.put F.MXA_BH_LAST_LAST (ofSigned 16 (max (-32767) (min 32767 step)))
      let s := s.put F.MXA_BH_CTL_MISSED 0
      { s with air := { s.air with bh := { s.air.bh with anchor := some ts, k := 1 } } }

/-- The listening time of a candidate ends unheard (R227 step 6). -/
def State.candidateListenEnd (s : State) : State :=
  if !s.air.bh.search then s
  else
    let s := s.until s.air.bh.listenEnd
    if s.candidates.length ≤ s.air.bh.tried then
      let s := s.raise (68 + 32 * s.get F.MXA_BH_CFG_RADIO)
      { s with air := { s.air with bh := { s.air.bh with tried := 0 } } }.searchNext
    else s.searchNext

/-- The candidate's beacon is heard, stamped `t` (R227 step 6), after the radio has retuned. -/
def State.candidateBeacon (s : State) (t : Nat) : State :=
  if s.air.bh.search && decide (t < s.air.bh.listenEnd ∧ s.air.bh.listenEnd ≤ t + 3 * s.bhInterval * 1000) then
    let s := (s.until t).put F.MXA_BH_CTL_HEARD 1
    { s with air := { s.air with bh := { s.air.bh with search := false } } }
  else s

/-! ### Radar (R228) -/

/-- THR of the detector in dBm, clamped (R234). -/
def State.radarThr (s : State) : Int := max (-100) (min (-40) (signed 8 (s.get F.RFB_DET_CTL_THR)))

/-- The detector is blanked (R228): radio B runs an exchange, or its last one ended less than 20 µs before. -/
def State.radarBlank (s : State) (ns : Nat) : Bool :=
  decide (ns < (s.radio 1).blank) || ((s.sqa 1).husk0.toList ++ (s.sqa 1).husk1.toList).any (fun h => h.st == 3)

/-- A burst of pulses on radio B (R228), on the subchannels of its operating channel: recorded, or dropped when 16 wait. -/
def State.radarBurst (s : State) (e : Radar) : State :=
  let e := { e with subch := e.subch % 2 ^ subchannels (s.get (F.RF_CHAN_BW 1)) }
  if !s.on F.RFB_DET_CTL_EN || decide (signed 8 e.rssi ≤ s.radarThr) || e.subch == 0 || s.radarBlank e.ns then s
  else
    let s := s.until e.ns
    let x := s.radio 1
    if 16 ≤ x.radar.length then (s.put F.RFB_DET_STAT_OVF 1).raise 199
    else
      let s := s.setRadio 1 { x with radar := x.radar ++ [e] }
      (s.put F.RFB_DET_STAT_DEPTH (x.radar.length + 1)).raise 198

end Sys2Proof.Machine
end

