-- ==== Sys2Proof/Machine/Pip.lean ====
section
/-! DEFINITION. The Pip MAC (chapter 08): channel plan and map, node records, received frames and automatic answers,
connection events, link loss, beacons; and BEACON, GAIN and LISTEN (R97 - R99). -/

namespace Sys2Proof.Machine

/-- Change the Pip state. -/
def State.setPip (s : State) (p : PipSt) : State := { s with air := { s.air with pip := p } }

/-- Set what holds the radio. -/
def State.setEx (s : State) (e : PipEx) : State := s.setPip { s.air.pip with ex := e }

/-! ### Channel plan and map (R236, R253, R254) -/

/-- A plan keeps channels 0 and 63 inside the band (R236). -/
def planOk (band f0 sp : Nat) : Bool :=
  let top := f0 + 63 * 25 * max 1 sp
  if band = 0 then decide (863000 ≤ f0 ∧ top ≤ 870000) else decide (902000 ≤ f0 ∧ top ≤ 928000)

/-- A write of `PIP.CHPLAN`. -/
def State.chplanWrite (s : State) (v : Word) : State :=
  let w := v.toNat
  if planOk (s.get F.PIP_CTL_BAND) (bits w 19 0) (bits w 27 20) then
    (s.put F.PIP_CHPLAN_F0 (bits w 19 0)).put F.PIP_CHPLAN_SP (bits w 27 20)
  else s.raise 257

/-- A write of `PIP.CHMAP` (R253): an empty map is ignored. -/
def State.chmapWrite (s : State) (map : Nat) : State :=
  if map % 2 ^ 64 = 0 then s.raise 257 else s.put F.PIP_CHMAP_MAP map

/-- A write of `PIP.CHMAP_NEXT` (R253): an empty map is ignored. -/
def State.chmapNextWrite (s : State) (map : Nat) : State :=
  if map % 2 ^ 64 = 0 then s.raise 257 else s.put F.PIP_CHMAP_NEXT_MAP map

/-! ### Node records (R249) -/

/-- A staged word. -/
def State.nodeStage (s : State) (k : Nat) : Nat := s.get (F.PIP_NODE_STAGE_WORD k)

/-- `n` staged bytes from offset `off`, as a number. -/
def State.stagedNat (s : State) (off n : Nat) : Nat :=
  leNat ((((List.range 16).flatMap (fun k => natLe (s.nodeStage k) 4)).drop off).take n)

/-- The queued and pending frames of a node are freed and counted (R249, R256). -/
def State.nodeFree (s : State) (node : Nat) : State :=
  let p (i : EgItem) : Bool := i.kind == 5 && i.target == node
  let pend := (s.air.pip.pending.filter (fun e => e.1 == node)).length
  let cnt := (s.hts.egress.filter p).length + pend
  let s := (s.freeQueued p).egressFall 5 pend
  (s.setPip { s.air.pip with pending := s.air.pip.pending.filter (fun e => e.1 != node) }).bump F.PIP_QDROP_NOCONN cnt

/-- Undo every husk that holds a node. -/
def State.undoNode (s : State) (node code : Nat) : State := s.undoStation 3 node code

/-- The refusals of R249. -/
def State.nodeRefused (s : State) (node : Nat) : Bool :=
  let present := bit (s.nodeStage 0) 0
  let addr := s.nodeStage 1
  (s.on F.PIP_NODE_UPD_CONN && s.on F.PIP_NODE_UPD_MERGE) || !s.nodeTableOk
  || (present && (List.range 16384).any (fun o => o != node && s.nodePresent o && s.nodeNat o 4 4 == addr))

/-- GO in `PIP.NODE_UPD` (R249), plain, with CONN or with MERGE as the register says. -/
def State.nodeUpdate (s : State) : State :=
  let node := s.get F.PIP_NODE_UPD_NODE
  if s.nodeRefused node then s.put F.PIP_NODE_UPD_ERR 1
  else
    let was := s.nodePresent node
    let s := s.put F.PIP_NODE_UPD_ERR 0
    let ec := s.nodeNat node 0x18 2
    let later := decide (0 < signed 16 (s.stagedNat 0x18 2 + 65536 - ec))
    let s := (s.nodePut node 0 16 (s.stagedNat 0 16)).nodePut node 0x38 8 (s.stagedNat 0x38 8)
    let s :=
      if s.on F.PIP_NODE_UPD_CONN then
        let back := (s.air.pip.pending.filter (fun e => e.1 == node)).map (·.2)
        let s := s.setPip { s.air.pip with pending := s.air.pip.pending.filter (fun e => e.1 != node) }
        let s := { s with hts := { s.hts with egress := back ++ s.hts.egress } }
        let s := ((s.nodePut node 0x10 8 (s.stagedNat 0x10 8)).nodePut node 0x18 2 (s.stagedNat 0x18 2)).nodePut node 0x1A 2 1
        (s.nodePut node 0x1C 12 (s.stagedNat 0x1C 12)).nodePut node 0x28 8 s.now
      else if s.on F.PIP_NODE_UPD_MERGE then
        let s := forEach [0x1C, 0x20, 0x24] (fun o s => s.nodePut node o 4 (max (s.nodeNat node o 4) (s.stagedNat o 4))) s
        if later then (s.nodePut node 0x10 8 (s.stagedNat 0x10 8)).nodePut node 0x18 2 (s.stagedNat 0x18 2) else s
      else s
    if was && !s.nodePresent node then (s.nodeFree node).undoNode node 3 else s

/-! ### The end of an exchange -/

/-- The outcome of a node in a committed husk is settled: its grants go (R146). -/
def State.pipSettle (s : State) (node slot : Nat) : State :=
  if slot < 2 then s.ackOutcome 3 slot node [] 0 0 false else s

/-- An exchange ends (R255): the radio is free and the husk's grants go. -/
def State.pipExEnd (s : State) (node slot : Nat) : State := (s.setEx .none).pipSettle node slot

/-! ### Link loss (R256) -/

/-- The NOTICE of a lost link: a Pip frame of TYPE 8 that never goes on air. -/
def State.noticePacket (s : State) (node code : Nat) : Packet :=
  { bytes := natLe 8 2 ++ natLe (s.get F.PIP_NETID_NETID) 2 ++ natLe (s.nodeNat node 4 4) 4 ++ natLe node 2 ++ natLe code 1
      ++ natLe (s.nodeNat node 0x18 2) 2,
    port := 5, start := 2, srcid := node, stamp := s.now, notice := true }

/-- A link is lost (R256): LIVE clears, frames are freed, husks undone, an exchange with the node ends, and a NOTICE goes to
the receive path. -/
def State.linkLost (s : State) (node code : Nat) : State :=
  let s := s.nodePut node 0x1A 2 (setBits (s.nodeLink node) 7 0 (bits (s.nodeLink node) 2 0 / 2 * 2))
  let s := (s.nodeFree node).undoNode node 3
  let s := match s.air.pip.ex with
    | .answer k _ _ slot => if k = node then s.pipExEnd node slot else s
    | .await k slot _ _ => if k = node then s.pipExEnd node slot else s
    | .none => s
  s.deliver (s.noticePacket node code)

/-- Supervision of a CONN node ends at LASTRX + STO (R256). -/
def State.supervision (s : State) (node : Nat) : State :=
  if s.nodePresent node && s.nodeKind node == 0 && s.nodeLive node then
    let s := s.until (s.nodeNat node 0x28 8 + s.nodeSto node * second)
    (s.bump F.PIP_LCNT_STO 1).linkLost node 1
  else s

/-- A connection event's anchor passes (R252). -/
def State.pipAnchor (s : State) (node : Nat) : State :=
  if s.nodePresent node && s.nodeKind node == 0 && s.nodeLive node then
    let a := s.nodeAnchor node
    let s := s.until a
    (s.nodePut node 0x10 8 (a + 1000000 * s.nodeNat node 0x0A 2)).nodePut node 0x18 2 (s.nodeNat node 0x18 2 + 1)
  else s

/-- Advance a CONN node's events over the whole intervals that passed (R252, wake from Retain). -/
def State.anchorCatchUp (s : State) (node : Nat) : State :=
  let a := s.nodeAnchor node
  let ci := 1000000 * max 1 (s.nodeNat node 0x0A 2)
  if s.now < a then s
  else
    let k := (s.now - a) / ci + 1
    (s.nodePut node 0x10 8 (a + k * ci)).nodePut node 0x18 2 (s.nodeNat node 0x18 2 + k)

/-- A LISTEN in progress returns a code and the frame's RSSI (R99). -/
def State.listenReturn (s : State) (code rssi : Nat) : State :=
  match (s.seq 3).wait with
  | some (.listen sd _ _ _ _ _) => s.seqResume 3 sd (code + 256 * rssi)
  | _ => s

/-- The pending DATA frame of a node has had its last transmission and is still unacknowledged: the link is lost (R256). -/
def State.retryCheck (s : State) (node : Nat) : State :=
  let lim := max 1 (s.get F.PIP_RETRY_LIMIT)
  if bit (s.nodeLink node) 3 && decide (lim ≤ bits (s.nodeLink node) 7 4) then
    (s.bump F.PIP_TXDROP_RETRY 1).linkLost node 2
  else s

/-- An expected answer fails to qualify in its window (R242, R256). -/
def State.answerTimeout (s : State) : State :=
  match s.air.pip.ex with
  | .await node slot _ hi => ((s.until hi).pipExEnd node slot).retryCheck node
  | _ => s

/-! ### Received frames (R250, R251, R260 - R262) -/

/-- Frames that the MAC holds for the parser (R326). -/
def State.pipHeld (s : State) : Nat := (s.prs.input.filter (fun p => p.port == 5)).length

/-- How a received frame fared: 0 not received at all, 1 passed its checks, 2 failed one (R269). -/
structure Heard where
  code : Nat
  st : State

/-- Bits of FC. -/
def pipType (f : PipFrame) : Nat := bits f.fc.toNat 3 0
/-- SEC of FC. -/
def pipSec (f : PipFrame) : Bool := f.fc.getLsbD 7

/-- The MPDU of a received frame (R244), its check value included: the bytes handed to the parser (log 12). -/
def pipBytes (f : PipFrame) : List Byte :=
  natLe f.fc.toNat 2 ++ natLe f.netid.toNat 2 ++ natLe f.addr.toNat 4
    ++ (if pipSec f then natLe f.ctr.toNat 4 else []) ++ f.body ++ (if pipSec f then natLe f.mic.toNat 4 else [])

/-- The check value passes under a slot (R246): FC is taken with its TTL bits 0. -/
def State.micOk (s : State) (f : PipFrame) (slot : Nat) : Bool :=
  let fc := setBits f.fc.toNat 10 8 0
  let msg := natLe fc 2 ++ natLe f.netid.toNat 2 ++ natLe f.addr.toNat 4 ++ natLe f.ctr.toNat 4 ++ f.body
  let r := s.engineCmac slot usePip msg
  r.1 == 0 && r.2.take 4 == natLe f.mic.toNat 4

/-- The packet a frame is delivered as; `info` marks an unknown JOIN (bit 0) and LIVE (bit 1). -/
def State.pipPacket (s : State) (f : PipFrame) (node info : Nat) : Packet :=
  { bytes := pipBytes f, port := 5, start := 2, srcid := node, stamp := s.stampIn 3 f.stamp.toNat, info := info }

/-- A frame finds 64 held: it is dropped (R326). -/
def State.pipFull (s : State) : State := (s.bump F.HTS_CNT3_PIPDROP 1).raiseSec 373

/-- The frame's end in TBM ns: LEN, MPDU and CRC follow its sync word (R238). -/
def pipEndNs (f : PipFrame) : Nat :=
  f.stamp.toNat + 8 * ((pipBytes f).length + 3) * 2 ^ f.rep.val * lineBitNs f.rate.val

/-- The receiver detects the frame in a window of this rate and repetition (R239, R272): its level reaches THR and enough
bits of its sync word match. -/
def State.pipDetects (s : State) (f : PipFrame) (rate rep : Nat) : Bool :=
  f.rate.val == rate && f.rep.val == rep
  && decide (max (-110) (min (-40) (signed 8 (s.get F.PIP_DET_THR))) ≤ signed 8 f.rssi.toNat)
  && decide (max 16 (min 32 (s.get F.PIP_DET_SYNC_MIN)) ≤ f.matched.toNat)

/-- CRC, TYPE and the zero bits of FC are good (R239, R243). -/
def pipFrameOk (f : PipFrame) : Bool :=
  crcOk (nums (pipBytes f)) f.crc.toNat && decide (bits f.fc.toNat 15 12 = 0 ∧ pipType f ≤ 8)

/-- The window a frame stamped `t` falls into: the awaited answer's (R242), or a LISTEN's (R99, R269); its rate and
repetition, and the node and slot an awaited answer belongs to. -/
def State.pipWindow (s : State) (t : Nat) : Option (Nat × Nat × Option (Nat × Nat)) :=
  match s.air.pip.ex with
  | .await node slot lo hi =>
    let c := s.nodeCfg node
    if lo ≤ t ∧ t < hi then some (bits c 6 5, bits c 8 7, some (node, slot)) else none
  | .answer _ _ _ _ => none
  | .none =>
    match (s.seq 3).wait with
    | some (.listen _ w0 w1 _ rate rep) => if w0 ≤ t ∧ t < w1 then some (rate, rep, none) else none
    | _ => none

/-- The channel of the open LISTEN. -/
def State.listenChannel (s : State) : Option Nat :=
  match (s.seq 3).wait with
  | some (.listen _ _ _ ch _ _) => some ch
  | _ => none

/-- Acknowledge a pending frame (R251): it is freed, and SEQ turns. -/
def State.pipAcked (s : State) (node nesn : Nat) : State :=
  let l := s.nodeLink node
  if bit l 3 && nesn != b2n (bit l 1) then
    let s := s.setPip { s.air.pip with pending := s.air.pip.pending.filter (fun e => e.1 != node) }
    (s.nodePut node 0x1A 2 (setBits (setBit (setBit l 3 false) 1 (!bit l 1)) 7 4 0)).egressFall 5 1
  else s

/-- An answer to a node is due T_IFS after the frame just received (R242).  Between a target beacon time and its beacon no
automatic exchange begins (R257); one that has begun goes on (R269). -/
def State.respond (s : State) (node : Nat) (choose : Bool) (slot : Nat) : State :=
  if s.air.pip.bwin.isSome && s.air.pip.ex == .none then s
  else s.setEx (.answer node (s.now + 500000) choose slot)

/-- The sequence rules for a DATA, POLL or ACK of a node (R251), and what answers it (R255, R260). -/
def State.pipSequence (s : State) (f : PipFrame) (node slot : Nat) (listen : Bool) : State :=
  let s := s.pipAcked node (b2n (f.fc.getLsbD 5))
  let sleepy := s.nodeKind node == 1
  let home := s.listenChannel == some (s.get F.PIP_HOME_CH) || !listen
  let body := pipType f == 1 && !f.body.isEmpty
  let s :=
    if body then
      let l := s.nodeLink node
      if b2n (f.fc.getLsbD 4) = b2n (bit l 2) then
        (s.deliver (s.pipPacket f node 0)).nodePut node 0x1A 2 (setBit l 2 (!bit l 2))
      else s.bump F.PIP_RXCNT2_DUP 1
    else s
  if sleepy && (pipType f == 1 || pipType f == 3) && home then s.respond node true slot
  else if !sleepy && body then s.respond node false slot
  else if listen then s
  else (s.pipExEnd node slot).retryCheck node

/-- An alert whose check value has passed (R261).  R99 and R269 name no LISTEN code for
one that the record does not allow: it is 2 (DESIGN CHOICE, log 39). -/
def State.checkAlert (s : State) (f : PipFrame) (node : Nat) : Heard :=
  let c := f.ctr.toNat
  if !bit (s.nodeCfg node) 3 then ⟨2, s.bump F.PIP_LCNT_UNKNOWN 1⟩
  else if c = s.nodeNat node 0x24 4 then ⟨1, (s.bump F.PIP_RXCNT2_DUP 1).respond node false 2⟩
  else if c ≤ s.nodeNat node 0x1C 4 then ⟨2, s.bump F.PIP_RXCNT2_RPLY 1⟩
  else if 64 ≤ s.pipHeld then ⟨1, s.pipFull⟩
  else
    let s := ((s.nodePut node 0x1C 4 c).nodePut node 0x24 4 c).nodePut node 0x28 8 f.stamp.toNat
    ⟨1, (s.deliver (s.pipPacket f node 0)).respond node false 2⟩

/-- Enter a key into the seen cache, evicting the oldest of 4,096 (R262). -/
def State.seenPut (s : State) (addr ctr : Nat) : State :=
  let l := s.air.pip.seen
  let s := if 4096 ≤ l.length then (s.bump F.PIP_FLOOD_EVICT 1).raiseSec 263 else s
  s.setPip { s.air.pip with seen := (if 4096 ≤ l.length then l.drop 1 else l) ++ [(addr, ctr, s.now)] }

/-- The key is in the seen cache, where it stands for 30 s. -/
def State.seen (s : State) (addr ctr : Nat) : Bool :=
  s.air.pip.seen.any (fun e => e.1 == addr && e.2.1 == ctr && decide (s.now < e.2.2 + 30 * second))

/-- A FLOOD whose check value has passed (R262): counter, cache entry, delivery. -/
def State.checkFlood (s : State) (f : PipFrame) (node : Nat) : Heard :=
  let c := f.ctr.toNat
  if c ≤ s.nodeNat node 0x1C 4 then ⟨2, s.bump F.PIP_RXCNT2_RPLY 1⟩
  else
    let s := (s.nodePut node 0x1C 4 c).seenPut f.addr.toNat c
    let s := (s.nodePut node 0x28 8 f.stamp.toNat).nodePut node 0x38 1 f.rssi.toNat
    let dst := leNat (f.body.take 4)
    if dst = s.get F.PIP_ADDR_ADDR ∨ dst = 0xFFFFFFFF then
      if 64 ≤ s.pipHeld then ⟨1, s.pipFull⟩ else ⟨1, s.deliver (s.pipPacket f node 0)⟩
    else ⟨1, s⟩

/-- The steps of R250 for a frame that passed its CRC: `k` is the check of the node record.  R99 and R269 name no LISTEN code
for a frame dropped by another step than the CRC, MIC and counter checks (another NETID, an unknown or not live sender): it
is 2 (DESIGN CHOICE, log 39). -/
def State.pipAccept (s : State) (f : PipFrame) (k : Check) (slot : Nat) (listen : Bool) : Heard :=
  let addr := f.addr.toNat
  let c := f.ctr.toNat
  if pipType f == 5 && s.seen addr c then ⟨1, s.bump F.PIP_FLOOD_SEEN 1⟩
  else if f.netid.toNat ≠ s.get F.PIP_NETID_NETID then ⟨2, s⟩
  else
    let n := s.pipIndex addr
    let bad := n.isSome && (k == .lasting || !s.nodeTableOk)
    let s := s.raiseIf bad 261
    let n := if bad then none else n
    match n with
    | some node =>
      if !s.nodePresent node then
        if pipType f = 6 then ⟨1, s.deliver (s.pipPacket f 0 1)⟩ else ⟨2, s.bump F.PIP_LCNT_UNKNOWN 1⟩
      else if !s.nodeLive node && pipType f != 6 && pipType f != 4 then ⟨2, s.bump F.PIP_LCNT_UNKNOWN 1⟩
      else
        let must := bit (s.nodeCfg node) 4 || pipType f == 4 || pipType f == 5 || pipType f == 6
        let key := s.nodeNat node 8 2 % 8192
        if !pipSec f && must then ⟨2, s.bump F.PIP_RXCNT_MIC 1⟩
        else if pipSec f && !s.micOk f key then ⟨2, s.bump F.PIP_RXCNT_MIC 1⟩
        else if pipType f = 4 then s.checkAlert f node
        else if pipType f = 5 then s.checkFlood f node
        else if pipSec f && decide (c ≤ s.nodeNat node 0x1C 4) then ⟨2, s.bump F.PIP_RXCNT2_RPLY 1⟩
        else if pipType f = 6 then
          if 64 ≤ s.pipHeld then ⟨1, s.pipFull⟩
          else ⟨1, s.deliver (s.pipPacket f node (2 * b2n (s.nodeLive node)))⟩
        else
          let s := if pipSec f then s.nodePut node 0x1C 4 c else s
          let s := (s.nodePut node 0x28 8 f.stamp.toNat).nodePut node 0x38 1 f.rssi.toNat
          if 64 ≤ s.pipHeld then ⟨1, s.pipFull⟩ else ⟨1, s.pipSequence f node slot listen⟩
    | none =>
      if pipType f = 6 then (if 64 ≤ s.pipHeld then ⟨1, s.pipFull⟩ else ⟨1, s.deliver (s.pipPacket f 0 1)⟩)
      else ⟨2, s.bump F.PIP_LCNT_UNKNOWN 1⟩

/-- RX_STAT of a received frame (R240). -/
def State.rxStat (s : State) (rssi : Nat) (sat : Bool) : State :=
  let s := s.put F.PIP_RX_STAT_RSSI rssi
  if sat then (s.put F.PIP_RX_STAT_SAT 1).bump F.PIP_RX_STAT_SATCNT 1 else s

/-- A GAIN carried out while the frame was being received applies from the frame's end (R98). -/
def State.gainEnd (s : State) (f : PipFrame) : State :=
  let e := pipEndNs f
  if f.stamp.toNat ≤ s.air.pip.gainSince ∧ s.air.pip.gainSince < e then s.setPip { s.air.pip with gainSince := e } else s

/-- A frame in the window of an awaited answer (R242, R255, R256): the awaited answer's own rules, or another frame's after
which the husk's exchange has ended; an answer owed to that other frame still leaves. -/
def State.answerFrame (s : State) (f : PipFrame) (k : Check) (node slot : Nat) : Heard :=
  let mine := decide (s.pipIndex f.addr.toNat = some node) && pipType f != 4
  let h := s.pipAccept f k (if mine then slot else 2) false
  match h.st.air.pip.ex with
  | .answer _ _ _ _ => if mine then h else ⟨h.code, (h.st.pipSettle node slot).retryCheck node⟩
  | .await _ _ _ _ => ⟨h.code, (h.st.pipExEnd node slot).retryCheck node⟩
  | .none => if mine then h else ⟨h.code, (h.st.pipExEnd node slot).retryCheck node⟩

/-- A frame of type `t` has been received to its end (R239, R250): nothing when no window of the radio holds its stamp or
the receiver does not detect it; one with a bad CRC, TYPE or header bit is abandoned (R243).  `room` tells whether the
receive buffer took it: when its write fails (source 264) the frame is dropped, and LISTEN, of which the spec then says
nothing, returns 2 (DESIGN CHOICE, log 39). -/
def State.pipReceive (s : State) (t : Nat) (f : PipFrame) (k : Check) (room : Bool) : Heard :=
  if pipType f ≠ t || !s.radioHears 3 then ⟨0, s⟩
  else match s.pipWindow f.stamp.toNat with
    | none => ⟨0, s⟩
    | some (rate, rep, aw) =>
      if !s.pipDetects f rate rep then ⟨0, s⟩
      else
        let s := ((s.until (pipEndNs f)).rxStat f.rssi.toNat f.sat).gainEnd f
        let good := pipFrameOk f
        let s := s.raiseIf (good && !room) 264
        let s := if good then s else s.bump F.PIP_RXCNT_CRC 1
        match aw with
        | some (node, slot) =>
          if good && room then s.answerFrame f k node slot else ⟨2, (s.pipExEnd node slot).retryCheck node⟩
        | none =>
          let h := if good && room then s.pipAccept f k 2 true else ⟨2, s⟩
          ⟨h.code, h.st.listenReturn h.code f.rssi.toNat⟩

/-- A frame that qualified its sync word is abandoned: LEN, CRC, TYPE or header bits (R239, R243). -/
def State.pipReject (s : State) (t rssi : Nat) (sat : Bool) : State :=
  if !s.radioHears 3 then s
  else match s.pipWindow t with
    | none => s
    | some (_, _, aw) =>
      let s := ((s.until t).rxStat rssi sat).bump F.PIP_RXCNT_CRC 1
      match aw with
      | some (node, slot) => (s.pipExEnd node slot).retryCheck node
      | none => s.listenReturn 2 rssi

/-- At T_IFS the MAC sends the automatic answer (R242, R260): its counter is reserved now; nothing is sent while the
radio may not send, when the counter is exhausted, or when the check value fails. -/
def State.autoAnswer (s : State) : State :=
  match s.air.pip.ex with
  | .answer node t choose slot =>
    let s := (s.until t).setEx .none
    let stop (s : State) : State := (s.pipExEnd node slot).retryCheck node
    if !s.radioOk 3 || s.on F.PIP_CTL_TXOFF || s.air.pip.txBad then stop s
    else
      let key := s.nodeNat node 8 2 % 8192
      match s.slotRefusal 6 key usePip with
      | some c => stop (s.countCode c)
      | none =>
        let c := if choose then s.pipChoose node else (none, false)
        let tb := match c.1 with | some it => pipBody it | none => (2, [])
        match s.takeCounter node tb.1 with
        | none => stop (s.raise 262)
        | some (ctr, s) =>
          let cfg := s.nodeCfg node
          let tx : PipTx := { node := node, type := tb.1, body := tb.2, ctr := ctr, slot := key, item := c.1, pend := c.2,
                              mpdu := s.nodeMpdu node tb.1 ctr key tb.2 c.1.toList.length }
          let s := s.pipSent tx (bits cfg 6 5) (bits cfg 8 7)
          if tb.1 = 1 then s.pipAwait node 2 (bits cfg 6 5) (bits cfg 8 7) (pipLen tb.2)
          else stop (s.until (s.now + s.pipDuration (bits cfg 6 5) (bits cfg 8 7) (pipLen tb.2)))
  | _ => s

/-- The oldest key of the seen cache reaches 30 s (R262). -/
def State.seenExpiry (s : State) : State :=
  match s.air.pip.seen with
  | e :: l => (s.until (e.2.2 + 30 * second)).setPip { s.air.pip with seen := l }
  | [] => s

/-! ### Beacons (R257, R258) -/

/-- Beacon interval in ns. -/
def State.pipInterval (s : State) : Nat := max 100 (s.get F.PIP_BCN_CFG_BI) * 1000000

/-- The next target beacon time that has not been taken, TBM ns (R257). -/
def State.pipNextTbtt (s : State) : Nat :=
  let p := s.pipInterval
  let from' := max s.now s.air.pip.tbtt
  from' + (s.get F.PIP_BCN_OFS_OFS * 1000 % p + p - from' % p) % p

/-- A beacon failure (R258). -/
def State.pipBeaconFail (s : State) : State :=
  let s := (s.bump F.PIP_BCN_STAT_RUN 1).bump F.PIP_BCN_STAT_FAILS 1
  if 3 ≤ s.get F.PIP_BCN_STAT_RUN && !s.on F.PIP_BCN_STAT_STARVED then (s.put F.PIP_BCN_STAT_STARVED 1).raise 57 else s

/-- SLEEPY nodes with frames queued or pending, oldest head frame first, at most 16 (R258). -/
def State.pendingNodes (s : State) : List Nat :=
  let nodes := dedup ((s.air.pip.pending.map (·.1)) ++ (s.hts.egress.filter (fun i => i.kind == 5)).map (fun i => i.target)) []
  let sleepy := nodes.filter (fun n => s.nodePresent n && s.nodeKind n == 1)
  let age (n : Nat) : Nat := match (s.pipChoose n).1 with | some it => it.pkt.stamp | none => 0
  (sortBy age sleepy).take 16

/-- The body of a beacon for target beacon time `t` (R245). -/
def State.pipBeaconBody (s : State) (t : Nat) : List Byte :=
  let chg := s.on F.PIP_CHMAP_AT_GO
  let sec := if s.on F.TIME_TBN_CTL_LOCKED then s.tbnAt (t * 2 ^ 32) / 2 ^ 32 / second % 2 ^ 32 else 0
  let np := s.pendingNodes
  natLe (s.pipInterval / 1000000) 2 ++ natLe (s.get F.PIP_BCN_CFG_JOIN_OPEN + 2 * b2n chg) 1 ++ natLe (s.get F.PIP_CHMAP_MAP) 8
    ++ (if chg then natLe (s.get F.PIP_CHMAP_NEXT_MAP) 8 ++ natLe (s.get F.PIP_CHMAP_AT_AT) 2 else [])
    ++ natLe sec 4 ++ natLe np.length 1 ++ np.flatMap (fun n => natLe n 2)

/-- Arming the Pip beacon (R258): counter, content and check value; a refused counter or key leaves a generation that no
slot shows. -/
def State.pipArm (s : State) : State :=
  let slot := s.get F.PIP_BCN_KEY_SLOT
  let c := s.get F.PIP_BCTR_NEXT
  if c = 0xFFFFFFFF then (s.setPip { s.air.pip with armed := some { slot := some slot, gen := 16 } }).raise 262
  else
    let r := s.slotRefusal 6 slot usePip
    let s := match r with | some code => s.countCode code | none => s
    let s := s.put F.PIP_BCTR_NEXT (c + 1)
    let m := s.pipMpdu 0 0 0 0 (s.get F.PIP_ADDR_ADDR) c slot false (s.pipBeaconBody s.pipNextTbtt)
    s.setPip { s.air.pip with armed := some { slot := some slot, gen := if r.isSome then 16 else s.keyGen slot, pn := c }, beacon := m }

/-- BEACON (R97): sd = 0 armed, 1 already armed, 2 not enabled; R97 names only index 0 in SQP and gives another no result: it
is answered 2 (DESIGN CHOICE, log 39). -/
def State.beaconInstr (s : State) (i : Issue) (sd sa : BitVec 5) : State :=
  s.issue i .s [sd, sa] (fun s =>
    match i.who with
    | .thr _ => .exc .illegal
    | .seq q =>
      let n := q.val
      let b := (s.reg (512 + n) sa.toNat).toNat
      let r : Nat × State :=
        if n = 3 then
          if !s.on F.PIP_BCN_CFG_EN || b != 0 then (2, s)
          else if s.air.pip.armed.isSome then (1, s) else (0, s.pipArm)
        else s.beaconArm n b
      .next (r.2.setReg (512 + n) sd.toNat (BitVec.ofNat 64 r.1)))

/-- The armed beacon lapses, its counter burned (R258). -/
def State.pipDisarm (s : State) : State := s.setPip { s.air.pip with armed := none, bwin := none, beacon := [] }

/-- A channel-map change takes effect (R254): uncommitted husks built on the old map for a later event are undone. -/
def State.mapApply (s : State) (t : Nat) : State :=
  let s := (s.put F.PIP_CHMAP_MAP (s.get F.PIP_CHMAP_NEXT_MAP)).put F.PIP_CHMAP_AT_GO 0
  s.undoWhere 3 3 (fun h => match h.pip with | some p => p.anchor != 0 && decide (t < p.anchor) | none => false)

/-- A Pip target beacon time (R254, R257, R258): it comes whether or not the radio can send, as long as its MAC has power. -/
def State.pipTbtt (s : State) : State :=
  if !s.domOn 5 || !s.on F.PIP_BCN_CFG_EN then s
  else
    let t := s.pipNextTbtt
    let s := s.until t
    let s := if s.air.pip.bwin.isSome then s.pipDisarm.pipBeaconFail else s
    let s := s.setPip { s.air.pip with tbtt := t + 1 }
    match s.air.pip.armed with
    | some a =>
      let s := if s.on F.PIP_CHMAP_AT_GO && a.pn % 65536 == s.get F.PIP_CHMAP_AT_AT then s.mapApply t else s
      s.setPip { s.air.pip with bwin := some (t + 1000000 * max 1 (s.get F.PIP_BCN_CFG_LATE)) }
    | none => s.pipBeaconFail

/-- The armed Pip beacon wins the medium (R241, R258). -/
def State.pipBeaconCommit (s : State) : State :=
  match s.air.pip.bwin, s.air.pip.armed with
  | some e, some a =>
    if !s.radioOk 3 || s.on F.PIP_CTL_TXOFF || s.air.pip.txBad || s.beaconHeld 3 || !s.pipClear
        || s.air.pip.ex != .none || decide (e ≤ s.now) then s
    else
      let good := match a.slot with | some k => s.keyGen k == a.gen | none => false
      if !good then s.pipDisarm.pipBeaconFail
      else
        let m := s.air.pip.beacon
        let s := s.pipDisarm.pipEmit m (s.get F.PIP_BCN_CFG_RATE) (s.get F.PIP_BCN_CFG_REP)
        (s.put F.PIP_BCN_STAT_RUN 0).put F.PIP_BCN_STAT_STARVED 0
  | _, _ => s

/-- The beacon window ends unsent (R258). -/
def State.pipBeaconWindowEnd (s : State) : State :=
  match s.air.pip.bwin with
  | some e => (s.until e).pipDisarm.pipBeaconFail
  | none => s

/-! ### GAIN and LISTEN -/

/-- GAIN (R98): 6 dB times the step of the instruction, or of sa[2:0]; a frame then being received keeps the old step, and
takes the new one's start to its end when it has been received. -/
def State.gainInstr (s : State) (i : Issue) (sd sa : BitVec 5) (step : Fin 8) (fromReg : Bool) : State :=
  s.issue i .s [sd, sa] (fun s =>
    match i.who with
    | .thr _ => .exc .illegal
    | .seq q =>
      if q.val ≠ 3 then .exc .illegal
      else
        let g := if fromReg then (s.reg 515 sa.toNat).toNat % 8 else step.val
        .next ((s.setPip { s.air.pip with gain := g, gainSince := s.now, gainWas := s.air.pip.gain }).setReg 515 sd.toNat 0))

/-- LISTEN (R99): a receive window on channel sa[5:0] for sb µs. -/
def State.listenInstr (s : State) (i : Issue) (sd sa sb : BitVec 5) (rate rep : Fin 4) : State :=
  s.issue i .s [sd, sa, sb] (fun s =>
    match i.who with
    | .thr _ => .exc .illegal
    | .seq q =>
      if q.val ≠ 3 then .exc .illegal
      else
        let len := (s.reg 515 sb.toNat).toNat
        let ch := (s.reg 515 sa.toNat).toNat % 64
        let ends (v : BitVec 64) : Flow := .next (s.setReg 515 sd.toNat v)
        if rate.val = 3 ∨ (rep.val ≠ 0 ∧ rate.val ≠ 0) then ends 3
        else if len = 0 then ends 0
        else .stay (s.setSeq 3 { s.seq 3 with
          wait := some (.listen sd.toNat s.now (s.now + 1000 * len) ch rate.val rep.val) }))

/-- A LISTEN window ends with no frame (R99). -/
def State.listenWindowEnd (s : State) : State :=
  match (s.seq 3).wait with
  | some (.listen sd _ e _ _ _) => (s.until e).seqResume 3 sd 0
  | _ => s

/-! ### Enable -/

/-- EN rises (R272): calibration, whose failure mutes the radio with source 260. -/
def State.pipEnable (s : State) (ok : Bool) : State :=
  if s.on F.PIP_CTL_EN then s
  else ((s.put F.PIP_CTL_EN 1).setPip { s.air.pip with calFail := !ok, txBad := false }).raiseIf (!ok) 260

/-- EN falls (R272): every SQP husk is undone with RADIO. -/
def State.pipDisable (s : State) : State := (s.put F.PIP_CTL_EN 0).undoAll 3 9

end Sys2Proof.Machine
end

