-- ==== Sys2Proof/Machine/Phase.lean ====
section
/-! DEFINITION. What moves a phase domain: its input counters, its observations and tracking loop, its lock, and the
writes of its registers (R119 - R128). -/

namespace Sys2Proof.Machine

/-- Counts per cycle: 0 and values above 65,536 are taken as 65,536 (R134). -/
def State.cpr (s : State) (d : Nat) : Nat :=
  let c := s.get (F.PHS_PD_SCALE_CPR d)
  if c = 0 ∨ 65536 < c then 65536 else c

/-- What the domain has reported becomes the floor of what it reports next (R123). -/
def State.keepPhase (s : State) (d : Nat) : State := s.setPd d { s.pd d with rep := s.phaseNow d }

/-- A lost or disabled domain ends its phase waits with status 2 and its phase windows with PHASE (R88, R94, R130). -/
def State.endPhaseUsers (s : State) (d : Nat) : State :=
  forEach (List.range 4) (fun n s =>
    match (s.seq n).wait with
    | some (.phase sd _ _ pd) => if pd = d then (s.countWait n 2).seqResume n sd 2 else s
    | some (.launch _ slot kind _ _ _) => if kind = 3 + d then s.undo n slot 2 else s
    | _ => s) s

/-- Entry to ACQ (R128): the timer starts and lock must be earned anew; reference, rate and residual are kept. -/
def State.enterAcq (s : State) (d : Nat) : State :=
  let s := s.setPd d { s.pd d with good := 0, acqAt := s.now, acqOut := false }
  (s.put (F.PHS_PD_STAT_STATE d) 1).put (F.PHS_PD_STAT_IDX_SEEN d) 0

/-- A locked domain loses lock (R128): source 16 + 4d, LOSSES, and its waits and windows end. -/
def State.lockLoss (s : State) (d : Nat) : State :=
  if s.locked d then
    ((((s.keepPhase d).enterAcq d).bump (F.PHS_PD_CNT_LOSSES d) 1).raise (16 + 4 * d)).endPhaseUsers d
  else s

/-- The period of rate `w` lies from 1 ms to 86,400 s (R128). -/
def periodOk (w : Nat) : Bool := decide (w ≠ 0 ∧ 1000000 * w ≤ 2 ^ 64 ∧ 2 ^ 64 ≤ 86400 * second * w)

/-- The loop of R125 on observation (`t`, `p`) after at least one earlier: the residual and the domain it leaves.  The
rate is left where two observations carry one stamp (DEDUCED, log 16). -/
def PhaseDom.update (x : PhaseDom) (acq : Bool) (kp ki t p : Nat) : Int × PhaseDom :=
  let e := signed 48 (p + 2 ^ 48 - x.est t)
  let x := if acq && x.obs == 1 && decide (x.tFirst < t) then
      { x with w := (p + 2 ^ 48 - x.pFirst) % 2 ^ 48 * 2 ^ 32 / (t - x.tFirst) } else x
  let refP := ofSigned 48 ((x.est t : Int) + e / 2 ^ kp)
  let w := if x.tLast < t then ofSigned 64 ((x.w : Int) + Int.tdiv (e * 2 ^ 32) (t - x.tLast : Nat) / 2 ^ ki) else x.w
  let ares := ((x.ares : Int) + ((e.natAbs : Int) - x.ares) / 16).toNat
  (e, { x with refP := refP, w := w, refT := t, tLast := t, ares := ares, obs := x.obs + 1 })

/-- An observation of phase `p` (32.16) at TBM instant `t` (R125, R128). -/
def State.observe (s : State) (d t p : Nat) : State :=
  let s := s.keepPhase d
  let p := p % 2 ^ 48
  let x : PhaseDom := { s.pd d with lastP := p }
  if x.obs = 0 then
    (s.setPd d { x with refT := t, refP := p, tLast := t, tFirst := t, pFirst := p, obs := 1 }).keepPhase d
  else
    let acq := s.pdState d == 1
    let (e, x) := x.update acq (s.get (F.PHS_PD_CFG_KP d)) (s.get (F.PHS_PD_CFG_KI d)) t p
    if acq then
      let good := if e.natAbs ≤ 65536 * s.get (F.PHS_PD_TOL_LOCK_TOL d) then x.good + 1 else 0
      let s := s.setPd d { x with good := good }
      if max 1 (s.get (F.PHS_PD_CFG_LOCK_N d)) ≤ good ∧ periodOk x.w = true
          ∧ (s.on (F.PHS_PD_CFG_INDEX_REQ d) = false ∨ s.on (F.PHS_PD_STAT_IDX_SEEN d) = true) then
        (s.keepPhase d |>.setPd d { (s.keepPhase d).pd d with locked1 := true }).put (F.PHS_PD_STAT_STATE d) 2
      else s.keepPhase d
    else
      let s := s.setPd d x
      if 65536 * s.get (F.PHS_PD_TOL_LOSS_TOL d) < e.natAbs ∨ periodOk x.w = false then s.lockLoss d else s

/-- Domain `d` runs with a source in a list: enabled, and CORE on (R122). -/
def State.phaseRuns (s : State) (d : Nat) (srcs : List Nat) : Bool :=
  s.domOn 5 && s.on (F.PHS_PD_CFG_EN d) && srcs.contains (s.get (F.PHS_PD_CFG_SRC d))

/-- An input fault (R120, R121): ILLEG counts and source 17 + 4d is raised. -/
def State.inputFault (s : State) (d : Nat) : State := (s.bump (F.PHS_PD_CNT_ILLEG d) 1).raise (17 + 4 * d)

/-- Phase of count `n` of the present cycle (R119), in 32.16. -/
def State.countPhase (s : State) (d n : Nat) : Nat :=
  (65536 * s.get (F.PHS_PD_CYC_CYC d) + s.get (F.PHS_PD_IDX_OFS d)) * 65536 + n * 2 ^ 32 / s.cpr d

/-- A forward count (R119, R120, R123).  With INDEX_REQ at 0 the cycle that `CPR` counts complete is carried into the cycle
count at the next count, unless an index does it first. -/
def State.countForward (s : State) (d t : Nat) : State :=
  let x := s.pd d
  let free := !s.on (F.PHS_PD_CFG_INDEX_REQ d)
  if 0 < x.back then
    (s.setPd d { x with back := x.back - 1 }).put (F.PHS_PD_STAT_REV d) (b2n (decide (1 < x.back)))
  else
    let first := x.fresh && free
    let n := if first then 0 else x.n.toNat + 1
    let wrap := free && decide (s.cpr d < n)
    let n := if wrap then 1 else n
    let s := s.setPd d { x with n := n, fresh := false, known := x.known || first }
    let s := if wrap then s.addWrap (F.PHS_PD_CYC_CYC d) 1 else s
    s.observe d t (s.countPhase d n)

/-- A reverse count (R123): no observation, and beyond REV_TOL the lock drops. -/
def State.countReverse (s : State) (d t : Nat) : State :=
  let x := s.pd d
  if x.fresh && !s.on (F.PHS_PD_CFG_INDEX_REQ d) then
    let s := s.setPd d { x with n := 0, fresh := false, known := true }
    s.observe d t (s.countPhase d 0)
  else
    let s := (s.setPd d { x with back := x.back + 1, fresh := false }).put (F.PHS_PD_STAT_REV d) 1
    if s.get (F.PHS_PD_SCALE_REV_TOL d) < x.back + 1 then s.lockLoss d else s

/-- Position of the input levels in the forward order 00, 10, 11, 01 (A leads B). -/
def grayPos (a b : Bool) : Nat := match a, b with | false, false => 0 | true, false => 1 | true, true => 2 | false, true => 3

/-- A level held for `held` ns passes the glitch filter (R120). -/
def State.passes (s : State) (d held : Nat) : Bool := decide (s.get (F.PHS_PD_IDX_FILT d) ≤ held)

/-- The levels of A and B from instant `t` on, held for `held` ns (R119, R120): a quadrature count, an illegal transition, or
a pulse; nothing for a glitch. -/
def State.phaseInput (s : State) (d t held : Nat) (a b : Bool) : State :=
  if !s.passes d held then s
  else if s.phaseRuns d [0, 1] then
    let s := s.until t
    let x := s.pd d
    let step := (grayPos a b + 4 - grayPos x.a x.b) % 4
    let s := s.setPd d { x with a := a, b := b }
    let inv := s.on (F.PHS_PD_CFG_INV_DIR d)
    if step = 0 then s
    else if step = 2 then s.inputFault d
    else if (step = 1) = !inv then s.countForward d t
    else s.countReverse d t
  else if s.phaseRuns d [4, 5] then
    let s := s.until t
    let x := s.pd d
    let s := s.setPd d { x with a := a, b := b }
    if a && !x.a then s.countForward d t else s
  else s

/-- An index edge at instant `t`, its level held for `held` ns (R120): n is 0, one cycle is added, and a known n that did not
equal CPR is a slip.  It is no observation of its own (R119).  Before the first index with INDEX_REQ at 1, n stands for
nothing (DEDUCED, log 16). -/
def State.phaseIndex (s : State) (d t held : Nat) : State :=
  if s.passes d held && s.phaseRuns d [0, 1, 4, 5] then
    let s := s.until t
    let x := s.pd d
    let s := (s.put (F.PHS_PD_STAT_IDX_SEEN d) 1).addWrap (F.PHS_PD_CYC_CYC d) 1
    let s := s.setPd d { x with n := 0, fresh := false, known := true }
    if x.known && x.n.toNat != s.cpr d then s.inputFault d else s
  else s

/-- An edge of `MAINS_SENSE` at instant `t`, its level held for `held` ns (R119 - R121). -/
def State.mainsEdge (s : State) (d t held : Nat) (rising : Bool) : State :=
  if s.passes d held && s.phaseRuns d [2, 3] && (rising || s.get (F.PHS_PD_CFG_SRC d) == 3) then
    let s := s.until t
    let x := s.pd d
    let prev := if rising then x.rise else x.fall
    let quarter := if x.locked1 then x.period / 4 else 5000000
    let gap := t - (prev - 1)
    if prev ≠ 0 ∧ gap < quarter then s
    else
      let s := s.setPd d (if rising then { x with rise := t + 1 } else { x with fall := t + 1 })
      let s := if rising then s.addWrap (F.PHS_PD_CYC_CYC d) 1 else s
      if prev ≠ 0 ∧ (70 * gap < second ∨ second < 40 * gap) then s.inputFault d
      else s.observe d t (s.countPhase d 0 + (if rising then 0 else 32768 * 65536))
  else s

/-- A host observation (R124): rejected when ahead of TBM or not later than the domain's previous one. -/
def State.hostObservation (s : State) (d phase t : Nat) : State :=
  if s.phaseRuns d [6] then
    let x := s.pd d
    if s.now < t ∨ ((x.obs ≠ 0 ∨ x.tLast ≠ 0) ∧ t ≤ x.tLast) then
      (s.bump (F.PHS_PD_CNT_HREJ d) 1).raise (18 + 4 * d)
    else s.observe d t (phase * 65536)
  else s

/-- A write of `PHS.PD_CYC` (R122, R123): ignored and counted while locked; else it sets the reported cycles. -/
def State.pdCycWrite (s : State) (d v : Nat) : State :=
  if s.locked d then s.bump (F.PHS_PD_CNT_CFG d) 1
  else
    let s := s.put (F.PHS_PD_CYC_CYC d) v
    let r := s.phaseNow d % 65536 + v % 65536 * 65536
    s.setPd d { s.pd d with rep := r, lastP := r * 65536 }

/-- A write of `PHS.PD_PQ` (R126). -/
def State.pdPqWrite (s : State) (d v : Nat) : State := s.put (F.PHS_PD_PQ_PHI d) v

/-- `PHS.PD_PT` (R126, R134): all ones while not locked. -/
def State.pdPt (s : State) (d : Nat) : Nat :=
  if s.locked d then
    match s.predict d (s.get (F.PHS_PD_PQ_PHI d)) with
    | some t => ofSigned 64 t
    | none => 2 ^ 64 - 1
  else 2 ^ 64 - 1

/-- A write of `PHS.PD_CFG` (R128, R134): a write of SRC while EN is 1, and of EN with SRC 7, is ignored and counted; a
cleared EN is as a loss of lock without the source. -/
def State.pdCfgWrite (s : State) (d : Nat) (v : Word) : State :=
  let was := s.on (F.PHS_PD_CFG_EN d)
  let src := s.get (F.PHS_PD_CFG_SRC d)
  let w := v.toNat % 2 ^ 24
  let no := !was && bits w 3 1 == 7 && bit w 0
  let s := if was || no then s.bump (F.PHS_PD_CNT_CFG d) 1 else s
  let w := if was then setBits w 3 1 src else w
  let w := if no then setBit w 0 false else w
  let s := s.setWord (F.PHS_PD_CFG_EN d).addr (BitVec.ofNat 32 w)
  if bit w 0 && !was then
    let old := s.pd d
    let s := s.setPd d { a := old.a, b := old.b, rep := old.rep, lastP := old.lastP }
    (s.enterAcq d).put (F.PHS_PD_STAT_REV d) 0
  else if was && !bit w 0 then
    let s := ((s.keepPhase d).bump (F.PHS_PD_CNT_LOSSES d) 1).endPhaseUsers d
    let s := s.setPd d { s.pd d with lastP := (s.pd d).rep * 65536 }
    ((s.put (F.PHS_PD_STAT_STATE d) 0).put (F.PHS_PD_STAT_IDX_SEEN d) 0).put (F.PHS_PD_STAT_REV d) 0
  else s

/-- ACQ_TO expires (R128): source 19 + 4d, once per entry to ACQ. -/
def State.acqTimeout (s : State) (d : Nat) : State :=
  let x := s.pd d
  let limit := s.get (F.PHS_PD_TO_ACQ_TO d)
  if s.pdState d == 1 && s.domOn 5 && limit != 0 && !x.acqOut then
    let s := s.until (x.acqAt + 10000000 * limit)
    (s.setPd d { x with acqOut := true }).raise (19 + 4 * d)
  else s

/-- No observation for LOSS_TO (R128). -/
def State.lossTimeout (s : State) (d : Nat) : State :=
  if s.locked d && s.domOn 5 then
    (s.until ((s.pd d).tLast + 10000000 * max 1 (s.get (F.PHS_PD_TO_LOSS_TO d)))).lockLoss d
  else s

/-- Wake from Retain (R128): every enabled domain goes to ACQ, its waits and windows ended, its rate kept. -/
def State.phaseWake (s : State) : State :=
  forEach (List.range 4) (fun d s =>
    if s.pdState d = 0 then s else ((s.keepPhase d).enterAcq d).endPhaseUsers d) s

/-- IN_EN rises in `TIME.PPS_CTL`: the 2 s of R132 run from then. -/
def State.ppsCtlWrite (s : State) (v : Word) : State :=
  let was := s.on F.TIME_PPS_CTL_IN_EN
  let s := s.setWord F.TIME_PPS_CTL_IN_EN.addr (v &&& 0x00FFFFFF)
  (if !was && s.on F.TIME_PPS_CTL_IN_EN then { s with time := { s.time with ppsLast := s.now, ppsLost := false } }
    else s).ppsCut

end Sys2Proof.Machine
end

