-- ==== Sys2Proof/Machine/Copper.lean ====
section
/-! DEFINITION. The copper ports and the LR modes (chapter 09): links, training, PAUSE, frames and diagnostics. -/

namespace Sys2Proof.Machine

/-- State of copper port `c`. -/
def State.cup (s : State) (c : Nat) : CuSt := s.cu.getD c {}

/-- Replace the state of a copper port. -/
def State.setCup (s : State) (c : Nat) (x : CuSt) : State := { s with cu := setAt s.cu c x }

/-- The LR state of a port. -/
def State.setLr (s : State) (c : Nat) (x : LrSt) : State := s.setCup c { s.cup c with lr := x }

/-- The mode in force: 5 to 7 are taken as 0 (R293). -/
def State.cuMode (s : State) (c : Nat) : Nat :=
  let m := s.get (F.CU_CTL_MODE c)
  if m < 5 then m else 0

/-- The port's digital part and its front end have power (R15, R277, R455). -/
def State.cuPowered (s : State) (c : Nat) : Bool := 
  s.domOn 12 && s.domOn 13 && s.ctl.fronts.contains (4 + c) && !s.on F.SEC_RST_RDIE_HOLD

/-- A source of the port stands at L2, so that it is stopped (R294). -/
def State.cuHalted (s : State) (c : Nat) : Bool := s.halted (span (288 + 16 * c) (304 + 16 * c))

/-- The link is up. -/
def State.cuUp (s : State) (c : Nat) : Bool := s.on (F.CU_STAT_UP c)

/-- `CUn.STAT.PHASE`. -/
def State.cuPhase (s : State) (c : Nat) : Nat := s.get (F.CU_STAT_PHASE c)

/-- Link rate in Mbit/s by the RATE code. -/
def rateMbps (r : Nat) : Nat := [0, 1000, 2500, 5000, 10000, 1000, 2500].getD r 0

/-- `q` pause quanta of 512 bit times in ns at the link rate (R276). -/
def State.quantaNs (s : State) (c q : Nat) : Nat :=
  cdiv (q * 512 * 1000) (max 1 (rateMbps (s.get (F.CU_STAT_RATE c))))

/-! ### Links up and down (R277, R289) -/

/-- The link drops, and any training is abandoned: egress queued to the port is dropped and counted (R275, R277). -/
def State.cuDrop (s : State) (c : Nat) : State :=
  let s := if s.cuUp c then
      let n := (s.queued c 0).length
      let s := s.bump (F.CU_LCNT_DOWN c) 1
      (s.freeQueued (fun i => i.kind == c)).bump (F.CU_EGCNT_DOWN c) n
    else s
  let s := (((s.put (F.CU_STAT_UP c) 0).put (F.CU_STAT_RATE c) 0).put (F.CU_LEN_M c) 0).put (F.CU_STAT_RFAULT c) 0
  let x := s.cup c
  s.setCup c { x with txp := false, rxp := false, paused := 0, stopTo := 0,
                      lr := { x.lr with retrain := false, okSent := false, okRecv := false, oam := none } }

/-- The link comes up at a rate code, with the margins of the four pairs and the estimated length (R286, R291). -/
def State.cuLinkUp (s : State) (c rate : Nat) (snr len : Nat) : State :=
  let s := ((s.put (F.CU_STAT_UP c) 1).put (F.CU_STAT_RATE c) rate).put (F.CU_LEN_M c) len
  (s.setWord (F.CU_SNR_MARGIN0 c).addr (BitVec.ofNat 32 snr)).put (F.CU_STAT_RFAULT c) 0

/-! ### The order of LR steps (R285, R287) -/

/-- Mode code of a step: 2 LR2 for steps 0 - 2, 1 LR1 for 3 - 5 (R284, R287). -/
def stepMode (k : Nat) : Nat := if k < 3 then 2 else 1

/-- A step the port's MODE and TREP keep (R287). -/
def State.stepKept (s : State) (c k : Nat) : Bool :=
  let m := s.cuMode c
  let t := s.get (F.CU_CTL_TREP c)
  decide (k < 6) && (m == 4 || (m == 2 && decide (3 ≤ k)) || (m == 3 && decide (k < 3))) && (t == 3 || k % 3 == t)

/-- The first kept step from `k` on. -/
def State.nextStep (s : State) (c k : Nat) : Option Nat := (span k 6).find? (s.stepKept c)

/-- The DETECT that this side sends in P0 (R284): ACK once a valid one has been heard, its step and seed, version 1, and the
capability of both modes. -/
def LrSt.detect (x : LrSt) : LrSt :=
  { x with info := infoBlock (16 * b2n x.heard + 32 * stepMode x.step + 128 * (x.step % 3) + 512 * x.seed + 0x30100000000) }

/-- P0 begins at a step, with a fresh random seed (R284, R285). -/
def State.startP0 (s : State) (c step : Nat) : State :=
  let (v, s) := s.fresh
  let x : LrSt := { step := step, seed := v % 65536, heardAt := s.now, phaseAt := s.now, taps := (s.cup c).lr.taps }
  let s := s.setLr c x.detect
  ((s.put (F.CU_STAT_PHASE c) 0).put (F.CU_STAT_TREP c) (step % 3)).put (F.CU_STAT_MASTER c) 0

/-- The port starts its mode from its first step (R277); without power, or stopped, it stays off. -/
def State.cuStart (s : State) (c : Nat) : State :=
  let m := s.cuMode c
  if m = 0 ∨ s.cuPowered c = false ∨ s.cuHalted c = true ∨ (s.cup c).calFail = true then s.put (F.CU_STAT_PHASE c) 7
  else if m = 1 then s.put (F.CU_STAT_PHASE c) 6
  else s.startP0 c ((s.nextStep c 0).getD 0)

/-- An attempt is over (R286, R287): the next kept step after the one the link used, or a failed pass. -/
def State.lrNext (s : State) (c : Nat) : State :=
  match s.nextStep c ((s.cup c).lr.step + 1) with
  | some k => s.startP0 c k
  | none => ((s.bump (F.CU_LCNT_TFAIL c) 1).raise (290 + 16 * c)).startP0 c ((s.nextStep c 0).getD 0)

/-- This side sends ABORT and the attempt is over (R286, R288). -/
def State.lrAbort (s : State) (c : Nat) : State :=
  let s := s.lrNext c
  s.setLr c { (s.cup c).lr with sent := 3 }

/-- A link in DATA is down (R289): source 289 + 16c, and P0 again at the step reached, or auto-negotiation. -/
def State.cuDown (s : State) (c : Nat) : State :=
  let k := (s.cup c).lr.step
  let s := (s.cuDrop c).raise (289 + 16 * c)
  if s.cuMode c = 1 then s.cuStart c else s.startP0 c k

/-- The coefficient memory of the port failed (R292, R294): the link drops and trains in full again, from P0 at the step
reached or by auto-negotiation, with source 288 + 16c. -/
def State.cuCoef (s : State) (c : Nat) : State :=
  let k := (s.cup c).lr.step
  let s := (s.cuDrop c).raise (288 + 16 * c)
  if s.cuMode c = 1 then s.cuStart c else s.startP0 c k

/-- Link loss in DATA of an LR mode (R289): a fast retrain in P4, or the link goes down. -/
def State.lrLoss (s : State) (c : Nat) : State :=
  if s.on (F.CU_CTL_FRT c) then
    let x := (s.cup c).lr
    let s := s.setLr c { x with retrain := true, phaseAt := s.now, okSent := false, okRecv := false, bad := 0,
                                noMark := 0, sent := 2 }
    ((s.put (F.CU_STAT_PHASE c) 4).bump (F.CU_PCSCNT_FRT c) 1).raise (295 + 16 * c)
  else s.cuDown c

/-- The port loses power, or is stopped by a source (R15, R277, R294): its link drops and it sends nothing. -/
def State.cuStop (s : State) (c : Nat) : State := (s.cuDrop c).put (F.CU_STAT_PHASE c) 7

/-- A write of `CUn.CTL` (R277); `ok`: the analog calibration passes when the port is enabled (R294). -/
def State.cuCtlWrite (s : State) (c : Nat) (v : Word) (ok : Bool) : State :=
  let old := s.cuMode c
  let s := s.setWord (F.CU_CTL_MODE c).addr (v &&& 0x7F7)
  if s.cuMode c ≠ old ∨ bit v.toNat 3 = true then
    let s := s.cuDrop c
    let s := s.setCup c { s.cup c with calFail := !ok && s.cuMode c != 0,
                                       diag := if s.cuMode c = 0 then (s.cup c).diag else none }
    let s := if s.cuMode c = 0 then s else s.put (F.CU_DIAG_CTL_GO c) 0
    let s := s.raiseIf (s.cup c).calFail (291 + 16 * c)
    s.cuStart c
  else s

/-- Auto-negotiation resolves a rate, a role, PAUSE and the crossover, and the link comes up (R274, R276). -/
def State.autonegComplete (s : State) (c rate : Nat) (master mdix txp rxp : Bool) (snr len : Nat) : State :=
  if s.cuPhase c = 6 ∧ s.cuUp c = false ∧ 1 ≤ rate ∧ rate ≤ 4 ∧ s.fbit (F.CU_AN_ADV_RATES c) (rate - 1) = true then
    let s := (s.put (F.CU_STAT_MASTER c) (b2n master)).put (F.CU_STAT_MDIX c) (b2n mdix)
    let s := s.setCup c { s.cup c with txp := txp, rxp := rxp }
    s.cuLinkUp c rate snr len
  else s

/-- A BASE-T link is lost (R289, R292): with FRT, a fast retrain its clause completes keeps it up. -/
def State.baseTLoss (s : State) (c : Nat) (l : CuLoss) : State :=
  let r := s.get (F.CU_STAT_RATE c)
  if s.cuUp c = true ∧ 1 ≤ r ∧ r ≤ 4 then
    if l = .coef then s.cuCoef c
    else if l == .fast && s.on (F.CU_CTL_FRT c) && decide (2 ≤ r) then (s.bump (F.CU_PCSCNT_FRT c) 1).raise (295 + 16 * c)
    else s.cuDown c
  else s

/-! ### LR training (R283 - R288) -/

/-- Repetition factor of the step in hand. -/
def State.lrRep (s : State) (c : Nat) : Nat := 2 ^ ((s.cup c).lr.step % 3)

/-- A phase of training begins. -/
def State.lrPhase (s : State) (c p : Nat) : State :=
  (s.setLr c { (s.cup c).lr with phaseAt := s.now }).put (F.CU_STAT_PHASE c) p

/-- A DETECT in P0 (R284, R285, R288). -/
def State.lrDetect (s : State) (c v : Nat) : State :=
  let x := (s.cup c).lr
  let mode := bits v 6 5
  let seed := bits v 24 9
  let first := !x.heard
  let x := { x with heard := true, heardAt := s.now }.detect
  let s := s.setLr c x
  let mine := stepMode x.step
  let capable := if mine = 1 then bit v 40 else bit v 41
  let role := s.get (F.CU_CTL_ROLE c)
  if mode = 0 ∨ mode = 3 ∨ capable = false then s.lrAbort c
  else if first || !bit v 4 then s
  else if x.seed = seed ∧ (role = 0 ∨ role = 3) then s.startP0 c x.step
  else
    let m := min mine mode
    let t := max (x.step % 3) (min 2 (bits v 8 7))
    let step := (if m = 2 then 0 else 3) + t
    let master := if role = 1 then true else if role = 2 then false else decide (seed < x.seed)
    let s := s.setLr c { x with step := step }
    ((s.put (F.CU_STAT_TREP c) t).put (F.CU_STAT_MASTER c) (b2n master)).lrPhase c 1

/-- A valid INFO block of 64 content bits `v` (R284): DETECT in P0, the partner's taps in P3. -/
def State.lrInfo (s : State) (c v : Nat) : State :=
  let x := (s.cup c).lr
  let p := s.cuPhase c
  if p = 0 ∧ bits v 3 0 = 0 then s.lrDetect c v
  else if p = 3 ∧ bits v 3 0 = 2 then
    let i := 32 * bits v 10 9 + bits v 15 11
    let taps := tabSet (fun _ => 0) (tabSet (fun _ => 0) x.taps i (bits v 47 32)) (i + 1) (bits v 63 48)
    s.setLr c { x with heardAt := s.now, taps := taps }
  else s

/-- Length of a training phase in ns (R283). -/
def State.phaseLen (s : State) (c p : Nat) : Nat :=
  let r := s.lrRep c
  if p = 1 ∨ p = 2 then 8000000 * r else if p = 3 then 1000000 else 4000000 * r

/-- Every pair's margin is at least `CUn.MARGIN.MIN` (R286). -/
def State.marginOk (s : State) (c snr : Nat) : Bool :=
  (List.range 4).all (fun p => decide ((s.get (F.CU_MARGIN_MIN c) : Int) ≤ signed 8 (bits snr (8 * p + 7) (8 * p))))

/-- DATA begins (R286). -/
def State.lrData (s : State) (c len : Nat) : State :=
  let x := (s.cup c).lr
  let s := s.setLr c { x with bad := 0, noMark := 0, retrain := false, okSent := false, okRecv := false, sent := 0 }
  let s := s.put (F.CU_STAT_PHASE c) 5
  s.cuLinkUp c (if x.step < 3 then 6 else 5) (s.word (F.CU_SNR_MARGIN0 c).addr).toNat len

/-- A phase of training ends (R283, R286): `ok` whether the phase could complete, `mdix` the crossover found, `snr` the
four margins and `len` the length the echo canceller estimates. -/
def State.lrPhaseEnd (s : State) (c : Nat) (ok mdix : Bool) (snr len : Nat) : State :=
  let p := s.cuPhase c
  let x := (s.cup c).lr
  if p = 0 ∨ 5 ≤ p ∨ x.retrain = true ∨ x.okSent = true then s
  else
    let s := s.until (x.phaseAt + s.phaseLen c p)
    if !ok then s.lrAbort c
    else if p = 4 then
      let s := s.setWord (F.CU_SNR_MARGIN0 c).addr (BitVec.ofNat 32 snr)
      if s.marginOk c snr then
        let s := s.setLr c { x with okSent := true, sent := 1, len := len }
        if x.okRecv then s.lrData c len else s
      else s.lrAbort c
    else
      let s := if p = 2 then s.put (F.CU_STAT_MDIX c) (b2n mdix) else s
      s.lrPhase c (p + 1)

/-- No valid INFO for 1 s in P0 (R285). -/
def State.lrDetectTimeout (s : State) (c : Nat) : State :=
  if s.cuPhase c = 0 then
    let s := s.until ((s.cup c).lr.heardAt + second)
    (s.setLr c { (s.cup c).lr with heardAt := s.now }).raise (290 + 16 * c)
  else s

/-- An OAM word of 48 bits (R282, R286, R289): ignored when its CRC fails or its MSG is reserved. -/
def State.lrOam (s : State) (c v : Nat) : State :=
  let x := (s.cup c).lr
  let p := s.cuPhase c
  let msg := bits v 3 0
  if lrCrc16 (bitList v 32) ≠ bits v 47 32 ∨ 4 < msg ∨ 6 ≤ p then s
  else
    let rf := decide (msg = 4)
    let s := s.raiseIf (rf && !s.on (F.CU_STAT_RFAULT c)) (293 + 16 * c)
    let s := s.put (F.CU_STAT_RFAULT c) (b2n rf)
    if msg = 1 ∧ p = 4 then
      if x.okSent = true ∧ x.retrain = false then s.lrData c x.len
      else s.setLr c { x with okRecv := true }
    else if msg = 2 ∧ p = 5 then s.lrLoss c
    else if msg = 3 ∧ p < 5 then if x.retrain then s.cuDown c else s.lrNext c
    else s

/-- The LR state after a code frame of information bits `f` (R278, R281, R282): the blocks descrambled, or error blocks when
the CRC fails, the OAM bits gathered, and the counts of R289. -/
def LrSt.took (x : LrSt) (f : List Bool) (start : Bool) : LrSt :=
  let good := frameOk f
  let b := blocksThrough descrambleBit x.rxScr (frameBlocks f)
  { x with rxScr := b.2, rxBlocks := if good then b.1 else List.replicate 25 errorBlock,
           oam := if !good then none else if start then some (frameOam f) else x.oam.map (· ++ frameOam f),
           bad := if good then 0 else x.bad + 1,
           noMark := if !start then x.noMark else if good && frameMarker f then 0 else x.noMark + 1 }

/-- A code frame of 2,560 bits is received (R278 - R282, R289): `dec` is what the decoder finds when `w` is no codeword, and
`start` says that a superframe starts here.  Frames that a failed one touches reach the MAC as received frames in error; the
eighth of a superframe completes its OAM word.  `coef` is the check of the coefficient memory (R292). -/
def State.lrCodeFrame (s : State) (c : Nat) (w dec : List Bool) (coef : Check) (start : Bool) : State :=
  if s.cuPhase c ≠ 5 ∨ s.cuUp c = false then s
  else if coef = .lasting then s.cuCoef c
  else
    let f := lrDecoded w dec
    let x := (s.cup c).lr.took f start
    let s := (if frameOk f then s else s.bump (F.CU_PCSCNT_FRAME c) 1).setLr c x
    if max 1 (s.get (F.CU_MARGIN_FRAME_LOSS c)) ≤ x.bad ∨ 16 ≤ x.noMark then s.lrLoss c
    else match x.oam with
      | some o => if o.length = 48 then (s.setLr c { x with oam := none }).lrOam c (o.zipIdx.foldl (fun v p => v + b2n p.1 * 2 ^ p.2) 0) else s
      | none => s

/-- A frame leaves an LR port as code frames (R278 - R280): its blocks, filled with idle, scrambled and encoded, with the OAM
word of the port, as levels of PAM-4 in LR1 and PAM-16 in LR2 before the precoder. -/
def State.lrSend (s : State) (c : Nat) (bs : List Byte) : State :=
  let x := (s.cup c).lr
  let margin := (s.word (F.CU_SNR_MARGIN0 c).addr).toNat
  let worst := (minBy (fun m => signed 8 m + 128 |>.toNat) ((List.range 4).map (fun p => bits margin (8 * p + 7) (8 * p)))).getD 0
  let blocks := etherBlocks (bs.map BitVec.toNat)
  let g := blockGroups blocks.length blocks
  let t := codeFrames (oamWord x.sent worst) x.txPos x.txScr g
  let k := if s.get (F.CU_STAT_RATE c) = 6 then 4 else 2
  s.setLr c { x with txFrames := t.1, levels := t.1.map (lrLevels k), txScr := t.2, txPos := (x.txPos + g.length) % 8 }

/-- A fast retrain ends after 4 ms x TREP (R289): DATA resumes when both sides pass, or the link is down. -/
def State.lrRetrainEnd (s : State) (c snr len : Nat) (partner : Bool) : State :=
  let x := (s.cup c).lr
  if x.retrain = true ∧ s.cuPhase c = 4 then
    let s := s.until (x.phaseAt + 4000000 * s.lrRep c)
    if partner && s.marginOk c snr then
      (s.setWord (F.CU_SNR_MARGIN0 c).addr (BitVec.ofNat 32 snr)).lrData c len
    else
      let s := s.cuDown c
      if s.marginOk c snr then s else s.setLr c { (s.cup c).lr with sent := 3 }
  else s

/-! ### Frames and PAUSE (R275, R276) -/

/-- Bytes held in port `c`'s receive buffer, each frame with its FCS. -/
def State.cuHeld (s : State) (c : Nat) : Nat :=
  ((s.prs.input.filter (fun p => p.port == c)).map (fun p => p.bytes.length + 4)).foldl (· + ·) 0

/-- The receive buffer, 256 KiB (R275). -/
def cuBuffer : Nat := 0x40000

/-- PAUSE may be sent, or is obeyed: resolved, or always in an LR mode (R276). -/
def State.mayPause (s : State) (c : Nat) (tx : Bool) : Bool :=
  let lr := decide (5 ≤ s.get (F.CU_STAT_RATE c))
  s.cuUp c && (if tx then s.on (F.CU_CTL_TXPAUSE c) && (lr || (s.cup c).txp)
    else s.on (F.CU_CTL_RXPAUSE c) && (lr || (s.cup c).rxp))

/-- PAUSE and panic follow the level of the receive buffer (R276, R383). -/
def State.cuRxLevel (s : State) (c : Nat) : State :=
  let h := s.cuHeld c
  let s := s.cuLevel c (cuBuffer - h)
  let x := s.cup c
  if x.paused = 0 then
    if 1024 * s.get (F.CU_PAUSE_TH_XOFF c) < h ∧ s.mayPause c true = true then
      s.setCup c { x with paused := s.now + 1, quanta := some 0xFFFF }
    else s
  else if h < 1024 * s.get (F.CU_PAUSE_TH_XON c) then s.setCup c { x with paused := 0, quanta := some 0 }
  else s

/-- The quanta of a PAUSE frame (IEEE 802.3 Annex 31B, PRESUMED, log 18): multicast destination, type 0x8808, opcode 1. -/
def pauseQuanta (bs : List Byte) : Option Nat :=
  if bs.take 6 = [0x01, 0x80, 0xC2, 0x00, 0x00, 0x01] ∧ (bs.drop 12).take 4 = [0x88, 0x08, 0x00, 0x01] then
    some (beNat ((bs.drop 16).take 2))
  else none

/-- A frame without its FCS is received at port `c`, its start-of-frame delimiter at TBM ns `t` (R113, R275, R276, R294):
`fcs` whether its FCS passes, `k` the check of the frame buffer. -/
def State.cuFrame (s : State) (c : Nat) (bs : List Byte) (fcs : Bool) (t : Nat) (k : Check) : State :=
  if !s.cuUp c then s
  else
    let s := s.until t
    let len := bs.length + 4
    if !fcs || decide (len < 64) || decide (s.cuMaxLen c < len) then s.bump (F.CU_MACCNT_RXBAD c) 1
    else match pauseQuanta bs with
      | some q =>
        if s.mayPause c false then
          s.setCup c { s.cup c with stopTo := if q = 0 then 0 else s.now + s.quantaNs c q, stopFrom := s.now }
        else s
      | none =>
        if cuBuffer < s.cuHeld c + len then (s.bump (F.CU_MACCNT_RXOVF c) 1).raise (292 + 16 * c)
        else if k = .lasting then s.raise (296 + 16 * c)
        else
          let p : Packet := { bytes := bs, port := c, start := 0, stamp := s.stampIn (4 + c) t, ref := s.prs.nextRef }
          { s with prs := { s.prs with input := s.prs.input ++ [p], nextRef := s.prs.nextRef + 1 } }.cuRxLevel c

/-- Every 0x8000 quanta the PAUSE repeats while the buffer stays above XON (R276). -/
def State.pauseRefresh (s : State) (c : Nat) : State :=
  let x := s.cup c
  if x.paused = 0 ∨ s.mayPause c true = false then s
  else
    let s := s.until (x.paused - 1 + s.quantaNs c 0x8000)
    if 1024 * s.get (F.CU_PAUSE_TH_XON c) < s.cuHeld c then
      s.setCup c { x with paused := s.now + 1, quanta := some 0xFFFF }
    else s

/-- A received PAUSE runs out and egress resumes (R276). -/
def State.pauseExpiry (s : State) (c : Nat) : State :=
  let x := s.cup c
  if x.stopTo = 0 then s else (s.until x.stopTo).setCup c { x with stopTo := 0 }

/-! ### Egress (R111, R324) -/

/-- UDP destination port and payload of an IP packet, when it is UDP without extension headers. -/
def udpPayload (bs : List Byte) : Option (Nat × List Byte) :=
  let ety := beNat ((bs.drop 12).take 2)
  let ip := bs.drop 14
  if ety = 0x0800 then
    let h := 4 * ((ip.getD 0 0).toNat % 16)
    if ip.getD 9 0 = 17 then some (beNat ((ip.drop (h + 2)).take 2), ip.drop (h + 8)) else none
  else if ety = 0x86DD then
    if ip.getD 6 0 = 17 then some (beNat ((ip.drop 42).take 2), ip.drop 48) else none
  else none

/-- The IEEE 1588 event message of an Ethernet frame, if it is one (R110, R111): the message from its header on.  The
header layout and the event types 0 to 3 are those of IEEE 1588-2019 (PRESUMED, log 18). -/
def ptpEvent (bs : List Byte) : Option (List Byte) :=
  let bs := if beNat ((bs.drop 12).take 2) = 0x8100 then bs.take 12 ++ bs.drop 16 else bs
  let m := if beNat ((bs.drop 12).take 2) = 0x88F7 then some (bs.drop 14)
    else match udpPayload bs with
      | some (p, m) => if p = 319 ∨ p = 320 then some m else none
      | none => none
  match m with
  | some (b :: r) => if b.toNat % 16 < 4 then some (b :: r) else none
  | _ => none

/-- The egress stamp entry of a message sent at TBM ns `t` (R111, R113). -/
def State.egEntry (s : State) (c t : Nat) (m : List Byte) : EgTs :=
  { seqid := beNat ((m.drop 30).take 2), msgtype := (m.getD 0 0).toNat % 16, domain := (m.getD 4 0).toNat,
    ns := s.stampOut (4 + c) t }

/-- The port may send: link up, no fast retrain, not stopped. -/
def State.cuReady (s : State) (c : Nat) : Bool := !s.stopped && s.cuUp c && !(s.cup c).lr.retrain && !s.cuHalted c

/-- The port may begin a frame: ready, and no PAUSE in force (R276). -/
def State.cuSends (s : State) (c : Nat) : Bool := s.cuReady c && (s.cup c).stopTo == 0

/-- Take the first queued packet that a test accepts out of the egress queues. -/
def takeFirst (p : EgItem → Bool) : List EgItem → Option (EgItem × List EgItem)
  | [] => none
  | x :: l => if p x then some (x, l) else (takeFirst p l).map (fun r => (r.1, x :: r.2))

/-- Port `c` finishes sending its oldest frame, started at TBM ns `t` (R324), before any PAUSE in force arrived (R276); a
lasting error of the frame buffer drops it with source 296 + 16c (R294). -/
def State.portSent (s : State) (c t : Nat) (k : Check) : State :=
  if !s.cuReady c || ((s.cup c).stopTo != 0 && decide ((s.cup c).stopFrom ≤ t)) then s
  else match takeFirst (fun i => i.kind == c) s.hts.egress with
    | none => s
    | some (it, rest) =>
      let s := s.until t
      let s := { s with hts := { s.hts with egress := rest } }.egressFall c 1
      if k = .lasting then s.raise (296 + 16 * c)
      else
        let s := if 5 ≤ s.get (F.CU_STAT_RATE c) then s.lrSend c it.pkt.bytes else s
        match ptpEvent it.pkt.bytes with
        | some m => s.egtsPush c (s.egEntry c t m)
        | none => s

/-! ### Cable diagnostics (R291) -/

/-- A write of `CUn.DIAG_CTL`. -/
def State.diagWrite (s : State) (c : Nat) (v : Word) : State :=
  let busy := (s.cup c).diag.isSome
  let w := (s.word (F.CU_DIAG_CTL_GO c).addr).toNat
  let keep := (v.toNat / 2 ^ 16 % 2 ^ 10) * 2 ^ 16 + bits v.toNat 4 1 * 2 + bits w 5 5 * 32 + bits w 0 0
  let s := s.setWord (F.CU_DIAG_CTL_GO c).addr (BitVec.ofNat 32 keep)
  if !bit v.toNat 0 || busy then s
  else if s.cuMode c ≠ 0 then s.put (F.CU_DIAG_CTL_ERR c) 1
  else
    let s := (s.put (F.CU_DIAG_CTL_ERR c) 0).put (F.CU_DIAG_CTL_GO c) 1
    s.setCup c { s.cup c with diag := some (s.get (F.CU_DIAG_CTL_PAIRS c)) }

/-- Results of the measured pairs, as `DIAG_RES` lays them out. -/
def State.diagDone (s : State) (c : Nat) (res : List Nat) : State :=
  match (s.cup c).diag with
  | none => s
  | some pairs =>
    let s := s.setCup c { s.cup c with diag := none }
    let s := s.put (F.CU_DIAG_CTL_GO c) 0
    forEach (onesOf pairs 4) (fun p s =>
      let v := res.getD p 1 % 2 ^ 23
      let s := s.setWord (F.CU_DIAG_RES_STATE c p).addr (BitVec.ofNat 32 v)
      s.raiseIf (v % 8 != 1 && v % 8 != 6) (294 + 16 * c)) s

end Sys2Proof.Machine
end

