-- ==== Sys2Proof/Machine/Walk.lean ====
section
/-! DEFINITION. The parser's header walk (R297 - R299) and the key fields it fills (R303). -/

namespace Sys2Proof.Machine

/-- What `PRS.CFG` gives the walk (R311). -/
structure WalkCfg where
  innerGre : Bool
  innerVxlan : Bool
  innerIp : Bool
  vxlanEn : Bool
  vxlanPort : Nat
deriving DecidableEq, Repr

/-- The walk of one pass: what it has found so far. -/
structure Walk where
  frame : List Byte := []
  /-- headers taken: frame offset and kind, the row of R297 -/
  hdrs : List (Nat × Nat) := []
  /-- end of the last header taken -/
  last : Nat := 0
  /-- end of the frame, or of the innermost datagram -/
  bound : Nat := 0
  /-- end of the outermost IP datagram -/
  ipEnd : Option Nat := none
  /-- the key still follows the headers -/
  follow : Bool := true
  tun : Nat := 0
  l3 : Nat := 0
  /-- FLAGS -/
  flags : Nat := 0
  /-- tags seen in the described frame -/
  tags : Nat := 0
  vlan : Nat := 0
  vlan2 : Nat := 0
  etype : Nat := 0
  proto : Nat := 0
  dscp : Nat := 0
  src : List Byte := List.replicate 16 0
  dst : List Byte := List.replicate 16 0
  sport : Nat := 0
  dport : Nat := 0
  dmac : List Byte := List.replicate 6 0
  smac : List Byte := List.replicate 6 0
  l3i : Nat := 0xFF
  l4i : Nat := 0xFF
  /-- the present datagram is a fragment; it is IPv6; its extension headers so far -/
  fragd : Bool := false
  in6 : Bool := false
  exts : List Nat := []
  /-- malformed class; 0 while well formed -/
  mal : Nat := 0
deriving DecidableEq, Repr

/-- A header the walk may take next; `t` is the tunnel it stands in: 1 GRE, 2 VXLAN, 3 IP in IP. -/
inductive Next where
  | eth (t : Nat)
  | etype (e : Nat)
  | ip4 (t : Nat)
  | ip6 (t : Nat)
  | proto (p : Nat)
  | vxlan
  | pip
  | wmgt
  | stop
deriving DecidableEq, Repr

/-- The `n` bytes of the frame at `o`, 0 beyond its end. -/
def Walk.b (w : Walk) (o n : Nat) : List Byte :=
  let l := (w.frame.drop o).take n
  l ++ List.replicate (n - l.length) 0

/-- One byte of the frame. -/
def Walk.u8 (w : Walk) (o : Nat) : Nat := (w.frame.getD o 0).toNat

/-- A 16-bit field in network order. -/
def Walk.u16 (w : Walk) (o : Nat) : Nat := 256 * w.u8 o + w.u8 (o + 1)

/-- The lowest class of a list of (condition, class) pairs, 0 for none (R299). -/
def lowestClass (l : List (Bool × Nat)) : Nat :=
  l.foldl (fun m c => if c.1 && (m == 0 || decide (c.2 < m)) then c.2 else m) 0

/-- Take a header of kind `kind` and length `len` at `off` unless a check of it fails (R298, R299). -/
def Walk.take' (w : Walk) (kind off len : Nat) (checks : List (Bool × Nat)) : Bool × Walk :=
  let deep := decide (16 ≤ w.hdrs.length ∨ 512 ≤ off + len - 1)
  let m := lowestClass ((deep, 1) :: checks)
  if m ≠ 0 then (false, { w with mal := m })
  else (true, { w with hdrs := w.hdrs ++ [(off, kind)], last := off + len })

/-- The header would run past the frame or its datagram. -/
def Walk.cut (w : Walk) (off len : Nat) : Bool := decide (w.bound < off + len)

/-- Index of the header just taken. -/
def Walk.idx (w : Walk) : Nat := w.hdrs.length - 1

/-- Entering tunnel `t` (R303): the key follows where its INNER bit is set, and stops otherwise. -/
def Walk.enter (w : Walk) (c : WalkCfg) (t : Nat) : Walk :=
  if t = 0 ∨ w.follow = false then w
  else if (t = 1 ∧ c.innerGre = true) ∨ (t = 2 ∧ c.innerVxlan = true) ∨ (t = 3 ∧ c.innerIp = true) then
    let z16 : List Byte := List.replicate 16 0
    let z6 : List Byte := List.replicate 6 0
    { w with tun := t, l3 := 0, flags := 0, tags := 0, vlan := 0, vlan2 := 0, etype := 0, proto := 0, dscp := 0,
             src := z16, dst := z16, sport := 0, dport := 0, dmac := z6, smac := z6, l3i := 0xFF, l4i := 0xFF }
  else { w with tun := if w.tun = 0 then t else w.tun, follow := false }

/-- Set UNKNOWN (R297). -/
def Walk.unknown (w : Walk) : Walk := { w with flags := setBit w.flags 7 true }

/-- An IPv4 address in IPv4-mapped form (R303). -/
def mapped (a : List Byte) : List Byte := List.replicate 10 0 ++ [0xFF, 0xFF] ++ a

/-- Ones' complement sum of 16-bit words. -/
def onesSum : List Byte → Nat → Nat
  | a :: b :: l, s => let t := s + 256 * a.toNat + b.toNat; onesSum l (t % 65536 + t / 65536)
  | [a], s => let t := s + 256 * a.toNat; t % 65536 + t / 65536
  | [], s => s

/-- Every IPv4 option ends at or before IHL; kinds 0 and 1 are single bytes, as RFC 791 defines them. -/
def optionsOk : Nat → List Byte → Bool
  | 0, _ => true
  | _, [] => true
  | f + 1, t :: l =>
    if t = 0 then true
    else if t = 1 then optionsOk f l
    else match l with
      | [] => false
      | n :: _ => decide (2 ≤ n.toNat) && decide (n.toNat ≤ l.length + 1) && optionsOk f ((t :: l).drop n.toNat)

/-- An Ethernet or IEEE 802.3 header (R297). -/
def Walk.eth (w : Walk) (c : WalkCfg) (t off : Nat) : Walk × Next × Nat :=
  let tl := w.u16 (off + 12)
  let dot3 := decide (tl < 0x600)
  let snap := dot3 && w.b (off + 14) 3 == [0xAA, 0xAA, 0x03]
  let len := if snap then 22 else 14
  let (ok, w) := w.take' (if dot3 then 2 else 1) off len
    [(w.cut off len, 2), (dot3 && decide (w.bound < off + 14 + tl), 2), (bit (w.u8 (off + 6)) 0, 8)]
  if !ok then (w, .stop, off)
  else
    let w := w.enter c t
    let w := if w.follow then { w with dmac := w.b off 6, smac := w.b (off + 6) 6 } else w
    if dot3 && !snap then
      let w := if w.follow then { w with etype := tl, l3 := 6 } else w
      (w.unknown, .stop, off)
    else (w, .etype (if snap then w.u16 (off + 20) else tl), off + len)

/-- An IEEE 802.1Q or 802.1ad tag (R297, R303). -/
def Walk.tag (w : Walk) (off : Nat) : Walk × Next × Nat :=
  let (ok, w) := w.take' 3 off 4 [(w.cut off 4, 2)]
  if !ok then (w, .stop, off)
  else
    let tci := w.u16 off
    let v := 0x8000 + bits tci 15 13 * 0x1000 + tci % 0x1000
    let w := if !w.follow then w
      else { w with vlan := if w.tags = 0 then v else w.vlan, vlan2 := if w.tags = 1 then v else w.vlan2, tags := w.tags + 1 }
    (w, .etype (w.u16 (off + 2)), off + 4)

/-- ARP (R297, R303). -/
def Walk.arp (w : Walk) (off : Nat) : Walk :=
  let (ok, w) := w.take' 7 off 28 [(w.cut off 28, 2)]
  if ok && w.follow then
    { w with l3 := 3, l3i := w.idx, src := mapped (w.b (off + 14) 4), dst := mapped (w.b (off + 24) 4) }
  else w

/-- An IP datagram ends at `e`: the outermost one bounds the payload, each bounds what it carries. -/
def Walk.datagram (w : Walk) (e : Nat) : Walk :=
  { w with ipEnd := some (w.ipEnd.getD e), bound := min w.bound e }

/-- An IPv4 header (R297, R299). -/
def Walk.ip4 (w : Walk) (c : WalkCfg) (t off : Nat) : Walk × Next × Nat :=
  let ihl := w.u8 off % 16
  let len := max 20 (4 * ihl)
  let total := w.u16 (off + 2)
  let frag := w.u16 (off + 6)
  let fo := frag % 0x2000
  let p := w.u8 (off + 9)
  let src := w.b (off + 12) 4
  let s0 := w.u8 (off + 12)
  let (ok, w) := w.take' 4 off len
    [(w.cut off len, 2), (decide (ihl < 5), 2), (decide (total < 4 * ihl), 2), (decide (w.bound < off + total), 2),
     (!optionsOk 40 (w.b (off + 20) (4 * ihl - 20)), 2), (w.u8 off / 16 != 4, 4), (onesSum (w.b off len) 0 != 0xFFFF, 5),
     (p == 6 && fo == 1, 7), (decide (224 ≤ s0 ∧ s0 < 240) || src == [0xFF, 0xFF, 0xFF, 0xFF], 8)]
  if !ok then (w, .stop, off)
  else
    let w := (w.enter c t).datagram (off + total)
    let w := { w with fragd := bit frag 13 || fo != 0, in6 := false, exts := [] }
    let fl := b2n w.fragd + 2 * b2n (fo != 0) + 4 * b2n (decide (5 < ihl)) + 8 * b2n (decide (w.u8 (off + 8) ≤ 1))
    let w := if !w.follow then w
      else { w with l3 := 1, l3i := w.idx, proto := p, dscp := w.u8 (off + 1), flags := fl + setBits w.flags 3 0 0,
                    src := mapped src, dst := mapped (w.b (off + 16) 4) }
    if fo ≠ 0 then (w, .stop, off) else (w, .proto p, off + len)

/-- An IPv6 header (R297, R299). -/
def Walk.ip6 (w : Walk) (c : WalkCfg) (t off : Nat) : Walk × Next × Nat :=
  let plen := w.u16 (off + 4)
  let (ok, w) := w.take' 5 off 40
    [(w.cut off 40, 2), (plen == 0, 2), (decide (w.bound < off + 40 + plen), 2), (w.u8 off / 16 != 6, 4),
     (w.u8 (off + 8) == 0xFF, 8)]
  if !ok then (w, .stop, off)
  else
    let w := (w.enter c t).datagram (off + 40 + plen)
    let w := { w with fragd := false, in6 := true, exts := [] }
    let nh := w.u8 (off + 6)
    let w := if !w.follow then w
      else { w with l3 := 2, l3i := w.idx, proto := nh, dscp := w.u16 off / 16 % 256,
                    flags := setBits w.flags 3 0 (8 * b2n (decide (w.u8 (off + 7) ≤ 1))),
                    src := w.b (off + 8) 16, dst := w.b (off + 24) 16 }
    (w, .proto nh, off + 40)

/-- Protocols of the IPv6 extension headers (R297). -/
def extProtos : List Nat := [0, 43, 44, 51, 60]

/-- An IPv6 extension header of protocol `p` (R297, R299); AH counts in units of 4 bytes, the others of 8. -/
def Walk.ext (w : Walk) (p off : Nat) : Walk × Next × Nat :=
  let len := if p = 44 then 8 else if p = 51 then 4 * (w.u8 (off + 1) + 2) else 8 * (w.u8 (off + 1) + 1)
  let seen := (w.exts.filter (· == p)).length
  let (ok, w) := w.take' 6 off len
    [(w.cut off len, 2), (p == 0 && !w.exts.isEmpty, 6), ((p == 43 || p == 44 || p == 51) && decide (1 ≤ seen), 6),
     (p == 60 && decide (2 ≤ seen), 6)]
  if !ok then (w, .stop, off)
  else
    let fw := if p = 44 then w.u16 (off + 2) else 0
    let fo := fw / 8
    let fr := fw % 2 == 1 || fo != 0
    let nh := w.u8 off
    let w := { w with exts := w.exts ++ [p], fragd := w.fragd || fr }
    let w := if !w.follow then w
      else
        let f := setBit w.flags 2 true
        let f := if fr then setBit f 0 true else f
        { w with proto := nh, flags := if fo ≠ 0 then setBit f 1 true else f }
    if fo ≠ 0 then (w, .stop, off) else (w, .proto nh, off + len)

/-- The checks of an L4 header that a first fragment may be too short to hold whole (R299): FRAG takes the place of
LENGTH there (DEDUCED, log 19). -/
def Walk.l4Checks (w : Walk) (off need len : Nat) (more : List (Bool × Nat)) : List (Bool × Nat) :=
  if w.fragd && decide (0 < need) && w.cut off need then [(true, 7)] else (w.cut off len, 2) :: more

/-- The L4 header, GRE or tunnelled header of protocol `p` (R297, R299). -/
def Walk.proto' (w : Walk) (c : WalkCfg) (p off : Nat) : Walk × Next × Nat :=
  let l4 (kind len : Nat) (checks : List (Bool × Nat)) (sp dp : Nat) : Bool × Walk :=
    let (ok, w) := w.take' kind off len checks
    (ok, if ok && w.follow then { w with l4i := w.idx, sport := sp, dport := dp } else w)
  if p = 6 then
    let d := w.u8 (off + 12) / 16
    let len := max 20 (4 * d)
    let (ok, v) := l4 8 len (w.l4Checks off 20 len [(decide (d < 5), 2)]) (w.u16 off) (w.u16 (off + 2))
    let f := w.u8 (off + 13)
    let v := if ok && v.follow then
        { v with flags := setBits v.flags 6 4 (b2n (bit f 1) + 2 * b2n (bit f 4) + 4 * b2n (bit f 0 || bit f 2)) } else v
    (v, .stop, off)
  else if p = 17 ∨ p = 136 then
    let lenBad := p == 17 && !w.fragd && off + w.u16 (off + 4) != w.bound
    let (ok, v) := l4 9 8 (w.l4Checks off (if p = 17 then 8 else 0) 8 [(lenBad, 2)]) (w.u16 off) (w.u16 (off + 2))
    if ok && c.vxlanEn && w.u16 (off + 2) == c.vxlanPort then (v, .vxlan, off + 8) else (v, .stop, off)
  else if p = 1 ∨ p = 58 then ((l4 10 8 (w.l4Checks off 8 8 []) 0 (w.u16 off)).2, .stop, off)
  else if p = 132 then ((l4 11 12 (w.l4Checks off 0 12 []) (w.u16 off) (w.u16 (off + 2))).2, .stop, off)
  else if p = 50 then ((l4 12 8 (w.l4Checks off 0 8 []) 0 0).2, .stop, off)
  else if p = 47 then
    let ver := w.u8 (off + 1) % 8
    let f := w.u8 off
    let len := if ver = 0 then 4 + 4 * (b2n (bit f 7) + b2n (bit f 5) + b2n (bit f 4)) else 4
    let (ok, v) := w.take' 13 off len [(w.cut off len, 2)]
    if !ok then (v, .stop, off)
    else if ver ≠ 0 then (v.unknown, .stop, off)
    else
      let ty := w.u16 (off + 2)
      if ty = 0x6558 then (v, .eth 1, off + len)
      else if ty = 0x0800 then (v, .ip4 1, off + len)
      else if ty = 0x86DD then (v, .ip6 1, off + len)
      else (v.unknown, .stop, off)
  else if p = 4 then (w, .ip4 3, off)
  else if p = 41 then (w, .ip6 3, off)
  else if w.in6 && extProtos.contains p then w.ext p off
  else (w.unknown, .stop, off)

/-- The header an EtherType names (R297). -/
def Walk.ether (w : Walk) (c : WalkCfg) (e off : Nat) : Walk × Next × Nat :=
  let w := if w.follow then { w with etype := e } else w
  if e = 0x8100 ∨ e = 0x88A8 then w.tag off
  else if e = 0x0800 then w.ip4 c 0 off
  else if e = 0x86DD then w.ip6 c 0 off
  else if e = 0x0806 then (w.arp off, .stop, off)
  else ((if w.follow then { w with l3 := 6 } else w).unknown, .stop, off)

/-- The Pip header (R244, R297). -/
def Walk.pipHdr (w : Walk) : Walk :=
  let fc := w.u8 0
  let len := if bit fc 7 then 12 else 8
  let (ok, w) := w.take' 15 0 len [(w.cut 0 len, 2)]
  if ok then { w with l3 := 4, l3i := 0, proto := fc % 16, src := List.replicate 12 0 ++ w.b 4 4 } else w

/-- The IEEE 802.11 management header (R297, R303). -/
def Walk.wmgtHdr (w : Walk) : Walk :=
  let len := if bit (w.u8 1) 7 then 28 else 24
  let (ok, w) := w.take' 16 0 len [(w.cut 0 len, 2)]
  if ok then { w with l3 := 5, l3i := 0, proto := w.u8 0 / 16, dmac := w.b 4 6, smac := w.b 10 6 } else w

/-- One header of the walk. -/
def Walk.step (w : Walk) (c : WalkCfg) : Next → Nat → Walk × Next × Nat
  | .eth t, off => w.eth c t off
  | .etype e, off => w.ether c e off
  | .ip4 t, off => w.ip4 c t off
  | .ip6 t, off => w.ip6 c t off
  | .proto p, off => w.proto' c p off
  | .vxlan, off =>
    let (ok, w) := w.take' 14 off 8 [(w.cut off 8, 2)]
    if ok then (w, .eth 2, off + 8) else (w, .stop, off)
  | .pip, _ => (w.pipHdr, .stop, 0)
  | .wmgt, _ => (w.wmgtHdr, .stop, 0)
  | .stop, off => (w, .stop, off)

/-- The walk, a header at a time: no walk takes more than 17, and each may need one step to name the next. -/
def Walk.run (c : WalkCfg) : Nat → Walk → Next → Nat → Walk
  | 0, w, _, _ => w
  | _ + 1, w, .stop, _ => w
  | f + 1, w, n, off =>
    let r := w.step c n off
    if r.1.mal ≠ 0 then r.1 else Walk.run c f r.1 r.2.1 r.2.2

/-- Walk a frame from a start kind (R296). -/
def walk (c : WalkCfg) (start : Nat) (frame : List Byte) : Walk :=
  let w : Walk := { frame := frame, bound := frame.length }
  if start = 0 then Walk.run c 40 w (.eth 0) 0
  else if start = 1 then Walk.run c 40 w .wmgt 0
  else if start = 2 then Walk.run c 40 w .pip 0
  else if start = 4 then
    let v := w.u8 0 / 16
    if v = 4 then Walk.run c 40 w (.ip4 0) 0 else if v = 6 then Walk.run c 40 w (.ip6 0) 0 else { w with mal := 4 }
  else w

/-- Offset of the payload's end (R297): the outermost datagram's, or the frame's. -/
def Walk.payEnd (w : Walk) : Nat := w.ipEnd.getD w.frame.length

/-- The payload. -/
def Walk.payload (w : Walk) : List Byte := (w.frame.take w.payEnd).drop w.last

end Sys2Proof.Machine
end

