-- ==== Sys2Proof/Machine/Classify.lean ====
section
/-! DEFINITION. The parser and classifier: pattern search, key, hash, rules, the parse record, and what becomes of a frame
(R295 - R312, R316). -/

namespace Sys2Proof.Machine

/-- `PRS.CFG` as the walk reads it. -/
def State.walkCfg (s : State) : WalkCfg :=
  ⟨s.on F.PRS_CFG_INNER_GRE, s.on F.PRS_CFG_INNER_VXLAN, s.on F.PRS_CFG_INNER_IPIP, s.on F.PRS_CFG_VXLAN_EN,
   s.get F.PRS_CFG_VXLAN_PORT⟩

/-! ### Patterns (R301, R302) -/

/-- An installed pattern: its 18 staged words; a length of 0 is invalid (R311). -/
def State.pat (s : State) (p : Nat) : List Nat := tabGet (fun _ => []) s.prs.pats p

/-- Length, group, NOCASE, start range and bytes of a pattern's words. -/
def patLen (l : List Nat) : Nat := bits (l.getD 16 0) 6 0
/-- GROUP of a pattern. -/
def patGroup (l : List Nat) : Nat := bits (l.getD 16 0) 9 7
/-- NOCASE of a pattern. -/
def patNocase (l : List Nat) : Bool := bit (l.getD 16 0) 10
/-- Bytes of a pattern. -/
def patBytes (l : List Nat) : List Byte := ((l.take 16).flatMap (fun w => natLe w 4)).take (patLen l)

/-- A byte in lower case, for NOCASE. -/
def lower (b : Byte) : Byte := if 0x41 ≤ b.toNat ∧ b.toNat ≤ 0x5A then b + 0x20 else b

/-- The pattern's bytes stand at the head of the text. -/
def headMatches (nocase : Bool) : List Byte → List Byte → Bool
  | [], _ => true
  | _ :: _, [] => false
  | a :: p, b :: t => (if nocase then lower a == lower b else a == b) && headMatches nocase p t

/-- Start offsets at which a pattern matches the text, from offset `i` on, within [lo, hi). -/
def patternAt (nocase : Bool) (p : List Byte) (lo hi : Nat) : Nat → List Byte → List Nat
  | _, [] => []
  | i, b :: t =>
    if lo ≤ i ∧ i < hi ∧ headMatches nocase p (b :: t) = true then i :: patternAt nocase p lo hi (i + 1) t
    else patternAt nocase p lo hi (i + 1) t

/-- Matches of one pattern in a payload: (end offset, pattern, start offset) (R301). -/
def patMatches (n : Nat) (l : List Nat) (text : List Byte) : List (Nat × Nat × Nat) :=
  if patLen l = 0 then []
  else
    let hi := bits (l.getD 17 0) 23 12
    (patternAt (patNocase l) (patBytes l) (bits (l.getD 17 0) 11 0) (if hi = 0 then 2048 else hi) 0 text).map
      (fun s => (s + patLen l, n, s))

/-- All matches in the payload's first 2,048 bytes, numbered by end offset and then by pattern (R302). -/
def State.search' (s : State) (payload : List Byte) : List (Nat × Nat × Nat) :=
  sortBy (fun m => m.1 * 1024 + m.2.1) (s.prs.pats.flatMap (fun e => patMatches e.1 e.2 (payload.take 2048)))

/-- GROUPS of a set of matches. -/
def State.groups (s : State) (l : List (Nat × Nat × Nat)) : Nat := maskOf (l.map (fun m => patGroup (s.pat m.2.1)))

/-! ### Key and hash (R303, R304) -/

/-- The 64-byte classification key. -/
def classKey (p : Packet) (w : Walk) (groups : Nat) : List Byte :=
  [BitVec.ofNat 8 (p.port % 8 + 8 * b2n p.pass2 + 16 * (p.start % 8)), BitVec.ofNat 8 groups] ++ natBe p.srcid 2
    ++ natBe w.vlan 2 ++ natBe w.vlan2 2 ++ natBe w.etype 2
    ++ [BitVec.ofNat 8 (w.l3 + 16 * w.tun), BitVec.ofNat 8 w.proto, BitVec.ofNat 8 w.flags, BitVec.ofNat 8 w.dscp]
    ++ natBe (min 65535 p.bytes.length) 2 ++ w.src ++ w.dst ++ natBe w.sport 2 ++ natBe w.dport 2 ++ w.dmac ++ w.smac

/-- The two endpoints of the flow hash: address and port (R304). -/
def endpoints (p : Packet) (w : Walk) : List Byte × List Byte :=
  let z16 : List Byte := List.replicate 16 0
  let z10 : List Byte := List.replicate 10 0
  if p.start = 3 then (z16 ++ natBe p.srcid 2, z16 ++ natBe p.srcid 2)
  else if w.l3 = 4 then (w.src ++ [0, 0], z16 ++ [0, 0])
  else if w.l3 = 1 ∨ w.l3 = 2 then
    let ports := !bit w.flags 0 && [6, 17, 132, 136].contains w.proto
    (w.src ++ natBe (if ports then w.sport else 0) 2, w.dst ++ natBe (if ports then w.dport else 0) 2)
  else (z10 ++ w.smac ++ natBe w.etype 2, z10 ++ w.dmac ++ natBe w.etype 2)

/-- T of R304: the lower endpoint first. -/
def hashText (p : Packet) (w : Walk) : List Byte :=
  let (a, b) := endpoints p w
  let (lo, hi) := if beNat a ≤ beNat b then (a, b) else (b, a)
  lo.take 16 ++ hi.take 16 ++ lo.drop 16 ++ hi.drop 16 ++ [BitVec.ofNat 8 w.proto, 0] ++ natBe (w.vlan % 0x1000) 2

/-- The symmetric flow hash (R304). -/
def State.flowHash (s : State) (p : Packet) (w : Walk) : Nat := crc32c (s.get F.PRS_HASH_SEED_SEED) (hashText p w)

/-! ### Rules (R306 - R308, R311) -/

/-- A rule of a bank. -/
def State.rule (s : State) (bank i : Nat) : Rule := tabGet (fun _ => {}) s.prs.rules (16384 * bank + i)

/-- Replace a rule. -/
def State.setRule (s : State) (bank i : Nat) (r : Rule) : State :=
  { s with prs := { s.prs with rules := tabSet (fun _ => {}) s.prs.rules (16384 * bank + i) r } }

/-- The number that words hold, lowest first. -/
def wordsNat : List Nat → Nat
  | [] => 0
  | w :: l => w % 2 ^ 32 + 2 ^ 32 * wordsNat l

/-- A rule hits a key, given as a number with key byte 0 lowest (R306). -/
def Rule.hit (r : Rule) (key : Nat) : Bool :=
  let m := wordsNat ((r.words.drop 16).take 16)
  bit (r.words.getD 32 0) 0 && Nat.land key m == Nat.land (wordsNat (r.words.take 16)) m

/-- The lowest-numbered rule of a bank that hits. -/
def State.matchRule (s : State) (bank key : Nat) : Option (Nat × Rule) :=
  (s.prs.rules.find? (fun e => decide (16384 * bank ≤ e.1 ∧ e.1 < 16384 * bank + 16384) && e.2.hit key)).map
    (fun e => (e.1 - 16384 * bank, e.2))

/-- A staged action breaks R306: a reserved LKT, a bit marked 0, or STRIP with another DISP (R311). -/
def badAction (a : List Nat) : Bool :=
  let w0 := a.getD 0 0
  let lkt := bits w0 16 13
  decide (7 ≤ lkt ∧ lkt ≤ 14) || bits w0 31 30 != 0 || bits (a.getD 2 0) 31 16 != 0 || bits (a.getD 3 0) 31 18 != 0
    || (a.drop 4).any (· != 0) || (bits w0 24 21 != 0 && bits w0 2 1 != 3)

/-- The staged rule. -/
def State.ruleStage (s : State) : List Nat := (List.range 40).map (fun k => s.get (F.PRS_RULE_STAGE_WORD k))

/-- GO in `PRS.RULE_UPD` with OP 0 (R306, R308). -/
def State.ruleWrite (s : State) : State :=
  let ws := s.ruleStage
  if badAction (ws.drop 32) then s.put F.PRS_RULE_UPD_ERR 1
  else
    let r : Rule := if ws.all (· == 0) then {} else { words := ws }
    (s.setRule (s.get F.PRS_RULE_UPD_BANK) (s.get F.PRS_RULE_UPD_INDEX) r).put F.PRS_RULE_UPD_ERR 0

/-- GO with OP 1, or with OP 2 that also clears the count (R311). -/
def State.ruleRead (s : State) (clear : Bool) : State :=
  let b := s.get F.PRS_RULE_UPD_BANK
  let i := s.get F.PRS_RULE_UPD_INDEX
  let r := s.rule b i
  let s := forEach (List.range 40) (fun k s => s.put (F.PRS_RULE_STAGE_WORD k) (r.words.getD k 0)) s
  let s := s.put F.PRS_RULE_HITS_HITS r.hits
  if clear then s.setRule b i { r with hits := 0 } else s

/-- SWAP (R308). -/
def State.bankSwap (s : State) : State :=
  (s.put F.PRS_BANK_ACTIVE (1 - s.get F.PRS_BANK_ACTIVE)).addWrap F.PRS_BANK_SWAPS 1

/-- GO in `PRS.PAT_UPD` (R302, R311). -/
def State.patternInstall (s : State) : State :=
  let ws := (List.range 18).map (fun k => s.get (F.PRS_PAT_STAGE_WORD k))
  let w16 := ws.getD 16 0
  if 64 < bits w16 6 0 ∨ bits w16 31 11 ≠ 0 ∨ bits (ws.getD 17 0) 31 24 ≠ 0 then s.put F.PRS_PAT_UPD_ERR 1
  else
    let v := if bits w16 6 0 = 0 then [] else ws
    { s with prs := { s.prs with pats := tabSet (fun _ => []) s.prs.pats (s.get F.PRS_PAT_UPD_PAT) v } }.put F.PRS_PAT_UPD_ERR 0

/-! ### The parse record (R309) -/

/-- The record of a frame that met the rules. -/
def recordOf (p : Packet) (w : Walk) (key : List Byte) (rule hash : Nat) : List Byte :=
  let hs := (w.hdrs.take 16).flatMap (fun h => natLe (h.1 % 512 + 512 * h.2) 2)
  key ++ hs ++ List.replicate (32 - hs.length) 0
    ++ [BitVec.ofNat 8 w.hdrs.length, BitVec.ofNat 8 w.l3i, BitVec.ofNat 8 w.l4i, 0] ++ natLe w.last 2 ++ natLe rule 2
    ++ natLe hash 4 ++ natLe p.pcount 2 ++ natLe (if p.port = 4 then p.info else 0) 2 ++ List.replicate 16 0

/-- The record of a malformed frame: the class and the key fields of the headers walked (R300). -/
def malRecord (key : List Byte) (cls : Nat) : List Byte :=
  key ++ List.replicate 35 0 ++ [BitVec.ofNat 8 cls] ++ List.replicate 28 0

/-! ### Disposition (R300, R306, R307, R423) -/

/-- TC of a frame sent to the host with no program between (R423). -/
def hostTc (w : Walk) : Nat := if bit w.vlan 15 then bits w.vlan 14 12 else 0

/-- Offer a task to its slice: its lookup is submitted with it, or it is held and the parser stalls (R316); a halted
slice's frames are dropped and counted in LOST (R331). -/
def State.offer (s : State) (k : Task) (lk : Option (Nat × List Byte)) : State :=
  if s.sliceHalted k.region then s.bump F.HTS_CNT2_LOST 1
  else match s.createTask .classifier k with
  | some t =>
    match lk with
    | some (tb, key) =>
      { t with ept := { t.ept with lookups := t.ept.lookups ++ [⟨.creation s.hts.nextId 1, tb, key⟩] } }
    | none => t
  | none =>
    ({ s with prs := { s.prs with stalled := some k, stalledKey := lk } }.bump F.HTS_CNT2_PSTALL 1).raiseSec 368

/-- The classifier's task for a packet. -/
def classTask (p : Packet) (tag cls region : Nat) (atomic ordered look slot1 : Bool) : Task :=
  { tag := tag, atomic := atomic, ordered := ordered, cls := cls, region := region, pkt := some p,
    mask := 1 + 2 * b2n slot1 + 4 * b2n p.cstat.isSome, op2 := p.cstat.getD 0, await1 := look }

/-- A malformed frame takes the action of its class (R300). -/
def State.malformed (s : State) (p : Packet) (w : Walk) (cls : Nat) : State :=
  let p := { p with hits := [], pcount := 0, record := malRecord (classKey p w 0) cls }
  let s := (s.bump (F.PRS_MAL_CNT_COUNT cls) 1).raiseSec (328 + cls)
  let act := s.get (F.PRS_MAL_ACT_ACT cls)
  if act = 2 then s.egressPut { kind := 2, target := s.get (F.PRS_MAL_ACT_QP cls), tc := hostTc w, pkt := p }
  else if act = 1 then
    let tag := p.port * 0x10000 + p.srcid
    s.offer (classTask p tag (s.get (F.PRS_MAL_ACT_CLASS cls)) (s.regmap (tag % 256)) false false false false) none
  else s

/-- The lookup key for a rule's LKT (R306, R355); none when no lookup is made. -/
def lookupKey (w : Walk) (lkt : Nat) (srcSide : Bool) (zone epx : Nat) : Option (List Byte) :=
  let swap {α : Type} (a b : α) : α := if srcSide then b else a
  let five (k : Nat) : List Byte :=
    (swap w.src w.dst).drop k ++ (swap w.dst w.src).drop k ++ natBe (swap w.sport w.dport) 2
      ++ natBe (swap w.dport w.sport) 2 ++ [BitVec.ofNat 8 w.proto, 0, 0, 0]
  if lkt = 0 then some (swap w.dmac w.smac ++ natLe zone 2)
  else if lkt = 1 then some (natLe (epx % 0x40000) 4)
  else if lkt = 2 then if w.l3 = 1 then some (five 12) else none
  else if lkt = 3 then if w.l3 = 2 then some (five 0) else none
  else if lkt = 4 then if w.l3 = 1 then some ((swap w.dst w.src).drop 12) else none
  else if lkt = 5 then if w.l3 = 2 then some (swap w.dst w.src) else none
  else some (w.src.drop 12)

/-- The frame left after its first headers are removed, and its start kind (R307). -/
def strip (w : Walk) (n : Nat) : List Byte × Nat :=
  match w.hdrs[n]? with
  | some (off, kind) => (w.frame.drop off, if kind ≤ 2 then 0 else if kind = 4 ∨ kind = 5 then 4 else 3)
  | none => (w.frame.drop w.last, 3)

/-- A well-formed frame meets the rules (R301 - R307). -/
def State.classify (s : State) (p : Packet) (w : Walk) (pat : Bool) : State :=
  let ms := if pat && s.fbit F.PRS_PAT_PORTS_PORTS p.port then s.search' w.payload else []
  let p := { p with hits := (ms.take 64).map (fun m => (m.2.2, m.2.1)), pcount := min 2047 ms.length }
  let key := classKey p w (s.groups ms)
  let h := s.flowHash p w
  let bank := s.get F.PRS_BANK_ACTIVE
  let hit := s.matchRule bank (leNat key)
  let (act, num, s) := match hit with
    | some (i, r) =>
      (r.words.drop 32, i + 0x4000 * bank + 0x8000, s.setRule bank i { r with hits := min 0xFFFFFFFF (r.hits + 1) })
    | none => ((List.range 4).map (fun k => s.get (F.PRS_DEF_ACT_WORD k)), 0x4000 * bank, s.bump F.PRS_CNT_NOHIT 1)
  let p := { p with record := recordOf p w key num h }
  let w0 := act.getD 0 0
  let disp := bits w0 2 1
  if disp = 1 then if hit.isSome then s.bump F.PRS_CNT_RDROP 1 else s
  else if disp = 2 then s.egressPut { kind := 2, target := bits w0 29 25, tc := hostTc w, pkt := p }
  else if disp = 3 then
    if p.pass2 then s.malformed p w 3
    else
      let (bs, st) := strip w (bits w0 24 21)
      { s with recirc := s.recirc ++ [{ p with bytes := bs, start := st, hits := [], pcount := 0 }] }
  else
    let own := p.port * 0x10000 + p.srcid
    let t1 := act.getD 1 0
    let tag := [h, t1, Nat.xor h t1, own].getD (bits w0 12 11) h
    let region := if bit w0 18 then bits w0 20 19 else s.regmap (h / 2 ^ 24)
    let lkt := bits w0 16 13
    let lk := if lkt < 7 then
        (lookupKey w lkt (bit w0 17) (bits (act.getD 2 0) 15 0) (bits (act.getD 3 0) 17 0)).map (fun k => (lkt, k))
      else none
    let k := classTask p tag (bits w0 8 3) (s.liveRegion region) (bit w0 9) (bit w0 10) lk.isSome (decide (lkt < 7))
    s.offer k lk

/-! ### Taking a frame (R295, R307, R312, R325) -/

/-- The parser runs: CORE on, no source at L2, no frame held, not stopped. -/
def State.parserRuns (s : State) : Bool :=
  s.domOn 5 && !s.prsHalted && s.prs.stalled.isNone && !s.stopped

/-- Egress back-pressure holds the frames of port `p` (R325). -/
def State.portHeld (s : State) (p : Nat) : Bool :=
  (List.range 6).any (fun k => s.on (F.HTS_EG_BP_ON k) && s.fbit (F.HTS_EG_BP_SRC k) p)

/-- The next packet the parser takes, and the state without it: a recirculated one first, else the oldest of `port`. -/
def State.takeFrame (s : State) (port : Nat) : Option (Packet × Bool × State) :=
  match s.recirc with
  | p :: l => some (p, true, { s with recirc := l })
  | [] =>
    if s.portHeld port then none
    else match findIdx (fun p => p.port == port) s.prs.input 0 with
      | some (i, p) =>
        let s := { s with prs := { s.prs with input := s.prs.input.eraseIdx i } }
        some (p, false, if port < 2 then s.cuRxLevel port else s)
      | none => none

/-- An internal error drops the frame (R310, R312). -/
def State.parseError (s : State) (src : Nat) : State := (s.bump F.PRS_CNT2_ERR 1).raise src

/-- The parser takes a frame (R295): `buf`, `pat` and `rule` are the checks of the input buffer, the pattern memory and
the rule memory. -/
def State.frameParse (s : State) (port : Nat) (buf pat rule : Check) : State :=
  if !s.parserRuns then s
  else match s.takeFrame port with
    | none => s
    | some (p, second, s) =>
      if buf = .lasting then s.parseError 323
      else
        if second && p.pass2 then s.malformed p { frame := p.bytes } 3
        else
          let s := s.bump F.PRS_PCNT_PASSES 1
          let p := { p with pass2 := second }
          let s := if second then s.bump F.PRS_CNT2_RECIRC 1 else s
          let w := walk s.walkCfg p.start p.bytes
          if w.mal ≠ 0 then s.malformed p w w.mal
          else
            let pats := s.fbit F.PRS_PAT_PORTS_PORTS p.port
            let s := s.raiseIf (decide (pat = .lasting) && pats) 321
            if rule = .lasting then s.parseError 320 else s.classify p w (decide (pat ≠ .lasting))

/-- The held frame is offered again (R316), or dropped when its slice has halted meanwhile (R331). -/
def State.creationRetry (s : State) : State :=
  match s.prs.stalled with
  | none => s
  | some k =>
    let k := { k with region := s.liveRegion k.region }
    if s.sliceHalted k.region then
      { s with prs := { s.prs with stalled := none, stalledKey := none } }.bump F.HTS_CNT2_LOST 1
    else match s.createTask .classifier k with
    | none => s
    | some t =>
      let lk := s.prs.stalledKey
      let t := { t with prs := { t.prs with stalled := none, stalledKey := none } }
      match lk with
      | some (tb, key) =>
        { t with ept := { t.ept with lookups := t.ept.lookups ++ [⟨.creation s.hts.nextId 1, tb, key⟩] } }
      | none => t

end Sys2Proof.Machine
end

