-- ==== Sys2Proof/Machine/Dma.lean ====
section
/-! DEFINITION. MSI-X (R424) and the DMA block (chapter 15): channels, beats, credit, completion, halts, and cache
maintenance for the management cores. -/

namespace Sys2Proof.Machine

/-! ### MSI-X (R417, R424) -/

/-- One vector. -/
def State.vec (s : State) (v : Nat) : MsixVec := tabGet (fun _ => {}) s.hst.msix v

/-- Replace a vector. -/
def State.setVec (s : State) (v : Nat) (x : MsixVec) : State :=
  { s with hst := { s.hst with msix := tabSet (fun _ => {}) s.hst.msix v x } }

/-- Send vector `v`, or set its pending bit while it is masked; nothing is sent while the link is down. -/
def State.msix (s : State) (v : Nat) : State :=
  let x := s.vec v
  if x.masked || !s.on F.HST_LINK_UP then s.setVec v { x with pend := true }
  else s.setVec v { x with sent := x.sent + 1 }

/-- The host unmasks vector `v` with its table entry: a pending message goes. -/
def State.msixUnmask (s : State) (v addr data : Nat) : State :=
  let x := s.vec v
  let s := s.setVec v { x with masked := false, pend := false, addr := addr, data := data }
  if x.pend then s.msix v else s

/-- An event that uses `HST.MISC_VEC` (R424). -/
def State.miscVec (s : State) : State :=
  if s.on F.HST_MISC_VEC_EN then s.msix (s.get F.HST_MISC_VEC_VEC) else s

/-! ### Channels -/

/-- One channel. -/
def State.dch (s : State) (c : Nat) : DmaCh := tabGet (fun _ => {}) s.dma.ch c

/-- Replace a channel. -/
def State.setDch (s : State) (c : Nat) (x : DmaCh) : State :=
  { s with dma := { s.dma with ch := tabSet (fun _ => {}) s.dma.ch c x } }

/-- A class-U source of DMA stands at L2 (R413). -/
def State.dmaHalted (s : State) : Bool := s.halted [529, 530, 532]

/-- Set a channel's bit in `IRQ_DONE` or `IRQ_ERR`, and send its message where it is enabled and goes to the host
(R408). -/
def State.dmaIrq (s : State) (c : Nat) (err : Bool) : State :=
  let f := if err then F.DMAS_IRQ_ERR_CH else F.DMAS_IRQ_DONE_CH
  let e := if err then F.DMAS_IRQ_ERR_EN_CH else F.DMAS_IRQ_DONE_EN_CH
  let s := s.putBit f c true
  let d := s.get (F.DMA_CH_CFG_DEST c)
  if s.fbit e c && (d == 0 || d == 3) then s.msix (s.get (F.DMA_CH_CFG_VEC c)) else s

/-- The interrupt lines to the two management cores (R408). -/
def State.dmaCoreIrq (s : State) (core : Nat) : Bool :=
  (List.range 64).any (fun c => s.get (F.DMA_CH_CFG_DEST c) == core + 1
    && ((s.fbit F.DMAS_IRQ_DONE_CH c && s.fbit F.DMAS_IRQ_DONE_EN_CH c)
      || (s.fbit F.DMAS_IRQ_ERR_CH c && s.fbit F.DMAS_IRQ_ERR_EN_CH c)))

/-- The channel has halted with a CAUSE (R404). -/
def State.dmaHaltNow (s : State) (c cause : Nat) : State :=
  let s := s.setDch c { s.dch c with ph := 0, halting := none, out := [] }
  let s := (((s.put (F.DMA_CH_CTL_RUN c) 0).put (F.DMA_CH_CTL_STOP c) 0).put (F.DMA_CH_CTL_ERR c) 1).put (F.DMA_CH_CTL_CAUSE c) cause
  let s := s.dmaIrq c true
  if cause = 1 then s.raise 529 else if cause = 2 then s.raise 530 else if cause = 3 then s.raise 531
  else if cause = 4 then s.raise 532 else s

/-- The channel halts once the beats it has issued are answered. -/
def State.dmaHalt (s : State) (c cause : Nat) : State :=
  let x := s.dch c
  if x.out.isEmpty then s.dmaHaltNow c cause
  else s.setDch c { x with halting := some (x.halting.getD cause) }

/-- The channel stops at a descriptor boundary (R403). -/
def State.dmaStopped (s : State) (c : Nat) : State :=
  let s := s.setDch c { s.dch c with ph := 0 }
  ((s.put (F.DMA_CH_CTL_RUN c) 0).put (F.DMA_CH_CTL_STOP c) 0).put (F.DMA_CH_CTL_STOPPED c) 1

/-- The chain has ended (R399, R402). -/
def State.dmaEnded (s : State) (c : Nat) : State :=
  let s := s.setDch c { s.dch c with ph := 0 }
  ((s.put (F.DMA_CH_CTL_RUN c) 0).put (F.DMA_CH_CTL_STOP c) 0).put (F.DMA_CH_CTL_DONE c) 1

/-- RUN (R407, R414): from `CH_HEAD`, or from `CH_CUR` after a stop or a halt. -/
def State.dmaRun (s : State) (c : Nat) : State :=
  if s.on (F.DMA_CH_CTL_RUN c) then s
  else
    let resume := s.on (F.DMA_CH_CTL_ERR c) || s.on (F.DMA_CH_CTL_STOPPED c)
    let s := if resume then s else s.put (F.DMA_CH_CUR_PTR c) (s.get (F.DMA_CH_HEAD_PTR c))
    let s := forEach [F.DMA_CH_CTL_STOPPED c, F.DMA_CH_CTL_DONE c, F.DMA_CH_CTL_ERR c, F.DMA_CH_CTL_CAUSE c]
      (fun f s => s.put f 0) s
    (s.setDch c { credit := (s.dch c).credit, ph := 1 }).put (F.DMA_CH_CTL_RUN c) 1

/-- STOP (R403): nothing while the channel does not run; at once while it is about to fetch. -/
def State.dmaStop (s : State) (c : Nat) : State :=
  if !s.on (F.DMA_CH_CTL_RUN c) then s
  else
    let s := s.put (F.DMA_CH_CTL_STOP c) 1
    if (s.dch c).ph = 1 then s.dmaStopped c else s

/-- `n` bytes at `a` lie inside address space `sp`: 0 XM, 1 GM, 2 host. -/
def State.dmaFits (s : State) (sp a n : Nat) : Bool :=
  if sp = 0 then decide (a + n ≤ s.xmMib * 0x100000)
  else if sp = 1 then decide (a + n ≤ Config.granaryBytes)
  else decide (a + n ≤ 2 ^ 64)

/-- Bytes of XM or GM. -/
def State.dmaBytes (s : State) (sp a n : Nat) : List Byte := memBytes (if sp = 0 then s.xm else s.gm) a n

/-- A request leaves for host memory with its attributes. -/
def State.tlp (s : State) (write : Bool) (a : Nat) (ns ro : Bool) : State :=
  { s with hst := { s.hst with tlp := some ⟨write, a, ns, ro⟩ } }

/-- A channel's request to host memory (R412): No-Snoop as `CH_CFG.NS` says, and Relaxed Ordering on its data writes as
`CH_CFG.RO` says (R402). -/
def State.dmaTlp (s : State) (c : Nat) (write data : Bool) (a : Nat) : State :=
  s.tlp write a (s.on (F.DMA_CH_CFG_NS c)) (write && data && s.on (F.DMA_CH_CFG_RO c))

/-- Channel `c` writes bytes to XM, GM or host memory; `data` tells a data write from a status write. -/
def State.dmaPut (s : State) (c : Nat) (data : Bool) (sp a : Nat) (bs : List Byte) : State :=
  if sp = 0 then { s with xm := memPutBytes s.xm a bs }
  else if sp = 1 then { s with gm := memPutBytes s.gm a bs }
  else { s with hostOut := memPutBytes s.hostOut a bs }.dmaTlp c true data a

/-- Space and address of a descriptor pointer (R398). -/
def ptrSpace (p : Nat) : Nat := p % 4
/-- Address of a descriptor pointer. -/
def ptrAddr (p : Nat) : Nat := p / 32 * 32

/-- A fetched descriptor breaks R398 or R399. -/
def State.dmaBadDesc (s : State) (ctl len src dst next : Nat) : Bool :=
  let n := bits len 23 0
  let ss := bits ctl 2 1
  let ds := bits ctl 4 3
  n == 0 || bits len 31 24 != 0 || bits ctl 15 8 != 0 || bits ctl 31 24 != 0 || ds == 3
    || (ss != 3 && !s.dmaFits ss src n) || !s.dmaFits ds dst n
    || (!bit ctl 7 && (ptrSpace next == 3 || bits next 4 2 != 0))

/-- A descriptor is fetched (R399): `ok` whether the fetch, retries included, succeeded, and `host` its bytes when it
lies in host memory. -/
def State.dmaFetch (s : State) (c : Nat) (ok : Bool) (host : List Byte) : State :=
  let x := s.dch c
  if x.ph ≠ 1 ∨ s.domOn 5 = false then s
  else if s.on (F.DMA_CH_CTL_STOP c) then s.dmaStopped c
  else
    let p := s.get (F.DMA_CH_CUR_PTR c)
    let sp := ptrSpace p
    let a := ptrAddr p
    let s := s.put (F.DMA_CH_COUNT_BYTES c) 0
    if sp = 3 ∨ s.dmaFits sp a 32 = false then s.dmaHaltNow c 2
    else if sp = 2 ∧ s.on F.HST_LINK_UP = false then s.dmaHaltNow c 3
    else let s := if sp = 2 then s.dmaTlp c false false a else s
    if !ok || (sp == 0 && s.xmDead) then s.dmaHaltNow c 1
    else
      let d := if sp = 2 then host ++ List.replicate (32 - host.length) 0 else s.dmaBytes sp a 32
      let f (o n : Nat) : Nat := leNat ((d.drop o).take n)
      let ctl := f 0 4
      if !bit ctl 0 then s.dmaEnded c
      else if s.dmaBadDesc ctl (f 4 4) (f 8 8) (f 16 8) (f 24 8) then s.dmaHaltNow c 2
      else
        let x := { x with ph := 2, ctl := ctl, len := bits (f 4 4) 23 0, src := f 8 8, dst := f 16 8, next := f 24 8,
                          out := [], trans := false, halting := none }
        (s.setDch c x).put (F.DMA_CH_COUNT_BYTES c) x.len

/-- Credit of one refill, in quarters of a byte (R401). -/
def State.dmaRefillOf (s : State) (c : Nat) : Nat :=
  (s.get (F.DMA_CH_CFG_SHARE c) + 1) * max 1 (s.get F.DMAS_RATE_REF)

/-- Every µs of TBM each channel's credit is refilled, capped at one refill (R401). -/
def State.dmaRefill (s : State) : State :=
  if !s.domOn 5 then s
  else
    let s := s.until ((s.dma.refill + 1) * 1000)
    let s := { s with dma := { s.dma with refill := s.now / 1000 } }
    forEach (List.range 64) (fun c s =>
      let r : Int := s.dmaRefillOf c
      s.setDch c { s.dch c with credit := min r ((s.dch c).credit + r) }) s

/-- Size of the channel's next beat: within one 64-byte line of the destination (R399). -/
def State.beatSize (s : State) (c : Nat) : Nat :=
  let x := s.dch c
  let left := s.get (F.DMA_CH_COUNT_BYTES c)
  min left (64 - (x.dst + (x.len - left)) % 64)

/-- The channel has a beat to issue, and the credit for it. -/
def State.beatReady (s : State) (c : Nat) : Bool :=
  let x := s.dch c
  x.ph == 2 && x.halting.isNone && s.get (F.DMA_CH_COUNT_BYTES c) != 0 && decide ((4 * s.beatSize c : Int) ≤ x.credit)

/-- The channel that issues next (R401): the highest PRI, round-robin within it. -/
def State.nextBeat (s : State) : Option Nat :=
  match [3, 2, 1, 0].find? (fun p => (List.range 64).any (fun c => s.get (F.DMA_CH_CFG_PRI c) == p && s.beatReady c)) with
  | none => none
  | some p =>
    let last := tabGet (fun _ => 63) s.dma.turn p
    ((List.range 64).map (fun i => (last + 1 + i) % 64)).find? (fun c => s.get (F.DMA_CH_CFG_PRI c) == p && s.beatReady c)

/-- Source or destination of the channel's descriptor is host memory. -/
def DmaCh.usesHost (x : DmaCh) : Bool := bits x.ctl 2 1 == 2 || bits x.ctl 4 3 == 2

/-- A beat is issued (R401, R406, R413). -/
def State.dmaIssue (s : State) : State :=
  if !s.domOn 5 then s
  else match s.nextBeat with
    | none => s
    | some c =>
      let x := s.dch c
      let n := s.beatSize c
      let left := s.get (F.DMA_CH_COUNT_BYTES c)
      let s := { s with dma := { s.dma with turn := tabSet (fun _ => 63) s.dma.turn (s.get (F.DMA_CH_CFG_PRI c)) c } }
      if s.dmaHalted then s.dmaHalt c 5
      else if x.usesHost && !s.on F.HST_LINK_UP then s.dmaHalt c 3
      else
        let s := s.setDch c { x with out := x.out ++ [(x.len - left, n, 0)], credit := x.credit - 4 * n }
        let s := if bits x.ctl 2 1 = 2 then s.dmaTlp c false true (x.src + (x.len - left)) else s
        s.put (F.DMA_CH_COUNT_BYTES c) (left - n)

/-- The bytes a beat moves: `off`, `n` in the descriptor; `host` what host memory returned. -/
def State.beatBytes (s : State) (x : DmaCh) (off n : Nat) (host : List Byte) : List Byte :=
  let sp := bits x.ctl 2 1
  if sp = 3 then (List.range n).map (fun i => BitVec.ofNat 8 (x.src / 256 ^ ((off + i) % 8)))
  else if sp = 2 then host.take n ++ List.replicate (n - host.length) 0
  else s.dmaBytes sp (x.src + off) n

/-- What follows when a channel's issued beats are answered: a halt that waited, or the status write-back. -/
def State.dmaSettle (s : State) (c : Nat) : State :=
  let x := s.dch c
  if x.ph ≠ 2 ∨ x.out ≠ [] then s
  else match x.halting with
    | some cause => s.dmaHaltNow c cause
    | none => if s.get (F.DMA_CH_COUNT_BYTES c) = 0 then s.setDch c { x with ph := 3 } else s

/-- XM with the dirty bytes of the management cores' caches that a test accepts (R409). -/
def State.overlay (s : State) (dirty : List (Nat × Byte)) (p : Nat → Bool) : State :=
  { s with xm := (dirty.filter (fun e => p e.1)).foldl (fun m e => memPut m e.1 e.2) s.xm }

/-- What a beat of descriptor `x` reads from (R409): a COH = 1 read sees the caches' dirty lines. -/
def State.cohSource (s : State) (x : DmaCh) (dirty : List (Nat × Byte)) : State :=
  if bit x.ctl 5 && bits x.ctl 2 1 == 0 then s.overlay dirty (fun _ => true) else s

/-- What a beat of descriptor `x` writes to (R409): before a COH = 1 write the dirty bytes of its line are written back. -/
def State.cohTarget (s : State) (x : DmaCh) (off : Nat) (dirty : List (Nat × Byte)) : State :=
  if bit x.ctl 5 && bits x.ctl 4 3 == 0 then s.overlay dirty (fun a => a / 64 == (x.dst + off) / 64) else s

/-- The response of issued beat `i` of channel `c` (R404 - R406): `ok`; `host` the bytes read from host memory; `dirty` the
dirty bytes the coherent port found in the management cores' caches for the lines of a COH = 1 beat (R409). -/
def State.dmaResponse (s : State) (c i : Nat) (ok : Bool) (host : List Byte) (dirty : List (Nat × Byte)) : State :=
  let x := s.dch c
  match x.out[i]? with
  | none => s
  | some (off, n, tries) =>
    let down := x.usesHost && !s.on F.HST_LINK_UP
    let dead := s.xmDead && (bits x.ctl 2 1 == 0 || bits x.ctl 4 3 == 0)
    if ok && !down && !dead then
      let bs := (s.cohSource x dirty).beatBytes x off n host
      let s := (s.cohTarget x off dirty).dmaPut c true (bits x.ctl 4 3) (x.dst + off) bs
      let s := s.setDch c { x with out := x.out.eraseIdx i, trans := x.trans || decide (0 < tries) }
      let s := if 0 < tries then (s.bump (F.DMA_CH_CNT_TRANS c) 1).raise 528 else s
      s.dmaSettle c
    else if !down && x.halting.isNone && decide (tries < s.get (F.DMA_CH_CFG_RETRY c)) then
      s.setDch c { x with out := setAt x.out i (off, n, tries + 1), credit := x.credit - 4 * n }
    else
      let s := s.setDch c { x with out := x.out.eraseIdx i, halting := some (x.halting.getD (if down then 3 else 1)) }
      s.dmaSettle c

/-- The status write-back is answered (R402, R413): `ok` with its retries. -/
def State.dmaWriteback (s : State) (c : Nat) (ok : Bool) : State :=
  let x := s.dch c
  if x.ph ≠ 3 then s
  else
    let p := s.get (F.DMA_CH_CUR_PTR c)
    let sp := ptrSpace p
    if !ok || (sp == 2 && !s.on F.HST_LINK_UP) || (sp == 0 && s.xmDead) then s.dmaHaltNow c 4
    else
      let ctl := setBits (setBit x.ctl 0 false) 23 16 (b2n x.trans)
      let s := (s.dmaPut c false sp (ptrAddr p) (natLe ctl 4)).bump (F.DMA_CH_CNT_DESCS c) 1
      let s := if bit x.ctl 6 then s.dmaIrq c false else s
      if bit x.ctl 7 then s.dmaEnded c
      else
        let s := s.put (F.DMA_CH_CUR_PTR c) x.next
        if s.on (F.DMA_CH_CTL_STOP c) then s.dmaStopped c else s.setDch c { x with ph := 1 }

/-- The channel moves bytes to or from host memory, or is about to fetch a descriptor from it. -/
def State.dmaAtHost (s : State) (c : Nat) : Bool :=
  let x := s.dch c
  (x.ph == 2 && x.usesHost) || (x.ph == 1 && ptrSpace (s.get (F.DMA_CH_CUR_PTR c)) == 2)

/-- Every beat and descriptor fetch to or from host memory fails at once: the link went down (R406, R425). -/
def State.dmaLinkDown (s : State) : State :=
  forEach (List.range 64) (fun c s => if s.dmaAtHost c then s.dmaHaltNow c 3 else s) s

/-- The block stops for an entry into a lower mode (R413): every channel is stopped under R403. -/
def State.dmaStopAll (s : State) : State := forEach (List.range 64) (fun c s => s.dmaStop c) s

/-- No channel runs. -/
def State.dmaQuiet (s : State) : Bool := (List.range 64).all (fun c => !s.on (F.DMA_CH_CTL_RUN c))

/-! ### Cache maintenance (R411) -/

/-- GO in `DMA.MCC_CTL` with an OP (3 is taken as 2): operations run one at a time in window order. -/
def State.mccStart (s : State) (who op : Nat) : State :=
  if s.on (F.DMAS_MCC_CTL_BUSY who) then s
  else
    let a := s.get (F.DMAS_MCC_ADDR_ADDR who) / 64 * 64
    let n := min (s.get (F.DMAS_MCC_LEN_LEN who)) (s.xmMib * 0x100000 - a)
    if n = 0 then s
    else
      let s := (s.put (F.DMAS_MCC_CTL_BUSY who) 1).put (F.DMAS_MCC_CTL_GO who) 1
      { s with dma := { s.dma with mcc := s.dma.mcc ++ [⟨who, min 2 op, a, n⟩] } }

/-- The running operation ends: `dirty` are the dirty bytes the two caches held in its range.  A clean writes them to XM;
an invalidate alone drops them. -/
def State.mccDone (s : State) (dirty : List (Nat × Byte)) : State :=
  match s.dma.mcc with
  | [] => s
  | o :: l =>
    let lo := o.addr / 64 * 64
    let hi := (o.addr + o.len + 63) / 64 * 64
    let mine := dirty.filter (fun e => decide (lo ≤ e.1 ∧ e.1 < hi ∧ e.1 < s.xmMib * 0x100000))
    let s := if o.op = 1 then s else { s with xm := mine.foldl (fun m e => memPut m e.1 e.2) s.xm }
    let s := { s with dma := { s.dma with mcc := l } }
    (s.put (F.DMAS_MCC_CTL_BUSY o.who) 0).put (F.DMAS_MCC_CTL_GO o.who) 0

end Sys2Proof.Machine
end

