-- ==== Sys2Proof/Machine/HostIf.lean ====
section
/-! DEFINITION. The host queue pairs and link events (chapter 16). -/

namespace Sys2Proof.Machine

/-- One queue pair. -/
def State.qp (s : State) (q : Nat) : Qp := tabGet (fun _ => {}) s.hst.qps q

/-- Replace a queue pair. -/
def State.setQp (s : State) (q : Nat) (x : Qp) : State :=
  { s with hst := { s.hst with qps := tabSet (fun _ => {}) s.hst.qps q x } }

/-- A ring's log size: outside 6 to 12 taken as the nearer limit (R427). -/
def ringLog (v : Nat) : Nat := min 12 (max 6 v)

/-- Entries of queue pair `q`'s SQ. -/
def State.sqSize (s : State) (q : Nat) : Nat := 2 ^ ringLog (s.get (F.HSTQ_QP_CFG_SQ_LOG q))

/-- Entries of queue pair `q`'s CQ. -/
def State.cqSize (s : State) (q : Nat) : Nat := 2 ^ ringLog (s.get (F.HSTQ_QP_CFG_CQ_LOG q))

/-- Queue pair `q` is enabled and not halted. -/
def State.qpOn (s : State) (q : Nat) : Bool := s.on (F.HSTQ_QP_CTL_EN q) && !s.on (F.HSTQ_QP_CTL_HALTED q)

/-- The queue pair may fetch and fill: running, the link up, and a free CQ entry (R423). -/
def State.qpRuns (s : State) (q : Nat) : Bool :=
  s.domOn 2 && s.qpOn q && s.on F.HST_LINK_UP && decide ((s.qp q).cqUsed < s.cqSize q)

/-- Halt a queue pair: 1 host memory, 2 link, 3 L2. -/
def State.qpHalt (s : State) (q cause : Nat) : State :=
  (s.put (F.HSTQ_QP_CTL_HALTED q) 1).put (F.HSTQ_QP_CTL_CAUSE q) cause

/-- Frames queued for the host that a test accepts are dropped and counted (R423, R425). -/
def State.dropHostFrames (s : State) (q : Nat) : State :=
  let n := (s.queued 2 q).length
  let s := (s.freeQueued (fun i => i.kind == 2 && i.target == q)).bump (F.HSTQ_QP_CNT2_RXDROP q) n
  if n = 0 then s else s.raiseSec 564

/-! ### Completions and interrupts (R422, R424) -/

/-- The queue pair's vector is sent, and its count of entries starts again. -/
def State.qpInterrupt (s : State) (q : Nat) : State :=
  (s.setQp q { s.qp q with coal := 0, coalAt := 0 }).msix (s.get (F.HSTQ_QP_CFG_VEC q))

/-- The vector is due: COAL_N entries, or COAL_US of 0 (R424, R427). -/
def State.qpCoalesce (s : State) (q : Nat) : State :=
  let x := s.qp q
  if s.on (F.HSTQ_QP_CFG_IRQ_EN q) && x.coal != 0
      && (decide (max 1 (s.get (F.HSTQ_QP_COAL_N q)) ≤ x.coal) || s.get (F.HSTQ_QP_COAL_US q) == 0) then s.qpInterrupt q
  else s

/-- A request of queue pair `q` to host memory (R420): No-Snoop as `QP_CFG.NS` says, and Relaxed Ordering on data writes
as `QP_CFG.RO` says. -/
def State.qpTlp (s : State) (q : Nat) (write data : Bool) (a : Nat) : State :=
  s.tlp write a (s.on (F.HSTQ_QP_CFG_NS q)) (write && data && s.on (F.HSTQ_QP_CFG_RO q))

/-- Write a CQ entry (R422). -/
def State.cqWrite (s : State) (q tag seq len status : Nat) (rx : Bool) (tc stamp : Nat) : State :=
  let x := s.qp q
  let t := s.get (F.HSTQ_QP_IDX_CQTAIL q)
  let info := b2n x.phase + 2 * b2n rx + 4 * (tc % 8)
  let e := natLe tag 2 ++ natLe seq 2 ++ natLe len 2 ++ natLe status 1 ++ natLe info 1 ++ natLe stamp 8
  let a := s.get (F.HSTQ_QP_CQBASE_ADDR q) / 4096 * 4096 + 16 * t
  let last := decide (t + 1 = s.cqSize q)
  let x := { x with cqUsed := x.cqUsed + 1, phase := if last then !x.phase else x.phase, coal := x.coal + 1,
                    coalAt := if x.coal = 0 then s.now else x.coalAt }
  let s := { s with hostOut := memPutBytes s.hostOut a e }.qpTlp q true false a
  let s := (s.setQp q x).put (F.HSTQ_QP_IDX_CQTAIL q) (if last then 0 else t + 1)
  s.qpCoalesce q

/-- COAL_US after the first entry (R424). -/
def State.qpCoalTimeout (s : State) (q : Nat) : State :=
  let x := s.qp q
  if s.on (F.HSTQ_QP_CFG_IRQ_EN q) && x.coal != 0 then
    (s.until (x.coalAt + 1000 * s.get (F.HSTQ_QP_COAL_US q))).qpInterrupt q
  else s

/-! ### Doorbells (R418, R419, R422) -/

/-- The host writes the SQ tail doorbell at TBM ns `t`: the descriptors up to it are posted with that stamp. -/
def State.sqDoorbell (s : State) (q tail t : Nat) : State :=
  if !s.domOn 2 || !s.qpOn q then s
  else
    let s := s.until t
    let x := s.qp q
    let n := s.sqSize q
    let k := (tail % n + n - x.sqTail) % n
    if k = 0 then s
    else s.setQp q { x with sqTail := tail % n, posts := x.posts ++ [(k, s.stampIn 6 s.now)] }

/-- The host writes the CQ head doorbell: entries up to it are released. -/
def State.cqDoorbell (s : State) (q head : Nat) : State :=
  if !s.domOn 2 || !s.qpOn q then s
  else
    let x := s.qp q
    let n := s.cqSize q
    let k := (head % n + n - x.cqHead) % n
    s.setQp q { x with cqHead := head % n, cqUsed := x.cqUsed - k }

/-! ### Descriptors (R419 - R421) -/

/-- The parser takes frames from the host (R326, R420). -/
def State.hostTaken (s : State) : Bool := s.parserRuns && !s.portHeld 2

/-- The oldest posted descriptor is consumed: the head moves on. -/
def State.sqConsume (s : State) (q : Nat) : State :=
  let x := s.qp q
  let posts := match x.posts with
    | (k, t) :: l => if k ≤ 1 then l else (k - 1, t) :: l
    | [] => []
  let h := s.get (F.HSTQ_QP_IDX_SQHEAD q)
  (s.setQp q { x with posts := posts }).put (F.HSTQ_QP_IDX_SQHEAD q) (if h + 1 = s.sqSize q then 0 else h + 1)

/-- A host access of queue pair `q` (R425): good on retry raises source 560; a failure halts it and leaves the
descriptor posted. -/
def State.hostAccess (s : State) (q : Nat) (k : Check) (go : State → State) : State :=
  match k with
  | .good => go s
  | .corrected => go (s.raise 560)
  | .lasting => (s.qpHalt q 1).raise 561

/-- What the SEQ check says of a number (R421): 0 accepted, 1 DUP, 2 STALE; and the record after it. -/
def seqCheck (x : Qp) (seq : Nat) : Nat × Qp :=
  if x.seen = 0 then (0, { x with h := seq, seen := 1 })
  else
    let d := signed 16 (seq + 0x10000 - x.h)
    if 0 < d then (0, { x with h := seq, seen := (x.seen * 2 ^ d.toNat + 1) % 2 ^ 256 })
    else if -256 < d then
      let i := (-d).toNat
      if bit x.seen i then (1, x) else (0, { x with seen := setBit x.seen i true })
    else (2, x)

/-- A descriptor breaks R419. -/
def badSqDesc (kind : Nat) (d : SqDesc) : Bool :=
  let len := d.len.toNat
  d.ctl.toNat % 4 == 3 || bits d.ctl.toNat 31 3 != 0 || bits len 31 14 != 0 || d.zero1 != 0 || d.zero2 != 0
    || (kind == 0 && (len == 0 || decide (9600 < len))) || (kind == 1 && decide (len < 64 ∨ 9600 < len))

/-- A descriptor is fetched (R419 - R421, R425): `k` is the check of its fetch; `body` what an accepted one does. -/
def State.sqFetch (s : State) (q kind : Nat) (d : SqDesc) (k : Check) (body : State → Nat → State) : State :=
  if !s.qpRuns q || !s.hostTaken || (s.qp q).posts.isEmpty then s
  else
    let stamp := match (s.qp q).posts with | (_, t) :: _ => t | [] => 0
    let cpl (s : State) (st : Nat) : State := s.cqWrite q d.tag.toNat d.seq.toNat 0 st false 0 stamp
    (s.qpTlp q false false (s.get (F.HSTQ_QP_SQBASE_ADDR q) / 4096 * 4096 + 32 * s.get (F.HSTQ_QP_IDX_SQHEAD q))).hostAccess q k (fun s =>
      if badSqDesc kind d then cpl ((s.sqConsume q).bump (F.HSTQ_QP_CNT2_BAD q) 1) 3
      else if kind = 2 then s.sqConsume q
      else
        let (v, x) := seqCheck (s.qp q) d.seq.toNat
        if v = 1 then cpl (((s.sqConsume q).bump (F.HSTQ_QP_CNT_DUP q) 1).raiseSec 562) 1
        else if v = 2 then cpl (((s.sqConsume q).bump (F.HSTQ_QP_CNT_STALE q) 1).raiseSec 562) 2
        else body (s.setQp q x) stamp)

/-- SEND (R420, R422): its buffer is read (check `kb`, `data` the bytes read) and presented to the parser; the device's
own memory failing gives MEMERR. -/
def State.hostSend (s : State) (q : Nat) (d : SqDesc) (data : List Byte) (k kb : Check) : State :=
  let before := s.qp q
  s.sqFetch q 0 d k (fun s stamp =>
    let s := s.qpTlp q false true d.addr.toNat
    match kb with
    | .lasting => ((s.setQp q before).qpHalt q 1).raise 561
    | _ =>
      let s := if kb = .corrected then s.raise 560 else s
      let s := s.sqConsume q
      if s.xmDead then s.cqWrite q d.tag.toNat d.seq.toNat 0 4 false 0 stamp
      else
        let n := d.len.toNat
        let bs := data.take n ++ List.replicate (n - data.length) 0
        let p : Packet := { bytes := bs, port := 2, srcid := q, stamp := stamp, ref := s.prs.nextRef,
                            start := if s.fbit F.PRS_HOST_RAW_QP q then 3 else 0 }
        let s := { s with prs := { s.prs with input := s.prs.input ++ [p], nextRef := s.prs.nextRef + 1 } }
        if bit d.ctl.toNat 2 then s.cqWrite q d.tag.toNat d.seq.toNat 0 0 false 0 stamp else s)

/-- BUF (R420): it joins the free list in ring order. -/
def State.hostBuf (s : State) (q : Nat) (d : SqDesc) (k : Check) : State :=
  s.sqFetch q 1 d k (fun s _ =>
    let s := s.sqConsume q
    let b : HostBuf := ⟨d.tag.toNat, d.seq.toNat, d.len.toNat, d.addr.toNat⟩
    s.setQp q { s.qp q with bufs := (s.qp q).bufs ++ [b] })

/-- NOP (R420). -/
def State.hostNop (s : State) (q : Nat) (d : SqDesc) (k : Check) : State := s.sqFetch q 2 d k (fun s _ => s)

/-! ### Received frames (R423) -/

/-- The frame the receive queue serves next: the highest TC, in emit order within it. -/
def State.nextRx (s : State) (q : Nat) : Option EgItem := minBy (fun i => 7 - i.tc % 8) (s.queued 2 q)

/-- A frame fills the oldest BUF and its CQ entry is written (R422, R423); a frame longer than the BUF is dropped. -/
def State.hostRx (s : State) (q : Nat) (k : Check) : State :=
  if !s.qpRuns q then s
  else match s.nextRx q, (s.qp q).bufs with
    | some it, b :: bufs =>
      let take (s : State) : State :=
        match takeFirst (fun i => i == it) s.hts.egress with
        | some (_, rest) => ({ s with hts := { s.hts with egress := rest } } : State).egressFall 2 1
        | none => s
      let n := it.pkt.bytes.length
      if b.len < n then ((take s).bump (F.HSTQ_QP_CNT2_RXDROP q) 1).raiseSec 564
      else s.hostAccess q k (fun s =>
        let s := take s
        let s := { s with hostOut := memPutBytes s.hostOut b.addr it.pkt.bytes }.qpTlp q true true b.addr
        let s := s.setQp q { s.qp q with bufs := bufs }
        s.cqWrite q b.tag b.seq n 0 true it.tc it.pkt.stamp)
    | _, _ => s

/-! ### Enabling, resets and link events (R425) -/

/-- A queue pair is disabled: its listed buffers and queued frames are dropped and counted. -/
def State.qpDisable (s : State) (q : Nat) : State :=
  let n := (s.qp q).bufs.length
  let s := ((s.setQp q {}).bump (F.HSTQ_QP_CNT2_RXDROP q) n).dropHostFrames q
  forEach [F.HSTQ_QP_CTL_EN q, F.HSTQ_QP_CTL_HALTED q, F.HSTQ_QP_CTL_CAUSE q] (fun f s => s.put f 0) s

/-- A write of `QP_CTL` (R425): EN 1 restarts both rings at index 0 with an empty SEQ record; ignored in Limp.  While a class-U
source of HST stands at L2 the queue pair is halted as it is enabled (R428). -/
def State.qpCtlWrite (s : State) (q : Nat) (v : Word) : State :=
  let en := bit v.toNat 0
  if s.on F.HST_LINK_LIMP || en == s.on (F.HSTQ_QP_CTL_EN q) then s
  else if !en then s.qpDisable q
  else
    let s := (s.setQp q {}).put (F.HSTQ_QP_CTL_EN q) 1
    let s := forEach [F.HSTQ_QP_CTL_HALTED q, F.HSTQ_QP_CTL_CAUSE q, F.HSTQ_QP_IDX_SQHEAD q, F.HSTQ_QP_IDX_CQTAIL q]
      (fun f s => s.put f 0) s
    if s.halted [561, 563, 566] then s.qpHalt q 3 else s

/-- A write of `QP_CFG` (R427): the log sizes hold while EN is 1. -/
def State.qpCfgWrite (s : State) (q : Nat) (v : Word) : State :=
  let a := (F.HSTQ_QP_CFG_NS q).addr
  let w := v.toNat % 2 ^ 18
  let w := if s.on (F.HSTQ_QP_CTL_EN q) then setBits w 7 0 (bits (s.word a).toNat 7 0) else w
  (s.setWord a (BitVec.ofNat 32 w)).qpCoalesce q

/-- Function Level Reset (R425): queue pairs disabled, host DMA halted, the MSI-X table cleared, source 568; the HST
registers return to their reset values, the link's excepted. -/
def State.hostFlr (s : State) : State :=
  let s := forEach (List.range 32) (fun q s => s.qpDisable q) s
  let s := s.dmaLinkDown
  let link := s.word F.HST_LINK_SPEED.addr
  let keep (e : Nat × Word) : Bool :=
    !(decide (0xD00000 ≤ e.1 % 2 ^ 32 ∧ e.1 % 2 ^ 32 < 0xD10000))
  let counts := s.regs.filter (fun e => !keep e && decide ((e.1 % 2 ^ 32 - 0xD01000) % 0x40 = 0x2C ∧ 0xD01000 ≤ e.1 % 2 ^ 32))
  let s := { s with regs := s.regs.filter keep }
  let s := forEach counts (fun e s => s.setWord e.1 e.2) s
  let s := s.setWord F.HST_LINK_SPEED.addr link
  { s with hst := { s.hst with msix := [] } }.raise 568

/-- Link down, hot reset or surprise removal (R425). -/
def State.hostLinkDown (s : State) : State :=
  if !s.on F.HST_LINK_UP then s
  else
    let s := forEach [F.HST_LINK_UP, F.HST_LINK_SPEED, F.HST_LINK_WIDTH] (fun f s => s.put f 0) s
    let s := forEach (List.range 32) (fun q s => if s.qpOn q then s.qpHalt q 2 else s) s
    let s := forEach (List.range 32) (fun q s => s.dropHostFrames q) s
    s.dmaLinkDown.raise 563

/-- The link is up (R417, R425): `speed` 1 - 4, `width` 1, 2 or 4; in Limp 2.5 GT/s x1. -/
def State.hostLinkUp (s : State) (speed width : Nat) : State :=
  if !s.domOn 2 then s
  else
    let limp := s.on F.HST_LINK_LIMP
    ((s.put F.HST_LINK_UP 1).put F.HST_LINK_SPEED (if limp then 1 else speed)).put F.HST_LINK_WIDTH (if limp then 1 else width)

/-- A class-U source of HST stands at L2 (R428): every queue pair halts with CAUSE 3. -/
def State.hostL2 (s : State) : State :=
  forEach (List.range 32) (fun q s => if s.qpOn q then s.qpHalt q 3 else s) s

/-- The source is acknowledged: queue pairs halted by it go on. -/
def State.hostL2End (s : State) : State :=
  if s.halted [561, 563, 566] then s
  else forEach (List.range 32) (fun q s =>
    if s.on (F.HSTQ_QP_CTL_HALTED q) && s.get (F.HSTQ_QP_CTL_CAUSE q) == 3 then
      (s.put (F.HSTQ_QP_CTL_HALTED q) 0).put (F.HSTQ_QP_CTL_CAUSE q) 0
    else s) s

/-- Limp (R425): queue pairs are disabled and the link retrains at 2.5 GT/s x1. -/
def State.hostLimp (s : State) : State :=
  let s := forEach (List.range 32) (fun q s => s.qpDisable q) s
  let s := s.put F.HST_LINK_LIMP 1
  if s.on F.HST_LINK_UP then (s.put F.HST_LINK_SPEED 1).put F.HST_LINK_WIDTH 1 else s

/-- The PCIe link reports an AER error (R428). -/
def State.pcieError (s : State) (uncorrectable : Bool) : State :=
  if !s.domOn 2 then s else if uncorrectable then s.raise 566 else s.raiseSec 565

end Sys2Proof.Machine
end

