-- ==== Sys2Proof/Machine/Federation.lean ====
section
/-! DEFINITION. The Hawald fabric (chapter 17): messages and their check values, sequence numbers, delivery and the send
table, heartbeats and routes, quorum and Island, remote access (R426, R443). -/

namespace Sys2Proof.Machine

/-- One millisecond in nanoseconds. -/
def ms : Nat := 1000000

/-- A link slot. -/
def State.fslot (s : State) (k : Nat) : FedSlot := tabGet (fun _ => {}) s.fed.slots k

/-- Replace a link slot. -/
def State.setFslot (s : State) (k : Nat) (x : FedSlot) : State :=
  { s with fed := { s.fed with slots := tabSet (fun _ => {}) s.fed.slots k x } }

/-- This device's ID. -/
def State.fedId (s : State) : Nat := s.get F.FED_ID_ID
/-- The anchor's ID. -/
def State.fedAnchor (s : State) : Nat := s.get F.FED_ID_ANCHOR
/-- Membership state (R444). -/
def State.fedState (s : State) : Nat := s.get F.FED_STAT_STATE
/-- A class-U source of FED stands at L2: DATA, RACC and firmware messages stop (R454). -/
def State.fedHalted (s : State) : Bool := s.halted [578, 587]
/-- Retransmission period in ns. -/
def State.fedRto (s : State) : Nat := max 1 (s.get F.FED_TIMING_RTO) * ms
/-- Slots that are UP (R429). -/
def State.fedUp (s : State) : List Nat := (List.range 8).filter (fun k => s.on (F.FEDS_LINK_STAT_UP k))
/-- The commands of the fabric record what they send. -/
def State.fedBegin (s : State) : State := { s with fed := { s.fed with out := [] } }

/-! ### Messages (R431, R433) -/

/-- The 32 header bytes with a given HOPS. -/
def FedMsgHeader (m : FedMsg) (hops : Nat) : List Byte :=
  [m.ver, m.type, m.flags, BitVec.ofNat 8 hops, BitVec.ofNat 8 m.src.toNat, m.dst] ++ natLe m.payload.length 2
  ++ natLe m.seq.toNat 4 ++ natLe m.incarn.toNat 4 ++ natLe m.epoch.toNat 4 ++ natLe m.tbn.toNat 8
  ++ [BitVec.ofNat 8 m.tc.toNat, 0, 0, 0]

/-- The whole message. -/
def fedBytes (m : FedMsg) : List Byte := FedMsgHeader m m.hops.toNat ++ m.payload ++ m.mic

/-- The message a frame's payload holds, if it holds a whole one. -/
def fedOfBytes (b : List Byte) : Option FedMsg :=
  let at' (i n : Nat) : Nat := leNat ((b.drop i).take n)
  let len := at' 6 2
  if b.length < 40 + len then none
  else some {
    ver := BitVec.ofNat 8 (at' 0 1), type := BitVec.ofNat 8 (at' 1 1), flags := BitVec.ofNat 8 (at' 2 1),
    hops := BitVec.ofNat 8 (at' 3 1), src := BitVec.ofNat 6 (at' 4 1), dst := BitVec.ofNat 8 (at' 5 1),
    seq := BitVec.ofNat 32 (at' 8 4), incarn := BitVec.ofNat 32 (at' 12 4), epoch := BitVec.ofNat 32 (at' 16 4),
    tbn := BitVec.ofNat 64 (at' 20 8), tc := BitVec.ofNat 3 (at' 28 1), payload := (b.drop 32).take len,
    mic := (b.drop (32 + len)).take 8 }

/-- Flag bits (R431). -/
def fRel : Nat := 1
/-- WRAP. -/
def fWrap : Nat := 2
/-- OPEN. -/
def fOpen : Nat := 4

/-- The bit `f` of a message's FLAGS. -/
def fedFlag (m : FedMsg) (f : Nat) : Bool := bit (m.flags.toNat / f) 0

/-- The 12-byte nonce of a wrapped message (R433). -/
def fedNonce (m : FedMsg) : List Byte :=
  natLe m.src.toNat 1 ++ natLe m.incarn.toNat 4 ++ natLe m.seq.toNat 4 ++ [0, 0, 0]

/-- Seal a message (R433, R434): OPEN with MIC 0 while the MAC slot is not loaded, for the three types that allow it; CMAC,
or GCMP under WRAP; none when the slots give no check value. -/
def State.fedSeal (s : State) (m : FedMsg) : Option FedMsg :=
  let slot := s.get F.FED_KEY_MAC
  if !(s.keySlot slot).loaded then
    if m.type = 0 ∨ m.type = 16 ∨ m.type = 17 then
      some { m with flags := BitVec.ofNat 8 (setBit (setBit m.flags.toNat 2 true) 1 false), mic := List.replicate 8 0 }
    else none
  else if fedFlag m fWrap then
    let w := s.get F.FED_KEY_WRAP
    match s.slotRefusal 0 w useFabric with
    | some _ => none
    | none =>
      let key := keyBytes (s.keySlot w).type (s.keySlot w).key
      let ct := gcmText key (nums (fedNonce m)) (nums m.payload)
      let tag := gcmTag key (nums (fedNonce m)) (nums (FedMsgHeader m 0)) ct
      some { m with payload := byteList ct, mic := (byteList tag).take 8 }
  else
    let r := s.engineCmac slot useFabric (FedMsgHeader m 0 ++ m.payload)
    if r.1 = 0 then some { m with mic := r.2.take 8 } else none

/-- Check a message at its destination (R433, R434): its plaintext, or none when it fails. -/
def State.fedCheck (s : State) (m : FedMsg) : Option (List Byte) :=
  if fedFlag m fOpen then (if m.type = 0 ∨ m.type = 16 ∨ m.type = 17 then some m.payload else none)
  else if fedFlag m fWrap then
    let w := s.get F.FED_KEY_WRAP
    match s.slotRefusal 1 w useFabric with
    | some _ => none
    | none =>
      let key := keyBytes (s.keySlot w).type (s.keySlot w).key
      let tag := gcmTag key (nums (fedNonce m)) (nums (FedMsgHeader m 0)) (nums m.payload)
      if (byteList tag).take 8 = m.mic then some (byteList (gcmText key (nums (fedNonce m)) (nums m.payload))) else none
  else
    let r := s.engineCmac (s.get F.FED_KEY_MAC) useFabric (FedMsgHeader m 0 ++ m.payload)
    if r.1 = 0 ∧ r.2.take 8 = m.mic then some m.payload else none

/-- Make and number a message of this device (R431, R435); none, and no number used, when it cannot be sealed. -/
def State.fedMake (s : State) (type flags dst tc : Nat) (payload : List Byte) : Option (FedMsg × State) :=
  let m : FedMsg := {
    ver := 1, type := BitVec.ofNat 8 type,
    flags := BitVec.ofNat 8 (flags + 8 * s.get F.TIME_TBN_CTL_LOCKED), hops := 15, src := BitVec.ofNat 6 s.fedId,
    dst := BitVec.ofNat 8 dst, seq := BitVec.ofNat 32 s.fed.seq, incarn := BitVec.ofNat 32 (s.get F.FED_INCARN_INCARN),
    epoch := s.word F.EPT_EPOCH_NUM.addr, tbn := BitVec.ofNat 64 (s.tbn / 2 ^ 32), tc := BitVec.ofNat 3 tc,
    payload := payload, mic := [] }
  match s.fedSeal m with
  | none => none
  | some m =>
    let s := { s with fed := { s.fed with seq := (s.fed.seq + 1) % 2 ^ 32 } }
    if s.fed.seq = 0 then
      let s := { s with fed := { s.fed with rnum := [] } }
      let inc := s.get F.FED_INCARN_INCARN
      some (m, s.put F.FED_INCARN_INCARN (inc / 65536 * 65536 + (inc + 1) % 65536))
    else some (m, s)

/-! ### Links and routes (R430, R439, R440) -/

/-- A message dropped for want of a route, of HOPS, or of room on its link (R430, R440). -/
def State.fedNoRoute (s : State) : State := (s.bump F.FED_CNT2_NOROUTE 1).raiseSec 584

/-- Slot `k` can carry what the device sends now: the copper link is up; a Wi-Fi link's frames are kept at its station's
queues (R16), so only the reset of the radio die ends its heartbeats (R15). -/
def State.fedCarries (s : State) (k : Nat) : Bool := decide (2 ≤ k) || s.cuUp k

/-- A message leaves on slot `k`: a copper link that is up sends it at once; a Wi-Fi link queues it to the station on TID 7,
or on the TID of a DATA message's TC (R430). -/
def State.fedPut (s : State) (k : Nat) (m : FedMsg) : State :=
  let len := (fedBytes m).length
  let room := if k < 2 then decide (len + 18 ≤ s.cuMaxLen k) else decide (len + 8 ≤ 2304)
  if s.stopped || !s.fedCarries k then s
  else if !room then s.bump F.FED_CNT2_NOROUTE 1
  else
    let s := { s with fed := { s.fed with out := s.fed.out ++ [(k, m)] } }
    if k < 2 then s
    else
      let st := s.get (F.FEDS_LINK_CFG_STA k)
      let n := ([0, 1, 2].find? (fun n => s.linkPresent n st)).getD 0
      let own := s.get (F.MX_BSS_ADDR_ADDR n (s.linkBss n st))
      let frame := natLe (s.get F.FED_LLADDR_ADDR) 6 ++ natLe own 6 ++ natBe (s.get F.FED_ETYPE_ETYPE) 2 ++ fedBytes m
      s.egressPut { kind := 4, target := st, tc := if m.type = 4 then m.tc.toNat else 7,
                    pkt := { bytes := frame, stamp := s.now } }

/-- The slot toward a device (R439). -/
def State.fedRoute (s : State) (d : Nat) : Option Nat :=
  if d < 64 ∧ d ≠ s.fedId ∧ s.get (F.FED_ROUTE_HOPS d) < 15 then some (s.get (F.FED_ROUTE_LINK d)) else none

/-- Send a message on the present route toward a device, or on every UP slot but `from'` for 0xFF. -/
def State.fedSend (s : State) (d from' : Nat) (m : FedMsg) : State :=
  if d = 0xFF then forEach (s.fedUp.filter (· != from')) (fun k s => s.fedPut k m) s
  else match s.fedRoute d with
    | some k => s.fedPut k m
    | none => s.fedNoRoute

/-- The least hops to a device over the UP slots, with its slot (R439). -/
def State.fedBest (s : State) (d : Nat) : Nat × Nat :=
  if d = s.fedId then (0, 0)
  else match minBy (fun k => (s.fslot k).adv.getD d 15) s.fedUp with
    | none => (15, 0)
    | some k =>
      let h := (s.fslot k).adv.getD d 15 + 1
      if h < 15 then (h, k) else (15, 0)

/-- Recompute every route (R439). -/
def State.fedRoutes (s : State) : State :=
  forEach (List.range 64) (fun d t =>
    let b := s.fedBest d
    (t.put (F.FED_ROUTE_HOPS d) b.1).put (F.FED_ROUTE_LINK d) b.2) s

/-! ### Quorum (R448) and the status block (R444) -/

/-- The members reached, this device included (R448), less those that have left (R447). -/
def State.fedReach (s : State) : Nat :=
  maskOf (s.fedId :: (onesOf (s.get F.FED_MEMBERS_SET) 64).filter
    (fun d => decide (s.get (F.FED_ROUTE_HOPS d) < 15) && !s.fed.left.contains d))

/-- A device that is the peer of an OPEN link and is reached over it counts in no quorum (R434). -/
def State.fedOpenPeer (s : State) (d : Nat) : Bool :=
  s.fedUp.any (fun k => s.on (F.FEDS_LINK_STAT_OPEN k) && s.get (F.FEDS_LINK_STAT_PEER k) == d
    && s.get (F.FED_ROUTE_LINK d) == k)

/-- The weight of a device. -/
def State.fedVote (s : State) (d : Nat) : Nat := bits (s.get (F.FED_VOTE_W (d / 8))) (4 * (d % 8) + 3) (4 * (d % 8))

/-- The quorum rule (R448). -/
def State.fedQuorum (s : State) : Bool :=
  let mem := onesOf (s.get F.FED_MEMBERS_SET) 64
  let reach := fun d => s.fbit F.FED_REACH_SET d && !s.fedOpenPeer d
  let wt := (mem.map s.fedVote).sum
  let wv := ((mem.filter reach).map s.fedVote).sum
  let l := mem.find? (s.fbit F.FED_ELIG_SET)
  decide (wt = 0) || decide (wt < 2 * wv) || (decide (2 * wv = wt) && (l.map reach).getD false)

/-- Evaluate quorum in MEMBER and ISLAND; a result that differs starts or keeps its SETTLE, one that agrees ends it. -/
def State.fedEvaluate (s : State) : State :=
  if s.fedState < 3 then s
  else
    let q := s.fedQuorum
    if q = s.on F.FED_STAT_QUORUM then
      { s with fed := { s.fed with pend := none } }.put F.FED_STAT_VIEW_PEND 0
    else match s.fed.pend with
      | some _ => s
      | none => { s with fed := { s.fed with pend := some (q, s.now) } }.put F.FED_STAT_VIEW_PEND 1

/-- What the block at `FED.SYS_GM` follows. -/
def State.fedShown (s : State) : Nat × Nat × Nat × Nat × Nat :=
  (s.fedState, s.get F.FED_STAT_QUORUM, s.get F.FED_REACH_SET, s.get F.FED_EPOCH_SYS_NUM,
   (s.word F.EPT_EPOCH_NUM.addr).toNat)

/-- The 64-byte block (R444). -/
def State.fedBlock (s : State) : List Byte :=
  natLe s.fedState 1 ++ natLe (s.get F.FED_STAT_QUORUM) 1 ++ [0, 0] ++ natLe (s.get F.FED_EPOCH_SYS_NUM) 4
  ++ natLe (s.word F.EPT_EPOCH_NUM.addr).toNat 4 ++ [0, 0, 0, 0] ++ natLe (s.get F.FED_REACH_SET) 8
  ++ natLe (s.get F.FED_MEMBERS_SET) 8 ++ natLe s.now 8 ++ List.replicate 24 0

/-- After a change of state, quorum, REACH or epoch since `old`, the block is written (R444). -/
def State.fedNote (old s : State) : State :=
  if old.fedShown = s.fedShown then s
  else { s with gm := memPutBytes s.gm (s.get F.FED_SYS_GM_ADDR / 64 * 64) s.fedBlock }

/-- Routes, REACH and quorum follow a change of the links or of the configuration (R439, R448). -/
def State.fedRefresh (s : State) : State :=
  let t := s.fedRoutes
  let r := t.fedReach
  ((t.put F.FED_REACH_SET r).put F.FED_STAT_NREACH (popCount r 64)).fedEvaluate

/-- A fabric link is lost (R429). -/
def State.fedLoss (s : State) (k : Nat) : State :=
  if !s.on (F.FEDS_LINK_STAT_UP k) then s
  else
    let s := ((s.put (F.FEDS_LINK_STAT_UP k) 0).bump (F.FEDS_LINK_STAT_LOSSES k) 1).raise 576
    State.fedNote s (s.setFslot k { s.fslot k with adv := [] }).fedRefresh

/-- Every slot in a list is lost. -/
def State.fedLossAll (s : State) (l : List Nat) : State := forEach l (fun k s => s.fedLoss k) s

/-! ### The mailbox (R432, R437) -/

/-- Entries of the ring, 0 taken as 1 (R453). -/
def State.mboxSize (s : State) : Nat := max 1 (s.get F.FED_MBOX_SIZE_N)

/-- The mailbox holds no further entry: the write position would meet the read position, or the ring leaves the Granary. -/
def State.mboxFull (s : State) : Bool :=
  let n := s.mboxSize
  (s.get F.FED_MBOX_WR_PTR + 1) % n == s.get F.FED_MBOX_RD_PTR % n
    || decide (Config.granaryBytes < s.get F.FED_MBOX_BASE_ADDR / 2048 * 2048 + 2048 * n)

/-- A mailbox drop (R437). -/
def State.mboxDrop (s : State) : State := (s.bump F.FED_CNT4_MBOXOVF 1).raise 585

/-- Write one entry of a mailbox that is not full: header, payload, zeros, stamp. -/
def State.mboxPut (s : State) (header payload : List Byte) (t : Nat) : State :=
  let i := s.get F.FED_MBOX_WR_PTR % s.mboxSize
  let a := s.get F.FED_MBOX_BASE_ADDR / 2048 * 2048 + 2048 * i
  let e := header ++ payload ++ List.replicate (2008 - payload.length) 0 ++ natLe t 8
  { s with gm := memPutBytes s.gm a e }.put F.FED_MBOX_WR_PTR ((i + 1) % s.mboxSize)

/-- A local entry, types 21 and 22 (R432). -/
def State.mboxLocal (s : State) (type : Nat) : State :=
  if s.mboxFull then s.mboxDrop
  else
    let m : FedMsg := {
      ver := 1, type := BitVec.ofNat 8 type, flags := BitVec.ofNat 8 (8 * s.get F.TIME_TBN_CTL_LOCKED),
      hops := 15, src := BitVec.ofNat 6 s.fedId, dst := BitVec.ofNat 8 s.fedId, seq := 0,
      incarn := BitVec.ofNat 32 (s.get F.FED_INCARN_INCARN), epoch := s.word F.EPT_EPOCH_NUM.addr,
      tbn := BitVec.ofNat 64 (s.tbn / 2 ^ 32), tc := 0, payload := [], mic := [] }
    s.mboxPut (FedMsgHeader m 15) [] s.now

/-! ### Island (R448) -/

/-- A new membership state, with SERVE as the table of R444 gives it. -/
def State.setFedState (s : State) (st : Nat) : State :=
  (s.put F.FED_STAT_STATE st).put F.FED_STAT_SERVE (if st = 1 ∨ st = 2 then 0 else 1)

/-- Quorum is lost: the device enters Island (R448); the mode changes where it is one that an island runs (R19).  DESIGN
CHOICE (log 20): an entry in progress completes (R20), so that the mode stays what it is until then. -/
def State.islandEnter (s : State) : State :=
  let s := s.setFedState 4
  let s := if 6 ≤ s.mode ∧ s.mode ≤ 8 ∧ s.ctl.entry.isNone then s.put F.TOP_MODE_CUR 9 else s
  ((s.put F.EPT_EPOCH_ISLAND 1).raise 582).mboxLocal 21

/-- The device leaves Island for membership state `st`. -/
def State.islandLeave (s : State) (st : Nat) : State :=
  let s := s.setFedState st
  let s := if s.mode = 9 then s.put F.TOP_MODE_CUR (s.get F.TOP_MODE_BASE) else s
  (s.put F.EPT_EPOCH_ISLAND 0).mboxLocal 22

/-- QUORUM_SETTLE: a differing result has held for SETTLE and takes effect. -/
def State.quorumSettle (s : State) : State :=
  match s.fed.pend with
  | none => s
  | some (q, t) =>
    let s := s.fedBegin.until (t + max 1 (s.get F.FED_TIMING_SETTLE) * 10 * ms)
    let u := { s with fed := { s.fed with pend := none } }.put F.FED_STAT_VIEW_PEND 0
    let u := u.put F.FED_STAT_QUORUM (b2n q)
    let u := if !q && u.fedState == 3 then u.islandEnter
      else if q && u.fedState == 4 then (u.islandLeave 3).raise 583
      else u
    State.fedNote s u

/-! ### Sending (R436) -/

/-- The message enters the send table. -/
def State.relPut (s : State) (who : Option Nat) (m : FedMsg) : State :=
  { s with fed := { s.fed with rel := s.fed.rel ++ [{ who := who, msg := m, due := s.now + s.fedRto }] } }

/-- The device sends a message of its own: REL ones need room in the send table; nothing leaves without a check value. -/
def State.fedOwn (s : State) (type dst : Nat) (rel : Bool) (payload : List Byte) : State :=
  if rel && decide (256 ≤ s.fed.rel.length) then s
  else match s.fedMake type (b2n rel) dst 0 payload with
    | none => s
    | some (m, s) => (if rel then s.relPut none m else s).fedSend dst 8 m

/-- Report of a pending source, or of its rise to L2 or L3, to the anchor (R451, R480). -/
def State.fedFault (s : State) (src cls level count tbm : Nat) : State :=
  if s.fedState = 0 ∨ s.fedId = s.fedAnchor then s
  else s.fedOwn 20 s.fedAnchor true (natLe src 2 ++ natLe cls 1 ++ natLe level 1 ++ natLe count 4 ++ natLe tbm 8)

/-- The parent-lost report (R227, R432): held until some fabric link is up. -/
def State.fedNotice (s : State) : State :=
  if !s.air.bh.report || s.fedUp.isEmpty || s.fedState == 0 then s
  else
    let s := { s with air := { s.air with bh := { s.air.bh with report := false } } }
    s.fedOwn 19 s.fedAnchor true ([1, BitVec.ofNat 8 (s.get F.MXA_BH_CFG_RADIO), BitVec.ofNat 8 (s.get F.MXA_BH_CTL_CUR)]
      ++ natLe (s.tbn / 2 ^ 32) 8)

/-- The gathered acknowledgements of one sender leave (R436). -/
def State.fedAckOut (s : State) (a : FedAcks) : State :=
  let s := { s with fed := { s.fed with acks := s.fed.acks.filter (fun b => b.src != a.src) } }
  match s.fedMake 1 0 a.src 0 (natLe a.seqs.length 1 ++ [0, 0, 0] ++ a.seqs.flatMap (fun n => natLe n 4)) with
  | none => s
  | some (m, s) => s.fedSend a.src 8 m

/-- An accepted or duplicate REL message is to be acknowledged (R436). -/
def State.fedAckAdd (s : State) (src seq : Nat) : State :=
  let a := (s.fed.acks.find? (fun b => b.src == src)).getD ⟨src, [], s.now⟩
  let a := { a with seqs := a.seqs ++ [seq] }
  let s := { s with fed := { s.fed with acks := s.fed.acks.filter (fun b => b.src != src) ++ [a] } }
  if 16 ≤ a.seqs.length then s.fedAckOut a else s

/-- ACK_GATHER: 1 ms after the first number gathered for a sender. -/
def State.ackGather (s : State) (src : Nat) : State :=
  match s.fed.acks.find? (fun b => b.src == src) with
  | none => s
  | some a => (s.fedBegin.until (a.at' + ms)).fedAckOut a

/-- STATUS of the requester whose GO sent a message, while that is its last GO. -/
def State.relStatus (s : State) (e : FedRel) (st : Nat) : State :=
  match e.who with
  | none => s
  | some w => if s.get (F.FED_TX_SEQ_SEQ w) = e.msg.seq.toNat then s.put (F.FED_TX_CTL_STATUS w) st else s

/-- A received ACK clears the messages it names (R436). -/
def State.fedAcked (s : State) (src : Nat) (p : List Byte) : State :=
  let n := leNat (p.take 1)
  let seqs := (List.range n).map (fun i => leNat ((p.drop (4 + 4 * i)).take 4))
  let hit (e : FedRel) : Bool := seqs.contains e.msg.seq.toNat && (e.msg.dst.toNat == src || e.msg.dst == 0xFF)
  let gone := s.fed.rel.filter hit
  let s := { s with fed := { s.fed with rel := s.fed.rel.filter (fun e => !hit e) } }
  forEach gone (fun e s => s.relStatus e 0) s

/-- REL_RESEND: the retransmission time of the message numbered `seq`. -/
def State.relResend (s : State) (seq : Nat) : State :=
  match s.fed.rel.find? (fun e => e.msg.seq.toNat == seq) with
  | none => s
  | some e =>
    let s := s.fedBegin.until e.due
    let others := s.fed.rel.filter (fun x => x.msg.seq.toNat != seq)
    if s.get F.FED_TIMING_RETRIES ≤ e.tries then
      (({ s with fed := { s.fed with rel := others } }.relStatus e 3).bump F.FED_CNT3_RETX 1).raise 581
    else
      let again := s.fed.rel.map (fun x =>
        if x.msg.seq.toNat == seq then { x with tries := x.tries + 1, due := e.due + s.fedRto } else x)
      { s with fed := { s.fed with rel := again } }.fedSend e.msg.dst.toNat 8 e.msg

/-- The types `FED.TX_CTL` sends. -/
def txType (t : Nat) : Bool := (decide (16 ≤ t) && decide (t ≤ 20)) || decide (32 ≤ t)

/-- FABRIC_SEND: GO in `FED.TX_CTL` of requester `who`, its fields written (R436, R453); `deliver` is what a message to
this device itself does. -/
def State.fabricSend (s : State) (who : Nat) (deliver : State → FedMsg → State) : State :=
  let s := s.fedBegin
  let type := s.get (F.FED_TX_CTL_TYPE who)
  let len := s.get (F.FED_TX_CTL_LEN who)
  let rel := s.on (F.FED_TX_CTL_REL who)
  let src := s.get (F.FED_TX_SRC_ADDR who)
  let dst := if s.on (F.FED_TX_CTL_ALL who) then 0xFF else s.get (F.FED_TX_CTL_DST who)
  let status (s : State) (v : Nat) : State := s.put (F.FED_TX_CTL_STATUS who) v
  if !txType type || decide (2008 < len) || s.fedState == 0 || s.fedHalted
      || decide (Config.granaryBytes < src + len) then status s 5
  else if dst ≠ 0xFF ∧ dst ≠ s.fedId ∧ (s.fedRoute dst).isNone then status s 2
  else if rel && decide (256 ≤ s.fed.rel.length) then status s 4
  else match s.fedMake type (b2n rel + 2 * s.get (F.FED_TX_CTL_WRAP who)) dst 0 (memBytes s.gm src len) with
    | none => status s 5
    | some (m, s) =>
      let s := s.put (F.FED_TX_SEQ_SEQ who) m.seq.toNat
      if dst = s.fedId then status (deliver s { m with payload := memBytes s.gm src len }) 0
      else
        let s := if rel then status (s.relPut (some who) m) 1 else status s 0
        s.fedSend dst 8 m

/-! ### Remote access (R426, R443) -/

/-- How an access of the host is carried out: operation (0 read, 1 write), byte offset, data; the refusal code, what was
read, and the state. -/
abbrev Access := State → Nat → Nat → Word → Nat × Nat × State

/-- A remote access runs or has ended: BUSY, and GO with it (R4, R426). -/
def State.raBusy (s : State) (b : Bool) : State := (s.put F.HST_RA_CTL_BUSY (b2n b)).put F.HST_RA_CTL_GO (b2n b)

/-- GO in `HST.RA_CTL` on the anchor, its fields written. -/
def State.raGo (s : State) (acc : Access) : State :=
  let d := s.get F.HST_RA_DEV_DEV
  let op := s.get F.HST_RA_CTL_OP
  let a := s.get F.HST_RA_ADDR_ADDR
  let v := s.get F.HST_RA_DATA_DATA
  if s.on F.HST_RA_CTL_BUSY then s
  else if d = s.fedId then
    let (st, r, t) := acc (s.raBusy true) op (4 * a) (BitVec.ofNat 32 v)
    let t := (t.raBusy false).put F.HST_RA_CTL_STATUS (if st = 0 then 0 else 3)
    if op = 0 ∧ st = 0 then t.put F.HST_RA_DATA_DATA r else t
  else if s.fedState < 3 || !s.fbit F.FED_REACH_SET d || (s.fedRoute d).isNone then s.put F.HST_RA_CTL_STATUS 2
  else
    let s := s.fedBegin
    let n := tabGet (fun _ => 0) s.fed.rnum d
    let s := { s with hst := { s.hst with raAt := s.now, raDev := d, raNum := n, raOp := decide (op = 1) } }.raBusy true
    if s.fedHalted || decide (256 ≤ s.fed.rel.length) then s
    else match s.fedMake 2 1 d 0 (natLe n 4 ++ natLe op 1 ++ [0, 0, 0] ++ natLe a 4 ++ natLe v 4) with
      | none => s
      | some (m, s) =>
        let s := { s with fed := { s.fed with rnum := tabSet (fun _ => 0) s.fed.rnum d ((n + 1) % 2 ^ 32) } }
        (s.relPut none m).fedSend d 8 m

/-- RA_TIMEOUT: no reply within RA_TO. -/
def State.raTimeout (s : State) : State :=
  if !s.on F.HST_RA_CTL_BUSY then s
  else
    let s := s.until (s.hst.raAt + max 1 (s.get F.HST_RA_CTL_RA_TO) * ms)
    (s.raBusy false).put F.HST_RA_CTL_STATUS 1

/-- A received RREP completes the access it answers; any other is dropped. -/
def State.rrep (s : State) (src : Nat) (p : List Byte) : State :=
  let n := leNat (p.take 4)
  if !s.on F.HST_RA_CTL_BUSY || src != s.hst.raDev || n != s.hst.raNum then s
  else
    let st := leNat ((p.drop 4).take 1)
    let s := (s.raBusy false).put F.HST_RA_CTL_STATUS (if st = 0 then 0 else 3)
    if st = 0 ∧ !s.hst.raOp then s.put F.HST_RA_DATA_DATA (leNat ((p.drop 8).take 4)) else s

/-- A sender's remote accesses. -/
def State.racc (s : State) (src : Nat) : FedRacc := tabGet (fun _ => {}) s.fed.racc src

/-- Replace a sender's remote accesses. -/
def State.setRacc (s : State) (src : Nat) (r : FedRacc) : State :=
  { s with fed := { s.fed with racc := tabSet (fun _ => {}) s.fed.racc src r } }

/-- A reply leaves (R443). -/
def State.raccReply (s : State) (src : Nat) (r : Nat × Nat × Nat) : State :=
  match s.fedMake 3 0 src 0 (natLe r.1 4 ++ natLe r.2.1 1 ++ [0, 0, 0] ++ natLe r.2.2 4) with
  | none => s
  | some (m, s) => s.fedSend src 8 m

/-- Apply the held accesses that are next in order (R443). -/
def State.raccRun (s : State) (acc : Access) (src : Nat) : Nat → State
  | 0 => s
  | n + 1 =>
    let r := s.racc src
    match r.held.find? (fun a => a.rnum == r.next) with
    | none => s
    | some a =>
      let (st, d, t) := acc s a.op (4 * a.addr) (BitVec.ofNat 32 a.data)
      let rep := (a.rnum, (if st = 0 then 0 else 3), d)
      let r := t.racc src
      let t := t.setRacc src { r with next := (a.rnum + 1) % 2 ^ 32, held := r.held.filter (fun x => x.rnum != a.rnum),
                                      replies := (rep :: r.replies).take 16 }
      (t.raccReply src rep).raccRun acc src n

/-- An accepted RACC (R443); a new incarnation of the sender counts its accesses from 0. -/
def State.raccArrive (s : State) (acc : Access) (src inc : Nat) (p : List Byte) : State :=
  let r := s.racc src
  let r : FedRacc := if r.inc = inc then r else { inc := inc }
  let a : FedAcc := ⟨leNat (p.take 4), leNat ((p.drop 4).take 1), leNat ((p.drop 8).take 4), leNat ((p.drop 12).take 4),
    s.now⟩
  if a.rnum < r.next || 1 < a.op then s.setRacc src r
  else (s.setRacc src { r with held := r.held ++ [a] }).raccRun acc src (r.held.length + 1)

/-- RACC_GAP_TIMEOUT: the oldest access held for a gap has waited RTO x (RETRIES + 1) ms; the gap is skipped. -/
def State.raccGap (s : State) (acc : Access) (src : Nat) : State :=
  let r := s.racc src
  match minBy (fun a => a.at') r.held, minBy (fun a => a.rnum) r.held with
  | some o, some a =>
    let s := s.fedBegin.until (o.at' + s.fedRto * (s.get F.FED_TIMING_RETRIES + 1))
    ((s.setRacc src { r with next := a.rnum }).raise 588).raccRun acc src r.held.length
  | _, _ => s

/-- The reply to a duplicate RACC is sent again, while it is kept (R435, R443). -/
def State.raccAgain (s : State) (src : Nat) (p : List Byte) : State :=
  match (s.racc src).replies.find? (fun r => r.1 == leNat (p.take 4)) with
  | some r => s.raccReply src r
  | none => s

/-! ### Heartbeats (R438, R441) -/

/-- The time port of a slot: 4 and 5 copper, else the radio that holds the station's link (R113). -/
def State.fedPort (s : State) (k : Nat) : Nat :=
  if k < 2 then 4 + k else ([0, 1, 2].find? (fun n => s.linkPresent n (s.get (F.FEDS_LINK_CFG_STA k)))).getD 0

/-- The 4-bit hops of a reach vector as bytes, two devices a byte. -/
def reachBytes (h : Nat → Nat) : List Byte := (List.range 32).map (fun i => BitVec.ofNat 8 (h (2 * i) + 16 * h (2 * i + 1)))

/-- What this device advertises for device `d` on slot `k` (R439). -/
def State.fedAdvert (s : State) (k d : Nat) : Nat :=
  if d = s.fedId then 0
  else match s.fedRoute d with
    | none => 15
    | some j => if j = k then 15 else s.get (F.FED_ROUTE_HOPS d)

/-- HEARTBEAT_SEND: a heartbeat is due on slot `k`; none leaves while the radio die is in reset (R15) or the copper link is
down. -/
def State.heartbeatSend (s : State) (k : Nat) : State :=
  if s.fedState = 0 ∨ !s.on (F.FEDS_LINK_CFG_EN k) then s
  else
    let s := s.fedBegin.until (s.fslot k).due
    let x := s.fslot k
    let tx := s.tbnAt (s.stampOut (s.fedPort k) s.now * 2 ^ 32) / 2 ^ 32
    let hb := max 1 (s.get F.FED_TIMING_HB)
    if s.on F.SEC_RST_RDIE_HOLD || !s.fedCarries k then s.setFslot k { x with due := s.now + hb * ms }
    else
    let s := s.setFslot k { x with due := s.now + hb * ms, sent := ((tx, s.time.tbnSteps) :: x.sent).take 64 }
    let p := natLe s.fedState 1 ++ natLe (s.get F.FED_SIZE_CLASS_CLASS) 1 ++ natLe hb 2 ++ reachBytes (s.fedAdvert k)
      ++ natLe tx 8 ++ natLe x.echoTx 8 ++ natLe x.echoRx 8 ++ [0, 0, 0, 0]
    match s.fedMake 0 0 0xFF 0 p with
    | none => s
    | some (m, s) => s.fedPut k m

/-- Deadline A + j x HB of slot `k` passes (R438). -/
def State.fedMiss (s : State) (k j : Nat) : State :=
  let s := s.put (F.FEDS_LINK_STAT_MISSED k) j
  if 3 ≤ j then s.fedLoss k else s

/-- HEARTBEAT_DEADLINE: the next deadline of slot `k`. -/
def State.heartbeatDeadline (s : State) (k : Nat) : State :=
  if !s.on (F.FEDS_LINK_STAT_UP k) then s
  else
    let j := s.get (F.FEDS_LINK_STAT_MISSED k) + 1
    (s.fedBegin.until ((s.fslot k).at' + j * (s.fslot k).hb * ms)).fedMiss k j

/-- Deadlines at or before a heartbeat's stamp `t` count first (R12, R115, R438). -/
def State.fedPast (s : State) (k t : Nat) : Nat → State
  | 0 => s
  | n + 1 =>
    let j := s.get (F.FEDS_LINK_STAT_MISSED k) + 1
    if s.on (F.FEDS_LINK_STAT_UP k) && decide ((s.fslot k).at' + j * (s.fslot k).hb * ms ≤ t) then
      (s.fedMiss k j).fedPast k t n
    else s

/-- The time exchange of a heartbeat that carries an echo (R441), discarded when TBN was stepped or reset across it. -/
def State.fedExchange (s : State) (k t1 t2 t3 t4 : Nat) : State :=
  let x := s.fslot k
  if !x.sent.contains (t1, s.time.tbnSteps) then s
  else
    let d (a b : Nat) : Int := signed 64 (a + 2 ^ 64 - b % 2 ^ 64)
    (s.put (F.FEDS_LINK_OFS_NS k) (ofSigned 32 ((d t2 t1 + d t3 t4).tdiv 2))).put (F.FEDS_LINK_DLY_NS k)
      (ofSigned 32 ((d t4 t1 - d t3 t2).tdiv 2))

/-- The verdict of the sequence check (R435). -/
inductive SeqVerdict where
  | accept
  | duplicate
  | stale
deriving DecidableEq, Repr

/-- The check of R435, and the sender's state after it. -/
def fedSequence (p : FedPeer) (inc seq : Nat) : SeqVerdict × FedPeer :=
  if p.empty || decide (p.inc < inc) then (.accept, ⟨false, inc, seq, 1⟩)
  else if inc < p.inc then (.stale, p)
  else
    let d := signed 32 (seq + 2 ^ 32 - p.h)
    if 0 < d then (.accept, { p with h := seq, seen := (p.seen * 2 ^ min d.toNat 1024 + 1) % 2 ^ 1024 })
    else if -1024 < d then
      let i := (-d).toNat
      if bit p.seen i then (.duplicate, p) else (.accept, { p with seen := setBit p.seen i true })
    else (.stale, p)

/-- Number of a sender checked against its window; counts a duplicate or stale one (R435). -/
def State.fedNumbered (s : State) (m : FedMsg) : SeqVerdict × State :=
  let (v, p) := fedSequence (tabGet (fun _ => {}) s.fed.peers m.src.toNat) m.incarn.toNat m.seq.toNat
  match v with
  | .accept => (v, { s with fed := { s.fed with peers := tabSet (fun _ => {}) s.fed.peers m.src.toNat p,
                                                left := if m.type = 18 then s.fed.left
                                                  else s.fed.left.filter (· != m.src.toNat) } })
  | .duplicate => (v, (s.bump F.FED_CNT_DUP 1).raiseSec 580)
  | .stale => (v, (s.bump F.FED_CNT_STALE 1).raiseSec 580)

/-- A check value failed (R433). -/
def State.fedBadMic (s : State) : State := (s.bump F.FED_CNT2_MIC 1).raiseSec 579

/-- The heartbeat names an ID that is already in use (R434, R445): this device's own under a key, or, in an OPEN heartbeat,
one that is reached under a key over another slot. -/
def State.fedConflict (s : State) (k : Nat) (m : FedMsg) : Bool :=
  let d := m.src.toNat
  if d = s.fedId then !fedFlag m fOpen
  else fedFlag m fOpen && (match s.fedRoute d with
    | some j => j != k && !s.on (F.FEDS_LINK_STAT_OPEN j)
    | none => false)

/-- A heartbeat on slot `k`, stamped `t` (R438 - R441). -/
def State.heartbeat (s : State) (k : Nat) (m : FedMsg) (t : Nat) : State :=
  let s := s.fedPast k (s.stampIn (s.fedPort k) t) 3
  match s.fedCheck m with
  | none => s.fedBadMic
  | some p =>
    match s.fedNumbered m with
    | (.accept, s) =>
      if s.fedConflict k m then s.raise 578
      else if m.src.toNat = s.fedId then s
      else if bits (leNat ((p.drop 1).take 1)) 0 0 ≠ s.get F.FED_SIZE_CLASS_CLASS then
        let x := s.fslot k
        if x.sizeBad then s else (s.setFslot k { x with sizeBad := true }).raise 577
      else
        let s := if s.on (F.FEDS_LINK_STAT_UP k) && s.get (F.FEDS_LINK_STAT_PEER k) != m.src.toNat then s.fedLoss k else s
        let x := s.fslot k
        let a := s.stampIn (s.fedPort k) t
        let rx := s.tbnAt (a * 2 ^ 32) / 2 ^ 32 % 2 ^ 64
        let num (i : Nat) : Nat := leNat ((p.drop i).take 8)
        let adv := (List.range 64).map (fun d => bits (leNat ((p.drop (4 + d / 2)).take 1)) (4 * (d % 2) + 3) (4 * (d % 2)))
        let old := s
        let s := s.setFslot k { x with at' := a, hb := max 1 (leNat ((p.drop 2).take 2)), adv := adv, sizeBad := false,
                                       echoTx := num 36, echoRx := rx }
        let s := s.fedExchange k (num 44) (num 52) (num 36) rx
        let s := ((s.put (F.FEDS_LINK_STAT_UP k) 1).put (F.FEDS_LINK_STAT_OPEN k) (b2n (fedFlag m fOpen))).put
          (F.FEDS_LINK_STAT_PEER k) m.src.toNat
        let s := s.put (F.FEDS_LINK_STAT_MISSED k) 0
        (State.fedNote old s.fedRefresh).fedNotice
    | (_, s) => s

/-! ### Receiving (R432 - R437, R440) -/

/-- A type delivered to a mailbox. -/
def mailType (t : Nat) : Bool := (decide (16 ≤ t) && decide (t ≤ 20)) || decide (32 ≤ t)

/-- A type that a class-U source at L2 stops (R454). -/
def stopsType (t : Nat) : Bool := decide (2 ≤ t ∧ t ≤ 4) || t == 16 || t == 17 || decide (32 ≤ t)

/-- An accepted message is delivered by its type (R432). -/
def State.fedDeliver (s : State) (acc : Access) (m : FedMsg) (p : List Byte) (t : Nat) : State :=
  let src := m.src.toNat
  let header := FedMsgHeader { m with payload := p } m.hops.toNat
  if m.type = 1 then s.fedAcked src p
  else if m.type = 2 then s.raccArrive acc src m.incarn.toNat p
  else if m.type = 3 then s.rrep src p
  else if m.type = 4 then
    s.deliver { bytes := p, port := 3, start := 0, srcid := src, stamp := t }
  else
    let s := if m.type = 20 ∧ s.fedId = s.fedAnchor then
        ((s.bump (F.FLT_RMT_COUNT src) 1).put (F.FLT_RMT_SRC src) (leNat (p.take 2))).put (F.FLT_RMT_LEVEL src)
          (leNat ((p.drop 3).take 1))
      else s
    let s := s.mboxPut header p t
    if m.type = 18 then
      State.fedNote s { s with fed := { s.fed with left := src :: s.fed.left.filter (· != src) } }.fedRefresh
    else s

/-- A message at its destination (R433 - R437). -/
def State.fedLocal (s : State) (acc : Access) (m : FedMsg) (t : Nat) : State :=
  let mail := mailType m.type.toNat
  if mail && decide (2008 < m.payload.length) then s.bump F.FED_CNT2_MIC 1
  else match s.fedCheck m with
    | none => s.fedBadMic
    | some p =>
      match s.fedNumbered m with
      | (.accept, u) =>
        if mail && s.mboxFull then s.mboxDrop
        else
          let u := if fedFlag m fRel then u.fedAckAdd m.src.toNat m.seq.toNat else u
          u.fedDeliver acc m p t
      | (.duplicate, u) =>
        let u := if fedFlag m fRel then u.fedAckAdd m.src.toNat m.seq.toNat else u
        if m.type = 2 then u.raccAgain m.src.toNat p else u
      | (.stale, u) => u

/-- A relay forwards a message toward `d` with HOPS reduced by 1 (R440); DATA for a copper port that is paused waits. -/
def State.fedRelay (s : State) (d from' : Nat) (m : FedMsg) : State :=
  if m.hops.toNat ≤ 1 then s.fedNoRoute
  else
    let m := { m with hops := m.hops - 1 }
    match (if d = 0xFF then none else s.fedRoute d) with
    | some k =>
      if m.type = 4 ∧ k < 2 ∧ !s.cuSends k then { s with fed := { s.fed with held := s.fed.held ++ [(k, m)] } }
      else s.fedPut k m
    | none => s.fedSend d from' m

/-- Relay of an OPEN message: at most 20 in any second per slot (R434). -/
def State.fedOpenRelay (s : State) (d k : Nat) (m : FedMsg) : State :=
  let x := s.fslot k
  let recent := x.opens.filter (fun a => decide (s.now < a + second))
  if 20 ≤ recent.length then s.bump F.FED_CNT4_OPENDROP 1
  else (s.setFslot k { x with opens := s.now :: recent }).fedRelay d k m

/-- A message arrives on slot `k`, stamped `t`; `c` is the check of the control buffer (R452). -/
def State.fedReceive (s : State) (acc : Access) (k : Nat) (m : FedMsg) (t : Nat) (c : Check) : State :=
  let s := s.fedBegin
  if s.fedState = 0 ∨ !s.on (F.FEDS_LINK_CFG_EN k) then s
  else
    let s := s.until t
    let type := m.type.toNat
    let d := m.dst.toNat
    if c = .lasting then s.raise 587
    else if m.ver ≠ 1 || decide (5 ≤ type ∧ type ≤ 15) || decide (21 ≤ type ∧ type ≤ 31) then s.bump F.FED_CNT2_MIC 1
    else if type = 0 then s.heartbeat k m t
    else if s.fedHalted && stopsType type then s
    else if fedFlag m fOpen then
      if type ≠ 16 ∧ type ≠ 17 then s.fedBadMic
      else
        let d := if type = 16 then s.fedAnchor else d
        if d = s.fedId then s.fedLocal acc m t else s.fedOpenRelay d k m
    else if d = 0xFF then
      if s.fedRoute m.src.toNat = some k then (s.fedRelay 0xFF k m).fedLocal acc m t else s
    else if d = s.fedId then s.fedLocal acc m t
    else s.fedRelay d k m

/-- A DATA packet passed to the fabric egress leaves, or the oldest relayed one that its port held (R430, R440). -/
def State.fedDataSent (s : State) (t : Nat) : State :=
  if s.fedState = 0 ∨ s.fedHalted then s
  else
    let s := (s.until t).fedBegin
    let can (k : Nat) : Bool := decide (2 ≤ k) || s.cuSends k
    match s.fed.held.find? (fun h => can h.1) with
    | some h => { s with fed := { s.fed with held := s.fed.held.erase h } }.fedPut h.1 h.2
    | none =>
      match takeFirst (fun i => i.kind == 3 && ((s.fedRoute i.target).map can).getD true) s.hts.egress with
      | none => s
      | some (it, rest) =>
        let s := { s with hts := { s.hts with egress := rest } }.egressFall 3 1
        match s.fedMake 4 0 it.target it.tc it.pkt.bytes with
        | none => s.fedNoRoute
        | some (m, s) => s.fedSend it.target 8 m

/-! ### Membership (R444 - R446) -/

/-- FED_ENABLE: EN is set. -/
def State.fedEnable (s : State) : State :=
  if s.on F.FED_CTL_EN then s
  else
    let u := (s.put F.FED_CTL_EN 1).setFedState (if s.fedId = s.fedAnchor then 3 else 1)
    let u := forEach (List.range 8) (fun k u => u.setFslot k { u.fslot k with due := u.now }) u
    State.fedNote s u.fedBegin.fedRefresh

/-- FED_DISABLE: EN is cleared; LEAVE goes first in MEMBER and ISLAND. -/
def State.fedDisable (s : State) : State :=
  if !s.on F.FED_CTL_EN then s
  else
    let u := s.fedBegin
    let u := if 3 ≤ u.fedState then u.fedOwn 18 0xFF false [] else u
    let u := if u.fedState = 4 then u.islandLeave 0 else u.setFedState 0
    let u := { u with fed := { u.fed with pend := none } }.put F.FED_STAT_VIEW_PEND 0
    State.fedNote s (u.put F.FED_CTL_EN 0)

/-- The device becomes a member; quorum is evaluated. -/
def State.fedMember (s : State) : State := State.fedNote s (s.setFedState 3).fedRefresh

/-- ADMITTED (R444, R445). -/
def State.admitted (s : State) : State :=
  if s.fedState ≠ 1 then s
  else if s.get F.EPT_EPOCH_NUM < s.get F.FED_EPOCH_SYS_NUM then State.fedNote s (s.setFedState 2)
  else s.fedMember

/-- SYNCED (R446). -/
def State.synced (s : State) : State := if s.fedState = 2 then s.fedMember else s

/-- A wake from Retain, Watch or Listen with EN 1 joins again (R444). -/
def State.fedWake (s : State) : State :=
  if s.on F.FED_CTL_EN then
    let u := if s.fedState = 4 then s.islandLeave 1 else s.setFedState 1
    State.fedNote s ({ u with fed := { u.fed with pend := none } }.put F.FED_STAT_VIEW_PEND 0)
  else s

/-- A configuration write (MEMBERS, ELIG, VOTE, ID, an epoch) has been stored over `old`: REACH, quorum and the block
follow, and source 586 where SIZE_CLASS does not suit the member count (R444, R448, R451). -/
def State.fedConfigured (old s : State) (members : Bool) : State :=
  let n := popCount (s.get F.FED_MEMBERS_SET) 64
  let s := s.raiseIf (members && decide ((16 < n) ≠ (s.get F.FED_SIZE_CLASS_CLASS = 1))) 586
  State.fedNote old s.fedRefresh

/-- A frame of the fabric: its EtherType, and the message it carries (R296, R430). -/
def State.fedFrame (s : State) (bytes : List Byte) : Option FedMsg :=
  if beNat ((bytes.drop 12).take 2) = s.get F.FED_ETYPE_ETYPE then fedOfBytes (bytes.drop 14) else none

/-- The fabric slot a frame of a port arrives on, when the port carries the fabric. -/
def State.fedSlotOf (s : State) (port src : Nat) : Option Nat :=
  if s.fedState = 0 then none
  else if port < 2 then (if s.on (F.FEDS_LINK_CFG_EN port) then some port else none)
  else if port = 4 then [2, 3, 4, 5, 6, 7].find? (fun k => s.on (F.FEDS_LINK_CFG_EN k) && s.get (F.FEDS_LINK_CFG_STA k) == src)
  else none

end Sys2Proof.Machine
end

