-- ==== Sys2Proof/Machine/Acorn.lean ====
section
/-! DEFINITION. Acorn (R487 - R492): the counter block, the fault records, the boot's choice of a copy, and the
firmware's part. -/

namespace Sys2Proof.Machine

/-! ### The MRAM -/

/-- Bytes of Acorn. -/
def State.acnBytes (s : State) (a n : Nat) : List Byte := memBytes s.acn.mem a n

/-- Write bytes of Acorn. -/
def State.acnPut (s : State) (a : Nat) (bs : List Byte) : State :=
  { s with acn := { s.acn with mem := memPutBytes s.acn.mem a bs } }

/-- Source 633 at L2 stops Acorn writes (R496). -/
def State.acnStopped (s : State) : Bool := decide (2 ≤ s.level 633)

/-- The outcome of the command's next Acorn write is used up (R489): a write good on its retry raises 632, one that
failed twice 633. -/
def State.acnOutcome (s : State) : Bool × State :=
  let b := s.acn.bad
  let s := { s with acn := { s.acn with bad := 0 } }
  (b != 2, if b = 1 then s.raise 632 else if b = 2 then s.raise 633 else s)

/-- The outcome of the next Acorn write of a command is given: 0 good, 1 good on retry, 2 failed twice. -/
def State.acnNext (s : State) (b : Nat) : State := { s with acn := { s.acn with bad := b } }

/-! ### The counter block (R490) -/

/-- A field of the counter block as it runs, by its offset; the time fields are kept in nanoseconds. -/
def State.cnt (s : State) (off : Nat) : Nat := tabGet (fun _ => 0) s.acn.cnt off

/-- Set a field of the counter block. -/
def State.setCnt (s : State) (off v : Nat) : State :=
  { s with acn := { s.acn with cnt := tabSet (fun _ => 0) s.acn.cnt off v } }

/-- Offset of a RESETS counter. -/
def cntReset (cause : Nat) : Nat := 0x18 + 4 * cause
/-- Offsets of the ten escalation counters (R490). -/
def cntRetain : Nat := 0x58
def cntStageRetry : Nat := 0x5C
def cntStageFail : Nat := 0x60
def cntL2 : Nat := 0x64
def cntL3 : Nat := 0x68
def cntSproutHold : Nat := 0x6C
def cntLimp : Nat := 0x70
def cntZeroise : Nat := 0x74
def cntDumpOk : Nat := 0x78
def cntDumpBad : Nat := 0x7C

/-- The junction temperature last converted, in 0.125 °C. -/
def State.junction (s : State) : Int := signed 16 (s.get F.TOP_TEMP_NOW)

/-- The 10 °C band of a temperature, from -40 °C upward, the last open above (R490). -/
def band (t : Int) : Nat := min 15 (((t + 320) / 80).toNat)

/-- The time counters are kept up to the present TBM: powered, power state, and once a conversion has been made the
temperature's. -/
def State.acnAccount (s : State) : State :=
  let d := s.now - s.acn.since
  let s := { s with acn := { s.acn with since := s.now } }
  let s := s.setCnt 0x80 (s.cnt 0x80 + d)
  let p := s.get F.PWR_STAT_STATE
  let s := if p < 5 then s.setCnt (0x88 + 8 * p) (s.cnt (0x88 + 8 * p) + d) else s
  if s.sec.conv then
    let t := s.junction
    let s := if 840 ≤ t then s.setCnt 0xB8 (s.cnt 0xB8 + d) else s
    s.setCnt (0xC0 + 4 * band t) (s.cnt (0xC0 + 4 * band t) + d)
  else s

/-- The counter block without its CRC. -/
def State.cntBody (s : State) : List Byte :=
  let u32 (l : List Nat) : List Byte := l.flatMap (fun o => natLe (min 0xFFFFFFFF (s.cnt o)) 4)
  let secs (o : Nat) : List Byte := natLe (s.cnt o / second) 8
  natLe 0x4E524341 4 ++ natLe 1 4 ++ natLe (s.cnt 0x08) 8 ++ u32 [0x10, 0x14]
    ++ u32 ((List.range 16).map cntReset) ++ u32 ((List.range 10).map (cntRetain + 4 * ·))
    ++ secs 0x80 ++ (List.range 5).flatMap (fun p => secs (0x88 + 8 * p))
    ++ natLe (s.cnt 0xB0) 2 ++ natLe (s.cnt 0xB2) 2 ++ natLe 0 4 ++ secs 0xB8
    ++ (List.range 16).flatMap (fun b => natLe (min 0xFFFFFFFF (s.cnt (0xC0 + 4 * b) / (60 * second))) 4)
    ++ u32 [0x100] ++ List.replicate 60 0
    ++ s.acn.hold ++ List.replicate (64 - s.acn.hold.length) 0 ++ List.replicate 124 0

/-- CSEQ of the copy at `a`, when it is valid: magic, version and CRC (R490). -/
def State.cntCopy (s : State) (a : Nat) : Option Nat :=
  let b := s.acnBytes a 508
  if memNat s.acn.mem a 4 = 0x4E524341 ∧ memNat s.acn.mem (a + 4) 4 = 1 ∧ memNat s.acn.mem (a + 508) 4 = crc32 b
  then some (memNat s.acn.mem (a + 8) 8) else none

/-- Which copy a commit writes: an invalid one, else that of lower CSEQ. -/
def State.cntTarget (s : State) : Nat :=
  match s.cntCopy 0, s.cntCopy 0x200 with
  | none, _ => 0
  | some _, none => 0x200
  | some a, some b => if a ≤ b then 0 else 0x200

/-- The counter block is committed to the copy holding the lower CSEQ (R490), unless Acorn writes are stopped. -/
def State.acnCommit (s : State) : State :=
  if s.acnStopped then s
  else
    let s := s.acnAccount
    let (ok, s) := s.acnOutcome
    if ok then
      let top := max (s.cnt 0x08) (max ((s.cntCopy 0).getD 0) ((s.cntCopy 0x200).getD 0))
      let s := s.setCnt 0x08 (top + 1)
      let b := s.cntBody
      s.acnPut s.cntTarget (b ++ natLe (crc32 b) 4)
    else s

/-- One more of a counted event, and a commit (R490). -/
def State.acnCount (s : State) (off : Nat) : State := (s.setCnt off (s.cnt off + 1)).acnCommit

/-! ### Records (R488, R489) -/

/-- A record's 60 bytes before its CRC. -/
def State.recordBody (s : State) (type level src cls count : Nat) (detail : List Byte) : List Byte :=
  let forced := decide (src < 640) && s.on (F.FLT_SRC_FORCED src)
  let locked := s.on F.TIME_TBN_CTL_LOCKED
  let ps := s.get F.PWR_STAT_STATE + 8 * s.get F.FED_SIZE_CLASS_CLASS + 16 * b2n forced + 32 * b2n locked
  natLe type 1 ++ natLe level 1 ++ natLe src 2 ++ natLe cls 1 ++ natLe (s.get F.TOP_MODE_CUR + 16 * s.get F.TOP_MODE_BASE) 1
    ++ natLe ps 1 ++ natLe 0 1 ++ natLe s.acn.rseq 4 ++ natLe (s.cnt 0x10) 4 ++ natLe s.now 8
    ++ natLe (if locked then s.tbn / 2 ^ 32 else 0) 8 ++ natLe count 4 ++ natLe s.acn.svn 4
    ++ detail.take 16 ++ List.replicate (16 - detail.length) 0 ++ natLe 0 4

/-- Acorn offset of the record numbered `n` (R488). -/
def ringAddr (n : Nat) : Nat := 0x20000 + 64 * (n % 2048)

/-- The device writes a record (R489), with a commit of the counter block (R490); a lost record takes no number. -/
def State.acnRecord (s : State) (type level src cls count : Nat) (detail : List Byte) : State :=
  if s.acnStopped then s
  else
    let (ok, s) := s.acnOutcome
    if !ok then s
    else
      let n := (s.acn.rseq + 1) % 2 ^ 32
      let s := ({ s with acn := { s.acn with rseq := n } }.put F.ACN_RSEQ_N n).setCnt 0x100 (s.cnt 0x100 + 1)
      let b := s.recordBody type level src cls count detail
      let r := b ++ natLe (crc32 b) 4
      let s := s.acnPut (ringAddr n) r
      (if type = 2 then { s with acn := { s.acn with hold := r } } else s).acnCommit

/-- Slots of the ring that hold any non-zero byte. -/
def State.ringSlots (s : State) : List Nat :=
  s.acn.mem.foldl (fun l e => if 0x20000 ≤ e.1 then addOnce l ((e.1 - 0x20000) / 64) else l) []

/-- The record in a slot is valid: its CRC holds. -/
def State.slotGood (s : State) (i : Nat) : Bool :=
  memNat s.acn.mem (0x20000 + 64 * i + 60) 4 == crc32 (s.acnBytes (0x20000 + 64 * i) 60)

/-- RSEQ of the record in a slot. -/
def State.slotSeq (s : State) (i : Nat) : Nat := memNat s.acn.mem (0x20000 + 64 * i + 8) 4

/-- Valid records, by slot, oldest first. -/
def State.goodRing (s : State) : List Nat := sortBy s.slotSeq (s.ringSlots.filter s.slotGood)

/-- The newest DUMP record's slot. -/
def State.lastDump (s : State) : Option Nat :=
  (s.goodRing.filter (fun i => memNat s.acn.mem (0x20000 + 64 * i) 1 == 5)).getLast?

/-! ### Dumps counted (R484, R485) -/

/-- Dumps started in life, with the running one: each that ended is counted complete or incomplete. -/
def State.dumpsEnded (s : State) : Nat := s.cnt cntDumpOk + s.cnt cntDumpBad

/-- DETAIL of a DUMP record (R488). -/
def dumpDetail (no outcome len crc : Nat) : List Byte :=
  natLe no 4 ++ natLe outcome 1 ++ [0, 0, 0] ++ natLe len 4 ++ natLe crc 4

/-! ### Boot (R485, R490, R500 step 2) -/

/-- Load the running counters from the copy at `a`. -/
def State.cntLoad (s : State) (a : Nat) : State :=
  let m := s.acn.mem
  let u32 (l : List Nat) (s : State) : State := forEach l (fun o s => s.setCnt o (memNat m (a + o) 4)) s
  let s := { s with acn := { s.acn with cnt := [] } }
  let s := s.setCnt 0x08 (memNat m (a + 8) 8)
  let s := u32 ([0x10, 0x14, 0x100] ++ (List.range 16).map cntReset ++ (List.range 10).map (cntRetain + 4 * ·)) s
  let s := forEach (0x80 :: 0xB8 :: (List.range 5).map (0x88 + 8 * ·)) (fun o s => s.setCnt o (memNat m (a + o) 8 * second)) s
  let s := forEach (List.range 16) (fun b s => s.setCnt (0xC0 + 4 * b) (memNat m (a + 0xC0 + 4 * b) 4 * (60 * second))) s
  let s := (s.setCnt 0xB0 (memNat m (a + 0xB0) 2)).setCnt 0xB2 (memNat m (a + 0xB2) 2)
  { s with acn := { s.acn with hold := memBytes m (a + 0x140) 64 } }

/-- No copy is valid: every counter restarts at 0, and the temperature extremes at those of no reading. -/
def State.cntFresh (s : State) : State :=
  ((({ s with acn := { s.acn with cnt := [], hold := [] } }.setCnt 0xB0 0x8000).setCnt 0xB2 0x7FFF).put F.ACN_STAT_FRESH 1).raise 634

/-- The valid copy with the higher CSEQ is taken, or every counter restarts (R490), and RSEQ goes on from the newest
valid record. -/
def State.acnLoad (s : State) : State :=
  let s := match s.cntCopy 0, s.cntCopy 0x200 with
    | none, none => s.cntFresh
    | some _, none => s.cntLoad 0
    | none, some _ => s.cntLoad 0x200
    | some a, some b => s.cntLoad (if a < b then 0x200 else 0)
  let top := (s.goodRing.getLast?.map s.slotSeq).getD 0
  let s := { s with acn := { s.acn with since := s.now, rseq := max top (s.cnt 0x100) } }
  s.put F.ACN_RSEQ_N s.acn.rseq

/-- Step 2 of a boot: the counter block is chosen, the boot counted and committed, the ring scanned, the RESET record
written, and a dump left without outcome marked incomplete (R485, R489, R490). -/
def State.acnBoot (s : State) (cause : Nat) : State :=
  let s := s.acnLoad
  let s := s.setCnt 0x10 ((s.cnt 0x10 + 1) % 2 ^ 32)
  let s := if cause = 0 then s.setCnt 0x14 (s.cnt 0x14 + 1) else s
  let torn := (s.ringSlots.filter (fun i => !s.slotGood i)).length
  let s := s.acnCount (cntReset cause)
  let s := (s.put F.ACN_STAT_TORN torn).put F.ACN_BOOTS_N (s.cnt 0x10)
  let s := s.put F.FED_INCARN_INCARN (s.cnt 0x10 % 65536 * 65536)
  let left := match s.lastDump with
    | some i => if memNat s.acn.mem (0x20000 + 64 * i + 0x2C) 1 = 0 then some (memNat s.acn.mem (0x20000 + 64 * i + 0x28) 4) else none
    | none => none
  let s := s.acnRecord 6 0 0xFFFF 0 0 (natLe cause 1)
  let s := match left with
    | some no => (s.acnRecord 5 0 0xFFFF 0 0 (dumpDetail no 4 0 0)).acnCount cntDumpBad
    | none => s
  s.put F.ACN_DUMP_CTL_DUMPNO s.dumpsEnded

/-! ### The firmware's part (R490 - R492) -/

/-- COMMIT in `ACN.CTL`. -/
def State.counterCommit (s : State) (bad : Nat) : State := (s.acnNext bad).acnCommit

/-- PERIOD minutes, 0 taken as 1, in ns (R495). -/
def State.acnPeriod (s : State) : Nat := max 1 (s.get F.ACN_CTL_PERIOD) * (60 * second)

/-- COUNTER_PERIOD: the block is committed every PERIOD minutes of TBM. -/
def State.counterPeriod (s : State) (bad : Nat) : State :=
  let s := s.until (if s.acn.due = 0 then s.acnPeriod else s.acn.due)
  let s := { s with acn := { s.acn with due := s.now + s.acnPeriod } }
  s.counterCommit bad

/-- CLRRING (R491): every fault record is invalidated, RSEQ runs on; ignored after `SEC.LOCK`. -/
def State.clrRing (s : State) : State :=
  if s.on F.SEC_LOCK_LOCK || s.acnStopped then s
  else { s with acn := { s.acn with mem := s.acn.mem.filter (fun e => decide (e.1 < 0x20000)) } }

/-- GO in `ACN.FW_CTL` (R492): a record of TYPE 7 with the 16 bytes of `ACN.FW_REC`; ERR tells that the write failed. -/
def State.firmwareRecord (s : State) (bad : Nat) : State :=
  let lost := s.acnStopped || bad == 2
  ((s.acnNext bad).acnRecord 7 0 0xFFFF 0 0 (natLe (s.get F.ACN_FW_REC_DETAIL) 16)).put F.ACN_FW_CTL_ERR (b2n lost)

/-- A write of Acorn's window (R492): it lands only in the firmware area; elsewhere it is ignored and counted. -/
def State.acnWindowWrite (s : State) (a : Nat) (v : Word) : State :=
  if 0x1000 ≤ a ∧ a < 0x20000 then (if s.acnStopped then s else s.acnPut a (natLe v.toNat 4))
  else s.bump F.FLT_HOLD_WR_COUNT 1

/-- A read of Acorn's window. -/
def State.acnWindowRead (s : State) (a : Nat) : Word := BitVec.ofNat 32 (memNat s.acn.mem a 4)

end Sys2Proof.Machine
end

