-- ==== Sys2Proof/Machine/PowerDom.lean ====
section
/-! DEFINITION. Switching power domains off and on (R455, R456, R459, R461, R552): what each one loses, and what is done
with what the scheduler, the clusters and the parser held. -/

namespace Sys2Proof.Machine

/-- The radio kept in Listen (R471): 3 is taken as 0. -/
def State.listenRadio (s : State) : Nat := s.get F.PWR_CTL_LRADIO % 3

/-- Front ends enabled in a mode (R455, R458): 0-2 Wi-Fi, 3 Pip, 4 and 5 the copper ports. -/
def State.modeFronts (s : State) (m : Nat) : List Nat :=
  if m = 4 then [3] else if m = 5 then [s.listenRadio, 3] else if 6 ≤ m ∧ m ≤ 9 then List.range 6 else []

/-- Power state of a mode (R458). -/
def State.modePower (s : State) (m : Nat) : Nat :=
  if m = 0 then 5 else if m = 2 ∨ m = 5 ∨ m = 0xB then 2 else if m = 3 then 4 else if m = 4 then 3
  else if 6 ≤ m ∧ m ≤ 9 then s.get F.PWR_CTL_TRIM else 0

/-- Clusters of a list of domains (R455). -/
def clustersOf (doms : List Nat) : List Nat := (List.range 16).filter (fun c => doms.contains (clusterDomain c))

/-- Regions whose slice and lanes lie in a list of domains (R455). -/
def regionsOf (doms : List Nat) : List Nat := (List.range 4).filter (fun r => doms.contains (regionDomain r))

/-! ### What the scheduler, the clusters and the parser hold (R552) -/

/-- Free the undispatched tasks of slices going off, with their packets (R552, Retain, Off, Limp and Fault Hold). -/
def State.freeSlices (s : State) (regions : List Nat) : State := s.loseTasks (fun k => regions.contains k.region)

/-- Move the undispatched tasks of slices going off to the slice of region `r` with their places, oldest first; those
that find its task or matching store full are freed (R552, Watch and Listen). -/
def State.moveTasks (s : State) (regions : List Nat) (r : Nat) : State :=
  let s := forEach (s.hts.tasks.filter (fun k => regions.contains k.region)) (fun k s =>
    if 16384 ≤ s.storeCount r ∨ ((k.await1 || k.await2) = true ∧ 3968 ≤ s.matchCount r) then s.loseTask k
    else { s with hts := { s.hts with
        tasks := s.hts.tasks.map (fun j => if j.id == k.id then { j with region := r } else j),
        places := s.hts.places.map (fun p => if p.task == k.id && !p.done then { p with region := r } else p) } }) s
  let follow (j : Job) : Job := match j.src with
    | .program (.creation id k) q => if regions.contains q then { j with src := .program (.creation id k) r, lane := none } else j
    | _ => j
  { s with cip := { s.cip with jobs := s.cip.jobs.map follow } }.rehome

/-- Threads that run a task on a list of clusters. -/
def State.runningOn (s : State) (clusters : List Nat) : List Nat :=
  (s.yal.threads.filter (fun e => clusters.contains (clusterOf e.1) && e.2.task.isSome)).map (·.1)

/-- The tasks running on clusters going off are ended as under R43. -/
def State.endRunning (s : State) (clusters : List Nat) : State :=
  forEach (s.runningOn clusters) (fun t s => s.endTask t true) s

/-- A packet at the parser's input came from a port that goes off in mode `m`. -/
def State.portGoes (s : State) (m : Nat) (p : Packet) : Bool :=
  if p.port < 2 then !(modeDomains m).contains 12
  else if p.port = 4 then !((modeDomains m).contains 11 && (s.modeFronts m).contains (p.info % 4))
  else if p.port = 5 then !(s.modeFronts m).contains 3
  else false

/-- Frames from ports going off are dropped and counted by their port (R275, R326, R552). -/
def State.dropPorts (s : State) (m : Nat) : State :=
  let gone := s.prs.input.filter (s.portGoes m)
  let s := { s with prs := { s.prs with input := s.prs.input.filter (fun p => !s.portGoes m p) } }
  forEach gone (fun p s =>
    if p.port < 2 then s.bump (F.CU_MACCNT_RXOVF p.port) 1
    else if p.port = 4 then s.bump (F.MX_RXCNT_OVF (p.info % 4)) 1
    else s.bump F.HTS_CNT3_PIPDROP 1) s

/-- The rest of the parser's frames and the packets that wait to recirculate are freed with CORE (R552). -/
def State.dropParser (s : State) : State :=
  let n := s.prs.input.length + s.recirc.length + (if s.prs.stalled.isSome then 1 else 0)
  { s with recirc := [], prs := { s.prs with input := [], stalled := none, stalledKey := none } }.bump F.PRS_CNT2_ERR n

/-! ### What a domain loses -/

/-- Unit or sequencer memory `x` (a unit, or 64 + n) is lost (R461): no image, nothing in it. -/
def State.loseImage (s : State) (x : Nat) : State :=
  let s := s.put (F.YCU_GEN_GEN x) 0xFFFFFFFF
  let s := { s with yal := { s.yal with im := s.yal.im.filter (fun e => e.1 / 0x10000 != x) } }
  if x < 64 then s else { s with sd := s.sd.filter (fun e => e.1 / 0x4000 != x - 64) }

/-- Granary bank `b` loses its contents and reads zeros (R461). -/
def State.loseBank (s : State) (b : Nat) : State :=
  { s with gm := s.gm.filter (fun e => e.1 / 0x100000 != b) }

/-- Clusters go off: threads, registers, packet windows, LM, CM and data caches are lost (R461). -/
def State.clustersOff (s : State) (l : List Nat) : State :=
  let y := s.yal
  { s with yal := { y with
      threads := y.threads.filter (fun e => !l.contains (clusterOf e.1)),
      g := y.g.filter (fun e => !l.contains (e.1 / 1024) || decide (16384 ≤ e.1)),
      pw := y.pw.filter (fun e => !l.contains (e.1 / 16384)),
      lm := y.lm.filter (fun e => !l.contains (e.1 / 0x40000)),
      cm := y.cm.filter (fun e => !l.contains (e.1 / 0x100000)),
      dcache := y.dcache.filter (fun e => !l.contains (e.unit / 4)),
      arriving := y.arriving.filter (fun a => match a.dest with | .slot t _ _ => !l.contains (clusterOf t) | _ => true) } }

/-- Slices and lanes go off: their locks, affinity and program jobs are lost; an engine's job on such a lane waits again. -/
def State.slicesOff (s : State) (l : List Nat) : State :=
  let s := { s with hts := { s.hts with locks := s.hts.locks.filter (fun k => !l.contains (k.1 / 4)),
                                        affin := s.hts.affin.filter (fun e => !l.contains (e.1 / 4096)) } }
  let onOff (j : Job) : Bool := match j.lane with | some n => l.contains (n / 8) | none => false
  let kept := s.cip.jobs.filter (fun j => !l.any (fun r => j.ofRegion r))
  { s with cip := { s.cip with jobs := kept.map (fun j => if onOff j then { j with lane := none } else j),
                               lanes := s.cip.lanes.filter (fun e => !l.contains (e.1 / 8)) } }

/-- Every key slot is erased under R340: GEN advances in each, loaded or not. -/
def State.eraseStore (s : State) : State :=
  let keys := forEach (s.cip.keys.map (fun e => e.1)) (fun i t =>
    tabMod (fun _ => {}) t i (fun k => { k with loaded := false, pn := 0, key := 0 })) s.cip.keys
  { s with cip := { s.cip with keys := keys, genBase := (s.cip.genBase + 1) % 16 } }

/-- CORE goes off: every queue and buffer on the die is lost (R461); `keys`: the key store is kept. -/
def State.coreOff (s : State) (keys : Bool) : State :=
  let s := { s with time := { s.time with ppsOut := false } }
  let s := if keys then s else s.eraseStore
  let s := s.dropParser
  let s := s.freeQueued (fun _ => true)
  let s := forEach (List.range 6) (fun k s => (s.put (F.HTS_EG_LVL_PKTS k) 0).put (F.HTS_EG_BP_ON k) 0) s
  let s := { s with hts := { s.hts with tasks := [], places := [], locks := [], affin := [], egress := [] } }
  let s := { s with cip := { s.cip with jobs := [], cmds := [], lanes := [] } }
  let s := { s with ept := { s.ept with lookups := [], appends := [] }, yal := { s.yal with arriving := [] } }
  let s := { s with dma := { s.dma with mcc := [] } }
  let a := s.air
  let s := { s with air := { a with sn := [], bsr := [], emlHold := [], rx := [],
                                    pip := { a.pip with pending := [], deficit := [], armed := none, bwin := none, ex := .none } } }
  { s with fed := { s.fed with slots := [], rel := [], acks := [], held := [], pend := none } }

/-- The wireless MACs go off: armed beacons, open windows and switches of the three radios end. -/
def State.wmacOff (s : State) : State :=
  forEach (List.range 3) (fun n s =>
    s.setRadio n { s.radio n with armed := [], bwin := [], csw := none, grpOn := [], eosp := [], steer := [], radar := [] }) s

end Sys2Proof.Machine
end

