-- ==== Sys2Proof/Machine/Power.lean ====
section
/-! DEFINITION. Modes, entries, wakes, trims and the AVS path (R19 - R23, R458 - R470). -/

namespace Sys2Proof.Machine

/-! ### The watchdog's count (R515) -/

/-- The watchdog counts: EN set, MGT on, and not in Dump or Fault Hold. -/
def State.wdtRuns (s : State) : Bool := s.on F.SEC_WDT_EN && s.domOn 1 && !s.stopped

/-- Nanoseconds counted since the last kick or EN. -/
def State.wdtCount (s : State) : Nat := s.sec.wdtUsed + (if s.wdtRuns then s.now - s.sec.wdtAt else 0)

/-- Carry the count over a change that may pause or resume it. -/
def State.wdtKeep (s : State) (f : State → State) : State :=
  let c := s.wdtCount
  let s := f s
  { s with sec := { s.sec with wdtUsed := c, wdtAt := s.now } }

/-! ### Switching domains -/

/-- The domains of `new` that are on stay on, the others go off and lose what R461 does not keep.  `keep`: the
retention settings hold (false for Off, Limp and Fault Hold); `retain`: the entry is to Retain. -/
def State.switchOff (s : State) (new : List Nat) (keep retain : Bool) : State :=
  s.wdtKeep (fun s =>
    let off := (List.range 14).filter (fun d => s.domOn d && !new.contains d)
    let cl := clustersOf off
    let s := (s.clustersOff cl).slicesOff (regionsOf off)
    let s := forEach cl (fun c s =>
      if keep && s.fbit F.PWR_RET_CFG_IMEM (c / 4) then s
      else forEach ((List.range 4).map (4 * c + ·)) (fun u s => s.loseImage u) s) s
    let sq := (if off.contains 11 then [64, 65, 66] else []) ++ (if off.contains 5 then [67] else [])
    let s := if keep && s.on F.PWR_RET_CFG_SQMEM then s else forEach sq (fun x s => s.loseImage x) s
    let s := if off.contains 5 then s.coreOff (keep && s.on F.PWR_RET_CFG_KEYS) else s
    let s := if off.contains 11 then s.wmacOff else s
    let s := if off.contains 12 then { s with cu := [{}, {}] } else s
    let s := if off.contains 3 then
        forEach (List.range 32) (fun b s =>
          if keep && s.fbit F.PWR_GRN_RET_BANKS b then s
          else
            let s := (s.eptLose [b]).loseBank b
            if retain then s.putBit F.PWR_GRN_LOST_BANKS b true else s) s
      else s
    let s := if off.contains 4 then
        let x := s.dmc
        let s := { s with dmc := { x with reqs := [], rows := [], hits := [], txLow := [], rxLow := [], cuLow := [],
                                          postponed := 0, quick := false } }
        let s := forEach [F.DMC_STAT_READY, F.DMC_STAT_FBUSY, F.DMC_STAT_TBUSY, F.DMC_CTL_FCHG, F.DMC_CTL_TRAIN]
          (fun f s => s.put f 0) s
        if retain then s
        else { s with xm := [], dmc := { s.dmc with trained := false, poison := [], scrub := 0 } }
      else s
    s.put F.PWR_DOM_ON (maskOf ((List.range 14).filter (fun d => s.domOn d && new.contains d))))

/-- Domains come on (R466, logic stage): threads of units with an image are IDLE. -/
def State.switchIn (s : State) (new : List Nat) : State :=
  s.wdtKeep (fun s =>
    let up := new.filter (fun d => !s.domOn d)
    let s := forEach (clustersOf up) (fun c s =>
      forEach ((List.range 32).map (32 * c + ·)) (fun t s =>
        if s.hasImage (unitOf t) then s.setThread t { s.thread t with st := .idle } else s) s) s
    s.put F.PWR_DOM_ON (maskOf ((List.range 14).filter (fun d => s.domOn d || new.contains d))))

/-! ### What the mode registers show (R22, R23, R471) -/

/-- PEND, BUSY and PWR.STAT follow the slot and the transition in progress.  DESIGN CHOICE (log 31): BUSY reads 0 while the
wake stages of a boot run, for the mode does not change there. -/
def State.modeShow (s : State) : State :=
  let boot := match s.ctl.wake with | some w => w.boot | none => false
  let s := (s.put F.TOP_MODE_PEND (b2n s.ctl.slot.isSome)).put F.TOP_MODE_BUSY (b2n (s.transiting && !boot))
  let s := s.put F.PWR_STAT_ENTRY (b2n s.ctl.entry.isSome)
  let s := s.put F.PWR_STAT_APT (match s.ctl.entry with | some e => e.point | none => 0)
  s.put F.PWR_STAT_STAGE (match s.ctl.wake with | some w => w.stage | none => 0)

/-- `TOP.MODE.CUR`, and BASE with it (R22). -/
def State.setMode (s : State) (m : Nat) : State :=
  (s.wdtKeep (fun s => (s.put F.TOP_MODE_CUR m).put F.TOP_MODE_BASE m))

/-- STATUS of the latest request (R23). -/
def State.reqStatus (s : State) (latest : Bool) (v : Nat) : State :=
  if latest then s.put F.TOP_MODE_REQ_STATUS v else s

/-- The target voltage of a power state, clamped (R471). -/
def State.avsMv (s : State) (p : Nat) : Nat := min 850 (max 550 (s.get (F.PWR_AVS_V_MV p)))

/-- TO of `PWR.AVS_CFG` in ns, 0 taken as 1 µs. -/
def State.avsTo (s : State) : Nat := 1000 * max 1 (s.get F.PWR_AVS_CFG_TO)

/-- An AVS failure (R460, R469). -/
def State.avsFail (s : State) : State := (s.bump F.PWR_AVS_STAT_FAILS 1).raise 609

/-! ### Sequencers and ports of front ends that go off or return -/

/-- Front ends outside `keep` are disabled; the sequencers of their radios halt with CAUSE 3 and their husks are undone
with RADIO (R164, R462 step 1). -/
def State.frontsOff (s : State) (keep : List Nat) : State :=
  let gone := s.ctl.fronts.filter (fun f => !keep.contains f)
  let s := forEach (gone.filter (fun f => decide (f < 4))) (fun n s =>
    if s.on (F.SQ_CTL_EN n) && !s.on (F.SQ_CTL_HALTED n) then s.seqHalt n ⟨3, 0, 9⟩ else s.undoAll n 9) s
  { s with ctl := { s.ctl with fronts := s.ctl.fronts.filter (fun f => keep.contains f) } }

/-- Copper ports without power stop. -/
def State.copperStops (s : State) : State :=
  forEach [0, 1] (fun c s => if s.cuPowered c || s.cuPhase c == 7 then s else s.cuStop c) s

/-- The two copper slots of the fabric are lost with their ports' links (R429, R439). -/
def State.copperLoss (old s : State) : State :=
  s.fedLossAll ([0, 1].filter (fun c => old.cuUp c && !s.cuUp c))

/-! ### Entering a lower mode (R462 - R464) -/

/-- Domains that an entry takes off. -/
def State.entryOff (s : State) (e : Entry) : List Nat :=
  (List.range 14).filter (fun d => s.domOn d && !(modeDomains e.target).contains d)

/-- Step 1 begins: sequencers of radios going off halt, front ends going off are disabled. -/
def State.entryBegin (s : State) (source target : Nat) (latest : Bool) : State :=
  let s := { s with ctl := { s.ctl with entry := some { source := source, target := target, latest := latest } } }
  ((s.reqStatus latest 2).frontsOff (s.modeFronts target)).modeShow

/-- Step 2 begins (R462, R552): clusters and slices going off give up their waiting tasks, ports going off stop, DMA
channels stop; for Off the journal is abandoned (R464). -/
def State.entryTasks (s : State) (e : Entry) : State :=
  let off := s.entryOff e
  let s := { s with ctl := { s.ctl with
    entry := some { e with step := 2, deadline := s.now + 1000 * max 1 (s.get F.PWR_ENTRY_TO_US) } } }
  let s := if off.contains 5 then s.freeSlices (regionsOf off)
    else s.moveTasks (regionsOf off) (s.liveRegion 0)
  let old := s
  let s := (State.copperLoss old s.copperStops).dropPorts e.target
  let s := if off.contains 5 then s.dmaStopAll else s
  if e.target = 0 then { s with ept := { s.ept with appends := [] } } else s

/-- Step 3 begins: for Retain and Off, DRAM enters self-refresh and takes no request (R393, R462). -/
def State.entryRetention (s : State) (e : Entry) : State :=
  let s := { s with ctl := { s.ctl with entry := some { e with step := 3, deadline := 0 } } }
  if (modeDomains e.target).contains 4 then s else s.put F.DMC_STAT_READY 0

/-- Step 4 begins: isolation, and under AVS the lower voltage (R469). -/
def State.entryIsolate (s : State) (e : Entry) : State :=
  { s with ctl := { s.ctl with
    entry := some { e with step := 4, avs := if s.on F.PWR_STAT_AVS && e.target != 0 then s.now + s.avsTo else 0 } } }

/-- Every task of the clusters going off has ended, and with CORE going off every DMA channel has stopped. -/
def State.entryQuiet (s : State) (e : Entry) : Bool :=
  let off := s.entryOff e
  (s.runningOn (clustersOf off)).isEmpty && (!off.contains 5 || s.dmaQuiet)

/-! ### Waking (R465 - R467) -/

/-- A wake begins: `TOP.MODE.CUR` reads Sprout, the state is the target's, and the regulator stage starts. -/
def State.wakeBegin (s : State) (source target : Nat) (latest boot : Bool) : State :=
  let w : Wake := { source := source, target := target, start := s.now, at' := s.now, latest := latest, boot := boot }
  let s := { s with ctl := { s.ctl with wake := some w } }
  let s := forEach [F.PWR_WAKE_LOG_RETRIED, F.PWR_WAKE_LOG_FAILED, F.PWR_WAKE_LOG_TIME] (fun f s => s.put f 0) s
  let s := if boot then s else s.setMode 1
  ((s.put F.PWR_STAT_STATE (s.modePower target)).reqStatus latest 2).modeShow

/-- On entry to Backhaul BCN clears on every BSSID of the backhaul radio, when one is named (R224). -/
def State.backhaulEntry (s : State) (t : Nat) : State :=
  if t = 8 ∧ s.get F.MXA_BH_CFG_RADIO < 3 then s.clearBcn (s.get F.MXA_BH_CFG_RADIO) else s

/-- A request for mode `t` taken in Island: one for a mode that an island can run changes BASE, any other is refused
(R19). -/
def State.islandRequest (s : State) (t : Nat) (latest : Bool) : State :=
  if t < 6 then (s.bump F.TOP_MODE_REQ_REFUSALS 1).reqStatus latest 3
  else ((s.put F.TOP_MODE_BASE t).reqStatus latest 0).backhaulEntry t

/-- A request starts (R20, R21, R458): nothing for the present mode; an entry when domains go off; a wake when any comes
on; a change among the full modes at once; in Island, BASE alone (R19). -/
def State.modeStart (s : State) (r : ModeReq) : State :=
  let cur := s.mode
  if r.target = cur then s.reqStatus r.latest 0
  else if cur = 9 then s.islandRequest r.target r.latest
  else
    let new := modeDomains r.target
    if r.target = 0 ∨ (new.all s.domOn = true ∧ r.target < 6) then s.entryBegin cur r.target r.latest
    else if new.all s.domOn = false then s.wakeBegin cur r.target r.latest false
    else ((s.setMode r.target).reqStatus r.latest 0).backhaulEntry r.target

/-- Something holds a mode request back: a transition, a running program load (R56), a frequency change (R395). -/
def State.modeHeld (s : State) : Bool :=
  s.transiting || (match s.yal.load with | some l => !l.waiting | none => false) || s.on F.DMC_STAT_FBUSY

/-- A trim transition begins in a full mode when TRIM differs from the state in force (R460). -/
def State.trimBegin (s : State) : State :=
  let t := s.get F.PWR_CTL_TRIM
  let s := { s with ctl := { s.ctl with trimLate := false } }
  if 6 ≤ s.mode ∧ s.mode ≤ 9 ∧ s.get F.PWR_STAT_STATE ≠ t then
    let d := if s.on F.PWR_STAT_AVS then s.now + s.avsTo else 0
    { s with ctl := { s.ctl with trim := some { target := t, deadline := d } } }.modeShow
  else s

/-- A transition, load or frequency change has ended: the request in the pending slot is taken (R20), then a trim that
waited, a load that waited (R56) and a frequency change that waited (R395). -/
def State.modeGo (s : State) : State :=
  let s := match s.ctl.slot with
    | some r => if s.modeHeld then s else ({ s with ctl := { s.ctl with slot := none } }.modeStart r).modeShow
    | none => s
  let s := if s.ctl.trimLate && !s.modeHeld then s.trimBegin else s
  s.loadResume.dmcStart

/-- The TBN, the phase domains, the bins, Pip and the DRAM as R470 leaves them after Retain. -/
def State.afterRetain (s : State) : State :=
  let s := s.tbnHold.phaseWake
  let s := s.put F.SQA_EPOCH_EPOCH ((s.get F.SQA_EPOCH_EPOCH + max 1 (min 32 (s.get F.SQA_BIN_CFG_AGE_LIMIT))) % 64)
  let lost := s.get F.PWR_GRN_LOST_BANKS
  let bank := s.binBase / 0x100000
  let s := if (List.range 4).any (fun k => bit lost (bank + k) && decide (0x100000 * (bank + k) < s.binBase + 0x300000))
    then s.put F.SQA_BIN_CFG_VALID 0 else s
  let nodes := s.gm.foldl (fun l e =>
    if s.nodeBase ≤ e.1 ∧ e.1 < s.nodeBase + 0x100000 then addOnce l ((e.1 - s.nodeBase) / 64) else l) []
  forEach (nodes.filter (fun n => s.nodePresent n && s.nodeKind n == 0 && s.nodeLive n))
    (fun n s =>
      let s := s.anchorCatchUp n
      if s.nodeNat n 0x28 8 + s.nodeSto n * second ≤ s.now then s.supervision n else s) s

/-- The wake's last stage has completed: domains, front ends and mode are the target's (R465, R466, R470); in a boot the
mode follows at step 7 (R500).  A request that waited in the slot runs (R468), and a load that waited starts (R56). -/
def State.wakeDone (s : State) (w : Wake) : State :=
  let s := s.switchIn (modeDomains w.target)
  let s := { s with ctl := { s.ctl with wake := none, fronts := s.modeFronts w.target } }
  let s := (if w.boot then s else s.setMode w.target).put F.PWR_STAT_STATE (s.modePower w.target)
  let s := s.put F.PWR_WAKE_LOG_TIME (min 0xFFFFFF ((s.now - w.start) / 1000))
  let s := if w.source = 3 then s.afterRetain else s
  let s := forEach [0, 1] (fun c s => if s.cuPowered c && s.cuPhase c == 7 then s.cuStart c else s) s
  let s := if w.boot then s else s.fedWake
  ((s.backhaulEntry w.target).reqStatus w.latest 0).modeShow.modeGo

/-- The next stage of a wake begins; a stage that completed did what R466 lists for it. -/
def State.stageDone (s : State) (w : Wake) : State :=
  let s := if w.stage = 2 then s.tbmCrystal else s
  let s := if w.stage = 3 ∧ s.domOn 4 = false ∧ s.dmc.trained = true then
      { s with dmc := { s.dmc with quick := true } } else s
  if w.stage < 4 then
    let w := { w with stage := w.stage + 1, retry := false, failing := [], at' := s.now }
    { s with ctl := { s.ctl with wake := some w } }.modeShow
  else s.wakeDone w

/-- WAKE_STAGE_READY: the stage's ready signal holds; under AVS the regulator stage reads back `mv` (R466, R469). -/
def State.stageReady (s : State) (mv : Nat) : State :=
  match s.ctl.wake with
  | none => s
  | some w =>
    let s := if w.stage = 1 ∧ s.on F.PWR_STAT_AVS = true then (s.put F.PWR_AVS_STAT_MV mv).put F.PWR_AVS_STAT_NACK 0 else s
    let s := if w.retry then
        let s := (s.putBit F.PWR_WAKE_LOG_RETRIED (w.stage - 1) true).bump F.PWR_CNT_TRANS 1
        (s.setCnt cntStageRetry (s.cnt cntStageRetry + 1)).raise (598 + 2 * w.stage)
      else s
    s.stageDone w

/-- Timeout of a stage in ns (R466). -/
def stageTimeout (stage : Nat) : Nat := [2000000, 5000000, 200000, 50000].getD (stage - 1) 0

/-! ### Limp and Sprout hold -/

/-- Domains go off without a sequence, as R552 says for Limp and Fault Hold: tasks and packets are freed and counted,
sequencers halt, ports stop. -/
def State.cutDomains (s : State) (m : Nat) : State :=
  let new := modeDomains m
  let off := (List.range 14).filter (fun d => s.domOn d && !new.contains d)
  let s := s.frontsOff []
  let old := s
  let s := State.copperLoss old s.copperStops
  let s := (s.freeSlices (regionsOf off)).endRunning (clustersOf off)
  (s.dropPorts m).switchOff new false false

/-- A transition and a pending request are abandoned (R17). -/
def State.abandonMode (s : State) : State :=
  let s := { s with ctl := { s.ctl with slot := none, entry := none, wake := none, trim := none, trimLate := false, boot := none } }
  (if s.get F.TOP_MODE_REQ_STATUS = 3 then s else s.put F.TOP_MODE_REQ_STATUS 0).modeShow

/-- Entry to Limp (R104, R458, R467): AON, MGT and HST alone, P2, the host link at reduced speed, an Acorn record. -/
def State.limpEnter (s : State) : State :=
  if s.stopped || s.mode == 2 || s.on F.PWR_STAT_HOLD then s
  else
    let s := (s.abandonMode.cutDomains 2).switchIn [1, 2]
    let s := ((s.setMode 2).put F.PWR_STAT_STATE 2).hostLimp
    (s.acnRecord 8 0 0xFFFF 0 0 []).acnCount cntLimp

/-- CRYSTAL_FAIL (R104): TBM moves to the 32.768 kHz clock or the fallback, source 0, Limp; nothing in Retain and Off,
where the crystal is stopped. -/
def State.crystalFail (s : State) (bad : Nat) : State :=
  if s.mode = 3 ∨ s.mode = 0 then s
  else ((s.acnNext bad).tbmSlow.raise 0).limpEnter

/-- Sprout hold (R467, R474): no further stage runs and only reset leaves; the Acorn record carries `PWR.WAKE_LOG`. -/
def State.sproutHold (s : State) (src cls : Nat) : State :=
  let s := (s.abandonMode.put F.PWR_STAT_HOLD 1).setMode 1
  let n := s.get (F.FLT_SRC_COUNT src)
  (s.acnRecord 3 0 src cls n (natLe (s.word F.PWR_WAKE_LOG_RETRIED.addr).toNat 4)).acnCount cntSproutHold

/-- The stage `w` fails for the second time (R467). -/
def State.stageFails (s : State) (w : Wake) (failing : List Nat) : State :=
  let s := s.putBit F.PWR_WAKE_LOG_FAILED (w.stage - 1) true
  let s := s.setCnt cntStageFail (s.cnt cntStageFail + 1)
  if w.stage = 1 then s.raise 601
  else if w.stage = 2 then ((s.raise 603).raise 0).tbmSlow.limpEnter
  else if w.stage = 3 then
    let s := forEach failing (fun x s =>
      if x < 32 then ((s.eptLose [x]).loseBank x).putBit F.PWR_GRN_LOST_BANKS x true
      else if x < 100 then s.loseImage (x - 32) else s) s
    (s.raise 605).stageDone w
  else s.raise 607

/-- WAKE_STAGE_TIMEOUT: the stage is retried once from its start, or has failed twice.  `failing`: in the memory stage,
the banks and memories that are not ready. -/
def State.stageLate (s : State) (failing : List Nat) (bad : Nat) : State :=
  match s.ctl.wake with
  | none => s
  | some w =>
    let s := (s.acnNext bad).until (w.at' + stageTimeout w.stage)
    if w.retry then s.stageFails w (failing.filter (fun x => w.failing.contains x))
    else { s with ctl := { s.ctl with wake := some { w with retry := true, failing := failing, at' := s.now } } }

/-! ### Wake events (R463, R465) -/

/-- The mode a wake event goes to (R471). -/
def State.wakeTarget (s : State) : Nat :=
  let t := s.get F.PWR_WAKE_TGT_MODE
  if 6 ≤ t ∧ t ≤ 8 then t else 7

/-- A wake event, by its bit in `PWR.WAKE_EN`. -/
def State.wakeEvent (s : State) (i : Nat) : State :=
  let s := s.putBit F.PWR_WAKE_STAT_SRC i true
  if !s.fbit F.PWR_WAKE_EN_SRC i then s
  else match s.ctl.wake, s.ctl.entry with
    | some w, _ => if w.boot then s else s.bump F.PWR_WAKE_STAT_EXTRA 1
    | none, some e => if e.target = 0 then s else { s with ctl := { s.ctl with entry := some { e with wakeHeld := true } } }
    | none, none => if s.mode = 3 ∨ s.mode = 4 then s.wakeBegin s.mode s.wakeTarget false false else s

/-- The entry is abandoned at an abort point (R463): what it changed returns, the mode left stays (Island, where quorum was
lost meanwhile), and the request is discarded. -/
def State.entryAbort (s : State) (e : Entry) : State :=
  let s := { s with ctl := { s.ctl with entry := none, fronts := s.modeFronts e.source } }
  let s := if s.fedState = 4 ∧ 6 ≤ s.mode ∧ s.mode ≤ 8 then s.put F.TOP_MODE_CUR 9 else s
  let s := (s.reqStatus e.latest 0).modeShow
  let s := forEach (List.range 4) (fun n s =>
    if s.radioPowered n && s.on (F.SQ_CTL_EN n) && s.on (F.SQ_CTL_HALTED n) && s.get (F.SQ_CTL_CAUSE n) == 3 then s.seqStart n
    else s) s
  let s := forEach [0, 1] (fun c s => if s.cuPowered c && s.cuPhase c == 7 then s.cuStart c else s) s
  let s := if decide (3 ≤ e.step) && !(modeDomains e.target).contains 4 && s.dmc.trained then
      { s with dmc := { s.dmc with quick := true } } else s
  ((s.bump F.PWR_CNT_ABORTS 1).raise 608).rehome.modeGo

/-- Step 4 completes (R462, R464): the domains switch off and the mode is the target; a wake event held meanwhile is
handled from the new mode (R463). -/
def State.entryDone (s : State) (e : Entry) : State :=
  let s := if e.target = 0 then s.hostLinkDown else s
  let s := s.switchOff (modeDomains e.target) (e.target != 0) (e.target == 3)
  let s := { s with ctl := { s.ctl with entry := none, fronts := s.modeFronts e.target } }
  let s := (s.setMode e.target).put F.PWR_STAT_STATE (s.modePower e.target)
  let s := if e.target = 3 ∨ e.target = 0 then s.tbmSlow else s
  let s := if e.target = 3 then s.setCnt cntRetain (s.cnt cntRetain + 1) else s
  let s := (s.reqStatus e.latest 0).acnCommit.modeShow
  if e.target = 0 then
    let waits := match s.ctl.slot with | some r => r.latest | none => false
    let s := s.reqStatus waits 0
    let c := s.ctl
    ({ s with ctl := { c with slot := none } } : State).modeShow
  else if e.wakeHeld && decide (e.target ≠ 5) then s.wakeBegin e.target s.wakeTarget false false
  else s.modeGo

/-- ENTRY_STEP_COMPLETE: the step in hand completes; at an abort point a held wake event takes effect. -/
def State.entryStep (s : State) (bad : Nat) : State :=
  match s.ctl.entry with
  | none => s
  | some e =>
    let s := s.acnNext bad
    if e.step = 2 ∧ s.entryQuiet e = false then s
    else if e.step = 4 then s.entryDone e
    else
      let e := { e with point := e.step }
      if e.wakeHeld then s.entryAbort e
      else if e.step = 1 then (s.entryTasks e).modeShow
      else if e.step = 2 then (s.entryRetention e).modeShow
      else (s.entryIsolate e).modeShow

/-- ENTRY_TIMEOUT (R462): `PWR.ENTRY_TO` ends with tasks still running; they are ended as R43 does and the entry goes
on. -/
def State.entryTimeout (s : State) : State :=
  match s.ctl.entry with
  | none => s
  | some e =>
    if e.step ≠ 2 ∨ s.entryQuiet e = true then s
    else
      let s := s.until e.deadline
      let l := clustersOf (s.entryOff e)
      let s := if (s.runningOn l).isEmpty then s else (s.endRunning l).raise 610
      let e := { e with point := 2 }
      if e.wakeHeld then s.entryAbort e else (s.entryRetention e).modeShow

/-- WAKE_ALARM (R465, R471): TBM reaches `PWR.WAKE_AT`, once after each write of it. -/
def State.wakeAlarm (s : State) : State :=
  let at' := s.get F.PWR_WAKE_AT_NS
  if !s.ctl.alarm || at' == 2 ^ 64 - 1 then s
  else
    let s := s.until at'
    { s with ctl := { s.ctl with alarm := false } }.wakeEvent 2

/-! ### Mode requests (R19 - R23) -/

/-- A request for `t` is refused (R21). -/
def State.modeRefused (s : State) (t : Nat) : Bool :=
  let cur := s.mode
  decide (0xA ≤ t) || t == 1 || t == 2 || t == 9
    || cur == 2 || s.stopped || s.on F.PWR_STAT_HOLD || s.ctl.boot.isSome
    || (cur == 9 && decide (t < 6))
    || ((t == 3 || t == 0) && !s.on F.TIME_CLK_STAT_X32K_OK)

/-- A new latest request: the earlier one that waits or runs no longer drives STATUS (R23). -/
def State.oldRequests (s : State) : State :=
  let c := s.ctl
  let old (e : Entry) : Entry := { e with latest := false }
  let oldW (w : Wake) : Wake := { w with latest := false }
  let oldR (r : ModeReq) : ModeReq := { r with latest := false }
  { s with ctl := { c with entry := c.entry.map old, wake := c.wake.map oldW, slot := c.slot.map oldR } }

/-- GO in `TOP.MODE_REQ` files a request for `t`. -/
def State.modeFile (s : State) (t : Nat) : State :=
  if s.modeRefused t then
    (s.oldRequests.bump F.TOP_MODE_REQ_REFUSALS 1).put F.TOP_MODE_REQ_STATUS 3
  else if s.mode = 9 then
    let s := s.oldRequests
    ({ s with ctl := { s.ctl with slot := none } }.islandRequest t true).modeShow
  else
    let s := s.oldRequests
    if s.modeHeld || s.ctl.slot.isSome then
      let c := s.ctl
      ((({ s with ctl := { c with slot := some ⟨t, true⟩ } } : State).put F.TOP_MODE_REQ_STATUS 1)).modeShow
    else (s.modeStart ⟨t, true⟩).modeShow

/-- MODE_REQUEST: a write of `TOP.MODE_REQ`. -/
def State.modeRequest (s : State) (v : Word) : State :=
  let t := v.toNat % 16
  let s := s.put F.TOP_MODE_REQ_TARGET t
  if bit v.toNat 4 then s.modeFile t else s

/-! ### Trims and the AVS path (R460, R469) -/

/-- A write of `PWR.CTL`: TRIM and LRADIO; in a full mode a changed TRIM is a transition. -/
def State.trimChange (s : State) (v : Word) : State :=
  let s := s.setWord F.PWR_CTL_TRIM.addr (v &&& 7)
  if s.mode < 6 ∨ 9 < s.mode then s
  else if s.modeHeld then { s with ctl := { s.ctl with trimLate := true } }
  else s.trimBegin

/-- TRIM_CHANGE_DONE: the trim completes, or a raise that failed after its retry falls back (R460). -/
def State.trimDone (s : State) : State :=
  match s.ctl.trim with
  | none => s
  | some t =>
    if t.deadline ≠ 0 then s
    else
      let s := { s with ctl := { s.ctl with trim := none } }
      let s := if t.failed then
          let s := s.avsFail
          if t.target = 0 then s.put F.PWR_CTL_TRIM 0 else s.put F.PWR_STAT_STATE 1
        else s.put F.PWR_STAT_STATE t.target
      s.modeShow.modeGo

/-- AVS_STATUS_POLL: a response of the regulator 20 µs on.  `r`: 0 not yet at the voltage, 1 reached and read back as
`mv`, 2 not acknowledged. -/
def State.avsPoll (s : State) (r mv bad : Nat) : State :=
  if !s.on F.PWR_STAT_AVS then s
  else
    let s := s.until (s.now + 20000)
    let late (d : Nat) : Bool := r == 2 || (r == 0 && decide (d ≤ s.now))
    let seen (s : State) : State :=
      (if r = 1 then s.put F.PWR_AVS_STAT_MV mv else s).put F.PWR_AVS_STAT_NACK (b2n (r == 2))
    match s.ctl.trim, s.ctl.entry, s.ctl.wake with
    | some t, _, _ =>
      if t.deadline = 0 then s
      else
        let t' : TrimMove := if r = 1 then { t with deadline := 0 }
          else if !late t.deadline then t
          else if t.retry then { t with deadline := 0, failed := true }
          else { t with retry := true, deadline := s.now + s.avsTo }
        { seen s with ctl := { s.ctl with trim := some t' } }
    | none, some e, _ =>
      if e.avs = 0 then s
      else
        let ended := r == 1 || late e.avs
        let s' := { seen s with ctl := { s.ctl with entry := some { e with avs := if ended then 0 else e.avs } } }
        if late e.avs then s'.avsFail else s'
    | none, none, some w =>
      if w.stage ≠ 1 then s
      else if r = 2 then
        let s := (seen s).avsFail.acnNext bad
        if w.retry then s.stageFails w []
        else { s with ctl := { s.ctl with wake := some { w with retry := true, at' := s.now } } }
      else seen s
    | none, none, none => s

end Sys2Proof.Machine
end

