-- ==== Sys2Proof/Machine/View.lean ====
section
/-! DEFINITION. What a register reads when its value is computed from state that is not a register word (R133, R134,
R165, R196, R233, R330, R352, R494, R517): a view that changes nothing. -/

namespace Sys2Proof.Machine

/-- Word `i` of a wide value (R8). -/
def wordAt (v i : Nat) : Nat := v / 2 ^ (32 * i) % 2 ^ 32

/-- One entry of an egress timestamp queue as `TIME.EGTS` shows it (R133); 0 when the queue is empty. -/
def egtsView : List EgTs → Nat
  | [] => 0
  | e :: _ => e.seqid % 2 ^ 16 + e.msgtype % 16 * 2 ^ 16 + e.domain % 256 * 2 ^ 20 + 2 ^ 31 + e.ns % 2 ^ 64 * 2 ^ 32

/-- The oldest radar event as `RFB.DET_EVT` shows it (R234); 0 when none is queued. -/
def radarView : List Radar → Nat
  | [] => 0
  | e :: _ => e.subch % 2 ^ 16 + e.pulses % 256 * 2 ^ 16 + e.width % 128 * 2 ^ 24 + 2 ^ 31 + e.rssi % 256 * 2 ^ 32
      + b2n e.chirp * 2 ^ 40 + e.ns % 2 ^ 64 * 2 ^ 64

/-- State code of a husk slot (R196): 0 empty, 1 assembling, 2 ready, 3 committed. -/
def huskCode : Option Husk → Nat
  | none => 0
  | some h => h.st

/-- `SQn.HUSK_STAT` (R196): both slots' states and stored outcomes, and whether slot 1 was built first. -/
def State.huskView (s : State) (n : Nat) : Nat :=
  let first := match s.husk n 0, s.husk n 1 with
    | some a, some b => decide (a.st < 3 ∧ b.st < 3 ∧ b.order < a.order)
    | _, _ => false
  huskCode (s.husk n 0) + s.get (F.SQ_HUSK_STAT_S0_OUT n) * 16 + huskCode (s.husk n 1) * 256
    + s.get (F.SQ_HUSK_STAT_S1_OUT n) * 4096 + b2n first * 65536

/-- Code of a thread's state in `YCU.THR_STATE` (R52). -/
def ThrState.code : ThrState → Nat
  | .idle => 0
  | .run => 1
  | .wait _ => 2
  | .halt => 3
  | .off => 4

/-- Thread `t` is in HALT, so that its windows show its registers (R52). -/
def State.thrHalted (s : State) (t : Nat) : Bool := (s.thread t).st == .halt

/-- `YCU.THR_STATE[u]` (R52). -/
def State.thrView (s : State) (u : Nat) : Nat :=
  (List.range 8).foldl (fun v t => v + (s.thread (8 * u + t)).st.code * 16 ^ t) 0

/-- YCU's windows onto halted threads, by offset in the block (R52). -/
def State.ycuView (s : State) (o : Nat) : Option Nat :=
  if 0x2000 ≤ o ∧ o < 0x2100 then some (s.thrView ((o - 0x2000) / 4))
  else if 0x2200 ≤ o ∧ o < 0x2A00 then
    let t := (o - 0x2200) / 4
    some (if s.thrHalted t then (s.thread t).pc else 0)
  else if 0x10000 ≤ o ∧ o < 0x30000 then
    let i := (o - 0x10000) / 8
    some (if s.thrHalted (i / 32) then (s.reg (i / 32) (i % 32)).toNat else 0)
  else if 0x30000 ≤ o ∧ o < 0x70000 then
    let t := (o - 0x30000) / 512
    some (if s.thrHalted t then leNat (s.pwBytes t ((o - 0x30000) % 512) 4) else 0)
  else none

/-- CIP's slot report and occupancy (R352). -/
def State.cipView (s : State) (o : Nat) : Option Nat :=
  let i := s.get F.CIP_SLOT_SEL_SLOT
  let k := s.keySlot i
  if o = 0x144 then some (b2n k.loaded + k.type % 2 * 2 + s.keyGen i * 4 + k.use % 64 * 64)
  else if o = 0x148 then some (k.pn % 2 ^ 48)
  else if o = 0x180 then some (maskOf ((List.range 32).filter (fun l => (s.laneJob l).isSome)))
  else if o = 0x184 then some (min 256 (s.cip.jobs.filter (fun j => j.engine && j.lane.isNone)).length)
  else none

/-- Sources pending, merged included, and the highest level (R494). -/
def State.fltStat (s : State) : Nat :=
  let l := List.range 640
  (l.map s.level).foldl max 0 + (l.filter s.isPending).length * 4

/-- The 32 sources of word `j` that a test accepts, as a mask. -/
def sourceMask (j : Nat) (p : Nat → Bool) : Nat := maskOf ((List.range 32).filter (fun i => p (32 * j + i)))

/-- FLT's computed registers (R494): PEND shows the sources at L1 or above, STICKY mirrors `FLT.SRC`. -/
def State.fltView (s : State) (o : Nat) : Option Nat :=
  if o = 4 then some s.fltStat
  else if 0x100 ≤ o ∧ o < 0x150 then some (sourceMask ((o - 0x100) / 4) (fun n => s.on (F.FLT_SRC_STICKY n)))
  else if 0x180 ≤ o ∧ o < 0x1D0 then some (sourceMask ((o - 0x180) / 4) (fun n => decide (1 ≤ s.level n)))
  else none

/-- SEC's registers that show fuses (R506, R517); the certificate window reads 0 once the part is in RMA (R509). -/
def State.secView (s : State) (o : Nat) : Option Nat :=
  let slots (p : KeyHash → Bool) : Nat := maskOf ((List.range 4).filter (fun i => p (s.fuse.slots.getD i {})))
  if o = 0x18 then some (Config.serial % 2 ^ 64)
  else if o = 0x28 then
    some (slots (fun k => k.valid) + s.fuse.revoked % 16 * 16 + slots (fun k => !k.valid && decide (k.hash ≠ 0)) * 256
      + s.get F.SEC_KEYHASH_STAT_RUN * 4096)
  else if o = 0x74 then some (setBits (s.wide 0x1200074 1) 14 8 s.fuse.floor)
  else if 0x800 ≤ o ∧ o < 0xC00 then
    some (if s.get F.SEC_LC_STATE = 3 then 0
      else leNat ((List.range 4).map (fun i => Config.certByte (o - 0x800 + i))))
  else none

/-- TIME's and PHS's computed registers (R133, R134). -/
def State.timeView (s : State) (a : Nat) : Option Nat :=
  if a = 0x10000 then some (s.time.tbm % 2 ^ 96)
  else if a = 0x10034 then some (setBit (s.wide a 1) 2 s.time.fb)
  else if a = 0x10010 then some s.tbn
  else if 0x10040 ≤ a ∧ a < 0x10058 then some (s.tsf ((a - 0x10040) / 8))
  else if a = 0x10200 ∨ a = 0x10210 then some (egtsView (s.time.egts.getD ((a - 0x10200) / 16) []))
  else if 0x20000 ≤ a ∧ a < 0x20400 then
    let d := (a - 0x20000) / 0x100
    let o := a % 0x100
    if o = 0x14 then some (setBits (s.wide a 1) 31 16 (s.errBound d))
    else if o = 0x18 then some (s.phaseNow d)
    else if o = 0x20 then some (s.pd d).w
    else if o = 0x48 then some (s.pdPt d)
    else none
  else none

/-- Computed registers of the sequencers, the MACs and the radios (R165, R196, R231, R233, R234, R272). -/
def State.airView (s : State) (a : Nat) : Option Nat :=
  if 0x100000 ≤ a ∧ a < 0x140000 then
    let n := (a - 0x100000) / 0x10000
    let o := a % 0x10000
    if o = 0x40 then some (s.huskView n)
    else if 0x4000 ≤ o ∧ o < 0x8000 then some (leNat (s.sdBytes n (o - 0x4000) 4))
    else none
  else if a = 0x400000 then some (setBit (s.wide a 1) 2 (s.muted 3))
  else if 0x200000 ≤ a ∧ a < 0x2C0000 then
    if a % 0x40000 = 0 then some (setBit (s.wide a 1) 2 (s.muted ((a - 0x200000) / 0x40000))) else none
  else if a = 0x340108 then some (radarView (s.radio 1).radar)
  else if 0x300000 ≤ a ∧ a < 0x3C0000 then
    if a % 0x40000 = 0x1C then
      some (setBits (s.wide a 1) 31 16 (Config.rfSense ((a - 0x300000) / 0x40000) s.now))
    else none
  else none

/-- The whole value of the register whose lowest word lies at `a`, when it is computed; none when it is a stored word.
`TOP.REV` and `TOP.FEAT` show the ordering code (R546). -/
def State.computed (s : State) (a : Nat) : Option Nat :=
  if a = 0x4 then some (0xA1 + 256 * s.fuse.code.val)
  else if a = 0x8 then some (1 - s.fuse.code.val)
  else if a < 0x100000 then s.timeView a
  else if a < 0x500000 then s.airView a
  else if 0x7000A0 ≤ a ∧ a < 0x7000B0 then
    let r := (a - 0x7000A0) / 4
    some (s.storeCount r + (128 + s.matchCount r) * 65536)
  else if 0x7000C0 ≤ a ∧ a < 0x700100 then some (s.robCount ((a - 0x7000C0) / 4))
  else if 0x800000 ≤ a ∧ a < 0x880000 then s.ycuView (a - 0x800000)
  else if 0x900000 ≤ a ∧ a < 0x910000 then s.cipView (a - 0x900000)
  else if a = 0xB00008 then some s.xmMib
  else if 0xD00010 ≤ a ∧ a < 0xD00020 then
    if s.fedId = s.fedAnchor then none else some 0
  else if 0x1000000 ≤ a ∧ a < 0x1010000 then s.fltView (a - 0x1000000)
  else if 0x1180000 ≤ a ∧ a < 0x11C0000 then some (s.acnWindowRead (a - 0x1180000)).toNat
  else if 0x1200000 ≤ a ∧ a < 0x1210000 then s.secView (a - 0x1200000)
  else none

/-- The value of a register of `words` words at `a` (plus 2^32 times the requester for a per-requester register). -/
def State.view (s : State) (a words : Nat) : Nat := (s.computed a).getD (s.wide a words)

/-- One word at `a`, as a read that changes nothing sees it (R8, R484). -/
def State.viewWord (s : State) (a : Nat) : Nat := s.view a 1 % 2 ^ 32

end Sys2Proof.Machine
end

