-- ==== Sys2Proof/Machine/Faults.lean ====
section
/-! DEFINITION. The fault collector (R473 - R482): occurrences, levels, grace timers, acknowledgement, containment, level 3,
and the dump (R483 - R486). -/

namespace Sys2Proof.Machine

/-! ### Classes and timers -/

/-- Entry level of class `k` (R494). -/
def State.entryLevel (s : State) (k : Nat) : Nat :=
  if k = 2 then 3 else if k = 3 then s.get F.FLT_CLASS_CFG3_ENTRY else s.get (F.FLT_CLASS_CFG01_ENTRY k)

/-- A grace value in µs: 0 taken as 1, values above a second as a second (R494). -/
def graceUs (v : Nat) : Nat := min 1000000 (max 1 v)

/-- Grace time in ns that a source of class `k` gets on reaching level `l` (R474, R475); none at L3. -/
def State.grace (s : State) (k l : Nat) : Nat :=
  1000 * graceUs (if l = 1 then (if k = 3 then s.get F.FLT_GRACE1_3_US else s.get (F.FLT_GRACE1_01_US k))
    else (if k = 3 then s.get F.FLT_GRACE2_3_US else s.get (F.FLT_GRACE2_01_US k)))

/-- What the collector keeps of a source. -/
def State.pendOf (s : State) (n : Nat) : Option Pending := tabGet (fun _ => none) s.flt.pend n

/-- Replace what the collector keeps of a source; PEND in `FLT.SRC` follows. -/
def State.setPendOf (s : State) (n : Nat) (p : Option Pending) : State :=
  { s with flt := { s.flt with pend := tabSet (fun _ => none) s.flt.pend n p } }.put (F.FLT_SRC_PEND n) (b2n p.isSome)

/-- Pending sources of class `k`, the one that became pending earliest first, the lower number on a tie (R477). -/
def State.classPending (s : State) (k : Nat) : List Nat :=
  sortBy (fun n => ((s.pendOf n).map (·.order)).getD 0)
    ((s.flt.pend.filter (fun e => e.2.isSome && sourceClass e.1 == k)).map (·.1))

/-- The interrupt of a class that entered L1 or L2 (R424, R494). -/
def State.faultIrq (s : State) (k : Nat) : State :=
  let s := s.putBit F.FLT_IRQ_CLASS k true
  if s.on F.FLT_CTL_IRQ_HOST && s.fbit F.FLT_IRQ_EN_CLASS k then s.miscVec else s

/-- The collector interrupts management core `core` (R494). -/
def State.faultCoreIrq (s : State) (core : Nat) : Bool :=
  s.on (if core = 0 then F.FLT_CTL_IRQ_MC0 else F.FLT_CTL_IRQ_MC1)
    && (List.range 4).any (fun k => s.fbit F.FLT_IRQ_CLASS k && s.fbit F.FLT_IRQ_EN_CLASS k)

/-! ### Containment (R474: L2) -/

/-- Sequencer `k` halts with CAUSE 4 if it runs (R167). -/
def State.containSeq (s : State) (k : Nat) : State :=
  if s.on (F.SQ_CTL_EN k) && !s.on (F.SQ_CTL_HALTED k) then s.seqHalt k ⟨4, 0, 7⟩ else s.undoAll k 7

/-- The containing subsystem of source `n` halts as its chapter lays down (R45, R167, R198, R235, R273, R294, R353, R416,
R428); a block whose halt is read from the level alone needs nothing here, and a reserved source halts nothing (R549). -/
def State.contain (s : State) (n : Nat) : State :=
  if !sourceRaised n then s
  else if n = 63 then forEach (List.range 4) (fun k s => s.containSeq k) s
  else if 32 ≤ n ∧ n < 63 then s.containSeq ((n - 32) / 8)
  else if 64 ≤ n ∧ n < 256 then s.undoAll ((n - 64) % 96 / 32) 9
  else if 256 ≤ n ∧ n < 288 then s.undoAll 3 9
  else if 288 ≤ n ∧ n < 320 then State.copperLoss s (s.cuStop ((n - 288) / 16))
  else if 384 ≤ n ∧ n < 448 then s.fenceCluster ((n - 384) / 4)
  else if n = 450 ∨ n = 451 then s.cipHalt
  else if n = 529 ∨ n = 530 ∨ n = 532 then forEach (List.range 64) (fun c s => if s.on (F.DMA_CH_CTL_RUN c) then s.dmaHalt c 5 else s) s
  else if n = 561 ∨ n = 563 ∨ n = 566 then s.hostL2
  else s

/-! ### The dump (R483 - R485) -/

/-- Flash byte address of the dump region, and its size in bytes. -/
def State.dumpBase (s : State) : Nat := 0x10000 * s.get F.ACN_DUMP_CFG_OFS
def State.dumpRoom (s : State) : Nat := 0x10000 * s.get F.ACN_DUMP_CFG_SIZE

/-- Entry to Fault Hold (R458, R459, R486, R552). -/
def State.holdEnter (s : State) : State :=
  let s := (s.cutDomains 0xB).put F.PWR_STAT_STATE 2
  let s := { s with flt := { s.flt with dump := none } }
  (s.setMode 0xB).modeShow

/-- The dump ends with an outcome, image length and CRC: a DUMP record, its count, and Fault Hold (R485). -/
def State.dumpEnd (s : State) (outcome len crc : Nat) : State :=
  let no := s.get F.ACN_DUMP_CTL_DUMPNO
  let s := s.acnRecord 5 0 0xFFFF 0 0 (dumpDetail no outcome len crc)
  (s.acnCount (if outcome = 1 then cntDumpOk else cntDumpBad)).holdEnter

/-- The dump starts (R483): a running append is abandoned, core 0 reads without clearing, and an occupied region is
kept, DUMP_CTL.STATE telling which image state the byte read there shows (DEDUCED from R495 and R484, log 21). -/
def State.dumpBegin (s : State) : State :=
  let s := s.setMode 0xA
  let s := ({ s with ept := { s.ept with appends := [] } }).put (F.TOP_PEEK_EN 1) 1
  let no := s.dumpsEnded + 1
  let s := (s.put F.ACN_DUMP_CTL_DUMPNO no).modeShow
  let s := s.acnRecord 5 0 0xFFFF 0 0 (dumpDetail no 0 0 0)
  if flashBytes s.flash s.dumpBase 1 ≠ [0xFF] then
    ((s.put F.ACN_DUMP_CTL_STATE (if flashBytes s.flash s.dumpBase 1 = [0xFE] then 1 else 2)).raise 635).dumpEnd 3 0 0
  else
    let s := { s with flash := flashProgram s.flash s.dumpBase [0xFE] }
    let s := s.put F.ACN_DUMP_CTL_STATE 1
    { s with flt := { s.flt with dump := some (s.now + ms * max 1 (s.get F.FLT_DUMP_TO_MS)) } }

/-- A register word as the dump routine reads it: 0 when its domain `d` is off. -/
def State.dumpWord (s : State) (d a : Nat) : List Byte := natLe (if s.domOn d then s.viewWord a else 0) 4

/-- The dump's sections (R484): ID and content. -/
def State.dumpSections (s : State) : List (Nat × List Byte) :=
  let w := s.dumpWord
  let flt := (List.range 640).flatMap (fun n => w 0 (0x1001000 + 4 * n)) ++ (List.range 4).flatMap (fun k => w 0 (0x1000040 + 4 * k))
  let state := w 0 0x20 ++ w 0 0xF00004 ++ w 0 0xF00008 ++ w 0 0xF00040 ++ w 4 0xB00004
    ++ (List.range 4).flatMap (fun r => w 5 (0x7000A0 + 4 * r)) ++ (List.range 16).flatMap (fun c => w 5 (0x7000C0 + 4 * c))
    ++ w 5 0x800020 ++ w 5 0x900000 ++ w 5 0xE00004 ++ w 5 0xE00060 ++ w 5 0xE00064
  let thread (t : Nat) : List Byte :=
    natLe t 2 ++ natLe 0 2 ++ natLe (s.thread t).pc 4 ++ (List.range 32).flatMap (fun r => natLe (s.reg t r).toNat 8)
      ++ s.pwBytes t 0 512
  let threads := (List.range 64).flatMap (fun u => w 5 (0x802000 + 4 * u))
    ++ (if s.domOn 5 then ((List.range 512).filter s.thrHalted).flatMap thread else [])
  let seq := (List.range 4).flatMap (fun n =>
    let d := if n = 3 then 5 else 11
    let a := 0x100000 + 0x10000 * n
    w d a ++ w d (a + 4) ++ w d (a + 0x40) ++ natLe 0 4
      ++ (if s.domOn d then s.sdBytes n 0 0x4000 else List.replicate 0x4000 0))
  let ring := s.goodRing
  let acorn := (ring.drop (ring.length - 64)).flatMap (fun i => s.acnBytes (0x20000 + 64 * i) 64)
  let gran := (onesOf (s.get F.ACN_DUMP_SEL_BANKS) 32).flatMap (fun b => memBytes s.gm (0x100000 * b) 0x100000)
  let fw := memBytes s.gm (s.get F.ACN_DUMP_FW_ADDR) (min 65536 (s.get F.ACN_DUMP_FWLEN_LEN))
  [(1, flt), (2, state), (3, threads), (4, seq), (5, acorn)]
    ++ (if gran.isEmpty then [] else [(6, gran)]) ++ (if fw.isEmpty then [] else [(7, fw)])

/-- Place the sections one after the other from `off`, cut at the end of the region: ID, offset, bytes written. -/
def dumpPlace (room : Nat) : Nat → List (Nat × List Byte) → List (Nat × Nat × List Byte)
  | _, [] => []
  | off, (i, b) :: t =>
    let b := b.take (room - off)
    (i, off, b) :: dumpPlace room (off + b.length) t

/-- The image of R484, its STATE byte 0xFE, with its length and CRC. -/
def State.dumpImage (s : State) : List Byte × Nat :=
  let secs := s.dumpSections
  let l := dumpPlace s.dumpRoom (0x40 + 16 * secs.length) secs
  let table := l.flatMap (fun (i, off, b) => natLe i 2 ++ natLe 0 2 ++ natLe off 4 ++ natLe b.length 4 ++ natLe (crc32 b) 4)
  let body := table ++ l.flatMap (fun (_, _, b) => b)
  let (t3, src, mode) := s.flt.l3.getD (0, 0, 0)
  let crc := crc32 body
  ([0xFE, 0, 0, 0] ++ natLe 0x504D5544 4 ++ natLe (s.get F.ACN_DUMP_CTL_DUMPNO) 4 ++ natLe (s.cnt 0x10) 4 ++ natLe t3 8
    ++ natLe src 2 ++ natLe mode 1 ++ natLe secs.length 1 ++ natLe (0x40 + body.length) 4 ++ natLe crc 4
    ++ List.replicate 28 0 ++ body, crc)

/-- DUMP_COMPLETE (R484, R485): the image stands in the flash, STATE 0xFC programmed last. -/
def State.dumpComplete (s : State) (bad : Nat) : State :=
  if s.mode ≠ 0xA ∨ s.flt.dump.isNone then s
  else
    let s := s.acnNext bad
    let (img, crc) := s.dumpImage
    let f := flashProgram s.flash s.dumpBase (img.take s.dumpRoom)
    let s := { s with flash := flashProgram f s.dumpBase [0xFC] }
    (s.put F.ACN_DUMP_CTL_STATE 2).dumpEnd 1 img.length crc

/-- DUMP_TIMEOUT (R485): `FLT.DUMP_TO` has passed with `n` bytes of the image programmed. -/
def State.dumpTimeout (s : State) (n bad : Nat) : State :=
  match s.flt.dump with
  | none => s
  | some d =>
    let s := (s.acnNext bad).until d
    let img := (s.dumpImage.1.take s.dumpRoom).take n
    { s with flash := flashProgram s.flash s.dumpBase img }.dumpEnd 2 0 0

/-- ERASE in `ACN.DUMP_CTL` (R483, R495): ignored while a dump or an erase runs. -/
def State.dumpErase (s : State) : State :=
  if s.flt.dump.isSome || s.on F.ACN_DUMP_CTL_BUSY then s
  else (s.put F.ACN_DUMP_CTL_BUSY 1).put F.ACN_DUMP_CTL_ERASE 1

/-- DUMP_ERASE_DONE: the region is erased, or the flash failed. -/
def State.dumpEraseDone (s : State) (ok : Bool) : State :=
  if !s.on F.ACN_DUMP_CTL_BUSY then s
  else
    let a := s.dumpBase
    let z := a + s.dumpRoom
    let s := if ok then { s with flash := s.flash.filter (fun e => decide (e.1 < a ∨ z ≤ e.1)) } else s
    ((s.put F.ACN_DUMP_CTL_BUSY 0).put F.ACN_DUMP_CTL_ERASE 0).put F.ACN_DUMP_CTL_STATE (if ok then 0 else 3)

/-! ### Level 3 (R482) -/

/-- A FAULT of level 3 leaves on every UP slot (R482). -/
def State.fedLastFault (s : State) (n : Nat) : State :=
  if s.fedState = 0 then s
  else
    let dst := if s.fedId = s.fedAnchor then 0xFF else s.fedAnchor
    match s.fedMake 20 0 dst 0 (natLe n 2 ++ natLe (sourceClass n) 1 ++ natLe 3 1 ++ natLe (s.get (F.FLT_SRC_COUNT n)) 4 ++ natLe s.now 8) with
    | none => s
    | some (m, s) => forEach s.fedUp (fun k s => s.fedPut k m) s

/-- A source reaches L3 (R482): the data path stops, a HOLD record is written, and Dump or Fault Hold follows. -/
def State.level3 (s : State) (n : Nat) : State :=
  let s := { s with flt := { s.flt with l3 := some (s.now, n, s.get F.TOP_MODE_CUR + 16 * s.get F.TOP_MODE_BASE) } }
  let s := forEach ((s.yal.threads.filter (fun e => e.2.task.isSome)).map (·.1))
    (fun t s => s.setThread t { s.thread t with st := .halt }) s
  let s := forEach (List.range 4) (fun k s => s.containSeq k) s
  let s := forEach (List.range 64) (fun c s => if s.on (F.DMA_CH_CTL_RUN c) then s.dmaHalt c 5 else s) s
  let s := s.fedLastFault n
  let s := s.acnRecord 2 3 n (sourceClass n) (s.get (F.FLT_SRC_COUNT n)) []
  let s := s.abandonMode
  if s.on F.FLT_CTL_DUMP_EN && s.get F.ACN_DUMP_CFG_SIZE != 0 then s.dumpBegin else s.holdEnter

/-! ### Levels (R474 - R477) -/

/-- Source `n` reaches level `l`: its timer, interrupt, message, containment and records (R474, R480, R489, R490). -/
def State.rise (s : State) (n l : Nat) : State :=
  let k := sourceClass n
  let fresh : Pending := { order := s.flt.nextOrder }
  let p := (s.pendOf n).getD fresh
  let s := if (s.pendOf n).isSome then s else { s with flt := { s.flt with nextOrder := s.flt.nextOrder + 1 } }
  let s := s.setPendOf n (some { p with merged := none, deadline := if l < 3 then s.now + s.grace k l else 0 })
  let s := s.put (F.FLT_SRC_LEVEL n) l
  let s := if l < 3 then s.faultIrq k else s
  let count := s.get (F.FLT_SRC_COUNT n)
  let s := if l < 3 then s.fedFault n k l count s.now else s
  if l = 1 then s
  else if l = 2 then
    let s := s.contain n
    let s := if s.flt.recorded.contains n then s
      else { s with flt := { s.flt with recorded := s.flt.recorded ++ [n] } }.acnRecord 1 2 n k count []
    s.acnCount cntL2
  else
    let s := s.acnCount cntL3
    if s.stopped || s.on F.PWR_STAT_HOLD then s else s.level3 n

/-- The occurrence takes its level (R474, R477). -/
def State.takeLevel (s : State) (n : Nat) : State :=
  let k := sourceClass n
  let e := s.entryLevel k
  let l := s.classPending k
  if e = 0 then s
  else if e ≠ 1 ∨ l = [] then (if s.level n < e then s.rise n e else s)
  else if s.get F.FED_SIZE_CLASS_CLASS = 0 then
    let top := min 3 ((l.map s.level).foldl max 0 + 1)
    let s := s.bump (F.FLT_CLASS_STAT_ESC k) 1
    if s.level n < top then s.rise n top else s
  else
    let m := l.headD n
    let s := (s.bump (F.FLT_SRC_MERGE m) 1).bump (F.FLT_CLASS_STAT_MERGED k) 1
    if s.isPending n then s
    else
      let p : Pending := { order := s.flt.nextOrder, merged := some m }
      { s with flt := { s.flt with nextOrder := s.flt.nextOrder + 1 } }.setPendOf n (some p)

/-- A zeroisation with its record and its count (R348, R349, R489). -/
def State.zeroiseBy (s : State) (cause : Nat) : State :=
  let s := s.zeroise cause
  let z := natLe (s.viewWord 0x900170) 4
  let src := if cause = 0x3FF then 0xFFFF else cause
  (s.acnRecord 4 0 src (if cause = 0x3FF then 0 else 3) (if cause = 0x3FF then 0 else s.get (F.FLT_SRC_COUNT cause)) z).acnCount
    cntZeroise

/-- One occurrence of source `n` (R473). -/
def State.occur (s : State) (n : Nat) (forced : Bool) : State :=
  let s := s.put (F.FLT_SRC_FORCED n) (b2n forced)
  let s := if sourceRaised n then s.put (F.FLT_SRC_STICKY n) 1 else s
  let s := s.bump (F.FLT_SRC_COUNT n) 1
  let s := if sourceClass n = 3 ∧ (n ≠ 619 ∨ s.ctl.boot = none) then s.zeroiseBy n else s
  if n = 601 ∨ n = 619 then (if s.stopped || s.on F.PWR_STAT_HOLD then s else s.sproutHold n (sourceClass n))
  else s.takeLevel n

/-! ### The end of a clock (R477) -/

/-- The occurrences of a clock, once each, in ascending source number; forced when one of them is (R477, R478). -/
def occurrences (l : List (Nat × Bool)) : List (Nat × Bool) :=
  (sortBy id (l.foldl (fun r e => addOnce r e.1) [])).map (fun n => (n, l.any (fun e => e.1 == n && e.2)))

/-- Sequencers ordered to halt do so at their instruction boundary (R47). -/
def State.haltSeqs (s : State) : State :=
  forEach (List.range 4) (fun n s => match (s.seq n).halting with | some r => s.seqHalt n r | none => s) s

/-- Nothing waits for the end of the clock. -/
def State.quiet (s : State) : Bool := s.raised.isEmpty && (List.range 4).all (fun n => (s.seq n).halting.isNone)

/-- Rounds of the collector: the halts ordered, then the occurrences reported; what these report in turn comes next. -/
def State.collect (s : State) : Nat → State
  | 0 => s
  | k + 1 =>
    if s.quiet then s
    else
      let s := s.haltSeqs
      let l := occurrences s.raised
      (forEach l (fun (e : Nat × Bool) (s : State) => s.occur e.1 e.2) ({ s with raised := [] } : State)).collect k

/-- Nothing waits any more: what 16 rounds have not taken is gone (no chain of the spec's reports is that long, log 6). -/
def State.calm (s : State) : State :=
  if s.quiet then s else { s with raised := [], seqs := s.seqs.map (fun q => { q with halting := none }) }

/-- The end of a command: the sequencers halt, the collector takes the occurrences (R47, R477), and the output pins
follow the state. -/
def State.settle (s : State) : State := (s.collect 16).calm.close

/-! ### Grace timers and acknowledgement -/

/-- The grace timer of source `n` at level `l` expires (R474, R475). -/
def State.graceExpiry (s : State) (n l bad : Nat) : State :=
  match s.pendOf n with
  | some p => if s.level n = l ∧ p.merged = none then ((s.acnNext bad).until p.deadline).rise n (l + 1) else s
  | none => s

/-- Source `n` leaves the pending state, and with it the alarm of a zeroisation (R349, R476). -/
def State.unpend (s : State) (n : Nat) : State := ((s.setPendOf n none).put (F.FLT_SRC_LEVEL n) 0).alarmAck n

/-- What the block does when its source is acknowledged (R223, R230, R294, R428). -/
def State.released (s : State) (n : Nat) : State :=
  if 160 ≤ n ∧ n < 256 then s.lockCheck ((n - 160) / 32)
  else if 288 ≤ n ∧ n < 320 then
    let c := (n - 288) / 16
    if s.cuPowered c && s.cuPhase c == 7 && !s.cuHalted c then s.cuStart c else s
  else if 560 ≤ n ∧ n < 576 then s.hostL2End
  else s

/-- Source `n` is acknowledged (R476, R477): not when it is not pending or at L3. -/
def State.ackSource (s : State) (n : Nat) : State :=
  match s.pendOf n with
  | none => s
  | some p =>
    if s.level n = 3 then s
    else
      let s := s.unpend n
      if p.merged.isSome then s
      else
        let with' := (s.flt.pend.filter (fun e => match e.2 with | some q => q.merged == some n | none => false)).map (·.1)
        (forEach with' (fun m s => s.unpend m) s).released n

/-- The requester that `FLT.CTL.ACK_OWN` names (R494). -/
def State.ackOwner (s : State) : Nat := s.get F.FLT_CTL_ACK_OWN % 3

/-- A write of `FLT.ACK[j]` by requester `who` (R476). -/
def State.faultAck (s : State) (who j v : Nat) : State :=
  if v = 0 then s
  else if who ≠ s.ackOwner then s.bump F.FLT_HOLD_WR_COUNT 1
  else forEach (onesOf v 32) (fun i s => s.ackSource (32 * j + i)) s

/-- A write of `FLT.FORCE[j]` (R478): ignored while FORCE_EN is 0. -/
def State.faultForce (s : State) (j v : Nat) : State :=
  if !s.on F.FLT_CTL_FORCE_EN then s
  else { s with raised := s.raised ++ (onesOf v 32).map (fun i => (32 * j + i, true)) }

/-- A write of `FLT.STICKY[j]`: each 1 clears its source's bit (R473). -/
def State.stickyWrite (s : State) (j v : Nat) : State :=
  forEach (onesOf v 32) (fun i s => s.put (F.FLT_SRC_STICKY (32 * j + i)) 0) s

end Sys2Proof.Machine
end

