-- ==== Sys2Proof/Machine/Sha.lean ====
section
/-! DEFINITION. SHA-384, HMAC, the counter-mode KDF (R511) and ECDSA on brainpoolP384r1 (R502).  The spec names the
standards and does not restate them: PRESUMED (log 7). -/

namespace Sys2Proof.Machine

/-- The 80 round constants of SHA-384. -/
def shaK : List Nat :=
  [0x428A2F98D728AE22, 0x7137449123EF65CD, 0xB5C0FBCFEC4D3B2F, 0xE9B5DBA58189DBBC]
  ++ [0x3956C25BF348B538, 0x59F111F1B605D019, 0x923F82A4AF194F9B, 0xAB1C5ED5DA6D8118]
  ++ [0xD807AA98A3030242, 0x12835B0145706FBE, 0x243185BE4EE4B28C, 0x550C7DC3D5FFB4E2]
  ++ [0x72BE5D74F27B896F, 0x80DEB1FE3B1696B1, 0x9BDC06A725C71235, 0xC19BF174CF692694]
  ++ [0xE49B69C19EF14AD2, 0xEFBE4786384F25E3, 0x0FC19DC68B8CD5B5, 0x240CA1CC77AC9C65]
  ++ [0x2DE92C6F592B0275, 0x4A7484AA6EA6E483, 0x5CB0A9DCBD41FBD4, 0x76F988DA831153B5]
  ++ [0x983E5152EE66DFAB, 0xA831C66D2DB43210, 0xB00327C898FB213F, 0xBF597FC7BEEF0EE4]
  ++ [0xC6E00BF33DA88FC2, 0xD5A79147930AA725, 0x06CA6351E003826F, 0x142929670A0E6E70]
  ++ [0x27B70A8546D22FFC, 0x2E1B21385C26C926, 0x4D2C6DFC5AC42AED, 0x53380D139D95B3DF]
  ++ [0x650A73548BAF63DE, 0x766A0ABB3C77B2A8, 0x81C2C92E47EDAEE6, 0x92722C851482353B]
  ++ [0xA2BFE8A14CF10364, 0xA81A664BBC423001, 0xC24B8B70D0F89791, 0xC76C51A30654BE30]
  ++ [0xD192E819D6EF5218, 0xD69906245565A910, 0xF40E35855771202A, 0x106AA07032BBD1B8]
  ++ [0x19A4C116B8D2D0C8, 0x1E376C085141AB53, 0x2748774CDF8EEB99, 0x34B0BCB5E19B48A8]
  ++ [0x391C0CB3C5C95A63, 0x4ED8AA4AE3418ACB, 0x5B9CCA4F7763E373, 0x682E6FF3D6B2B8A3]
  ++ [0x748F82EE5DEFB2FC, 0x78A5636F43172F60, 0x84C87814A1F0AB72, 0x8CC702081A6439EC]
  ++ [0x90BEFFFA23631E28, 0xA4506CEBDE82BDE9, 0xBEF9A3F7B2C67915, 0xC67178F2E372532B]
  ++ [0xCA273ECEEA26619C, 0xD186B8C721C0C207, 0xEADA7DD6CDE0EB1E, 0xF57D4F7FEE6ED178]
  ++ [0x06F067AA72176FBA, 0x0A637DC5A2C898A6, 0x113F9804BEF90DAE, 0x1B710B35131C471B]
  ++ [0x28DB77F523047D84, 0x32CAAB7B40C72493, 0x3C9EBE0A15C9BEBC, 0x431D67C49C100D4C]
  ++ [0x4CC5D4BECB3E42B6, 0x597F299CFC657E2A, 0x5FCB6FAB3AD6FAEC, 0x6C44198C4A475817]

/-- The initial hash value of SHA-384. -/
def shaH : List Nat :=
  [0xCBBB9D5DC1059ED8, 0x629A292A367CD507, 0x9159015A3070DD17, 0x152FECD8F70E5939]
  ++ [0x67332667FFC00B31, 0x8EB44A8768581511, 0xDB0C2E0D64F98FA7, 0x47B5481DBEFA4FA4]

/-- 64-bit rotation right. -/
def ror64 (x n : Nat) : Nat := x / 2 ^ n + x % 2 ^ n * 2 ^ (64 - n)

/-- Exclusive or of three numbers. -/
def xor3 (a b c : Nat) : Nat := Nat.xor (Nat.xor a b) c

/-- The 16 big-endian 64-bit words of a 128-byte block. -/
def shaWords (b : List Nat) : List Nat := (chunks 8 16 b).map ofBe

/-- The message schedule, latest word first, `k` words on. -/
def shaSchedule : Nat → List Nat → List Nat
  | 0, w => w
  | k + 1, w =>
    let x := w.getD 1 0
    let y := w.getD 14 0
    let s1 := xor3 (ror64 x 19) (ror64 x 61) (x / 64)
    let s0 := xor3 (ror64 y 1) (ror64 y 8) (y / 128)
    shaSchedule k ((s1 + w.getD 6 0 + s0 + w.getD 15 0) % 2 ^ 64 :: w)

/-- One round with its constant and word. -/
def shaRound (v : List Nat) (kw : Nat × Nat) : List Nat :=
  match v with
  | [a, b, c, d, e, f, g, h] =>
    let s1 := xor3 (ror64 e 14) (ror64 e 18) (ror64 e 41)
    let ch := Nat.xor (Nat.land e f) (Nat.land (2 ^ 64 - 1 - e) g)
    let t1 := h + s1 + ch + kw.1 + kw.2
    let s0 := xor3 (ror64 a 28) (ror64 a 34) (ror64 a 39)
    let maj := xor3 (Nat.land a b) (Nat.land a c) (Nat.land b c)
    [(t1 + s0 + maj) % 2 ^ 64, a, b, c, (d + t1) % 2 ^ 64, e, f, g]
  | _ => v

/-- One block. -/
def shaBlock (h b : List Nat) : List Nat :=
  let w := (shaSchedule 64 (shaWords b).reverse).reverse
  List.zipWith (fun x y => (x + y) % 2 ^ 64) h ((List.zip shaK w).foldl shaRound h)

/-- The padded message. -/
def shaPad (m : List Nat) : List Nat :=
  m ++ [0x80] ++ List.replicate ((239 - m.length % 128) % 128) 0 ++ beBytes (8 * m.length) 16

/-- SHA-384 of bytes. -/
def sha384 (m : List Nat) : List Nat :=
  let p := shaPad m
  (((chunks 128 (p.length / 128) p).foldl shaBlock shaH).flatMap (fun x => beBytes x 8)).take 48

/-- HMAC-SHA-384. -/
def hmac384 (key msg : List Nat) : List Nat :=
  let k := (if 128 < key.length then sha384 key else key)
  let k := k ++ List.replicate (128 - k.length) 0
  sha384 (k.map (Nat.xor 0x5C) ++ sha384 (k.map (Nat.xor 0x36) ++ msg))

/-- The counter-mode KDF of R511: 32-bit counter, label, a zero byte, no context, 32-bit output length in bits; 448 bits. -/
def kdf448 (key label : List Nat) : List Nat :=
  let blk (i : Nat) : List Nat := hmac384 key (beBytes i 4 ++ label ++ [0] ++ beBytes 448 4)
  (blk 1 ++ blk 2).take 56

/-! ### brainpoolP384r1 -/

/-- The field prime. -/
def ecP : Nat := 0x8CB91E82A3386D280F5D6F7E50E641DF152F7109ED5456B412B1DA197FB71123ACD3A729901D1A71874700133107EC53
/-- The coefficient a. -/
def ecA : Nat := 0x7BC382C63D8C150C3C72080ACE05AFA0C2BEA28E4FB22787139165EFBA91F90F8AA5814A503AD4EB04A8C7DD22CE2826
/-- The coefficient b. -/
def ecB : Nat := 0x04A8C7DD22CE28268B39B55416F0447C2FB77DE107DCD2A62E880EA53EEB62D57CB4390295DBC9943AB78696FA504C11
/-- The base point. -/
def ecG : Nat × Nat :=
  (0x1D1C64F068CF45FFA2A63A81B7C13F6B8847A3E77EF14FE3DB7FCAFE0CBD10E8E826E03436D646AAEF87B2E247D4AF1E,
   0x8ABE1D7520F9C2A45CB1EB8E95CFD55262B70B29FEEC5864E19C054FF99129280E4646217791811142820341263C5315)
/-- The order of the base point. -/
def ecN : Nat := 0x8CB91E82A3386D280F5D6F7E50E641DF152F7109ED5456B31F166E6CAC0425A7CF3AB6AF6B7FC3103B883202E9046565

/-- Powers modulo `m`, over the low `k` bits of the exponent. -/
def powMod (m b e : Nat) : Nat → Nat
  | 0 => 1
  | k + 1 => let r := powMod m b (e / 2) k; let q := r * r % m; if e % 2 = 1 then q * b % m else q

/-- The inverse modulo a prime. -/
def invMod (m a : Nat) : Nat := powMod m (a % m) (m - 2) 384

/-- Sum of two points of the curve; none is the point at infinity. -/
def ecAdd : Option (Nat × Nat) → Option (Nat × Nat) → Option (Nat × Nat)
  | none, q => q
  | p, none => p
  | some (x1, y1), some (x2, y2) =>
    if x1 = x2 ∧ (y1 + y2) % ecP = 0 then none
    else
      let l := if x1 = x2 then (3 * x1 * x1 + ecA) * invMod ecP (2 * y1) % ecP
        else (y2 + ecP - y1) * invMod ecP (x2 + ecP - x1) % ecP
      let x := (l * l + 2 * ecP - x1 - x2) % ecP
      some (x, (l * (x1 + ecP - x) + ecP - y1) % ecP)

/-- A multiple of a point, over the low `k` bits of the scalar. -/
def ecMul (p : Option (Nat × Nat)) (n : Nat) : Nat → Option (Nat × Nat)
  | 0 => none
  | k + 1 =>
    let h := ecMul p (n / 2) k
    let d := ecAdd h h
    if n % 2 = 1 then ecAdd d p else d

/-- The point lies on the curve. -/
def ecOn (x y : Nat) : Bool :=
  decide (x < ecP ∧ y < ecP ∧ (y * y) % ecP = (x * x * x + ecA * x + ecB) % ecP)

/-- ECDSA verification of a hash under a 97-byte public key (R502): 48-byte r and s. -/
def ecVerify (pub hash r s : List Nat) : Bool :=
  let x := ofBe ((pub.drop 1).take 48)
  let y := ofBe ((pub.drop 49).take 48)
  let rn := ofBe r
  let sn := ofBe s
  let e := ofBe hash
  let w := invMod ecN sn
  let q := ecAdd (ecMul (some ecG) (e * w % ecN) 384) (ecMul (some (x, y)) (rn * w % ecN) 384)
  pub.getD 0 0 == 4 && ecOn x y && decide (0 < rn ∧ rn < ecN ∧ 0 < sn ∧ sn < ecN)
    && (match q with | some (qx, _) => qx % ecN == rn | none => false)

/-- ECDSA signature of a hash with a private scalar and a signing nonce: r and s, 48 bytes each. -/
def ecSign (d nonce : Nat) (hash : List Nat) : List Nat :=
  let k := nonce % (ecN - 1) + 1
  match ecMul (some ecG) k 384 with
  | none => List.replicate 96 0
  | some (x, _) =>
    let r := x % ecN
    beBytes r 48 ++ beBytes (invMod ecN k * (ofBe hash + r * d) % ecN) 48

end Sys2Proof.Machine
end

