-- ==== Sys2Proof/Machine/Image.lean ====
section
/-! DEFINITION. The Hull envelope (R502 - R504): reading a header and a section table from flash or Granary, and the checks
in their order. -/

namespace Sys2Proof.Machine

/-- Where an image lies: flash slot at a byte address, or Granary at an address. -/
inductive ImgAt where
  | flash (a : Nat)
  | gm (a : Nat)
deriving DecidableEq, Repr

/-- `n` bytes of an image from offset `o`. -/
def State.imgBytes (s : State) : ImgAt → Nat → Nat → List Byte
  | .flash a, o, n => flashBytes s.flash (a + o) n
  | .gm a, o, n => memBytes s.gm (a + o) n

/-- A little-endian field of an image. -/
def State.imgNat (s : State) (p : ImgAt) (o n : Nat) : Nat := leNat (s.imgBytes p o n)

/-- One section entry (R503). -/
structure Section where
  type : Nat
  off : Nat
  len : Nat
  dest : Nat
  hash : List Byte
deriving DecidableEq, Repr

/-- Section entry `i`. -/
def State.imgSection (s : State) (p : ImgAt) (i : Nat) : Section :=
  let o := 0x100 + 64 * i
  ⟨s.imgNat p o 1, s.imgNat p (o + 4) 4, s.imgNat p (o + 8) 4, s.imgNat p (o + 12) 4, s.imgBytes p (o + 16) 48⟩

/-- The section table. -/
def State.imgSections (s : State) (p : ImgAt) : List Section := (List.range (s.imgNat p 6 2)).map (s.imgSection p)

/-- Two sections share a byte. -/
def overlaps (a b : Section) : Bool := decide (a.off < b.off + b.len ∧ b.off < a.off + a.len ∧ 0 < a.len ∧ 0 < b.len)

/-- Some two sections of a list overlap. -/
def anyOverlap : List Section → Bool
  | [] => false
  | a :: l => l.any (overlaps a) || anyOverlap l

/-- HDR of R504: magic, version, count, length; every section in bounds, aligned, apart from the others, of a type of R503;
exactly one of type 1. -/
def State.imgHeaderGood (s : State) (p : ImgAt) : Bool :=
  let n := s.imgNat p 6 2
  let total := s.imgNat p 8 4
  let l := s.imgSections p
  decide (s.imgNat p 0 4 = 0x4C4C5548 ∧ s.imgNat p 4 2 = 1 ∧ 1 ≤ n ∧ n ≤ 16 ∧ total ≤ 0x1000000)
    && l.all (fun x => decide (0x100 + 64 * n ≤ x.off ∧ x.off + x.len ≤ total ∧ x.off % 64 = 0 ∧ (x.type = 1 ∨ x.type = 2)))
    && !anyOverlap l && decide ((l.filter (fun x => x.type == 1)).length = 1)

/-- The signed bytes: 0x000 to 0x09F followed by the section table (R502). -/
def State.imgSigned (s : State) (p : ImgAt) : List Nat :=
  nums (s.imgBytes p 0 0xA0 ++ s.imgBytes p 0x100 (64 * s.imgNat p 6 2))

/-- A 48-byte hash as the number the fuses hold, byte 0 lowest. -/
def hashNat (h : List Nat) : Nat := leNat (byteList h)

/-- Key-hash slot `i` is programmed and not revoked, and holds this hash (R504, R506). -/
def State.slotHolds (s : State) (i h : Nat) : Bool :=
  decide (i < 4) && (s.fuse.slots.getD i {}).valid && !bit s.fuse.revoked i && (s.fuse.slots.getD i {}).hash == h

/-- KEY of R504: the claimed slot holds the public key's hash; in TEST the ROM's test key also passes. -/
def State.imgKeyGood (s : State) (p : ImgAt) : Bool :=
  let h := hashNat (sha384 (nums (s.imgBytes p 0x20 97)))
  s.slotHolds (s.imgNat p 0xD 1) h || (s.get F.SEC_LC_STATE == 0 && h == Config.testKeyHash % 2 ^ 384)

/-- SIG of R504. -/
def State.imgSigGood (s : State) (p : ImgAt) : Bool :=
  ecVerify (nums (s.imgBytes p 0x20 97)) (sha384 (s.imgSigned p)) (nums (s.imgBytes p 0xA0 48)) (nums (s.imgBytes p 0xD0 48))

/-- The checks up to and including ROLLBACK: 1 when all pass, else the code of the first that fails (R504). -/
def State.imgCheck (s : State) (p : ImgAt) : Nat :=
  if !s.imgHeaderGood p then 4
  else if !s.imgKeyGood p then 5
  else if !s.imgSigGood p then 6
  else if !bit (s.imgNat p 0xE 1) s.fuse.code.val then 7
  else if s.imgNat p 0xC 1 < s.fuse.floor then 8
  else 1

/-- A destination of R503; `host`: the image lies at GM 0, and no type-2 destination may overlap it. -/
def State.destGood (s : State) (p : ImgAt) (host : Bool) (x : Section) : Bool :=
  let total := s.imgNat p 8 4
  x.dest % 64 == 0
    && (if x.type = 1 then decide (x.dest + x.len ≤ 0xF0000)
        else decide (x.dest + x.len ≤ Config.granaryBytes) && (!host || decide (total ≤ x.dest ∨ x.len = 0)))

/-- HASH of one section. -/
def State.sectionGood (s : State) (p : ImgAt) (x : Section) : Bool :=
  byteList (sha384 (nums (s.imgBytes p x.off x.len))) == x.hash

/-- A section's bytes go to their destination (R503). -/
def State.copySection (s : State) (p : ImgAt) (x : Section) : State :=
  let b := s.imgBytes p x.off x.len
  if x.type = 1 then
    { s with sec := { s.sec with sram := memPutBytes s.sec.sram x.dest b, entry := x.dest } }
  else { s with gm := memPutBytes s.gm x.dest b }

/-- The sections are copied in order until one fails its hash: 1 or 10 (R504). -/
def State.copySections (s : State) (p : ImgAt) : List Section → Nat × State
  | [] => (1, s)
  | x :: l =>
    let good := s.sectionGood p x
    let s := s.copySection p x
    if good then s.copySections p l else (10, s)

/-- LOAD and HASH of an image that passed the earlier checks: 1, 9 or 10, and the state after copying (R504). -/
def State.imgLoad (s : State) (p : ImgAt) (host : Bool) : Nat × State :=
  let l := s.imgSections p
  if !l.all (s.destGood p host) then (9, s) else s.copySections p l

/-- All the checks of an image in place, nothing copied (R505). -/
def State.imgVerify (s : State) (p : ImgAt) : Nat :=
  let c := s.imgCheck p
  if c ≠ 1 then c
  else if !(s.imgSections p).all (s.destGood p false) then 9
  else if (s.imgSections p).all (s.sectionGood p) then 1 else 10

end Sys2Proof.Machine
end

