-- ==== Sys2Proof/Machine/Boot.lean ====
section
/-! DEFINITION. Resets (R497 - R499, R526), the boot sequence (R500, R501), and the radio die's own reset. -/

namespace Sys2Proof.Machine

/-! ### Resets -/

/-- What every reset leaves: the reset state, with the fuses, Acorn's contents, the flash and the queue (R497), and the
model's own outputs and counters. -/
def State.restart (s : State) (cause : Nat) : State :=
  { State.reset with
    fuse := s.fuse, flash := s.flash, acn := { mem := s.acn.mem }, readData := s.readData, freeCtr := s.freeCtr,
    hostOut := s.hostOut, pending := s.pending, ctl := { cause := cause, trimWrites := s.ctl.trimWrites } }

/-- A warm reset (R497): TBM counts on and the 32.768 kHz oscillator runs on; the three TSFs start at 0 again (R112,
R133). -/
def State.warm (s : State) (cause : Nat) : State :=
  let t := s.restart cause
  let t := { t with time := { t.time with tbm := s.time.tbm, tsfBase := [(s.now : Int), s.now, s.now] } }
  let t := t.put F.TIME_CLK_STAT_X32K_OK (s.get F.TIME_CLK_STAT_X32K_OK)
  { t with acn := { t.acn with due := t.now + t.acnPeriod } }

/-- POWER_ON_RESET: TBM restarts at 0 (R103, R497). -/
def State.powerOn (s : State) : State := s.restart 0

/-- The regulator stage of a wake or boot runs. -/
def State.regulating (s : State) : Bool := match s.ctl.wake with | some w => w.stage == 1 | none => false

/-- SUPPLY_PG_LOSS: cause 6, outside a regulator stage (R526). -/
def State.supplyLoss (s : State) : State := if s.supEn && !s.regulating then s.warm 6 else s

/-- BOOT_GLITCH (R516): cause 7 in steps 1 to 6 of a boot, source 620 after it. -/
def State.bootGlitch (s : State) : State := if s.ctl.boot.isSome then s.warm 7 else s.raise 620

/-- A write of `SEC.RST` (R499, R517): KEY 0x5A with WARM resets, with the writer's cause. -/
def State.warmReset (s : State) (who : Nat) : State := s.warm (if who = 0 then 2 else if who = 3 then 4 else 3)

/-- RDIE_HOLD at 1 holds the radio die in reset (R14 - R16, R164): the sequencers of its radios halt with CAUSE 3, their
husks are undone with RADIO, a channel switch ends, and both copper ports go down. -/
def State.dieHold (s : State) : State :=
  if s.on F.SEC_RST_RDIE_HOLD then s
  else
    let old := s
    let s := s.put F.SEC_RST_RDIE_HOLD 1
    let s := forEach (List.range 4) (fun n s =>
      if s.on (F.SQ_CTL_EN n) && !s.on (F.SQ_CTL_HALTED n) then s.seqHalt n ⟨3, 0, 9⟩ else s.undoAll n 9) s
    let s := forEach (List.range 3) (fun n s =>
      ((s.setRadio n { s.radio n with csw := none }).put (F.RF_CSW_CTL_GO n) 0).put (F.RF_RF_STAT_LOCK n) 0) s
    let s := forEach [0, 1] (fun c s => (s.raiseIf (s.cuUp c) (289 + 16 * c)).cuStop c) s
    State.copperLoss old s

/-- RDIE_HOLD at 0 releases it: the ports start again. -/
def State.dieRelease (s : State) : State :=
  if !s.on F.SEC_RST_RDIE_HOLD then s
  else
    let s := s.put F.SEC_RST_RDIE_HOLD 0
    forEach [0, 1] (fun c s => if s.cuPowered c && s.cuPhase c == 7 && !s.cuHalted c then s.cuStart c else s) s

/-! ### Fresh random bytes -/

/-- `n` bytes of the DRBG (R336): free values (log 3). -/
def State.drbg (s : State) (n : Nat) : List Byte × State :=
  ((List.range n).map (Config.drbgByte s.freeCtr), { s with freeCtr := s.freeCtr + 1 })

/-! ### Measurements (R512) -/

/-- Offset of measurement `i`. -/
def measAt (i : Nat) : Nat := 0x1200140 + 0x30 * i

/-- Measurement `i` as bytes. -/
def State.meas (s : State) (i : Nat) : List Byte := natLe (s.wide (measAt i) 12) 48

/-- Set measurement `i`. -/
def State.setMeas (s : State) (i : Nat) (h : List Nat) : State := s.setWide (measAt i) 12 (hashNat h)

/-- MEAS[i] becomes the hash of itself followed by more bytes. -/
def State.measExtend (s : State) (i : Nat) (more : List Byte) : State := s.setMeas i (sha384 (nums (s.meas i ++ more)))

/-! ### The boot (R500, R501) -/

/-- Slot B's flash byte (R501). -/
def slotB : Nat := if Config.bslot % 65536 = 0 then 0x1000000 else Config.bslot % 65536 * 65536

/-- Identity private key (R511); none after seed kill (R509). -/
def State.identityKey (s : State) : Option Nat :=
  if s.fuse.kill then none
  else
    let v := ofBe (kdf448 (beBytes (Config.seed % 2 ^ 256) 32) (nums ([0x43, 0x48, 0x39, 0x36, 0x34, 0x30, 0x20, 0x49, 0x44])))
    some (v % (ecN - 1) + 1)

/-- Step 1 (R500, R518): straps latched, fuses sensed; a failed check is source 619. -/
def State.bootFuses (s : State) (avs boot ok : Bool) : State :=
  let s := ((s.put F.SEC_STRAP_AVS (b2n avs)).put F.SEC_STRAP_BOOT (b2n boot)).put F.SEC_STRAP_BSLOT Config.bslot
  if ok then
    let s := (s.put F.SEC_LC_STATE s.fuse.lifecycle).put F.PWR_STAT_AVS (b2n avs)
    { s with ctl := { s.ctl with boot := some 2 } }
  else (s.acnLoad.put F.SEC_BOOT_STAT_FUSEERR 1).raise 619

/-- Step 3 (R500): keys, memories and measurements stand cleared by the reset; the identity key is derived. -/
def State.bootPower (s : State) : State :=
  { s with sec := { s.sec with key := s.identityKey }, ctl := { s.ctl with boot := some 4 } }

/-- An image is chosen and loaded: SVN, key index and hash are noted, and step 5 follows. -/
def State.bootLoaded (s : State) (p : ImgAt) (src : Nat) : State :=
  let s := (s.put F.SEC_BOOT_STAT_SRC src).put F.SEC_KEYHASH_STAT_RUN (s.imgNat p 0xD 1)
  { s with acn := { s.acn with svn := s.imgNat p 0xC 1 },
           sec := { s.sec with image := true, signed := hashNat (sha384 (s.imgSigned p)) },
           ctl := { s.ctl with boot := some 5 } }

/-- Result field of a slot: 0 A, 1 B. -/
def resField (i : Nat) : Fld := if i = 0 then F.SEC_BOOT_STAT_RESA else F.SEC_BOOT_STAT_RESB

/-- Where slot `i` lies. -/
def slotAt (i : Nat) : ImgAt := .flash (if i = 0 then 0 else slotB)

/-- The slots in the order Sprout prefers them: higher SVN, then higher BUILD, then A (R501). -/
def State.slotOrder (s : State) : List Nat :=
  let v (i : Nat) : Nat := s.imgNat (slotAt i) 0xC 1 * 2 ^ 64 + s.imgNat (slotAt i) 0x10 8
  if v 0 < v 1 then [1, 0] else [0, 1]

/-- Load the slots of a list in turn until one boots; `rd`: outcome of slot i's flash reads, 0 good, 1 its header, 2 its
sections fail after one retry. -/
def State.bootSlots (s : State) (rd : Nat → Nat) : List Nat → State
  | [] => (s.put F.SEC_BOOT_STAT_WAIT 1).raise 617
  | i :: l =>
    let (c, s) := if rd i = 2 then (3, s) else s.imgLoad (slotAt i) false
    let s := s.put (resField i) c
    if c = 1 then s.bootLoaded (slotAt i) i else ((s.raise 616).settle).bootSlots rd l

/-- Step 4 with the flash (R501): both headers are checked, and the valid slots tried. -/
def State.bootFlash (s : State) (rd : Nat → Nat) : State :=
  let check (i : Nat) : Nat := if rd i = 1 then 3 else s.imgCheck (slotAt i)
  let ok := s.slotOrder.filter (fun i => check i == 1)
  let s := forEach [0, 1] (fun i (s : State) =>
    if check i = 1 then s.put (resField i) 2 else ((s.put (resField i) (check i)).raise 616).settle) s
  s.bootSlots rd ok

/-- Step 5 (R512): MEAS0 and MEAS1. -/
def State.bootMeasure (s : State) : State :=
  let lc := s.get F.SEC_LC_STATE
  let s := s.setWide (measAt 0) 12 s.sec.signed
  let s := s.setMeas 1 (sha384 [lc, s.get F.SEC_KEYHASH_STAT_RUN, s.acn.svn, s.fuse.floor, s.get F.SEC_BOOT_STAT_SRC,
    b2n (lc != 2)])
  { s with ctl := { s.ctl with boot := some 6 } }.wakeBegin 1 6 false true

/-- Step 7: Service, and both management cores start at the image's entry. -/
def State.bootDone (s : State) : State := ({ s with ctl := { s.ctl with boot := none } }.setMode 6).modeShow

/-- BOOT_STEP_COMPLETE: the step in hand completes (R500).  `avs`, `boot`, `fuses`: the straps and the fuse check of step 1;
`rdA`, `rdB`: the flash reads of step 4; `bad`: the Acorn write of steps 1 and 2. -/
def State.bootStep (s : State) (avs boot fuses : Bool) (rdA rdB bad : Nat) : State :=
  match s.ctl.boot with
  | some 1 => (s.acnNext bad).bootFuses avs boot fuses
  | some 2 => { (s.acnNext bad).acnBoot s.ctl.cause with ctl := { s.ctl with boot := some 3 } }
  | some 3 => s.bootPower
  | some 4 =>
    if s.on F.SEC_BOOT_STAT_WAIT then s
    else if s.on F.SEC_STRAP_BOOT then s.put F.SEC_BOOT_STAT_WAIT 1
    else s.bootFlash (fun i => if i = 0 then rdA else rdB)
  | some 5 => s.bootMeasure
  | some 6 => if s.ctl.wake.isNone && (List.range 14).all s.domOn then s.bootDone else s
  | _ => s

/-- GO in `SEC.HLOAD_CTL` (R501): the aperture closes and the image at GM 0 is checked and loaded. -/
def State.hostImage (s : State) : State :=
  if !s.on F.SEC_BOOT_STAT_WAIT then s
  else
    let p : ImgAt := .gm 0
    let s := s.put F.SEC_BOOT_STAT_WAIT 0
    let c := s.imgCheck p
    let (c, t) := if c = 1 then s.imgLoad p true else (c, s)
    let t := t.put F.SEC_BOOT_STAT_RESH c
    if c = 1 then t.bootLoaded p 2 else ((t.put F.SEC_BOOT_STAT_WAIT 1).raise 616).raise 617

/-! ### Requesters (R508, R551) -/

/-- The debug port's right (R508), which a SEC source at L2 closes (R518). -/
def State.debugRight (s : State) : Bool :=
  let lc := s.get F.SEC_LC_STATE
  (lc == 0 || lc == 3 || s.on F.SEC_DBG_CTL_OPEN || (lc == 1 && !s.on F.SEC_LOCK_LOCK)) && !s.halted (span 616 632)

/-- Management core `k` runs (R483, R486, R500). -/
def State.coreRuns (s : State) (k : Nat) : Bool :=
  s.mode != 0xB && (k == 0 || (s.mode != 0xA && s.ctl.boot.isNone && s.sec.image))

/-- A requester reaches the control window (R551): 0 host, 1 and 2 management cores, 3 debug port. -/
def State.reaches (s : State) (who : Nat) : Bool :=
  let early := match s.ctl.boot with | some k => decide (k < 3) | none => s.on F.SEC_BOOT_STAT_FUSEERR
  !early
    && (if who = 0 then s.domOn 2 && s.on F.HST_LINK_UP
        else s.domOn 1 && (if who = 3 then s.debugRight else s.coreRuns (who - 1)))

end Sys2Proof.Machine
end

