-- ==== Sys2Proof/Machine/Sec.lean ====
section
/-! DEFINITION. SEC's commands (R505 - R515): the verifier, fuses, lifecycle, measurements, quotes, debug unlock, the
watchdog; and TOP's temperature logic (R537, R550). -/

namespace Sys2Proof.Machine

/-! ### The verifier (R505) -/

/-- GO in `SEC.VER_CTL`: ignored while BUSY. -/
def State.verify (s : State) (who : Nat) : State :=
  if s.on (F.SEC_VER_CTL_BUSY who) then s
  else
    let a := s.get (F.SEC_VER_SRC_ADDR who) / 64 * 64
    ({ s with sec := { s.sec with vers := s.sec.vers ++ [(who, a)] } }.put (F.SEC_VER_CTL_BUSY who) 1).put (F.SEC_VER_CTL_GO who) 1

/-- IMAGE_VERIFY_DONE: the oldest run reports. -/
def State.verifyDone (s : State) : State :=
  match s.sec.vers with
  | [] => s
  | (who, a) :: l =>
    let c := s.imgVerify (.gm a)
    let s := { s with sec := { s.sec with vers := l } }
    ((s.put (F.SEC_VER_CTL_BUSY who) 0).put (F.SEC_VER_CTL_GO who) 0).put (F.SEC_VER_CTL_RESULT who) c

/-! ### Fuses (R506 - R509) -/

/-- A fuse or lifecycle command is refused: ERR in field `err`, source 621. -/
def State.fuseRefused (s : State) (err : Fld) : State := (s.put err 1).raise 621

/-- GO in `SEC.ARB` (R507): refused above the running image's SVN or at or below the floor; ignored while a burn runs. -/
def State.arbGo (s : State) : State :=
  let t := s.get F.SEC_ARB_TARGET
  if s.sec.arb.isSome then s
  else if s.acn.svn < t ∨ t ≤ s.fuse.floor then (s.put F.SEC_ARB_ERR 1).raise 622
  else ({ s with sec := { s.sec with arb := some (min 64 t) } }.put F.SEC_ARB_GO 1).put F.SEC_ARB_ERR 0

/-- ARB_FUSE_BURNED: one fuse, in order, until the floor reaches TARGET (R507). -/
def State.arbBurned (s : State) : State :=
  match s.sec.arb with
  | none => s
  | some t =>
    let s := if s.fuse.floor < t then { s with fuse := { s.fuse with floor := s.fuse.floor + 1 } } else s
    if t ≤ s.fuse.floor then { s with sec := { s.sec with arb := none } }.put F.SEC_ARB_GO 0 else s

/-- GO in `SEC.LC_CTL` (R509): the fuses burn, and the new state applies from the next reset. -/
def State.lifecycleGo (s : State) : State :=
  let t := s.get F.SEC_LC_CTL_TARGET
  if t ≤ s.fuse.lifecycle ∨ s.get F.SEC_LC_CTL_CONFIRM ≠ 0x3C
      ∨ (t = 2 ∧ s.fuse.slots.all (fun k => !k.valid) = true)
      ∨ (t = 3 ∧ s.sec.image = false ∧ s.on F.SEC_DBG_CTL_OPEN = false) then s.fuseRefused F.SEC_LC_CTL_ERR
  else
    { s with fuse := { s.fuse with lifecycle := t, kill := s.fuse.kill || t == 3 } }.put F.SEC_LC_CTL_ERR 0

/-- The staged hash, byte 0 lowest. -/
def State.stagedHash (s : State) : Nat := s.wide 0x1200040 12

/-- A slot can be programmed: it is neither valid nor spoiled (R506). -/
def KeyHash.blank (k : KeyHash) : Bool := !k.valid && k.hash == 0

/-- GO in `SEC.FUSE_CTL` with TARGET 0-3 (R506, R508): a key-hash slot, its valid fuse last. -/
def State.fuseKeyHash (s : State) (i : Nat) : State :=
  if !(s.fuse.slots.getD i {}).blank || decide (2 ≤ s.get F.SEC_LC_STATE) then s.fuseRefused F.SEC_FUSE_CTL_ERR
  else
    { s with fuse := { s.fuse with slots := setAt s.fuse.slots i ⟨s.stagedHash, true⟩ } }.put F.SEC_FUSE_CTL_ERR 0

/-- TARGET 4: the debug-key slot. -/
def State.fuseDebug (s : State) : State :=
  if !s.fuse.dbgKey.blank || decide (2 ≤ s.get F.SEC_LC_STATE) then s.fuseRefused F.SEC_FUSE_CTL_ERR
  else { s with fuse := { s.fuse with dbgKey := ⟨s.stagedHash, true⟩ } }.put F.SEC_FUSE_CTL_ERR 0

/-- Slots valid and not revoked. -/
def State.goodSlots (s : State) : List Nat :=
  (List.range 4).filter (fun i => (s.fuse.slots.getD i {}).valid && !bit s.fuse.revoked i)

/-- TARGET 5 revokes SLOT (R508, R509): not the running image's, nor the last unrevoked valid one. -/
def State.fuseRevoke (s : State) (i : Nat) : State :=
  let lc := s.get F.SEC_LC_STATE
  if (lc ≠ 1 ∧ lc ≠ 2) ∨ (s.sec.image = true ∧ s.get F.SEC_KEYHASH_STAT_RUN = i) ∨ s.goodSlots = [i] then
    s.fuseRefused F.SEC_FUSE_CTL_ERR
  else { s with fuse := { s.fuse with revoked := setBit s.fuse.revoked i true } }.put F.SEC_FUSE_CTL_ERR 0

/-- GO in `SEC.FUSE_CTL`; TARGET 6 and 7 name nothing and are refused. -/
def State.fuseGo (s : State) : State :=
  let t := s.get F.SEC_FUSE_CTL_TARGET
  if t < 4 then s.fuseKeyHash t
  else if t = 4 then s.fuseDebug
  else if t = 5 then s.fuseRevoke (s.get F.SEC_FUSE_CTL_SLOT)
  else s.fuseRefused F.SEC_FUSE_CTL_ERR

/-! ### Measurements and quotes (R512, R513) -/

/-- GO in `SEC.MEAS_CTL`: INDEX 0 and 1 are refused. -/
def State.measGo (s : State) : State :=
  let i := s.get F.SEC_MEAS_CTL_INDEX
  if i < 2 then s else s.measExtend i (natLe (s.wide 0x1200100 12) 48)

/-- STATUS of a refused quote (R513, R518); a SEC source at L2 refuses with a STATUS no rule states, a free value (log 3). -/
def State.quoteRefusal (s : State) : Option (Nat × State) :=
  if s.get F.SEC_LC_STATE = 3 ∨ s.sec.key = none then some (1, s)
  else if s.isPending 448 then some (2, s)
  else if s.halted (span 616 632) then
    let (v, s) := s.fresh
    some (v % 4, s)
  else none

/-- GO in `SEC.QUOTE_CTL`: ignored while BUSY; the nonce and the address are taken. -/
def State.quoteGo (s : State) (who : Nat) : State :=
  if s.on (F.SEC_QUOTE_CTL_BUSY who) then s
  else match s.quoteRefusal with
    | some (v, s) => s.put (F.SEC_QUOTE_CTL_STATUS who) v
    | none =>
      let nonce := natLe (s.wide (0x1200300 + 0x100000000 * who) 12) 48
      let dst := s.get (F.SEC_QUOTE_DST_ADDR who) / 64 * 64
      let s := { s with sec := { s.sec with quotes := s.sec.quotes ++ [(who, nonce, dst)] } }
      (s.put (F.SEC_QUOTE_CTL_BUSY who) 1).put (F.SEC_QUOTE_CTL_GO who) 1

/-- The signed part of a quote, 0x000 to 0x1CF (R513). -/
def State.quoteBody (s : State) (nonce : List Byte) : List Byte :=
  natLe 0x544F5551 4 ++ natLe 1 2 ++ natLe 560 2 ++ natLe Config.serial 8 ++ natLe s.now 8 ++ natLe (s.cnt 0x10) 4
    ++ natLe (s.get F.SEC_LC_STATE) 1 ++ natLe (s.get F.SEC_KEYHASH_STAT_RUN) 1 ++ natLe s.acn.svn 1 ++ natLe s.fuse.floor 1
    ++ nonce ++ (List.range 8).flatMap s.meas

/-- The order in which waiting quotes are signed: that of the window (R513). -/
def State.nextQuote (s : State) : Option (Nat × List Byte × Nat) := s.sec.quotes.head?

/-- QUOTE_DONE: the oldest quote is signed and written, or refused (R513). -/
def State.quoteDone (s : State) : State :=
  match s.nextQuote with
  | none => s
  | some (who, nonce, dst) =>
    let s := { s with sec := { s.sec with quotes := s.sec.quotes.drop 1 } }
    let s := (s.put (F.SEC_QUOTE_CTL_BUSY who) 0).put (F.SEC_QUOTE_CTL_GO who) 0
    match s.quoteRefusal with
    | some (v, s) => s.put (F.SEC_QUOTE_CTL_STATUS who) v
    | none =>
      let body := s.quoteBody nonce
      let (k, s) := s.drbg 48
      let sig := ecSign (s.sec.key.getD 0) (leNat k) (sha384 (nums body))
      let quote := (body ++ byteList sig).take (Config.granaryBytes - dst)
      { s with gm := memPutBytes s.gm dst quote }.put (F.SEC_QUOTE_CTL_STATUS who) 0

/-! ### Debug unlock (R514) -/

/-- REQ: a fresh challenge. -/
def State.debugChallenge (s : State) : State :=
  let (b, s) := s.drbg 32
  { s.setWide 0x1200400 8 (leNat b) with sec := { s.sec with chal := true } }

/-- The response unlocks: its key is the debug slot's and its signature verifies. -/
def State.debugGood (s : State) : Bool :=
  let resp := nums (natLe (s.wide 0x1200420 49) 196)
  let pub := (resp.drop 96).take 97
  let text := nums (natLe (s.wide 0x1200400 8) 32 ++ natLe Config.serial 8)
  s.sec.chal && !s.on F.SEC_DBG_CTL_BARRED && s.fuse.dbgKey.valid && s.fuse.dbgKey.hash == hashNat (sha384 pub)
    && ecVerify pub (sha384 text) (resp.take 48) ((resp.drop 48).take 48)

/-- SUBMIT: OPEN until reset, MEAS1 extended and, in DEPLOYED, the key store zeroised; or a failure, and BARRED after the
third. -/
def State.debugSubmit (s : State) (bad : Nat) : State :=
  let good := s.debugGood
  let s : State := { s.acnNext bad with sec := { s.sec with chal := false } }
  if good then
    let s := (s.put F.SEC_DBG_CTL_OPEN 1).measExtend 1 [1]
    if s.get F.SEC_LC_STATE = 2 then s.zeroiseBy 0x3FF else s
  else
    let s := s.bump F.SEC_DBG_CTL_FAILS 1
    let s := if s.get F.SEC_DBG_CTL_FAILS = 3 then s.put F.SEC_DBG_CTL_BARRED 1 else s
    s.raise 618

/-! ### Watchdog (R515) -/

/-- MS in ns, 0 taken as 1. -/
def State.wdtLimit (s : State) : Nat := max 1 (s.get F.SEC_WDT_MS) * ms

/-- The count restarts. -/
def State.wdtRestart (s : State) : State := { s with sec := { s.sec with wdtUsed := 0, wdtAt := s.now } }

/-- A write of `SEC.WDT`: EN starts the watchdog, and MS applies at once to a running count. -/
def State.wdtWrite (s : State) (v : Word) : State :=
  let was := s.on F.SEC_WDT_EN
  let s := s.put F.SEC_WDT_MS (v.toNat % 65536)
  if was then (if s.wdtRuns && decide (s.wdtLimit ≤ s.wdtCount) then s.warm 5 else s)
  else if bit v.toNat 16 then (s.put F.SEC_WDT_EN 1).wdtRestart else s

/-- A write of `SEC.WDT_KICK`. -/
def State.wdtKick (s : State) : State := s.wdtRestart

/-- WATCHDOG_EXPIRY: MS ms have been counted since the last kick, and the package resets with cause 5. -/
def State.wdtExpiry (s : State) : State :=
  if s.wdtRuns then (s.until (s.now + (s.wdtLimit - s.wdtCount))).warm 5 else s

/-! ### Temperature (R490, R537, R545, R550) -/

/-- TEMP_CONVERSION: NOW, MAX and Acorn's extremes follow; source 636 at 115 °C, armed again below 110 °C. -/
def State.tempConversion (s : State) (t : BitVec 16) : State :=
  let s := s.acnAccount
  let v := t.toInt
  let s := s.put F.TOP_TEMP_NOW t.toNat
  let s := if signed 16 (s.get F.TOP_TEMP_MAX) < v then s.put F.TOP_TEMP_MAX t.toNat else s
  let s := if signed 16 (s.cnt 0xB0) < v then s.setCnt 0xB0 t.toNat else s
  let s := if v < signed 16 (s.cnt 0xB2) then s.setCnt 0xB2 t.toNat else s
  let hot := if v < 880 then false else s.sec.hot
  let s := { s with sec := { s.sec with conv := true, hot := hot || decide (920 ≤ v) } }
  s.raiseIf (decide (920 ≤ v) && !hot) 636

/-- THERMAL_TRIP_SAMPLE: 100 samples in a row at or above 125 °C raise source 637 once; armed again below 120 °C. -/
def State.tripSample (s : State) (t : BitVec 16) (bad : Nat) : State :=
  let s := s.acnNext bad
  let v := t.toInt
  let n := if 1000 ≤ v then min 100 (s.sec.trip + 1) else 0
  let armed := if v < 960 then false else s.sec.tripped
  let fires := decide (n = 100) && !armed
  { s with sec := { s.sec with trip := n, tripped := armed || fires } }.raiseIf fires 637

end Sys2Proof.Machine
end

