-- ==== Sys2Proof/Machine/Window.lean ====
section
/-! DEFINITION. The control window (R3 - R8, R26, R456, R486, R540 - R551): which domain holds a register, how a read returns
and clears, how a plain write lands, and what an access that finds no register does. -/

namespace Sys2Proof.Machine

/-- The power domain of R455 that holds the register at `a` (R540). -/
def domainOf (a : Nat) : Nat :=
  if a < 0x1000C then 0
  else if a < 0x100000 then 5
  else if a < 0x130000 then 11
  else if a < 0x200000 then 5
  else if a < 0x400000 then 11
  else if a < 0x500000 then 5
  else if a < 0x600000 then 12
  else if a < 0xB00000 then 5
  else if a < 0xC00000 then 4
  else if a < 0xD00000 then 5
  else if a < 0xE00000 then 2
  else if a < 0xF00000 then 5
  else if a < 0x1200000 then 0
  else if a = 0x1200500 then 0
  else 1

/-- Fault Hold takes writes of the ACN block, `FLT.STICKY`, `TOP.PEEK` and `SEC.RST` (R486). -/
def holdTakes (a : Nat) : Bool :=
  decide (0x1100000 ≤ a ∧ a < 0x1200000) || decide (0x1000100 ≤ a ∧ a < 0x1000150) || a == 0x34 || a == 0x1200500

/-- The offsets that read 0 and ignore writes without being counted (R166, R229, R232, R541): SQA's shared registers in the
other sequencers, MXA's in the other MACs, RFB's detector in the other radios. -/
def zeroOffset (a : Nat) : Bool :=
  let held (x : Nat) : Bool := (findReg x regBlocks).isSome
  (decide (0x110000 ≤ a ∧ a < 0x140000 ∧ 0x8000 ≤ a % 0x10000) && held (0x100000 + a % 0x10000))
    || (decide (0x240000 ≤ a ∧ a < 0x2C0000 ∧ 0x800 ≤ a % 0x40000) && held (0x200000 + a % 0x40000))
    || (decide ((0x300000 ≤ a ∧ a < 0x340000 ∨ 0x380000 ≤ a ∧ a < 0x3C0000) ∧ 0x100 ≤ a % 0x40000)
        && held (0x340000 + a % 0x40000))

/-- An access that finds no register (R541). -/
def State.noRegister (s : State) : State := (s.bump F.TOP_BADACC_COUNT 1).raiseSec 638

/-- An access to a register whose domain is off (R456, R543). -/
def State.offAccess (s : State) : State := (s.bump F.PWR_OFFACC_COUNT 1).raiseSec 611

/-- A write of a register of domain `dom`, which Fault Hold takes when `hold` (R456, R486). -/
def State.inWindow (s : State) (dom : Nat) (hold : Bool) (f : State → State) : State :=
  if !s.domOn dom then s.offAccess
  else if s.mode == 0xB && !hold then s.bump F.FLT_HOLD_WR_COUNT 1
  else f s

/-- The same, by requester `who` along its path (R551). -/
def State.access (s : State) (who dom : Nat) (hold : Bool) (f : State → State) : State :=
  if s.reaches who then s.inWindow dom hold f else s

/-- The aperture onto GM is open (R501). -/
def State.apertureOpen (s : State) (who : Nat) : Bool := s.on F.SEC_BOOT_STAT_WAIT && who == 0

/-! ### Fields -/

/-- Fold a register's fields of some access codes out of a value, each set to `v f`. -/
def foldFields (l : List FieldDesc) (p : FieldDesc → Bool) (v : FieldDesc → Nat) (w : Nat) : Nat :=
  l.foldl (fun w f => if p f then setBits w f.hi f.lo (v f) else w) w

/-- What a field holds after a plain write of `v` over `old` (R4, R7). -/
def written (lock : Bool) (v old : Nat) (f : FieldDesc) : Nat :=
  let o := bits old f.hi f.lo
  let n := bits v f.hi f.lo
  match f.acc with
  | .rw | .wo => n
  | .rwl => if lock then o else n
  | .w1c => Nat.xor o (Nat.land o n)
  | .w1s => Nat.lor o n
  | .ro | .rc | .sc => o

/-- A plain write of a register's whole value, `key` its lowest word (R4). -/
def State.storeReg (s : State) (key : Nat) (d : RDesc) (v : Nat) : State :=
  let old := s.wide key d.words
  s.setWide key d.words (foldFields d.fields (fun _ => true) (written (s.on F.SEC_LOCK_LOCK) v old) old)

/-- Set fields of one register word from a written word. -/
def State.take (s : State) (v : Word) (l : List Fld) : State := l.foldl (fun s f => s.put f (bits v.toNat f.hi f.lo)) s

/-! ### Reads -/

/-- Pop the oldest egress timestamp of a port (R133). -/
def State.egtsPop (s : State) (c : Nat) : State :=
  { s with time := { s.time with egts := setAt s.time.egts c ((s.time.egts.getD c []).drop 1) } }

/-- Pop the oldest radar event (R234). -/
def State.detPop (s : State) : State :=
  let l := (s.radio 1).radar.drop 1
  (s.setRadio 1 { s.radio 1 with radar := l }).put F.RFB_DET_STAT_DEPTH l.length

/-- What a read clears in the register at `low` (R6, R133, R234, R545). -/
def State.readClear (s : State) (low key : Nat) (d : RDesc) : State :=
  if low = 0x10 then s.put F.TOP_TEMP_MAX (s.get F.TOP_TEMP_NOW)
  else if low = 0x10200 ∨ low = 0x10210 then s.egtsPop ((low - 0x10200) / 16)
  else if low = 0x340108 then s.detPop
  else if d.fields.any (fun f => f.acc == .rc) then
    s.setWide key d.words (foldFields d.fields (fun f => f.acc == .rc) (fun _ => 0) (s.wide key d.words))
  else s

/-- A read of a register word by requester `who` (R4 - R8, R547): what it returns, and the state. -/
def State.readReg (s : State) (who a : Nat) (l : RLoc) : Nat × State :=
  let low := a - 4 * l.word
  let key := low + (if l.desc.perReq then 0x100000000 * who else 0)
  let cap := 0x100000000 * who + low
  if l.word = 0 then
    let v := foldFields l.desc.fields (fun f => f.acc == .wo) (fun _ => 0) (s.view key l.desc.words)
    let s := if 1 < l.desc.words then { s with capture := tabSet (fun _ => 0) s.capture cap v } else s
    (v % 2 ^ 32, if s.on (F.TOP_PEEK_EN who) then s else s.readClear low key l.desc)
  else (wordAt (tabGet (fun _ => 0) s.capture cap) l.word, s)

/-- A read at window offset `a` (R541, R543). -/
def State.readAt (s : State) (who a : Nat) : Nat × State :=
  if 0x2000000 ≤ a then
    if !s.apertureOpen who then (0, s.noRegister)
    else if s.domOn 3 then (memNat s.gm (a - 0x2000000) 4, s) else (0, s.offAccess)
  else match findReg a regBlocks with
    | none => (0, if zeroOffset a then s else s.noRegister)
    | some l => if s.domOn (domainOf (a - 4 * l.word)) then s.readReg who a l else (0, s.offAccess)

/-- The bytes of a word that an access with byte enables `en` names. -/
def enabledBytes (en : BitVec 4) (v : Nat) : Nat :=
  (List.range 4).foldl (fun r i => if en.getLsbD i then setBits r (8 * i + 7) (8 * i) (bits v (8 * i + 7) (8 * i)) else r) 0

/-- A read by a requester, which gets the bytes it asked for (R542, R551). -/
def State.readWord (s : State) (who a : Nat) (en : BitVec 4) : State :=
  if s.reaches who then
    let (v, t) := s.readAt who (a / 4 * 4)
    { t with readData := tabSet (fun _ => 0) t.readData who (BitVec.ofNat 32 (enabledBytes en v)) }
  else s

/-- An access that names no register, or whose bytes cross into a second word (R541, R542): a read returns 0. -/
def State.badAccess (s : State) (who : Nat) (write : Bool) : State :=
  if s.reaches who then
    let s := s.noRegister
    if write then s else { s with readData := tabSet (fun _ => 0) s.readData who 0 }
  else s

/-- A firmware write to a calibration trim window: ignored and counted (R9). -/
def State.trimWindowWrite (s : State) (who : Nat) : State :=
  if s.reaches who then { s with ctl := { s.ctl with trimWrites := s.ctl.trimWrites + 1 } } else s

end Sys2Proof.Machine
end

