-- ==== Sys2Proof/Machine/Writes.lean ====
section
/-! DEFINITION. What a write of each register that does more than hold a value sets off (R133 - R517), one operation per
register.  Each stores the fields it keeps and then acts.  They are shared by the table's rows and by the window. -/

namespace Sys2Proof.Machine

/-! ### Time and air -/

/-- `TIME.TBN_CTL` (R107, R109): RESET, then HOLD. -/
def State.tbnCtlWrite (s : State) (v : Word) : State :=
  let s := if bit v.toNat 3 then s.tbnReset else s
  if bit v.toNat 4 then s.tbnHold else s

/-- `SQn.CTL` (R165). -/
def State.seqCtlWrite (s : State) (n : Nat) (v : Word) : State := if bit v.toNat 0 then s.seqEnable n else s.seqDisable n

/-- `SQA.STA_UPD` (R141, R166). -/
def State.staUpdWrite (s : State) (v : Word) : State :=
  let s := s.take v [F.SQA_STA_UPD_STA]
  if bit v.toNat 16 then s.staUpdate else s

/-- `SQA.BIN_UPD` (R152, R166). -/
def State.binUpdWrite (s : State) (v : Word) : State :=
  let s := s.take v [F.SQA_BIN_UPD_STA, F.SQA_BIN_UPD_LINK, F.SQA_BIN_UPD_BIN, F.SQA_BIN_UPD_ALL, F.SQA_BIN_UPD_AGE]
  if bit v.toNat 24 then s.binUpdate (bit v.toNat 19) (bit v.toNat 20) else s

/-- `SQA.SB_UPD` (R189, R197). -/
def State.sbUpdWrite (s : State) (v : Word) : State :=
  let s := s.take v [F.SQA_SB_UPD_STA, F.SQA_SB_UPD_TID, F.SQA_SB_UPD_CLOSE, F.SQA_SB_UPD_WSIZE]
  if bit v.toNat 31 then (if bit v.toNat 14 then s.sbClose else s.sbOpen) else s

/-- `MXn.CTL` (R222, R223, R231, R235). -/
def State.macCtlWrite (s : State) (n : Nat) (v : Word) (ok : Bool) : State :=
  let s := s.take v [F.MX_CTL_TXOFF n]
  if bit v.toNat 0 then s.macEnable n ok else if s.on (F.MX_CTL_EN n) then s.macDisable n else s

/-- `MXn.BSS_CFG[b]` (R215, R224, R231): NONTX is ignored for BSSID 0; a write of BCN is ignored while EN is 0 or NONTX is 1,
and a write of 1 on the backhaul radio in Backhaul. -/
def State.bssCfgWrite (s : State) (n b : Nat) (v : Word) : State :=
  let s := s.take v [F.MX_BSS_CFG_EN n b, F.MX_BSS_CFG_DTIM n b, F.MX_BSS_CFG_BI n b]
  let s := if b = 0 then s else s.take v [F.MX_BSS_CFG_NONTX n b]
  let backhaul := s.mode == 8 && s.get F.MXA_BH_CFG_RADIO == n && bit v.toNat 1
  if !s.on (F.MX_BSS_CFG_EN n b) || s.on (F.MX_BSS_CFG_NONTX n b) || backhaul then s else s.take v [F.MX_BSS_CFG_BCN n b]

/-- Fabric links whose station has no link record any more are lost (R429). -/
def State.fabricCheck (s : State) : State :=
  s.fedLossAll ([2, 3, 4, 5, 6, 7].filter (fun k =>
    s.on (F.FEDS_LINK_STAT_UP k) && !s.stationKnown (s.get (F.FEDS_LINK_CFG_STA k))))

/-- `MXn.LINK_UPD` (R202, R231, R429). -/
def State.linkUpdWrite (s : State) (n : Nat) (v : Word) : State :=
  let s := s.take v [F.MX_LINK_UPD_STA n]
  if bit v.toNat 16 then (s.linkUpdate n).fabricCheck else s

/-- `RFn.CSW_CTL` (R4, R221, R233): the fields take the value; a GO while a switch is pending is ignored, and that switch
keeps its own setting. -/
def State.cswWrite (s : State) (n : Nat) (v : Word) : State :=
  let s := s.take v [F.RF_CSW_CTL_CH n, F.RF_CSW_CTL_BW n, F.RF_CSW_CTL_CH320_2 n, F.RF_CSW_CTL_QUIET n, F.RF_CSW_CTL_COUNT n]
  if bit v.toNat 21 then s.channelSwitch n else s

/-- `RFn.STEER_COPY` (R218, R233). -/
def State.steerWrite (s : State) (n : Nat) (v : Word) : State :=
  let s := s.take v [F.RF_STEER_COPY_SRC n, F.RF_STEER_COPY_DST n]
  if bit v.toNat 24 then s.steerCopy n else s

/-- `PIP.CTL` (R272). -/
def State.pipCtlWrite (s : State) (v : Word) (ok : Bool) : State :=
  let s := s.take v [F.PIP_CTL_TXOFF, F.PIP_CTL_BAND]
  if bit v.toNat 0 then s.pipEnable ok else if s.on F.PIP_CTL_EN then s.pipDisable else s

/-- `PIP.CHMAP_AT` (R4, R254, R272): AT takes the value; a GO while a change runs starts no second one. -/
def State.chmapAtWrite (s : State) (v : Word) : State :=
  let s := s.take v [F.PIP_CHMAP_AT_AT]
  if bit v.toNat 16 then s.put F.PIP_CHMAP_AT_GO 1 else s

/-- `PIP.BCTR` and `PIP.FCTR` (R272, R548): a lower value, or any after `SEC.LOCK`, is ignored. -/
def State.counterWrite (s : State) (f : Fld) (v : Word) : State :=
  if s.on F.SEC_LOCK_LOCK || decide (v.toNat < s.get f) then s else s.put f v.toNat

/-- `PIP.NODE_UPD` (R249, R272). -/
def State.nodeUpdWrite (s : State) (v : Word) : State :=
  let s := s.take v [F.PIP_NODE_UPD_NODE, F.PIP_NODE_UPD_CONN, F.PIP_NODE_UPD_MERGE]
  if bit v.toNat 16 then s.nodeUpdate else s

/-! ### Parser, scheduler, Yalvo -/

/-- `PRS.BANK` (R308). -/
def State.bankWrite (s : State) (v : Word) : State := if bit v.toNat 1 then s.bankSwap else s

/-- `PRS.RULE_UPD` (R306, R311): OP 3 is taken as 1. -/
def State.ruleUpdWrite (s : State) (v : Word) : State :=
  let s := s.take v [F.PRS_RULE_UPD_INDEX, F.PRS_RULE_UPD_BANK, F.PRS_RULE_UPD_OP]
  if !bit v.toNat 17 then s
  else if bits v.toNat 16 15 = 0 then s.ruleWrite else s.ruleRead (bits v.toNat 16 15 == 2)

/-- `PRS.PAT_UPD` (R302, R311). -/
def State.patUpdWrite (s : State) (v : Word) : State :=
  let s := s.take v [F.PRS_PAT_UPD_PAT]
  if bit v.toNat 10 then s.patternInstall else s

/-- `HTS.EG_BP[k]` (R325, R330). -/
def State.egBpWrite (s : State) (k : Nat) (v : Word) : State :=
  (s.take v [F.HTS_EG_BP_XOFF k, F.HTS_EG_BP_XON k, F.HTS_EG_BP_MAX k, F.HTS_EG_BP_SRC k]).egressCompare k

/-- `HTS.INJ_CTL` of a requester (R327). -/
def State.injWrite (s : State) (who : Nat) (v : Word) : State := if bit v.toNat 0 then s.inject who else s

/-- `YCU.CL_FENCE` (R45, R52). -/
def State.clFenceWrite (s : State) (v : Word) : State := forEach (onesOf v.toNat 16) (fun c s => s.fenceLift c) s

/-- `YCU.LOAD_CTL` (R52 - R56): the load in progress keeps the values it was started with. -/
def State.loadCtlWrite (s : State) (v : Word) : State :=
  let s := s.take v [F.YCU_LOAD_CTL_MODE, F.YCU_LOAD_CTL_SEQ, F.YCU_LOAD_CTL_DRAIN]
  if bit v.toNat 0 then s.programLoad else s

/-! ### Cipher and endpoints -/

/-- `CIP.CTL` (R348, R352). -/
def State.cipCtlWrite (s : State) (v : Word) : State :=
  let s := s.take v [F.CIP_CTL_RT_BURST, F.CIP_CTL_POOL]
  if bit v.toNat 0 then s.zeroiseBy 0x3FF else s

/-- Key commands that the lifecycle state grants a requester (R508). -/
def State.keyRight (s : State) (who : Nat) : Bool :=
  let lc := s.get F.SEC_LC_STATE
  let lock := s.on F.SEC_LOCK_LOCK
  if who = 0 then lc == 0 || (lc == 1 && !lock) || ((lc == 1 || lc == 2) && s.on F.SEC_KEYCTL_HOST)
  else if who = 3 then lc == 0 || (lc == 1 && !lock)
  else true

/-- `CIP.KEY_CMD` of a requester (R339, R340, R508). -/
def State.keyCmdWrite (s : State) (who : Nat) (v : Word) : State :=
  let s := s.take v [F.CIP_KEY_CMD_SLOT who, F.CIP_KEY_CMD_OP who, F.CIP_KEY_CMD_TYPE who, F.CIP_KEY_CMD_USE who]
  if bit v.toNat 22 then s.keyCommand who (s.keyRight who) else s

/-- `EPT.CTL` (R359, R360): `stuck` are the entries whose write-back fails. -/
def State.eptCtlWrite (s : State) (v : Word) (stuck : List Nat) : State :=
  let s := if bit v.toNat 0 then s.eptEnable else s.put F.EPT_CTL_EN 0
  if bit v.toNat 1 then s.cacheFlush stuck else s

/-- `EPT.JRN_CTL` (R366, R368): `ok` is whether the sector's copy programs. -/
def State.jrnCtlWrite (s : State) (v : Word) (ok : Bool) : State :=
  let s := if bit v.toNat 0 then s.journalMount else s
  if bit v.toNat 2 then s.journalCompact ok else s

/-- `EPT.JRN_APP` of a requester (R365, R367). -/
def State.jrnAppWrite (s : State) (who : Nat) (v : Word) : State :=
  let s := s.take v [F.EPT_JRN_APP_TYPE who, F.EPT_JRN_APP_LEN who, F.EPT_JRN_APP_DEL who]
  if bit v.toNat 21 then s.journalAppend who else s

/-! ### DMA and host -/

/-- `DMA.CH_CTL[c]` (R403, R407). -/
def State.chCtlWrite (s : State) (c : Nat) (v : Word) : State :=
  let s := if bit v.toNat 0 then s.dmaRun c else s
  if bit v.toNat 1 then s.dmaStop c else s

/-- `DMA.IRQ_DONE_EN` and `IRQ_ERR_EN` (R408): a bit that is set and becomes enabled raises its interrupt. -/
def State.dmaEnWrite (s : State) (err : Bool) (v : Nat) : State :=
  let f := if err then F.DMAS_IRQ_ERR_CH else F.DMAS_IRQ_DONE_CH
  let e := if err then F.DMAS_IRQ_ERR_EN_CH else F.DMAS_IRQ_DONE_EN_CH
  let fresh := (onesOf v 64).filter (fun c => !s.fbit e c && s.fbit f c)
  forEach fresh (fun c s =>
    let d := s.get (F.DMA_CH_CFG_DEST c)
    if d = 0 ∨ d = 3 then s.msix (s.get (F.DMA_CH_CFG_VEC c)) else s) (s.put e v)

/-- `DMA.MCC_CTL` of a requester (R411). -/
def State.mccCtlWrite (s : State) (who : Nat) (v : Word) : State :=
  let s := s.take v [F.DMAS_MCC_CTL_OP who]
  if bit v.toNat 2 then s.mccStart who (v.toNat % 4) else s

/-- `HST.RA_CTL` (R426): on a device that is not the anchor it ignores writes. -/
def State.raCtlWrite (s : State) (acc : Access) (v : Word) : State :=
  if s.fedId ≠ s.fedAnchor then s
  else
    let s := s.take v [F.HST_RA_CTL_OP, F.HST_RA_CTL_RA_TO]
    if bit v.toNat 0 then s.raGo acc else s

/-- `HST.RA_DEV`, `RA_ADDR` and `RA_DATA` (R426). -/
def State.raFieldWrite (s : State) (f : Fld) (v : Word) : State := if s.fedId ≠ s.fedAnchor then s else s.take v [f]

/-! ### Federation -/

/-- `FED.CTL` (R444 - R446). -/
def State.fedCtlWrite (s : State) (v : Word) : State :=
  let s := if bit v.toNat 0 then s.fedEnable else s.fedDisable
  let s := if bit v.toNat 1 then s.admitted else s
  if bit v.toNat 2 then s.synced else s

/-- `FED.ID` (R453): ID keeps its value while EN is 1. -/
def State.fedIdWrite (s : State) (v : Word) : State :=
  let t := s.take v [F.FED_ID_ANCHOR]
  State.fedConfigured s (if s.on F.FED_CTL_EN then t else t.take v [F.FED_ID_ID]) false

/-- `FED.KEY` (R433, R453): no write while MEMBER or ISLAND. -/
def State.fedKeyWrite (s : State) (v : Word) : State :=
  if 3 ≤ s.fedState then s else s.take v [F.FED_KEY_MAC, F.FED_KEY_WRAP]

/-- `FED.ETYPE` (R430, R453, R548). -/
def State.fedEtypeWrite (s : State) (v : Word) : State :=
  if s.on F.FED_CTL_EN || s.on F.SEC_LOCK_LOCK then s else s.take v [F.FED_ETYPE_ETYPE]

/-- `FED.LINK_CFG[k]` (R429, R453): a slot that is disabled, or given another station, loses its link. -/
def State.linkCfgWrite (s : State) (k : Nat) (v : Word) : State :=
  let lost := !bit v.toNat 0 || bits v.toNat 11 1 != s.get (F.FEDS_LINK_CFG_STA k)
  (if lost then s.fedLoss k else s).take v [F.FEDS_LINK_CFG_EN k, F.FEDS_LINK_CFG_STA k]

/-- `FED.TX_CTL` of a requester (R436, R453). -/
def State.txCtlWrite (s : State) (who : Nat) (v : Word) : State :=
  let s := s.take v [F.FED_TX_CTL_TYPE who, F.FED_TX_CTL_DST who, F.FED_TX_CTL_ALL who, F.FED_TX_CTL_REL who,
    F.FED_TX_CTL_WRAP who, F.FED_TX_CTL_LEN who]
  if bit v.toNat 28 then
    s.fabricSend who (fun s m => s.fedDeliver (fun s _ _ _ => (3, 0, s)) m m.payload s.now)
  else s

/-! ### Power, Acorn, security -/

/-- `PWR.WAKE_HOST` (R465): a wake event when the host writes GO. -/
def State.wakeHostWrite (s : State) (who : Nat) (v : Word) : State :=
  if bit v.toNat 0 && who == 0 then s.wakeEvent 1 else s

/-- `PWR.WAKE_AT` (R471): each write arms the alarm. -/
def State.wakeAtWrite (s : State) (v : Nat) : State :=
  let s := s.put F.PWR_WAKE_AT_NS v
  { s with ctl := { s.ctl with alarm := true } }

/-- `ACN.CTL` (R490, R491). -/
def State.acnCtlWrite (s : State) (v : Word) (bad : Nat) : State :=
  let s := s.take v [F.ACN_CTL_PERIOD]
  let s := if bit v.toNat 9 then s.clrRing else s
  if bit v.toNat 8 then s.counterCommit bad else s

/-- `ACN.FW_CTL` (R492). -/
def State.fwCtlWrite (s : State) (v : Word) (bad : Nat) : State := if bit v.toNat 0 then s.firmwareRecord bad else s

/-- `ACN.DUMP_CTL` (R483, R495). -/
def State.dumpCtlWrite (s : State) (v : Word) : State := if bit v.toNat 0 then s.dumpErase else s

/-- `SEC.LC_CTL` (R509). -/
def State.lcCtlWrite (s : State) (v : Word) : State :=
  let s := s.take v [F.SEC_LC_CTL_TARGET, F.SEC_LC_CTL_CONFIRM]
  if bit v.toNat 16 then s.lifecycleGo else s

/-- `SEC.LOCK` (R510). -/
def State.lockWrite (s : State) (v : Word) : State := if bit v.toNat 0 then s.put F.SEC_LOCK_LOCK 1 else s

/-- `SEC.FUSE_CTL` (R506, R509). -/
def State.fuseCtlWrite (s : State) (v : Word) : State :=
  let s := s.take v [F.SEC_FUSE_CTL_TARGET, F.SEC_FUSE_CTL_SLOT]
  if bit v.toNat 5 then s.fuseGo else s

/-- `SEC.ARB` (R507). -/
def State.arbWrite (s : State) (v : Word) : State :=
  let s := s.take v [F.SEC_ARB_TARGET]
  if bit v.toNat 15 then s.arbGo else s

/-- `SEC.VER_CTL` of a requester (R505). -/
def State.verCtlWrite (s : State) (who : Nat) (v : Word) : State := if bit v.toNat 0 then s.verify who else s

/-- `SEC.HLOAD_CTL` (R501): the host's alone. -/
def State.hloadWrite (s : State) (who : Nat) (v : Word) : State := if bit v.toNat 0 && who == 0 then s.hostImage else s

/-- `SEC.MEAS_CTL` (R512). -/
def State.measCtlWrite (s : State) (v : Word) : State :=
  let s := s.take v [F.SEC_MEAS_CTL_INDEX]
  if bit v.toNat 3 then s.measGo else s

/-- `SEC.QUOTE_CTL` of a requester (R513). -/
def State.quoteCtlWrite (s : State) (who : Nat) (v : Word) : State := if bit v.toNat 0 then s.quoteGo who else s

/-- `SEC.DBG_CTL` (R514). -/
def State.dbgCtlWrite (s : State) (v : Word) (bad : Nat) : State :=
  let s := if bit v.toNat 0 then s.debugChallenge else s
  if bit v.toNat 1 then s.debugSubmit bad else s

/-- `SEC.RST` (R498, R499): RDIE_HOLD holds and releases the radio die; KEY 0x5A with WARM resets the package. -/
def State.rstWrite (s : State) (who : Nat) (v : Word) : State :=
  if v.toNat % 256 = 0x5A ∧ bit v.toNat 8 = true then s.warmReset who
  else if bit v.toNat 9 then s.dieHold else s.dieRelease

/-! ### Every register (R4, R8, R540) -/

/-- Array index of a register at `base` and `stride`. -/
def arrayIndex (a base stride : Nat) : Nat := (a - base) / stride

/-- Writes of the blocks below 0x60_0000 that act: TOP, TIME, PHS, the sequencers, the MACs, the radios, Pip, copper. -/
def State.airWrite (s : State) (a v : Nat) (x : Ext) : Option State :=
  let w := BitVec.ofNat 32 v
  if a = 0x24 then some (s.modeRequest w)
  else if a = 0x10020 then some (s.tbnCtlWrite w)
  else if a = 0x10024 then some (s.tbnStep v)
  else if a = 0x10030 then some (s.tbnRateWrite w)
  else if 0x10040 ≤ a ∧ a < 0x10058 then some (s.tsfWrite (arrayIndex a 0x10040 8) v)
  else if a = 0x10060 then some (s.ppsCtlWrite w)
  else if 0x20000 ≤ a ∧ a < 0x20400 then
    let d := (a - 0x20000) / 0x100
    if a % 0x100 = 0 then some (s.pdCfgWrite d w)
    else if a % 0x100 = 0x1C then some (s.pdCycWrite d (v % 65536))
    else if a % 0x100 = 0x30 then some (s.hostObservation d (v % 2 ^ 32) (v / 2 ^ 32))
    else if a % 0x100 = 0x40 then some (s.pdPqWrite d v)
    else none
  else if 0x100000 ≤ a ∧ a < 0x140000 then
    let n := (a - 0x100000) / 0x10000
    let o := a % 0x10000
    if o = 0 then some (s.seqCtlWrite n w)
    else if 0x4000 ≤ o ∧ o < 0x8000 then some (s.sdPut n (o - 0x4000) (natLe v 4))
    else if o = 0x8040 then some (s.staUpdWrite w)
    else if o = 0x8050 then some (s.binUpdWrite w)
    else if o = 0x80A8 then some (s.sbUpdWrite w)
    else none
  else if 0x200000 ≤ a ∧ a < 0x2C0000 then
    let n := (a - 0x200000) / 0x40000
    let o := a % 0x40000
    if o = 0 then some (s.macCtlWrite n w x.ok)
    else if 0x100 ≤ o ∧ o < 0x200 ∧ o % 16 = 0 then some (s.bssCfgWrite n (arrayIndex o 0x100 16) w)
    else if o = 0x440 then some (s.linkUpdWrite n w)
    else if a = 0x200814 then some (s.bhCtlWrite w)
    else none
  else if 0x300000 ≤ a ∧ a < 0x3C0000 then
    let n := (a - 0x300000) / 0x40000
    let o := a % 0x40000
    if o = 0 then some (s.chanWrite n w)
    else if o = 8 then some (s.cswWrite n w)
    else if o = 0x14 then some (s.steerWrite n w)
    else none
  else if a = 0x400000 then some (s.pipCtlWrite w x.ok)
  else if a = 0x400004 then some (s.chplanWrite w)
  else if a = 0x400010 then some (s.chmapWrite v)
  else if a = 0x400018 then some (s.chmapNextWrite v)
  else if a = 0x400020 then some (s.chmapAtWrite w)
  else if a = 0x400050 then some (s.counterWrite F.PIP_BCTR_NEXT w)
  else if a = 0x400054 then some (s.counterWrite F.PIP_FCTR_NEXT w)
  else if a = 0x4000C0 then some (s.nodeUpdWrite w)
  else if a = 0x500000 ∨ a = 0x520000 then some (State.copperLoss s (s.cuCtlWrite ((a - 0x500000) / 0x20000) w x.ok))
  else if a = 0x500020 ∨ a = 0x520020 then some (s.diagWrite ((a - 0x500000) / 0x20000) w)
  else none

/-- Writes of the blocks from 0x60_0000 to 0xDF_FFFF that act: PRS, HTS, YCU, CIP, EPT, DMC, DMA, HST. -/
def State.coreWrite (s : State) (acc : Access) (who a v : Nat) (x : Ext) : Option State :=
  let w := BitVec.ofNat 32 v
  if a = 0x600004 then some (s.bankWrite w)
  else if a = 0x6004A0 then some (s.ruleUpdWrite w)
  else if a = 0x600560 then some (s.patUpdWrite w)
  else if 0x700020 ≤ a ∧ a < 0x700060 then some (s.clmapWrite (arrayIndex a 0x700020 4) (v % 2 ^ 32))
  else if 0x700060 ≤ a ∧ a < 0x700078 then some (s.egBpWrite (arrayIndex a 0x700060 4) w)
  else if a = 0x700130 then some (s.flush (v % 16))
  else if a = 0x700150 then some (s.injWrite who w)
  else if a = 0x800020 then some (s.clFenceWrite w)
  else if a = 0x800104 then some (s.loadCtlWrite w)
  else if 0x802100 ≤ a ∧ a < 0x802200 then some (s.threadResume (arrayIndex a 0x802100 4) (v % 256))
  else if a = 0x900000 then some (s.cipCtlWrite w)
  else if a = 0x900130 then some (s.keyCmdWrite who w)
  else if a = 0xA00000 then some (s.eptCtlWrite w x.stuck)
  else if 0xA00008 ≤ a ∧ a < 0xA00024 then if s.on F.EPT_CTL_EN then some s else none
  else if a = 0xA00030 then some (State.fedConfigured s (s.take w [F.EPT_EPOCH_NUM]) false)
  else if a = 0xA00060 then some (if bit v 0 then s.routeUpdate else s)
  else if a = 0xA00088 then some (s.jrnCtlWrite w x.ok)
  else if a = 0xA0008C then some (s.jrnAppWrite who w)
  else if a = 0xB00000 then some (s.dmcCtlWrite w)
  else if 0xB00400 ≤ a ∧ a < 0xB00500 then some (s.tsetWrite ((a - 0xB00400) / 0x80) (a % 0x80 / 4) w)
  else if 0xC00000 ≤ a ∧ a < 0xC01000 then
    let c := (a - 0xC00000) / 0x40
    if a % 0x40 = 0 then some (s.chCtlWrite c w)
    else if a % 0x40 = 8 ∧ s.on (F.DMA_CH_CTL_RUN c) then some s
    else none
  else if a = 0xC01010 then some (s.dmaEnWrite false v)
  else if a = 0xC01018 then some (s.dmaEnWrite true v)
  else if a = 0xC0103C then some (s.mccCtlWrite who w)
  else if a = 0xD00010 then some (s.raFieldWrite F.HST_RA_DEV_DEV w)
  else if a = 0xD00014 then some (s.raFieldWrite F.HST_RA_ADDR_ADDR w)
  else if a = 0xD00018 then some (s.raFieldWrite F.HST_RA_DATA_DATA w)
  else if a = 0xD0001C then some (s.raCtlWrite acc w)
  else if 0xD01000 ≤ a ∧ a < 0xD01800 then
    let q := (a - 0xD01000) / 0x40
    if a % 0x40 = 0 then some (s.qpCtlWrite q w)
    else if a % 0x40 = 4 then some (s.qpCfgWrite q w)
    else if (a % 0x40 = 0x10 ∨ a % 0x40 = 0x18) ∧ s.on (F.HSTQ_QP_CTL_EN q) then some s
    else none
  else none

/-- Writes of the blocks from 0xE0_0000 that act: FED, PWR, FLT, ACN, SEC. -/
def State.topWrite (s : State) (who a v : Nat) (x : Ext) : Option State :=
  let w := BitVec.ofNat 32 v
  if a = 0xE00000 then some (s.fedCtlWrite w)
  else if a = 0xE0000C then some (s.fedEtypeWrite w)
  else if a = 0xE00010 then some (s.fedIdWrite w)
  else if a = 0xE00018 then some (State.fedConfigured s (s.take w [F.FED_EPOCH_SYS_NUM]) false)
  else if a = 0xE0001C then some (s.fedKeyWrite w)
  else if a = 0xE00028 then some (State.fedConfigured s (s.put F.FED_MEMBERS_SET v) true)
  else if a = 0xE00030 then some (State.fedConfigured s (s.put F.FED_ELIG_SET v) false)
  else if 0xE00040 ≤ a ∧ a < 0xE00060 then
    some (State.fedConfigured s (s.take w [F.FED_VOTE_W (arrayIndex a 0xE00040 4)]) false)
  else if a = 0xE0008C then some (s.txCtlWrite who w)
  else if 0xE00100 ≤ a ∧ a < 0xE00200 ∧ a % 0x20 = 0 then some (s.linkCfgWrite ((a - 0xE00100) / 0x20) w)
  else if a = 0xF00000 then some (s.trimChange w)
  else if a = 0xF0002C then some (s.wakeHostWrite who w)
  else if a = 0xF00030 then some (s.wakeAtWrite v)
  else if 0x1000100 ≤ a ∧ a < 0x1000150 then some (s.stickyWrite (arrayIndex a 0x1000100 4) (v % 2 ^ 32))
  else if 0x1000200 ≤ a ∧ a < 0x1000250 then some (s.faultAck who (arrayIndex a 0x1000200 4) (v % 2 ^ 32))
  else if 0x1000280 ≤ a ∧ a < 0x10002D0 then some (s.faultForce (arrayIndex a 0x1000280 4) (v % 2 ^ 32))
  else if a = 0x1100000 then some (s.acnCtlWrite w x.bad.val)
  else if a = 0x1100020 then some (s.fwCtlWrite w x.bad.val)
  else if a = 0x1100040 then some (s.dumpCtlWrite w)
  else if 0x1180000 ≤ a ∧ a < 0x11C0000 then some (s.acnWindowWrite (a - 0x1180000) w)
  else if a = 0x1200008 then some (s.lcCtlWrite w)
  else if a = 0x1200024 then some (s.hloadWrite who w)
  else if a = 0x1200070 then some (s.fuseCtlWrite w)
  else if a = 0x1200074 then some (s.arbWrite w)
  else if a = 0x1200084 then some (s.verCtlWrite who w)
  else if a = 0x1200130 then some (s.measCtlWrite w)
  else if a = 0x1200334 then some (s.quoteCtlWrite who w)
  else if a = 0x12004E8 then some (s.dbgCtlWrite w x.bad.val)
  else if a = 0x1200500 then some (s.rstWrite who w)
  else if a = 0x1200508 then some (s.wdtWrite w)
  else if a = 0x120050C then some s.wdtKick
  else none

/-- A write of a register's whole value `v`, `a` its lowest word's offset: what it sets off, or else the plain write. -/
def State.writeReg (s : State) (acc : Access) (who a : Nat) (d : RDesc) (v : Nat) (x : Ext) : State :=
  let r := if a < 0x600000 then s.airWrite a v x else if a < 0xE00000 then s.coreWrite acc who a v x else s.topWrite who a v x
  r.getD (s.storeReg (a + (if d.perReq then 0x100000000 * who else 0)) d v)

/-- The whole value that a write of the highest word commits: the requester's staged words below it (R8). -/
def State.staged (s : State) (who low : Nat) : Nat → Nat → Nat
  | 0, v => v
  | n + 1, v => (tabGet (fun _ => 0) s.stage (0x100000000 * who + low)).toNat + 2 ^ 32 * s.staged who (low + 4) n v

/-- A write of one word of a register (R8): lower words of a wide one go to the requester's staging. -/
def State.writeLoc (s : State) (acc : Access) (who a : Nat) (l : RLoc) (v : Word) (x : Ext) : State :=
  let low := a - 4 * l.word
  if l.word + 1 < l.desc.words then
    { s with stage := tabSet (fun _ => 0) s.stage (0x100000000 * who + a) v }
  else s.writeReg acc who low l.desc (s.staged who low l.word v.toNat) x

/-- A write of a whole word at window offset `a` (R541, R543, R486). -/
def State.writeAt (s : State) (acc : Access) (who a : Nat) (v : Word) (x : Ext) : State :=
  if 0x2000000 ≤ a then
    if !s.apertureOpen who then s.noRegister
    else if s.domOn 3 then { s with gm := memPutBytes s.gm (a - 0x2000000) (natLe v.toNat 4) } else s.offAccess
  else match findReg a regBlocks with
    | none => if zeroOffset a then s else s.noRegister
    | some l => s.inWindow (domainOf (a - 4 * l.word)) (holdTakes (a - 4 * l.word)) (fun s => s.writeLoc acc who a l v x)

/-! ### Remote access (R426, R443) -/

/-- A write that the device refuses (R7, R21 and the like): it finds no register or a domain that is off, Fault Hold does
not take it, it names a field that `SEC.LOCK` has frozen or an action that runs, or it files a mode request that R21
refuses. -/
def State.refusesWrite (s : State) (a : Nat) (v : Word) : Bool :=
  match findReg a regBlocks with
  | none => true
  | some l =>
    let low := a - 4 * l.word
    let lock := s.on F.SEC_LOCK_LOCK
    let cur := s.view low l.desc.words
    !s.domOn (domainOf low) || (s.mode == 0xB && !holdTakes low)
      || l.desc.fields.any (fun f => (f.acc == .rwl && lock)
          || (f.acc == .sc && l.word == 0 && bits v.toNat f.hi f.lo != 0 && bits cur f.hi f.lo != 0))
      || (a == 0x24 && bit v.toNat 4 && s.modeRefused (v.toNat % 16))

/-- The access of a host, as a remote access carries it out (R426, R443); an access that itself starts a remote access ends
within `n` rounds. -/
def hostAccessBy (x : Ext) : Nat → Access
  | 0 => fun s _ _ _ => (3, 0, s)
  | n + 1 => fun s op a v =>
    if op = 0 then
      let (d, t) := s.readAt 0 a
      (0, d, t)
    else (b2n (s.refusesWrite a v), 0, s.writeAt (hostAccessBy x n) 0 a v x)

/-- The access of a host (R426, R443). -/
def hostPath (x : Ext) : Access := hostAccessBy x 3

/-- A write by a requester with byte enables `en` (R541, R542, R551): with partial ones it is ignored and counted. -/
def State.writeWord (s : State) (who a : Nat) (en : BitVec 4) (v : Word) (x : Ext) : State :=
  if !s.reaches who then s
  else if en ≠ 0xF then s.noRegister
  else s.writeAt (hostPath x) who (a / 4 * 4) v x

end Sys2Proof.Machine
end

