-- ==== Sys2Proof/Machine/Joint.lean ====
section
/-! DEFINITION. Effects that reach over several units, composed for the rows that have them: how a meaning ends, and what a
program load, a frequency change, a lost parent, a copper link and a parsed frame set off elsewhere. -/

namespace Sys2Proof.Machine

/-- A command ends: the fault collector takes what it raised, halting sequencers stop (R47, R473). -/
def done (t : State) : Host.Outcome State Fault Refusal := .next t.settle

/-- What happens in a power domain happens while it is on (R455). -/
def State.whenOn (s : State) (d : Nat) (f : State → State) : State := if s.domOn d then f s else s

/-- A sequencer's domain: SQA, SQB and SQC stand in WMAC, SQP in CORE (R455). -/
def seqDomain (n : Nat) : Nat := if n < 3 then 11 else 5

/-- A load that ends lets a waiting mode or trim request go (R21, R56). -/
def State.loadStep (s : State) (f : State → State) : State :=
  let t := f s
  if s.loadBusy && !t.loadBusy then t.modeGo else t

/-- A lost parent is reported to the anchor (R226, R432). -/
def State.parentStep (s : State) (f : State → State) : State := (f s).fedNotice

/-- A copper link that goes down takes its fabric link with it (R429). -/
def State.copperStep (s : State) (f : State → State) : State := State.copperLoss s (f s)

/-- The frequency change ends; requests it kept waiting go on (R21, R390). -/
def State.frequencyStep (s : State) (ok : Bool) : State :=
  let t := s.frequencyDone ok
  if s.on F.DMC_STAT_FBUSY && !t.on F.DMC_STAT_FBUSY then t.modeGo else t

/-- The oldest frame of an input port. -/
def State.oldestFrame (s : State) (port : Nat) : Option (Nat × Packet) := findIdx (fun p => p.port == port) s.prs.input 0

/-- Take a frame out of the input queue. -/
def State.pullFrame (s : State) (i port : Nat) : State :=
  let s := { s with prs := { s.prs with input := s.prs.input.eraseIdx i } }
  if port < 2 then s.cuRxLevel port else s

/-- A frame of the fabric's Ethertype on a fabric link is a message for the federation block (R430, R431). -/
def State.fabricFrame (s : State) (p : Packet) : Option (Nat × FedMsg) :=
  match s.fedSlotOf p.port p.srcid, s.fedFrame p.bytes with
  | some k, some m => some (k, m)
  | _, _ => none

/-- The frame is one that the parser drops while SERVE is 0 (R444). -/
def State.unserved (s : State) (port : Nat) : Bool :=
  s.fedState != 0 && !s.on F.FED_STAT_SERVE && [0, 1, 4, 5].contains port && s.recirc.isEmpty && s.parserRuns && !s.portHeld port

/-- FRAME_PARSE at a port: a fabric message leaves for its slot, an unserved frame is dropped and counted, any other frame is
parsed (R295, R431, R444). -/
def State.parseFrame (s : State) (acc : Access) (port : Nat) (buf pat rule : Check) : State :=
  match s.oldestFrame port with
  | none => s.frameParse port buf pat rule
  | some (i, p) =>
    match s.fabricFrame p with
    | some (k, m) => (s.pullFrame i port).fedReceive acc k m p.stamp buf
    | none =>
      if s.unserved port then (s.pullFrame i port).bump F.FED_CNT3_SYNCDROP 1 else s.frameParse port buf pat rule

/-- PIP_ALERT: an accepted ALERT wakes the device from Watch (R261, R465). -/
def State.pipAlert (s : State) (f : PipFrame) (k : Check) (room : Bool) : State :=
  let h := s.pipReceive 4 f k room
  if h.code = 1 ∧ s.mode = 4 then h.st.wakeEvent 3 else h.st

/-- A written word with one field at a value of its row's own. -/
def withFld (v : Word) (f : Fld) (x : Nat) : Word := BitVec.ofNat 32 (setBits v.toNat f.hi f.lo x)

/-- A requester's write of the register at `a`: along its path, in the register's domain, and in Fault Hold only where it is
taken (R456, R486, R551). -/
def State.writeTo (s : State) (who : Fin 4) (a : Nat) (f : State → State) : State :=
  s.access who.val (domainOf a) (holdTakes a) f

/-- An access that names no register, or whose bytes cross into a second word (R541, R542). -/
def State.wildAccess (s : State) (who a : Nat) (write cross : Bool) : State :=
  let none' := if 0x2000000 ≤ a then !s.apertureOpen who else (findReg (a / 4 * 4) regBlocks).isNone && !zeroOffset (a / 4 * 4)
  if cross || none' then s.badAccess who write else s

/-- The highest word of `PHS.PD_HOBS` is written: phase and TBM instant stand in the staged words (R124, R134). -/
def State.hostWrites (s : State) (d v : Nat) : State := s.hostObservation d (v % 2 ^ 32) (v / 2 ^ 32)

/-- GO in `EPT.RT_UPD` with the stage naming an addition or, when `remove`, a removal (R361). -/
def State.routeGo (s : State) (remove : Bool) : State :=
  if bit (s.get (F.EPT_RT_STAGE_WORD 4)) 9 == remove then s.routeUpdate else s

/-- No remote access is carried out by a message of another type. -/
def noAccess : Access := fun s _ _ _ => (3, 0, s)

/-- A fabric message can reach slot `k`: its copper link is up, or a radio hears its station (R429). -/
def State.fabricHears (s : State) (k : Nat) : Bool :=
  s.domOn 5 && (if k < 2 then s.cuUp k
    else (List.range 3).any (fun n => s.radioHears n && s.linkPresent n (s.get (F.FEDS_LINK_CFG_STA k))))

/-- A fabric message reaches slot `k` at TBM ns `t` (R431). -/
def State.fabricMessage (s : State) (acc : Access) (k : Nat) (m : FedMsg) (t : Nat) (c : Check) : State :=
  if s.fabricHears k then s.fedReceive acc k m t c else s

end Sys2Proof.Machine
end

