-- ==== Sys2Proof/Machine/AcornCmds.lean ====
section
/-! DEFINITION. Acorn's counter block and records (R490 - R492). -/

namespace Sys2Proof.Machine

/-- COUNTER_COMMIT (R490). ACN.CTL.COMMIT commits the counter block. -/
def execCounterCommit (who : Fin 4) (v : Word) (bad : Fin 3) (s : State) : Host.Outcome State Fault Refusal :=
done (s.writeTo who 0x1100000 (fun s => s.acnCtlWrite (withFld v F.ACN_CTL_COMMIT 1) bad.val))

/-- COUNTER_PERIOD (R490). Every PERIOD minutes the counter block is committed. -/
def execCounterPeriod (bad : Fin 3) (s : State) : Host.Outcome State Fault Refusal :=
done (s.counterPeriod bad.val)

/-- CLRRING (R491). CLRRING invalidates every fault record, keeping RSEQ. -/
def execClrring (who : Fin 4) (v : Word) (bad : Fin 3) (s : State) : Host.Outcome State Fault Refusal :=
done (s.writeTo who 0x1100000 (fun s => s.acnCtlWrite (withFld v F.ACN_CTL_CLRRING 1) bad.val))

/-- FIRMWARE_RECORD (R492). ACN.FW_CTL GO writes a TYPE 7 record. -/
def execFirmwareRecord (who : Fin 4) (v : Word) (bad : Fin 3) (s : State) : Host.Outcome State Fault Refusal :=
done (s.writeTo who 0x1100020 (fun s => s.fwCtlWrite (withFld v F.ACN_FW_CTL_GO 1) bad.val))

end Sys2Proof.Machine
end

