-- ==== Sys2Proof/Machine/CipherCmds.lean ====
section
/-! DEFINITION. The cipher lanes and the key store (R333 - R352). -/

namespace Sys2Proof.Machine

/-- CIPHER_JOB_START (R333). A free lane takes a job and copies the slot's key and GEN. -/
def execCipherJobStart (l : Fin 32) (k : Check) (s : State) : Host.Outcome State Fault Refusal :=
done (s.cipherJobStart l.val k)

/-- GCMP_ENCRYPT (R344). A GCMP encrypt job ends, writing ciphertext and tag. -/
def execGcmpEncrypt (l : Fin 32) (k : Check) (part : Nat) (s : State) : Host.Outcome State Fault Refusal :=
done (s.jobEnd l.val 0 k part .good)

/-- GCMP_DECRYPT (R346). A GCMP decrypt-and-verify job ends, writing plaintext only on a matching tag. -/
def execGcmpDecrypt (l : Fin 32) (m : JobMem) (part : Nat) (s : State) : Host.Outcome State Fault Refusal :=
done (s.jobEnd l.val 1 m.mem part m.ro)

/-- CCMP_ENCRYPT (R344). A CCMP encrypt job ends. -/
def execCcmpEncrypt (l : Fin 32) (k : Check) (part : Nat) (s : State) : Host.Outcome State Fault Refusal :=
done (s.jobEnd l.val 2 k part .good)

/-- CCMP_DECRYPT (R346). A CCMP decrypt-and-verify job ends. -/
def execCcmpDecrypt (l : Fin 32) (m : JobMem) (part : Nat) (s : State) : Host.Outcome State Fault Refusal :=
done (s.jobEnd l.val 3 m.mem part m.ro)

/-- GMAC_GENERATE (R344). A GMAC generate job ends, writing the tag. -/
def execGmacGenerate (l : Fin 32) (k : Check) (part : Nat) (s : State) : Host.Outcome State Fault Refusal :=
done (s.jobEnd l.val 4 k part .good)

/-- GMAC_VERIFY (R346). A GMAC verify job ends with the comparison result. -/
def execGmacVerify (l : Fin 32) (k : Check) (part : Nat) (s : State) : Host.Outcome State Fault Refusal :=
done (s.jobEnd l.val 5 k part .good)

/-- CMAC_GENERATE (R344). A CMAC generate job ends, writing the tag. -/
def execCmacGenerate (l : Fin 32) (k : Check) (part : Nat) (s : State) : Host.Outcome State Fault Refusal :=
done (s.jobEnd l.val 6 k part .good)

/-- CMAC_VERIFY (R346). A CMAC verify job ends with the comparison result. -/
def execCmacVerify (l : Fin 32) (k : Check) (part : Nat) (s : State) : Host.Outcome State Fault Refusal :=
done (s.jobEnd l.val 7 k part .good)

/-- PNRSV (R343). A PNRSV job reserves a block of packet numbers. -/
def execPnrsv (l : Fin 32) (s : State) : Host.Outcome State Fault Refusal :=
done (s.pnrsvEnd l.val)

/-- KEY_LOAD (R339). KEY_CMD OP 0 with GO starts expanding a key into a slot. -/
def execKeyLoad (who : Fin 4) (v : Word) (s : State) : Host.Outcome State Fault Refusal :=
done (s.writeTo who 0x900130 (fun s => s.keyCmdWrite who.val (withFld (withFld v (F.CIP_KEY_CMD_GO who.val) 1)
    (F.CIP_KEY_CMD_OP who.val) 0)))

/-- KEY_ERASE (R340). KEY_CMD OP 1 with GO starts erasing a slot. -/
def execKeyErase (who : Fin 4) (v : Word) (s : State) : Host.Outcome State Fault Refusal :=
done (s.writeTo who 0x900130 (fun s => s.keyCmdWrite who.val (withFld (withFld v (F.CIP_KEY_CMD_GO who.val) 1)
    (F.CIP_KEY_CMD_OP who.val) 1)))

/-- KEY_LOAD_COMPLETE (R339). The expanded key replaces the slot, LOADED sets and GEN advances. -/
def execKeyLoadComplete (s : State) : Host.Outcome State Fault Refusal :=
done (s.whenOn 5 (fun s => s.keyLoadComplete))

/-- KEY_ERASE_COMPLETE (R342). The slot clears, GEN advances and jobs naming it end with KEY_ERASED. -/
def execKeyEraseComplete (s : State) : Host.Outcome State Fault Refusal :=
done (s.whenOn 5 (fun s => s.keyEraseComplete))

/-- ZEROISE (R348). A write of CIP.CTL.ZERO zeroises lanes and key store. -/
def execZeroise (who : Fin 4) (v : Word) (s : State) : Host.Outcome State Fault Refusal :=
done (s.writeTo who 0x900000 (fun s => s.cipCtlWrite (withFld v F.CIP_CTL_ZERO 1)))

/-- RNG_HEALTH_FAIL (R336). An entropy health test fails, raising source 448 and zeroising. -/
def execRngHealthFail (s : State) : Host.Outcome State Fault Refusal :=
done (s.whenOn 5 (fun s => s.rngHealthFail))

/-- LANE_RESEED (R336). Every 4,096 clocks a lane's mask generator is reseeded from the DRBG. -/
def execLaneReseed (l : Fin 32) (ok : Bool) (s : State) : Host.Outcome State Fault Refusal :=
done (s.whenOn (regionDomain (l.val / 8)) (fun s => s.laneReseed l.val ok))

/-- LANE_PARITY_FAULT (R350). A lane's round parity mismatches, raising source 449 and zeroising. -/
def execLaneParityFault (l : Fin 32) (s : State) : Host.Outcome State Fault Refusal :=
done (s.laneParityFault l.val)

end Sys2Proof.Machine
end

