-- ==== Sys2Proof/Machine/ClockCmds.lean ====
section
/-! DEFINITION. Time bases, the pulse per second and the phase loops (R104 - R132, R553). -/

namespace Sys2Proof.Machine

/-- CRYSTAL_FAIL (R104). The crystal amplitude falls: TBM moves to 32.768 kHz or the fallback, source 0 is raised and
the device enters Limp. -/
def execCrystalFail (bad : Fin 3) (s : State) : Host.Outcome State Fault Refusal :=
done (s.crystalFail bad.val)

/-- X32K_LOSS (R553). The 32.768 kHz clock goes missing, raising source 7, and TBM runs on the fallback where it would
use that clock. -/
def execX32kLoss (s : State) : Host.Outcome State Fault Refusal :=
done s.x32kLoss

/-- X32K_RETURN (R553). The 32.768 kHz clock returns and TBM leaves the fallback at its next tick. -/
def execX32kReturn (s : State) : Host.Outcome State Fault Refusal :=
done s.x32kReturn

/-- TBN_RATE_WRITE (R105). A write of TIME.TBN_RATE sets rho, clamped, and clears HOLDOVER. -/
def execTbnRateWrite (who : Fin 4) (v : Word) (s : State) : Host.Outcome State Fault Refusal :=
done (s.writeTo who 0x10030 (fun s => s.tbnRateWrite v))

/-- TBN_STEP (R106). The highest-word write of TIME.TBN_STEP adds the offset while armed, locking TBN. -/
def execTbnStep (who : Fin 4) (v : Word) (s : State) : Host.Outcome State Fault Refusal :=
done (s.writeTo who 0x10024 (fun s => s.tbnStep (s.staged who.val 0x10024 2 v.toNat)))

/-- TBN_RESET (R107). RESET re-arms TBN, clearing LOCKED and HOLDOVER and setting rho to 0. -/
def execTbnReset (who : Fin 4) (v : Word) (s : State) : Host.Outcome State Fault Refusal :=
done (s.writeTo who 0x10020 (fun s => s.tbnCtlWrite (withFld v F.TIME_TBN_CTL_RESET 1)))

/-- TBN_HOLD (R109). HOLD sets rho to 0 and sets HOLDOVER. -/
def execTbnHold (who : Fin 4) (v : Word) (s : State) : Host.Outcome State Fault Refusal :=
done (s.writeTo who 0x10020 (fun s => s.tbnCtlWrite (withFld v F.TIME_TBN_CTL_HOLD 1)))

/-- TSF_WRITE (R112). The highest-word write of TIME.TSF sets the TSF while no BSSID beacons, else source 5. -/
def execTsfWrite (who : Fin 4) (n : Fin 3) (v : Word) (s : State) : Host.Outcome State Fault Refusal :=
done (s.writeTo who (0x10040 + 8 * n.val) (fun s => s.tsfWrite n.val (s.staged who.val (0x10040 + 8 * n.val) 1
    v.toNat)))

/-- PHASE_INPUT_COUNT (R120). A filtered encoder or pulse transition is decoded into a count or an illegal transition.
-/
def execPhaseInputCount (d : Fin 4) (e : Edge) (a b : Bool) (s : State) : Host.Outcome State Fault Refusal :=
done (s.phaseInput d.val e.t e.held a b)

/-- PHASE_INDEX_EDGE (R120). An index edge resets n, completes a cycle and checks for a slip. -/
def execPhaseIndexEdge (d : Fin 4) (e : Edge) (s : State) : Host.Outcome State Fault Refusal :=
done (s.phaseIndex d.val e.t e.held)

/-- MAINS_EDGE (R121). A MAINS_SENSE edge is accepted or rejected and yields an observation. -/
def execMainsEdge (d : Fin 4) (e : Edge) (rising : Bool) (s : State) : Host.Outcome State Fault Refusal :=
done (s.mainsEdge d.val e.t e.held rising)

/-- HOST_OBSERVATION (R124). A highest-word write of PHS.PD_HOBS presents a host observation, or rejects it. -/
def execHostObservation (who d : Fin 4) (v : Word) (s : State) : Host.Outcome State Fault Refusal :=
done (s.writeTo who (0x20030 + 0x100 * d.val) (fun s => s.hostWrites d.val (s.staged who.val (0x20030 + 0x100 *
    d.val) 2 v.toNat)))

/-- PD_CYC_WRITE (R122). A write of PHS.PD_CYC sets the cycle count while unlocked, otherwise is counted. -/
def execPdCycWrite (who d : Fin 4) (v : Word) (s : State) : Host.Outcome State Fault Refusal :=
done (s.writeTo who (0x2001C + 0x100 * d.val) (fun s => s.pdCycWrite d.val (v.toNat % 65536)))

/-- PD_PQ_WRITE (R126). A write of PHS.PD_PQ sets the phase whose prediction PD_PT reports. -/
def execPdPqWrite (who d : Fin 4) (v : Word) (s : State) : Host.Outcome State Fault Refusal :=
done (s.writeTo who (0x20040 + 0x100 * d.val) (fun s => s.pdPqWrite d.val v.toNat))

/-- DOMAIN_ENABLE (R128). Setting PD_CFG.EN takes a domain from OFF to ACQ and starts ACQ_TO. -/
def execDomainEnable (who d : Fin 4) (v : Word) (s : State) : Host.Outcome State Fault Refusal :=
done (s.writeTo who (0x20000 + 0x100 * d.val) (fun s => s.pdCfgWrite d.val (withFld v (F.PHS_PD_CFG_EN d.val)
    1)))

/-- DOMAIN_DISABLE (R128). Clearing PD_CFG.EN takes a domain to OFF, ending its phase waits and windows. -/
def execDomainDisable (who d : Fin 4) (v : Word) (s : State) : Host.Outcome State Fault Refusal :=
done (s.writeTo who (0x20000 + 0x100 * d.val) (fun s => s.pdCfgWrite d.val (withFld v (F.PHS_PD_CFG_EN d.val)
    0)))

/-- ACQ_TIMEOUT (R128). ACQ_TO expires without lock and raises source 19 + 4d. -/
def execAcqTimeout (d : Fin 4) (s : State) : Host.Outcome State Fault Refusal :=
done (s.acqTimeout d.val)

/-- LOSS_TIMEOUT (R128). No observation for LOSS_TO drops a locked domain to ACQ. -/
def execLossTimeout (d : Fin 4) (s : State) : Host.Outcome State Fault Refusal :=
done (s.lossTimeout d.val)

/-- PPS_OUT_SECOND (R131). PPS_OUT rises at a whole second of the selected base and falls after WIDTH ms. -/
def execPpsOutSecond (s : State) : Host.Outcome State Fault Refusal :=
done (s.whenOn 5 (fun s => s.ppsOutSecond))

/-- PPS_IN_EDGE (R132). An active PPS_IN edge captures TBM and TBN stamps and counts. -/
def execPpsInEdge (falling : Bool) (t : Nat) (s : State) : Host.Outcome State Fault Refusal :=
done (s.ppsInEdge falling t)

/-- PPS_IN_TIMEOUT (R132). No PPS_IN edge for 2 s raises source 3 once. -/
def execPpsInTimeout (s : State) : Host.Outcome State Fault Refusal :=
done s.ppsInTimeout

end Sys2Proof.Machine
end

