-- ==== Sys2Proof/Machine/CopperCmds.lean ====
section
/-! DEFINITION. The copper ports: modes, training, frames, PAUSE and cable diagnosis (R274 - R294, R324). -/

namespace Sys2Proof.Machine

/-- CU_MODE_CHANGE (R277). A write that changes CUn.CTL.MODE drops the link and starts the new mode. -/
def execCuModeChange (who : Fin 4) (c : Fin 2) (v : Word) (ok : Bool) (s : State) : Host.Outcome State Fault
    Refusal :=
done (s.writeTo who (0x500000 + 0x20000 * c.val) (fun s => s.copperStep (fun s => s.cuCtlWrite c.val v ok)))

/-- CU_RESTART (R277). RESTART drops the link and restarts training or auto-negotiation. -/
def execCuRestart (who : Fin 4) (c : Fin 2) (v : Word) (ok : Bool) (s : State) : Host.Outcome State Fault
    Refusal :=
done (s.writeTo who (0x500000 + 0x20000 * c.val) (fun s => s.copperStep (fun s => s.cuCtlWrite c.val (withFld v
    (F.CU_CTL_RESTART c.val) 1) ok)))

/-- AUTONEG_COMPLETE (R274). Auto-negotiation resolves a rate and the link comes up. -/
def execAutonegComplete (c : Fin 2) (rate : Fin 8) (master mdix txp rxp : Bool) (snr : BitVec 32) (len : Nat) (s
    : State) : Host.Outcome State Fault Refusal :=
done (s.whenOn 12 (fun s => s.autonegComplete c.val rate.val master mdix txp rxp snr.toNat len))

/-- CU_FRAME_RECEIVE (R275). A received Ethernet frame is checked, buffered or dropped, and PAUSE consumed. -/
def execCuFrameReceive (c : Fin 2) (bytes : List Byte) (fcs : Bool) (t : Nat) (k : Check) (s : State) :
    Host.Outcome State Fault Refusal :=
done (s.cuFrame c.val bytes fcs t k)

/-- PAUSE_REFRESH (R276). Every 0x8000 quanta above XON, PAUSE is repeated. -/
def execPauseRefresh (c : Fin 2) (s : State) : Host.Outcome State Fault Refusal :=
done (s.whenOn 12 (fun s => s.pauseRefresh c.val))

/-- PAUSE_EXPIRY (R276). A received PAUSE's quanta run out and egress resumes. -/
def execPauseExpiry (c : Fin 2) (s : State) : Host.Outcome State Fault Refusal :=
done (s.whenOn 12 (fun s => s.pauseExpiry c.val))

/-- PORT_FRAME_SENT (R324). A port finishes sending a queued frame and its egress level falls. -/
def execPortFrameSent (port : Fin 3) (t : Nat) (k : Check) (s : State) : Host.Outcome State Fault Refusal :=
done (if port.val < 2 then s.portSent port.val t k else s.whenOn 5 (fun s => s.fedDataSent t))

/-- LR_INFO_RECEIVE (R284). A valid INFO block is received during LR training. -/
def execLrInfoReceive (c : Fin 2) (v : BitVec 64) (s : State) : Host.Outcome State Fault Refusal :=
done (s.whenOn 12 (fun s => s.copperStep (fun s => s.lrInfo c.val v.toNat)))

/-- LR_PHASE_END (R283). An LR training phase reaches its length and the next phase begins. -/
def execLrPhaseEnd (c : Fin 2) (ok mdix : Bool) (snr : BitVec 32) (len : Nat) (s : State) : Host.Outcome State
    Fault Refusal :=
done (s.whenOn 12 (fun s => s.copperStep (fun s => s.lrPhaseEnd c.val ok mdix snr.toNat len)))

/-- LR_DETECT_TIMEOUT (R285). No valid INFO for 1 s in P0 raises source 290 + 16c. -/
def execLrDetectTimeout (c : Fin 2) (s : State) : Host.Outcome State Fault Refusal :=
done (s.whenOn 12 (fun s => s.copperStep (fun s => s.lrDetectTimeout c.val)))

/-- LR_OAM_RECEIVE (R282). An OAM word of a superframe is received and acted on. -/
def execLrOamReceive (c : Fin 2) (v : BitVec 48) (s : State) : Host.Outcome State Fault Refusal :=
done (s.whenOn 12 (fun s => s.copperStep (fun s => s.lrOam c.val v.toNat)))

/-- LR_CODE_FRAME (R281). A code frame is decoded and its CRC checked; consecutive failures lose the link. -/
def execLrCodeFrame (c : Fin 2) (w : Codeword) (start : Bool) (s : State) : Host.Outcome State Fault Refusal :=
done (s.whenOn 12 (fun s => s.copperStep (fun s => s.lrCodeFrame c.val w.line w.dec w.coef start)))

/-- LR_FAST_RETRAIN_END (R289). A fast retrain ends, resuming DATA or taking the link down. -/
def execLrFastRetrainEnd (c : Fin 2) (snr : BitVec 32) (len : Nat) (partner : Bool) (s : State) : Host.Outcome
    State Fault Refusal :=
done (s.whenOn 12 (fun s => s.copperStep (fun s => s.lrRetrainEnd c.val snr.toNat len partner)))

/-- BASE_T_LINK_LOSS (R289). A copper link at 10G, 5G, 2.5G or 1000BASE-T is lost, counted in LCNT.DOWN, with source
289 + 16c. -/
def execBaseTLinkLoss (c : Fin 2) (l : CuLoss) (s : State) : Host.Outcome State Fault Refusal :=
done (s.whenOn 12 (fun s => s.copperStep (fun s => s.baseTLoss c.val l)))

/-- DIAG_START (R291). GO in CUn.DIAG_CTL starts cable reflectometry, or is refused. -/
def execDiagStart (who : Fin 4) (c : Fin 2) (v : Word) (s : State) : Host.Outcome State Fault Refusal :=
done (s.writeTo who (0x500020 + 0x20000 * c.val) (fun s => s.diagWrite c.val (withFld v (F.CU_DIAG_CTL_GO c.val)
    1)))

/-- DIAG_DONE (R291). Reflectometry results are written to DIAG_RES. -/
def execDiagDone (c : Fin 2) (res : List Nat) (s : State) : Host.Outcome State Fault Refusal :=
done (s.whenOn 12 (fun s => s.diagDone c.val res))

end Sys2Proof.Machine
end

