-- ==== Sys2Proof/Machine/DmaCmds.lean ====
section
/-! DEFINITION. DMA channels and the management cores' caches (R399 - R413). -/

namespace Sys2Proof.Machine

/-- DMA_RUN (R407). RUN starts, resumes or restarts a channel. -/
def execDmaRun (who : Fin 4) (c : Fin 64) (v : Word) (s : State) : Host.Outcome State Fault Refusal :=
done (s.writeTo who (0xC00000 + 0x40 * c.val) (fun s => s.chCtlWrite c.val (withFld v (F.DMA_CH_CTL_RUN c.val)
    1)))

/-- DMA_STOP (R403). STOP stops the channel at the next descriptor boundary. -/
def execDmaStop (who : Fin 4) (c : Fin 64) (v : Word) (s : State) : Host.Outcome State Fault Refusal :=
done (s.writeTo who (0xC00000 + 0x40 * c.val) (fun s => s.chCtlWrite c.val (withFld v (F.DMA_CH_CTL_STOP c.val)
    1)))

/-- DMA_DESC_FETCH (R399). A fetched descriptor is checked and the channel starts moving its bytes, or ends or halts.
-/
def execDmaDescFetch (c : Fin 64) (ok : Bool) (host : List Byte) (s : State) : Host.Outcome State Fault Refusal
    :=
done (s.dmaFetch c.val ok host)

/-- DMA_CREDIT_REFILL (R401). Every 1 us each channel's credit is refilled. -/
def execDmaCreditRefill (s : State) : Host.Outcome State Fault Refusal :=
done s.dmaRefill

/-- DMA_BEAT_ISSUE (R401). A beat with credit is issued. -/
def execDmaBeatIssue (s : State) : Host.Outcome State Fault Refusal :=
done s.dmaIssue

/-- DMA_BEAT_RESPONSE (R404). A beat's response returns; a failure is retried or halts the channel. -/
def execDmaBeatResponse (c : Fin 64) (n : Nat) (ok : Bool) (host : List Byte) (dirty : List (Nat × Byte)) (s :
    State) : Host.Outcome State Fault Refusal :=
done (s.whenOn 5 (fun s => s.dmaResponse c.val n ok host dirty))

/-- DMA_WRITEBACK_DONE (R402). The status write-back is answered, IRQ_DONE sets and the next descriptor is fetched. -/
def execDmaWritebackDone (c : Fin 64) (ok : Bool) (s : State) : Host.Outcome State Fault Refusal :=
done (s.whenOn 5 (fun s => s.dmaWriteback c.val ok))

/-- MCC_CLEAN (R411). MCC_CTL GO with OP 0 cleans the range in both management-core caches. -/
def execMccClean (who : Fin 4) (v : Word) (s : State) : Host.Outcome State Fault Refusal :=
done (s.writeTo who 0xC0103C (fun s => s.mccCtlWrite who.val (withFld (withFld v (F.DMAS_MCC_CTL_GO who.val) 1)
    (F.DMAS_MCC_CTL_OP who.val) 0)))

/-- MCC_INVALIDATE (R411). OP 1 invalidates the range. -/
def execMccInvalidate (who : Fin 4) (v : Word) (s : State) : Host.Outcome State Fault Refusal :=
done (s.writeTo who 0xC0103C (fun s => s.mccCtlWrite who.val (withFld (withFld v (F.DMAS_MCC_CTL_GO who.val) 1)
    (F.DMAS_MCC_CTL_OP who.val) 1)))

/-- MCC_CLEAN_INVALIDATE (R411). OP 2 cleans and invalidates the range. -/
def execMccCleanInvalidate (who : Fin 4) (v : Word) (s : State) : Host.Outcome State Fault Refusal :=
done (s.writeTo who 0xC0103C (fun s => s.mccCtlWrite who.val (withFld (withFld v (F.DMAS_MCC_CTL_GO who.val) 1)
    (F.DMAS_MCC_CTL_OP who.val) 2)))

/-- MCC_DONE (R411). A cache maintenance operation completes and BUSY clears. -/
def execMccDone (dirty : List (Nat × Byte)) (s : State) : Host.Outcome State Fault Refusal :=
done (s.whenOn 5 (fun s => s.mccDone dirty))

end Sys2Proof.Machine
end

