-- ==== Sys2Proof/Machine/DramCmds.lean ====
section
/-! DEFINITION. The DRAM controller (R379 - R394). -/

namespace Sys2Proof.Machine

/-- DRAM_REQUEST (R379). At a command slot the controller issues the chosen request. -/
def execDramRequest (t : Nat) (new : List DramReq) (back : List Nat) (hit : Bool) (k : Ecc) (fin : Nat) (s :
    State) : Host.Outcome State Fault Refusal :=
done (s.dramRequest t new back hit k fin)

/-- REQUEST_PROMOTE (R380). A request waits PROMO and moves up one class. -/
def execRequestPromote (n : Nat) (s : State) : Host.Outcome State Fault Refusal :=
done (s.whenOn 4 (fun s => s.requestPromote n))

/-- DRAM_REFRESH (R389). Per-bank refresh falls due at tREFI. -/
def execDramRefresh (s : State) : Host.Outcome State Fault Refusal :=
done s.dramRefresh

/-- SCRUB_READ (R388). The scrubber reads an XM line and writes back a corrected line. -/
def execScrubRead (k : Ecc) (s : State) : Host.Outcome State Fault Refusal :=
done (s.scrubRead k)

/-- FREQUENCY_CHANGE (R390). FCHG starts moving to the other timing set. -/
def execFrequencyChange (who : Fin 4) (v : Word) (s : State) : Host.Outcome State Fault Refusal :=
done (s.writeTo who 0xB00000 (fun s => s.dmcCtlWrite (withFld v F.DMC_CTL_FCHG 1)))

/-- FREQUENCY_CHANGE_DONE (R390). The switch and retrain finish, requests resume, or the old set is restored. -/
def execFrequencyChangeDone (ok : Bool) (s : State) : Host.Outcome State Fault Refusal :=
done (s.whenOn 4 (fun s => s.frequencyStep ok))

/-- DRAM_TRAIN (R392). TRAIN starts full training. -/
def execDramTrain (who : Fin 4) (v : Word) (s : State) : Host.Outcome State Fault Refusal :=
done (s.writeTo who 0xB00000 (fun s => s.dmcCtlWrite (withFld v F.DMC_CTL_TRAIN 1)))

/-- DRAM_TRAIN_DONE (R392). Training ends with a result, retrying once on failure. -/
def execDramTrainDone (r : Fin 3) (s : State) : Host.Outcome State Fault Refusal :=
done (s.whenOn 4 (fun s => s.trainDone r.val))

/-- QUICK_RETRAIN_DONE (R393). A DRAM quick retrain ends and sets READY, or fails and goes on to full training. -/
def execQuickRetrainDone (ok : Bool) (s : State) : Host.Outcome State Fault Refusal :=
done (s.whenOn 4 (fun s => s.quickDone ok))

/-- DQS_DRIFT_CHECK (R394). Every 100 ms the DQS oscillators are read and delays corrected or retrained. -/
def execDqsDriftCheck (ok : Bool) (s : State) : Host.Outcome State Fault Refusal :=
done (s.dqsCheck ok)

/-- TX_STREAM_LOW (R383). A radio's transmit stream buffer falls below TX_LO during a PPDU, and DRAM port 0 enters
panic. -/
def execTxStreamLow (n : Fin 3) (s : State) : Host.Outcome State Fault Refusal :=
done (s.whenOn 11 (fun s => s.txStreamLow n.val))

/-- TX_STREAM_UNDERRUN (R384). A transmit stream buffer empties during a PPDU; the missing MPDUs go out with a corrupt
FCS, UNDERRUN counts and source 502 is raised. -/
def execTxStreamUnderrun (n : Fin 3) (s : State) : Host.Outcome State Fault Refusal :=
done (s.whenOn 11 (fun s => s.txUnderrun n.val))

end Sys2Proof.Machine
end

