-- ==== Sys2Proof/Machine/EndpointCmds.lean ====
section
/-! DEFINITION. The endpoint table, routes and the journal (R356 - R371). -/

namespace Sys2Proof.Machine

/-- INSERT (R358). An INSERT command allocates, writes and indexes an endpoint entry, or reports failure. -/
def execInsert (slot : Fin 516) (k : Check) (s : State) : Host.Outcome State Fault Refusal :=
done (s.whenOn 5 (fun s => s.eptCommand slot.val false k))

/-- REMOVE (R358). A REMOVE command unindexes an entry and sets KIND 0. -/
def execRemove (slot : Fin 516) (k : Check) (s : State) : Host.Outcome State Fault Refusal :=
done (s.whenOn 5 (fun s => s.eptCommand slot.val true k))

/-- EPT_ENABLE (R359). A write of EPT.CTL.EN = 1 enables lookups, ignored with fewer than two cache banks. -/
def execEptEnable (who : Fin 4) (v : Word) (bad : List Nat) (s : State) : Host.Outcome State Fault Refusal :=
done (s.writeTo who 0xA00000 (fun s => s.eptCtlWrite (withFld v F.EPT_CTL_EN 1) bad))

/-- CACHE_FLUSH (R360). FLUSH writes every cached entry back to DRAM. -/
def execCacheFlush (who : Fin 4) (v : Word) (bad : List Nat) (s : State) : Host.Outcome State Fault Refusal :=
done (s.writeTo who 0xA00000 (fun s => s.eptCtlWrite (withFld v F.EPT_CTL_FLUSH 1) bad))

/-- ROUTE_ADD (R361). RT_UPD GO without REMOVE installs a prefix or sets ERR. -/
def execRouteAdd (who : Fin 4) (s : State) : Host.Outcome State Fault Refusal :=
done (s.writeTo who 0xA00060 (fun s => s.routeGo false))

/-- ROUTE_REMOVE (R361). RT_UPD GO with REMOVE deletes a prefix or sets ERR. -/
def execRouteRemove (who : Fin 4) (s : State) : Host.Outcome State Fault Refusal :=
done (s.writeTo who 0xA00060 (fun s => s.routeGo true))

/-- JOURNAL_MOUNT (R366). MOUNT reads every sector and record and writes the directory. -/
def execJournalMount (who : Fin 4) (v : Word) (ok : Bool) (s : State) : Host.Outcome State Fault Refusal :=
done (s.writeTo who 0xA00088 (fun s => s.jrnCtlWrite (withFld v F.EPT_JRN_CTL_MOUNT 1) ok))

/-- JOURNAL_APPEND (R367). JRN_APP GO appends a record under R364. -/
def execJournalAppend (who : Fin 4) (v : Word) (s : State) : Host.Outcome State Fault Refusal :=
done (s.writeTo who 0xA0008C (fun s => s.jrnAppWrite who.val (withFld (withFld v (F.EPT_JRN_APP_GO who.val) 1)
    (F.EPT_JRN_APP_DEL who.val) 0)))

/-- JOURNAL_DELETE (R365). JRN_APP GO with DEL appends a deletion record. -/
def execJournalDelete (who : Fin 4) (v : Word) (s : State) : Host.Outcome State Fault Refusal :=
done (s.writeTo who 0xA0008C (fun s => s.jrnAppWrite who.val (withFld (withFld v (F.EPT_JRN_APP_GO who.val) 1)
    (F.EPT_JRN_APP_DEL who.val) 1)))

/-- JOURNAL_APPEND_DONE (R364). An append commits or fails, and compaction may start at 48 sectors. -/
def execJournalAppendDone (ok1 ok2 erase : Bool) (s : State) : Host.Outcome State Fault Refusal :=
done (s.whenOn 5 (fun s => s.journalAppendDone ok1 ok2 erase))

/-- JOURNAL_COMPACT (R368). COMPACT copies one sector's live records to the head and erases it. -/
def execJournalCompact (who : Fin 4) (v : Word) (ok : Bool) (s : State) : Host.Outcome State Fault Refusal :=
done (s.writeTo who 0xA00088 (fun s => s.jrnCtlWrite (withFld v F.EPT_JRN_CTL_COMPACT 1) ok))

/-- FLASH_TIMEOUT (R371). The flash fails to answer in time and the operation is abandoned with source 490. -/
def execFlashTimeout (s : State) : Host.Outcome State Fault Refusal :=
done (s.whenOn 5 (fun s => s.flashTimeout))

end Sys2Proof.Machine
end

