-- ==== Sys2Proof/Machine/FabricCmds.lean ====
section
/-! DEFINITION. The Hawald fabric and the federation (R426 - R448, R480). -/

namespace Sys2Proof.Machine

/-- HEARTBEAT_SEND (R438). Every HB ms a HEARTBEAT leaves on each enabled slot. -/
def execHeartbeatSend (slot : Fin 8) (s : State) : Host.Outcome State Fault Refusal :=
done (s.whenOn 5 (fun s => s.heartbeatSend slot.val))

/-- HEARTBEAT (R438). A received HEARTBEAT brings the slot up or keeps it, updates routes and time offset. -/
def execHeartbeat (slot : Fin 8) (m : FedMsg) (t : Nat) (k : Check) (s : State) : Host.Outcome State Fault
    Refusal :=
done (s.fabricMessage noAccess slot.val { m with type := 0 } t k)

/-- HEARTBEAT_DEADLINE (R438). A heartbeat deadline passes; MISSED advances and at 3 the slot is lost. -/
def execHeartbeatDeadline (slot : Fin 8) (s : State) : Host.Outcome State Fault Refusal :=
done (s.whenOn 5 (fun s => s.heartbeatDeadline slot.val))

/-- QUORUM_SETTLE (R448). A changed quorum holds for SETTLE and takes effect, entering or leaving Island. -/
def execQuorumSettle (s : State) : Host.Outcome State Fault Refusal :=
done (s.whenOn 5 (fun s => s.quorumSettle))

/-- ACK (R436). A received fabric ACK clears acknowledged REL messages. -/
def execAck (slot : Fin 8) (m : FedMsg) (t : Nat) (k : Check) (s : State) : Host.Outcome State Fault Refusal :=
done (s.fabricMessage noAccess slot.val { m with type := 1 } t k)

/-- RACC (R443). A received RACC is applied in RNUM order as a host access and answered. -/
def execRacc (slot : Fin 8) (m : FedMsg) (t : Nat) (k : Check) (x : Ext) (s : State) : Host.Outcome State Fault
    Refusal :=
done (s.fabricMessage (hostPath x) slot.val { m with type := 2 } t k)

/-- RREP (R426). A received RREP completes the anchor's remote access. -/
def execRrep (slot : Fin 8) (m : FedMsg) (t : Nat) (k : Check) (s : State) : Host.Outcome State Fault Refusal :=
done (s.fabricMessage noAccess slot.val { m with type := 3 } t k)

/-- DATA (R437). A received fabric DATA is relayed or passed to the parser. -/
def execData (slot : Fin 8) (m : FedMsg) (t : Nat) (k : Check) (s : State) : Host.Outcome State Fault Refusal :=
done (s.fabricMessage noAccess slot.val { m with type := 4 } t k)

/-- JOIN (R445). A received JOIN enters the anchor's mailbox. -/
def execJoin (slot : Fin 8) (m : FedMsg) (t : Nat) (k : Check) (s : State) : Host.Outcome State Fault Refusal :=
done (s.fabricMessage noAccess slot.val { m with type := 16 } t k)

/-- ADMIT (R445). A received ADMIT enters the joining device's mailbox. -/
def execAdmitDevice (slot : Fin 8) (m : FedMsg) (t : Nat) (k : Check) (s : State) : Host.Outcome State Fault
    Refusal :=
done (s.fabricMessage noAccess slot.val { m with type := 17 } t k)

/-- LEAVE (R447). A received LEAVE enters the mailbox and its sender leaves REACH. -/
def execLeave (slot : Fin 8) (m : FedMsg) (t : Nat) (k : Check) (s : State) : Host.Outcome State Fault Refusal
    :=
done (s.fabricMessage noAccess slot.val { m with type := 18 } t k)

/-- NOTICE (R432). A received parent-lost NOTICE enters the anchor's mailbox. -/
def execNotice (slot : Fin 8) (m : FedMsg) (t : Nat) (k : Check) (s : State) : Host.Outcome State Fault Refusal
    :=
done (s.fabricMessage noAccess slot.val { m with type := 19 } t k)

/-- FAULT (R480). A received FAULT is counted in FLT.RMT and enters the mailbox. -/
def execFault (slot : Fin 8) (m : FedMsg) (t : Nat) (k : Check) (s : State) : Host.Outcome State Fault Refusal
    :=
done (s.fabricMessage noAccess slot.val { m with type := 20 } t k)

/-- FIRMWARE_MESSAGE (R432). A received firmware-type message enters the destination's mailbox. -/
def execFirmwareMessage (slot : Fin 8) (m : FedMsg) (t : Nat) (k : Check) (s : State) : Host.Outcome State Fault
    Refusal :=
done (if 32 ≤ m.type.toNat then s.fabricMessage noAccess slot.val m t k else s)

/-- FABRIC_SEND (R436). GO in FED.TX_CTL sends a firmware message, REL ones entering the send table. -/
def execFabricSend (who : Fin 4) (v : Word) (s : State) : Host.Outcome State Fault Refusal :=
done (s.writeTo who 0xE0008C (fun s => s.txCtlWrite who.val (withFld v (F.FED_TX_CTL_GO who.val) 1)))

/-- ACK_GATHER (R436). Within 1 ms, or at 16 numbers, gathered acknowledgements leave as an ACK. -/
def execAckGather (src : Fin 64) (s : State) : Host.Outcome State Fault Refusal :=
done (s.whenOn 5 (fun s => s.ackGather src.val))

/-- REL_RESEND (R436). RTO expires for a REL message, which is resent or dropped after its retries. -/
def execRelResend (seq : BitVec 32) (s : State) : Host.Outcome State Fault Refusal :=
done (s.whenOn 5 (fun s => s.relResend seq.toNat))

/-- RACC_GAP_TIMEOUT (R443). A held remote access waits out its gap, the missing numbers are skipped and source 588
raised. -/
def execRaccGapTimeout (src : Fin 64) (x : Ext) (s : State) : Host.Outcome State Fault Refusal :=
done (s.whenOn 5 (fun s => s.raccGap (hostPath x) src.val))

/-- FED_ENABLE (R444). Setting FED.CTL.EN enters JOINING or, on the anchor, MEMBER. -/
def execFedEnable (who : Fin 4) (v : Word) (s : State) : Host.Outcome State Fault Refusal :=
done (s.writeTo who 0xE00000 (fun s => s.fedCtlWrite (withFld v F.FED_CTL_EN 1)))

/-- FED_DISABLE (R444). Clearing FED.CTL.EN sends LEAVE in MEMBER or ISLAND and enters OFF. -/
def execFedDisable (who : Fin 4) (v : Word) (s : State) : Host.Outcome State Fault Refusal :=
done (s.writeTo who 0xE00000 (fun s => s.fedCtlWrite (withFld v F.FED_CTL_EN 0)))

/-- ADMITTED (R445). ADMITTED applies EPOCH_SYS, entering SYNC or MEMBER. -/
def execAdmitted (who : Fin 4) (v : Word) (s : State) : Host.Outcome State Fault Refusal :=
done (s.writeTo who 0xE00000 (fun s => s.fedCtlWrite (withFld v F.FED_CTL_ADMITTED 1)))

/-- SYNCED (R446). SYNCED takes the device from SYNC to MEMBER. -/
def execSynced (who : Fin 4) (v : Word) (s : State) : Host.Outcome State Fault Refusal :=
done (s.writeTo who 0xE00000 (fun s => s.fedCtlWrite (withFld v F.FED_CTL_SYNCED 1)))

end Sys2Proof.Machine
end

