-- ==== Sys2Proof/Machine/FaultCmds.lean ====
section
/-! DEFINITION. The fault collector and the dump (R474 - R485, R495). -/

namespace Sys2Proof.Machine

/-- GRACE1_EXPIRY (R474). A pending source's L1 grace timer expires and it enters L2. -/
def execGrace1Expiry (n : Fin 640) (bad : Fin 3) (s : State) : Host.Outcome State Fault Refusal :=
done (s.graceExpiry n.val 1 bad.val)

/-- GRACE2_EXPIRY (R474). A pending source's L2 grace timer expires and it enters L3. -/
def execGrace2Expiry (n : Fin 640) (bad : Fin 3) (s : State) : Host.Outcome State Fault Refusal :=
done (s.graceExpiry n.val 2 bad.val)

/-- FAULT_ACK (R476). A write to FLT.ACK from the owner acknowledges pending sources. -/
def execFaultAck (who : Fin 4) (j : Fin 20) (v : Word) (s : State) : Host.Outcome State Fault Refusal :=
done (s.writeTo who (0x1000200 + 4 * j.val) (fun s => s.faultAck who.val j.val v.toNat))

/-- FAULT_FORCE (R478). A write to FLT.FORCE is an occurrence of the source. -/
def execFaultForce (who : Fin 4) (j : Fin 20) (v : Word) (s : State) : Host.Outcome State Fault Refusal :=
done (s.writeTo who (0x1000280 + 4 * j.val) (fun s => s.faultForce j.val v.toNat))

/-- DUMP_COMPLETE (R485). The dump routine programs STATE complete; DUMP record and Fault Hold follow. -/
def execDumpComplete (bad : Fin 3) (s : State) : Host.Outcome State Fault Refusal :=
done (s.dumpComplete bad.val)

/-- DUMP_TIMEOUT (R485). FLT.DUMP_TO passes; DUMP record and Fault Hold follow. -/
def execDumpTimeout (n : Nat) (bad : Fin 3) (s : State) : Host.Outcome State Fault Refusal :=
done (s.dumpTimeout n bad.val)

/-- DUMP_ERASE (R483). ACN.DUMP_CTL.ERASE erases the dump region. -/
def execDumpErase (who : Fin 4) (v : Word) (s : State) : Host.Outcome State Fault Refusal :=
done (s.writeTo who 0x1100040 (fun s => s.dumpCtlWrite (withFld v F.ACN_DUMP_CTL_ERASE 1)))

/-- DUMP_ERASE_DONE (R495). The erase of the dump region ends, BUSY clears and DUMP_CTL.STATE reads erased or flash
error. -/
def execDumpEraseDone (ok : Bool) (s : State) : Host.Outcome State Fault Refusal :=
done (s.dumpEraseDone ok)

end Sys2Proof.Machine
end

