-- ==== Sys2Proof/Machine/HostCmds.lean ====
section
/-! DEFINITION. Queue pairs, MSI-X, the host link and remote access (R417 - R428). -/

namespace Sys2Proof.Machine

/-- SQ_DOORBELL (R419). A write of an SQ tail doorbell posts descriptors and stamps them. -/
def execSqDoorbell (q : Fin 32) (tail : BitVec 16) (t : Nat) (s : State) : Host.Outcome State Fault Refusal :=
done (s.sqDoorbell q.val tail.toNat t)

/-- CQ_DOORBELL (R422). A write of a CQ head doorbell releases completion entries. -/
def execCqDoorbell (q : Fin 32) (head : BitVec 16) (s : State) : Host.Outcome State Fault Refusal :=
done (s.cqDoorbell q.val head.toNat)

/-- SEND (R420). A fetched SEND passes the SEQ check, is read and presented to the parser. -/
def execSend (q : Fin 32) (d : SqDesc) (data : List Byte) (k kb : Check) (s : State) : Host.Outcome State Fault
    Refusal :=
done (s.hostSend q.val d data k kb)

/-- BUF (R420). A fetched BUF joins the queue pair's free list. -/
def execBuf (q : Fin 32) (d : SqDesc) (k : Check) (s : State) : Host.Outcome State Fault Refusal :=
done (s.hostBuf q.val d k)

/-- HOST_NOP (R420). A fetched NOP is consumed. -/
def execHostNop (q : Fin 32) (d : SqDesc) (k : Check) (s : State) : Host.Outcome State Fault Refusal :=
done (s.hostNop q.val d k)

/-- HOST_RX_DELIVER (R423). A frame in the receive queue fills the oldest BUF and its CQ entry is written. -/
def execHostRxDeliver (q : Fin 32) (k : Check) (s : State) : Host.Outcome State Fault Refusal :=
done (s.hostRx q.val k)

/-- QP_COAL_TIMEOUT (R424). COAL_US after the first entry, the queue pair's vector is sent. -/
def execQpCoalTimeout (q : Fin 32) (s : State) : Host.Outcome State Fault Refusal :=
done (s.whenOn 2 (fun s => s.qpCoalTimeout q.val))

/-- MSIX_UNMASK (R424). Unmasking a vector with its pending bit set sends the message. -/
def execMsixUnmask (n : Fin 128) (addr : BitVec 64) (data : BitVec 32) (s : State) : Host.Outcome State Fault
    Refusal :=
done (s.whenOn 2 (fun s => s.msixUnmask n.val addr.toNat data.toNat))

/-- FUNCTION_LEVEL_RESET (R425). FLR disables queue pairs, clears MSI-X and raises source 568. -/
def execFunctionLevelReset (s : State) : Host.Outcome State Fault Refusal :=
done (s.whenOn 2 (fun s => s.hostFlr))

/-- HOST_LINK_DOWN (R425). Link down, hot reset, PERST_N or removal halts queue pairs and host DMA. -/
def execHostLinkDown (s : State) : Host.Outcome State Fault Refusal :=
done (s.whenOn 2 (fun s => s.hostLinkDown))

/-- HOST_LINK_UP (R425). The host link returns; halted queue pairs stay halted. -/
def execHostLinkUp (speed : Fin 5) (width : Fin 5) (s : State) : Host.Outcome State Fault Refusal :=
done (s.hostLinkUp speed.val width.val)

/-- PCIE_ERROR (R428). The PCIe link reports an AER correctable or uncorrectable error, raising source 565 or 566. -/
def execPcieError (uncorrectable : Bool) (s : State) : Host.Outcome State Fault Refusal :=
done (s.pcieError uncorrectable)

/-- QP_ENABLE_WRITE (R425). A write of QP_CTL.EN enables or disables a queue pair, restarting its rings. -/
def execQpEnableWrite (who : Fin 4) (q : Fin 32) (v : Word) (s : State) : Host.Outcome State Fault Refusal :=
done (s.writeTo who (0xD01000 + 0x40 * q.val) (fun s => s.qpCtlWrite q.val v))

/-- RA_READ (R426). RA_CTL GO with OP 0 sends a remote read to device DEV. -/
def execRaRead (who : Fin 4) (v : Word) (x : Ext) (s : State) : Host.Outcome State Fault Refusal :=
done (s.writeTo who 0xD0001C (fun s => s.raCtlWrite (hostPath x) (withFld (withFld v F.HST_RA_CTL_GO 1)
    F.HST_RA_CTL_OP 0)))

/-- RA_WRITE (R426). RA_CTL GO with OP 1 sends a remote write. -/
def execRaWrite (who : Fin 4) (v : Word) (x : Ext) (s : State) : Host.Outcome State Fault Refusal :=
done (s.writeTo who 0xD0001C (fun s => s.raCtlWrite (hostPath x) (withFld (withFld v F.HST_RA_CTL_GO 1)
    F.HST_RA_CTL_OP 1)))

/-- RA_TIMEOUT (R426). No reply within RA_TO sets STATUS 1. -/
def execRaTimeout (s : State) : Host.Outcome State Fault Refusal :=
done (s.whenOn 2 (fun s => s.raTimeout))

end Sys2Proof.Machine
end

