-- ==== Sys2Proof/Machine/HuskCmds.lean ====
section
/-! DEFINITION. A husk from ready to its end (R94, R146, R169, R180, R185, R210). -/

namespace Sys2Proof.Machine

/-- HUSK_READY (R169). The last assembly step of a husk ends and it becomes READY. -/
def execHuskReady (n : Fin 4) (slot : Fin 2) (s : State) : Host.Outcome State Fault Refusal :=
done (s.huskReady n.val slot.val)

/-- HUSK_COMMIT (R180). A READY husk's window is open and the medium won: key generations are checked and the PHY
accepts the first preamble symbol or the husk is undone with KEYGEN. -/
def execHuskCommit (n : Fin 4) (m : Medium) (s : State) : Host.Outcome State Fault Refusal :=
done (s.huskCommit n.val m.rx m.bad)

/-- LAUNCH_WINDOW_END (R94). A LAUNCH window ends before commit and the husk is undone with MEDIUM, LATE or PHASE. -/
def execLaunchWindowEnd (n : Fin 4) (s : State) : Host.Outcome State Fault Refusal :=
done (s.launchWindowEnd n.val)

/-- BLOCK_ACK_RECEIVE (R185). An acknowledgement for a committed husk arrives, ending its frame exchange. -/
def execBlockAckReceive (n : Fin 3) (slot : Fin 2) (st : BitVec 11) (acked : List (Nat × Nat)) (ulExp ulGot :
    Nat) (s : State) : Host.Outcome State Fault Refusal :=
done (s.blockAckReceive n.val slot.val st.toNat acked ulExp ulGot)

/-- ACK_TIMEOUT (R185). An expected acknowledgement times out and the station link's MPDUs join the retry set. -/
def execAckTimeout (n : Fin 3) (slot : Fin 2) (st : BitVec 11) (w : Silence) (s : State) : Host.Outcome State
    Fault Refusal :=
done (s.ackTimeout n.val slot.val st.toNat w.ulExp w.noCts)

/-- PPDU_END (R146). A committed PPDU that solicits no response ends, which ends its frame exchange, frees its MPDUs
and releases its grants. -/
def execPpduEnd (n : Fin 4) (slot : Fin 2) (s : State) : Host.Outcome State Fault Refusal :=
done (s.ppduEnd n.val slot.val)

/-- EMLSR_TRANSITION_END (R210). The transition delay after an EMLSR station's frame exchange ends, and the arbiter
releases its other links. -/
def execEmlsrTransitionEnd (n : Fin 3) (st : BitVec 11) (s : State) : Host.Outcome State Fault Refusal :=
done (s.emlsrEnd n.val st.toNat)

end Sys2Proof.Machine
end

