-- ==== Sys2Proof/Machine/ParserCmds.lean ====
section
/-! DEFINITION. The parser, its rules and patterns (R295 - R311, R316). -/

namespace Sys2Proof.Machine

/-- FRAME_PARSE (R295). The parser takes a frame or recirculated packet, walks, searches, classifies and disposes of
it. -/
def execFrameParse (port : Fin 6) (buf pat rule : Check) (x : Ext) (s : State) : Host.Outcome State Fault
    Refusal :=
done (s.parseFrame (hostPath x) port.val buf pat rule)

/-- RULE_WRITE (R306). RULE_UPD OP 0 writes the staged rule and zeroes its hit count. -/
def execRuleWrite (who : Fin 4) (v : Word) (s : State) : Host.Outcome State Fault Refusal :=
done (s.writeTo who 0x6004A0 (fun s => s.ruleUpdWrite (withFld (withFld v F.PRS_RULE_UPD_GO 1) F.PRS_RULE_UPD_OP
    0)))

/-- RULE_READ (R311). RULE_UPD OP 1 reads a rule into the stage and its count into RULE_HITS. -/
def execRuleRead (who : Fin 4) (v : Word) (s : State) : Host.Outcome State Fault Refusal :=
done (s.writeTo who 0x6004A0 (fun s => s.ruleUpdWrite (withFld (withFld v F.PRS_RULE_UPD_GO 1) F.PRS_RULE_UPD_OP
    1)))

/-- RULE_READ_CLEAR (R311). RULE_UPD OP 2 reads a rule and clears its count. -/
def execRuleReadClear (who : Fin 4) (v : Word) (s : State) : Host.Outcome State Fault Refusal :=
done (s.writeTo who 0x6004A0 (fun s => s.ruleUpdWrite (withFld (withFld v F.PRS_RULE_UPD_GO 1) F.PRS_RULE_UPD_OP
    2)))

/-- BANK_SWAP (R308). SWAP makes the other rule bank active for later matches. -/
def execBankSwap (who : Fin 4) (v : Word) (s : State) : Host.Outcome State Fault Refusal :=
done (s.writeTo who 0x600004 (fun s => s.bankWrite (withFld v F.PRS_BANK_SWAP 1)))

/-- PATTERN_INSTALL (R302). GO in PRS.PAT_UPD installs a staged pattern whole. -/
def execPatternInstall (who : Fin 4) (v : Word) (s : State) : Host.Outcome State Fault Refusal :=
done (s.writeTo who 0x600560 (fun s => s.patUpdWrite (withFld v F.PRS_PAT_UPD_GO 1)))

/-- CREATION_RETRY (R316). The parser's held frame is offered again once the slice has room. -/
def execCreationRetry (s : State) : Host.Outcome State Fault Refusal :=
done (s.whenOn 5 (fun s => s.creationRetry))

end Sys2Proof.Machine
end

