-- ==== Sys2Proof/Machine/PipCmds.lean ====
section
/-! DEFINITION. The Pip radio (R236 - R272). -/

namespace Sys2Proof.Machine

/-- CHPLAN_WRITE (R236). A write of PIP.CHPLAN is refused with source 257 when it places channels out of band. -/
def execChplanWrite (who : Fin 4) (v : Word) (s : State) : Host.Outcome State Fault Refusal :=
done (s.writeTo who 0x400004 (fun s => s.chplanWrite v))

/-- CHMAP_WRITE (R253). A write of an empty PIP.CHMAP is ignored with source 257. -/
def execChmapWrite (who : Fin 4) (v : Word) (s : State) : Host.Outcome State Fault Refusal :=
done (s.writeTo who 0x400010 (fun s => s.chmapWrite (s.staged who.val 0x400010 1 v.toNat)))

/-- CHMAP_CHANGE (R254). GO in PIP.CHMAP_AT schedules a channel-map change announced in beacons. -/
def execChmapChange (who : Fin 4) (v : Word) (s : State) : Host.Outcome State Fault Refusal :=
done (s.writeTo who 0x400020 (fun s => s.chmapAtWrite (withFld v F.PIP_CHMAP_AT_GO 1)))

/-- PIP_DATA (R251). A received Pip DATA frame passes the checks, applies sequence bits and is answered. -/
def execPipData (f : PipFrame) (k : Check) (room : Bool) (s : State) : Host.Outcome State Fault Refusal :=
done ((s.pipReceive 1 f k room).st)

/-- PIP_ACK (R251). A received Pip ACK acknowledges the pending frame. -/
def execPipAck (f : PipFrame) (k : Check) (room : Bool) (s : State) : Host.Outcome State Fault Refusal :=
done ((s.pipReceive 2 f k room).st)

/-- PIP_POLL (R260). A received POLL from a sleepy node draws an automatic answer. -/
def execPipPoll (f : PipFrame) (k : Check) (room : Bool) (s : State) : Host.Outcome State Fault Refusal :=
done ((s.pipReceive 3 f k room).st)

/-- PIP_ALERT (R261). A received ALERT is checked, delivered and acknowledged, and may wake the device from Watch. -/
def execPipAlert (f : PipFrame) (k : Check) (room : Bool) (s : State) : Host.Outcome State Fault Refusal :=
done (s.pipAlert f k room)

/-- PIP_FLOOD (R262). A received FLOOD is checked against the seen cache, the MIC and the counter and delivered if
addressed. -/
def execPipFlood (f : PipFrame) (k : Check) (room : Bool) (s : State) : Host.Outcome State Fault Refusal :=
done ((s.pipReceive 5 f k room).st)

/-- PIP_JOIN (R250). A received JOIN is delivered marked unknown or with its LIVE bit. -/
def execPipJoin (f : PipFrame) (k : Check) (room : Bool) (s : State) : Host.Outcome State Fault Refusal :=
done ((s.pipReceive 6 f k room).st)

/-- PIP_FRAME_REJECT (R239). A Pip frame qualifies its sync word but has a LEN outside 8 to 96, a failing CRC, or a
reserved TYPE or header bits, and is abandoned and counted in PIP.RXCNT.CRC. -/
def execPipFrameReject (t : Nat) (rssi : BitVec 8) (sat : Bool) (s : State) : Host.Outcome State Fault Refusal
    :=
done (s.pipReject t rssi.toNat sat)

/-- PIP_AUTO_ANSWER (R242). At T_IFS after a frame, the MAC sends the automatic answer. -/
def execPipAutoAnswer (s : State) : Host.Outcome State Fault Refusal :=
done s.autoAnswer

/-- PIP_ANSWER_TIMEOUT (R242). An expected answer fails to qualify in its window and the exchange ends. -/
def execPipAnswerTimeout (s : State) : Host.Outcome State Fault Refusal :=
done (s.whenOn 5 (fun s => s.answerTimeout))

/-- PIP_ANCHOR (R252). A connection event's anchor instant passes; EC and ANCHOR advance. -/
def execPipAnchor (node : Fin 16384) (s : State) : Host.Outcome State Fault Refusal :=
done (s.whenOn 5 (fun s => s.pipAnchor node.val))

/-- PIP_SUPERVISION_TIMEOUT (R256). No frame for STO seconds ends a CONN link and passes a NOTICE. -/
def execPipSupervisionTimeout (node : Fin 16384) (s : State) : Host.Outcome State Fault Refusal :=
done (s.whenOn 5 (fun s => s.supervision node.val))

/-- PIP_TBTT (R257). A Pip target beacon time arrives; a pending map change applies. -/
def execPipTbtt (s : State) : Host.Outcome State Fault Refusal :=
done s.pipTbtt

/-- PIP_BEACON_COMMIT (R258). The armed Pip beacon wins the medium and is sent. -/
def execPipBeaconCommit (s : State) : Host.Outcome State Fault Refusal :=
done s.pipBeaconCommit

/-- PIP_BEACON_WINDOW_END (R258). The Pip beacon window ends unsent, burning its counter and counting a failure. -/
def execPipBeaconWindowEnd (s : State) : Host.Outcome State Fault Refusal :=
done s.pipBeaconWindowEnd

/-- FLOOD_CACHE_EXPIRY (R262). A seen-cache entry reaches 30 s and leaves the cache. -/
def execFloodCacheExpiry (s : State) : Host.Outcome State Fault Refusal :=
done (s.whenOn 5 (fun s => s.seenExpiry))

/-- NODE_UPDATE (R249). A plain NODE_UPD GO installs a staged node record, ignoring device-owned bytes. -/
def execNodeUpdate (who : Fin 4) (v : Word) (s : State) : Host.Outcome State Fault Refusal :=
done (s.writeTo who 0x4000C0 (fun s => s.nodeUpdWrite (withFld (withFld (withFld v F.PIP_NODE_UPD_GO 1)
    F.PIP_NODE_UPD_CONN 0) F.PIP_NODE_UPD_MERGE 0)))

/-- NODE_UPDATE_CONN (R249). NODE_UPD GO with CONN installs the record, takes staged counters and sets LIVE. -/
def execNodeUpdateConn (who : Fin 4) (v : Word) (s : State) : Host.Outcome State Fault Refusal :=
done (s.writeTo who 0x4000C0 (fun s => s.nodeUpdWrite (withFld (withFld (withFld v F.PIP_NODE_UPD_GO 1)
    F.PIP_NODE_UPD_CONN 1) F.PIP_NODE_UPD_MERGE 0)))

/-- NODE_UPDATE_MERGE (R249). NODE_UPD GO with MERGE takes the maximum of counters and the later event counter. -/
def execNodeUpdateMerge (who : Fin 4) (v : Word) (s : State) : Host.Outcome State Fault Refusal :=
done (s.writeTo who 0x4000C0 (fun s => s.nodeUpdWrite (withFld (withFld v F.PIP_NODE_UPD_GO 1)
    F.PIP_NODE_UPD_MERGE 1)))

/-- PIP_ENABLE (R272). A write of PIP.CTL.EN = 1 enables the Pip radio and runs calibration, which may fail with
source 260. -/
def execPipEnable (who : Fin 4) (v : Word) (ok : Bool) (s : State) : Host.Outcome State Fault Refusal :=
done (s.writeTo who 0x400000 (fun s => s.pipCtlWrite (withFld v F.PIP_CTL_EN 1) ok))

/-- PIP_DISABLE (R272). Clearing PIP.CTL.EN undoes every SQP husk with RADIO. -/
def execPipDisable (who : Fin 4) (v : Word) (s : State) : Host.Outcome State Fault Refusal :=
done (s.writeTo who 0x400000 (fun s => s.pipCtlWrite (withFld v F.PIP_CTL_EN 0) true))

end Sys2Proof.Machine
end

