-- ==== Sys2Proof/Machine/PowerCmds.lean ====
section
/-! DEFINITION. Entries, wakes, the trim voltage and the regulator (R460 - R471). -/

namespace Sys2Proof.Machine

/-- ENTRY_STEP_COMPLETE (R462). A step of an entry into a lower mode completes and the next begins or a held wake
event takes effect. -/
def execEntryStepComplete (bad : Fin 3) (s : State) : Host.Outcome State Fault Refusal :=
done (s.entryStep bad.val)

/-- ENTRY_TIMEOUT (R462). ENTRY_TO ends with tasks running; they are ended and source 610 raised. -/
def execEntryTimeout (s : State) : Host.Outcome State Fault Refusal :=
done s.entryTimeout

/-- WAKE_PIN (R465). WAKE_N held low for 1 us records and, if enabled, starts a wake. -/
def execWakePin (s : State) : Host.Outcome State Fault Refusal :=
done (s.wakeEvent 0)

/-- WAKE_HOST (R465). A host write of PWR.WAKE_HOST.GO is a wake event. -/
def execWakeHost (who : Fin 4) (v : Word) (s : State) : Host.Outcome State Fault Refusal :=
done (s.writeTo who 0xF0002C (fun s => s.wakeHostWrite who.val (withFld v F.PWR_WAKE_HOST_GO 1)))

/-- WAKE_ALARM (R465). TBM reaches PWR.WAKE_AT and the alarm fires once. -/
def execWakeAlarm (s : State) : Host.Outcome State Fault Refusal :=
done s.wakeAlarm

/-- WAKE_STAGE_READY (R466). A wake stage's ready signal holds and the next stage starts, or the wake completes. -/
def execWakeStageReady (mv : BitVec 16) (s : State) : Host.Outcome State Fault Refusal :=
done (s.stageReady mv.toNat)

/-- WAKE_STAGE_TIMEOUT (R467). A wake stage times out and is retried once, or fails with its outcome. -/
def execWakeStageTimeout (failing : List Nat) (bad : Fin 3) (s : State) : Host.Outcome State Fault Refusal :=
done (s.stageLate failing bad.val)

/-- TRIM_CHANGE (R460). A write of PWR.CTL.TRIM moves between P0 and P1. -/
def execTrimChange (who : Fin 4) (v : Word) (s : State) : Host.Outcome State Fault Refusal :=
done (s.writeTo who 0xF00000 (fun s => s.trimChange v))

/-- TRIM_CHANGE_DONE (R460). The trim transition completes, or falls back with source 609. -/
def execTrimChangeDone (s : State) : Host.Outcome State Fault Refusal :=
done s.trimDone

/-- AVS_STATUS_POLL (R469). Every 20 us a Status read checks whether the regulator reached its voltage, until timeout.
-/
def execAvsStatusPoll (r : Fin 3) (mv : BitVec 16) (bad : Fin 3) (s : State) : Host.Outcome State Fault Refusal
    :=
done (s.avsPoll r.val mv.toNat bad.val)

end Sys2Proof.Machine
end

