-- ==== Sys2Proof/Machine/ProgramCmds.lean ====
section
/-! DEFINITION. Threads, fences and program loads (R45, R52 - R56). -/

namespace Sys2Proof.Machine

/-- THREAD_RESUME (R52). A write of RESUME to YCU.THR_CTL returns a halted thread to IDLE, discarding its state. -/
def execThreadResume (who : Fin 4) (u : Fin 64) (v : Word) (s : State) : Host.Outcome State Fault Refusal :=
done (s.writeTo who (0x802100 + 4 * u.val) (fun s => s.threadResume u.val (v.toNat % 256)))

/-- FENCE_LIFT (R45). A write of 1 to a YCU.CL_FENCE bit lifts the fence unless a source of the cluster is
unacknowledged. -/
def execFenceLift (who : Fin 4) (v : Word) (s : State) : Host.Outcome State Fault Refusal :=
done (s.writeTo who 0x800020 (fun s => s.clFenceWrite v))

/-- PROGRAM_LOAD_ROLL (R53). GO with MODE ROLL checks the image and loads target units in four rounds. -/
def execProgramLoadRoll (who : Fin 4) (v : Word) (s : State) : Host.Outcome State Fault Refusal :=
done (s.writeTo who 0x800104 (fun s => s.loadCtlWrite (withFld (withFld v F.YCU_LOAD_CTL_MODE 0)
    F.YCU_LOAD_CTL_GO 1)))

/-- PROGRAM_LOAD_BARRIER (R54). GO with MODE BARRIER checks the image and loads all target units together. -/
def execProgramLoadBarrier (who : Fin 4) (v : Word) (s : State) : Host.Outcome State Fault Refusal :=
done (s.writeTo who 0x800104 (fun s => s.loadCtlWrite (withFld (withFld v F.YCU_LOAD_CTL_MODE 1)
    F.YCU_LOAD_CTL_GO 1)))

/-- LOAD_UNIT_DRAINED (R53). A target unit's last old-image task ends, and the copy step begins. -/
def execLoadUnitDrained (u : Fin 64) (s : State) : Host.Outcome State Fault Refusal :=
done (s.loadStep (fun s => s.loadUnitDrained u.val))

/-- LOAD_DRAIN_TIMEOUT (R56). The drain timeout expires and the unit is skipped, keeping its old image. -/
def execLoadDrainTimeout (s : State) : Host.Outcome State Fault Refusal :=
done (s.loadStep (fun s => s.loadDrainTimeout))

/-- LOAD_COPY_DONE (R53). A unit's or sequencer's copy completes; GEN is updated and tasks or the sequencer restart on
the new image. -/
def execLoadCopyDone (x : Fin 68) (k : Check) (s : State) : Host.Outcome State Fault Refusal :=
done (s.loadStep (fun s => s.loadCopyDone x.val k))

end Sys2Proof.Machine
end

