-- ==== Sys2Proof/Machine/RadioCmds.lean ====
section
/-! DEFINITION. The radios: channels, steering, radar, and what their analog parts report (R218 - R235). -/

namespace Sys2Proof.Machine

/-- STEER_COPY (R218). GO in RFn.STEER_COPY copies one steering entry to another. -/
def execSteerCopy (who : Fin 4) (n : Fin 3) (v : Word) (s : State) : Host.Outcome State Fault Refusal :=
done (s.writeTo who (0x300014 + 0x40000 * n.val) (fun s => s.steerWrite n.val (withFld v (F.RF_STEER_COPY_GO
    n.val) 1)))

/-- CHAN_WRITE (R220). A write of RFn.CHAN is accepted while the MAC is disabled and valid, else ignored with source
161 + 32n. -/
def execChanWrite (who : Fin 4) (n : Fin 3) (v : Word) (s : State) : Host.Outcome State Fault Refusal :=
done (s.writeTo who (0x300000 + 0x40000 * n.val) (fun s => s.chanWrite n.val v))

/-- CHANNEL_SWITCH (R221). GO in RFn.CSW_CTL starts a channel switch with announcements. -/
def execChannelSwitch (who : Fin 4) (n : Fin 3) (v : Word) (s : State) : Host.Outcome State Fault Refusal :=
done (s.writeTo who (0x300008 + 0x40000 * n.val) (fun s => s.cswWrite n.val (withFld v (F.RF_CSW_CTL_GO n.val)
    1)))

/-- CHANNEL_RETUNE_DONE (R221). The retune completes, CHAN takes the new values and GO clears. -/
def execChannelRetuneDone (n : Fin 3) (s : State) : Host.Outcome State Fault Refusal :=
done (s.retuneDone n.val)

/-- RADAR_BURST (R228). The radar detector records a pulse burst as an event and raises source 198. -/
def execRadarBurst (subch pulses width rssi : Nat) (chirp : Bool) (t : Nat) (s : State) : Host.Outcome State
    Fault Refusal :=
done (if s.radioHears 1 then s.radarBurst ⟨subch, pulses, width, rssi, chirp, t⟩ else s)

/-- PLL_UNLOCK (R230). A synthesiser loses lock, raising source 160 + 32n and undoing husks. -/
def execPllUnlock (n : Fin 4) (s : State) : Host.Outcome State Fault Refusal :=
done (if s.radioPowered n.val then s.pllUnlock n.val else s)

/-- PLL_RELOCK (R230). A radio synthesiser regains lock and RF_STAT.LOCK returns to 1. -/
def execPllRelock (n : Fin 4) (s : State) : Host.Outcome State Fault Refusal :=
done (if s.radioPowered n.val then s.pllRelock n.val else s)

/-- ANTENNA_FAULT (R235). Reflected power beyond limit disables a transmit chain or the Pip transmitter and raises
source 163 + 32n or 259. -/
def execAntennaFault (n : Fin 4) (chain : Fin 4) (s : State) : Host.Outcome State Fault Refusal :=
done (if s.radioPowered n.val then s.antennaFault n.val chain.val else s)

/-- RF_POWER_LIMIT (R235). Temperature or reflected power limits a chain's transmit power, setting RF_STAT.LIMIT and
raising source 162 + 32n or 258. -/
def execRfPowerLimit (n : Fin 4) (chain : Fin 4) (on : Bool) (s : State) : Host.Outcome State Fault Refusal :=
done (if s.radioPowered n.val then s.rfPowerLimit n.val chain.val on else s)

end Sys2Proof.Machine
end

