-- ==== Sys2Proof/Machine/RegisterCmds.lean ====
section
/-! DEFINITION. Commands of the control window: plain register writes and reads, and a mode request (R3 - R9, R21,
R541). -/

namespace Sys2Proof.Machine

/-- REGISTER_WRITE (R4). A write to a register that has no row of its own sets its rw, w1c, w1s, wo or rwl fields
under the access codes. -/
def execRegisterWrite (who : Fin 4) (addr : BitVec 26) (en : BitVec 4) (v : Word) (x : Ext) (s : State) :
    Host.Outcome State Fault Refusal :=
done (s.writeWord who.val addr.toNat en v x)

/-- RC_READ (R6). A read of an rc register returns its value and clears it, unless the requester's TOP.PEEK.EN is 1.
-/
def execRcRead (who : Fin 4) (addr : BitVec 26) (en : BitVec 4) (s : State) : Host.Outcome State Fault Refusal
    :=
done (s.readWord who.val addr.toNat en)

/-- WIDE_READ_CAPTURE (R8). A read of the lowest word of a wide register captures the whole value into that
requester's capture. -/
def execWideReadCapture (who : Fin 4) (addr : BitVec 26) (s : State) : Host.Outcome State Fault Refusal :=
done (s.readWord who.val addr.toNat 0xF)

/-- WIDE_WRITE_COMMIT (R8). A write of the highest word of a wide register applies it together with that requester's
staged lower words. -/
def execWideWriteCommit (who : Fin 4) (addr : BitVec 26) (v : Word) (x : Ext) (s : State) : Host.Outcome State
    Fault Refusal :=
done (s.writeWord who.val addr.toNat 0xF v x)

/-- TRIM_WINDOW_WRITE (R9). A firmware write to a calibration trim window is ignored and counted. -/
def execTrimWindowWrite (who : Fin 4) (s : State) : Host.Outcome State Fault Refusal :=
done (s.trimWindowWrite who.val)

/-- ACCESS_NO_REGISTER (R541). An access that finds no register reads 0, ignores its write, counts in TOP.BADACC and
raises source 638. -/
def execAccessNoRegister (who : Fin 4) (addr : BitVec 26) (write cross : Bool) (s : State) : Host.Outcome State
    Fault Refusal :=
done (s.wildAccess who.val addr.toNat write cross)

/-- EGTS_POP (R133). A read of the low word of TIME.EGTS pops the oldest egress timestamp entry and captures it. -/
def execEgtsPop (who : Fin 4) (c : Fin 2) (s : State) : Host.Outcome State Fault Refusal :=
done (s.readWord who.val (0x10200 + 16 * c.val) 0xF)

/-- DET_EVT_POP (R234). A read of the low word of RFB.DET_EVT pops the oldest radar event and captures it. -/
def execDetEvtPop (who : Fin 4) (s : State) : Host.Outcome State Fault Refusal :=
done (s.readWord who.val 0x340108 0xF)

/-- MODE_REQUEST (R21). A write of GO to TOP.MODE_REQ files TARGET, which is refused, completed at once, started or
placed in the pending slot. -/
def execModeRequest (who : Fin 4) (v : Word) (s : State) : Host.Outcome State Fault Refusal :=
done (s.writeTo who 0x24 (fun s => s.modeRequest (withFld v F.TOP_MODE_REQ_GO 1)))

end Sys2Proof.Machine
end

