-- ==== Sys2Proof/Machine/ResetCmds.lean ====
section
/-! DEFINITION. Resets, the boot sequence and temperature (R497 - R501, R515, R526, R537). -/

namespace Sys2Proof.Machine

/-- POWER_ON_RESET (R497). Supplies reach level, or an always-on rail leaves its range, and TBM restarts at 0. -/
def execPowerOnReset (s : State) : Host.Outcome State Fault Refusal :=
done s.powerOn

/-- RESET_PIN (R498). RESET_N held low for 1 us warm-resets the package. -/
def execResetPin (s : State) : Host.Outcome State Fault Refusal :=
done (s.warm 1)

/-- WARM_RESET (R498). SEC.RST with key 0x5A and WARM resets the package. -/
def execWarmReset (who : Fin 4) (v : Word) (s : State) : Host.Outcome State Fault Refusal :=
done (s.writeTo who 0x1200500 (fun s => s.rstWrite who.val (withFld (withFld v F.SEC_RST_KEY 0x5A)
    F.SEC_RST_WARM 1)))

/-- RADIO_DIE_HOLD (R499). RDIE_HOLD 1 holds the radio die in reset. -/
def execRadioDieHold (who : Fin 4) (v : Word) (s : State) : Host.Outcome State Fault Refusal :=
done (s.writeTo who 0x1200500 (fun s => s.rstWrite who.val (withFld (withFld v F.SEC_RST_WARM 0)
    F.SEC_RST_RDIE_HOLD 1)))

/-- RADIO_DIE_RELEASE (R499). RDIE_HOLD 0 releases the radio die. -/
def execRadioDieRelease (who : Fin 4) (v : Word) (s : State) : Host.Outcome State Fault Refusal :=
done (s.writeTo who 0x1200500 (fun s => s.rstWrite who.val (withFld (withFld v F.SEC_RST_WARM 0)
    F.SEC_RST_RDIE_HOLD 0)))

/-- SUPPLY_PG_LOSS (R526). SUP_PG low for 10 us outside a regulator stage warm-resets the package. -/
def execSupplyPgLoss (s : State) : Host.Outcome State Fault Refusal :=
done s.supplyLoss

/-- BOOT_GLITCH (R516). A supply or clock glitch resets in steps 1-6, or raises source 620 after step 7. -/
def execBootGlitch (s : State) : Host.Outcome State Fault Refusal :=
done s.bootGlitch

/-- BOOT_STEP_COMPLETE (R500). A Sprout boot step completes and the next begins, or the boot ends in Service. -/
def execBootStepComplete (avs boot fuses : Bool) (rdA rdB : Fin 3) (bad : Fin 3) (s : State) : Host.Outcome
    State Fault Refusal :=
done (s.bootStep avs boot fuses rdA.val rdB.val bad.val)

/-- WATCHDOG_ENABLE (R515). SEC.WDT.EN starts the watchdog. -/
def execWatchdogEnable (who : Fin 4) (v : Word) (s : State) : Host.Outcome State Fault Refusal :=
done (s.writeTo who 0x1200508 (fun s => s.wdtWrite (withFld v F.SEC_WDT_EN 1)))

/-- WATCHDOG_KICK (R515). A write to SEC.WDT_KICK restarts the count. -/
def execWatchdogKick (who : Fin 4) (v : Word) (s : State) : Host.Outcome State Fault Refusal :=
done (s.writeTo who 0x120050C (fun s => s.wdtKick))

/-- WATCHDOG_MS_WRITE (R515). A write of MS while running applies at once to the running count. -/
def execWatchdogMsWrite (who : Fin 4) (v : Word) (s : State) : Host.Outcome State Fault Refusal :=
done (s.writeTo who 0x1200508 (fun s => s.wdtWrite v))

/-- WATCHDOG_EXPIRY (R515). MS ms pass without a kick and the package resets with cause 5. -/
def execWatchdogExpiry (s : State) : Host.Outcome State Fault Refusal :=
done s.wdtExpiry

/-- TEMP_CONVERSION (R537). A junction temperature conversion updates TOP.TEMP and may raise source 636. -/
def execTempConversion (t : BitVec 16) (s : State) : Host.Outcome State Fault Refusal :=
done (s.tempConversion t)

/-- THERMAL_TRIP_SAMPLE (R537). Every 10 us the trip comparator samples; 1 ms at 125 C raises source 637. -/
def execThermalTripSample (t : BitVec 16) (bad : Fin 3) (s : State) : Host.Outcome State Fault Refusal :=
done (s.tripSample t bad.val)

end Sys2Proof.Machine
end

