-- ==== Sys2Proof/Machine/ScheduleCmds.lean ====
section
/-! DEFINITION. The air scheduler's tables and clocks (R136 - R160). -/

namespace Sys2Proof.Machine

/-- CYCLE_BOUNDARY (R136). A sequencer's schedule cycle rolls over, resetting window and station counts. -/
def execCycleBoundary (n : Fin 4) (s : State) : Host.Outcome State Fault Refusal :=
done (s.whenOn (seqDomain n.val) (fun s => s.cycleBoundary n.val))

/-- STA_UPDATE (R141). GO in SQA.STA_UPD installs a staged station schedule entry whole. -/
def execStaUpdate (who : Fin 4) (v : Word) (s : State) : Host.Outcome State Fault Refusal :=
done (s.writeTo who 0x108040 (fun s => s.staUpdWrite (withFld v F.SQA_STA_UPD_GO 1)))

/-- BIN_UPDATE (R152). GO in SQA.BIN_UPD writes the staged value to one bin. -/
def execBinUpdate (who : Fin 4) (v : Word) (s : State) : Host.Outcome State Fault Refusal :=
done (s.writeTo who 0x108050 (fun s => s.binUpdWrite (withFld (withFld (withFld v F.SQA_BIN_UPD_GO 1)
    F.SQA_BIN_UPD_ALL 0) F.SQA_BIN_UPD_AGE 0)))

/-- BIN_UPDATE_ALL (R152). GO with ALL writes the staged value to all 64 bins of a link. -/
def execBinUpdateAll (who : Fin 4) (v : Word) (s : State) : Host.Outcome State Fault Refusal :=
done (s.writeTo who 0x108050 (fun s => s.binUpdWrite (withFld (withFld (withFld v F.SQA_BIN_UPD_GO 1)
    F.SQA_BIN_UPD_ALL 1) F.SQA_BIN_UPD_AGE 0)))

/-- BIN_AGE (R152). GO with AGE sets AGED in all 64 bins of a link. -/
def execBinAge (who : Fin 4) (v : Word) (s : State) : Host.Outcome State Fault Refusal :=
done (s.writeTo who 0x108050 (fun s => s.binUpdWrite (withFld (withFld v F.SQA_BIN_UPD_GO 1) F.SQA_BIN_UPD_AGE
    1)))

/-- EPOCH_ADVANCE (R155). SQA.EPOCH advances every AGE_PERIOD and the sweep marks stale bins aged. -/
def execEpochAdvance (s : State) : Host.Outcome State Fault Refusal :=
done (s.whenOn 11 (fun s => s.epochAdvance))

/-- TWT_SP_END (R160). A TWT service period ends, TWT_NEXT advances, and a missed period is counted. -/
def execTwtSpEnd (st : BitVec 11) (s : State) : Host.Outcome State Fault Refusal :=
done (s.whenOn 11 (fun s => s.twtSpEnd st.toNat))

end Sys2Proof.Machine
end

