-- ==== Sys2Proof/Machine/SecurityCmds.lean ====
section
/-! DEFINITION. Images, fuses, lifecycle, measurements, quotes and the debug port (R501 - R514). -/

namespace Sys2Proof.Machine

/-- HOST_IMAGE_LOAD (R501). SEC.HLOAD_CTL.GO closes the aperture and checks the host image. -/
def execHostImageLoad (who : Fin 4) (v : Word) (s : State) : Host.Outcome State Fault Refusal :=
done (s.writeTo who 0x1200024 (fun s => s.hloadWrite who.val (withFld v F.SEC_HLOAD_CTL_GO 1)))

/-- IMAGE_VERIFY (R505). SEC.VER_CTL GO verifies a Hull image in GM. -/
def execImageVerify (who : Fin 4) (v : Word) (s : State) : Host.Outcome State Fault Refusal :=
done (s.writeTo who 0x1200084 (fun s => s.verCtlWrite who.val (withFld v (F.SEC_VER_CTL_GO who.val) 1)))

/-- IMAGE_VERIFY_DONE (R505). The verifier reports RESULT. -/
def execImageVerifyDone (s : State) : Host.Outcome State Fault Refusal :=
done (s.whenOn 1 (fun s => s.verifyDone))

/-- ARB_BURN (R507). SEC.ARB GO starts burning anti-rollback fuses, or is refused. -/
def execArbBurn (who : Fin 4) (v : Word) (s : State) : Host.Outcome State Fault Refusal :=
done (s.writeTo who 0x1200074 (fun s => s.arbWrite (withFld v F.SEC_ARB_GO 1)))

/-- ARB_FUSE_BURNED (R507). One anti-rollback fuse is burned. -/
def execArbFuseBurned (s : State) : Host.Outcome State Fault Refusal :=
done (s.whenOn 1 (fun s => s.arbBurned))

/-- LIFECYCLE_ADVANCE (R509). SEC.LC_CTL GO burns a forward lifecycle state, or is refused. -/
def execLifecycleAdvance (who : Fin 4) (v : Word) (s : State) : Host.Outcome State Fault Refusal :=
done (s.writeTo who 0x1200008 (fun s => s.lcCtlWrite (withFld v F.SEC_LC_CTL_GO 1)))

/-- FUSE_PROGRAM_KEYHASH (R506). FUSE_CTL GO with TARGET 0-3 programs a key-hash slot. -/
def execFuseProgramKeyhash (who : Fin 4) (slot : Fin 4) (v : Word) (s : State) : Host.Outcome State Fault
    Refusal :=
done (s.writeTo who 0x1200070 (fun s => s.fuseCtlWrite (withFld (withFld v F.SEC_FUSE_CTL_GO 1)
    F.SEC_FUSE_CTL_TARGET slot.val)))

/-- FUSE_PROGRAM_DEBUGKEY (R506). FUSE_CTL GO with TARGET 4 programs the debug-key slot. -/
def execFuseProgramDebugkey (who : Fin 4) (v : Word) (s : State) : Host.Outcome State Fault Refusal :=
done (s.writeTo who 0x1200070 (fun s => s.fuseCtlWrite (withFld (withFld v F.SEC_FUSE_CTL_GO 1)
    F.SEC_FUSE_CTL_TARGET 4)))

/-- FUSE_REVOKE (R509). FUSE_CTL GO with TARGET 5 revokes a key-hash slot. -/
def execFuseRevoke (who : Fin 4) (v : Word) (s : State) : Host.Outcome State Fault Refusal :=
done (s.writeTo who 0x1200070 (fun s => s.fuseCtlWrite (withFld (withFld v F.SEC_FUSE_CTL_GO 1)
    F.SEC_FUSE_CTL_TARGET 5)))

/-- SEC_LOCK (R510). A write of 1 to SEC.LOCK freezes every rwl field. -/
def execSecLock (who : Fin 4) (v : Word) (s : State) : Host.Outcome State Fault Refusal :=
done (s.writeTo who 0x120000C (fun s => s.lockWrite (withFld v F.SEC_LOCK_LOCK 1)))

/-- MEAS_EXTEND (R512). SEC.MEAS_CTL GO extends MEAS2-MEAS7. -/
def execMeasExtend (who : Fin 4) (v : Word) (s : State) : Host.Outcome State Fault Refusal :=
done (s.writeTo who 0x1200130 (fun s => s.measCtlWrite (withFld v F.SEC_MEAS_CTL_GO 1)))

/-- QUOTE_REQUEST (R513). SEC.QUOTE_CTL GO starts a signed quote. -/
def execQuoteRequest (who : Fin 4) (v : Word) (s : State) : Host.Outcome State Fault Refusal :=
done (s.writeTo who 0x1200334 (fun s => s.quoteCtlWrite who.val (withFld v (F.SEC_QUOTE_CTL_GO who.val) 1)))

/-- QUOTE_DONE (R513). The quote is written to GM and STATUS reports. -/
def execQuoteDone (s : State) : Host.Outcome State Fault Refusal :=
done (s.whenOn 1 (fun s => s.quoteDone))

/-- DEBUG_CHALLENGE_REQUEST (R514). DBG_CTL REQ draws a fresh challenge. -/
def execDebugChallengeRequest (who : Fin 4) (v : Word) (bad : Fin 3) (s : State) : Host.Outcome State Fault
    Refusal :=
done (s.writeTo who 0x12004E8 (fun s => s.dbgCtlWrite (withFld v F.SEC_DBG_CTL_REQ 1) bad.val))

/-- DEBUG_SUBMIT (R514). DBG_CTL SUBMIT checks the response and opens the debug port or counts a failure. -/
def execDebugSubmit (who : Fin 4) (v : Word) (bad : Fin 3) (s : State) : Host.Outcome State Fault Refusal :=
done (s.writeTo who 0x12004E8 (fun s => s.dbgCtlWrite (withFld v F.SEC_DBG_CTL_SUBMIT 1) bad.val))

end Sys2Proof.Machine
end

