-- ==== Sys2Proof/Machine/SequencerCmds.lean ====
section
/-! DEFINITION. Instructions of the sequencers, their waits, and enabling them (R88 - R99, R157, R158, R165, R267). -/

namespace Sys2Proof.Machine

/-- WAITPH (R88). Waits for a predicted phase of a domain and returns on phase, late, unlocked or uncertain. -/
def execWaitph (iss : Issue) (sd sa sb : BitVec 5) (d : Fin 4) (s : State) : Host.Outcome State Fault Refusal :=
done (s.waitph iss sd sa sb d)

/-- WAITPH_WAKE (R88). TBM reaches the re-predicted instant of a waiting WAITPH, which returns its status. -/
def execWaitphWake (n : Fin 4) (s : State) : Host.Outcome State Fault Refusal :=
done (s.waitphWake n.val)

/-- WAITT (R89). Waits for a time base to reach a value. -/
def execWaitt (iss : Issue) (sd sa : BitVec 5) (base : Fin 5) (s : State) : Host.Outcome State Fault Refusal :=
done (s.waitt iss sd sa base)

/-- WAITT_WAKE (R89). The time base reaches the target of a waiting WAITT, or is reset, and WAITT returns. -/
def execWaittWake (n : Fin 4) (s : State) : Host.Outcome State Fault Refusal :=
done (s.waittWake n.val)

/-- BIN (R90). Records the phase bin that the next BUILD uses for a station link. -/
def execBin (iss : Issue) (sd sa sb : BitVec 5) (s : State) : Host.Outcome State Fault Refusal :=
done (s.binSelect iss sd sa sb)

/-- PICK (R91). Chooses up to K eligible, granted stations from an SD list as the new window set. -/
def execPick (iss : Issue) (sd sa : BitVec 5) (limit : BitVec 10) (policy : BitVec 2) (bad : List Nat) (s :
    State) : Host.Outcome State Fault Refusal :=
done (s.pick iss sd sa limit policy bad)

/-- BUILD_SU (R92). BUILD of kind 0 starts single-user husk assembly from the first station of the window set. -/
def execBuildSu (iss : Issue) (sd sa : BitVec 5) (slot : Fin 2) (fits : List Fit) (gcm : Bool) (k : List Check)
    (s : State) : Host.Outcome State Fault Refusal :=
done (s.build iss sd sa slot 0 fits gcm k)

/-- BUILD_MU (R157). BUILD of kind 1 starts downlink multi-user assembly, allocating RUs to up to 32 users. -/
def execBuildMu (iss : Issue) (sd sa : BitVec 5) (slot : Fin 2) (fits : List Fit) (gcm : Bool) (k : List Check)
    (s : State) : Host.Outcome State Fault Refusal :=
done (s.build iss sd sa slot 1 fits gcm k)

/-- BUILD_TRIGGER (R158). BUILD of kind 2 starts a trigger-only husk with uplink RU allocation. -/
def execBuildTrigger (iss : Issue) (sd sa : BitVec 5) (slot : Fin 2) (fits : List Fit) (gcm : Bool) (k : List
    Check) (s : State) : Host.Outcome State Fault Refusal :=
done (s.build iss sd sa slot 2 fits gcm k)

/-- BUILD_PIP (R267). BUILD of kind 3 on SQP starts a Pip husk for the first node of the window set. -/
def execBuildPip (iss : Issue) (sd sa : BitVec 5) (slot : Fin 2) (s : State) : Host.Outcome State Fault Refusal
    :=
done (s.buildPip iss sd sa slot)

/-- TRIG (R93). Adds a trigger frame to the husk in a slot. -/
def execTrig (iss : Issue) (sd sa sb : BitVec 5) (slot : Fin 2) (s : State) : Host.Outcome State Fault Refusal
    :=
done (s.trig iss sd sa sb slot)

/-- LAUNCH (R94). Names a half-open commit window for a husk and holds the sequencer until commit or undo. -/
def execLaunch (iss : Issue) (sd sa sb : BitVec 5) (slot : Fin 2) (kind : Fin 8) (s : State) : Host.Outcome
    State Fault Refusal :=
done (s.launch iss sd sa sb slot kind)

/-- UNDO (R95). Undoes an uncommitted husk with PROGRAM, or returns the stored outcome of an empty slot. -/
def execUndo (iss : Issue) (sd : BitVec 5) (slot : Fin 2) (s : State) : Host.Outcome State Fault Refusal :=
done (s.undoInstr iss sd slot)

/-- SKIP (R96). Releases the window set to the grant arbiter without building. -/
def execSkip (iss : Issue) (sd : BitVec 5) (s : State) : Host.Outcome State Fault Refusal :=
done (s.skip iss sd)

/-- BEACON (R97). Arms the beacon of a BSSID, or the Pip beacon, for its next target beacon time. -/
def execBeacon (iss : Issue) (sd sa : BitVec 5) (s : State) : Host.Outcome State Fault Refusal :=
done (s.beaconInstr iss sd sa)

/-- GAIN (R98). Sets the Pip receive gain step. -/
def execGain (iss : Issue) (sd sa : BitVec 5) (step : Fin 8) (fromReg : Bool) (s : State) : Host.Outcome State
    Fault Refusal :=
done (s.gainInstr iss sd sa step fromReg)

/-- LISTEN (R99). Opens a Pip receive window and holds SQP until it ends. -/
def execListen (iss : Issue) (sd sa sb : BitVec 5) (rate rep : Fin 4) (s : State) : Host.Outcome State Fault
    Refusal :=
done (s.listenInstr iss sd sa sb rate rep)

/-- LISTEN_WINDOW_END (R99). A LISTEN window ends with no frame, or a frame inside it has been fully received, and
LISTEN returns. -/
def execListenWindowEnd (s : State) : Host.Outcome State Fault Refusal :=
done s.listenWindowEnd

/-- SEQ_ENABLE (R165). A write of EN = 1 runs a sequencer from code byte 0, unless refused. -/
def execSeqEnable (who n : Fin 4) (v : Word) (s : State) : Host.Outcome State Fault Refusal :=
done (s.writeTo who (0x100000 + 0x10000 * n.val) (fun s => s.seqCtlWrite n.val (withFld v (F.SQ_CTL_EN n.val)
    1)))

/-- SEQ_DISABLE (R165). A write of EN = 0 halts a sequencer at its next instruction boundary under R47. -/
def execSeqDisable (who n : Fin 4) (v : Word) (s : State) : Host.Outcome State Fault Refusal :=
done (s.writeTo who (0x100000 + 0x10000 * n.val) (fun s => s.seqCtlWrite n.val (withFld v (F.SQ_CTL_EN n.val)
    0)))

end Sys2Proof.Machine
end

