-- ==== Sys2Proof/Machine/TaskCmds.lean ====
section
/-! DEFINITION. Tasks from creation to release (R315 - R330). -/

namespace Sys2Proof.Machine

/-- TASK_DISPATCH (R319). A ready, dispatchable task goes to an idle thread and starts with the state of R30. -/
def execTaskDispatch (c : Fin 16) (pick : Nat) (w : Check) (s : State) : Host.Outcome State Fault Refusal :=
done (s.dispatch c.val pick w)

/-- ORDERED_RELEASE (R322). A place whose earlier places of its tag are released is released, passing its packet to
egress. -/
def execOrderedRelease (c : Fin 16) (k : Check) (s : State) : Host.Outcome State Fault Refusal :=
done (s.whenOn (clusterDomain c.val) (fun s => s.orderedRelease c.val k))

/-- CLMAP_WRITE (R318). A write of HTS.CLMAP is held pending. -/
def execClmapWrite (who : Fin 4) (j : Fin 16) (v : Word) (s : State) : Host.Outcome State Fault Refusal :=
done (s.writeTo who (0x700020 + 4 * j.val) (fun s => s.clmapWrite j.val v.toNat))

/-- CLMAP_APPLY (R318). With no place and no lock held, a pending CLMAP write applies. -/
def execClmapApply (s : State) : Host.Outcome State Fault Refusal :=
done (s.whenOn 5 (fun s => s.clmapApply))

/-- TASK_INJECT (R327). GO in HTS.INJ_CTL creates a task from the staged flow word, or refuses it. -/
def execTaskInject (who : Fin 4) (v : Word) (s : State) : Host.Outcome State Fault Refusal :=
done (s.writeTo who 0x700150 (fun s => s.injWrite who.val (withFld v (F.HTS_INJ_CTL_GO who.val) 1)))

/-- REGION_FLUSH (R329). A bit written in HTS.FLUSH frees the region's undispatched tasks. -/
def execRegionFlush (who : Fin 4) (v : Word) (s : State) : Host.Outcome State Fault Refusal :=
done (s.writeTo who 0x700130 (fun s => s.flush (v.toNat % 16)))

/-- STARVE_TIMEOUT (R321). A ready task waits STARVE us undispatched and raises source 354 + 4r. -/
def execStarveTimeout (id : Nat) (s : State) : Host.Outcome State Fault Refusal :=
done (s.whenOn 5 (fun s => s.starve id))

/-- EG_BP_WRITE (R325). A write of HTS.EG_BP is compared with the egress level in the next clock. -/
def execEgBpWrite (who : Fin 4) (k : Fin 6) (v : Word) (s : State) : Host.Outcome State Fault Refusal :=
done (s.writeTo who (0x700060 + 4 * k.val) (fun s => s.egBpWrite k.val v))

end Sys2Proof.Machine
end

