-- ==== Sys2Proof/Machine/WifiCmds.lean ====
section
/-! DEFINITION. Wi-Fi reception, beacons, links and backhaul (R189 - R231). -/

namespace Sys2Proof.Machine

/-- MPDU_RECEIVE (R190). An MPDU with valid FCS updates the scoreboard, is acknowledged and is sent to the cipher. -/
def execMpduReceive (f : AirFrame) (k : Check) (m : RxMem) (room low : Bool) (s : State) : Host.Outcome State
    Fault Refusal :=
done (s.mpduReceive f k m.sb m.lk m.ro room low)

/-- BAR_RECEIVE (R192). A BlockAckReq moves the receive window without setting a bit. -/
def execBarReceive (n : Fin 3) (st : BitVec 11) (tid : Fin 8) (start : BitVec 12) (s : State) : Host.Outcome
    State Fault Refusal :=
done (if s.radioHears n.val then s.barReceive st.toNat tid.val start.toNat else s)

/-- RX_HOLD_TIMEOUT (R193). TBM reaches HOLD_T + RX_HOLD: the hole is skipped and release continues. -/
def execRxHoldTimeout (st : BitVec 11) (tid : Fin 8) (s : State) : Host.Outcome State Fault Refusal :=
done (s.whenOn 11 (fun s => s.rxHoldTimeout st.toNat tid.val))

/-- SB_OPEN (R189). SB_UPD GO with CLOSE 0 opens a block-ack agreement on a scoreboard entry. -/
def execSbOpen (who : Fin 4) (v : Word) (s : State) : Host.Outcome State Fault Refusal :=
done (s.writeTo who 0x1080A8 (fun s => s.sbUpdWrite (withFld (withFld v F.SQA_SB_UPD_GO 1) F.SQA_SB_UPD_CLOSE
    0)))

/-- SB_CLOSE (R189). SB_UPD GO with CLOSE 1 releases held frames and returns the entry to WSIZE 1. -/
def execSbClose (who : Fin 4) (v : Word) (s : State) : Host.Outcome State Fault Refusal :=
done (s.writeTo who 0x1080A8 (fun s => s.sbUpdWrite (withFld (withFld v F.SQA_SB_UPD_GO 1) F.SQA_SB_UPD_CLOSE
    1)))

/-- LINK_UPDATE (R202). GO in MXn.LINK_UPD installs a staged link record, or refuses it and sets ERR. -/
def execLinkUpdate (who : Fin 4) (n : Fin 3) (v : Word) (s : State) : Host.Outcome State Fault Refusal :=
done (s.writeTo who (0x200440 + 0x40000 * n.val) (fun s => s.linkUpdWrite n.val (withFld v (F.MX_LINK_UPD_GO
    n.val) 1)))

/-- WIFI_TBTT (R212). A BSSID's target beacon time arrives and the MAC contends for the armed beacon. -/
def execWifiTbtt (n : Fin 3) (b : Fin 16) (s : State) : Host.Outcome State Fault Refusal :=
done (s.wifiTbtt n.val b.val)

/-- WIFI_BEACON_COMMIT (R214). An armed beacon wins the medium, its timestamp is filled and it is sent. -/
def execWifiBeaconCommit (n : Fin 3) (b : Fin 16) (s : State) : Host.Outcome State Fault Refusal :=
done (s.wifiBeaconCommit n.val b.val)

/-- BEACON_WINDOW_END (R213). A beacon window ends unsent, counting a failure and possibly starvation. -/
def execBeaconWindowEnd (n : Fin 3) (b : Fin 16) (s : State) : Host.Outcome State Fault Refusal :=
done (s.beaconWindowEnd n.val b.val)

/-- FCS_FAIL_RECEIVE (R231). A received Wi-Fi PPDU or MPDU fails its FCS and is counted in MXn.RXCNT.FCSERR. -/
def execFcsFailReceive (n : Fin 3) (s : State) : Host.Outcome State Fault Refusal :=
done (s.fcsFail n.val)

/-- QOS_NULL_EOSP (R205). The MAC wins a TXOP and sends its own QoS Null with EOSP, and SP clears. -/
def execQosNullEosp (n : Fin 3) (st : BitVec 11) (s : State) : Host.Outcome State Fault Refusal :=
done (s.qosNullEosp n.val st.toNat)

/-- SOUNDING_FEEDBACK (R218). Beamforming feedback decodes and is written to the steering entry and bin. -/
def execSoundingFeedback (n : Fin 3) (st : BitVec 11) (pre : Option (List Byte)) (s : State) : Host.Outcome
    State Fault Refusal :=
done (s.soundingFeedback n.val st.toNat pre)

/-- PARENT_BEACON (R225). An accepted parent beacon steps the TSF, re-anchors and resets MISSED. -/
def execParentBeacon (t : Nat) (ts : BitVec 64) (s : State) : Host.Outcome State Fault Refusal :=
done (if s.radioHears (s.get F.MXA_BH_CFG_RADIO) then s.parentStep (fun s => s.parentBeacon t ts.toNat) else s)

/-- PARENT_WINDOW_END (R226). An expected parent-beacon window ends empty and MISSED advances. -/
def execParentWindowEnd (s : State) : Host.Outcome State Fault Refusal :=
done (s.whenOn 11 (fun s => s.parentStep (fun s => s.parentWindowEnd)))

/-- CANDIDATE_LISTEN_END (R227). The listen time for a candidate parent ends unheard and the next candidate is taken.
-/
def execCandidateListenEnd (s : State) : Host.Outcome State Fault Refusal :=
done (s.whenOn 11 (fun s => s.candidateListenEnd))

/-- CANDIDATE_BEACON (R227). During the parent search, a beacon from the current candidate's BSSID is heard and HEARD
sets. -/
def execCandidateBeacon (t : Nat) (s : State) : Host.Outcome State Fault Refusal :=
done (if s.radioHears (s.get F.MXA_BH_CFG_RADIO) then s.candidateBeacon t else s)

/-- MAC_ENABLE (R223). A write of MXn.CTL.EN = 1 enables the MAC and runs RF calibration, which may fail with source
165 + 32n and leave the radio muted. -/
def execMacEnable (who : Fin 4) (n : Fin 3) (v : Word) (ok : Bool) (s : State) : Host.Outcome State Fault
    Refusal :=
done (s.writeTo who (0x200000 + 0x40000 * n.val) (fun s => s.macCtlWrite n.val (withFld v (F.MX_CTL_EN n.val) 1)
    ok))

/-- MAC_DISABLE (R223). Clearing MXn.CTL.EN undoes husks and stops sending and receiving. -/
def execMacDisable (who : Fin 4) (n : Fin 3) (v : Word) (s : State) : Host.Outcome State Fault Refusal :=
done (s.writeTo who (0x200000 + 0x40000 * n.val) (fun s => s.macCtlWrite n.val (withFld v (F.MX_CTL_EN n.val) 0)
    true))

end Sys2Proof.Machine
end

