-- ==== Sys2Proof/Machine/YalvoArith.lean ====
section
/-! DEFINITION. Register arithmetic of Yalvo (R63, R64). -/

namespace Sys2Proof.Machine

/-- ADD (R63). gd := ga + gb. -/
def execAdd (iss : Issue) (gd ga gb : BitVec 5) (s : State) : Host.Outcome State Fault Refusal :=
done (s.aluRR iss gd ga gb (fun a b => a + b))

/-- SUB (R63). gd := ga - gb. -/
def execSub (iss : Issue) (gd ga gb : BitVec 5) (s : State) : Host.Outcome State Fault Refusal :=
done (s.aluRR iss gd ga gb (fun a b => a - b))

/-- AND (R63). gd := ga AND gb. -/
def execAnd (iss : Issue) (gd ga gb : BitVec 5) (s : State) : Host.Outcome State Fault Refusal :=
done (s.aluRR iss gd ga gb (fun a b => a &&& b))

/-- OR (R63). gd := ga OR gb. -/
def execOr (iss : Issue) (gd ga gb : BitVec 5) (s : State) : Host.Outcome State Fault Refusal :=
done (s.aluRR iss gd ga gb (fun a b => a ||| b))

/-- XOR (R63). gd := ga XOR gb. -/
def execXor (iss : Issue) (gd ga gb : BitVec 5) (s : State) : Host.Outcome State Fault Refusal :=
done (s.aluRR iss gd ga gb (fun a b => a ^^^ b))

/-- ANDN (R63). gd := ga AND NOT gb. -/
def execAndn (iss : Issue) (gd ga gb : BitVec 5) (s : State) : Host.Outcome State Fault Refusal :=
done (s.aluRR iss gd ga gb (fun a b => a &&& ~~~b))

/-- SLL (R63). gd := ga shifted left by gb[5:0]. -/
def execSll (iss : Issue) (gd ga gb : BitVec 5) (s : State) : Host.Outcome State Fault Refusal :=
done (s.aluRR iss gd ga gb (fun a b => a <<< (b.toNat % 64)))

/-- SRL (R63). gd := ga shifted right logically by gb[5:0]. -/
def execSrl (iss : Issue) (gd ga gb : BitVec 5) (s : State) : Host.Outcome State Fault Refusal :=
done (s.aluRR iss gd ga gb (fun a b => a >>> (b.toNat % 64)))

/-- SRA (R63). gd := ga shifted right arithmetically by gb[5:0]. -/
def execSra (iss : Issue) (gd ga gb : BitVec 5) (s : State) : Host.Outcome State Fault Refusal :=
done (s.aluRR iss gd ga gb (fun a b => a.sshiftRight (b.toNat % 64)))

/-- MUL (R63). gd := low 64 bits of ga times gb. -/
def execMul (iss : Issue) (gd ga gb : BitVec 5) (s : State) : Host.Outcome State Fault Refusal :=
done (s.aluRR iss gd ga gb (fun a b => a * b))

/-- MULHU (R63). gd := high 64 bits of the unsigned product. -/
def execMulhu (iss : Issue) (gd ga gb : BitVec 5) (s : State) : Host.Outcome State Fault Refusal :=
done (s.aluRR iss gd ga gb aluMulhu)

/-- DIVU (R63). Unsigned division, all ones on divide by zero. -/
def execDivu (iss : Issue) (gd ga gb : BitVec 5) (s : State) : Host.Outcome State Fault Refusal :=
done (s.aluRR iss gd ga gb aluDivu)

/-- REMU (R63). Unsigned remainder, ga on divide by zero. -/
def execRemu (iss : Issue) (gd ga gb : BitVec 5) (s : State) : Host.Outcome State Fault Refusal :=
done (s.aluRR iss gd ga gb aluRemu)

/-- DIV (R63). Signed division with the defined zero and overflow results. -/
def execDiv (iss : Issue) (gd ga gb : BitVec 5) (s : State) : Host.Outcome State Fault Refusal :=
done (s.aluRR iss gd ga gb aluDiv)

/-- REM (R63). Signed remainder with the sign of ga and the defined special results. -/
def execRem (iss : Issue) (gd ga gb : BitVec 5) (s : State) : Host.Outcome State Fault Refusal :=
done (s.aluRR iss gd ga gb aluRem)

/-- MIN (R63). Signed minimum of ga and gb. -/
def execMin (iss : Issue) (gd ga gb : BitVec 5) (s : State) : Host.Outcome State Fault Refusal :=
done (s.aluRR iss gd ga gb (fun a b => if a.slt b then a else b))

/-- MAX (R63). Signed maximum of ga and gb. -/
def execMax (iss : Issue) (gd ga gb : BitVec 5) (s : State) : Host.Outcome State Fault Refusal :=
done (s.aluRR iss gd ga gb (fun a b => if a.slt b then b else a))

/-- MINU (R63). Unsigned minimum of ga and gb. -/
def execMinu (iss : Issue) (gd ga gb : BitVec 5) (s : State) : Host.Outcome State Fault Refusal :=
done (s.aluRR iss gd ga gb (fun a b => if a.ult b then a else b))

/-- MAXU (R63). Unsigned maximum of ga and gb. -/
def execMaxu (iss : Issue) (gd ga gb : BitVec 5) (s : State) : Host.Outcome State Fault Refusal :=
done (s.aluRR iss gd ga gb (fun a b => if a.ult b then b else a))

/-- CEQ (R63). gd := 1 if ga equals gb, else 0. -/
def execCeq (iss : Issue) (gd ga gb : BitVec 5) (s : State) : Host.Outcome State Fault Refusal :=
done (s.aluRR iss gd ga gb (fun a b => flag (a == b)))

/-- CNE (R63). gd := 1 if ga differs from gb, else 0. -/
def execCne (iss : Issue) (gd ga gb : BitVec 5) (s : State) : Host.Outcome State Fault Refusal :=
done (s.aluRR iss gd ga gb (fun a b => flag (a != b)))

/-- CLT (R63). gd := 1 if ga < gb signed. -/
def execClt (iss : Issue) (gd ga gb : BitVec 5) (s : State) : Host.Outcome State Fault Refusal :=
done (s.aluRR iss gd ga gb (fun a b => flag (a.slt b)))

/-- CLTU (R63). gd := 1 if ga < gb unsigned. -/
def execCltu (iss : Issue) (gd ga gb : BitVec 5) (s : State) : Host.Outcome State Fault Refusal :=
done (s.aluRR iss gd ga gb (fun a b => flag (a.ult b)))

/-- CLZ (R63). Leading zero count of ga. -/
def execClz (iss : Issue) (gd ga : BitVec 5) (s : State) : Host.Outcome State Fault Refusal :=
done (s.aluR iss gd ga aluClz)

/-- CTZ (R63). Trailing zero count of ga. -/
def execCtz (iss : Issue) (gd ga : BitVec 5) (s : State) : Host.Outcome State Fault Refusal :=
done (s.aluR iss gd ga aluCtz)

/-- POPC (R63). Number of 1 bits in ga. -/
def execPopc (iss : Issue) (gd ga : BitVec 5) (s : State) : Host.Outcome State Fault Refusal :=
done (s.aluR iss gd ga aluPopc)

/-- BSWAP (R63). ga with its 8 bytes reversed. -/
def execBswap (iss : Issue) (gd ga : BitVec 5) (s : State) : Host.Outcome State Fault Refusal :=
done (s.aluR iss gd ga aluBswap)

/-- BSWAP32 (R63). Zero-extended ga[31:0] with its 4 bytes reversed. -/
def execBswap32 (iss : Issue) (gd ga : BitVec 5) (s : State) : Host.Outcome State Fault Refusal :=
done (s.aluR iss gd ga aluBswap32)

/-- CSUM (R63). 16-bit ones'-complement sum of the eight lanes of ga and gb. -/
def execCsum (iss : Issue) (gd ga gb : BitVec 5) (s : State) : Host.Outcome State Fault Refusal :=
done (s.aluRR iss gd ga gb aluCsum)

/-- ADDI (R64). gd := ga + sign-extended imm16. -/
def execAddi (iss : Issue) (gd ga : BitVec 5) (imm : BitVec 16) (s : State) : Host.Outcome State Fault Refusal
    :=
done (s.aluR iss gd ga (fun a => a + sext16 imm))

/-- ANDI (R64). gd := ga AND zero-extended imm16. -/
def execAndi (iss : Issue) (gd ga : BitVec 5) (imm : BitVec 16) (s : State) : Host.Outcome State Fault Refusal
    :=
done (s.aluR iss gd ga (fun a => a &&& zext16 imm))

/-- ORI (R64). gd := ga OR zero-extended imm16. -/
def execOri (iss : Issue) (gd ga : BitVec 5) (imm : BitVec 16) (s : State) : Host.Outcome State Fault Refusal :=
done (s.aluR iss gd ga (fun a => a ||| zext16 imm))

/-- XORI (R64). gd := ga XOR zero-extended imm16. -/
def execXori (iss : Issue) (gd ga : BitVec 5) (imm : BitVec 16) (s : State) : Host.Outcome State Fault Refusal
    :=
done (s.aluR iss gd ga (fun a => a ^^^ zext16 imm))

/-- SHI_SLL (R64). Immediate shift left logical. -/
def execShiSll (iss : Issue) (gd ga : BitVec 5) (sh : BitVec 6) (s : State) : Host.Outcome State Fault Refusal
    :=
done (s.aluR iss gd ga (fun a => a <<< sh.toNat))

/-- SHI_SRL (R64). Immediate shift right logical. -/
def execShiSrl (iss : Issue) (gd ga : BitVec 5) (sh : BitVec 6) (s : State) : Host.Outcome State Fault Refusal
    :=
done (s.aluR iss gd ga (fun a => a >>> sh.toNat))

/-- SHI_SRA (R64). Immediate shift right arithmetic. -/
def execShiSra (iss : Issue) (gd ga : BitVec 5) (sh : BitVec 6) (s : State) : Host.Outcome State Fault Refusal
    :=
done (s.aluR iss gd ga (fun a => a.sshiftRight sh.toNat))

/-- SHI_ROR (R64). Immediate rotate right. -/
def execShiRor (iss : Issue) (gd ga : BitVec 5) (sh : BitVec 6) (s : State) : Host.Outcome State Fault Refusal
    :=
done (s.aluR iss gd ga (fun a => a.rotateRight sh.toNat))

/-- CEQI (R64). gd := 1 if ga equals the sign-extended immediate. -/
def execCeqi (iss : Issue) (gd ga : BitVec 5) (imm : BitVec 16) (s : State) : Host.Outcome State Fault Refusal
    :=
done (s.aluR iss gd ga (fun a => flag (a == sext16 imm)))

/-- CLTI (R64). gd := 1 if ga < immediate, signed. -/
def execClti (iss : Issue) (gd ga : BitVec 5) (imm : BitVec 16) (s : State) : Host.Outcome State Fault Refusal
    :=
done (s.aluR iss gd ga (fun a => flag (a.slt (sext16 imm))))

/-- CLTUI (R64). gd := 1 if ga < immediate, unsigned. -/
def execCltui (iss : Issue) (gd ga : BitVec 5) (imm : BitVec 16) (s : State) : Host.Outcome State Fault Refusal
    :=
done (s.aluR iss gd ga (fun a => flag (a.ult (sext16 imm))))

/-- LUI (R64). gd := sign-extended imm16 times 65,536. -/
def execLui (iss : Issue) (gd : BitVec 5) (imm : BitVec 16) (s : State) : Host.Outcome State Fault Refusal :=
done (s.aluR iss gd 0 (fun _ => sext16 imm <<< 16))

/-- EXT (R64). Extracts a bit field of ga into gd. -/
def execExt (iss : Issue) (gd ga : BitVec 5) (pos w1 : BitVec 6) (s : State) : Host.Outcome State Fault Refusal
    :=
done (s.aluR iss gd ga (fun a => aluExt a pos w1))

/-- INS (R64). Inserts the low bits of ga into a field of gd. -/
def execIns (iss : Issue) (gd ga : BitVec 5) (pos w1 : BitVec 6) (s : State) : Host.Outcome State Fault Refusal
    :=
done (s.aluD iss gd ga (fun d a => aluIns d a pos w1))

/-- MOVK (R64). Writes imm16 into 16-bit lane k of gd, keeping the other bits. -/
def execMovk (iss : Issue) (gd : BitVec 5) (k : BitVec 2) (imm : BitVec 16) (s : State) : Host.Outcome State
    Fault Refusal :=
done (s.aluD iss gd 0 (fun d _ => aluMovk d k imm))

end Sys2Proof.Machine
end

