-- ==== Sys2Proof/Machine/YalvoControl.lean ====
section
/-! DEFINITION. Branches, calls, the clock and identity reads, and illegal words (R58, R65). -/

namespace Sys2Proof.Machine

/-- BZ (R65). Branches if ga is 0. -/
def execBz (iss : Issue) (ga : BitVec 5) (off : BitVec 21) (s : State) : Host.Outcome State Fault Refusal :=
done (s.branchIf iss ga off (fun a => a == 0))

/-- BNZ (R65). Branches if ga is not 0. -/
def execBnz (iss : Issue) (ga : BitVec 5) (off : BitVec 21) (s : State) : Host.Outcome State Fault Refusal :=
done (s.branchIf iss ga off (fun a => a != 0))

/-- BLTZ (R65). Branches if ga is negative. -/
def execBltz (iss : Issue) (ga : BitVec 5) (off : BitVec 21) (s : State) : Host.Outcome State Fault Refusal :=
done (s.branchIf iss ga off (fun a => a.msb))

/-- BGEZ (R65). Branches if ga is not negative. -/
def execBgez (iss : Issue) (ga : BitVec 5) (off : BitVec 21) (s : State) : Host.Outcome State Fault Refusal :=
done (s.branchIf iss ga off (fun a => !a.msb))

/-- BRA (R65). Branches always. -/
def execBra (iss : Issue) (off : BitVec 21) (s : State) : Host.Outcome State Fault Refusal :=
done (s.branchIf iss 0 off (fun _ => true))

/-- CALL (R65). Saves pc + 4 in the link register and branches. -/
def execCall (iss : Issue) (off : BitVec 21) (s : State) : Host.Outcome State Fault Refusal :=
done (s.call iss off)

/-- JR (R65). Jumps to ga. -/
def execJr (iss : Issue) (ga : BitVec 5) (s : State) : Host.Outcome State Fault Refusal :=
done (s.jumpTo iss ga none)

/-- JALR (R65). Saves pc + 4 in gd and jumps to ga. -/
def execJalr (iss : Issue) (gd ga : BitVec 5) (s : State) : Host.Outcome State Fault Refusal :=
done (s.jumpTo iss ga (some gd))

/-- NOP (R65). Does nothing. -/
def execNop (iss : Issue) (s : State) : Host.Outcome State Fault Refusal :=
done (s.issue iss .both [] (fun s => .next s))

/-- RDTM (R65). Reads TBM whole nanoseconds into gd. -/
def execRdtm (iss : Issue) (gd : BitVec 5) (s : State) : Host.Outcome State Fault Refusal :=
done (s.rdtm iss gd)

/-- RDID (R65). Reads the global thread or sequencer number into gd. -/
def execRdid (iss : Issue) (gd : BitVec 5) (s : State) : Host.Outcome State Fault Refusal :=
done (s.rdid iss gd)

/-- ILLEGAL_INSTRUCTION (R58). Issue of a word with a reserved opcode, function or op value, or a non-zero field
marked 0, raises ILLEGAL and halts the thread or sequencer. -/
def execIllegalInstruction (iss : Issue) (s : State) : Host.Outcome State Fault Refusal :=
done (s.illegal iss)

end Sys2Proof.Machine
end

