-- ==== Sys2Proof/Machine/YalvoMemory.lean ====
section
/-! DEFINITION. Loads, stores, atomics, fences and the packet window (R29, R35 - R37, R66 - R68). -/

namespace Sys2Proof.Machine

/-- LDB (R66). Loads a byte, zero-extended. -/
def execLdb (iss : Issue) (gd ga : BitVec 5) (sp : Fin 4) (off : BitVec 14) (k : Check) (s : State) :
    Host.Outcome State Fault Refusal :=
done (s.load iss gd ga sp.val off 1 false k)

/-- LDH (R66). Loads 2 bytes, zero-extended. -/
def execLdh (iss : Issue) (gd ga : BitVec 5) (sp : Fin 4) (off : BitVec 14) (k : Check) (s : State) :
    Host.Outcome State Fault Refusal :=
done (s.load iss gd ga sp.val off 2 false k)

/-- LDW (R66). Loads 4 bytes, zero-extended. -/
def execLdw (iss : Issue) (gd ga : BitVec 5) (sp : Fin 4) (off : BitVec 14) (k : Check) (s : State) :
    Host.Outcome State Fault Refusal :=
done (s.load iss gd ga sp.val off 4 false k)

/-- LDD (R66). Loads 8 bytes. -/
def execLdd (iss : Issue) (gd ga : BitVec 5) (sp : Fin 4) (off : BitVec 14) (k : Check) (s : State) :
    Host.Outcome State Fault Refusal :=
done (s.load iss gd ga sp.val off 8 false k)

/-- LDBS (R66). Loads a byte, sign-extended. -/
def execLdbs (iss : Issue) (gd ga : BitVec 5) (sp : Fin 4) (off : BitVec 14) (k : Check) (s : State) :
    Host.Outcome State Fault Refusal :=
done (s.load iss gd ga sp.val off 1 true k)

/-- LDHS (R66). Loads 2 bytes, sign-extended. -/
def execLdhs (iss : Issue) (gd ga : BitVec 5) (sp : Fin 4) (off : BitVec 14) (k : Check) (s : State) :
    Host.Outcome State Fault Refusal :=
done (s.load iss gd ga sp.val off 2 true k)

/-- LDWS (R66). Loads 4 bytes, sign-extended. -/
def execLdws (iss : Issue) (gd ga : BitVec 5) (sp : Fin 4) (off : BitVec 14) (k : Check) (s : State) :
    Host.Outcome State Fault Refusal :=
done (s.load iss gd ga sp.val off 4 true k)

/-- STB (R66). Stores the low byte of gd, to LM at once or into the store buffer. -/
def execStb (iss : Issue) (gd ga : BitVec 5) (sp : Fin 4) (off : BitVec 14) (s : State) : Host.Outcome State
    Fault Refusal :=
done (s.store iss gd ga sp.val off 1)

/-- STH (R66). Stores the low 2 bytes of gd. -/
def execSth (iss : Issue) (gd ga : BitVec 5) (sp : Fin 4) (off : BitVec 14) (s : State) : Host.Outcome State
    Fault Refusal :=
done (s.store iss gd ga sp.val off 2)

/-- STW (R66). Stores the low 4 bytes of gd. -/
def execStw (iss : Issue) (gd ga : BitVec 5) (sp : Fin 4) (off : BitVec 14) (s : State) : Host.Outcome State
    Fault Refusal :=
done (s.store iss gd ga sp.val off 4)

/-- STD (R66). Stores the 8 bytes of gd. -/
def execStd (iss : Issue) (gd ga : BitVec 5) (sp : Fin 4) (off : BitVec 14) (s : State) : Host.Outcome State
    Fault Refusal :=
done (s.store iss gd ga sp.val off 8)

/-- AADD (R67). Indivisibly adds gd to 8 LM bytes and returns the old value. -/
def execAadd (iss : Issue) (gd ga : BitVec 5) (sp : Fin 4) (off : BitVec 14) (k : Check) (s : State) :
    Host.Outcome State Fault Refusal :=
done (s.atomic iss gd ga sp.val off (fun old d => old + d) k)

/-- ASWP (R67). Indivisibly swaps gd with 8 LM bytes. -/
def execAswp (iss : Issue) (gd ga : BitVec 5) (sp : Fin 4) (off : BitVec 14) (k : Check) (s : State) :
    Host.Outcome State Fault Refusal :=
done (s.atomic iss gd ga sp.val off (fun _ d => d) k)

/-- PWL (R68). Loads from the packet window pw. -/
def execPwl (iss : Issue) (gd ga : BitVec 5) (off : BitVec 9) (size : Fin 4) (be sext : Bool) (s : State) :
    Host.Outcome State Fault Refusal :=
done (s.pwLoad iss gd ga off size be sext)

/-- PWS (R68). Stores into the packet window pw. -/
def execPws (iss : Issue) (gd ga : BitVec 5) (off : BitVec 9) (size : Fin 4) (be : Bool) (s : State) :
    Host.Outcome State Fault Refusal :=
done (s.pwStore iss gd ga off size be)

/-- FENCE_D (R36). Holds the thread until its store buffer is empty. -/
def execFenceD (iss : Issue) (s : State) : Host.Outcome State Fault Refusal :=
done (s.fenceD iss)

/-- FENCE_X (R37). Invalidates every XM line in the unit's data cache and holds the thread until done. -/
def execFenceX (iss : Issue) (s : State) : Host.Outcome State Fault Refusal :=
done (s.fenceX iss)

/-- STORE_BUFFER_DRAIN (R35). A store leaves the thread's store buffer, updates caches and becomes visible; a waiting
FENCE.D or full-buffer store resumes. -/
def execStoreBufferDrain (t : Fin 512) (s : State) : Host.Outcome State Fault Refusal :=
done (s.drainStore t)

/-- LOAD_RESULT (R29). The data of a CM, GM or XM load miss returns, and the thread waiting for that memory result
becomes ready. -/
def execLoadResult (t : Fin 512) (k : Check) (s : State) : Host.Outcome State Fault Refusal :=
done (s.loadResult t k)

end Sys2Proof.Machine
end

