-- ==== Sys2Proof/Machine/YalvoPackets.lean ====
section
/-! DEFINITION. Accelerators, egress and task creation from a Yalvo task (R40, R41, R73 - R83). -/

namespace Sys2Proof.Machine

/-- LKUP (R73). Copies a key from LM and submits an endpoint or route lookup into a named slot. -/
def execLkup (iss : Issue) (ga : BitVec 5) (slot : Fin 4) (table : Fin 7) (s : State) : Host.Outcome State Fault
    Refusal :=
done (s.lkup iss ga slot table)

/-- CIPH (R76). Copies a 32-byte job descriptor from LM and queues it to the region's cipher lanes. -/
def execCiph (iss : Issue) (ga : BitVec 5) (slot : Fin 4) (s : State) : Host.Outcome State Fault Refusal :=
done (s.ciph iss ga slot)

/-- PMAT (R77). Fetches match n of the parser's pattern search into a named slot. -/
def execPmat (iss : Issue) (ga : BitVec 5) (slot : Fin 4) (s : State) : Host.Outcome State Fault Refusal :=
done (s.pmat iss ga slot)

/-- OPERAND_ARRIVE (R40). An accelerator result arrives in its operand slot, and a thread waiting on it in WAITOP
becomes ready. -/
def execOperandArrive (k : Nat) (s : State) : Host.Outcome State Fault Refusal :=
done (s.whenOn 5 (fun s => s.operandArrive k))

/-- LOOKUP_COMPLETE (R356). A lookup finishes: both buckets read, entry compared, cached and pinned, and the result
word produced. -/
def execLookupComplete (n : Nat) (k wb : Check) (s : State) : Host.Outcome State Fault Refusal :=
done (s.whenOn 5 (fun s => s.lookupComplete n k wb))

/-- WAITOP (R78). Moves a slot's result into gd, waiting until it arrives. -/
def execWaitop (iss : Issue) (gd : BitVec 5) (slot : Fin 4) (s : State) : Host.Outcome State Fault Refusal :=
done (s.waitop iss gd slot)

/-- YIELD (R41). Ends the task, releasing lock, pin and unreleased place and freeing an unemitted packet. -/
def execYield (iss : Issue) (s : State) : Host.Outcome State Fault Refusal :=
done (s.yield iss)

/-- ORDR (R80). Passes the packet to egress held at the task's ordered-release place, or releases the place with no
output. -/
def execOrdr (iss : Issue) (gd ga : BitVec 5) (s : State) : Host.Outcome State Fault Refusal :=
done (s.ordrOp iss gd ga)

/-- EMIT (R82). Writes pw back as the new head and queues the packet to its egress at once. -/
def execEmit (iss : Issue) (gd ga : BitVec 5) (s : State) : Host.Outcome State Fault Refusal :=
done (s.emit iss gd ga)

/-- FORK (R83). Creates a task with complete operands, optionally passing the packet and the creation pin. -/
def execFork (iss : Issue) (gd ga : BitVec 5) (passPkt passPin : Bool) (s : State) : Host.Outcome State Fault
    Refusal :=
done (s.forkOp iss gd ga passPkt passPin)

end Sys2Proof.Machine
end

