-- ==== Sys2Proof/Machine/Dispatch.lean ====
section
/-! DEFINITION. One arm per command of the opcode table. -/

namespace Sys2Proof.Machine

def exec (i : Instr) (s : State) : Host.Outcome State Fault Refusal :=
  match i with
  | .registerWrite who addr en v x => Sys2Proof.Machine.execRegisterWrite who addr en v x s
  | .rcRead who addr en => Sys2Proof.Machine.execRcRead who addr en s
  | .wideReadCapture who addr => Sys2Proof.Machine.execWideReadCapture who addr s
  | .wideWriteCommit who addr v x => Sys2Proof.Machine.execWideWriteCommit who addr v x s
  | .trimWindowWrite who => Sys2Proof.Machine.execTrimWindowWrite who s
  | .accessNoRegister who addr write cross => Sys2Proof.Machine.execAccessNoRegister who addr write cross s
  | .egtsPop who c => Sys2Proof.Machine.execEgtsPop who c s
  | .detEvtPop who => Sys2Proof.Machine.execDetEvtPop who s
  | .modeRequest who v => Sys2Proof.Machine.execModeRequest who v s
  | .add iss gd ga gb => Sys2Proof.Machine.execAdd iss gd ga gb s
  | .sub iss gd ga gb => Sys2Proof.Machine.execSub iss gd ga gb s
  | .and iss gd ga gb => Sys2Proof.Machine.execAnd iss gd ga gb s
  | .or iss gd ga gb => Sys2Proof.Machine.execOr iss gd ga gb s
  | .xor iss gd ga gb => Sys2Proof.Machine.execXor iss gd ga gb s
  | .andn iss gd ga gb => Sys2Proof.Machine.execAndn iss gd ga gb s
  | .sll iss gd ga gb => Sys2Proof.Machine.execSll iss gd ga gb s
  | .srl iss gd ga gb => Sys2Proof.Machine.execSrl iss gd ga gb s
  | .sra iss gd ga gb => Sys2Proof.Machine.execSra iss gd ga gb s
  | .mul iss gd ga gb => Sys2Proof.Machine.execMul iss gd ga gb s
  | .mulhu iss gd ga gb => Sys2Proof.Machine.execMulhu iss gd ga gb s
  | .divu iss gd ga gb => Sys2Proof.Machine.execDivu iss gd ga gb s
  | .remu iss gd ga gb => Sys2Proof.Machine.execRemu iss gd ga gb s
  | .div iss gd ga gb => Sys2Proof.Machine.execDiv iss gd ga gb s
  | .rem iss gd ga gb => Sys2Proof.Machine.execRem iss gd ga gb s
  | .min iss gd ga gb => Sys2Proof.Machine.execMin iss gd ga gb s
  | .max iss gd ga gb => Sys2Proof.Machine.execMax iss gd ga gb s
  | .minu iss gd ga gb => Sys2Proof.Machine.execMinu iss gd ga gb s
  | .maxu iss gd ga gb => Sys2Proof.Machine.execMaxu iss gd ga gb s
  | .ceq iss gd ga gb => Sys2Proof.Machine.execCeq iss gd ga gb s
  | .cne iss gd ga gb => Sys2Proof.Machine.execCne iss gd ga gb s
  | .clt iss gd ga gb => Sys2Proof.Machine.execClt iss gd ga gb s
  | .cltu iss gd ga gb => Sys2Proof.Machine.execCltu iss gd ga gb s
  | .clz iss gd ga => Sys2Proof.Machine.execClz iss gd ga s
  | .ctz iss gd ga => Sys2Proof.Machine.execCtz iss gd ga s
  | .popc iss gd ga => Sys2Proof.Machine.execPopc iss gd ga s
  | .bswap iss gd ga => Sys2Proof.Machine.execBswap iss gd ga s
  | .bswap32 iss gd ga => Sys2Proof.Machine.execBswap32 iss gd ga s
  | .csum iss gd ga gb => Sys2Proof.Machine.execCsum iss gd ga gb s
  | .addi iss gd ga imm => Sys2Proof.Machine.execAddi iss gd ga imm s
  | .andi iss gd ga imm => Sys2Proof.Machine.execAndi iss gd ga imm s
  | .ori iss gd ga imm => Sys2Proof.Machine.execOri iss gd ga imm s
  | .xori iss gd ga imm => Sys2Proof.Machine.execXori iss gd ga imm s
  | .shiSll iss gd ga sh => Sys2Proof.Machine.execShiSll iss gd ga sh s
  | .shiSrl iss gd ga sh => Sys2Proof.Machine.execShiSrl iss gd ga sh s
  | .shiSra iss gd ga sh => Sys2Proof.Machine.execShiSra iss gd ga sh s
  | .shiRor iss gd ga sh => Sys2Proof.Machine.execShiRor iss gd ga sh s
  | .ceqi iss gd ga imm => Sys2Proof.Machine.execCeqi iss gd ga imm s
  | .clti iss gd ga imm => Sys2Proof.Machine.execClti iss gd ga imm s
  | .cltui iss gd ga imm => Sys2Proof.Machine.execCltui iss gd ga imm s
  | .lui iss gd imm => Sys2Proof.Machine.execLui iss gd imm s
  | .ext iss gd ga pos w1 => Sys2Proof.Machine.execExt iss gd ga pos w1 s
  | .ins iss gd ga pos w1 => Sys2Proof.Machine.execIns iss gd ga pos w1 s
  | .movk iss gd k imm => Sys2Proof.Machine.execMovk iss gd k imm s
  | .ldb iss gd ga sp off k => Sys2Proof.Machine.execLdb iss gd ga sp off k s
  | .ldh iss gd ga sp off k => Sys2Proof.Machine.execLdh iss gd ga sp off k s
  | .ldw iss gd ga sp off k => Sys2Proof.Machine.execLdw iss gd ga sp off k s
  | .ldd iss gd ga sp off k => Sys2Proof.Machine.execLdd iss gd ga sp off k s
  | .ldbs iss gd ga sp off k => Sys2Proof.Machine.execLdbs iss gd ga sp off k s
  | .ldhs iss gd ga sp off k => Sys2Proof.Machine.execLdhs iss gd ga sp off k s
  | .ldws iss gd ga sp off k => Sys2Proof.Machine.execLdws iss gd ga sp off k s
  | .stb iss gd ga sp off => Sys2Proof.Machine.execStb iss gd ga sp off s
  | .sth iss gd ga sp off => Sys2Proof.Machine.execSth iss gd ga sp off s
  | .stw iss gd ga sp off => Sys2Proof.Machine.execStw iss gd ga sp off s
  | .std iss gd ga sp off => Sys2Proof.Machine.execStd iss gd ga sp off s
  | .aadd iss gd ga sp off k => Sys2Proof.Machine.execAadd iss gd ga sp off k s
  | .aswp iss gd ga sp off k => Sys2Proof.Machine.execAswp iss gd ga sp off k s
  | .pwl iss gd ga off size be sext => Sys2Proof.Machine.execPwl iss gd ga off size be sext s
  | .pws iss gd ga off size be => Sys2Proof.Machine.execPws iss gd ga off size be s
  | .bz iss ga off => Sys2Proof.Machine.execBz iss ga off s
  | .bnz iss ga off => Sys2Proof.Machine.execBnz iss ga off s
  | .bltz iss ga off => Sys2Proof.Machine.execBltz iss ga off s
  | .bgez iss ga off => Sys2Proof.Machine.execBgez iss ga off s
  | .bra iss off => Sys2Proof.Machine.execBra iss off s
  | .call iss off => Sys2Proof.Machine.execCall iss off s
  | .jr iss ga => Sys2Proof.Machine.execJr iss ga s
  | .jalr iss gd ga => Sys2Proof.Machine.execJalr iss gd ga s
  | .nop iss => Sys2Proof.Machine.execNop iss s
  | .fenceD iss => Sys2Proof.Machine.execFenceD iss s
  | .fenceX iss => Sys2Proof.Machine.execFenceX iss s
  | .rdtm iss gd => Sys2Proof.Machine.execRdtm iss gd s
  | .rdid iss gd => Sys2Proof.Machine.execRdid iss gd s
  | .storeBufferDrain t => Sys2Proof.Machine.execStoreBufferDrain t s
  | .lkup iss ga slot table => Sys2Proof.Machine.execLkup iss ga slot table s
  | .ciph iss ga slot => Sys2Proof.Machine.execCiph iss ga slot s
  | .pmat iss ga slot => Sys2Proof.Machine.execPmat iss ga slot s
  | .operandArrive k => Sys2Proof.Machine.execOperandArrive k s
  | .lookupComplete n k wb => Sys2Proof.Machine.execLookupComplete n k wb s
  | .waitop iss gd slot => Sys2Proof.Machine.execWaitop iss gd slot s
  | .yield iss => Sys2Proof.Machine.execYield iss s
  | .ordr iss gd ga => Sys2Proof.Machine.execOrdr iss gd ga s
  | .emit iss gd ga => Sys2Proof.Machine.execEmit iss gd ga s
  | .fork iss gd ga passPkt passPin => Sys2Proof.Machine.execFork iss gd ga passPkt passPin s
  | .waitph iss sd sa sb d => Sys2Proof.Machine.execWaitph iss sd sa sb d s
  | .waitphWake n => Sys2Proof.Machine.execWaitphWake n s
  | .waitt iss sd sa base => Sys2Proof.Machine.execWaitt iss sd sa base s
  | .waittWake n => Sys2Proof.Machine.execWaittWake n s
  | .bin iss sd sa sb => Sys2Proof.Machine.execBin iss sd sa sb s
  | .pick iss sd sa limit policy bad => Sys2Proof.Machine.execPick iss sd sa limit policy bad s
  | .buildSu iss sd sa slot fits gcm k => Sys2Proof.Machine.execBuildSu iss sd sa slot fits gcm k s
  | .buildMu iss sd sa slot fits gcm k => Sys2Proof.Machine.execBuildMu iss sd sa slot fits gcm k s
  | .buildTrigger iss sd sa slot fits gcm k => Sys2Proof.Machine.execBuildTrigger iss sd sa slot fits gcm k s
  | .buildPip iss sd sa slot => Sys2Proof.Machine.execBuildPip iss sd sa slot s
  | .trig iss sd sa sb slot => Sys2Proof.Machine.execTrig iss sd sa sb slot s
  | .launch iss sd sa sb slot kind => Sys2Proof.Machine.execLaunch iss sd sa sb slot kind s
  | .undo iss sd slot => Sys2Proof.Machine.execUndo iss sd slot s
  | .skip iss sd => Sys2Proof.Machine.execSkip iss sd s
  | .beacon iss sd sa => Sys2Proof.Machine.execBeacon iss sd sa s
  | .gain iss sd sa step fromReg => Sys2Proof.Machine.execGain iss sd sa step fromReg s
  | .listen iss sd sa sb rate rep => Sys2Proof.Machine.execListen iss sd sa sb rate rep s
  | .listenWindowEnd => Sys2Proof.Machine.execListenWindowEnd s
  | .threadResume who u v => Sys2Proof.Machine.execThreadResume who u v s
  | .fenceLift who v => Sys2Proof.Machine.execFenceLift who v s
  | .programLoadRoll who v => Sys2Proof.Machine.execProgramLoadRoll who v s
  | .programLoadBarrier who v => Sys2Proof.Machine.execProgramLoadBarrier who v s
  | .loadUnitDrained u => Sys2Proof.Machine.execLoadUnitDrained u s
  | .loadDrainTimeout => Sys2Proof.Machine.execLoadDrainTimeout s
  | .loadCopyDone x k => Sys2Proof.Machine.execLoadCopyDone x k s
  | .crystalFail bad => Sys2Proof.Machine.execCrystalFail bad s
  | .x32kLoss => Sys2Proof.Machine.execX32kLoss s
  | .x32kReturn => Sys2Proof.Machine.execX32kReturn s
  | .tbnRateWrite who v => Sys2Proof.Machine.execTbnRateWrite who v s
  | .tbnStep who v => Sys2Proof.Machine.execTbnStep who v s
  | .tbnReset who v => Sys2Proof.Machine.execTbnReset who v s
  | .tbnHold who v => Sys2Proof.Machine.execTbnHold who v s
  | .tsfWrite who n v => Sys2Proof.Machine.execTsfWrite who n v s
  | .phaseInputCount d e a b => Sys2Proof.Machine.execPhaseInputCount d e a b s
  | .phaseIndexEdge d e => Sys2Proof.Machine.execPhaseIndexEdge d e s
  | .mainsEdge d e rising => Sys2Proof.Machine.execMainsEdge d e rising s
  | .hostObservation who d v => Sys2Proof.Machine.execHostObservation who d v s
  | .pdCycWrite who d v => Sys2Proof.Machine.execPdCycWrite who d v s
  | .pdPqWrite who d v => Sys2Proof.Machine.execPdPqWrite who d v s
  | .domainEnable who d v => Sys2Proof.Machine.execDomainEnable who d v s
  | .domainDisable who d v => Sys2Proof.Machine.execDomainDisable who d v s
  | .acqTimeout d => Sys2Proof.Machine.execAcqTimeout d s
  | .lossTimeout d => Sys2Proof.Machine.execLossTimeout d s
  | .ppsOutSecond => Sys2Proof.Machine.execPpsOutSecond s
  | .ppsInEdge falling t => Sys2Proof.Machine.execPpsInEdge falling t s
  | .ppsInTimeout => Sys2Proof.Machine.execPpsInTimeout s
  | .cycleBoundary n => Sys2Proof.Machine.execCycleBoundary n s
  | .staUpdate who v => Sys2Proof.Machine.execStaUpdate who v s
  | .binUpdate who v => Sys2Proof.Machine.execBinUpdate who v s
  | .binUpdateAll who v => Sys2Proof.Machine.execBinUpdateAll who v s
  | .binAge who v => Sys2Proof.Machine.execBinAge who v s
  | .epochAdvance => Sys2Proof.Machine.execEpochAdvance s
  | .twtSpEnd st => Sys2Proof.Machine.execTwtSpEnd st s
  | .seqEnable who n v => Sys2Proof.Machine.execSeqEnable who n v s
  | .seqDisable who n v => Sys2Proof.Machine.execSeqDisable who n v s
  | .huskReady n slot => Sys2Proof.Machine.execHuskReady n slot s
  | .huskCommit n m => Sys2Proof.Machine.execHuskCommit n m s
  | .launchWindowEnd n => Sys2Proof.Machine.execLaunchWindowEnd n s
  | .blockAckReceive n slot st acked ulExp ulGot => Sys2Proof.Machine.execBlockAckReceive n slot st acked ulExp ulGot s
  | .ackTimeout n slot st w => Sys2Proof.Machine.execAckTimeout n slot st w s
  | .mpduReceive f k m room low => Sys2Proof.Machine.execMpduReceive f k m room low s
  | .barReceive n st tid start => Sys2Proof.Machine.execBarReceive n st tid start s
  | .rxHoldTimeout st tid => Sys2Proof.Machine.execRxHoldTimeout st tid s
  | .sbOpen who v => Sys2Proof.Machine.execSbOpen who v s
  | .sbClose who v => Sys2Proof.Machine.execSbClose who v s
  | .linkUpdate who n v => Sys2Proof.Machine.execLinkUpdate who n v s
  | .wifiTbtt n b => Sys2Proof.Machine.execWifiTbtt n b s
  | .wifiBeaconCommit n b => Sys2Proof.Machine.execWifiBeaconCommit n b s
  | .beaconWindowEnd n b => Sys2Proof.Machine.execBeaconWindowEnd n b s
  | .soundingFeedback n st pre => Sys2Proof.Machine.execSoundingFeedback n st pre s
  | .steerCopy who n v => Sys2Proof.Machine.execSteerCopy who n v s
  | .chanWrite who n v => Sys2Proof.Machine.execChanWrite who n v s
  | .channelSwitch who n v => Sys2Proof.Machine.execChannelSwitch who n v s
  | .channelRetuneDone n => Sys2Proof.Machine.execChannelRetuneDone n s
  | .macDisable who n v => Sys2Proof.Machine.execMacDisable who n v s
  | .parentBeacon t ts => Sys2Proof.Machine.execParentBeacon t ts s
  | .parentWindowEnd => Sys2Proof.Machine.execParentWindowEnd s
  | .candidateListenEnd => Sys2Proof.Machine.execCandidateListenEnd s
  | .radarBurst subch pulses width rssi chirp t => Sys2Proof.Machine.execRadarBurst subch pulses width rssi chirp t s
  | .pllUnlock n => Sys2Proof.Machine.execPllUnlock n s
  | .chplanWrite who v => Sys2Proof.Machine.execChplanWrite who v s
  | .chmapWrite who v => Sys2Proof.Machine.execChmapWrite who v s
  | .chmapChange who v => Sys2Proof.Machine.execChmapChange who v s
  | .pipData f k room => Sys2Proof.Machine.execPipData f k room s
  | .pipAck f k room => Sys2Proof.Machine.execPipAck f k room s
  | .pipPoll f k room => Sys2Proof.Machine.execPipPoll f k room s
  | .pipAlert f k room => Sys2Proof.Machine.execPipAlert f k room s
  | .pipFlood f k room => Sys2Proof.Machine.execPipFlood f k room s
  | .pipJoin f k room => Sys2Proof.Machine.execPipJoin f k room s
  | .pipAutoAnswer => Sys2Proof.Machine.execPipAutoAnswer s
  | .pipAnswerTimeout => Sys2Proof.Machine.execPipAnswerTimeout s
  | .pipAnchor node => Sys2Proof.Machine.execPipAnchor node s
  | .pipSupervisionTimeout node => Sys2Proof.Machine.execPipSupervisionTimeout node s
  | .pipTbtt => Sys2Proof.Machine.execPipTbtt s
  | .pipBeaconCommit => Sys2Proof.Machine.execPipBeaconCommit s
  | .pipBeaconWindowEnd => Sys2Proof.Machine.execPipBeaconWindowEnd s
  | .floodCacheExpiry => Sys2Proof.Machine.execFloodCacheExpiry s
  | .nodeUpdate who v => Sys2Proof.Machine.execNodeUpdate who v s
  | .nodeUpdateConn who v => Sys2Proof.Machine.execNodeUpdateConn who v s
  | .nodeUpdateMerge who v => Sys2Proof.Machine.execNodeUpdateMerge who v s
  | .pipDisable who v => Sys2Proof.Machine.execPipDisable who v s
  | .cuModeChange who c v ok => Sys2Proof.Machine.execCuModeChange who c v ok s
  | .cuRestart who c v ok => Sys2Proof.Machine.execCuRestart who c v ok s
  | .autonegComplete c rate master mdix txp rxp snr len => Sys2Proof.Machine.execAutonegComplete c rate master mdix txp rxp snr len s
  | .cuFrameReceive c bytes fcs t k => Sys2Proof.Machine.execCuFrameReceive c bytes fcs t k s
  | .pauseRefresh c => Sys2Proof.Machine.execPauseRefresh c s
  | .pauseExpiry c => Sys2Proof.Machine.execPauseExpiry c s
  | .portFrameSent port t k => Sys2Proof.Machine.execPortFrameSent port t k s
  | .lrInfoReceive c v => Sys2Proof.Machine.execLrInfoReceive c v s
  | .lrPhaseEnd c ok mdix snr len => Sys2Proof.Machine.execLrPhaseEnd c ok mdix snr len s
  | .lrDetectTimeout c => Sys2Proof.Machine.execLrDetectTimeout c s
  | .lrOamReceive c v => Sys2Proof.Machine.execLrOamReceive c v s
  | .lrCodeFrame c w start => Sys2Proof.Machine.execLrCodeFrame c w start s
  | .lrFastRetrainEnd c snr len partner => Sys2Proof.Machine.execLrFastRetrainEnd c snr len partner s
  | .diagStart who c v => Sys2Proof.Machine.execDiagStart who c v s
  | .diagDone c res => Sys2Proof.Machine.execDiagDone c res s
  | .frameParse port buf pat rule x => Sys2Proof.Machine.execFrameParse port buf pat rule x s
  | .ruleWrite who v => Sys2Proof.Machine.execRuleWrite who v s
  | .ruleRead who v => Sys2Proof.Machine.execRuleRead who v s
  | .ruleReadClear who v => Sys2Proof.Machine.execRuleReadClear who v s
  | .bankSwap who v => Sys2Proof.Machine.execBankSwap who v s
  | .patternInstall who v => Sys2Proof.Machine.execPatternInstall who v s
  | .creationRetry => Sys2Proof.Machine.execCreationRetry s
  | .taskDispatch c pick w => Sys2Proof.Machine.execTaskDispatch c pick w s
  | .orderedRelease c k => Sys2Proof.Machine.execOrderedRelease c k s
  | .clmapWrite who j v => Sys2Proof.Machine.execClmapWrite who j v s
  | .clmapApply => Sys2Proof.Machine.execClmapApply s
  | .taskInject who v => Sys2Proof.Machine.execTaskInject who v s
  | .regionFlush who v => Sys2Proof.Machine.execRegionFlush who v s
  | .starveTimeout id => Sys2Proof.Machine.execStarveTimeout id s
  | .egBpWrite who k v => Sys2Proof.Machine.execEgBpWrite who k v s
  | .cipherJobStart l k => Sys2Proof.Machine.execCipherJobStart l k s
  | .gcmpEncrypt l k part => Sys2Proof.Machine.execGcmpEncrypt l k part s
  | .gcmpDecrypt l m part => Sys2Proof.Machine.execGcmpDecrypt l m part s
  | .ccmpEncrypt l k part => Sys2Proof.Machine.execCcmpEncrypt l k part s
  | .ccmpDecrypt l m part => Sys2Proof.Machine.execCcmpDecrypt l m part s
  | .gmacGenerate l k part => Sys2Proof.Machine.execGmacGenerate l k part s
  | .gmacVerify l k part => Sys2Proof.Machine.execGmacVerify l k part s
  | .cmacGenerate l k part => Sys2Proof.Machine.execCmacGenerate l k part s
  | .cmacVerify l k part => Sys2Proof.Machine.execCmacVerify l k part s
  | .pnrsv l => Sys2Proof.Machine.execPnrsv l s
  | .keyLoad who v => Sys2Proof.Machine.execKeyLoad who v s
  | .keyErase who v => Sys2Proof.Machine.execKeyErase who v s
  | .keyLoadComplete => Sys2Proof.Machine.execKeyLoadComplete s
  | .keyEraseComplete => Sys2Proof.Machine.execKeyEraseComplete s
  | .zeroise who v => Sys2Proof.Machine.execZeroise who v s
  | .rngHealthFail => Sys2Proof.Machine.execRngHealthFail s
  | .laneReseed l ok => Sys2Proof.Machine.execLaneReseed l ok s
  | .laneParityFault l => Sys2Proof.Machine.execLaneParityFault l s
  | .insert slot k => Sys2Proof.Machine.execInsert slot k s
  | .remove slot k => Sys2Proof.Machine.execRemove slot k s
  | .eptEnable who v bad => Sys2Proof.Machine.execEptEnable who v bad s
  | .cacheFlush who v bad => Sys2Proof.Machine.execCacheFlush who v bad s
  | .routeAdd who => Sys2Proof.Machine.execRouteAdd who s
  | .routeRemove who => Sys2Proof.Machine.execRouteRemove who s
  | .journalMount who v ok => Sys2Proof.Machine.execJournalMount who v ok s
  | .journalAppend who v => Sys2Proof.Machine.execJournalAppend who v s
  | .journalDelete who v => Sys2Proof.Machine.execJournalDelete who v s
  | .journalAppendDone ok1 ok2 erase => Sys2Proof.Machine.execJournalAppendDone ok1 ok2 erase s
  | .journalCompact who v ok => Sys2Proof.Machine.execJournalCompact who v ok s
  | .flashTimeout => Sys2Proof.Machine.execFlashTimeout s
  | .dramRequest t new back hit k fin => Sys2Proof.Machine.execDramRequest t new back hit k fin s
  | .requestPromote n => Sys2Proof.Machine.execRequestPromote n s
  | .dramRefresh => Sys2Proof.Machine.execDramRefresh s
  | .scrubRead k => Sys2Proof.Machine.execScrubRead k s
  | .frequencyChange who v => Sys2Proof.Machine.execFrequencyChange who v s
  | .frequencyChangeDone ok => Sys2Proof.Machine.execFrequencyChangeDone ok s
  | .dramTrain who v => Sys2Proof.Machine.execDramTrain who v s
  | .dramTrainDone r => Sys2Proof.Machine.execDramTrainDone r s
  | .dqsDriftCheck ok => Sys2Proof.Machine.execDqsDriftCheck ok s
  | .dmaRun who c v => Sys2Proof.Machine.execDmaRun who c v s
  | .dmaStop who c v => Sys2Proof.Machine.execDmaStop who c v s
  | .dmaDescFetch c ok host => Sys2Proof.Machine.execDmaDescFetch c ok host s
  | .dmaCreditRefill => Sys2Proof.Machine.execDmaCreditRefill s
  | .dmaBeatIssue => Sys2Proof.Machine.execDmaBeatIssue s
  | .dmaBeatResponse c n ok host dirty => Sys2Proof.Machine.execDmaBeatResponse c n ok host dirty s
  | .dmaWritebackDone c ok => Sys2Proof.Machine.execDmaWritebackDone c ok s
  | .mccClean who v => Sys2Proof.Machine.execMccClean who v s
  | .mccInvalidate who v => Sys2Proof.Machine.execMccInvalidate who v s
  | .mccCleanInvalidate who v => Sys2Proof.Machine.execMccCleanInvalidate who v s
  | .mccDone dirty => Sys2Proof.Machine.execMccDone dirty s
  | .sqDoorbell q tail t => Sys2Proof.Machine.execSqDoorbell q tail t s
  | .cqDoorbell q head => Sys2Proof.Machine.execCqDoorbell q head s
  | .send q d data k kb => Sys2Proof.Machine.execSend q d data k kb s
  | .buf q d k => Sys2Proof.Machine.execBuf q d k s
  | .hostNop q d k => Sys2Proof.Machine.execHostNop q d k s
  | .hostRxDeliver q k => Sys2Proof.Machine.execHostRxDeliver q k s
  | .qpCoalTimeout q => Sys2Proof.Machine.execQpCoalTimeout q s
  | .msixUnmask n addr data => Sys2Proof.Machine.execMsixUnmask n addr data s
  | .functionLevelReset => Sys2Proof.Machine.execFunctionLevelReset s
  | .hostLinkDown => Sys2Proof.Machine.execHostLinkDown s
  | .hostLinkUp speed width => Sys2Proof.Machine.execHostLinkUp speed width s
  | .qpEnableWrite who q v => Sys2Proof.Machine.execQpEnableWrite who q v s
  | .raRead who v x => Sys2Proof.Machine.execRaRead who v x s
  | .raWrite who v x => Sys2Proof.Machine.execRaWrite who v x s
  | .raTimeout => Sys2Proof.Machine.execRaTimeout s
  | .heartbeatSend slot => Sys2Proof.Machine.execHeartbeatSend slot s
  | .heartbeat slot m t k => Sys2Proof.Machine.execHeartbeat slot m t k s
  | .heartbeatDeadline slot => Sys2Proof.Machine.execHeartbeatDeadline slot s
  | .quorumSettle => Sys2Proof.Machine.execQuorumSettle s
  | .ack slot m t k => Sys2Proof.Machine.execAck slot m t k s
  | .racc slot m t k x => Sys2Proof.Machine.execRacc slot m t k x s
  | .rrep slot m t k => Sys2Proof.Machine.execRrep slot m t k s
  | .data slot m t k => Sys2Proof.Machine.execData slot m t k s
  | .join slot m t k => Sys2Proof.Machine.execJoin slot m t k s
  | .admitDevice slot m t k => Sys2Proof.Machine.execAdmitDevice slot m t k s
  | .leave slot m t k => Sys2Proof.Machine.execLeave slot m t k s
  | .notice slot m t k => Sys2Proof.Machine.execNotice slot m t k s
  | .fault slot m t k => Sys2Proof.Machine.execFault slot m t k s
  | .firmwareMessage slot m t k => Sys2Proof.Machine.execFirmwareMessage slot m t k s
  | .fabricSend who v => Sys2Proof.Machine.execFabricSend who v s
  | .ackGather src => Sys2Proof.Machine.execAckGather src s
  | .relResend seq => Sys2Proof.Machine.execRelResend seq s
  | .raccGapTimeout src x => Sys2Proof.Machine.execRaccGapTimeout src x s
  | .fedEnable who v => Sys2Proof.Machine.execFedEnable who v s
  | .fedDisable who v => Sys2Proof.Machine.execFedDisable who v s
  | .admitted who v => Sys2Proof.Machine.execAdmitted who v s
  | .synced who v => Sys2Proof.Machine.execSynced who v s
  | .entryStepComplete bad => Sys2Proof.Machine.execEntryStepComplete bad s
  | .entryTimeout => Sys2Proof.Machine.execEntryTimeout s
  | .wakePin => Sys2Proof.Machine.execWakePin s
  | .wakeHost who v => Sys2Proof.Machine.execWakeHost who v s
  | .wakeAlarm => Sys2Proof.Machine.execWakeAlarm s
  | .wakeStageReady mv => Sys2Proof.Machine.execWakeStageReady mv s
  | .wakeStageTimeout failing bad => Sys2Proof.Machine.execWakeStageTimeout failing bad s
  | .trimChange who v => Sys2Proof.Machine.execTrimChange who v s
  | .trimChangeDone => Sys2Proof.Machine.execTrimChangeDone s
  | .avsStatusPoll r mv bad => Sys2Proof.Machine.execAvsStatusPoll r mv bad s
  | .grace1Expiry n bad => Sys2Proof.Machine.execGrace1Expiry n bad s
  | .grace2Expiry n bad => Sys2Proof.Machine.execGrace2Expiry n bad s
  | .faultAck who j v => Sys2Proof.Machine.execFaultAck who j v s
  | .faultForce who j v => Sys2Proof.Machine.execFaultForce who j v s
  | .dumpComplete bad => Sys2Proof.Machine.execDumpComplete bad s
  | .dumpTimeout n bad => Sys2Proof.Machine.execDumpTimeout n bad s
  | .dumpErase who v => Sys2Proof.Machine.execDumpErase who v s
  | .counterCommit who v bad => Sys2Proof.Machine.execCounterCommit who v bad s
  | .counterPeriod bad => Sys2Proof.Machine.execCounterPeriod bad s
  | .clrring who v bad => Sys2Proof.Machine.execClrring who v bad s
  | .firmwareRecord who v bad => Sys2Proof.Machine.execFirmwareRecord who v bad s
  | .powerOnReset => Sys2Proof.Machine.execPowerOnReset s
  | .resetPin => Sys2Proof.Machine.execResetPin s
  | .warmReset who v => Sys2Proof.Machine.execWarmReset who v s
  | .radioDieHold who v => Sys2Proof.Machine.execRadioDieHold who v s
  | .radioDieRelease who v => Sys2Proof.Machine.execRadioDieRelease who v s
  | .supplyPgLoss => Sys2Proof.Machine.execSupplyPgLoss s
  | .bootGlitch => Sys2Proof.Machine.execBootGlitch s
  | .bootStepComplete avs boot fuses rdA rdB bad => Sys2Proof.Machine.execBootStepComplete avs boot fuses rdA rdB bad s
  | .hostImageLoad who v => Sys2Proof.Machine.execHostImageLoad who v s
  | .imageVerify who v => Sys2Proof.Machine.execImageVerify who v s
  | .imageVerifyDone => Sys2Proof.Machine.execImageVerifyDone s
  | .arbBurn who v => Sys2Proof.Machine.execArbBurn who v s
  | .arbFuseBurned => Sys2Proof.Machine.execArbFuseBurned s
  | .lifecycleAdvance who v => Sys2Proof.Machine.execLifecycleAdvance who v s
  | .fuseProgramKeyhash who slot v => Sys2Proof.Machine.execFuseProgramKeyhash who slot v s
  | .fuseProgramDebugkey who v => Sys2Proof.Machine.execFuseProgramDebugkey who v s
  | .fuseRevoke who v => Sys2Proof.Machine.execFuseRevoke who v s
  | .secLock who v => Sys2Proof.Machine.execSecLock who v s
  | .measExtend who v => Sys2Proof.Machine.execMeasExtend who v s
  | .quoteRequest who v => Sys2Proof.Machine.execQuoteRequest who v s
  | .quoteDone => Sys2Proof.Machine.execQuoteDone s
  | .debugChallengeRequest who v bad => Sys2Proof.Machine.execDebugChallengeRequest who v bad s
  | .debugSubmit who v bad => Sys2Proof.Machine.execDebugSubmit who v bad s
  | .watchdogEnable who v => Sys2Proof.Machine.execWatchdogEnable who v s
  | .watchdogKick who v => Sys2Proof.Machine.execWatchdogKick who v s
  | .watchdogMsWrite who v => Sys2Proof.Machine.execWatchdogMsWrite who v s
  | .watchdogExpiry => Sys2Proof.Machine.execWatchdogExpiry s
  | .tempConversion t => Sys2Proof.Machine.execTempConversion t s
  | .thermalTripSample t bad => Sys2Proof.Machine.execThermalTripSample t bad s
  | .illegalInstruction iss => Sys2Proof.Machine.execIllegalInstruction iss s
  | .loadResult t k => Sys2Proof.Machine.execLoadResult t k s
  | .ppduEnd n slot => Sys2Proof.Machine.execPpduEnd n slot s
  | .fcsFailReceive n => Sys2Proof.Machine.execFcsFailReceive n s
  | .qosNullEosp n st => Sys2Proof.Machine.execQosNullEosp n st s
  | .emlsrTransitionEnd n st => Sys2Proof.Machine.execEmlsrTransitionEnd n st s
  | .candidateBeacon t => Sys2Proof.Machine.execCandidateBeacon t s
  | .pllRelock n => Sys2Proof.Machine.execPllRelock n s
  | .antennaFault n chain => Sys2Proof.Machine.execAntennaFault n chain s
  | .rfPowerLimit n chain on => Sys2Proof.Machine.execRfPowerLimit n chain on s
  | .macEnable who n v ok => Sys2Proof.Machine.execMacEnable who n v ok s
  | .pipEnable who v ok => Sys2Proof.Machine.execPipEnable who v ok s
  | .pipFrameReject t rssi sat => Sys2Proof.Machine.execPipFrameReject t rssi sat s
  | .baseTLinkLoss c l => Sys2Proof.Machine.execBaseTLinkLoss c l s
  | .txStreamLow n => Sys2Proof.Machine.execTxStreamLow n s
  | .txStreamUnderrun n => Sys2Proof.Machine.execTxStreamUnderrun n s
  | .quickRetrainDone ok => Sys2Proof.Machine.execQuickRetrainDone ok s
  | .pcieError uncorrectable => Sys2Proof.Machine.execPcieError uncorrectable s
  | .dumpEraseDone ok => Sys2Proof.Machine.execDumpEraseDone ok s

end Sys2Proof.Machine
end

