-- ==== Sys2Proof/Machine/YalvoWords.lean ====
section
/-! DEFINITION. Instruction words of Yalvo (R57 - R65): the five formats, and the instruction that a word spells.  The rows of
the table name instructions, not words; this is the map from the words in an instruction memory to those rows. -/

namespace Sys2Proof.Machine

/-- What the hardware meets while it carries out an instruction, beside the word: the check of the memory read, the list
entries of PICK that cannot be read, and for BUILD what fits and the cipher suite. -/
structure Met where
  mem : Check := .good
  bad : List Nat := []
  fits : List Fit := []
  gcm : Bool := false
  reads : List Check := []
deriving DecidableEq, Repr

/-- A word of format A (R57). -/
def wordA (op gd ga gb fn : Nat) : Nat :=
  op % 64 * 2 ^ 26 + gd % 32 * 2 ^ 21 + ga % 32 * 2 ^ 16 + gb % 32 * 2 ^ 11 + fn % 2 ^ 11

/-- A word of format I or X (R57). -/
def wordI (op gd ga imm : Nat) : Nat := op % 64 * 2 ^ 26 + gd % 32 * 2 ^ 21 + ga % 32 * 2 ^ 16 + imm % 2 ^ 16

/-- A word of format M (R57). -/
def wordM (op gd ga sp off : Nat) : Nat :=
  op % 64 * 2 ^ 26 + gd % 32 * 2 ^ 21 + ga % 32 * 2 ^ 16 + sp % 4 * 2 ^ 14 + off % 2 ^ 14

/-- A word of format B (R57). -/
def wordB (op ga off : Nat) : Nat := op % 64 * 2 ^ 26 + ga % 32 * 2 ^ 21 + off % 2 ^ 21

/-- The ALU group (R63); none for a reserved function code or a `gb` that must be 0. -/
def decodeAlu (i : Issue) (gd ga gb : BitVec 5) (fn : Nat) : Option Instr :=
  match fn with
  | 0x00 => some (.add i gd ga gb)
  | 0x01 => some (.sub i gd ga gb)
  | 0x02 => some (.and i gd ga gb)
  | 0x03 => some (.or i gd ga gb)
  | 0x04 => some (.xor i gd ga gb)
  | 0x05 => some (.andn i gd ga gb)
  | 0x06 => some (.sll i gd ga gb)
  | 0x07 => some (.srl i gd ga gb)
  | 0x08 => some (.sra i gd ga gb)
  | 0x09 => some (.mul i gd ga gb)
  | 0x0A => some (.mulhu i gd ga gb)
  | 0x0B => some (.divu i gd ga gb)
  | 0x0C => some (.remu i gd ga gb)
  | 0x0D => some (.div i gd ga gb)
  | 0x0E => some (.rem i gd ga gb)
  | 0x0F => some (.min i gd ga gb)
  | 0x10 => some (.max i gd ga gb)
  | 0x11 => some (.minu i gd ga gb)
  | 0x12 => some (.maxu i gd ga gb)
  | 0x13 => some (.ceq i gd ga gb)
  | 0x14 => some (.cne i gd ga gb)
  | 0x15 => some (.clt i gd ga gb)
  | 0x16 => some (.cltu i gd ga gb)
  | 0x17 => if gb = 0 then some (.clz i gd ga) else none
  | 0x18 => if gb = 0 then some (.ctz i gd ga) else none
  | 0x19 => if gb = 0 then some (.popc i gd ga) else none
  | 0x1A => if gb = 0 then some (.bswap i gd ga) else none
  | 0x1B => if gb = 0 then some (.bswap32 i gd ga) else none
  | 0x1C => some (.csum i gd ga gb)
  | _ => none

/-- The immediate instructions (R64). -/
def decodeImm (i : Issue) (op : Nat) (gd ga : BitVec 5) (v : Nat) : Option Instr :=
  let imm := BitVec.ofNat 16 v
  let lo := BitVec.ofNat 6 v
  let hi := BitVec.ofNat 6 (v / 64)
  match op with
  | 0x02 => some (.addi i gd ga imm)
  | 0x03 => some (.andi i gd ga imm)
  | 0x04 => some (.ori i gd ga imm)
  | 0x05 => some (.xori i gd ga imm)
  | 0x06 =>
    if 256 ≤ v then none
    else if v / 64 = 0 then some (.shiSll i gd ga lo)
    else if v / 64 = 1 then some (.shiSrl i gd ga lo)
    else if v / 64 = 2 then some (.shiSra i gd ga lo)
    else some (.shiRor i gd ga lo)
  | 0x07 => some (.ceqi i gd ga imm)
  | 0x08 => some (.clti i gd ga imm)
  | 0x09 => some (.cltui i gd ga imm)
  | 0x0A => if ga = 0 then some (.lui i gd imm) else none
  | 0x0B => if 4096 ≤ v then none else some (.ext i gd ga lo hi)
  | 0x0C => if 4096 ≤ v then none else some (.ins i gd ga lo hi)
  | 0x0D => if 4 ≤ ga.toNat then none else some (.movk i gd (BitVec.ofNat 2 ga.toNat) imm)
  | _ => none

/-- Loads, stores and atomics (R66, R67). -/
def decodeMem (i : Issue) (k : Check) (op : Nat) (gd ga : BitVec 5) (v : Nat) : Option Instr :=
  let sp := Fin.ofNat 4 (v / 2 ^ 14)
  let off := BitVec.ofNat 14 v
  match op with
  | 0x10 => some (.ldb i gd ga sp off k)
  | 0x11 => some (.ldh i gd ga sp off k)
  | 0x12 => some (.ldw i gd ga sp off k)
  | 0x13 => some (.ldd i gd ga sp off k)
  | 0x14 => some (.ldbs i gd ga sp off k)
  | 0x15 => some (.ldhs i gd ga sp off k)
  | 0x16 => some (.ldws i gd ga sp off k)
  | 0x18 => some (.stb i gd ga sp off)
  | 0x19 => some (.sth i gd ga sp off)
  | 0x1A => some (.stw i gd ga sp off)
  | 0x1B => some (.std i gd ga sp off)
  | 0x1C => some (.aadd i gd ga sp off k)
  | 0x1D => some (.aswp i gd ga sp off k)
  | _ => none

/-- The packet window (R68). -/
def decodePw (i : Issue) (op : Nat) (gd ga : BitVec 5) (v : Nat) : Option Instr :=
  let off := BitVec.ofNat 9 v
  let size := Fin.ofNat 4 (v / 2 ^ 9)
  if 2 ^ 13 ≤ v then none
  else if op = 0x1E then some (.pwl i gd ga off size (bit v 11) (bit v 12))
  else if bit v 12 then none
  else some (.pws i gd ga off size (bit v 11))

/-- Branches (R65); `r` is the register field. -/
def decodeBranch (i : Issue) (op : Nat) (r : BitVec 5) (v : Nat) : Option Instr :=
  let off := BitVec.ofNat 21 v
  match op with
  | 0x20 => some (.bz i r off)
  | 0x21 => some (.bnz i r off)
  | 0x22 => some (.bltz i r off)
  | 0x23 => some (.bgez i r off)
  | 0x24 => if r = 0 then some (.bra i off) else none
  | 0x25 => if r = 0 then some (.call i off) else none
  | _ => none

/-- The JUMP and SYS groups (R65). -/
def decodeSys (i : Issue) (op : Nat) (gd ga gb : BitVec 5) (fn : Nat) : Option Instr :=
  if op = 0x26 then
    if gb ≠ 0 then none
    else if fn = 0 then (if gd = 0 then some (.jr i ga) else none)
    else if fn = 1 then some (.jalr i gd ga) else none
  else if ga ≠ 0 ∨ gb ≠ 0 then none
  else match fn with
    | 0 => if gd = 0 then some (.nop i) else none
    | 1 => if gd = 0 then some (.fenceD i) else none
    | 2 => if gd = 0 then some (.fenceX i) else none
    | 3 => some (.rdtm i gd)
    | 4 => some (.rdid i gd)
    | _ => none

/-- The accelerator and task-control instructions (R73 - R84); `v` is the op field. -/
def decodeTask (i : Issue) (op : Nat) (gd ga : BitVec 5) (v : Nat) : Option Instr :=
  let slot := Fin.ofNat 4 v
  match op with
  | 0x28 => if h : gd = 0 ∧ v < 64 ∧ v / 4 < 7 then some (.lkup i ga slot ⟨v / 4, h.2.2⟩) else none
  | 0x29 => if gd = 0 ∧ v < 4 then some (.ciph i ga slot) else none
  | 0x2A => if gd = 0 ∧ v < 4 then some (.pmat i ga slot) else none
  | 0x2B => if ga = 0 ∧ v < 4 then some (.waitop i gd slot) else none
  | 0x2C => if gd = 0 ∧ ga = 0 ∧ v = 0 then some (.yield i) else none
  | 0x2D => if v = 0 then some (.ordr i gd ga) else none
  | 0x2E => if v = 0 then some (.emit i gd ga) else none
  | 0x2F => if v < 4 then some (.fork i gd ga (bit v 0) (bit v 1)) else none
  | _ => none

/-- The schedule instructions of format A (R88 - R99). -/
def decodeSchedA (i : Issue) (op : Nat) (sd sa sb : BitVec 5) (fn : Nat) : Option Instr :=
  match op with
  | 0x30 => if fn < 4 then some (.waitph i sd sa sb (Fin.ofNat 4 fn)) else none
  | 0x31 => if h : sb = 0 ∧ fn < 5 then some (.waitt i sd sa ⟨fn, h.2⟩) else none
  | 0x32 => if fn = 0 then some (.bin i sd sa sb) else none
  | 0x35 => if fn < 16 then some (.launch i sd sa sb (Fin.ofNat 2 fn) (Fin.ofNat 8 (fn / 2))) else none
  | 0x36 => if fn < 2 then some (.trig i sd sa sb (Fin.ofNat 2 fn)) else none
  | 0x39 => if fn < 16 then some (.listen i sd sa sb (Fin.ofNat 4 fn) (Fin.ofNat 4 (fn / 4))) else none
  | _ => none

/-- The schedule instructions of format X (R91 - R98). -/
def decodeSchedX (i : Issue) (x : Met) (op : Nat) (sd sa : BitVec 5) (v : Nat) : Option Instr :=
  let slot := Fin.ofNat 2 v
  match op with
  | 0x33 => if v < 4096 then some (.pick i sd sa (BitVec.ofNat 10 v) (BitVec.ofNat 2 (v / 1024)) x.bad) else none
  | 0x34 =>
    if 8 ≤ v then none
    else if v / 2 = 0 then some (.buildSu i sd sa slot x.fits x.gcm x.reads)
    else if v / 2 = 1 then some (.buildMu i sd sa slot x.fits x.gcm x.reads)
    else if v / 2 = 2 then some (.buildTrigger i sd sa slot x.fits x.gcm x.reads)
    else some (.buildPip i sd sa slot)
  | 0x37 => if sa = 0 ∧ v < 2 then some (.undo i sd slot) else none
  | 0x38 => if v < 16 then some (.gain i sd sa (Fin.ofNat 8 v) (bit v 3)) else none
  | 0x3A => if v = 0 then some (.beacon i sd sa) else none
  | 0x3B => if sa = 0 ∧ v = 0 then some (.skip i sd) else none
  | _ => none

/-- The instruction that a word spells (R57, R61).  None is the row ILLEGAL_INSTRUCTION: a reserved opcode, function code or
op value, or a field marked 0 that is not (R58), so also the zero word (R59). -/
def decodeYalvo (i : Issue) (x : Met) (w : Nat) : Option Instr :=
  let op := bits w 31 26
  let gd := BitVec.ofNat 5 (bits w 25 21)
  let ga := BitVec.ofNat 5 (bits w 20 16)
  let gb := BitVec.ofNat 5 (bits w 15 11)
  let fn := bits w 10 0
  let v := bits w 15 0
  if op = 1 then decodeAlu i gd ga gb fn
  else if op < 0x10 then decodeImm i op gd ga v
  else if op < 0x1E then decodeMem i x.mem op gd ga v
  else if op < 0x20 then decodePw i op gd ga v
  else if op < 0x26 then decodeBranch i op gd (bits w 20 0)
  else if op < 0x28 then decodeSys i op gd ga gb fn
  else if op < 0x30 then decodeTask i op gd ga v
  else if op = 0x30 ∨ op = 0x31 ∨ op = 0x32 ∨ op = 0x35 ∨ op = 0x36 ∨ op = 0x39 then decodeSchedA i op gd ga gb fn
  else decodeSchedX i x op gd ga v

/-- The instruction memory of an issuer: its unit's, or its sequencer's. -/
def imOf : Issuer → Nat
  | .thr t => t.val / 8
  | .seq n => 64 + n.val

/-- The word at an issuer's pc. -/
def State.wordAtPc (s : State) (x : Issuer) : Nat := memNat s.yal.im (0x10000 * imOf x + s.pcOf x) 4

/-- The instruction that an issuer issues next: the word at its pc, decoded; none raises ILLEGAL. -/
def State.fetched (s : State) (i : Issue) (x : Met) : Option Instr := decodeYalvo i x (s.wordAtPc i.who)

end Sys2Proof.Machine
end

