-- ==== Sys2Proof/Safety.lean ====
section
/-! DEFINITION. What the statements say of a step: that it goes on, that a command completes in a named state, and the
conditions on state and operands under which it executes normally. -/

namespace Sys2Proof.Machine

/-- The step goes on: neither a fault nor a refusal. -/
def goesOn (o : Host.Outcome State Fault Refusal) : Prop := ∃ s, o = .next s

/-- The command completes in the state `u` with the output pins at the levels that `u` gives them. -/
def Completes (c : Instr) (s u : State) : Prop := exec c s = .next u.close

/-- The command completes with the effect `u`, the sources that it raised then collected (R473) and the output pins at the
levels that this gives them. -/
def Settles (c : Instr) (s u : State) : Prop := exec c s = .next u.settle

/-- The command goes on to a state of which `P` holds. -/
def Answers (c : Instr) (s : State) (P : State → Prop) : Prop := ∃ t, exec c s = .next t ∧ P t

/-- Nothing that an earlier command reported is left, and domain `d` of R455 is on. -/
def State.running (s : State) (d : Nat) : Bool := s.quiet && s.domOn d

/-- A register of domain `d` takes a write of requester `who` (R456, R486, R551): the requester has a path, the domain is
on, and the device is not in Fault Hold. -/
def State.takes (s : State) (who d : Nat) : Bool := s.running d && s.reaches who && s.mode != 0xB

/-- Class D and class U sources that enter at no level (R473, R494): an occurrence of `n` is counted and sticks. -/
def State.countsOnly (s : State) (n : Nat) : Bool :=
  sourceRaised n && decide (sourceClass n < 2) && n != 601 && n != 619 && s.entryLevel (sourceClass n) == 0

/-- One occurrence of a source that enters at no level (R473). -/
def State.counted (s : State) (n : Nat) : State :=
  ((s.put (F.FLT_SRC_FORCED n) 0).put (F.FLT_SRC_STICKY n) 1).bump (F.FLT_SRC_COUNT n) 1

/-- An instruction issues normally at its thread or sequencer (R28, R42, R58, R61, R100): the issuer is ready, its budget
is not spent, the word was fetched without error, and profile and register fields are legal. -/
def Issues (s : State) (i : Issue) (pr : Profile) (regs : List (BitVec 5)) : Prop :=
  s.quiet = true ∧ s.canIssue i.who = true ∧ s.overBudget i.who = false ∧ i.fetch = .good ∧ legalFor pr regs i.who = true

/-- The issuer goes on at the next word, its instruction counted against the task's budget (R42). -/
def State.advance (s u : State) (i : Issue) : State := u.setPc i.who (s.pcOf i.who + 4)

/-- The value of an issuer's register. -/
def State.val (s : State) (i : Issue) (r : BitVec 5) : DWord := s.reg (issuerNum i.who) r.toNat

/-- Register `r` of the issuer takes `v`, the pc moves to the next word, the instruction counts against the task's budget,
and nothing else changes; a write of register 0 is discarded (R30, R46). -/
def WritesReg (c : Instr) (i : Issue) (s : State) (r : BitVec 5) (v : DWord) : Prop :=
  Completes c s (s.advance ((s.countInstr i.who).setReg (issuerNum i.who) r.toNat v) i)

/-- The issuer goes on at byte address `pc`; nothing else changes. -/
def GoesTo (c : Instr) (i : Issue) (s : State) (pc : Nat) : Prop := Completes c s ((s.countInstr i.who).setPc i.who pc)

/-- The address that a load or store of thread or sequencer `i` names (R33). -/
def State.addrOf (s : State) (i : Issue) (ga : BitVec 5) (off : BitVec 14) : Nat := mAddress (s.val i ga) off

/-- A load of `n` bytes of LM (R66): gd takes the little-endian number at the address, extended by `ext`, where the thread
has no store of its own to LM in its store buffer. -/
def LoadsLm (mk : Issue → BitVec 5 → BitVec 5 → Fin 4 → BitVec 14 → Check → Instr) (n : Nat) (ext : Nat → DWord) : Prop :=
  ∀ (t : Fin 512) (i : Issue) (gd ga : BitVec 5) (off : BitVec 14) (s : State), i.who = .thr t →
    Issues s i .both [gd, ga] → ownBytes 0 (s.thread t.val).sbuf = [] →
    s.addrOf i ga off % n = 0 → s.addrOf i ga off + n ≤ 0x10000 →
    WritesReg (mk i gd ga 0 off .good) i s gd (ext (memNat s.yal.lm (0x10000 * (t.val / 8) + s.addrOf i ga off) n))

/-- The same of a sequencer's SD. -/
def LoadsSd (mk : Issue → BitVec 5 → BitVec 5 → Fin 4 → BitVec 14 → Check → Instr) (n : Nat) (ext : Nat → DWord) : Prop :=
  ∀ (q : Fin 4) (i : Issue) (gd ga : BitVec 5) (off : BitVec 14) (s : State), i.who = .seq q →
    Issues s i .both [gd, ga] → s.addrOf i ga off % n = 0 → s.addrOf i ga off + n ≤ 0x4000 →
    WritesReg (mk i gd ga 0 off .good) i s gd (ext (memNat s.sd (0x4000 * q.val + s.addrOf i ga off) n))

/-- Byte `k` of a number, little-endian. -/
def byteOf (v k : Nat) : Byte := BitVec.ofNat 8 (v / 256 ^ k)

/-- Memory `m'` is `m` with the `n` little-endian bytes of `v` at `a`. -/
def Stored (m m' : Mem) (a n v : Nat) : Prop :=
  (∀ k, k < n → memByte m' (a + k) = byteOf v k) ∧ ∀ x, x < a ∨ a + n ≤ x → memByte m' x = memByte m x

/-- A store of the low `n` bytes of gd to LM (R35, R66): the bytes change and no other byte of any memory, no register and
no word of the control window does. -/
def StoresLm (mk : Issue → BitVec 5 → BitVec 5 → Fin 4 → BitVec 14 → Instr) (n : Nat) : Prop :=
  ∀ (t : Fin 512) (i : Issue) (gd ga : BitVec 5) (off : BitVec 14) (s : State), i.who = .thr t →
    Issues s i .both [gd, ga] → s.addrOf i ga off % n = 0 → s.addrOf i ga off + n ≤ 0x10000 →
    Answers (mk i gd ga 0 off) s (fun u =>
      Stored s.yal.lm u.yal.lm (0x10000 * (t.val / 8) + s.addrOf i ga off) n (s.val i gd).toNat ∧
      u.yal.cm = s.yal.cm ∧ u.yal.pw = s.yal.pw ∧ u.gm = s.gm ∧ u.xm = s.xm ∧ u.sd = s.sd ∧ u.yal.g = s.yal.g ∧
      u.regs = s.regs ∧ u.pcOf i.who = (s.pcOf i.who + 4) % 0x10000)

/-- A store of the low `n` bytes of gd to CM, GM or XM (R35): with room it waits as the newest of the thread's store buffer
and no memory changes. -/
def StoresLater (mk : Issue → BitVec 5 → BitVec 5 → Fin 4 → BitVec 14 → Instr) (n : Nat) : Prop :=
  ∀ (t : Fin 512) (i : Issue) (gd ga : BitVec 5) (sp : Fin 4) (off : BitVec 14) (s : State), i.who = .thr t →
    Issues s i .both [gd, ga] → sp ≠ 0 → s.accessCheck (.thr t) sp.val (s.addrOf i ga off) n true = none →
    (s.thread t.val).sbuf.length < 8 →
    Answers (mk i gd ga sp off) s (fun u =>
      (u.thread t.val).sbuf = (s.thread t.val).sbuf ++ [⟨sp.val, s.addrOf i ga off, natLe (s.val i gd).toNat n⟩] ∧
      u.yal.lm = s.yal.lm ∧ u.yal.cm = s.yal.cm ∧ u.yal.pw = s.yal.pw ∧ u.gm = s.gm ∧ u.xm = s.xm ∧ u.sd = s.sd ∧
      u.yal.g = s.yal.g ∧ u.regs = s.regs ∧ u.pcOf i.who = (s.pcOf i.who + 4) % 0x10000)

/-- A message `m` on slot `k` reaches its end at this device and is accepted with payload `p` (R429, R431, R433 - R437): the
block is on and joined, the slot is enabled and carries something, the message is addressed here (an OPEN JOIN to the
anchor; a broadcast on the route to its sender with no other slot up), its check value and its number hold. -/
abbrev State.fabricTakes (s : State) (k : Nat) (m : FedMsg) (p : List Byte) : Prop :=
  s.quiet = true ∧ s.fabricHears k = true ∧ s.fedState ≠ 0 ∧ s.on (F.FEDS_LINK_CFG_EN k) = true ∧ s.fedHalted = false ∧
  m.ver = 1 ∧ ((if fedFlag m fOpen && m.type == 16 then s.fedAnchor else m.dst.toNat) = s.fedId ∨
    (fedFlag m fOpen = false ∧ m.dst = 0xFF ∧ s.fedRoute m.src.toNat = some k ∧ 1 < m.hops.toNat ∧ s.fedUp = [k])) ∧
  m.payload.length ≤ 2008 ∧ p.length ≤ 2008 ∧ s.fedCheck m = some p ∧ (s.fedNumbered m).1 = .accept ∧
  ∀ a ∈ s.fed.acks, a.src = m.src.toNat → a.seqs.length < 15

/-- The link table of radio `n`, the station table and the bin store lie apart in the Granary (R139, R151, R201). -/
abbrev State.tablesApart (s : State) (n : Nat) : Prop :=
  s.linkTableOk n = true ∧ s.staTableOk = true ∧ s.binStoreOk = true ∧
  (s.linkBase n + 0x10000 ≤ s.staBase ∨ s.staBase + 0x10000 ≤ s.linkBase n) ∧
  (s.linkBase n + 0x10000 ≤ s.binBase ∨ s.binBase + 0x300000 ≤ s.linkBase n) ∧
  (s.staBase + 0x10000 ≤ s.binBase ∨ s.binBase + 0x300000 ≤ s.staBase)

/-- A husk has been undone with outcome `code` counted in `cnt`, while a LAUNCH with result register `sd` waited on it: the
slot is empty, its new MPDUs lead the queue, the outcome has been returned and nothing is stored (R94, R183). -/
abbrev UndoneByLaunch (s u : State) (n slot code sd : Nat) (h : Husk) (cnt : Fld) : Prop :=
  u.husk n slot = none ∧ u.get cnt = min 255 (s.get cnt + 1) ∧ (u.seq n).wait = none ∧ u.get (outField n slot) = 15 ∧
  u.hts.egress = (h.mpdus.filter (fun m => m.isNew)).map (fun m => { m.item with ret := true }) ++ s.hts.egress ∧
  (sd ≠ 0 → u.reg (512 + n) sd = BitVec.ofNat 64 code)

/-- Address of the mailbox entry that is written next (R432, R453). -/
def State.mailAt (s : State) : Nat :=
  s.get F.FED_MBOX_BASE_ADDR / 2048 * 2048 + 2048 * (s.get F.FED_MBOX_WR_PTR % max 1 (s.get F.FED_MBOX_SIZE_N))

/-- The mailbox has taken a message: header, payload, zeros and stamp in its entry, the write position advanced, every other
byte of the Granary as it was (R432). -/
abbrev Mailed (s u : State) (header p : List Byte) (t : Nat) : Prop :=
  memBytes u.gm s.mailAt 2040 = header ++ p ++ List.replicate (2008 - p.length) 0 ∧
  memNat u.gm (s.mailAt + 2040) 8 = t % 2 ^ 64 ∧
  u.get F.FED_MBOX_WR_PTR
    = (s.get F.FED_MBOX_WR_PTR % max 1 (s.get F.FED_MBOX_SIZE_N) + 1) % max 1 (s.get F.FED_MBOX_SIZE_N) % 2 ^ 10 ∧
  ∀ b, b < s.mailAt ∨ s.mailAt + 2048 ≤ b → memByte u.gm b = memByte s.gm b

/-- A write of `v` to the register at `a` has no effect beside those of its fields' access codes (R4). -/
abbrev State.plainAt (s : State) (who a v : Nat) (x : Ext) : Prop :=
  (if a < 0x600000 then s.airWrite a v x else if a < 0xE00000 then s.coreWrite (hostPath x) who a v x else s.topWrite who a v x) = none

/-- A register's value `n` after a plain write of `v` over `old` (R4, R7): rw and wo fields take the written bits, rwl ones
unless locked, w1c ones clear and w1s ones set where a 1 is written, the others stay. -/
abbrev Wrote (lock : Bool) (v old n : Nat) (d : RDesc) : Prop := ∀ f ∈ d.fields,
  let o := bits old f.hi f.lo
  let w := bits v f.hi f.lo
  (f.acc = .rw ∨ f.acc = .wo → bits n f.hi f.lo = w) ∧ (f.acc = .rwl → bits n f.hi f.lo = if lock then o else w) ∧
  (f.acc = .w1c → bits n f.hi f.lo = Nat.xor o (Nat.land o w)) ∧ (f.acc = .w1s → bits n f.hi f.lo = Nat.lor o w) ∧
  (f.acc = .ro ∨ f.acc = .rc ∨ f.acc = .sc → bits n f.hi f.lo = o)

/-- The key of the register at `low` in the register file: each requester has its own copy of a per-requester one (R26). -/
def keyOf (who low : Nat) (d : RDesc) : Nat := low + (if d.perReq then 0x100000000 * who else 0)

/-- The requester has read the number `v`, and nothing else has changed. -/
def State.gotRead (s : State) (who v : Nat) : State :=
  { s with readData := tabSet (fun _ => 0) s.readData who (BitVec.ofNat 32 v) }

/-- A Pip frame of type `t` falls into the open window of a LISTEN with result register `sd`, and carries the device's network
identifier (R99, R239, R250). -/
abbrev State.pipListens (s : State) (f : PipFrame) (t sd w0 w1 ch rate rep : Nat) : Prop :=
  s.quiet = true ∧ s.radioHears 3 = true ∧ pipType f = t ∧ s.air.pip.ex = .none ∧
  (s.seq 3).wait = some (.listen sd w0 w1 ch rate rep) ∧ w0 ≤ f.stamp.toNat ∧ f.stamp.toNat < w1 ∧
  f.netid.toNat = s.get F.PIP_NETID_NETID ∧ s.pipDetects f rate rep = true ∧ pipFrameOk f = true ∧ 0 < sd ∧ sd < 16

/-- The Pip MAC owes an automatic answer (R242). -/
def State.owesAnswer (s : State) : Bool := match s.air.pip.ex with | .answer _ _ _ _ => true | _ => false

/-- The Pip MAC awaits an answer (R242). -/
def State.awaitsAnswer (s : State) : Bool := match s.air.pip.ex with | .await _ _ _ _ => true | _ => false

/-- The LISTEN has returned `code` with the frame's RSSI at the frame's end (R99, R240). -/
abbrev ListenEnds (s u : State) (f : PipFrame) (code sd : Nat) : Prop :=
  u.time = (s.until (pipEndNs f)).time ∧ (u.seq 3).wait = none ∧ u.get F.PIP_RX_STAT_RSSI = f.rssi.toNat ∧
  u.reg 515 sd = BitVec.ofNat 64 (code + 256 * f.rssi.toNat)

/-- The result register of a WAITPH of sequencer `n` on domain `d`. -/
def State.phaseWait (s : State) (n d : Nat) : Option Nat :=
  match (s.seq n).wait with
  | some (.phase sd _ _ e) => if e = d then some sd else none
  | _ => none

/-- The result register of a WAITT of sequencer `n` on TBN. -/
def State.tbnWait (s : State) (n : Nat) : Option Nat :=
  match (s.seq n).wait with
  | some (.time sd 1 _) => some sd
  | _ => none

/-- Sequencer `n`'s wait has ended with `status` in register `sd` (R88, R89). -/
abbrev WaitEnded (u : State) (n sd status : Nat) : Prop :=
  (u.seq n).wait = none ∧ (0 < sd → u.reg (512 + n) sd = BitVec.ofNat 64 status)

/-- A fuse command is refused: no fuse burns, its ERR field reads 1 and source `n` is counted (R507, R509). -/
abbrev FuseRefused (s u : State) (err : Fld) (n : Nat) : Prop :=
  u.fuse = s.fuse ∧ u.sec = s.sec ∧ u.get err = 1 ∧ u.get (F.FLT_SRC_COUNT n) = (s.bump (F.FLT_SRC_COUNT n) 1).get (F.FLT_SRC_COUNT n)

/-- DMA channel `c` has halted with a CAUSE (R404): RUN and STOP clear, ERR is set with the channel's bit in IRQ_ERR, and no
memory and no other channel has changed. -/
abbrev DmaHalted (s u : State) (c cause : Nat) : Prop :=
  u.get (F.DMA_CH_CTL_RUN c) = 0 ∧ u.get (F.DMA_CH_CTL_STOP c) = 0 ∧ u.get (F.DMA_CH_CTL_ERR c) = 1 ∧
  u.get (F.DMA_CH_CTL_CAUSE c) = cause ∧ u.get (F.DMA_CH_CTL_DONE c) = s.get (F.DMA_CH_CTL_DONE c) ∧
  u.fbit F.DMAS_IRQ_ERR_CH c = true ∧ u.get (F.DMA_CH_CUR_PTR c) = s.get (F.DMA_CH_CUR_PTR c) ∧ (u.dch c).ph = 0 ∧
  (∀ e, e ≠ c → u.dch e = s.dch e) ∧ u.gm = s.gm ∧ u.xm = s.xm ∧ u.hostOut = s.hostOut

/-- Source `n` has been counted once more. -/
abbrev CountedOnce (s u : State) (n : Nat) : Prop :=
  u.get (F.FLT_SRC_COUNT n) = (s.bump (F.FLT_SRC_COUNT n) 1).get (F.FLT_SRC_COUNT n)

/-- The number whose bits a list gives, bit 0 first. -/
def leBitNat : List Bool → Nat
  | [] => 0
  | b :: l => b2n b + 2 * leBitNat l

/-- The parser's input has taken one more packet (R296). -/
abbrev Delivered (s u : State) (p : Packet) : Prop :=
  u.prs = { s.prs with input := s.prs.input ++ [{ p with ref := s.prs.nextRef }], nextRef := s.prs.nextRef + 1 }

/-- A field's bits of a written word. -/
def fldOf (v : Word) (f : Fld) : Nat := bits v.toNat f.hi f.lo

/-- The end of a program's job of operation `op` on lane `l` (R344 - R346): a job whose buffers are good writes its output at
DST and answers 0 with the generation copied, or, where a tag does not match, writes nothing, answers AUTHFAIL and counts; a
buffer error answers MEMERR, is counted and raises source 451, and only an encrypt or generate may have written the first
`part` bytes of its output; on a lane that runs no job of that operation nothing happens. -/
def JobEnds (mk : Fin 32 → Check → Nat → Instr) (op : Nat) : Prop :=
  (∀ (l : Fin 32) (part r : Nat) (dest : Dest) (j : Job) (s : State), s.quiet = true → s.laneJob l.val = some j → j.op = op →
    j.src = .program dest r → j.data = [] →
    let u := s.dropLaneJob l.val
    let out := jobOutput op j.tlen j.aadLen j.len (keyBytes j.type j.key) (s.bufBytes j.srcGm j.srcA j.srcLen)
    (s.jobXmDead j = false → Completes (mk l .good part) s (match out with
      | some o => (if o = [] then u else u.bufPut j.dstGm j.dstA o).arrive dest (statusWord 0 j.gen 0)
      | none => (u.bump F.CIP_CNT_AUTHFAIL 1).arrive dest (statusWord 1 0 0))) ∧
    (∀ k : Check, k = .lasting ∨ s.jobXmDead j = true →
      let w := match out with
        | some o => if writesOut op then u.bufPut j.dstGm j.dstA (o.take (min part (o.length - 1))) else u
        | none => u
      let w := (w.bump F.CIP_CNT2_MEMERR 1).arrive dest (statusWord 6 0 0)
      w.countsOnly 451 = true → Completes (mk l k part) s (w.counted 451))) ∧
  (∀ (l : Fin 32) (k : Check) (part : Nat) (s : State), s.quiet = true → (∀ j, s.laneJob l.val = some j → j.op ≠ op) →
    Completes (mk l k part) s s)

end Sys2Proof.Machine
end

