-- ==== Sys2Proof/Certificates/Slice0/Obligations.lean ====
section
/-! DEFINITION. The statements for the provers: what the commands do, what every step keeps, and what reset leaves. -/

open Sys2Proof Sys2Proof.Machine

/-- For a thread or sequencer that issues normally, each of the 29 functions of the ALU group and each I-format
instruction writes its value to gd, immediates extended as R60 says, and moves to the next word, and nothing else
changes; register 0 discards the write. (R60, R63, R64) -/
def Obligations.OrdinaryArithmetic : Prop :=
  (∀ (i : Issue) (gd ga gb : BitVec 5) (s : State), Issues s i .both [gd, ga, gb] →
    let a := s.val i ga
    let b := s.val i gb
    WritesReg (.add i gd ga gb) i s gd (a + b) ∧
    WritesReg (.sub i gd ga gb) i s gd (a - b) ∧
    WritesReg (.and i gd ga gb) i s gd (a &&& b) ∧
    WritesReg (.or i gd ga gb) i s gd (a ||| b) ∧
    WritesReg (.xor i gd ga gb) i s gd (a ^^^ b) ∧
    WritesReg (.andn i gd ga gb) i s gd (a &&& ~~~b) ∧
    WritesReg (.sll i gd ga gb) i s gd (a <<< (b.toNat % 64)) ∧
    WritesReg (.srl i gd ga gb) i s gd (a >>> (b.toNat % 64)) ∧
    WritesReg (.sra i gd ga gb) i s gd (BitVec.ofInt 64 (a.toInt / 2 ^ (b.toNat % 64))) ∧
    WritesReg (.mul i gd ga gb) i s gd (BitVec.ofNat 64 (a.toNat * b.toNat)) ∧
    WritesReg (.mulhu i gd ga gb) i s gd (BitVec.ofNat 64 (a.toNat * b.toNat / 2 ^ 64)) ∧
    WritesReg (.divu i gd ga gb) i s gd
      (if b.toNat = 0 then BitVec.allOnes 64 else BitVec.ofNat 64 (a.toNat / b.toNat)) ∧
    WritesReg (.remu i gd ga gb) i s gd (if b.toNat = 0 then a else BitVec.ofNat 64 (a.toNat % b.toNat)) ∧
    WritesReg (.div i gd ga gb) i s gd
      (if b.toInt = 0 then BitVec.ofInt 64 (-1) else if a.toInt = -2 ^ 63 ∧ b.toInt = -1 then a
       else BitVec.ofInt 64 (a.toInt.tdiv b.toInt)) ∧
    WritesReg (.rem i gd ga gb) i s gd
      (if b.toInt = 0 then a else if a.toInt = -2 ^ 63 ∧ b.toInt = -1 then 0
       else BitVec.ofInt 64 (a.toInt.tmod b.toInt)) ∧
    WritesReg (.min i gd ga gb) i s gd (if a.toInt ≤ b.toInt then a else b) ∧
    WritesReg (.max i gd ga gb) i s gd (if a.toInt ≤ b.toInt then b else a) ∧
    WritesReg (.minu i gd ga gb) i s gd (if a.toNat ≤ b.toNat then a else b) ∧
    WritesReg (.maxu i gd ga gb) i s gd (if a.toNat ≤ b.toNat then b else a) ∧
    WritesReg (.ceq i gd ga gb) i s gd (if a.toNat = b.toNat then 1 else 0) ∧
    WritesReg (.cne i gd ga gb) i s gd (if a.toNat = b.toNat then 0 else 1) ∧
    WritesReg (.clt i gd ga gb) i s gd (if a.toInt < b.toInt then 1 else 0) ∧
    WritesReg (.cltu i gd ga gb) i s gd (if a.toNat < b.toNat then 1 else 0) ∧
    WritesReg (.csum i gd ga gb) i s gd (
      let n := a.toNat % 65536 + a.toNat / 65536 % 65536 + a.toNat / 2 ^ 32 % 65536 + a.toNat / 2 ^ 48
        + (b.toNat % 65536 + b.toNat / 65536 % 65536 + b.toNat / 2 ^ 32 % 65536 + b.toNat / 2 ^ 48)
      BitVec.ofNat 64 (if n = 0 then 0 else (n - 1) % 65535 + 1))) ∧
  (∀ (i : Issue) (gd ga : BitVec 5) (s : State), Issues s i .both [gd, ga] →
    let a := s.val i ga
    WritesReg (.clz i gd ga) i s gd (BitVec.ofNat 64 (if a.toNat = 0 then 64 else 63 - a.toNat.log2)) ∧
    (∃ n : Nat, WritesReg (.ctz i gd ga) i s gd (BitVec.ofNat 64 n) ∧ n ≤ 64 ∧
      (∀ k, k < n → a.getLsbD k = false) ∧ (n < 64 → a.getLsbD n = true)) ∧
    WritesReg (.popc i gd ga) i s gd (BitVec.ofNat 64 ((List.range 64).filter (fun k => a.getLsbD k)).length) ∧
    (∃ v : DWord, WritesReg (.bswap i gd ga) i s gd v ∧
      ∀ k, k < 64 → v.getLsbD k = a.getLsbD (8 * (7 - k / 8) + k % 8)) ∧
    (∃ v : DWord, WritesReg (.bswap32 i gd ga) i s gd v ∧
      ∀ k, k < 64 → v.getLsbD k = (decide (k < 32) && a.getLsbD (8 * (3 - k / 8) + k % 8)))) ∧
  (∀ (i : Issue) (gd ga : BitVec 5) (s : State), Issues s i .both [gd, ga] →
    let a := s.val i ga
    (∀ imm : BitVec 16,
      WritesReg (.addi i gd ga imm) i s gd (a + imm.signExtend 64) ∧
      WritesReg (.andi i gd ga imm) i s gd (a &&& imm.zeroExtend 64) ∧
      WritesReg (.ori i gd ga imm) i s gd (a ||| imm.zeroExtend 64) ∧
      WritesReg (.xori i gd ga imm) i s gd (a ^^^ imm.zeroExtend 64) ∧
      WritesReg (.ceqi i gd ga imm) i s gd (if a = imm.signExtend 64 then 1 else 0) ∧
      WritesReg (.clti i gd ga imm) i s gd (if a.toInt < imm.toInt then 1 else 0) ∧
      WritesReg (.cltui i gd ga imm) i s gd (if a.toNat < (imm.signExtend 64).toNat then 1 else 0)) ∧
    (∀ sh : BitVec 6,
      WritesReg (.shiSll i gd ga sh) i s gd (a <<< sh.toNat) ∧
      WritesReg (.shiSrl i gd ga sh) i s gd (a >>> sh.toNat) ∧
      WritesReg (.shiSra i gd ga sh) i s gd (BitVec.ofInt 64 (a.toInt / 2 ^ sh.toNat)) ∧
      WritesReg (.shiRor i gd ga sh) i s gd ((a >>> sh.toNat) ||| (a <<< (64 - sh.toNat)))) ∧
    (∀ pos w1 : BitVec 6,
      WritesReg (.ext i gd ga pos w1) i s gd (BitVec.ofNat 64 (a.toNat / 2 ^ pos.toNat % 2 ^ (w1.toNat + 1))) ∧
      ∃ v : DWord, WritesReg (.ins i gd ga pos w1) i s gd v ∧
        ∀ k, k < 64 → v.getLsbD k =
          if pos.toNat ≤ k ∧ k ≤ pos.toNat + w1.toNat then a.getLsbD (k - pos.toNat) else (s.val i gd).getLsbD k)) ∧
  (∀ (i : Issue) (gd : BitVec 5) (imm : BitVec 16) (s : State), Issues s i .both [gd, 0] →
    WritesReg (.lui i gd imm) i s gd (BitVec.ofInt 64 (imm.toInt * 65536)) ∧
    ∀ n : BitVec 2, ∃ v : DWord, WritesReg (.movk i gd n imm) i s gd v ∧
      ∀ k, k < 64 → v.getLsbD k =
        if k / 16 = n.toNat then imm.getLsbD (k % 16) else (s.val i gd).getLsbD k)

/-- Conditional branches go to (pc + 4 x off21) modulo 65,536 or to the next word; CALL saves pc + 4 in g31 or s15; JR and
JALR go to a word-aligned address below 65,536, and JALR saves pc + 4; NOP does nothing; RDTM and RDID read the clock
and the number of the thread or sequencer. (R60, R65) -/
def Obligations.BranchAndJump : Prop :=
  (∀ (i : Issue) (ga : BitVec 5) (off : BitVec 21) (s : State), Issues s i .both [ga] →
    let a := (s.val i ga).toInt
    let next := s.pcOf i.who + 4
    let target := (((s.pcOf i.who : Int) + 4 * off.toInt) % 65536).toNat
    GoesTo (.bz i ga off) i s (if a = 0 then target else next) ∧
    GoesTo (.bnz i ga off) i s (if a = 0 then next else target) ∧
    GoesTo (.bltz i ga off) i s (if a < 0 then target else next) ∧
    GoesTo (.bgez i ga off) i s (if a < 0 then next else target)) ∧
  (∀ (i : Issue) (off : BitVec 21) (s : State), Issues s i .both [] →
    let target := (((s.pcOf i.who : Int) + 4 * off.toInt) % 65536).toNat
    GoesTo (.bra i off) i s target ∧
    GoesTo (.nop i) i s (s.pcOf i.who + 4) ∧
    Completes (.call i off) s (((s.countInstr i.who).setReg (issuerNum i.who)
      (match i.who with | .thr _ => 31 | .seq _ => 15) (BitVec.ofNat 64 (s.pcOf i.who + 4))).setPc i.who target)) ∧
  (∀ (i : Issue) (ga : BitVec 5) (s : State), Issues s i .both [ga] →
    (s.val i ga).toNat % 4 = 0 → (s.val i ga).toNat < 65536 →
    GoesTo (.jr i ga) i s (s.val i ga).toNat) ∧
  (∀ (i : Issue) (gd ga : BitVec 5) (s : State), Issues s i .both [ga, gd] →
    (s.val i ga).toNat % 4 = 0 → (s.val i ga).toNat < 65536 →
    Completes (.jalr i gd ga) s (((s.countInstr i.who).setReg (issuerNum i.who) gd.toNat
      (BitVec.ofNat 64 (s.pcOf i.who + 4))).setPc i.who (s.val i ga).toNat)) ∧
  (∀ (i : Issue) (gd : BitVec 5) (s : State), Issues s i .both [gd] →
    WritesReg (.rdtm i gd) i s gd (BitVec.ofNat 64 (s.time.tbm / 2 ^ 32)) ∧
    WritesReg (.rdid i gd) i s gd (match i.who with | .thr t => BitVec.ofNat 64 t.val | .seq n => BitVec.ofNat 64 (64 + n.val)))

/-- An illegal word, JR to an address that is no multiple of 4, and a word store past LM have no architectural effect: the
task ends as by a fault, the thread halts with registers, pw and pc kept, and the cluster's exception source is
counted (where its class enters at no level). (R43, R44, R58) -/
def Obligations.Exceptions : Prop :=
  (∀ (t : Fin 512) (i : Issue) (ga : BitVec 5) (s : State), i.who = .thr t → Issues s i .both [ga] →
    (((s.countInstr i.who).haltThread t.val)).countsOnly (384 + 4 * (t.val / 32)) = true →
    Completes (.illegalInstruction i) s
      (((s.countInstr i.who).haltThread t.val).counted (384 + 4 * (t.val / 32))) ∧
    ((s.val i ga).toNat % 4 ≠ 0 →
      Completes (.jr i ga) s (((s.countInstr i.who).haltThread t.val).counted (384 + 4 * (t.val / 32))))) ∧
  (∀ (t : Fin 512) (i : Issue) (gd ga : BitVec 5) (off : BitVec 14) (s : State), i.who = .thr t →
    Issues s i .both [gd, ga] → s.addrOf i ga off % 4 = 0 → 0x10000 < s.addrOf i ga off + 4 →
    ((s.countInstr i.who).haltThread t.val).countsOnly (384 + 4 * (t.val / 32)) = true →
    Completes (.stw i gd ga 0 off) s
      (((s.countInstr i.who).haltThread t.val).counted (384 + 4 * (t.val / 32)))) ∧
  (∀ (t : Nat) (s : State), (s.haltThread t).yal.g = s.yal.g ∧ (s.haltThread t).yal.pw = s.yal.pw ∧
    (s.haltThread t).gm = s.gm ∧ ((s.haltThread t).thread t).st = .halt ∧
    ((s.haltThread t).thread t).pc = (s.thread t).pc)

/-- Each of the seven loads, from LM in a thread and from SD in a sequencer, at an aligned address inside the space,
writes its value to gd, zero- or sign-extended, and changes nothing else. A store to LM changes its bytes and no other
byte of any memory; a store to another space waits in the thread's store buffer and changes no memory; no register and
no register word of the control window changes. (R33, R35, R66) -/
def Obligations.LoadsAndStores : Prop :=
  LoadsLm .ldb 1 (BitVec.ofNat 64) ∧ LoadsLm .ldh 2 (BitVec.ofNat 64) ∧ LoadsLm .ldw 4 (BitVec.ofNat 64) ∧
  LoadsLm .ldd 8 (BitVec.ofNat 64) ∧
  LoadsLm .ldbs 1 (fun v => (BitVec.ofNat 8 v).signExtend 64) ∧
  LoadsLm .ldhs 2 (fun v => (BitVec.ofNat 16 v).signExtend 64) ∧
  LoadsLm .ldws 4 (fun v => (BitVec.ofNat 32 v).signExtend 64) ∧
  LoadsSd .ldb 1 (BitVec.ofNat 64) ∧ LoadsSd .ldh 2 (BitVec.ofNat 64) ∧ LoadsSd .ldw 4 (BitVec.ofNat 64) ∧
  LoadsSd .ldd 8 (BitVec.ofNat 64) ∧
  LoadsSd .ldbs 1 (fun v => (BitVec.ofNat 8 v).signExtend 64) ∧
  LoadsSd .ldhs 2 (fun v => (BitVec.ofNat 16 v).signExtend 64) ∧
  LoadsSd .ldws 4 (fun v => (BitVec.ofNat 32 v).signExtend 64) ∧
  StoresLm .stb 1 ∧ StoresLm .sth 2 ∧ StoresLm .stw 4 ∧ StoresLm .std 8 ∧
  StoresLater .stb 1 ∧ StoresLater .sth 2 ∧ StoresLater .stw 4 ∧ StoresLater .std 8

/-- In a thread that issues normally: AADD and ASWP with space code 0, at an address that is a multiple of 8 and with its
8 bytes inside LM, read without error, put the sum of memory and gd (or gd) into those 8 bytes, give gd the old value
and move to the next word, and nothing else changes; with a space code of 1 to 3 they halt the thread and its
exception source is counted, where its class enters at no level. PWL loads 1, 2, 4 or 8 bytes of the thread's window
at any address whose last byte lies below 512, little- or big-endian, zero- or sign-extended, into gd; PWS stores the
low bytes of gd there in either order; each moves to the next word and nothing else changes. Beyond 512 both halt the
thread as above. (R67, R68) -/
def Obligations.AtomicsAndWindow : Prop :=
  (∀ (t : Fin 512) (i : Issue) (gd ga : BitVec 5) (off : BitVec 14) (s : State), i.who = .thr t →
    Issues s i .p [gd, ga] →
    let a := 0x10000 * (t.val / 8) + s.addrOf i ga off
    let old := memNat s.yal.lm a 8
    let c := s.countInstr i.who
    let puts := fun (v : Nat) =>
      s.advance (({ c with yal := { c.yal with lm := memPutNat c.yal.lm a 8 v } } : State).setReg t.val gd.toNat (BitVec.ofNat 64 old)) i
    let halted := (c.haltThread t.val).counted (384 + 4 * (t.val / 32))
    (s.addrOf i ga off % 8 = 0 → s.addrOf i ga off + 8 ≤ 0x10000 →
      Completes (.aadd i gd ga 0 off .good) s (puts ((old + (s.val i gd).toNat) % 2 ^ 64)) ∧
      Completes (.aswp i gd ga 0 off .good) s (puts (s.val i gd).toNat)) ∧
    (∀ (sp : Fin 4) (k : Check), sp ≠ 0 → (c.haltThread t.val).countsOnly (384 + 4 * (t.val / 32)) = true →
      Completes (.aadd i gd ga sp off k) s halted ∧ Completes (.aswp i gd ga sp off k) s halted)) ∧
  (∀ (t : Fin 512) (i : Issue) (gd ga : BitVec 5) (off : BitVec 9) (size : Fin 4) (be sgn : Bool) (s : State), i.who = .thr t →
    Issues s i .p [gd, ga] →
    let a := (s.val i ga + off.zeroExtend 64).toNat
    let n := 2 ^ size.val
    let bs := memBytes s.yal.pw (512 * t.val + a) n
    let v := if be = true then beNat bs else leNat bs
    let gets := if sgn = true then (BitVec.ofNat (8 * n) v).signExtend 64 else BitVec.ofNat 64 v
    let out := natLe (s.val i gd).toNat n
    let c := s.countInstr i.who
    let halted := (c.haltThread t.val).counted (384 + 4 * (t.val / 32))
    (a + n ≤ 512 →
      WritesReg (.pwl i gd ga off size be sgn) i s gd gets ∧
      Completes (.pws i gd ga off size be) s (s.advance ({ c with yal :=
        { c.yal with pw := memPutBytes c.yal.pw (512 * t.val + a) (if be = true then out.reverse else out) } } : State) i)) ∧
    (512 < a + n → (c.haltThread t.val).countsOnly (384 + 4 * (t.val / 32)) = true →
      Completes (.pwl i gd ga off size be sgn) s halted ∧ Completes (.pws i gd ga off size be) s halted))

/-- In a thread that issues normally, FENCE.D goes on where the thread's store buffer is empty and otherwise leaves the
thread waiting, and FENCE.X drops the XM lines of the unit's cache and goes on. Where no data cache holds a line, the
oldest store of a thread's buffer reaches its home memory (CM of its cluster, GM, or XM unless DRAM is lost) and
leaves the buffer; a FENCE.D that waited for it alone goes on, and a store that a full buffer held takes the place at
the end. The data of a GM load, zero- or sign-extended, reaches gd and the thread goes on at the next word; a lasting
error halts the thread and counts its ECC source, where the class enters at no level. In each case nothing else
changes. (R29, R34, R35, R36, R37, R43) -/
def Obligations.FencesAndReturns : Prop :=
  (∀ (t : Fin 512) (i : Issue) (s : State), i.who = .thr t → Issues s i .p [] →
    ((s.thread t.val).sbuf = [] → GoesTo (.fenceD i) i s (s.pcOf i.who + 4)) ∧
    ((s.thread t.val).sbuf ≠ [] → Completes (.fenceD i) s ((s.countInstr i.who).setThread t.val
      { (s.countInstr i.who).thread t.val with st := .wait .fenceD })) ∧
    Completes (.fenceX i) s (s.advance ((s.countInstr i.who).dropLines
      (fun l => l.unit == t.val / 8 && l.space == 3)) i)) ∧
  (∀ (t : Fin 512) (e : StoreEnt) (rest : List StoreEnt) (s : State), s.quiet = true →
    (s.thread t.val).sbuf = e :: rest → s.yal.dcache = [] → (e.space = 1 ∨ e.space = 2 ∨ e.space = 3 ∧ s.xmDead = false) →
    let u := if e.space = 1 then { s with yal := { s.yal with cm := memPutBytes s.yal.cm (0x100000 * (t.val / 32) + e.addr) e.bytes } }
      else if e.space = 2 then { s with gm := memPutBytes s.gm e.addr e.bytes }
      else { s with xm := memPutBytes s.xm e.addr e.bytes }
    let th := { s.thread t.val with sbuf := rest }
    let next := ((s.thread t.val).pc + 4) % 0x10000
    ((s.thread t.val).st = .run → Completes (.storeBufferDrain t) s (u.setThread t.val th)) ∧
    ((s.thread t.val).st = .wait .fenceD → rest = [] → Completes (.storeBufferDrain t) s (u.setThread t.val { th with st := .run, pc := next })) ∧
    (∀ w : StoreEnt, (s.thread t.val).st = .wait (.store w) →
      Completes (.storeBufferDrain t) s (u.setThread t.val { th with sbuf := rest ++ [w], st := .run, pc := next }))) ∧
  (∀ (t : Fin 512) (gd a n : Nat) (sgn : Bool) (s : State), s.quiet = true →
    (s.thread t.val).st = .wait (.load gd 2 a n sgn []) →
    let v := memNat s.gm a n
    let th := { s.thread t.val with st := .run, pc := ((s.thread t.val).pc + 4) % 0x10000 }
    Completes (.loadResult t .good) s ((s.setReg t.val gd
      (if sgn = true then (BitVec.ofNat (8 * n) v).signExtend 64 else BitVec.ofNat 64 v)).setThread t.val th) ∧
    ((s.haltThread t.val).countsOnly (386 + 4 * (t.val / 32)) = true →
      Completes (.loadResult t .lasting) s ((s.haltThread t.val).counted (386 + 4 * (t.val / 32)))))

/-- Every instruction, with every operand at every value of its field, is what the word made by its format, opcode and
code is read as; two words that are read as one instruction are one word, so that no bit of a word is dropped; and the
zero word, as any with a reserved opcode, is no instruction. (R57, R58, R59, R61, R63, R64, R65, R66, R68, R73, R84) -/
def Obligations.InstructionWords : Prop :=
  (∀ (i : Issue) (x : Met) (gd ga gb : BitVec 5) (imm : BitVec 16) (pos len : BitVec 6) (k : BitVec 2) (off : BitVec 14) (win : BitVec 9)
     (to' : BitVec 21) (lim : BitVec 10) (sp rep : Fin 4) (slot : Fin 2) (tab : Fin 7) (tb : Fin 5) (n8 : Fin 8) (p q : Bool),
    (let w := fun (fn : Nat) => decodeYalvo i x (wordA 0x01 gd.toNat ga.toNat gb.toNat fn)
     w 0x00 = some (.add i gd ga gb) ∧
     w 0x01 = some (.sub i gd ga gb) ∧
     w 0x02 = some (.and i gd ga gb) ∧
     w 0x03 = some (.or i gd ga gb) ∧
     w 0x04 = some (.xor i gd ga gb) ∧
     w 0x05 = some (.andn i gd ga gb) ∧
     w 0x06 = some (.sll i gd ga gb) ∧
     w 0x07 = some (.srl i gd ga gb) ∧
     w 0x08 = some (.sra i gd ga gb) ∧
     w 0x09 = some (.mul i gd ga gb) ∧
     w 0x0A = some (.mulhu i gd ga gb) ∧
     w 0x0B = some (.divu i gd ga gb) ∧
     w 0x0C = some (.remu i gd ga gb) ∧
     w 0x0D = some (.div i gd ga gb) ∧
     w 0x0E = some (.rem i gd ga gb) ∧
     w 0x0F = some (.min i gd ga gb) ∧
     w 0x10 = some (.max i gd ga gb) ∧
     w 0x11 = some (.minu i gd ga gb) ∧
     w 0x12 = some (.maxu i gd ga gb) ∧
     w 0x13 = some (.ceq i gd ga gb) ∧
     w 0x14 = some (.cne i gd ga gb) ∧
     w 0x15 = some (.clt i gd ga gb) ∧
     w 0x16 = some (.cltu i gd ga gb) ∧
     w 0x1C = some (.csum i gd ga gb)) ∧
    (let w := fun (fn : Nat) => decodeYalvo i x (wordA 0x01 gd.toNat ga.toNat 0 fn)
     w 0x17 = some (.clz i gd ga) ∧
     w 0x18 = some (.ctz i gd ga) ∧
     w 0x19 = some (.popc i gd ga) ∧
     w 0x1A = some (.bswap i gd ga) ∧
     w 0x1B = some (.bswap32 i gd ga)) ∧
    (let w := fun (op : Nat) => decodeYalvo i x (wordI op gd.toNat ga.toNat imm.toNat)
     w 0x02 = some (.addi i gd ga imm) ∧
     w 0x03 = some (.andi i gd ga imm) ∧
     w 0x04 = some (.ori i gd ga imm) ∧
     w 0x05 = some (.xori i gd ga imm) ∧
     w 0x07 = some (.ceqi i gd ga imm) ∧
     w 0x08 = some (.clti i gd ga imm) ∧
     w 0x09 = some (.cltui i gd ga imm)) ∧
    (let w := fun (kind : Nat) => decodeYalvo i x (wordI 0x06 gd.toNat ga.toNat (64 * kind + pos.toNat))
     w 0 = some (.shiSll i gd ga pos) ∧
     w 1 = some (.shiSrl i gd ga pos) ∧
     w 2 = some (.shiSra i gd ga pos) ∧
     w 3 = some (.shiRor i gd ga pos)) ∧
    decodeYalvo i x (wordI 0x0A gd.toNat 0 imm.toNat) = some (.lui i gd imm) ∧
    decodeYalvo i x (wordI 0x0B gd.toNat ga.toNat (64 * len.toNat + pos.toNat)) = some (.ext i gd ga pos len) ∧
    decodeYalvo i x (wordI 0x0C gd.toNat ga.toNat (64 * len.toNat + pos.toNat)) = some (.ins i gd ga pos len) ∧
    decodeYalvo i x (wordI 0x0D gd.toNat k.toNat imm.toNat) = some (.movk i gd k imm) ∧
    (let w := fun (op : Nat) => decodeYalvo i x (wordM op gd.toNat ga.toNat sp.val off.toNat)
     w 0x10 = some (.ldb i gd ga sp off x.mem) ∧
     w 0x11 = some (.ldh i gd ga sp off x.mem) ∧
     w 0x12 = some (.ldw i gd ga sp off x.mem) ∧
     w 0x13 = some (.ldd i gd ga sp off x.mem) ∧
     w 0x14 = some (.ldbs i gd ga sp off x.mem) ∧
     w 0x15 = some (.ldhs i gd ga sp off x.mem) ∧
     w 0x16 = some (.ldws i gd ga sp off x.mem) ∧
     w 0x18 = some (.stb i gd ga sp off) ∧
     w 0x19 = some (.sth i gd ga sp off) ∧
     w 0x1A = some (.stw i gd ga sp off) ∧
     w 0x1B = some (.std i gd ga sp off) ∧
     w 0x1C = some (.aadd i gd ga sp off x.mem) ∧
     w 0x1D = some (.aswp i gd ga sp off x.mem)) ∧
    decodeYalvo i x (wordI 0x1E gd.toNat ga.toNat (4096 * b2n q + 2048 * b2n p + 512 * sp.val + win.toNat)) =
      some (.pwl i gd ga win sp p q) ∧
    decodeYalvo i x (wordI 0x1F gd.toNat ga.toNat (2048 * b2n p + 512 * sp.val + win.toNat)) = some (.pws i gd ga win sp p) ∧
    (let w := fun (op : Nat) => decodeYalvo i x (wordB op ga.toNat to'.toNat)
     w 0x20 = some (.bz i ga to') ∧
     w 0x21 = some (.bnz i ga to') ∧
     w 0x22 = some (.bltz i ga to') ∧
     w 0x23 = some (.bgez i ga to')) ∧
    decodeYalvo i x (wordB 0x24 0 to'.toNat) = some (.bra i to') ∧
    decodeYalvo i x (wordB 0x25 0 to'.toNat) = some (.call i to') ∧
    decodeYalvo i x (wordA 0x26 0 ga.toNat 0 0) = some (.jr i ga) ∧
    decodeYalvo i x (wordA 0x26 gd.toNat ga.toNat 0 1) = some (.jalr i gd ga) ∧
    decodeYalvo i x (wordA 0x27 0 0 0 0) = some (.nop i) ∧
    decodeYalvo i x (wordA 0x27 0 0 0 1) = some (.fenceD i) ∧
    decodeYalvo i x (wordA 0x27 0 0 0 2) = some (.fenceX i) ∧
    decodeYalvo i x (wordA 0x27 gd.toNat 0 0 3) = some (.rdtm i gd) ∧
    decodeYalvo i x (wordA 0x27 gd.toNat 0 0 4) = some (.rdid i gd) ∧
    decodeYalvo i x (wordI 0x28 0 ga.toNat (4 * tab.val + sp.val)) = some (.lkup i ga sp tab) ∧
    decodeYalvo i x (wordI 0x29 0 ga.toNat sp.val) = some (.ciph i ga sp) ∧
    decodeYalvo i x (wordI 0x2A 0 ga.toNat sp.val) = some (.pmat i ga sp) ∧
    decodeYalvo i x (wordI 0x2B gd.toNat 0 sp.val) = some (.waitop i gd sp) ∧
    decodeYalvo i x (wordI 0x2C 0 0 0) = some (.yield i) ∧
    decodeYalvo i x (wordI 0x2D gd.toNat ga.toNat 0) = some (.ordr i gd ga) ∧
    decodeYalvo i x (wordI 0x2E gd.toNat ga.toNat 0) = some (.emit i gd ga) ∧
    decodeYalvo i x (wordI 0x2F gd.toNat ga.toNat (2 * b2n q + b2n p)) = some (.fork i gd ga p q) ∧
    decodeYalvo i x (wordA 0x30 gd.toNat ga.toNat gb.toNat sp.val) = some (.waitph i gd ga gb sp) ∧
    decodeYalvo i x (wordA 0x31 gd.toNat ga.toNat 0 tb.val) = some (.waitt i gd ga tb) ∧
    decodeYalvo i x (wordA 0x32 gd.toNat ga.toNat gb.toNat 0) = some (.bin i gd ga gb) ∧
    decodeYalvo i x (wordI 0x33 gd.toNat ga.toNat (1024 * k.toNat + lim.toNat)) = some (.pick i gd ga lim k x.bad) ∧
    (let w := fun (kind : Nat) => decodeYalvo i x (wordI 0x34 gd.toNat ga.toNat (2 * kind + slot.val))
     w 0 = some (.buildSu i gd ga slot x.fits x.gcm x.reads) ∧
     w 1 = some (.buildMu i gd ga slot x.fits x.gcm x.reads) ∧
     w 2 = some (.buildTrigger i gd ga slot x.fits x.gcm x.reads) ∧
     w 3 = some (.buildPip i gd ga slot)) ∧
    decodeYalvo i x (wordA 0x35 gd.toNat ga.toNat gb.toNat (2 * n8.val + slot.val)) = some (.launch i gd ga gb slot n8) ∧
    decodeYalvo i x (wordA 0x36 gd.toNat ga.toNat gb.toNat slot.val) = some (.trig i gd ga gb slot) ∧
    decodeYalvo i x (wordI 0x37 gd.toNat 0 slot.val) = some (.undo i gd slot) ∧
    decodeYalvo i x (wordI 0x38 gd.toNat ga.toNat (8 * b2n p + n8.val)) = some (.gain i gd ga n8 p) ∧
    decodeYalvo i x (wordA 0x39 gd.toNat ga.toNat gb.toNat (4 * rep.val + sp.val)) = some (.listen i gd ga gb sp rep) ∧
    decodeYalvo i x (wordI 0x3A gd.toNat ga.toNat 0) = some (.beacon i gd ga) ∧
    decodeYalvo i x (wordI 0x3B gd.toNat 0 0) = some (.skip i gd)) ∧
  (∀ (i : Issue) (x : Met) (v w : Nat) (c : Instr), v < 2 ^ 32 → w < 2 ^ 32 → decodeYalvo i x v = some c → decodeYalvo i x w = some c → v = w) ∧
  (∀ (i : Issue) (x : Met) (w : Nat), bits w 31 26 ∈ [0x00, 0x0E, 0x0F, 0x17, 0x3C, 0x3D, 0x3E, 0x3F] → decodeYalvo i x w = none) ∧
  (∀ (i : Issue) (x : Met) (s : State), s.wordAtPc i.who = 0 → s.fetched i x = none)

/-- In a thread that issues normally with the named slot empty: LKUP with its key inside LM copies the key bytes of its
table, submits the lookup and marks the slot outstanding; PMAT of a held packet with a match number below 2,048 sends
the word of R77 to the slot and marks it outstanding; CIPH with its 32-byte descriptor inside LM marks the slot
outstanding and queues the job, or, where the engine is in alarm, the slot is not loaded or the engine has halted,
sends the status word 7, 3 or 6 to the slot and counts a refusal of code 3 and an error of code 6. WAITOP moves a
result that has arrived to gd and empties the slot, and leaves the thread waiting while it is outstanding. A slot that
is not empty (for WAITOP one that is), a key or descriptor past LM, PMAT without a packet or with a match number of
2,048 and more halt the thread and count its exception source, where its class enters at no level. Nothing else
changes. (R40, R73, R76, R77, R78) -/
def Obligations.AcceleratorRequests : Prop :=
  (∀ (t : Fin 512) (i : Issue) (ga : BitVec 5) (slot : Fin 4) (s : State), i.who = .thr t → Issues s i .p [ga] →
    let a := (s.val i ga).toNat
    let c := s.countInstr i.who
    let u := c.setSlot t.val slot.val .outstanding
    let dest := s.slotDest t.val slot.val
    let keyBytes := fun (table : Fin 7) => [8, 4, 16, 40, 4, 16, 4].getD table.val 0
    let halted := (c.haltThread t.val).counted (384 + 4 * (t.val / 32))
    let mayHalt := (c.haltThread t.val).countsOnly (384 + 4 * (t.val / 32)) = true
    (s.slotOf t.val slot.val = .empty →
      (∀ table : Fin 7, a + keyBytes table ≤ 0x10000 →
        Completes (.lkup i ga slot table) s (s.advance { u with ept := { u.ept with lookups := s.ept.lookups ++
          [⟨dest, table.val, memBytes s.yal.lm (0x10000 * (t.val / 8) + a) (keyBytes table)⟩] } } i)) ∧
      (∀ p : Packet, (s.thread t.val).held = some p → a < 2048 →
        let word := match p.hits[a]? with
          | some h => BitVec.ofNat 64 (h.1 % 2048 + h.2 % 1024 * 2 ^ 11 + min 2047 p.pcount * 2 ^ 21 + 2 ^ 32)
          | none => BitVec.ofNat 64 (min 2047 p.pcount * 2 ^ 21)
        Completes (.pmat i ga slot) s (s.advance { u with yal := { u.yal with arriving := s.yal.arriving ++
          [⟨dest, word, none⟩] } } i)) ∧
      (a + 32 ≤ 0x10000 →
        let d := memBytes s.yal.lm (0x10000 * (t.val / 8) + a) 32
        let j := descJob d (.program dest (t.val / 128))
        (s.badDesc d = false → s.slotRefusal j.op j.slot useProgram = none →
          Completes (.ciph i ga slot) s (s.advance (u.queueJob j) i)) ∧
        (s.on F.CIP_CTL_ALARM = true → Completes (.ciph i ga slot) s (s.advance (u.arrive dest 7) i)) ∧
        (s.badDesc d = false → s.slotRefusal j.op j.slot useProgram = some 3 →
          Completes (.ciph i ga slot) s (s.advance ((u.bump F.CIP_CNT2_REFUSED 1).arrive dest 3) i)) ∧
        (s.badDesc d = false → s.slotRefusal j.op j.slot useProgram = some 6 →
          Completes (.ciph i ga slot) s (s.advance ((u.bump F.CIP_CNT2_MEMERR 1).arrive dest 6) i))) ∧
      (mayHalt → ∀ table : Fin 7, 0x10000 < a + keyBytes table → Completes (.lkup i ga slot table) s halted) ∧
      (mayHalt → 0x10000 < a + 32 → Completes (.ciph i ga slot) s halted) ∧
      (mayHalt → (s.thread t.val).held = none ∨ 2048 ≤ a → Completes (.pmat i ga slot) s halted)) ∧
    (s.slotOf t.val slot.val ≠ .empty → mayHalt →
      Completes (.ciph i ga slot) s halted ∧ Completes (.pmat i ga slot) s halted ∧
      ∀ table : Fin 7, Completes (.lkup i ga slot table) s halted)) ∧
  (∀ (t : Fin 512) (i : Issue) (gd : BitVec 5) (slot : Fin 4) (s : State), i.who = .thr t → Issues s i .p [gd] →
    let c := s.countInstr i.who
    (∀ v : DWord, s.slotOf t.val slot.val = .result v →
      Completes (.waitop i gd slot) s (s.advance ((c.setSlot t.val slot.val .empty).setReg t.val gd.toNat v) i)) ∧
    (s.slotOf t.val slot.val = .outstanding →
      Completes (.waitop i gd slot) s (c.setThread t.val { c.thread t.val with st := .wait (.operand gd.toNat slot.val) })) ∧
    (s.slotOf t.val slot.val = .empty → (c.haltThread t.val).countsOnly (384 + 4 * (t.val / 32)) = true →
      Completes (.waitop i gd slot) s ((c.haltThread t.val).counted (384 + 4 * (t.val / 32)))))

/-- YIELD ends the task: the thread idles with empty slots, its locks are given up, and a packet still held is counted in
NOEMIT_DROPS. ORDR with g0 in an ordered flow releases the place with no output. EMIT passes the packet with pw as its
new head to its egress, whose level rises by one. (R41, R79, R80, R82) -/
def Obligations.TaskEndAndEgress : Prop :=
  (∀ (t : Fin 512) (i : Issue) (k : Task) (p : Packet) (s : State), i.who = .thr t → Issues s i .p [] →
    (s.thread t.val).task = some k → (s.thread t.val).held = some p → (s.thread t.val).cpin = none →
    (s.thread t.val).pins = [] → k.ordered = false →
    Answers (.yield i) s (fun u =>
      (u.thread t.val).st = .idle ∧ (u.thread t.val).task = none ∧ (u.thread t.val).held = none ∧
      (u.thread t.val).slots = [.empty, .empty, .empty, .empty] ∧ (u.thread t.val).sbuf = (s.thread t.val).sbuf ∧
      u.hts.locks = s.hts.locks.filter (fun l => l.2.2 != t.val) ∧ u.hts.tasks = s.hts.tasks ∧
      u.get F.YCU_NOEMIT_DROPS_COUNT = min (2 ^ 32 - 1) (s.get F.YCU_NOEMIT_DROPS_COUNT + 1) ∧
      u.get F.YCU_FAULT_DROPS_COUNT = s.get F.YCU_FAULT_DROPS_COUNT ∧
      u.yal.g = s.yal.g ∧ u.yal.lm = s.yal.lm ∧ u.gm = s.gm)) ∧
  (∀ (t : Fin 512) (i : Issue) (k : Task) (s : State), i.who = .thr t →
    (s.thread t.val).task = some k → k.ordered = true → (s.thread t.val).ordr = false →
    (∀ ga : BitVec 5, Issues s i .p [0, ga] →
      Completes (.ordr i 0 ga) s (s.advance (((s.countInstr i.who).setThread t.val
        { (s.countInstr i.who).thread t.val with ordr := true }).placeDone k.id none) i))) ∧
  (∀ (t : Fin 512) (i : Issue) (gd ga : BitVec 5) (p : Packet) (s : State), i.who = .thr t → Issues s i .p [gd, ga] →
    (s.thread t.val).held = some p → s.val i gd = handleOf p →
    let w := egWord (s.val i ga)
    validEgWord w p.bytes.length (s.get F.FED_ID_ID) = true →
    let q := rewrite p (memBytes s.yal.pw (512 * t.val) 512) w.h w.c
    let u := (s.countInstr i.who).dropHeld t.val
    (w.kind = 6 → Completes (.emit i gd ga) s (s.advance { u with recirc := s.recirc ++ [{ q with start := w.target }] } i)) ∧
    (w.kind < 6 → s.get (F.HTS_EG_BP_MAX w.kind) = 0 → s.get (F.HTS_EG_BP_ON w.kind) = 1 →
      u.portDrop { kind := w.kind, target := w.target, tc := w.tc, pkt := q } = none →
      Completes (.emit i gd ga) s (s.advance
        (({ u with hts := { u.hts with egress := s.hts.egress ++ [{ kind := w.kind, target := w.target, tc := w.tc, pkt := q }] } } : State).put
          (F.HTS_EG_LVL_PKTS w.kind) (s.get (F.HTS_EG_LVL_PKTS w.kind) + 1)) i)))

/-- FORK in a thread that issues normally, with a good flow word, the packet it passes held and the creation pin it passes
held: where the slice takes the task, the task of the flow word joins the store with the next creation number and,
when ordered, a place; gd reads 0, a packet or pin that it passes leaves the issuing task, g3 reads 0 when the pin
passes. Where the slice refuses, nothing passes, gd reads 1, FORKREF counts and source 369 is counted at most once a
second (where its class enters at no level). A bad flow word, a packet or a pin that is not held halts the thread and
counts its exception source. A GO in INJ_CTL does the same with the requester's staging registers, no packet and no
pin: ACC reads 1, or 0 with INJREF counted, or ERR reads 1 for a bad flow word. (R71, R83, R84, R314, R327) -/
def Obligations.TaskCreation : Prop :=
  (∀ (t : Fin 512) (i : Issue) (gd ga : BitVec 5) (pk pn : Bool) (k : Task) (s : State), i.who = .thr t →
    Issues s i .p [gd, ga] → (s.thread t.val).task = some k →
    let c := s.countInstr i.who
    let th := s.thread t.val
    let w := flowWord (s.val i ga).toNat
    let p := if pk = true then th.held else none
    let bad := pk = true ∧ th.held = none ∨ pn = true ∧ th.cpin = none ∨ badFlow w (p.map (fun q => q.bytes.length)) = true
    let r := s.liveRegion (if w.expl = true then w.region else k.region)
    let n := taskOf w r (p.map (fun q => rewrite q (memBytes s.yal.pw (512 * t.val) 512) w.h w.c))
      (if pn = true then th.cpin.map (fun e => (e, k.op1)) else none) (s.val i gd)
    let made := { n with id := s.hts.nextId, made := s.now, since := s.now }
    let place : Place := { task := s.hts.nextId, tag := n.tag, region := r, cluster := (s.homeCluster r n.tag).getD (4 * r) }
    let refused := (c.bump F.HTS_CNT_FORKREF 1)
    let last := tabGet (fun _ => 0) s.flt.last 369
    (bad → (c.haltThread t.val).countsOnly (384 + 4 * (t.val / 32)) = true →
      Completes (.fork i gd ga pk pn) s ((c.haltThread t.val).counted (384 + 4 * (t.val / 32)))) ∧
    (¬ bad → c.refuses .fork n = false →
      let u : State := { c with hts := { s.hts with
        nextId := s.hts.nextId + 1
        tasks := s.hts.tasks ++ [made]
        places := if n.ordered = true then s.hts.places ++ [place] else s.hts.places } }
      let u := u.setThread t.val { u.thread t.val with
        held := if pk = true then none else th.held
        cpin := if pn = true then none else th.cpin }
      let u := if pn = true then u.setReg t.val 3 0 else u
      Completes (.fork i gd ga pk pn) s (s.advance (u.setReg t.val gd.toNat 0) i)) ∧
    (¬ bad → c.refuses .fork n = true → last ≠ 0 → s.now < last - 1 + 1000000000 →
      Completes (.fork i gd ga pk pn) s (s.advance (refused.setReg t.val gd.toNat 1) i)) ∧
    (¬ bad → c.refuses .fork n = true → (last = 0 ∨ last - 1 + 1000000000 ≤ s.now) →
      let u := s.advance (({ refused with flt := { s.flt with last := tabSet (fun _ => 0) s.flt.last 369 (s.now + 1) } } : State).setReg
        t.val gd.toNat 1) i
      u.countsOnly 369 = true → Completes (.fork i gd ga pk pn) s (u.counted 369))) ∧
  (∀ (who : Fin 4) (v : Word) (s : State), s.takes who.val 5 = true →
    let w := flowWord (s.get (F.HTS_INJ_FLOW_FLOW who.val))
    let r := if w.expl = true then w.region else s.regmap (w.tag / 2 ^ 24)
    let n := taskOf w r none none (BitVec.ofNat 64 (s.get (F.HTS_INJ_VAL_VAL who.val)))
    let u := s.put (F.HTS_INJ_CTL_ERR who.val) 0
    let no := (u.put (F.HTS_INJ_CTL_ACC who.val) 0).bump F.HTS_CNT_INJREF 1
    let last := tabGet (fun _ => 0) s.flt.last 370
    (w.rest ≠ 0 ∨ w.h ≠ 0 ∨ w.c ≠ 0 →
      Completes (.taskInject who v) s ((s.put (F.HTS_INJ_CTL_ERR who.val) 1).put (F.HTS_INJ_CTL_ACC who.val) 0)) ∧
    (w.rest = 0 → w.h = 0 → w.c = 0 → u.refuses .injection n = false →
      let place : Place := { task := s.hts.nextId, tag := n.tag, region := r, cluster := (s.homeCluster r n.tag).getD (4 * r) }
      Completes (.taskInject who v) s (({ u with hts := { s.hts with
        nextId := s.hts.nextId + 1
        tasks := s.hts.tasks ++ [{ n with id := s.hts.nextId, made := s.now, since := s.now }]
        places := if n.ordered = true then s.hts.places ++ [place] else s.hts.places } } : State).put (F.HTS_INJ_CTL_ACC who.val) 1)) ∧
    (w.rest = 0 → w.h = 0 → w.c = 0 → u.refuses .injection n = true → last ≠ 0 → s.now < last - 1 + 1000000000 →
      Completes (.taskInject who v) s no) ∧
    (w.rest = 0 → w.h = 0 → w.c = 0 → u.refuses .injection n = true → (last = 0 ∨ last - 1 + 1000000000 ≤ s.now) →
      let x : State := { no with flt := { s.flt with last := tabSet (fun _ => 0) s.flt.last 370 (s.now + 1) } }
      x.countsOnly 370 = true → Completes (.taskInject who v) s (x.counted 370)))

/-- The task chosen for a cluster starts on the idle thread picked: g1 to g7 as R30 says, every other register 0, the pc
at the entry word of its class, slots empty, and it leaves the task store; a cluster of a halted or unpowered slice,
or with no task to start, starts none. The place whose turn has come in a cluster leaves the buffer where no place of
the cluster waits outside it: one without output, or whose read failed for good (LOST counts, and source 353 + 4r of
its region where the class enters at no level), sends nothing; an output for the parser is recirculated. A CLMAP write
is held pending, and applies when no place and no lock is held, not before. A flush of regions frees exactly the
undispatched tasks of those regions and counts each in LOST, and no register, local memory or Granary byte changes. A
waiting task with both operands that is still undispatched STARVE microseconds after it became ready is marked, and
source 354 + 4r is counted (where its class enters at no level). A write of EG_BP stores its thresholds, and ON rises
with source 371 counted, falls or stays as the level compares with them. (R30, R318, R319, R321, R322, R325, R329) -/
def Obligations.SchedulerCommands : Prop :=
  (∀ (c : Fin 16) (pick id : Nat) (w : Check) (s : State),
    Settles (.taskDispatch c pick w) s (s.dispatch c.val pick w) ∧
    (s.running (clusterDomain c.val) = true → Settles (.orderedRelease c w) s (s.orderedRelease c.val w)) ∧
    (s.quiet = true → s.domOn (clusterDomain c.val) = false → Completes (.orderedRelease c w) s s) ∧
    (s.quiet = true → s.stopped = true ∨ s.sliceHalted (c.val / 4) = true ∨ s.sliceOn (c.val / 4) = false ∨ s.nextTask c.val = none →
      Completes (.taskDispatch c pick w) s s) ∧
    (s.quiet = true → s.domOn 5 = false ∨ s.hts.clmapPend = none → Completes .clmapApply s s) ∧
    (s.quiet = true → s.domOn 5 = false ∨ s.hts.tasks.find? (fun j => j.id == id) = none → Completes (.starveTimeout id) s s)) ∧
  (∀ (c : Fin 16) (pick t un : Nat) (k : Task) (s : State), s.quiet = true → s.stopped = false →
     s.sliceHalted (c.val / 4) = false → s.sliceOn (c.val / 4) = true → s.nextTask c.val = some k →
     s.chooseUnit c.val k.tag = some un → pick < (s.idleThreads un).length → (s.idleThreads un).getD pick 0 = t →
     Answers (.taskDispatch c pick .good) s (fun u =>
       (u.thread t).st = .run ∧ (u.thread t).task = some k ∧ (u.thread t).held = k.pkt ∧
       (u.thread t).slots = [.empty, .empty, .empty, .empty] ∧ (u.thread t).ordr = false ∧ (u.thread t).instrs = 0 ∧
       (u.thread t).pc = memNat s.yal.im (0x10000 * (t / 8) + 4 * k.cls) 4 % 0x10000 ∧
       u.reg t 1 = BitVec.ofNat 64 (k.tag + b2n k.atomic * 2 ^ 32 + b2n k.ordered * 2 ^ 33) ∧
       u.reg t 2 = (match k.pkt with | some p => handleOf p | none => 0) ∧
       u.reg t 3 = BitVec.ofNat 64 k.op1 ∧ u.reg t 4 = BitVec.ofNat 64 k.op2 ∧ u.reg t 5 = BitVec.ofNat 64 k.op3 ∧
       u.reg t 6 = BitVec.ofNat 64 (k.mask % 16 + k.cls * 16) ∧
       u.reg t 7 = BitVec.ofNat 64 (match k.pkt with | some p => p.stamp | none => k.made) ∧
       (∀ r, 8 ≤ r → r < 32 → u.reg t r = 0) ∧
       u.hts.tasks = s.hts.tasks.filter (fun j => j.id != k.id) ∧
       (k.atomic = true → u.hts.locks = s.hts.locks ++ [(c.val, k.tag, t)]) ∧
       u.yal.lm = s.yal.lm ∧ u.yal.cm = s.yal.cm ∧ u.xm = s.xm ∧ u.regs = s.regs)) ∧
  (∀ (c : Fin 16) (p : Place) (s : State), s.running (clusterDomain c.val) = true →
    releasable c.val s.hts.places [] = some p → (∀ q ∈ s.hts.places, q.cluster = c.val → q.parked = false) → p.cluster = c.val →
    let u : State := { s with hts := { s.hts with places := s.hts.places.filter (fun q => q.task != p.task) } }
    (p.out = none → Completes (.orderedRelease c .good) s u) ∧
    ((u.bump F.HTS_CNT2_LOST 1).countsOnly (353 + 4 * (c.val / 4)) = true →
      Completes (.orderedRelease c .lasting) s ((u.bump F.HTS_CNT2_LOST 1).counted (353 + 4 * (c.val / 4)))) ∧
    (∀ it : EgItem, p.out = some it → it.kind = 6 →
      Completes (.orderedRelease c .good) s { u with recirc := s.recirc ++ [{ it.pkt with start := it.target }] })) ∧
  (∀ (who : Fin 4) (j : Fin 16) (v : Word) (s : State), s.takes who.val 5 = true →
    Completes (.clmapWrite who j v) s
      (({ s with hts := { s.hts with clmapPend := some [(j.val, v.toNat)] } } : State).put F.HTS_CTL_CLMAP_PEND 1)) ∧
  (∀ (j v : Nat) (s : State), s.running 5 = true → s.hts.clmapPend = some [(j, v)] →
    (s.hts.places = [] → s.hts.locks = [] →
      Completes .clmapApply s (({ s.put (F.HTS_CLMAP_C j) v with hts := { s.hts with clmapPend := none } } : State).put
        F.HTS_CTL_CLMAP_PEND 0)) ∧
    (s.hts.places ≠ [] ∨ s.hts.locks ≠ [] → Completes .clmapApply s s)) ∧
  (∀ (who : Fin 4) (v : Word) (s : State), s.takes who.val 5 = true →
    let gone := s.hts.tasks.filter (fun k => bit (v.toNat % 16) k.region)
    Answers (.regionFlush who v) s (fun u =>
      u.hts.tasks = s.hts.tasks.filter (fun k => gone.all (fun g => g.id != k.id)) ∧
      u.get F.HTS_CNT2_LOST = min 65535 (s.get F.HTS_CNT2_LOST + gone.length) ∧
      u.hts.locks = s.hts.locks ∧ u.yal = s.yal ∧ u.gm = s.gm ∧ u.xm = s.xm ∧ u.sd = s.sd)) ∧
  (∀ (id : Nat) (k : Task) (s : State), s.running 5 = true → s.hts.tasks.find? (fun j => j.id == id) = some k → k.await1 = false →
    k.await2 = false → k.starved = false → s.get F.HTS_STARVE_US ≠ 0 → k.region < 4 →
    let u : State := { s.until (k.since + 1000 * s.get F.HTS_STARVE_US) with
      hts := { s.hts with tasks := s.hts.tasks.map (fun j => if j.id == id then { j with starved := true } else j) } }
    u.countsOnly (354 + 4 * k.region) = true →
    Completes (.starveTimeout id) s (u.counted (354 + 4 * k.region))) ∧
  (∀ (who : Fin 4) (k : Fin 6) (v : Word) (s : State), s.takes who.val 5 = true →
    let u := (((s.put (F.HTS_EG_BP_XOFF k.val) (fldOf v (F.HTS_EG_BP_XOFF k.val))).put (F.HTS_EG_BP_XON k.val)
      (fldOf v (F.HTS_EG_BP_XON k.val))).put (F.HTS_EG_BP_MAX k.val) (fldOf v (F.HTS_EG_BP_MAX k.val))).put (F.HTS_EG_BP_SRC k.val)
      (fldOf v (F.HTS_EG_BP_SRC k.val))
    let xoff := max 1 (fldOf v (F.HTS_EG_BP_XOFF k.val))
    let xon := min (fldOf v (F.HTS_EG_BP_XON k.val)) xoff
    let lvl := s.get (F.HTS_EG_LVL_PKTS k.val)
    let on := s.on (F.HTS_EG_BP_ON k.val)
    let last := tabGet (fun _ => 0) s.flt.last 371
    (on = false ∧ lvl < 256 * xoff ∨ on = true ∧ 256 * xon < lvl → Completes (.egBpWrite who k v) s u) ∧
    (on = true → lvl ≤ 256 * xon → Completes (.egBpWrite who k v) s (u.put (F.HTS_EG_BP_ON k.val) 0)) ∧
    (on = false → 256 * xoff ≤ lvl → (last = 0 ∨ last - 1 + 1000000000 ≤ s.now) →
      let w : State := { u.put (F.HTS_EG_BP_ON k.val) 1 with flt := { s.flt with last := tabSet (fun _ => 0) s.flt.last 371 (s.now + 1) } }
      w.countsOnly 371 = true → Completes (.egBpWrite who k v) s (w.counted 371)) ∧
    (on = false → 256 * xoff ≤ lvl → last ≠ 0 → s.now < last - 1 + 1000000000 →
      Completes (.egBpWrite who k v) s (u.put (F.HTS_EG_BP_ON k.val) 1)))

/-- A 1 in YCU.THR_CTL returns a halted thread to IDLE (OFF without an image) with its registers and pw discarded; a 1 in
YCU.CL_FENCE lifts the fence of a cluster none of whose sources is pending. A write of EN = 1 starts a sequencer with
a valid image at code byte 0 with its registers at 0, unless one of its sources stands unacknowledged; a write of EN =
0 halts a running one with CAUSE 3 and ends its wait. (R45, R46, R52, R165) -/
def Obligations.ThreadsAndSequencers : Prop :=
  (∀ (who : Fin 4) (un : Fin 64) (n : Fin 8) (v : Word) (s : State), s.takes who.val 5 = true → s.stopped = false →
    v.toNat % 256 = 2 ^ n.val → (s.thread (8 * un.val + n.val)).st = .halt →
    Answers (.threadResume who un v) s (fun u =>
      (u.thread (8 * un.val + n.val)).st = (if s.get (F.YCU_GEN_GEN un.val) = 0xFFFFFFFF then .off else .idle) ∧
      (∀ r, r < 32 → u.reg (8 * un.val + n.val) r = 0) ∧
      (∀ k, k < 512 → memByte u.yal.pw (512 * (8 * un.val + n.val) + k) = 0) ∧
      (∀ m, m ≠ 8 * un.val + n.val → u.thread m = s.thread m) ∧ u.regs = s.regs ∧ u.yal.lm = s.yal.lm ∧ u.gm = s.gm)) ∧
  (∀ (who : Fin 4) (c : Fin 16) (v : Word) (s : State), s.takes who.val 5 = true → s.stopped = false →
    v.toNat = 2 ^ c.val → s.fbit F.YCU_CL_FENCE_FENCED c.val = true →
    (∀ n, 384 + 4 * c.val ≤ n → n < 388 + 4 * c.val → s.level n = 0) →
    (∀ t, 32 * c.val ≤ t → t < 32 * c.val + 32 → (s.thread t).st ≠ .halt) → s.hts.places = [] →
    Completes (.fenceLift who v) s (s.putBit F.YCU_CL_FENCE_FENCED c.val false)) ∧
  (∀ (who n : Fin 4) (v : Word) (s : State), s.takes who.val (if n.val < 3 then 11 else 5) = true →
    n.val < s.seqs.length →
    (s.level 63 = 0 → (∀ k, 32 + 8 * n.val ≤ k → k < 39 + 8 * n.val → s.level k = 0) →
      s.get (F.YCU_GEN_GEN (64 + n.val)) ≠ 0xFFFFFFFF → s.on (F.SQ_CTL_EN n.val) = false →
      Answers (.seqEnable who n v) s (fun u =>
        u.on (F.SQ_CTL_EN n.val) = true ∧ u.on (F.SQ_CTL_HALTED n.val) = false ∧ u.get (F.SQ_CTL_CAUSE n.val) = 0 ∧
        u.get (F.SQ_CTL_EXC n.val) = 0 ∧ u.get (F.SQ_HALT_PC_PC n.val) = 0 ∧ (u.seq n.val).pc = 0 ∧
        (u.seq n.val).wait = none ∧ (∀ r, r < 16 → u.reg (512 + n.val) r = 0) ∧
        (∀ m, m ≠ n.val → u.seq m = s.seq m) ∧ u.sd = s.sd ∧ u.gm = s.gm)) ∧
    (s.on (F.SQ_CTL_EN n.val) = true → s.on (F.SQ_CTL_HALTED n.val) = false → n.val < s.air.sq.length →
      s.husk n.val 0 = none → s.husk n.val 1 = none → (s.sqa n.val).window = [] →
      Answers (.seqDisable who n v) s (fun u =>
        u.on (F.SQ_CTL_EN n.val) = false ∧ u.on (F.SQ_CTL_HALTED n.val) = true ∧ u.get (F.SQ_CTL_CAUSE n.val) = 3 ∧
        u.get (F.SQ_CTL_EXC n.val) = 0 ∧ (u.seq n.val).wait = none ∧ (u.seq n.val).pc = (s.seq n.val).pc ∧
        u.yal.g = s.yal.g ∧ u.sd = s.sd ∧ u.gm = s.gm)))

/-- A GO in YCU.LOAD_CTL takes MODE, SEQ and DRAIN. With no load busy it makes STATUS and GO 1: during a mode transition
the load waits; an image that fails the check of R51 ends it with STATUS 3, HDRERR or CRCERR and SKIPPED 0; a good
image of units makes the units of round 0 (ROLL) or all of them (BARRIER) that have no halted thread and run in a live
cluster drain, the others are counted as skipped, with the drain timeout set; a good image of sequencers that are off
or halted begins their copy. A drained unit begins its copy in ROLL, and in BARRIER when it was the last, all of them
together; one that may not be loaded is skipped. The drain timeout skips every unit that still drains, and those
already drained are copied or, with none left, the load ends with STATUS 3. A copy puts the image's code, with zero
words after it, and its data into the target and its generation into GEN, or GEN reads 0xFFFFFFFF after a lasting
error, source 386 + 4c counted for a unit (where its class enters at no level); the last copy of a load ends it with
STATUS 2, or 3 where a target was skipped. (R51, R52, R53, R54, R55, R56) -/
def Obligations.ProgramLoads : Prop :=
  (∀ (who : Fin 4) (v : Word) (m : Fin 2) (s : State), s.takes who.val 5 = true →
    let a := ((s.put F.YCU_LOAD_CTL_MODE m.val).put F.YCU_LOAD_CTL_SEQ (fldOf v F.YCU_LOAD_CTL_SEQ)).put F.YCU_LOAD_CTL_DRAIN
      (fldOf v F.YCU_LOAD_CTL_DRAIN)
    let u := (a.put F.YCU_LOAD_STAT_STATUS 1).put F.YCU_LOAD_CTL_GO 1
    let ends := fun (t : State) => if m = 0 then Completes (.programLoadRoll who v) s t else Completes (.programLoadBarrier who v) s t
    let src := s.get F.YCU_LOAD_SRC_ADDR / 32 * 32
    let units := onesOf (s.get F.YCU_LOAD_UNITS_UNIT) 64
    let seqs := onesOf (fldOf v F.YCU_LOAD_CTL_SEQ) 4
    let l : Load := { barrier := decide (m = 1), src := src, units := units, seqs := seqs, drain := fldOf v F.YCU_LOAD_CTL_DRAIN }
    let failed := fun (hdr crc : Nat) => ends (((((a.put F.YCU_LOAD_STAT_STATUS 3).put F.YCU_LOAD_STAT_CRCERR crc).put
      F.YCU_LOAD_STAT_HDRERR hdr).put F.YCU_LOAD_STAT_SKIPPED 0).put F.YCU_LOAD_CTL_GO 0)
    let first := if m = 1 then units else units.filter (fun n => n % 4 == 0)
    let go := first.filter (fun n => !s.unitBarred n)
    (s.yal.load ≠ none → ends a) ∧
    (s.yal.load = none → s.transiting = true → ends (u.setLoad (some { l with waiting := true }))) ∧
    (s.yal.load = none → s.transiting = false → s.imageCheck src units seqs = .header → failed 1 0) ∧
    (s.yal.load = none → s.transiting = false → s.imageCheck src units seqs = .crc → failed 0 1) ∧
    (s.yal.load = none → s.transiting = false → s.imageCheck src units seqs = .good → seqs = [] → go ≠ [] →
      ends (u.setLoad (some { l with
        units := units.filter (fun n => n ∉ first)
        draining := go
        skipped := (first.filter s.unitBarred).length
        deadline := if fldOf v F.YCU_LOAD_CTL_DRAIN = 0 then 0 else s.now + 1000 * fldOf v F.YCU_LOAD_CTL_DRAIN }))) ∧
    (s.yal.load = none → s.transiting = false → s.imageCheck src units seqs = .good → seqs ≠ [] →
      (∀ n ∈ seqs, s.on (F.SQ_CTL_EN n) = false ∨ s.on (F.SQ_CTL_HALTED n) = true) →
      ends (u.setLoad (some { l with copying := seqs.map (64 + ·) })))) ∧
  (∀ (un : Fin 64) (l : Load) (s : State), s.quiet = true → s.yal.load = some l → un.val ∈ l.draining → s.unitQuiet un.val = true →
    let rest := l.draining.filter (· != un.val)
    (s.unitBarred un.val = false → l.barrier = false →
      Completes (.loadUnitDrained un) s (s.setLoad (some { l with draining := rest, copying := l.copying ++ [un.val] }))) ∧
    (s.unitBarred un.val = false → l.barrier = true → rest ≠ [] →
      Completes (.loadUnitDrained un) s (s.setLoad (some { l with draining := rest, ready := l.ready ++ [un.val] }))) ∧
    (s.unitBarred un.val = false → l.barrier = true → rest = [] → l.copying = [] → l.waiting = false →
      Completes (.loadUnitDrained un) s (s.setLoad (some { l with
        draining := []
        ready := []
        copying := l.ready ++ [un.val]
        deadline := 0 }))) ∧
    (s.unitBarred un.val = true → rest ≠ [] →
      Completes (.loadUnitDrained un) s (s.setLoad (some { l with draining := rest, skipped := l.skipped + 1 })))) ∧
  (∀ (l : Load) (s : State), s.quiet = true → s.yal.load = some l → l.deadline ≠ 0 → l.waiting = false →
    let n := l.skipped + l.draining.length
    let e := s.until l.deadline
    (l.draining = [] → Completes .loadDrainTimeout s s) ∧
    (l.draining ≠ [] → l.copying ≠ [] →
      Completes .loadDrainTimeout s (e.setLoad (some { l with draining := [], skipped := n }))) ∧
    (l.draining ≠ [] → l.copying = [] → l.ready ≠ [] →
      Completes .loadDrainTimeout s (e.setLoad (some { l with
        draining := []
        skipped := n
        copying := l.ready
        ready := []
        deadline := 0 }))) ∧
    (l.draining ≠ [] → l.copying = [] → l.ready = [] → l.units = [] → s.ctl.slot = none → s.ctl.trimLate = false →
      s.on F.DMC_CTL_FCHG = false → s.on F.DMC_CTL_TRAIN = false →
      Completes .loadDrainTimeout s ((((((e.setLoad none).put F.YCU_LOAD_STAT_STATUS 3).put F.YCU_LOAD_STAT_CRCERR 0).put
        F.YCU_LOAD_STAT_HDRERR 0).put F.YCU_LOAD_STAT_SKIPPED (min 255 n)).put F.YCU_LOAD_CTL_GO 0))) ∧
  (∀ (x : Fin 68) (l : Load) (s : State), s.quiet = true → s.yal.load = some l → x.val ∈ l.copying → l.waiting = false →
    let rest := l.copying.filter (· != x.val)
    let code := s.imgCode l.src
    let data := s.imgData l.src
    let loaded := fun (u : State) =>
      u.get (F.YCU_GEN_GEN x.val) = memNat s.gm (l.src + 8) 4 ∧
      memBytes u.yal.im (0x10000 * x.val) code = memBytes s.gm (l.src + 0x20) code ∧
      (∀ k, code ≤ k → k < 0x10000 → memByte u.yal.im (0x10000 * x.val + k) = 0) ∧
      (if x.val < 64 then memBytes u.yal.lm (0x10000 * x.val) data = memBytes s.gm (l.src + 0x20 + code) data ∧ u.sd = s.sd
       else memBytes u.sd (0x4000 * (x.val - 64)) data = memBytes s.gm (l.src + 0x20 + code) data ∧ u.yal.lm = s.yal.lm) ∧
      u.gm = s.gm ∧ u.xm = s.xm ∧ u.yal.cm = s.yal.cm
    (rest ≠ [] → Answers (.loadCopyDone x .good) s (fun u => loaded u ∧ ∃ l', u.yal.load = some l' ∧ l'.copying = rest ∧
      l'.draining = l.draining ∧ l'.skipped = l.skipped ∧ l'.failed = l.failed)) ∧
    (rest = [] → l.draining = [] → l.ready = [] → l.units = [] → s.ctl.slot = none → s.ctl.trimLate = false →
      s.on F.DMC_CTL_FCHG = false → s.on F.DMC_CTL_TRAIN = false →
      Answers (.loadCopyDone x .good) s (fun u => loaded u ∧ u.yal.load = none ∧ u.on F.YCU_LOAD_CTL_GO = false ∧
        u.get F.YCU_LOAD_STAT_STATUS = (if l.skipped = 0 ∧ l.failed = false then 2 else 3) ∧
        u.get F.YCU_LOAD_STAT_SKIPPED = min 255 l.skipped)) ∧
    (rest ≠ [] → x.val < 64 → s.countsOnly (386 + 4 * (x.val / 4)) = true → Answers (.loadCopyDone x .lasting) s (fun u =>
      u.get (F.YCU_GEN_GEN x.val) = 0xFFFFFFFF ∧ u.on (F.FLT_SRC_STICKY (386 + 4 * (x.val / 4))) = true ∧
      (∀ t, 8 * x.val ≤ t → t < 8 * x.val + 8 → (u.thread t).st ≠ .idle) ∧ u.yal.im = s.yal.im ∧ u.gm = s.gm)) ∧
    (rest ≠ [] → 64 ≤ x.val → Answers (.loadCopyDone x .lasting) s (fun u =>
      u.get (F.YCU_GEN_GEN x.val) = 0xFFFFFFFF ∧ u.yal.im = s.yal.im ∧ u.sd = s.sd ∧ u.gm = s.gm)))

/-- WAITPH answers 2 while its domain is not locked, 1 beyond target plus guard, and otherwise holds the sequencer; WAITT
answers 0 at and 1 beyond its target and waits ahead of it; LISTEN opens its window; the wake of each wait advances
TBM to its instant and returns its code. (R87, R88, R89, R99) -/
def Obligations.SequencerWaits : Prop :=
  (∀ (q : Fin 4) (i : Issue) (sd sa sb : BitVec 5) (d : Fin 4) (s : State), i.who = .seq q → Issues s i .s [sd, sa, sb] →
    let phi := (s.val i sa).toNat % 2 ^ 32
    let guard := (s.val i sb).toNat
    (s.locked d.val = false → Completes (.waitph i sd sa sb d) s
      (s.advance ((s.bump (F.SQ_WCNT_UNLOCKED q.val) 1).setReg (512 + q.val) sd.toNat 2) i)) ∧
    (s.locked d.val = true → (guard : Int) ≤ signed 32 (s.phaseNow d.val + 2 ^ 32 - phi) →
      Completes (.waitph i sd sa sb d) s
        (s.advance ((s.bump (F.SQ_WCNT_LATE q.val) 1).setReg (512 + q.val) sd.toNat 1) i)) ∧
    (∀ t : Int, s.locked d.val = true → signed 32 (s.phaseNow d.val + 2 ^ 32 - phi) < (guard : Int) →
      s.predict d.val phi = some t → (s.now : Int) < t →
      Completes (.waitph i sd sa sb d) s
        (s.setSeq q.val { s.seq q.val with wait := some (.phase sd.toNat phi guard d.val) }))) ∧
  (∀ (n : Fin 4) (sd phi guard d : Nat) (t : Int) (s : State), s.quiet = true →
    (s.seq n.val).wait = some (.phase sd phi guard d) → s.predict d phi = some t →
    (s.until t.toNat).errBound d ≤ guard → Completes (.waitphWake n) s ((s.until t.toNat).seqResume n.val sd 0)) ∧
  (∀ (q : Fin 4) (i : Issue) (sd sa : BitVec 5) (base : Fin 5) (s : State), i.who = .seq q → Issues s i .s [sd, sa] →
    (base = 1 → s.on F.TIME_TBN_CTL_LOCKED = true) →
    let v := (s.val i sa).toNat
    let b := if base = 0 then s.now else if base = 1 then s.tbn / 2 ^ 32 else s.tsf (base.val - 2)
    (v = b → WritesReg (.waitt i sd sa base) i s sd 0) ∧ (v < b → WritesReg (.waitt i sd sa base) i s sd 1) ∧
    (b < v → Completes (.waitt i sd sa base) s
      (s.setSeq q.val { s.seq q.val with wait := some (.time sd.toNat base.val v) }))) ∧
  (∀ (n : Fin 4) (sd v : Nat) (s : State), s.quiet = true → (s.seq n.val).wait = some (.time sd 0 v) →
    Completes (.waittWake n) s ((s.until v).seqResume n.val sd 0)) ∧
  (∀ (i : Issue) (sd sa sb : BitVec 5) (rate : Fin 4) (s : State), i.who = .seq 3 → Issues s i .s [sd, sa, sb] →
    rate.val < 3 → (s.val i sb).toNat ≠ 0 →
    Completes (.listen i sd sa sb rate 0) s (s.setSeq 3 { s.seq 3 with wait := some (.listen sd.toNat s.now
      (s.now + 1000 * (s.val i sb).toNat) ((s.val i sa).toNat % 64) rate.val 0) })) ∧
  (∀ (sd a e ch rate rep : Nat) (s : State), s.quiet = true → (s.seq 3).wait = some (.listen sd a e ch rate rep) →
    Completes .listenWindowEnd s ((s.until e).seqResume 3 sd 0)) ∧
  (∀ (n sd v : Nat) (s : State), n < s.seqs.length →
    (s.seqResume n sd v).seq n = { s.seq n with wait := none, pc := ((s.seq n).pc + 4) % 0x10000 } ∧
    (sd ≠ 0 → (s.seqResume n sd v).reg (512 + n) sd = BitVec.ofNat 64 v) ∧ (s.seqResume n sd v).regs = s.regs)

/-- BIN records bin 0 for a station not bound to a domain and answers 128, and bin sb[15:10] for a bound one. PICK of the
one eligible station of a list opens the window set with it and writes it to SD. SKIP gives the window set back. GAIN
sets the receive gain step of the Pip radio from now on and keeps the step before it. (R90, R91, R96, R98) -/
def Obligations.SequencerSelection : Prop :=
  (∀ (q : Fin 4) (i : Issue) (sd sa sb : BitVec 5) (s : State), i.who = .seq q → Issues s i .s [sd, sa, sb] → q ≠ 3 →
    let h := (s.val i sa).toNat
    let st := h % 2048
    let l := h / 2048
    h < 8192 → l < 3 → s.linkPresent l st = true → s.staTableOk = true → s.on F.SQA_BIN_CFG_VALID = false →
    let b := if s.staBound st then bits (s.val i sb).toNat 15 10 else 0
    let u := s.setSqa q.val { s.sqa q.val with
      bins := (st + 2048 * l, b) :: (s.sqa q.val).bins.filter (fun e => e.1 != st + 2048 * l) }
    Completes (.bin i sd sa sb) s (s.advance (u.setReg (512 + q.val) sd.toNat
      (BitVec.ofNat 64 (if s.staBound st then b else 128))) i)) ∧
  (∀ (q : Fin 4) (i : Issue) (sd sa : BitVec 5) (s : State), i.who = .seq q → Issues s i .s [sd, sa] → q ≠ 3 →
    q.val < s.air.sq.length →
    let n := q.val
    let a := (s.val i sa).toNat
    let x := memNat s.sd (0x4000 * n + a + 2) 2
    a + 8 ≤ 0x4000 → memNat s.sd (0x4000 * n + a) 2 = 1 → s.verdict n [] x = .yes → (s.sqa n).window = [] →
    (s.sqa n).granted.contains x = false → (s.sqa n).granted.length < 512 → s.get (F.SQ_CYC_STAT_WINDOWS n) < 64 →
    Answers (.pick i sd sa 1 0 []) s (fun u =>
      (u.sqa n).window = [x] ∧ (u.sqa n).granted = (s.sqa n).granted ++ [x] ∧
      u.get (F.SQ_CYC_STAT_WINDOWS n) = s.get (F.SQ_CYC_STAT_WINDOWS n) + 1 ∧
      memNat u.sd (0x4000 * n + a + 4) 2 = 1 ∧ memNat u.sd (0x4000 * n + a + 6) 2 = x ∧
      (sd ≠ 0 → u.val i sd = 1) ∧ u.pcOf i.who = (s.pcOf i.who + 4) % 0x10000)) ∧
  (∀ (i : Issue) (sd : BitVec 5) (s : State), i.who = .seq 3 → Issues s i .s [sd] → (s.sqa 3).window ≠ [] →
    Completes (.skip i sd) s (s.advance
      (((s.setSqa 3 { s.sqa 3 with window := [] }).bump (F.SQ_WCNT_SKIPS 3) 1).setReg 515 sd.toNat
        (BitVec.ofNat 64 (s.sqa 3).window.length)) i)) ∧
  (∀ (q : Fin 4) (i : Issue) (sd : BitVec 5) (s : State), i.who = .seq q → Issues s i .s [sd] →
    (s.sqa q.val).window = [] → WritesReg (.skip i sd) i s sd 0) ∧
  (∀ (i : Issue) (sd sa : BitVec 5) (step : Fin 8) (fromReg : Bool) (s : State), i.who = .seq 3 →
    Issues s i .s [sd, sa] →
    Completes (.gain i sd sa step fromReg) s (s.advance ((s.setPip { s.air.pip with
      gain := if fromReg then (s.val i sa).toNat % 8 else step.val
      gainSince := s.now
      gainWas := s.air.pip.gain }).setReg 515 sd.toNat 0) i))

/-- BUILD of kind 0 takes the queued frame of the first station with the next sequence number; of kinds 1 and 2 it starts
a husk without new frames; of kind 3 it takes the node's next counter. Each consumes the window set, leaves the slot
ASSEMBLING with no stored outcome, and answers 0. (R92, R157, R158, R169, R174, R267) -/
def Obligations.HuskBuild : Prop :=
  (∀ (q : Fin 4) (i : Issue) (sd sa : BitVec 5) (slot : Fin 2) (st t : Nat) (it : EgItem) (s : State),
    i.who = .seq q → Issues s i .s [sd, sa] → q ≠ 3 → q.val < s.air.sq.length →
    let n := q.val
    s.husk n slot.val = none → (s.sqa n).window = [st] → 1 ≤ (s.val i sa).toNat → (s.val i sa).toNat ≤ 5484 →
    s.on F.SQA_BIN_CFG_VALID = true → s.binStoreOk = true → s.staTableOk = true →
    (s.linkKey n st = none → s.tidsOf n st = [t] → s.hts.egress = [it] → it.kind = 4 → it.target = st → it.tc = t →
      s.tooOld it = false → s.linkDoze n st = false →
      let x := s.snSpace (s.snKey n st t)
      x.retry = [] → (x.next + 4096 - x.oldest) % 4096 < s.txWindow st t →
      Answers (.buildSu i sd sa slot [⟨1, []⟩] true []) s (fun u =>
        (∃ h, u.husk n slot.val = some h ∧ h.st = 1 ∧ h.kind = 0 ∧ h.stas.map (fun k => k.sta) = [st] ∧
          h.mpdus.map (fun m => (m.item, m.sn)) = [(it, x.next)]) ∧
        u.hts.egress = [] ∧ (u.sqa n).window = [] ∧ u.get (outField n slot.val) = 15 ∧
        (u.snSpace (s.snKey n st t)).next = (x.next + 1) % 4096 ∧ (sd ≠ 0 → u.val i sd = 0))) ∧
    (s.tidsOf n st = [] →
      Answers (.buildMu i sd sa slot [] true []) s (fun u =>
        (∃ h, u.husk n slot.val = some h ∧ h.st = 1 ∧ h.kind = 1 ∧ h.mpdus = []) ∧
        u.hts.egress = s.hts.egress ∧ (u.sqa n).window = [] ∧ u.get (outField n slot.val) = 15 ∧
        (sd ≠ 0 → u.val i sd = 0))) ∧
    Answers (.buildTrigger i sd sa slot [] true []) s (fun u =>
      (∃ h, u.husk n slot.val = some h ∧ h.st = 1 ∧ h.kind = 2 ∧ h.mpdus = []) ∧
      u.hts.egress = s.hts.egress ∧ (u.sqa n).window = [] ∧ u.get (outField n slot.val) = 15 ∧
      (sd ≠ 0 → u.val i sd = 0))) ∧
  (∀ (i : Issue) (sd sa : BitVec 5) (slot : Fin 2) (node : Nat) (s : State), i.who = .seq 3 → Issues s i .s [sd, sa] →
    3 < s.air.sq.length → s.husk 3 slot.val = none → (s.sqa 3).window = [node] → 1 ≤ (s.val i sa).toNat →
    (s.val i sa).toNat ≤ 5484 → s.nodeKind node ≠ 2 → s.nodeNat node 0x20 4 < 0xFFFFFFFF →
    s.slotRefusal 6 (s.nodeNat node 8 2 % 8192) usePip = none →
    Answers (.buildPip i sd sa slot) s (fun u =>
      (∃ h, u.husk 3 slot.val = some h ∧ h.st = 1 ∧ h.kind = 3 ∧ ∃ tx, h.pip = some tx ∧ tx.node = node ∧
        tx.ctr = s.nodeNat node 0x20 4 ∧ tx.slot = s.nodeNat node 8 2 % 8192) ∧
      memNat u.gm (s.nodeBase + 64 * node + 0x20) 4 = s.nodeNat node 0x20 4 + 1 ∧
      (u.sqa 3).window = [] ∧ u.get (outField 3 slot.val) = 15 ∧ (sd ≠ 0 → u.val i sd = 0)))

/-- In a sequencer that issues normally: TRIG of a supported type adds the trigger and its User Info to an uncommitted Wi-
Fi husk that carries none, makes it ASSEMBLING again, keeps for a sounding husk the stations of R217, marks the grants
of its stations and answers 0; LAUNCH of kind 0 of an uncommitted Wi-Fi husk with no other husk holds the sequencer on
a window that is not over, and on an empty slot returns the stored outcome, which clears; UNDO on an empty slot does
the same, and of the one uncommitted husk without MPDUs empties its slot, counts PROGRAM and answers 6. BEACON on SQP
answers 2 while beacons are off, and with sa = 0, no beacon armed and a usable key arms the next beacon with the next
beacon counter and answers 0. (R93, R94, R95, R97) -/
def Obligations.HuskInstructions : Prop :=
  (∀ (q : Fin 4) (i : Issue) (sd sa sb : BitVec 5) (slot : Fin 2) (h : Husk) (s : State), i.who = .seq q →
    Issues s i .s [sd, sa, sb] → s.husk q.val slot.val = some h → h.st < 3 →
    let n := q.val
    let a := (s.val i sa).toNat
    let b := (s.val i sb).toNat
    let keep := if h.kind = 2 ∧ a = 1 then soundKeep (s.on (F.RF_SND_CFG_MU n)) h.stas else h.stas
    (n ≠ 3 → trigType a = true → h.trig = none →
      Completes (.trig i sd sa sb slot) s (s.advance
        (((s.setHusk n slot.val (some { h with
            st := 1
            stas := keep
            trig := some { type := a, len := b, users := s.userInfos n b keep } })).markAll (h.stas.map (fun k => k.sta))).setReg
          (512 + n) sd.toNat 0) i)) ∧
    (s.husk n (1 - slot.val) = none → h.pip = none → 0 < b → s.now < a + b →
      let w := s.setSeq n { s.seq n with wait := some (.launch sd.toNat slot.val 0 a b (a + b)) }
      Completes (.launch i sd sa sb slot 0) s (if n = 3 then w else w.setRadio n { s.radio n with heldOff := false }))) ∧
  (∀ (q : Fin 4) (i : Issue) (sd sa sb : BitVec 5) (slot : Fin 2) (s : State), i.who = .seq q →
    Issues s i .s [sd, sa, sb] → s.husk q.val slot.val = none →
    Completes (.launch i sd sa sb slot 0) s (s.advance ((s.put (outField q.val slot.val) 15).setReg (512 + q.val) sd.toNat
      (BitVec.ofNat 64 (s.get (outField q.val slot.val)))) i)) ∧
  (∀ (q : Fin 4) (i : Issue) (sd : BitVec 5) (slot : Fin 2) (s : State), i.who = .seq q → Issues s i .s [sd] →
    let n := q.val
    (s.husk n slot.val = none →
      Completes (.undo i sd slot) s (s.advance ((s.put (outField n slot.val) 15).setReg (512 + n) sd.toNat
        (BitVec.ofNat 64 (s.get (outField n slot.val)))) i)) ∧
    (∀ h : Husk, s.husk n slot.val = some h → h.st < 3 → h.mpdus = [] → s.husk n (1 - slot.val) = none →
      n < s.air.sq.length →
      Answers (.undo i sd slot) s (fun u => u.husk n slot.val = none ∧
        u.get (F.SQ_UCNT1_PROGRAM n) = min 255 (s.get (F.SQ_UCNT1_PROGRAM n) + 1) ∧
        u.get (outField n slot.val) = 15 ∧ u.hts.egress = s.hts.egress ∧ (sd ≠ 0 → u.val i sd = 6)))) ∧
  (∀ (i : Issue) (sd sa : BitVec 5) (s : State), i.who = .seq 3 → Issues s i .s [sd, sa] →
    (s.on F.PIP_BCN_CFG_EN = false → WritesReg (.beacon i sd sa) i s sd 2) ∧
    (s.on F.PIP_BCN_CFG_EN = true → s.val i sa = 0 → s.air.pip.armed = none →
      s.get F.PIP_BCTR_NEXT < 0xFFFFFFFF → s.slotRefusal 6 (s.get F.PIP_BCN_KEY_SLOT) usePip = none →
      Answers (.beacon i sd sa) s (fun u =>
        u.air.pip.armed = some { slot := some (s.get F.PIP_BCN_KEY_SLOT), gen := s.keyGen (s.get F.PIP_BCN_KEY_SLOT),
                                 pn := s.get F.PIP_BCTR_NEXT } ∧
        u.get F.PIP_BCTR_NEXT = s.get F.PIP_BCTR_NEXT + 1 ∧ (sd ≠ 0 → u.val i sd = 0) ∧ u.gm = s.gm)))

/-- HUSK_READY makes an assembling husk whose MPDUs are done, and which for Pip has its frame, READY where its radio may
hold husks, undoes it with RADIO where the radio may not and no other husk or LAUNCH stands, and does nothing to a
husk that is not so far. HUSK_COMMIT of a READY Wi-Fi husk whose LAUNCH window has an end ahead, with the medium free
to it, its key generations matching and no AP-NSTR hold makes it COMMITTED with its stations awaiting what it
solicits, counts COMMITS, and the LAUNCH returns the commit instant; a Pip husk goes on air as its MPDU, and a DATA
frame awaits an answer; with a key generation that does not match, the husk is undone with KEYGEN; before it is READY
or may commit nothing happens. A LAUNCH window of kind 0 that ends first undoes the husk with LATE while assembling
and MEDIUM when READY. An acknowledgement outcome of one of several awaited stations takes that station's MPDUs from
the husk and ends its wait; of the last one it empties the slot, an acknowledged MPDU leaves the egress level and an
unacknowledged one below the retry limit joins the retry set of its TID. A PPDU that awaits nothing ends its exchange.
The EMLSR delay of a station ends. (R94, R146, R168, R169, R180, R181, R183, R185, R210, R223) -/
def Obligations.HuskLife : Prop :=
  (∀ (n : Fin 4) (slot : Fin 2) (h : Husk) (s : State), s.quiet = true → s.husk n.val slot.val = some h →
    let ready := h.st = 1 ∧ h.mpdus.all (fun m => m.done) = true ∧ (h.kind ≠ 3 ∨ h.pip.isSome = true)
    (ready → s.radioOk n.val = true → Completes (.huskReady n slot) s (s.setHusk n.val slot.val (some { h with st := 2 }))) ∧
    (ready → s.radioOk n.val = false → s.husk n.val (1 - slot.val) = none → n.val < s.air.sq.length → (s.seq n.val).wait = none →
      Answers (.huskReady n slot) s (fun u => u.husk n.val slot.val = none ∧ u.get (outField n.val slot.val) = 9 ∧
        u.get (F.SQ_UCNT1_RADIO n.val) = min 255 (s.get (F.SQ_UCNT1_RADIO n.val) + 1))) ∧
    (¬ ready → Completes (.huskReady n slot) s s)) ∧
  (∀ (n : Fin 3) (slot : Fin 2) (kind : Fin 8) (rx sd a b ie : Nat) (t0 : Int) (e : Option Int) (h : Husk) (s : State),
    s.quiet = true → n.val < s.air.sq.length → n.val < s.seqs.length → s.husk n.val slot.val = some h → h.pip = none →
    (s.seq n.val).wait = some (.launch sd slot.val kind.val a b ie) → s.launchWindow n.val kind.val a b = some (t0, e) →
    let x := s.until t0.toNat
    let ahead := ∀ t1 ∈ e, t0 < t1 ∧ (s.now : Int) < t1
    (h.st ≠ 2 ∨ s.mayCommit n.val = false → Completes (.huskCommit ⟨n.val, by omega⟩ ⟨rx, []⟩) s s) ∧
    (h.st = 2 → ahead → s.mayCommit n.val = true → s.apNstrHold n.val rx = false → s.gensMatch h = true →
      Answers (.huskCommit ⟨n.val, by omega⟩ ⟨rx, []⟩) s (fun u => u.time = x.time ∧
        u.husk n.val slot.val = some { h with
          st := 3
          commitNs := x.stampOut n.val x.now
          stas := h.stas.map (fun k => { k with await := s.solicits n.val h k.sta }) } ∧
        u.get (F.SQ_COMMITS_COUNT n.val) = min (2 ^ 32 - 1) (s.get (F.SQ_COMMITS_COUNT n.val) + 1) ∧ (u.seq n.val).wait = none ∧
        u.hts.egress = s.hts.egress ∧
        (sd ≠ 0 → u.reg (512 + n.val) sd = BitVec.ofNat 64 (x.stampOut n.val x.now % 2 ^ 56 * 256)))) ∧
    (h.st = 2 → ahead → s.mayCommit n.val = true → s.apNstrHold n.val rx = false → s.gensMatch h = false →
      s.husk n.val (1 - slot.val) = none →
      Answers (.huskCommit ⟨n.val, by omega⟩ ⟨rx, []⟩) s (fun u =>
        UndoneByLaunch s u n.val slot.val 5 sd h (F.SQ_UCNT1_KEYGEN n.val)))) ∧
  (∀ (slot : Fin 2) (rx sd a b ie : Nat) (t0 : Int) (h : Husk) (p : PipTx) (s : State),
    s.quiet = true → 3 < s.air.sq.length → 3 < s.seqs.length → s.husk 3 slot.val = some h → h.pip = some p → h.st = 2 →
    (s.seq 3).wait = some (.launch sd slot.val 7 a b ie) → s.launchWindow 3 7 a b = some (t0, none) →
    (p.anchor ≠ 0 → max t0 p.anchor < p.anchor + 1000000 ∧ s.now < p.anchor + 1000000) → s.mayCommit 3 = true →
    s.pipClear = true → s.gensMatch h = true →
    let x := s.until (max t0 p.anchor).toNat
    let c := s.nodeCfg p.node
    let fin := x.now + s.pipDuration (bits c 6 5) (bits c 8 7) (16 + p.body.length)
    Answers (.huskCommit 3 ⟨rx, []⟩) s (fun u => u.time = x.time ∧ u.air.pip.sent = p.mpdu ∧
      (∃ k, u.husk 3 slot.val = some k ∧ k.st = 3 ∧ k.pip = some p ∧ k.commitNs = x.stampOut 3 x.now) ∧
      u.get (F.SQ_COMMITS_COUNT 3) = min (2 ^ 32 - 1) (s.get (F.SQ_COMMITS_COUNT 3) + 1) ∧ (u.seq 3).wait = none ∧
      (p.type ≠ 1 → u.air.pip.ex = .none) ∧ (p.type = 1 → u.air.pip.ex = .await p.node slot.val (fin + 450000)
        (fin + 600000 + (s.pipPre + 32) * 2 ^ bits c 8 7 * lineBitNs (bits c 6 5))))) ∧
  (∀ (n : Fin 4) (slot : Fin 2) (sd a b ie : Nat) (h : Husk) (s : State), s.quiet = true →
    n.val < s.air.sq.length → n.val < s.seqs.length → s.husk n.val slot.val = some h → h.st < 3 →
    h.pip = none → s.husk n.val (1 - slot.val) = none → 0 < b →
    (s.seq n.val).wait = some (.launch sd slot.val 0 a b ie) →
    Answers (.launchWindowEnd n) s (fun u => u.time = (s.until (a + b)).time ∧
      if h.st = 2 then UndoneByLaunch s u n.val slot.val 1 sd h (F.SQ_UCNT0_MEDIUM n.val)
      else UndoneByLaunch s u n.val slot.val 10 sd h (F.SQ_UCNT2_LATE n.val))) ∧
  (∀ (n : Fin 3) (slot : Fin 2) (st : BitVec 11) (ulExp ulGot : Nat) (acked : List (Nat × Nat)) (noCts : Bool) (h : Husk) (s : State),
    s.quiet = true → n.val < s.air.sq.length → s.husk n.val slot.val = some h → h.st = 3 →
    h.stas.any (fun k => k.sta == st.toNat && k.await) = true → (s.radio n.val).csw = none → h.sounding = false →
    let left : Husk := { h with
      mpdus := h.mpdus.filter (fun m => m.sta != st.toNat)
      stas := h.stas.map (fun j => if j.sta == st.toNat then { j with await := false } else j) }
    let ends := fun (u : State) => u.husk n.val slot.val = if left.stas.any (fun k => k.await) = true then some left else none
    Answers (.blockAckReceive n slot st acked ulExp ulGot) s ends ∧ Answers (.ackTimeout n slot st ⟨ulExp, noCts⟩) s ends) ∧
  (∀ (n : Fin 3) (slot : Fin 2) (st : BitVec 11) (m : Mpdu) (k : HuskSta) (h : Husk) (noCts : Bool) (s : State), s.quiet = true →
    n.val < s.air.sq.length → s.husk n.val slot.val = some h → h.st = 3 → h.stas = [k] → k.sta = st.toNat →
    k.await = true → h.mpdus = [m] → m.sta = st.toNat → h.sounding = false → s.linkPresent n.val st.toNat = true →
    s.tablesApart n.val → (s.radio n.val).csw = none → s.get (F.HTS_EG_LVL_PKTS 4) ≠ 0 →
    let space := fun (u : State) => u.snSpace (s.snKey n.val st.toNat m.tid)
    Answers (.blockAckReceive n slot st [(m.tid, m.sn)] 0 0) s (fun u => u.husk n.val slot.val = none ∧
      u.get (F.HTS_EG_LVL_PKTS 4) = s.get (F.HTS_EG_LVL_PKTS 4) - 1 ∧ (space u).retry = (space s).retry) ∧
    (s.stationKnown st.toNat = true → m.tries + 1 < s.get F.SQA_RETRY_LIMIT → (space s).retry = [] →
      Answers (.ackTimeout n slot st ⟨0, noCts⟩) s (fun u => u.husk n.val slot.val = none ∧
        (space u).retry = [{ m with tries := m.tries + 1, isNew := false }] ∧
        u.get (F.HTS_EG_LVL_PKTS 4) = s.get (F.HTS_EG_LVL_PKTS 4)))) ∧
  (∀ (n : Fin 4) (slot : Fin 2) (h : Husk) (s : State), s.quiet = true → n.val < s.air.sq.length →
    s.husk n.val slot.val = some h → (s.radio n.val).csw = none →
    (h.st = 3 → h.stas.all (fun k => !k.await) = true →
      Answers (.ppduEnd n slot) s (fun u => u.husk n.val slot.val = none ∧ u.sd = s.sd ∧ u.xm = s.xm ∧ u.yal.lm = s.yal.lm)) ∧
    (h.st ≠ 3 ∨ h.stas.any (fun k => k.await) = true → Completes (.ppduEnd n slot) s s)) ∧
  (∀ (n : Fin 3) (st : BitVec 11) (s : State), s.quiet = true →
    Completes (.emlsrTransitionEnd n st) s
      { s with air := { s.air with emlHold := s.air.emlHold.filter (· != 4 * st.toNat + n.val) } })

/-- A cycle boundary, at the next multiple of PERIOD or, in MODE 1 with the domain locked now and at the last boundary, at
the predicted instant of its next phase step, returns the window and station counts to 0, advances the cycle count and
keeps the window set. STA_UPD installs the staged entry, keeping the upper bits of its STATE word. BIN_UPD writes one
bin, all 64 of the link, or AGED in all 64, and no other byte of the Granary; link 3 changes nothing. At the end of an
epoch the sweep has set AGED in exactly the bins that reached the age limit, and EPOCH advances modulo 64. A TWT
service period that ends moves TWT_NEXT on by whole wake intervals past it; where the station had work and was in no
committed husk the miss is counted, with source 37 + 8n where its class enters at no level. (R136, R139, R141, R152,
R155, R159, R160) -/
def Obligations.ScheduleTables : Prop :=
  (∀ (n : Fin 4) (s : State), s.running (if n.val < 3 then 11 else 5) = true → n.val < s.air.sq.length →
    let d := s.get (F.SQ_CYCLE_PD n.val)
    let p := 1000 * max 1 (min 1000000 (s.get (F.SQ_CYCLE_PERIOD n.val)))
    let step := 65536 / 2 ^ min 14 (s.get (F.SQ_CYCLE_DIV n.val))
    let byPhase := s.get (F.SQ_CYCLE_MODE n.val) = 1 ∧ s.locked d = true ∧ (s.sqa n.val).unlk = false
    let bound := fun (t : Nat) (u : State) => u.time = (s.until t).time ∧
      u.get (F.SQ_CYC_STAT_WINDOWS n.val) = 0 ∧ u.get (F.SQ_CYC_STAT_STATIONS n.val) = 0 ∧
      u.get (F.SQ_CYC_STAT_CYCLES n.val) = (s.get (F.SQ_CYC_STAT_CYCLES n.val) + 1) % 2 ^ 15 ∧
      (u.sqa n.val).granted = [] ∧ (u.sqa n.val).window = (s.sqa n.val).window ∧ u.gm = s.gm ∧ u.hts = s.hts
    (¬ byPhase → Answers (.cycleBoundary n) s (bound ((s.now / p + 1) * p))) ∧
    (∀ t : Int, byPhase → s.predict d (((s.phaseNow d / step + 1) * step) % 2 ^ 32) = some t →
      Answers (.cycleBoundary n) s (bound t.toNat))) ∧
  (∀ (who : Fin 4) (v : Word) (s : State), s.takes who.val 11 = true → s.staTableOk = true →
    let a := s.staBase + 32 * bits v.toNat 10 0
    Answers (.staUpdate who v) s (fun u =>
      (∀ k, k < 7 → memNat u.gm (a + 4 * k) 4 = s.get (F.SQA_STA_STAGE_WORD k)) ∧
      memNat u.gm (a + 28) 4 = setBits (memNat s.gm (a + 28) 4) 19 0 (s.get (F.SQA_STA_STAGE_WORD 7)) ∧
      (∀ x, x < a ∨ a + 32 ≤ x → memByte u.gm x = memByte s.gm x) ∧ u.xm = s.xm ∧ u.sd = s.sd)) ∧
  (∀ (who : Fin 4) (v : Word) (s : State), s.takes who.val 11 = true →
    let a := s.binBase + 8 * (192 * bits v.toNat 10 0 + 64 * bits v.toNat 12 11)
    (s.binStoreOk = true → bits v.toNat 12 11 ≠ 3 →
      Answers (.binUpdate who v) s (fun u =>
        Stored s.gm u.gm (a + 8 * bits v.toNat 18 13) 8 (s.get F.SQA_BIN_STAGE_BIN) ∧ u.xm = s.xm) ∧
      Answers (.binUpdateAll who v) s (fun u =>
        (∀ b, b < 64 → memNat u.gm (a + 8 * b) 8 = s.get F.SQA_BIN_STAGE_BIN) ∧
        (∀ x, x < a ∨ a + 512 ≤ x → memByte u.gm x = memByte s.gm x) ∧ u.xm = s.xm) ∧
      Answers (.binAge who v) s (fun u =>
        (∀ b, b < 64 → memNat u.gm (a + 8 * b) 8 = setBit (memNat s.gm (a + 8 * b) 8) 56 true) ∧
        (∀ x, x < a ∨ a + 512 ≤ x → memByte u.gm x = memByte s.gm x) ∧ u.xm = s.xm)) ∧
    (bits v.toNat 12 11 = 3 → Answers (.binUpdate who v) s (fun u => u.gm = s.gm ∧ u.xm = s.xm) ∧
      Answers (.binUpdateAll who v) s (fun u => u.gm = s.gm ∧ u.xm = s.xm) ∧
      Answers (.binAge who v) s (fun u => u.gm = s.gm ∧ u.xm = s.xm))) ∧
  (∀ s : State, s.running 11 = true → s.binStoreOk = true →
    let per := max 1 (s.get F.SQA_BIN_CFG_AGE_PERIOD) * 1000000000
    Answers .epochAdvance s (fun u => u.time = (s.until ((s.now / per + 1) * per)).time ∧
      u.get F.SQA_EPOCH_EPOCH = (s.get F.SQA_EPOCH_EPOCH + 1) % 64 ∧ u.xm = s.xm ∧ u.hts = s.hts ∧ u.air = s.air ∧
      (∀ k, k < 393216 → let w := memNat s.gm (s.binBase + 8 * k) 8
        memNat u.gm (s.binBase + 8 * k) 8 = if s.binAged w = true then setBit w 56 true else w) ∧
      ∀ x, x < s.binBase ∨ s.binBase + 0x300000 ≤ x → memByte u.gm x = memByte s.gm x)) ∧
  (∀ (st : BitVec 11) (s : State), s.running 11 = true →
    let c := s.staNat st.toNat 0x14 4
    let n := bits c 17 16
    let spd := bits c 15 0
    let wi := s.staNat st.toNat 0x10 4
    let x := s.until ((s.now : Int) + 1000 * max 0 ((spd : Int) - s.twtDelta st.toNat n)).toNat
    let hops := max 1 ((((x.twtDelta st.toNat n - spd) / (wi : Int)) + 1).toNat)
    let missed := x.hasWork n st.toNat = true ∧ (s.sqa n).served.contains st.toNat = false
    let moved := fun (u : State) => u.time = x.time ∧ Stored s.gm u.gm (s.staBase + 32 * st.toNat + 0x18) 4
      ((s.staNat st.toNat 0x18 4 + hops * wi) % 2 ^ 32)
    (n = 3 ∨ s.twtActive st.toNat n = false → Completes (.twtSpEnd st) s s) ∧
    (n < 3 → s.twtActive st.toNat n = true → ¬ missed →
      Answers (.twtSpEnd st) s (fun u => moved u ∧ u.get (F.SQ_TCNT_MISS n) = s.get (F.SQ_TCNT_MISS n))) ∧
    (n < 3 → s.twtActive st.toNat n = true → missed → s.countsOnly (37 + 8 * n) = true →
      Answers (.twtSpEnd st) s (fun u => moved u ∧ u.get (F.SQ_TCNT_MISS n) = (s.bump (F.SQ_TCNT_MISS n) 1).get (F.SQ_TCNT_MISS n) ∧
        u.on (F.FLT_SRC_STICKY (37 + 8 * n)) = true)))

/-- A free lane takes the oldest waiting engine job, where its region serves the pool, or else the oldest waiting program
job of its region, and that program job after RT_BURST engine jobs in a row while one waited; it copies the slot's
type, generation and key. A lane that may take no job takes none, and a lasting error of the key-store words erases
the slot and raises source 450. Each of the eight operations of a program's job writes its output and answers 0, or
answers AUTHFAIL, or answers MEMERR with source 451; PNRSV answers the lowest number of its block and moves the slot's
next number past it, or answers PN_EXHAUSTED with source 453. (R333, R341, R343, R344, R345, R346, R351) -/
def Obligations.CipherJobs : Prop :=
  (∀ (l : Fin 32) (pre post : List Job) (j : Job) (s : State), s.running (regionDomain (l.val / 8)) = true →
    s.cip.jobs = pre ++ j :: post → j.lane = none → s.laneJob l.val = none → (s.lane l.val).stopped = false →
    s.on F.CIP_CTL_ALARM = false → s.cipHalted = false →
    let k := s.keySlot j.slot
    let ln := s.lane l.val
    let region := l.val / 8
    let t := ({ s with cip := { s.cip with
      jobs := pre ++ { j with lane := some l.val, type := k.type, gen := s.keyGen j.slot, key := k.key } :: post } } : State)
    let program := s.cip.jobs.any (fun q => q.ofRegion region && q.lane.isNone)
    let engine := bit (if s.get F.CIP_CTL_POOL = 0 then 15 else s.get F.CIP_CTL_POOL) region &&
      s.cip.jobs.any (fun q => q.engine && q.lane.isNone)
    let limit := max 1 (s.get F.CIP_CTL_RT_BURST)
    (engine = true → j.engine = true → (∀ q ∈ pre, q.lane = none → q.engine = false) → program = false ∨ ln.burst < limit →
      Completes (.cipherJobStart l .good) s (t.setLane l.val { ln with burst := if program then ln.burst + 1 else 0 })) ∧
    (j.ofRegion region = true → (∀ q ∈ pre, q.lane = none → q.ofRegion region = false) → engine = false ∨ limit ≤ ln.burst →
      Completes (.cipherJobStart l .good) s (t.setLane l.val { ln with burst := 0 }) ∧
      (let w := (t.setLane l.val { ln with burst := 0 }).eraseSlot j.slot
       w.quiet = true → w.countsOnly 450 = true → Completes (.cipherJobStart l .lasting) s (w.counted 450)))) ∧
  (∀ (l : Fin 32) (k : Check) (s : State), s.quiet = true →
    (s.laneJob l.val).isSome = true ∨ (s.lane l.val).stopped = true ∨ s.domOn (regionDomain (l.val / 8)) = false ∨
      s.on F.CIP_CTL_ALARM = true ∨ s.cipHalted = true ∨ s.cip.jobs.all (fun j => j.lane.isSome) = true →
    Completes (.cipherJobStart l k) s s) ∧
  JobEnds .gcmpEncrypt 0 ∧ (∀ ro, JobEnds (fun l k part => .gcmpDecrypt l ⟨k, ro⟩ part) 1) ∧
  JobEnds .ccmpEncrypt 2 ∧ (∀ ro, JobEnds (fun l k part => .ccmpDecrypt l ⟨k, ro⟩ part) 3) ∧
  JobEnds .gmacGenerate 4 ∧ JobEnds .gmacVerify 5 ∧ JobEnds .cmacGenerate 6 ∧ JobEnds .cmacVerify 7 ∧
  (∀ (l : Fin 32) (r : Nat) (dest : Dest) (j : Job) (s : State), s.quiet = true → s.laneJob l.val = some j → j.op = 8 →
    j.src = .program dest r →
    let k := s.keySlot j.slot
    let u := s.dropLaneJob l.val
    (k.pn + j.len ≤ 2 ^ 48 → Completes (.pnrsv l) s
      ((u.setKeySlot j.slot { k with pn := k.pn + j.len }).arrive dest (statusWord 0 j.gen k.pn))) ∧
    (2 ^ 48 < k.pn + j.len → (u.arrive dest (statusWord 8 0 0)).countsOnly 453 = true →
      Completes (.pnrsv l) s ((u.arrive dest (statusWord 8 0 0)).counted 453))) ∧
  (∀ (l : Fin 32) (s : State), s.quiet = true → (∀ j, s.laneJob l.val = some j → j.op ≠ 8) → Completes (.pnrsv l) s s)

/-- GO with OP 0 or 1, by a requester that the lifecycle state lets command keys and with no alarm standing, files the
command with the staged key and sets GO; without the right, or under an alarm, it sets ERR and clears the stage
registers; while the requester's previous command runs GO is ignored. When the oldest command is a load, its
completion replaces the whole slot, and no job changes; when it is an erase, the slot is unloaded with key and packet
number 0, and every program job that names it ends with KEY_ERASED. Either way GEN advances by one modulo 16, no other
slot changes, GO falls and the stage registers clear. (R338, R339, R340, R341, R342, R349, R508) -/
def Obligations.KeyCommands : Prop :=
  (∀ (who : Fin 4) (v : Word) (s : State), s.takes who.val 5 = true →
    let slot := fldOf v (F.CIP_KEY_CMD_SLOT who.val)
    let type := fldOf v (F.CIP_KEY_CMD_TYPE who.val)
    let c : KeyCmd := ⟨who.val, false, slot, type, fldOf v (F.CIP_KEY_CMD_USE who.val),
      s.keyStage who.val (if type = 0 then 4 else 8), s.get (F.CIP_KEY_PN_PN who.val)⟩
    let t := fun op => s.take (withFld (withFld v (F.CIP_KEY_CMD_GO who.val) 1) (F.CIP_KEY_CMD_OP who.val) op)
      [F.CIP_KEY_CMD_SLOT who.val, F.CIP_KEY_CMD_OP who.val, F.CIP_KEY_CMD_TYPE who.val, F.CIP_KEY_CMD_USE who.val]
    (s.on (F.CIP_KEY_CMD_GO who.val) = false → s.keyRight who.val = true → s.on F.CIP_CTL_ALARM = false →
      Answers (.keyLoad who v) s (fun u => u.cip = { s.cip with cmds := s.cip.cmds ++ [c] } ∧
        u.get (F.CIP_KEY_CMD_GO who.val) = 1 ∧ u.get (F.CIP_KEY_CMD_ERR who.val) = 0 ∧ u.gm = s.gm ∧ u.yal = s.yal) ∧
      Answers (.keyErase who v) s (fun u => u.cip = { s.cip with cmds := s.cip.cmds ++ [{ c with erase := true }] } ∧
        u.get (F.CIP_KEY_CMD_GO who.val) = 1 ∧ u.get (F.CIP_KEY_CMD_ERR who.val) = 0 ∧ u.gm = s.gm ∧ u.yal = s.yal)) ∧
    (s.on (F.CIP_KEY_CMD_GO who.val) = false → s.keyRight who.val = false ∨ s.on F.CIP_CTL_ALARM = true →
      Completes (.keyLoad who v) s (((t 0).put (F.CIP_KEY_CMD_ERR who.val) 1).clearStage who.val) ∧
      Completes (.keyErase who v) s (((t 1).put (F.CIP_KEY_CMD_ERR who.val) 1).clearStage who.val)) ∧
    (s.on (F.CIP_KEY_CMD_GO who.val) = true →
      Completes (.keyLoad who v) s (t 0) ∧ Completes (.keyErase who v) s (t 1))) ∧
  (∀ (c : KeyCmd) (rest : List KeyCmd) (s : State), s.running 5 = true → s.cip.cmds = c :: rest → c.who < 4 →
    (c.erase = true → Completes .keyLoadComplete s s) ∧ (c.erase = false → Completes .keyEraseComplete s s) ∧
    (c.erase = false → Answers .keyLoadComplete s (fun u =>
      (u.keySlot c.slot).loaded = true ∧ (u.keySlot c.slot).type = c.type ∧ (u.keySlot c.slot).use = c.use ∧
      (u.keySlot c.slot).pn = c.pn % 2 ^ 48 ∧ (u.keySlot c.slot).key = c.key ∧ u.keyGen c.slot = (s.keyGen c.slot + 1) % 16 ∧
      (∀ k, k ≠ c.slot → u.keySlot k = s.keySlot k ∧ u.keyGen k = s.keyGen k) ∧ u.cip.cmds = rest ∧ u.cip.jobs = s.cip.jobs ∧
      u.get (F.CIP_KEY_CMD_GO c.who) = 0 ∧ (∀ k, k < 8 → u.get (F.CIP_KEY_STAGE_KEY k c.who) = 0) ∧ u.gm = s.gm)) ∧
    (c.erase = true → (∀ j ∈ s.cip.jobs, j.slot = c.slot → j.engine = false) →
      let ended := s.cip.jobs.filter (fun j => j.slot == c.slot)
      Answers .keyEraseComplete s (fun u =>
        (u.keySlot c.slot).loaded = false ∧ (u.keySlot c.slot).pn = 0 ∧ (u.keySlot c.slot).key = 0 ∧
        u.keyGen c.slot = (s.keyGen c.slot + 1) % 16 ∧
        (∀ k, k ≠ c.slot → u.keySlot k = s.keySlot k ∧ u.keyGen k = s.keyGen k) ∧ u.cip.cmds = rest ∧
        u.cip.jobs = s.cip.jobs.filter (fun j => j.slot != c.slot) ∧
        u.yal.arriving = s.yal.arriving ++
          ended.filterMap (fun j => match j.src with | .program d _ => some ⟨d, 2, none⟩ | _ => none) ∧
        u.get F.CIP_CNT_ERASED = min (2 ^ 16 - 1) (s.get F.CIP_CNT_ERASED + ended.length) ∧
        u.get (F.CIP_KEY_CMD_GO c.who) = 0 ∧ (∀ k, k < 8 → u.get (F.CIP_KEY_STAGE_KEY k c.who) = 0)))) ∧
  (∀ s : State, s.quiet = true → s.domOn 5 = false ∨ s.cip.cmds = [] →
    Completes .keyLoadComplete s s ∧ Completes .keyEraseComplete s s)

/-- CIP.CTL.ZERO (beside its rw fields), a failed entropy test (source 448) and a parity mismatch in a busy lane (source
449) zeroise, where that leaves no further source to report and class S enters no level: every slot is unloaded with
key and packet number 0 and its generation one further, every program job ends with ZEROISED, every lane and key
command clears, ZERO_STAT names the cause and counts; a source stands in ALARM, ZERO leaves ALARM as it was. A reseed
clears a lane's missed one; a missed reseed is borne once, the next stops the lane and raises source 448. (R336, R348,
R349, R350) -/
def Obligations.Zeroisation : Prop :=
  (∀ (who : Fin 4) (v : Word) (s : State), s.takes who.val 5 = true →
    let u := (s.take (withFld v F.CIP_CTL_ZERO 1) [F.CIP_CTL_RT_BURST, F.CIP_CTL_POOL]).zeroiseBy 0x3FF
    u.quiet = true → Completes (.zeroise who v) s u) ∧
  (∀ s : State, s.running 5 = true →
    let u := ((s.put F.CIP_RNG_STAT_OK 0).counted 448).zeroiseBy 448
    u.quiet = true → u.get F.FLT_CLASS_CFG3_ENTRY = 0 → Completes .rngHealthFail s u) ∧
  (∀ (l : Fin 32) (s : State), s.quiet = true →
    ((s.laneJob l.val).isSome = true → let u := (s.counted 449).zeroiseBy 449
      u.quiet = true → u.get F.FLT_CLASS_CFG3_ENTRY = 0 → Completes (.laneParityFault l) s u) ∧
    (s.laneJob l.val = none → Completes (.laneParityFault l) s s)) ∧
  (∀ (n : Nat) (s : State), s.quiet = true → (∀ j ∈ s.cip.jobs, j.engine = false) → n = 448 ∨ n = 449 ∨ n = 0x3FF →
    let u := s.zeroise n
    (∀ k, (u.keySlot k).loaded = false ∧ (u.keySlot k).key = 0 ∧ (u.keySlot k).pn = 0 ∧
      u.keyGen k = (s.keyGen k + 1) % 16) ∧
    u.cip.jobs = [] ∧ u.cip.cmds = [] ∧ u.cip.lanes = [] ∧
    u.yal.arriving = s.yal.arriving ++
      s.cip.jobs.filterMap (fun j => match j.src with | .program d _ => some ⟨d, 7, none⟩ | _ => none) ∧
    (∀ c ∈ s.cip.cmds, c.who < 4 → u.get (F.CIP_KEY_CMD_GO c.who) = 0 ∧ u.get (F.CIP_KEY_CMD_ERR c.who) = 1) ∧
    u.get F.CIP_ZERO_STAT_SRC = n ∧ u.get F.CIP_ZERO_STAT_COUNT = (s.get F.CIP_ZERO_STAT_COUNT + 1) % 2 ^ 16 ∧
    (n ≠ 0x3FF → u.get F.CIP_CTL_ALARM = 1) ∧ (n = 0x3FF → u.get F.CIP_CTL_ALARM = s.get F.CIP_CTL_ALARM) ∧ u.xm = s.xm) ∧
  (∀ (l : Fin 32) (s : State), s.running (regionDomain (l.val / 8)) = true →
    let ln := s.lane l.val
    Completes (.laneReseed l true) s (s.setLane l.val { ln with late := false, stopped := false }) ∧
    (ln.late = false → Completes (.laneReseed l false) s (s.setLane l.val { ln with late := true })) ∧
    (ln.late = true → ln.stopped = true → Completes (.laneReseed l false) s s) ∧
    (ln.late = true → ln.stopped = false →
      let u := ((s.setLane l.val { ln with stopped := true }).counted 448).zeroiseBy 448
      u.quiet = true → u.get F.FLT_CLASS_CFG3_ENTRY = 0 → Completes (.laneReseed l false) s u))

/-- A blank key-hash or debug-key slot takes, in TEST and DEVELOP, the staged hash and its valid fuse; a revocation, in
DEVELOP and DEPLOYED, of a slot that is neither the running image's nor the last good one sets one bit; a lifecycle
advance burns a forward state, RMA with the seed kill; an anti-rollback burn raises the floor one fuse at a time up to
TARGET. Every other GO burns nothing, sets ERR and counts source 621, or 622 for an anti-rollback burn above the
image's SVN or not above the floor; while a burn runs GO is ignored. (R506, R507, R508, R509) -/
def Obligations.SecurityFuses : Prop :=
  (∀ (who slot : Fin 4) (v : Word) (s : State), s.takes who.val 1 = true → s.countsOnly 621 = true →
    let lc := s.get F.SEC_LC_STATE
    let key := s.fuse.slots.getD slot.val {}
    let i := fldOf v F.SEC_FUSE_CTL_SLOT
    let revokes := (lc = 1 ∨ lc = 2) ∧ (s.sec.image = false ∨ s.get F.SEC_KEYHASH_STAT_RUN ≠ i) ∧ s.goodSlots ≠ [i]
    (key.blank = true ∧ lc < 2 → Answers (.fuseProgramKeyhash who slot v) s (fun u =>
      u.fuse = { s.fuse with slots := setAt s.fuse.slots slot.val ⟨s.wide 0x1200040 12, true⟩ } ∧
      u.get F.SEC_FUSE_CTL_ERR = 0 ∧ u.sec = s.sec ∧ u.gm = s.gm)) ∧
    (key.blank = false ∨ 2 ≤ lc → Answers (.fuseProgramKeyhash who slot v) s (fun u =>
      FuseRefused s u F.SEC_FUSE_CTL_ERR 621 ∧ u.gm = s.gm)) ∧
    (s.fuse.dbgKey.blank = true ∧ lc < 2 → Answers (.fuseProgramDebugkey who v) s (fun u =>
      u.fuse = { s.fuse with dbgKey := ⟨s.wide 0x1200040 12, true⟩ } ∧
      u.get F.SEC_FUSE_CTL_ERR = 0 ∧ u.sec = s.sec ∧ u.gm = s.gm)) ∧
    (s.fuse.dbgKey.blank = false ∨ 2 ≤ lc → Answers (.fuseProgramDebugkey who v) s (fun u =>
      FuseRefused s u F.SEC_FUSE_CTL_ERR 621 ∧ u.gm = s.gm)) ∧
    (revokes → Answers (.fuseRevoke who v) s (fun u =>
      u.fuse = { s.fuse with revoked := setBit s.fuse.revoked i true } ∧
      u.get F.SEC_FUSE_CTL_ERR = 0 ∧ u.sec = s.sec ∧ u.gm = s.gm)) ∧
    (¬revokes → Answers (.fuseRevoke who v) s (fun u => FuseRefused s u F.SEC_FUSE_CTL_ERR 621 ∧ u.gm = s.gm))) ∧
  (∀ (who : Fin 4) (v : Word) (s : State), s.takes who.val 1 = true → s.countsOnly 621 = true →
    let t := fldOf v F.SEC_LC_CTL_TARGET
    let moves := s.fuse.lifecycle < t ∧ fldOf v F.SEC_LC_CTL_CONFIRM = 0x3C ∧
      (t = 2 → ∃ k ∈ s.fuse.slots, k.valid = true) ∧ (t = 3 → s.sec.image = true ∨ s.on F.SEC_DBG_CTL_OPEN = true)
    (moves → Answers (.lifecycleAdvance who v) s (fun u =>
      u.fuse = { s.fuse with lifecycle := t, kill := s.fuse.kill || t == 3 } ∧
      u.get F.SEC_LC_STATE = s.get F.SEC_LC_STATE ∧ u.get F.SEC_LC_CTL_ERR = 0 ∧ u.sec = s.sec ∧ u.gm = s.gm)) ∧
    (¬moves → Answers (.lifecycleAdvance who v) s (fun u => FuseRefused s u F.SEC_LC_CTL_ERR 621 ∧ u.gm = s.gm))) ∧
  (∀ (who : Fin 4) (v : Word) (s : State), s.takes who.val 1 = true →
    let t := fldOf v F.SEC_ARB_TARGET
    (s.sec.arb = none → t ≤ s.acn.svn → s.fuse.floor < t →
      Answers (.arbBurn who v) s (fun u => u.sec = { s.sec with arb := some (min 64 t) } ∧ u.fuse = s.fuse ∧
        u.get F.SEC_ARB_GO = 1 ∧ u.get F.SEC_ARB_ERR = 0 ∧ u.gm = s.gm)) ∧
    (s.sec.arb = none → s.acn.svn < t ∨ t ≤ s.fuse.floor → s.countsOnly 622 = true →
      Answers (.arbBurn who v) s (fun u => FuseRefused s u F.SEC_ARB_ERR 622 ∧ u.gm = s.gm)) ∧
    (s.sec.arb ≠ none → Completes (.arbBurn who v) s (s.take (withFld v F.SEC_ARB_GO 1) [F.SEC_ARB_TARGET]))) ∧
  (∀ (t : Nat) (s : State), s.running 1 = true → s.sec.arb = some t →
    let floor := if s.fuse.floor < t then s.fuse.floor + 1 else s.fuse.floor
    let u : State := { s with fuse := { s.fuse with floor := floor } }
    Completes .arbFuseBurned s (if t ≤ floor
      then ({ u with sec := { u.sec with arb := none } } : State).put F.SEC_ARB_GO 0 else u)) ∧
  (∀ s : State, s.quiet = true → s.sec.arb = none → Completes .arbFuseBurned s s)

/-- GO of the host in the wait for an image reports the code of R504; where it is 1 the image is loaded and the boot goes
on at step 5, otherwise Sprout waits again and sources 616 and 617 are counted; of another requester, or outside that
wait, GO does nothing. The verifier notes its run, is deaf to GO while one of that requester runs, and reports its
code, copying nothing. A write of 1 to SEC.LOCK sets LOCK and changes nothing else; a locked rwl field keeps its
value. An image passes the checks up to ROLLBACK exactly where header, key and signature are good, CODES names this
part and the SVN is not below the floor. (R500, R501, R504, R505, R510) -/
def Obligations.SecurityImages : Prop :=
  (∀ (who : Fin 4) (v : Word) (s : State), s.takes who.val 1 = true →
    (who = 0 → s.on F.SEC_BOOT_STAT_WAIT = true → s.countsOnly 616 = true → s.countsOnly 617 = true →
      let s' := s.put F.SEC_BOOT_STAT_WAIT 0
      let r := if s'.imgCheck (.gm 0) = 1 then s'.imgLoad (.gm 0) true else (s'.imgCheck (.gm 0), s')
      Completes (.hostImageLoad who v) s (if r.1 = 1 then (r.2.put F.SEC_BOOT_STAT_RESH 1).bootLoaded (.gm 0) 2
        else ((((r.2.put F.SEC_BOOT_STAT_RESH r.1).put F.SEC_BOOT_STAT_WAIT 1).counted 616).counted 617))) ∧
    (who ≠ 0 ∨ s.on F.SEC_BOOT_STAT_WAIT = false → Completes (.hostImageLoad who v) s s)) ∧
  (∀ (who : Fin 4) (v : Word) (s : State), s.takes who.val 1 = true →
    (s.on (F.SEC_VER_CTL_BUSY who.val) = false → Completes (.imageVerify who v) s
      ((({ s with sec := { s.sec with vers := s.sec.vers ++ [(who.val, s.get (F.SEC_VER_SRC_ADDR who.val) / 64 * 64)] } } :
        State).put (F.SEC_VER_CTL_BUSY who.val) 1).put (F.SEC_VER_CTL_GO who.val) 1)) ∧
    (s.on (F.SEC_VER_CTL_BUSY who.val) = true → Completes (.imageVerify who v) s s)) ∧
  (∀ (who a : Nat) (l : List (Nat × Nat)) (s : State), s.running 1 = true → s.sec.vers = (who, a) :: l →
    Completes .imageVerifyDone s (((({ s with sec := { s.sec with vers := l } } : State).put (F.SEC_VER_CTL_BUSY who) 0).put
      (F.SEC_VER_CTL_GO who) 0).put (F.SEC_VER_CTL_RESULT who) (s.imgVerify (.gm a)))) ∧
  (∀ s : State, s.quiet = true → s.sec.vers = [] → Completes .imageVerifyDone s s) ∧
  (∀ (who : Fin 4) (v : Word) (s : State), s.takes who.val 1 = true →
    Completes (.secLock who v) s (s.put F.SEC_LOCK_LOCK 1)) ∧
  (∀ (v old : Nat) (f : FieldDesc), f.acc = .rwl → written true v old f = bits old f.hi f.lo) ∧
  (∀ (p : ImgAt) (s : State), s.imgCheck p = 1 ↔ s.imgHeaderGood p = true ∧ s.imgKeyGood p = true ∧ s.imgSigGood p = true ∧
    bit (s.imgNat p 0xE 1) s.fuse.code.val = true ∧ s.fuse.floor ≤ s.imgNat p 0xC 1)

/-- A measurement 2 to 7 becomes the hash of itself and the staged bytes, 0 and 1 never do by command. A quote is taken
with its nonce and address; with no identity key, or in RMA, it is refused with STATUS 1, and while source 448 is
pending with STATUS 2; GO of a requester whose quote runs is ignored. A finished quote inside GM stands there with the
fields of R513 and a signature of the identity key, and no other byte changes; refused at its end it writes nothing.
REQ draws a fresh challenge. SUBMIT opens the debug port and extends MEAS1 where the response verifies, zeroising in
DEPLOYED, and otherwise counts a failure and source 618, the third failure barring the port. (R512, R513, R514, R518) -/
def Obligations.SecurityEvidence : Prop :=
  (∀ (who : Fin 4) (v : Word) (s : State), s.takes who.val 1 = true →
    let i := fldOf v F.SEC_MEAS_CTL_INDEX
    let u := s.take (withFld v F.SEC_MEAS_CTL_GO 1) [F.SEC_MEAS_CTL_INDEX]
    Completes (.measExtend who v) s (if i < 2 then u
      else u.setWide (0x1200140 + 0x30 * i) 12 (leNat (byteList (sha384 (nums
        (natLe (s.wide (0x1200140 + 0x30 * i) 12) 48 ++ natLe (s.wide 0x1200100 12) 48))))))) ∧
  (∀ (who : Fin 4) (v : Word) (s : State), s.takes who.val 1 = true →
    let rma := s.get F.SEC_LC_STATE = 3 ∨ s.sec.key = none
    (s.on (F.SEC_QUOTE_CTL_BUSY who.val) = true → Completes (.quoteRequest who v) s s) ∧
    (s.on (F.SEC_QUOTE_CTL_BUSY who.val) = false → rma →
      Completes (.quoteRequest who v) s (s.put (F.SEC_QUOTE_CTL_STATUS who.val) 1)) ∧
    (s.on (F.SEC_QUOTE_CTL_BUSY who.val) = false → ¬rma → s.isPending 448 = true →
      Completes (.quoteRequest who v) s (s.put (F.SEC_QUOTE_CTL_STATUS who.val) 2)) ∧
    (s.on (F.SEC_QUOTE_CTL_BUSY who.val) = false → ¬rma → s.isPending 448 = false → s.halted (span 616 632) = false →
      Completes (.quoteRequest who v) s ((({ s with sec := { s.sec with quotes := s.sec.quotes ++
        [(who.val, natLe (s.wide (0x1200300 + 0x100000000 * who.val) 12) 48, s.get (F.SEC_QUOTE_DST_ADDR who.val) / 64 * 64)] } } :
          State).put (F.SEC_QUOTE_CTL_BUSY who.val) 1).put (F.SEC_QUOTE_CTL_GO who.val) 1))) ∧
  (∀ (who dst : Nat) (nonce : List Byte) (rest : List (Nat × List Byte × Nat)) (s : State), s.running 1 = true →
    s.sec.quotes = (who, nonce, dst) :: rest →
    (∀ key, s.get F.SEC_LC_STATE ≠ 3 → s.sec.key = some key → s.isPending 448 = false → s.halted (span 616 632) = false →
      nonce.length = 48 → dst + 560 ≤ Config.granaryBytes →
      Answers .quoteDone s (fun u => u.sec = { s.sec with quotes := rest } ∧
        u.get (F.SEC_QUOTE_CTL_BUSY who) = 0 ∧ u.get (F.SEC_QUOTE_CTL_GO who) = 0 ∧ u.get (F.SEC_QUOTE_CTL_STATUS who) = 0 ∧
        memNat u.gm dst 4 = 0x544F5551 ∧ memNat u.gm (dst + 4) 2 = 1 ∧ memNat u.gm (dst + 6) 2 = 560 ∧
        memNat u.gm (dst + 8) 8 = Config.serial % 2 ^ 64 ∧ memNat u.gm (dst + 0x10) 8 = s.now % 2 ^ 64 ∧
        memNat u.gm (dst + 0x18) 4 = s.cnt 0x10 % 2 ^ 32 ∧ memNat u.gm (dst + 0x1C) 1 = s.get F.SEC_LC_STATE % 256 ∧
        memNat u.gm (dst + 0x1D) 1 = s.get F.SEC_KEYHASH_STAT_RUN % 256 ∧ memNat u.gm (dst + 0x1E) 1 = s.acn.svn % 256 ∧
        memNat u.gm (dst + 0x1F) 1 = s.fuse.floor % 256 ∧ memBytes u.gm (dst + 0x20) 48 = nonce ∧
        (∀ i, i < 8 → memBytes u.gm (dst + 0x50 + 48 * i) 48 = s.meas i) ∧
        (∃ k, memBytes u.gm (dst + 0x1D0) 96 = byteList (ecSign key k (sha384 (nums (memBytes u.gm dst 0x1D0))))) ∧
        (∀ x, x < dst ∨ dst + 560 ≤ x → memByte u.gm x = memByte s.gm x) ∧ u.xm = s.xm)) ∧
    (s.get F.SEC_LC_STATE = 3 ∨ s.sec.key = none →
      Completes .quoteDone s (((({ s with sec := { s.sec with quotes := rest } } : State).put (F.SEC_QUOTE_CTL_BUSY who) 0).put
        (F.SEC_QUOTE_CTL_GO who) 0).put (F.SEC_QUOTE_CTL_STATUS who) 1))) ∧
  (∀ s : State, s.quiet = true → s.sec.quotes = [] → Completes .quoteDone s s) ∧
  (∀ (who : Fin 4) (v : Word) (bad : Fin 3) (s : State), s.takes who.val 1 = true →
    (bit v.toNat 1 = false → Answers (.debugChallengeRequest who v bad) s (fun u =>
      natLe (u.wide 0x1200400 8) 32 = (List.range 32).map (Config.drbgByte s.freeCtr) ∧ u.freeCtr = s.freeCtr + 1 ∧
      u.sec = { s.sec with chal := true } ∧ u.gm = s.gm)) ∧
    (bit v.toNat 0 = false →
      let u : State := { s with sec := { s.sec with chal := false } }
      let opened := (u.put F.SEC_DBG_CTL_OPEN 1).measExtend 1 [1]
      let failed := u.bump F.SEC_DBG_CTL_FAILS 1
      let zeroised := (opened.acnNext bad.val).zeroiseBy 0x3FF
      (s.debugGood = true → s.get F.SEC_LC_STATE = 2 → zeroised.quiet = true) →
      s.countsOnly 618 = true → Completes (.debugSubmit who v bad) s
        (if s.debugGood = true then (if s.get F.SEC_LC_STATE = 2 then zeroised else opened)
          else (if failed.get F.SEC_DBG_CTL_FAILS = 3 then failed.put F.SEC_DBG_CTL_BARRED 1 else failed).counted 618)))

/-- A rate write clamps to 1,000 ppm (source 2 when it does) and clears HOLDOVER; a step adds its signed offset while
armed and locks TBN, and is ignored with source 1 otherwise; RESET and HOLD set the rate to 0 and leave TBN's value,
RESET arms it, HOLD sets HOLDOVER; a TSF write lands unless the radio beacons, when it is counted as source 5; none of
these moves TBM. A tick of the slow clock is 30,517 ns and a fraction of 0x9400_0000, on the fallback while the 32.768
kHz clock is absent. The loss and return of that clock set CLK_STAT.X32K_OK, the loss counting source 7. The crystal's
failure, except in Retain and Off, moves TBM to the slow clock with source 0 and the device to Limp. (R103, R104,
R105, R106, R107, R108, R109, R112, R553) -/
def Obligations.TimeBases : Prop :=
  (∀ (who : Fin 4) (v : Word) (s : State), s.takes who.val 5 = true →
    (v.toInt.natAbs ≤ 1099511628 → Answers (.tbnRateWrite who v) s (fun u =>
      u.get F.TIME_TBN_RATE_RHO = v.toNat ∧ u.get F.TIME_TBN_CTL_HOLDOVER = 0 ∧
      u.get F.TIME_TBN_CTL_LOCKED = s.get F.TIME_TBN_CTL_LOCKED ∧ u.time.tbm = s.time.tbm ∧ u.time.tbnBase = s.tbn ∧
      u.time.tbnAnchor = s.time.tbm ∧ u.get (F.FLT_SRC_COUNT 2) = s.get (F.FLT_SRC_COUNT 2))) ∧
    (1099511628 < v.toInt.natAbs → s.countsOnly 2 = true → Answers (.tbnRateWrite who v) s (fun u =>
      u.get F.TIME_TBN_RATE_RHO = ofSigned 32 (if v.toInt < 0 then -1099511628 else 1099511628) ∧
      u.get F.TIME_TBN_CTL_HOLDOVER = 0 ∧ u.time.tbm = s.time.tbm ∧ u.time.tbnBase = s.tbn ∧ u.time.tbnAnchor = s.time.tbm ∧
      u.get (F.FLT_SRC_COUNT 2) = (s.bump (F.FLT_SRC_COUNT 2) 1).get (F.FLT_SRC_COUNT 2))) ∧
    (s.on F.TIME_TBN_CTL_ARMED = true → Answers (.tbnStep who v) s (fun u =>
      u.time.tbnBase = ofSigned 96 ((s.tbn : Int) + signed 96 (s.staged who.val 0x10024 2 v.toNat)) ∧
      u.time.tbnAnchor = s.time.tbm ∧ u.time.tbm = s.time.tbm ∧ u.get F.TIME_TBN_CTL_LOCKED = 1 ∧
      u.get F.TIME_TBN_CTL_ARMED = 0 ∧ u.get F.TIME_TBN_RATE_RHO = s.get F.TIME_TBN_RATE_RHO)) ∧
    (s.on F.TIME_TBN_CTL_ARMED = false → s.countsOnly 1 = true → Completes (.tbnStep who v) s (s.counted 1)) ∧
    Answers (.tbnReset who v) s (fun u =>
      u.get F.TIME_TBN_RATE_RHO = 0 ∧ u.get F.TIME_TBN_CTL_LOCKED = 0 ∧ u.get F.TIME_TBN_CTL_ARMED = 1 ∧
      u.get F.TIME_TBN_CTL_HOLDOVER = b2n (bit v.toNat 4) ∧ u.time.tbm = s.time.tbm ∧ u.time.tbnBase = s.tbn ∧
      ∀ (n : Fin 4) (sd : Fin 16), n.val < s.seqs.length → s.tbnWait n.val = some sd.val → WaitEnded u n.val sd.val 2) ∧
    Answers (.tbnHold who v) s (fun u =>
      u.get F.TIME_TBN_RATE_RHO = 0 ∧ u.get F.TIME_TBN_CTL_HOLDOVER = 1 ∧ u.time.tbm = s.time.tbm ∧ u.time.tbnBase = s.tbn ∧
      u.get F.TIME_TBN_CTL_LOCKED = (if bit v.toNat 3 then 0 else s.get F.TIME_TBN_CTL_LOCKED))) ∧
  (∀ (who : Fin 4) (n : Fin 3) (v : Word) (s : State), s.takes who.val 5 = true →
    (s.beaconing n.val = false → Completes (.tsfWrite who n v) s
      (s.setTsf n.val (s.staged who.val (0x10040 + 8 * n.val) 1 v.toNat))) ∧
    (s.beaconing n.val = true → s.countsOnly 5 = true → Completes (.tsfWrite who n v) s (s.counted 5))) ∧
  (∀ (n k : Nat) (s : State), n < s.time.tsfBase.length → k < 2 ^ 63 → (s.setTsf n k).tsf n = k) ∧
  (∀ (k : Nat) (s : State), (s.ticks k).time = if s.on F.TIME_CLK_STAT_SRC
    then { s.time with tbm := s.time.tbm + k * (30517 * 2 ^ 32 + 0x94000000), fb := !s.on F.TIME_CLK_STAT_X32K_OK }
    else { s.time with tbm := s.time.tbm + k * 2 ^ 32 }) ∧
  (∀ s : State, s.quiet = true → Completes .x32kReturn s (s.put F.TIME_CLK_STAT_X32K_OK 1) ∧
    ((s.put F.TIME_CLK_STAT_X32K_OK 0).countsOnly 7 = true →
      Completes .x32kLoss s ((s.put F.TIME_CLK_STAT_X32K_OK 0).counted 7))) ∧
  (∀ (bad : Fin 3) (s : State), s.quiet = true →
    let slow : State := { s.put F.TIME_CLK_STAT_SRC 1 with time := { s.time with fb := !s.on F.TIME_CLK_STAT_X32K_OK } }
    (s.mode = 3 ∨ s.mode = 0 → Completes (.crystalFail bad) s s) ∧
    (s.mode = 2 → slow.countsOnly 0 = true → Completes (.crystalFail bad) s (slow.counted 0)) ∧
    (∀ w : State, s.mode ≠ 0 → s.mode ≠ 2 → s.mode ≠ 3 → w = ((slow.acnNext bad.val).raise 0).limpEnter →
      w.raised = [(0, false)] → ({ w with raised := [] } : State).quiet = true →
      ({ w with raised := [] } : State).countsOnly 0 = true →
      Completes (.crystalFail bad) s (({ w with raised := [] } : State).counted 0)))

/-- A level held for less than FILT, or that reaches a domain with another source, does nothing. In quadrature the next
state forward is a count forward, the one before it a count back, both inputs changed at once a fault (source 17 +
4d); a pulse input counts its rising edges. An index sets n to 0, adds a cycle, is no observation, and is a fault
where a known n was not CPR. A mains edge too soon after the last is ignored, one outside 40 to 70 Hz is a fault, and
any other is observed with the phase of R119. A host observation ahead of TBM or not after the last is rejected with
source 18 + 4d. The first observation becomes the reference; in LOCKED the loop of R125 moves reference, rate and mean
residual. (R119, R120, R121, R122, R124, R125, R128) -/
def Obligations.PhaseObservations : Prop :=
  (∀ (d : Fin 4) (t held : Nat) (s : State), s.quiet = true →
    let x := s.pd d.val
    let filt := s.get (F.PHS_PD_IDX_FILT d.val)
    let src := s.get (F.PHS_PD_CFG_SRC d.val)
    let on := s.domOn 5 = true ∧ s.on (F.PHS_PD_CFG_EN d.val) = true
    let fault := fun v : State => (v.bump (F.PHS_PD_CNT_ILLEG d.val) 1)
    (∀ a b : Bool, (held < filt ∨ ¬on ∨ src = 2 ∨ src = 3 ∨ 5 < src → Completes (.phaseInputCount d ⟨t, held⟩ a b) s s) ∧
      (on → filt ≤ held → src = 0 ∨ src = 1 →
        let v := (s.until t).setPd d.val { x with a := a, b := b }
        let step := (grayPos a b + 4 - grayPos x.a x.b) % 4
        let forward := if s.on (F.PHS_PD_CFG_INV_DIR d.val) then 3 else 1
        (step = 0 → Completes (.phaseInputCount d ⟨t, held⟩ a b) s v) ∧
        (step = 2 → (fault v).countsOnly (17 + 4 * d.val) = true →
          Completes (.phaseInputCount d ⟨t, held⟩ a b) s ((fault v).counted (17 + 4 * d.val))) ∧
        (step = forward → (v.countForward d.val t).quiet = true →
          Completes (.phaseInputCount d ⟨t, held⟩ a b) s (v.countForward d.val t)) ∧
        (step = 4 - forward → (v.countReverse d.val t).quiet = true →
          Completes (.phaseInputCount d ⟨t, held⟩ a b) s (v.countReverse d.val t))) ∧
      (on → filt ≤ held → src = 4 ∨ src = 5 →
        let v := (s.until t).setPd d.val { x with a := a, b := b }
        (a = false ∨ x.a = true → Completes (.phaseInputCount d ⟨t, held⟩ a b) s v) ∧
        (a = true → x.a = false → (v.countForward d.val t).quiet = true →
          Completes (.phaseInputCount d ⟨t, held⟩ a b) s (v.countForward d.val t)))) ∧
    (held < filt ∨ ¬on ∨ src = 2 ∨ src = 3 ∨ 5 < src → Completes (.phaseIndexEdge d ⟨t, held⟩) s s) ∧
    (on → filt ≤ held → src ≤ 1 ∨ src = 4 ∨ src = 5 →
      let v := (((s.until t).put (F.PHS_PD_STAT_IDX_SEEN d.val) 1).addWrap (F.PHS_PD_CYC_CYC d.val) 1).setPd d.val
        { x with n := 0, fresh := false, known := true }
      (x.known = false ∨ x.n.toNat = s.cpr d.val → Completes (.phaseIndexEdge d ⟨t, held⟩) s v) ∧
      (x.known = true → x.n.toNat ≠ s.cpr d.val → (fault v).countsOnly (17 + 4 * d.val) = true →
        Completes (.phaseIndexEdge d ⟨t, held⟩) s ((fault v).counted (17 + 4 * d.val)))) ∧
    (∀ rising : Bool,
      let prev := if rising then x.rise else x.fall
      let gap := t - (prev - 1)
      let soon := prev ≠ 0 ∧ gap < (if x.locked1 then x.period / 4 else 5000000)
      let wrong := prev ≠ 0 ∧ (70 * gap < 1000000000 ∨ 1000000000 < 40 * gap)
      let v := if rising
        then ((s.until t).setPd d.val { x with rise := t + 1 }).addWrap (F.PHS_PD_CYC_CYC d.val) 1
        else (s.until t).setPd d.val { x with fall := t + 1 }
      let seen := v.observe d.val t (v.countPhase d.val 0 + (if rising then 0 else 32768 * 65536))
      (held < filt ∨ ¬on ∨ (src ≠ 2 ∧ src ≠ 3) ∨ (src = 2 ∧ rising = false) → Completes (.mainsEdge d ⟨t, held⟩ rising) s s) ∧
      (on → filt ≤ held → (src = 2 ∧ rising = true) ∨ src = 3 →
        (soon → Completes (.mainsEdge d ⟨t, held⟩ rising) s (s.until t)) ∧
        (¬soon → wrong → (fault v).countsOnly (17 + 4 * d.val) = true →
          Completes (.mainsEdge d ⟨t, held⟩ rising) s ((fault v).counted (17 + 4 * d.val))) ∧
        (¬soon → ¬wrong → seen.quiet = true → Completes (.mainsEdge d ⟨t, held⟩ rising) s seen)))) ∧
  (∀ (who d : Fin 4) (v : Word) (s : State), s.takes who.val 5 = true →
    let x := s.pd d.val
    let w := s.staged who.val (0x20030 + 0x100 * d.val) 2 v.toNat
    let t := w / 2 ^ 32
    let on := s.on (F.PHS_PD_CFG_EN d.val) = true ∧ s.get (F.PHS_PD_CFG_SRC d.val) = 6
    let late := s.now < t ∨ ((x.obs ≠ 0 ∨ x.tLast ≠ 0) ∧ t ≤ x.tLast)
    let seen := s.observe d.val t (w % 2 ^ 32 * 65536)
    (¬on → Completes (.hostObservation who d v) s s) ∧
    (on → late → (s.bump (F.PHS_PD_CNT_HREJ d.val) 1).countsOnly (18 + 4 * d.val) = true →
      Completes (.hostObservation who d v) s ((s.bump (F.PHS_PD_CNT_HREJ d.val) 1).counted (18 + 4 * d.val))) ∧
    (on → ¬late → seen.quiet = true → Completes (.hostObservation who d v) s seen)) ∧
  (∀ (d t p : Nat) (s : State), d < s.phs.length →
    let x := s.pd d
    let u := s.observe d t p
    let e := signed 48 (p % 2 ^ 48 + 2 ^ 48 - x.est t)
    let kp := s.get (F.PHS_PD_CFG_KP d)
    let w := if x.tLast < t
      then ofSigned 64 ((x.w : Int) + Int.tdiv (e * 2 ^ 32) (t - x.tLast : Nat) / 2 ^ s.get (F.PHS_PD_CFG_KI d)) else x.w
    (∀ k, k ≠ d → u.pd k = s.pd k) ∧
    (x.obs = 0 → (u.pd d).obs = 1 ∧ (u.pd d).refT = t ∧ (u.pd d).tLast = t ∧ (u.pd d).refP = p % 2 ^ 48 ∧ u.regs = s.regs) ∧
    (x.obs ≠ 0 → s.get (F.PHS_PD_STAT_STATE d) = 2 → (u.pd d).refT = t ∧ (u.pd d).tLast = t ∧
      (u.pd d).refP = ofSigned 48 ((x.est t : Int) + e / 2 ^ kp) ∧ (u.pd d).w = w ∧
      (u.pd d).ares = ((x.ares : Int) + ((e.natAbs : Int) - x.ares) / 16).toNat))

/-- EN with a source takes a domain from OFF to ACQ with no observation and starts its timer; with SRC 7 it is ignored and
counted, and while EN is 1 a write keeps SRC and is counted. Clearing EN takes it to OFF as a loss is counted, and
every phase wait on the domain ends with status 2. A write of PD_CYC sets the count while unlocked and is counted
while locked; PD_PQ sets the phase asked for; ACQ_TO without lock is counted once as source 19 + 4d; LOSS_TO without
an observation drops the lock to ACQ and counts LOSSES. Other domains keep their state. (R88, R122, R123, R126, R128,
R130, R134) -/
def Obligations.PhaseDomains : Prop :=
  (∀ (who d : Fin 4) (v : Word) (s : State), s.takes who.val 5 = true → d.val < s.phs.length →
    let src := fldOf v (F.PHS_PD_CFG_SRC d.val)
    let counted := (s.bump (F.PHS_PD_CNT_CFG d.val) 1).get (F.PHS_PD_CNT_CFG d.val)
    (s.on (F.PHS_PD_CFG_EN d.val) = false → src ≠ 7 →
      Answers (.domainEnable who d v) s (fun u => u.on (F.PHS_PD_CFG_EN d.val) = true ∧
        u.get (F.PHS_PD_CFG_SRC d.val) = src ∧ u.get (F.PHS_PD_STAT_STATE d.val) = 1 ∧
        (u.pd d.val).obs = 0 ∧ (u.pd d.val).fresh = true ∧ (u.pd d.val).acqAt = s.now ∧
        (∀ e, e ≠ d.val → u.pd e = s.pd e) ∧ u.time = s.time ∧ u.seqs = s.seqs)) ∧
    (s.on (F.PHS_PD_CFG_EN d.val) = false → src = 7 →
      Answers (.domainEnable who d v) s (fun u => u.on (F.PHS_PD_CFG_EN d.val) = false ∧
        u.get (F.PHS_PD_CNT_CFG d.val) = counted ∧ u.phs = s.phs ∧ u.time = s.time ∧ u.seqs = s.seqs)) ∧
    (s.on (F.PHS_PD_CFG_EN d.val) = true →
      Answers (.domainEnable who d v) s (fun u => u.on (F.PHS_PD_CFG_EN d.val) = true ∧
        u.get (F.PHS_PD_CFG_SRC d.val) = s.get (F.PHS_PD_CFG_SRC d.val) ∧
        u.get (F.PHS_PD_STAT_STATE d.val) = s.get (F.PHS_PD_STAT_STATE d.val) ∧
        u.get (F.PHS_PD_CNT_CFG d.val) = counted ∧ u.phs = s.phs ∧ u.time = s.time ∧ u.seqs = s.seqs)) ∧
    (s.on (F.PHS_PD_CFG_EN d.val) = true →
      Answers (.domainDisable who d v) s (fun u => u.on (F.PHS_PD_CFG_EN d.val) = false ∧
        u.get (F.PHS_PD_CFG_SRC d.val) = s.get (F.PHS_PD_CFG_SRC d.val) ∧
        u.get (F.PHS_PD_STAT_STATE d.val) = 0 ∧ u.get (F.PHS_PD_STAT_IDX_SEEN d.val) = 0 ∧
        u.get (F.PHS_PD_CNT_CFG d.val) = counted ∧
        u.get (F.PHS_PD_CNT_LOSSES d.val) = (s.bump (F.PHS_PD_CNT_LOSSES d.val) 1).get (F.PHS_PD_CNT_LOSSES d.val) ∧
        (∀ e, e ≠ d.val → u.pd e = s.pd e) ∧ u.time = s.time ∧
        ∀ (n : Fin 4) (sd : Fin 16), n.val < s.seqs.length → s.phaseWait n.val d.val = some sd.val →
          WaitEnded u n.val sd.val 2)) ∧
    (s.on (F.PHS_PD_CFG_EN d.val) = false →
      Answers (.domainDisable who d v) s (fun u => u.on (F.PHS_PD_CFG_EN d.val) = false ∧
        u.get (F.PHS_PD_CFG_SRC d.val) = src ∧ u.phs = s.phs ∧ u.time = s.time ∧ u.seqs = s.seqs)) ∧
    (s.locked d.val = true → Completes (.pdCycWrite who d v) s (s.bump (F.PHS_PD_CNT_CFG d.val) 1)) ∧
    (s.locked d.val = false → Answers (.pdCycWrite who d v) s (fun u =>
      u.get (F.PHS_PD_CYC_CYC d.val) = v.toNat % 65536 ∧ u.phaseNow d.val / 65536 % 65536 = v.toNat % 65536 ∧
      (∀ e, e ≠ d.val → u.pd e = s.pd e) ∧ u.time = s.time)) ∧
    Completes (.pdPqWrite who d v) s (s.put (F.PHS_PD_PQ_PHI d.val) v.toNat)) ∧
  (∀ (d : Fin 4) (s : State), s.running 5 = true → d.val < s.phs.length →
    let limit := s.get (F.PHS_PD_TO_ACQ_TO d.val)
    (∀ u : State, s.get (F.PHS_PD_STAT_STATE d.val) = 1 → limit ≠ 0 → (s.pd d.val).acqOut = false →
      u = (s.until ((s.pd d.val).acqAt + 10000000 * limit)).setPd d.val { s.pd d.val with acqOut := true } →
      u.countsOnly (19 + 4 * d.val) = true → Completes (.acqTimeout d) s (u.counted (19 + 4 * d.val))) ∧
    (s.get (F.PHS_PD_STAT_STATE d.val) ≠ 1 ∨ limit = 0 ∨ (s.pd d.val).acqOut = true → Completes (.acqTimeout d) s s) ∧
    (s.locked d.val = false → Completes (.lossTimeout d) s s) ∧
    (s.locked d.val = true → s.countsOnly (16 + 4 * d.val) = true →
      Answers (.lossTimeout d) s (fun u => u.get (F.PHS_PD_STAT_STATE d.val) = 1 ∧
        u.get (F.PHS_PD_CNT_LOSSES d.val) = (s.bump (F.PHS_PD_CNT_LOSSES d.val) 1).get (F.PHS_PD_CNT_LOSSES d.val) ∧
        (u.pd d.val).good = 0 ∧ (u.pd d.val).w = (s.pd d.val).w ∧ (u.pd d.val).acqAt = u.now ∧
        u.time = (s.until ((s.pd d.val).tLast + 10000000 * max 1 (s.get (F.PHS_PD_TO_LOSS_TO d.val)))).time ∧
        (∀ e, e ≠ d.val → u.pd e = s.pd e) ∧
        ∀ (n : Fin 4) (sd : Fin 16), n.val < s.seqs.length → s.phaseWait n.val d.val = some sd.val →
          WaitEnded u n.val sd.val 2)))

/-- In an active mode PPS_OUT rises at the next whole second of its base, advanced by the egress delay, and falls after
WIDTH milliseconds of 1 to 999; otherwise it is held low. An enabled PPS_IN edge of the chosen kind captures its
stamps and counts, and one further than PPS_TOL from a TBN second is counted as source 4 while TBN is locked; the
other kind does nothing; two seconds without an edge are counted once as source 3. (R113, R131, R132) -/
def Obligations.PulsePerSecond : Prop :=
  (∀ s : State, s.running 5 = true →
    let mode := s.get F.TIME_PPS_CTL_OUT_MODE
    let active := mode = 2 ∨ mode = 3 ∨ (mode = 1 ∧ s.on F.TIME_TBN_CTL_LOCKED = true)
    let v := s.until s.nextSecond
    let width := min 999 (max 1 (s.get F.TIME_PPS_CTL_WIDTH))
    (active → Completes .ppsOutSecond s { v with time := { v.time with ppsOut := true, ppsFall := v.now + 1000000 * width } }) ∧
    (¬active → Completes .ppsOutSecond s { s with time := { s.time with ppsOut := false } }) ∧
    (mode = 3 → let adv := signed 16 (s.get (F.TIME_PORT_COMP_EGR 7))
      s.nextSecond = (((((s.now : Int) + adv).toNat / 1000000000 + 1) * 1000000000 : Nat) - adv : Int).toNat)) ∧
  (∀ (falling : Bool) (t : Nat) (s : State), s.running 5 = true →
    let v := s.until t
    let stamp := s.stampIn 7 t
    let tbn := s.tbnAt (stamp * 2 ^ 32) / 2 ^ 32
    let off := min (tbn % 1000000000) (1000000000 - tbn % 1000000000)
    let far := s.on F.TIME_TBN_CTL_LOCKED = true ∧ 1000 * s.get F.TIME_PPS_CTL_PPS_TOL < off
    let w := ((v.put F.TIME_PPS_CAP_TBM_NS stamp).put F.TIME_PPS_CAP_TBN_NS tbn).addWrap F.TIME_PPS_CNT_EDGES 1
    let w : State := { w with time := { w.time with ppsLast := t, ppsLost := false } }
    let right := s.on F.TIME_PPS_CTL_IN_EN = true ∧ s.on F.TIME_PPS_CTL_IN_FALL = falling
    (right → ¬far → Completes (.ppsInEdge falling t) s w) ∧
    (right → far → w.countsOnly 4 = true → Completes (.ppsInEdge falling t) s (w.counted 4)) ∧
    (¬right → Completes (.ppsInEdge falling t) s v)) ∧
  (∀ s : State, s.running 5 = true →
    let v := s.until (s.time.ppsLast + 2000000000)
    let w : State := { v with time := { v.time with ppsLost := true } }
    (s.on F.TIME_PPS_CTL_IN_EN = true → s.time.ppsLost = false → w.countsOnly 3 = true →
      Completes .ppsInTimeout s (w.counted 3)) ∧
    (s.on F.TIME_PPS_CTL_IN_EN = false ∨ s.time.ppsLost = true → Completes .ppsInTimeout s s))

/-- On a port whose fabric slot is down: a write that changes MODE, or RESTART, drops the link, counts it, and starts the
mode from its first step, or leaves the port off in mode 0, without power, halted, or with a failed calibration
(source 291 + 16c); a write that keeps MODE only writes the rw fields. Auto-negotiation brings the link up at an
advertised rate with its role, PAUSE and margins, and changes nothing outside it. The loss of a BASE-T link counts
LCNT.DOWN and source 289 + 16c, or 288 + 16c when its coefficient memory failed, and negotiates again, or with fast
retrain stays up and counts FRT; GO measures the pairs named with MODE 0, sets ERR otherwise, and is ignored while a
measurement runs; a result other than good or busy counts source 294 + 16c. The other port and memory keep their
state. (R274, R277, R285, R289, R291, R293, R294) -/
def Obligations.CopperLinks : Prop :=
  (∀ (who : Fin 4) (c : Fin 2) (v : Word) (ok : Bool) (s : State), s.takes who.val 12 = true → c.val < s.cu.length →
    s.on (F.FEDS_LINK_STAT_UP c.val) = false → ok = true ∨ s.countsOnly (291 + 16 * c.val) = true →
    let m := if fldOf v (F.CU_CTL_MODE c.val) < 5 then fldOf v (F.CU_CTL_MODE c.val) else 0
    let after := fun (u : State) => u.get (F.CU_CTL_MODE c.val) = fldOf v (F.CU_CTL_MODE c.val) ∧
      u.get (F.CU_CTL_TREP c.val) = fldOf v (F.CU_CTL_TREP c.val) ∧ u.get (F.CU_STAT_UP c.val) = 0 ∧
      u.get (F.CU_LEN_M c.val) = 0 ∧ (u.cup c.val).stopTo = 0 ∧ (u.cup c.val).lr.retrain = false ∧
      u.get (F.CU_LCNT_DOWN c.val) = (if s.cuUp c.val then s.bump (F.CU_LCNT_DOWN c.val) 1 else s).get (F.CU_LCNT_DOWN c.val) ∧
      u.get (F.CU_STAT_PHASE c.val) = (if m = 0 ∨ s.cuPowered c.val = false ∨ s.cuHalted c.val = true ∨ ok = false then 7
        else if m = 1 then 6 else 0) ∧
      (∀ e, e ≠ c.val → u.cup e = s.cup e) ∧ u.gm = s.gm ∧ u.time = s.time
    (m ≠ s.cuMode c.val → Answers (.cuModeChange who c v ok) s after) ∧
    (m = s.cuMode c.val → bit v.toNat 3 = false →
      Completes (.cuModeChange who c v ok) s (s.setWord (F.CU_CTL_MODE c.val).addr (v &&& 0x7F7))) ∧
    Answers (.cuRestart who c v ok) s after) ∧
  (∀ (c : Fin 2) (rate : Fin 8) (master mdix txp rxp : Bool) (snr : BitVec 32) (len : Nat) (s : State),
    s.running 12 = true → c.val < s.cu.length →
    let resolves := s.cuPhase c.val = 6 ∧ s.cuUp c.val = false ∧ 1 ≤ rate.val ∧ rate.val ≤ 4 ∧
      s.fbit (F.CU_AN_ADV_RATES c.val) (rate.val - 1) = true
    (resolves → len < 1024 → Answers (.autonegComplete c rate master mdix txp rxp snr len) s (fun u =>
      u.get (F.CU_STAT_UP c.val) = 1 ∧ u.get (F.CU_STAT_RATE c.val) = rate.val ∧ u.get (F.CU_STAT_MASTER c.val) = b2n master ∧
      u.get (F.CU_STAT_MDIX c.val) = b2n mdix ∧ u.get (F.CU_LEN_M c.val) = len ∧
      u.word (F.CU_SNR_MARGIN0 c.val).addr = snr ∧ u.cup c.val = { s.cup c.val with txp := txp, rxp := rxp } ∧
      (∀ e, e ≠ c.val → u.cup e = s.cup e) ∧ u.hts = s.hts ∧ u.gm = s.gm)) ∧
    (¬resolves → Completes (.autonegComplete c rate master mdix txp rxp snr len) s s)) ∧
  (∀ (c : Fin 2) (l : CuLoss) (s : State), s.running 12 = true → c.val < s.cu.length →
    let rate := s.get (F.CU_STAT_RATE c.val)
    let up := s.cuUp c.val = true ∧ 1 ≤ rate ∧ rate ≤ 4
    let retrains := l = .fast ∧ s.on (F.CU_CTL_FRT c.val) = true ∧ 2 ≤ rate
    (up → retrains → (s.bump (F.CU_PCSCNT_FRT c.val) 1).countsOnly (295 + 16 * c.val) = true →
      Completes (.baseTLinkLoss c l) s ((s.bump (F.CU_PCSCNT_FRT c.val) 1).counted (295 + 16 * c.val))) ∧
    (up → ¬retrains → s.cuMode c.val = 1 → s.on (F.FEDS_LINK_STAT_UP c.val) = false →
      let source := if l = .coef then 288 + 16 * c.val else 289 + 16 * c.val
      s.countsOnly source = true →
      Answers (.baseTLinkLoss c l) s (fun u =>
        u.get (F.CU_STAT_UP c.val) = 0 ∧ u.get (F.CU_STAT_PHASE c.val) =
          (if s.cuPowered c.val = true ∧ s.cuHalted c.val = false ∧ (s.cup c.val).calFail = false then 6 else 7) ∧
        u.get (F.CU_LCNT_DOWN c.val) = (s.bump (F.CU_LCNT_DOWN c.val) 1).get (F.CU_LCNT_DOWN c.val) ∧
        u.get (F.FLT_SRC_COUNT source) = (s.bump (F.FLT_SRC_COUNT source) 1).get (F.FLT_SRC_COUNT source) ∧
        (∀ e, e ≠ c.val → u.cup e = s.cup e) ∧ u.gm = s.gm)) ∧
    (¬up → Completes (.baseTLinkLoss c l) s s)) ∧
  (∀ (who : Fin 4) (c : Fin 2) (v : Word) (s : State), s.takes who.val 12 = true → c.val < s.cu.length →
    ((s.cup c.val).diag = none → s.cuMode c.val = 0 → Answers (.diagStart who c v) s (fun u =>
      (u.cup c.val).diag = some (fldOf v (F.CU_DIAG_CTL_PAIRS c.val)) ∧ u.get (F.CU_DIAG_CTL_GO c.val) = 1 ∧
      u.get (F.CU_DIAG_CTL_ERR c.val) = 0 ∧ u.get (F.CU_DIAG_CTL_NVP c.val) = fldOf v (F.CU_DIAG_CTL_NVP c.val) ∧
      (∀ e, e ≠ c.val → u.cup e = s.cup e) ∧ u.gm = s.gm)) ∧
    ((s.cup c.val).diag = none → s.cuMode c.val ≠ 0 → Answers (.diagStart who c v) s (fun u =>
      u.cu = s.cu ∧ u.get (F.CU_DIAG_CTL_GO c.val) = s.get (F.CU_DIAG_CTL_GO c.val) ∧
      u.get (F.CU_DIAG_CTL_ERR c.val) = 1 ∧ u.gm = s.gm)) ∧
    ((s.cup c.val).diag ≠ none → Answers (.diagStart who c v) s (fun u =>
      u.cu = s.cu ∧ u.get (F.CU_DIAG_CTL_GO c.val) = s.get (F.CU_DIAG_CTL_GO c.val) ∧
      u.get (F.CU_DIAG_CTL_ERR c.val) = s.get (F.CU_DIAG_CTL_ERR c.val) ∧ u.gm = s.gm))) ∧
  (∀ (c : Fin 2) (res : List Nat) (s : State), s.running 12 = true → c.val < s.cu.length →
    (∀ pairs, (s.cup c.val).diag = some pairs → s.countsOnly (294 + 16 * c.val) = true →
      Answers (.diagDone c res) s (fun u => (u.cup c.val).diag = none ∧ u.get (F.CU_DIAG_CTL_GO c.val) = 0 ∧
        (∀ n, n < 4 → u.word (F.CU_DIAG_RES_STATE c.val n).addr
          = if bit pairs n = true then BitVec.ofNat 32 (res.getD n 1 % 2 ^ 23) else s.word (F.CU_DIAG_RES_STATE c.val n).addr) ∧
        u.get (F.FLT_SRC_COUNT (294 + 16 * c.val))
          = (if (List.range 4).any (fun n => bit pairs n && res.getD n 1 % 8 != 1 && res.getD n 1 % 8 != 6)
              then s.bump (F.FLT_SRC_COUNT (294 + 16 * c.val)) 1 else s).get (F.FLT_SRC_COUNT (294 + 16 * c.val)) ∧
        (∀ e, e ≠ c.val → u.cup e = s.cup e) ∧ u.gm = s.gm)) ∧
    ((s.cup c.val).diag = none → Completes (.diagDone c res) s s))

/-- On a port that is up: a frame with a bad FCS, or shorter than 64 bytes or longer than MAXLEN, counts RXBAD; a PAUSE
stops egress for its quanta where it is obeyed, and never reaches the parser; one the buffer cannot hold counts RXOVF
with source 292 + 16c; a lasting buffer error drops the frame with source 296 + 16c; any other is stamped and waits as
the port's newest, and the level of the buffer decides PAUSE. On a port that is down nothing is received. A PAUSE
above XON is repeated, and one received runs out. A port that may send, or whose frame began before the PAUSE in force
arrived, ends its oldest queued frame, whose level falls by one and whose IEEE 1588 event message is stamped. (R111,
R113, R275, R276, R294, R324) -/
def Obligations.CopperFrames : Prop :=
  (∀ (c : Fin 2) (bytes : List Byte) (t : Nat) (fcs : Bool) (k : Check) (s : State), s.quiet = true → c.val < s.cu.length →
    let v := s.until t
    let good := fcs = true ∧ 64 ≤ bytes.length + 4 ∧ bytes.length + 4 ≤ s.cuMaxLen c.val
    let fits := s.cuHeld c.val + bytes.length + 4 ≤ 0x40000
    let p : Packet := { bytes := bytes, port := c.val, start := 0, stamp := s.stampIn (4 + c.val) t, ref := s.prs.nextRef }
    let w := ({ v with prs := { s.prs with nextRef := s.prs.nextRef + 1, input := s.prs.input ++ [p] } } : State).cuRxLevel c.val
    (s.cuUp c.val = false → Completes (.cuFrameReceive c bytes fcs t k) s s) ∧
    (s.cuUp c.val = true → ¬good → Completes (.cuFrameReceive c bytes fcs t k) s (v.bump (F.CU_MACCNT_RXBAD c.val) 1)) ∧
    (s.cuUp c.val = true → good →
      (∀ q : Nat, pauseQuanta bytes = some q → Completes (.cuFrameReceive c bytes fcs t k) s (if s.mayPause c.val false
        then v.setCup c.val { s.cup c.val with stopTo := if q = 0 then 0 else v.now + s.quantaNs c.val q, stopFrom := v.now }
        else v)) ∧
      (pauseQuanta bytes = none → ¬fits → (v.bump (F.CU_MACCNT_RXOVF c.val) 1).countsOnly (292 + 16 * c.val) = true →
        Completes (.cuFrameReceive c bytes fcs t k) s ((v.bump (F.CU_MACCNT_RXOVF c.val) 1).counted (292 + 16 * c.val))) ∧
      (pauseQuanta bytes = none → fits → k = .lasting → v.countsOnly (296 + 16 * c.val) = true →
        Completes (.cuFrameReceive c bytes fcs t k) s (v.counted (296 + 16 * c.val))) ∧
      (pauseQuanta bytes = none → fits → k ≠ .lasting → w.quiet = true → Completes (.cuFrameReceive c bytes fcs t k) s w))) ∧
  (∀ (c : Nat) (s : State), c < s.cu.length →
    let u := s.cuRxLevel c
    let held := s.cuHeld c
    let paused := (s.cup c).paused
    u.prs = s.prs ∧ u.gm = s.gm ∧ u.yal = s.yal ∧ u.hts = s.hts ∧ (∀ e, e ≠ c → u.cup e = s.cup e) ∧
    (paused = 0 → 1024 * s.get (F.CU_PAUSE_TH_XOFF c) < held → s.mayPause c true = true →
      (u.cup c).quanta = some 0xFFFF ∧ (u.cup c).paused = s.now + 1) ∧
    (paused ≠ 0 → held < 1024 * s.get (F.CU_PAUSE_TH_XON c) → (u.cup c).quanta = some 0 ∧ (u.cup c).paused = 0)) ∧
  (∀ (c : Fin 2) (s : State), s.running 12 = true → c.val < s.cu.length →
    let v := s.until ((s.cup c.val).paused - 1 + s.quantaNs c.val 0x8000)
    let again := (s.cup c.val).paused ≠ 0 ∧ s.mayPause c.val true = true
    ((s.cup c.val).stopTo ≠ 0 → Completes (.pauseExpiry c) s
      ((s.until (s.cup c.val).stopTo).setCup c.val { s.cup c.val with stopTo := 0 })) ∧
    ((s.cup c.val).stopTo = 0 → Completes (.pauseExpiry c) s s) ∧
    (again → Completes (.pauseRefresh c) s (if 1024 * s.get (F.CU_PAUSE_TH_XON c.val) < s.cuHeld c.val
      then v.setCup c.val { s.cup c.val with paused := v.now + 1, quanta := some 0xFFFF } else v)) ∧
    (¬again → Completes (.pauseRefresh c) s s)) ∧
  (∀ (c : Fin 2) (port : Fin 3) (t : Nat) (k : Check) (s : State), s.quiet = true → port.val = c.val →
    let sends := s.cuReady c.val = true ∧ ((s.cup c.val).stopTo = 0 ∨ t < (s.cup c.val).stopFrom)
    (¬sends ∨ s.hts.egress.all (fun x => x.kind != c.val) = true → Completes (.portFrameSent port t k) s s) ∧
    (∀ (it : EgItem) (l1 l2 : List EgItem), sends → s.hts.egress = l1 ++ it :: l2 →
      (∀ x : EgItem, x ∈ l1 → x.kind ≠ c.val) → it.kind = c.val →
      let u := ({ s.until t with hts := { s.hts with egress := l1 ++ l2 } } : State).egressFall c.val 1
      let v := if 5 ≤ s.get (F.CU_STAT_RATE c.val) then u.lrSend c.val it.pkt.bytes else u
      let w := match ptpEvent it.pkt.bytes with
        | some m => v.egtsPush c.val (v.egEntry c.val t m)
        | none => v
      (k ≠ .lasting → w.quiet = true → Completes (.portFrameSent port t k) s w) ∧
      (k = .lasting → u.countsOnly (296 + 16 * c.val) = true →
        Completes (.portFrameSent port t k) s (u.counted (296 + 16 * c.val))))) ∧
  (∀ (kind n : Nat) (s : State), kind < 6 →
    (s.egressFall kind n).get (F.HTS_EG_LVL_PKTS kind) = s.get (F.HTS_EG_LVL_PKTS kind) - n ∧
    (∀ j, j < 6 → j ≠ kind → (s.egressFall kind n).get (F.HTS_EG_LVL_PKTS j) = s.get (F.HTS_EG_LVL_PKTS j)) ∧
    (s.egressFall kind n).hts = s.hts ∧ (s.egressFall kind n).gm = s.gm ∧ (s.egressFall kind n).yal = s.yal)

/-- Each event of an LR port, with what a link that goes down takes along, completes in the state its rule gives. A first
usable DETECT is noted, and the answer to an acknowledged one fixes step, repetition, role and P1, unless the seeds
are equal where no role is forced; a DETECT without mode, or of a mode this side is not capable of, ends the attempt.
THP INFO in P3 stores two taps. Phases follow each other at their length; margins end P4 with TRAIN_OK; the partner's
TRAIN_OK starts DATA; an OAM word with a wrong CRC or a reserved MSG is ignored. A good code frame delivers its blocks
descrambled, a failed one error blocks, and counts; the FRAME_LOSS-th in a row begins a fast retrain with source 295 +
16c, or with FRT 0 drops the link; the retrain resumes DATA. A second of silence counts source 290 + 16c. (R278, R281,
R282, R283, R284, R285, R286, R288, R289) -/
def Obligations.LrTraining : Prop :=
  (∀ (c : Fin 2) (v : BitVec 64) (s : State), s.running 12 = true → c.val < s.cu.length →
    let x := (s.cup c.val).lr
    let mine := if x.step < 3 then 2 else 1
    let mode := bits v.toNat 6 5
    let usable := (mode = 1 ∨ mode = 2) ∧ bit v.toNat (if x.step < 3 then 41 else 40) = true
    let role := s.get (F.CU_CTL_ROLE c.val)
    let t := max (x.step % 3) (min 2 (bits v.toNat 8 7))
    let w := State.copperLoss s (s.lrInfo c.val v.toNat)
    (w.quiet = true → Completes (.lrInfoReceive c v) s w) ∧
    (s.cuPhase c.val = 0 → bits v.toNat 3 0 = 0 → usable → x.heard = false ∨ bit v.toNat 4 = false →
      Completes (.lrInfoReceive c v) s (s.setLr c.val { x with
        heard := true
        heardAt := s.now
        info := infoBlock (16 + 32 * mine + 128 * (x.step % 3) + 512 * x.seed + 0x30100000000) })) ∧
    (s.cuPhase c.val = 0 → bits v.toNat 3 0 = 0 → usable → x.heard = true → bit v.toNat 4 = true →
      x.seed ≠ bits v.toNat 24 9 ∨ role = 1 ∨ role = 2 →
      Answers (.lrInfoReceive c v) s (fun u => u.cuPhase c.val = 1 ∧
        u.get (F.CU_STAT_MASTER c.val) = b2n (role == 1 || role != 2 && decide (bits v.toNat 24 9 < x.seed)) ∧
        u.get (F.CU_STAT_TREP c.val) = t ∧ (u.cup c.val).lr.step = (if min mine mode = 2 then 0 else 3) + t ∧
        (u.cup c.val).lr.phaseAt = s.now ∧ (∀ e, e ≠ c.val → u.cup e = s.cup e) ∧ u.gm = s.gm)) ∧
    (s.cuPhase c.val = 3 → bits v.toNat 3 0 = 2 → Answers (.lrInfoReceive c v) s (fun u =>
      let i := 32 * bits v.toNat 10 9 + bits v.toNat 15 11
      tabGet (fun _ => 0) (u.cup c.val).lr.taps (i + 1) = bits v.toNat 63 48 ∧
      tabGet (fun _ => 0) (u.cup c.val).lr.taps i = bits v.toNat 47 32 ∧ u.cuPhase c.val = 3 ∧ u.regs = s.regs))) ∧
  (∀ (c : Fin 2) (ok mdix : Bool) (snr : BitVec 32) (len : Nat) (s : State), s.running 12 = true → c.val < s.cu.length →
    let x := (s.cup c.val).lr
    let p := s.cuPhase c.val
    let w := State.copperLoss s (s.lrPhaseEnd c.val ok mdix snr.toNat len)
    let runs := x.retrain = false ∧ x.okSent = false
    (w.quiet = true → Completes (.lrPhaseEnd c ok mdix snr len) s w) ∧
    (p = 0 ∨ 5 ≤ p ∨ ¬runs → Completes (.lrPhaseEnd c ok mdix snr len) s s) ∧
    (runs → ok = true → 1 ≤ p → p ≤ 3 → Answers (.lrPhaseEnd c ok mdix snr len) s (fun u => u.cuPhase c.val = p + 1 ∧
      u.get (F.CU_STAT_MDIX c.val) = (if p = 2 then b2n mdix else s.get (F.CU_STAT_MDIX c.val)) ∧
      u.time = (s.until (x.phaseAt + (if p = 3 then 1000000 else 8000000 * 2 ^ (x.step % 3)))).time ∧
      (u.cup c.val).lr.phaseAt = u.now ∧ (∀ e, e ≠ c.val → u.cup e = s.cup e) ∧ u.gm = s.gm)) ∧
    (runs → ok = true → p = 4 → s.marginOk c.val snr.toNat = true → x.okRecv = false →
      Answers (.lrPhaseEnd c ok mdix snr len) s (fun u => u.cuPhase c.val = 4 ∧ (u.cup c.val).lr.okSent = true ∧
        (u.cup c.val).lr.sent = 1 ∧ u.word (F.CU_SNR_MARGIN0 c.val).addr = snr ∧ u.cuUp c.val = s.cuUp c.val ∧
        (∀ e, e ≠ c.val → u.cup e = s.cup e) ∧ u.gm = s.gm))) ∧
  (∀ (c : Fin 2) (v : BitVec 48) (s : State), s.running 12 = true → c.val < s.cu.length →
    let x := (s.cup c.val).lr
    let w := State.copperLoss s (s.lrOam c.val v.toNat)
    let crcGood := lrCrc16 (bitList v.toNat 32) = bits v.toNat 47 32
    (w.quiet = true → Completes (.lrOamReceive c v) s w) ∧
    (¬crcGood ∨ 4 < bits v.toNat 3 0 → Completes (.lrOamReceive c v) s s) ∧
    (crcGood → bits v.toNat 3 0 = 1 → s.cuPhase c.val = 4 → x.retrain = false → x.step < 6 → x.okSent = true →
      Answers (.lrOamReceive c v) s (fun u => u.cuPhase c.val = 5 ∧ u.cuUp c.val = true ∧
        u.get (F.CU_STAT_RATE c.val) = (if x.step < 3 then 6 else 5) ∧ u.get (F.CU_LEN_M c.val) = x.len % 1024 ∧ u.gm = s.gm)) ∧
    (crcGood → bits v.toNat 3 0 = 1 → s.cuPhase c.val = 4 → x.retrain = true ∨ x.okSent = false →
      Answers (.lrOamReceive c v) s (fun u => u.cuPhase c.val = 4 ∧
        (u.cup c.val).lr.okRecv = true ∧ u.cuUp c.val = s.cuUp c.val ∧ u.gm = s.gm))) ∧
  (∀ (c : Fin 2) (s : State), s.running 12 = true → c.val < s.cu.length →
    let u := s.until ((s.cup c.val).lr.heardAt + 1000000000)
    (s.cuPhase c.val = 0 → s.countsOnly (290 + 16 * c.val) = true → Completes (.lrDetectTimeout c) s
      ((u.setLr c.val { (s.cup c.val).lr with heardAt := u.now }).counted (290 + 16 * c.val))) ∧
    (s.cuPhase c.val ≠ 0 → Completes (.lrDetectTimeout c) s s)) ∧
  (∀ (c : Fin 2) (word dec : List Bool) (coef : Check) (start : Bool) (s : State), s.running 12 = true → c.val < s.cu.length →
    let f := lrDecoded word dec
    let x := (s.cup c.val).lr.took f start
    let counts := (if frameOk f then s else s.bump (F.CU_PCSCNT_FRAME c.val) 1).setLr c.val x
    let w := State.copperLoss s (s.lrCodeFrame c.val word dec coef start)
    let inData := s.cuPhase c.val = 5 ∧ s.cuUp c.val = true
    let lost := max 1 (s.get (F.CU_MARGIN_FRAME_LOSS c.val)) ≤ x.bad ∨ 16 ≤ x.noMark
    (w.quiet = true → Completes (.lrCodeFrame c ⟨word, dec, coef⟩ start) s w) ∧
    (¬inData → Completes (.lrCodeFrame c ⟨word, dec, coef⟩ start) s s) ∧
    (inData → coef ≠ .lasting → ¬lost → (∀ o, x.oam = some o → o.length ≠ 48) → Completes (.lrCodeFrame c ⟨word, dec, coef⟩ start) s counts) ∧
    (inData → coef ≠ .lasting → lost → s.on (F.CU_CTL_FRT c.val) = true → s.countsOnly (295 + 16 * c.val) = true →
      Answers (.lrCodeFrame c ⟨word, dec, coef⟩ start) s (fun u => u.cuPhase c.val = 4 ∧ u.cuUp c.val = true ∧
        (u.cup c.val).lr.retrain = true ∧ (u.cup c.val).lr.phaseAt = s.now ∧ (u.cup c.val).lr.sent = 2 ∧
        u.get (F.CU_PCSCNT_FRT c.val) = (s.bump (F.CU_PCSCNT_FRT c.val) 1).get (F.CU_PCSCNT_FRT c.val) ∧
        u.hts = s.hts ∧ u.gm = s.gm)) ∧
    (inData → coef ≠ .lasting → lost → s.on (F.CU_CTL_FRT c.val) = false → s.cuMode c.val ≠ 1 → s.countsOnly (289 + 16 * c.val) = true →
      s.on (F.FEDS_LINK_STAT_UP c.val) = false →
      Answers (.lrCodeFrame c ⟨word, dec, coef⟩ start) s (fun u => u.cuPhase c.val = 0 ∧ u.cuUp c.val = false ∧
        (u.cup c.val).lr.step = (s.cup c.val).lr.step ∧
        u.get (F.CU_LCNT_DOWN c.val) = (s.bump (F.CU_LCNT_DOWN c.val) 1).get (F.CU_LCNT_DOWN c.val) ∧ u.gm = s.gm))) ∧
  (∀ (x : LrSt) (f : List Bool) (start : Bool),
    (frameOk f = true → (x.took f start).bad = 0 ∧
      (x.took f start).rxBlocks = (blocksThrough descrambleBit x.rxScr (frameBlocks f)).1) ∧
    (frameOk f = false → (x.took f start).bad = x.bad + 1 ∧ (x.took f start).rxBlocks = List.replicate 25 errorBlock)) ∧
  (∀ (c : Fin 2) (snr : BitVec 32) (len : Nat) (partner : Bool) (s : State), s.running 12 = true → c.val < s.cu.length →
    let x := (s.cup c.val).lr
    let w := State.copperLoss s (s.lrRetrainEnd c.val snr.toNat len partner)
    (w.quiet = true → Completes (.lrFastRetrainEnd c snr len partner) s w) ∧
    (x.retrain = false ∨ s.cuPhase c.val ≠ 4 → Completes (.lrFastRetrainEnd c snr len partner) s s) ∧
    (x.retrain = true → s.cuPhase c.val = 4 → partner = true → s.marginOk c.val snr.toNat = true →
      Answers (.lrFastRetrainEnd c snr len partner) s (fun u => u.cuPhase c.val = 5 ∧ u.cuUp c.val = true ∧
        (u.cup c.val).lr.retrain = false ∧ u.word (F.CU_SNR_MARGIN0 c.val).addr = snr ∧
        u.time = (s.until (x.phaseAt + 4000000 * 2 ^ (x.step % 3))).time ∧
        (∀ e, e ≠ c.val → u.cup e = s.cup e) ∧ u.hts = s.hts ∧ u.gm = s.gm)))

/-- For every 1,664 information bits the codeword has 2,560 bits, begins with them, and every one of the seven block rows
of H times it is zero, so that the receiver reads those bits back. A code frame built of 25 blocks of 65 bits, the
marker and six OAM bits passes its CRC and gives them back, and fails it with any one bit changed. Blocks scrambled
and then descrambled from the same state are the blocks sent, and both scramblers end in the same state. An OAM word
passes its CRC. (R278, R279, R282) -/
def Obligations.LrCode : Prop :=
  (∀ v dec : List Bool, v.length = 1664 →
    (ldpcEncode v).length = 2560 ∧ (ldpcEncode v).take 1664 = v ∧ lrDecoded (ldpcEncode v) dec = v ∧
    ∀ r, r < 7 → ldpcCheck (ldpcEncode v) r = List.replicate 128 false) ∧
  (∀ (blocks : List (List Bool)) (first : Bool) (oam : List Bool), blocks.length = 25 → (∀ b ∈ blocks, b.length = 65) →
    oam.length = 6 →
    let f := infoBits blocks first oam
    f.length = 1664 ∧ frameOk f = true ∧ frameMarker f = first ∧ frameOam f = oam ∧ frameBlocks f = blocks ∧
    ∀ k, k < 1664 → frameOk (setAt f k (!f.getD k false)) = false) ∧
  (∀ (x : Nat) (blocks : List (List Bool)), x < 2 ^ 58 →
    let sent := blocksThrough scrambleBit x blocks
    blocksThrough descrambleBit x sent.1 = (blocks, sent.2)) ∧
  (∀ msg margin : Nat, msg < 16 → (oamWord msg margin).length = 48 ∧
    lrCrc16 ((oamWord msg margin).take 32) = leBitNat ((oamWord msg margin).drop 32))

/-- RUN starts an idle channel from CH_HEAD, or after a stop or halt from CH_CUR, and clears its end bits; while the
channel runs RUN is ignored. STOP before a fetch stops it, later waits for the boundary, and does nothing on an idle
channel. A fetched descriptor with OWN begins moving its bytes, one without it ends the chain, one that breaks the
rules halts with CAUSE 2 and source 530, a failed fetch with CAUSE 1, and one across a link that is down with CAUSE 3.
The write-back stores CTL with OWN clear and its STATUS, sets IRQ_DONE where IRQ asks, counts DESCS and goes to the
next descriptor or ends; failed, it halts with CAUSE 4. Credit is refilled and capped at one refill. No other channel
changes; of memory only the write-back's four bytes. (R398, R399, R401, R402, R403, R404, R406, R407, R408, R412,
R413) -/
def Obligations.DmaChannels : Prop :=
  (∀ (who : Fin 4) (c : Fin 64) (v : Word) (s : State), s.takes who.val 5 = true →
    (s.on (F.DMA_CH_CTL_RUN c.val) = false → bit v.toNat 1 = false → Answers (.dmaRun who c v) s (fun u =>
      u.get (F.DMA_CH_CTL_RUN c.val) = 1 ∧ u.get (F.DMA_CH_CTL_STOPPED c.val) = 0 ∧ u.get (F.DMA_CH_CTL_DONE c.val) = 0 ∧
      u.get (F.DMA_CH_CTL_ERR c.val) = 0 ∧ u.get (F.DMA_CH_CTL_CAUSE c.val) = 0 ∧
      u.get (F.DMA_CH_CUR_PTR c.val) = (if s.on (F.DMA_CH_CTL_ERR c.val) || s.on (F.DMA_CH_CTL_STOPPED c.val)
        then s.get (F.DMA_CH_CUR_PTR c.val) else s.get (F.DMA_CH_HEAD_PTR c.val)) ∧
      u.dch c.val = { credit := (s.dch c.val).credit, ph := 1 } ∧ (∀ e, e ≠ c.val → u.dch e = s.dch e) ∧
      u.gm = s.gm ∧ u.xm = s.xm)) ∧
    (s.on (F.DMA_CH_CTL_RUN c.val) = true → bit v.toNat 1 = false → Completes (.dmaRun who c v) s s) ∧
    (s.on (F.DMA_CH_CTL_RUN c.val) = true → (s.dch c.val).ph = 1 → bit v.toNat 0 = false →
      Answers (.dmaStop who c v) s (fun u =>
        u.get (F.DMA_CH_CTL_RUN c.val) = 0 ∧ u.get (F.DMA_CH_CTL_STOPPED c.val) = 1 ∧ (u.dch c.val).ph = 0 ∧
        u.get (F.DMA_CH_CUR_PTR c.val) = s.get (F.DMA_CH_CUR_PTR c.val) ∧ (∀ e, e ≠ c.val → u.dch e = s.dch e) ∧
        u.gm = s.gm ∧ u.xm = s.xm)) ∧
    (s.on (F.DMA_CH_CTL_RUN c.val) = true → (s.dch c.val).ph ≠ 1 → bit v.toNat 0 = false →
      Completes (.dmaStop who c v) s (s.put (F.DMA_CH_CTL_STOP c.val) 1)) ∧
    (s.on (F.DMA_CH_CTL_RUN c.val) = false → bit v.toNat 0 = false → Completes (.dmaStop who c v) s s)) ∧
  (∀ (c : Fin 64) (ok : Bool) (host : List Byte) (s : State), s.running 5 = true →
    let p := s.get (F.DMA_CH_CUR_PTR c.val)
    let space := p % 4
    let a := p / 32 * 32
    let begins := (s.dch c.val).ph = 1 ∧ s.on (F.DMA_CH_CTL_STOP c.val) = false
    let named := space ≠ 3 ∧ s.dmaFits space a 32 = true
    let linked := space ≠ 2 ∨ s.on F.HST_LINK_UP = true
    let fetched := ok = true ∧ (space ≠ 0 ∨ s.xmDead = false)
    let d := if space = 2 then host ++ List.replicate (32 - host.length) 0 else s.dmaBytes space a 32
    let f : Nat → Nat → Nat := fun o n => leNat ((d.drop o).take n)
    let bad := s.dmaBadDesc (f 0 4) (f 4 4) (f 8 8) (f 16 8) (f 24 8)
    let s1 := s.put (F.DMA_CH_COUNT_BYTES c.val) 0
    let s2 := if space = 2 then s1.dmaTlp c.val false false a else s1
    ((s.dch c.val).ph ≠ 1 → Completes (.dmaDescFetch c ok host) s s) ∧
    ((s.dch c.val).ph = 1 → s.on (F.DMA_CH_CTL_STOP c.val) = true → Answers (.dmaDescFetch c ok host) s (fun u =>
      u.get (F.DMA_CH_CTL_RUN c.val) = 0 ∧ u.get (F.DMA_CH_CTL_STOPPED c.val) = 1 ∧ (u.dch c.val).ph = 0 ∧
      (∀ e, e ≠ c.val → u.dch e = s.dch e) ∧ u.gm = s.gm ∧ u.xm = s.xm)) ∧
    (begins → named → linked → fetched → bit (f 0 4) 0 = true → bad = false →
      Completes (.dmaDescFetch c ok host) s ((s2.setDch c.val { s.dch c.val with
        ph := 2, ctl := f 0 4, len := f 4 4 % 2 ^ 24, src := f 8 8, dst := f 16 8, next := f 24 8, out := [], trans := false,
        halting := none }).put (F.DMA_CH_COUNT_BYTES c.val) (f 4 4 % 2 ^ 24))) ∧
    (begins → named → linked → fetched → bit (f 0 4) 0 = false → Answers (.dmaDescFetch c ok host) s (fun u =>
      u.get (F.DMA_CH_CTL_RUN c.val) = 0 ∧ u.get (F.DMA_CH_CTL_DONE c.val) = 1 ∧ (u.dch c.val).ph = 0 ∧
      (∀ e, e ≠ c.val → u.dch e = s.dch e) ∧ u.gm = s.gm ∧ u.xm = s.xm)) ∧
    (begins → named → linked → fetched → bit (f 0 4) 0 = true → bad = true → s.countsOnly 530 = true →
      Answers (.dmaDescFetch c ok host) s (fun u => DmaHalted s u c.val 2 ∧ CountedOnce s u 530)) ∧
    (begins → ¬named → s.countsOnly 530 = true →
      Answers (.dmaDescFetch c ok host) s (fun u => DmaHalted s u c.val 2 ∧ CountedOnce s u 530)) ∧
    (begins → named → ¬linked → s.countsOnly 531 = true →
      Answers (.dmaDescFetch c ok host) s (fun u => DmaHalted s u c.val 3 ∧ CountedOnce s u 531)) ∧
    (begins → named → linked → ¬fetched → s.countsOnly 529 = true →
      Answers (.dmaDescFetch c ok host) s (fun u => DmaHalted s u c.val 1 ∧ CountedOnce s u 529))) ∧
  (∀ (c : Fin 64) (ok : Bool) (s : State), s.running 5 = true →
    let p := s.get (F.DMA_CH_CUR_PTR c.val)
    let x := s.dch c.val
    let written := ok = true ∧ (p % 4 = 2 → s.on F.HST_LINK_UP = true) ∧ (p % 4 = 0 → s.xmDead = false)
    let m := s.dmaPut c.val false (p % 4) (p / 32 * 32) (natLe (setBits (setBit x.ctl 0 false) 23 16 (b2n x.trans)) 4)
    (x.ph ≠ 3 → Completes (.dmaWritebackDone c ok) s s) ∧
    (x.ph = 3 → written → Answers (.dmaWritebackDone c ok) s (fun u =>
      u.gm = m.gm ∧ u.xm = m.xm ∧ u.hostOut = m.hostOut ∧ u.hst.tlp = m.hst.tlp ∧
      u.get (F.DMA_CH_CNT_DESCS c.val) = (s.bump (F.DMA_CH_CNT_DESCS c.val) 1).get (F.DMA_CH_CNT_DESCS c.val) ∧
      u.fbit F.DMAS_IRQ_DONE_CH c.val = (bit x.ctl 6 || s.fbit F.DMAS_IRQ_DONE_CH c.val) ∧
      (bit x.ctl 7 = true → u.get (F.DMA_CH_CTL_RUN c.val) = 0 ∧ u.get (F.DMA_CH_CTL_DONE c.val) = 1 ∧ (u.dch c.val).ph = 0) ∧
      (bit x.ctl 7 = false → u.get (F.DMA_CH_CUR_PTR c.val) = x.next % 2 ^ 64 ∧
        (u.dch c.val).ph = (if s.on (F.DMA_CH_CTL_STOP c.val) then 0 else 1) ∧
        u.get (F.DMA_CH_CTL_STOPPED c.val)
          = (if s.on (F.DMA_CH_CTL_STOP c.val) then 1 else s.get (F.DMA_CH_CTL_STOPPED c.val))) ∧
      (∀ e, e ≠ c.val → u.dch e = s.dch e))) ∧
    (x.ph = 3 → ¬written → s.countsOnly 532 = true → Answers (.dmaWritebackDone c ok) s (fun u =>
      DmaHalted s u c.val 4 ∧ CountedOnce s u 532))) ∧
  (∀ (c a : Nat) (data : Bool) (b : List Byte) (s : State),
    s.dmaPut c data 0 a b = { s with xm := memPutBytes s.xm a b } ∧
    s.dmaPut c data 1 a b = { s with gm := memPutBytes s.gm a b } ∧
    (let u := s.dmaPut c data 2 a b
     u.hostOut = memPutBytes s.hostOut a b ∧
     u.hst.tlp = some ⟨true, a, s.on (F.DMA_CH_CFG_NS c), data && s.on (F.DMA_CH_CFG_RO c)⟩)) ∧
  (∀ s : State, s.running 5 = true → Answers .dmaCreditRefill s (fun u =>
    u.time = (s.until ((s.dma.refill + 1) * 1000)).time ∧ u.dma.refill = u.now / 1000 ∧
    (∀ c, c < 64 → let r : Int := (s.get (F.DMA_CH_CFG_SHARE c) + 1) * max 1 (s.get F.DMAS_RATE_REF);
      u.dch c = { s.dch c with credit := min r ((s.dch c).credit + r) }) ∧
    u.regs = s.regs ∧ u.gm = s.gm))

/-- The beat of the chosen channel, of the highest PRI that is ready, takes the bytes up to the end of its 64-byte line
and their credit; with a DMA source at L2 it halts with CAUSE 5, and to a link that is down with CAUSE 3. Its response
writes the source's bytes to the destination and no other, a retried one counting TRANS and source 528; a failed beat
is issued again while retries remain and then halts the channel with CAUSE 1 and source 529 once its other beats are
answered. GO of MCC_CTL queues the operation with its OP unless one of the requester runs or the length is 0; its end
writes the dirty bytes of the range to XM unless it invalidates, and clears BUSY. (R399, R400, R401, R404, R405, R406,
R409, R411, R412, R413) -/
def Obligations.DmaBeats : Prop :=
  (∀ (c : Nat) (s : State), s.running 5 = true → s.nextBeat = some c →
    let x := s.dch c
    let left := s.get (F.DMA_CH_COUNT_BYTES c)
    let n := min left (64 - (x.dst + (x.len - left)) % 64)
    let down := x.usesHost = true ∧ s.on F.HST_LINK_UP = false
    (s.dmaHalted = false → ¬down → Answers .dmaBeatIssue s (fun u => u.get (F.DMA_CH_COUNT_BYTES c) = left - n ∧
      u.dch c = { x with out := x.out ++ [(x.len - left, n, 0)], credit := x.credit - 4 * n } ∧
      (bits x.ctl 2 1 = 2 → u.hst.tlp = some ⟨false, x.src + (x.len - left), s.on (F.DMA_CH_CFG_NS c), false⟩) ∧
      (bits x.ctl 2 1 ≠ 2 → u.hst = s.hst) ∧
      (∀ e, e ≠ c → u.dch e = s.dch e) ∧ u.gm = s.gm ∧ u.xm = s.xm)) ∧
    (s.dmaHalted = true → x.out = [] → Answers .dmaBeatIssue s (fun u => DmaHalted s u c 5)) ∧
    (s.dmaHalted = false → down → x.out = [] → s.countsOnly 531 = true →
      Answers .dmaBeatIssue s (fun u => DmaHalted s u c 3 ∧ CountedOnce s u 531)) ∧
    (s.dmaHalted = true ∨ down → x.out ≠ [] → Answers .dmaBeatIssue s (fun u =>
      u.dch c = { x with halting := some (x.halting.getD (if s.dmaHalted then 5 else 3)) } ∧
      (∀ e, e ≠ c → u.dch e = s.dch e) ∧ u.regs = s.regs ∧ u.gm = s.gm ∧ u.xm = s.xm))) ∧
  (∀ s : State, s.running 5 = true → s.nextBeat = none → Completes .dmaBeatIssue s s) ∧
  (∀ (p c : Nat) (s : State), s.nextBeat = some c → p = s.get (F.DMA_CH_CFG_PRI c) → s.beatReady c = true ∧
    ∀ e, e < 64 → s.beatReady e = true → s.get (F.DMA_CH_CFG_PRI e) ≤ p) ∧
  (∀ (c : Fin 64) (i : Nat) (ok : Bool) (host : List Byte) (dirty : List (Nat × Byte)) (s : State), s.running 5 = true →
    let x := s.dch c.val
    (x.out[i]? = none → Completes (.dmaBeatResponse c i ok host dirty) s s) ∧
    (∀ (off n tries : Nat), x.ph = 2 → x.out[i]? = some (off, n, tries) → x.halting = none →
      let down := x.usesHost = true ∧ s.on F.HST_LINK_UP = false
      let usesXm := bits x.ctl 2 1 = 0 ∨ bits x.ctl 4 3 = 0
      let good := ok = true ∧ ¬down ∧ ¬(s.xmDead = true ∧ usesXm)
      let m := (s.cohTarget x off dirty).dmaPut c.val true (bits x.ctl 4 3) (x.dst + off)
        ((s.cohSource x dirty).beatBytes x off n host)
      (good → tries = 0 ∨ s.countsOnly 528 = true → Answers (.dmaBeatResponse c i ok host dirty) s (fun u =>
        u.gm = m.gm ∧ u.xm = m.xm ∧ u.hostOut = m.hostOut ∧ u.hst = m.hst ∧ (u.dch c.val).out = x.out.eraseIdx i ∧
        (u.dch c.val).trans = (x.trans || decide (0 < tries)) ∧
        u.get (F.DMA_CH_CNT_TRANS c.val) = (if 0 < tries then s.bump (F.DMA_CH_CNT_TRANS c.val) 1 else s).get (F.DMA_CH_CNT_TRANS c.val) ∧
        (0 < tries → CountedOnce s u 528) ∧
        (u.dch c.val).ph = (if x.out.length = 1 ∧ s.get (F.DMA_CH_COUNT_BYTES c.val) = 0 then 3 else 2) ∧
        (∀ e, e ≠ c.val → u.dch e = s.dch e))) ∧
      (¬good → ¬down → tries < s.get (F.DMA_CH_CFG_RETRY c.val) → Completes (.dmaBeatResponse c i ok host dirty) s
        (s.setDch c.val { x with out := setAt x.out i (off, n, tries + 1), credit := x.credit - 4 * n })) ∧
      (¬good → ¬down → s.get (F.DMA_CH_CFG_RETRY c.val) ≤ tries → x.out.length = 1 → s.countsOnly 529 = true →
        Answers (.dmaBeatResponse c i ok host dirty) s (fun u => DmaHalted s u c.val 1 ∧ CountedOnce s u 529)) ∧
      (down → x.out.length = 1 → s.countsOnly 531 = true →
        Answers (.dmaBeatResponse c i ok host dirty) s (fun u => DmaHalted s u c.val 3 ∧ CountedOnce s u 531)) ∧
      (down ∨ (¬good ∧ s.get (F.DMA_CH_CFG_RETRY c.val) ≤ tries) → 1 < x.out.length →
        Completes (.dmaBeatResponse c i ok host dirty) s (s.setDch c.val { x with
          out := x.out.eraseIdx i, halting := some (if x.usesHost && !s.on F.HST_LINK_UP then 3 else 1) })))) ∧
  (∀ (x : DmaCh) (off n : Nat) (host : List Byte) (s : State),
    (bits x.ctl 2 1 = 1 → s.beatBytes x off n host = memBytes s.gm (x.src + off) n) ∧
    (bits x.ctl 2 1 = 0 → s.beatBytes x off n host = memBytes s.xm (x.src + off) n) ∧
    (bits x.ctl 2 1 = 3 → s.beatBytes x off n host = (List.range n).map (fun k => byteOf x.src ((off + k) % 8)))) ∧
  (∀ (who : Fin 4) (v : Word) (s : State), s.takes who.val 5 = true →
    let a := s.get (F.DMAS_MCC_ADDR_ADDR who.val) / 64 * 64
    let n := min (s.get (F.DMAS_MCC_LEN_LEN who.val)) (s.xmMib * 0x100000 - a)
    let go := s.on (F.DMAS_MCC_CTL_BUSY who.val) = false ∧ n ≠ 0
    let queued := fun (op : Nat) (u : State) => u.get (F.DMAS_MCC_CTL_BUSY who.val) = 1 ∧
      u.dma = { s.dma with mcc := s.dma.mcc ++ [⟨who.val, op, a, n⟩] } ∧ u.xm = s.xm ∧ u.gm = s.gm
    let ignored := fun (u : State) => u.get (F.DMAS_MCC_CTL_BUSY who.val) = s.get (F.DMAS_MCC_CTL_BUSY who.val) ∧
      u.dma = s.dma ∧ u.xm = s.xm ∧ u.gm = s.gm
    (go → Answers (.mccClean who v) s (queued 0) ∧ Answers (.mccInvalidate who v) s (queued 1) ∧
      Answers (.mccCleanInvalidate who v) s (queued 2)) ∧
    (¬go → Answers (.mccClean who v) s ignored ∧ Answers (.mccInvalidate who v) s ignored ∧
      Answers (.mccCleanInvalidate who v) s ignored)) ∧
  (∀ (dirty : List (Nat × Byte)) (o : MccOp) (l : List MccOp) (s : State), s.running 5 = true → s.dma.mcc = o :: l →
    let lo := o.addr / 64 * 64
    let hi := (o.addr + o.len + 63) / 64 * 64
    let mine := dirty.filter (fun e => decide (lo ≤ e.1 ∧ e.1 < hi ∧ e.1 < s.xmMib * 0x100000))
    Answers (.mccDone dirty) s (fun u => u.get (F.DMAS_MCC_CTL_BUSY o.who) = 0 ∧ u.dma = { s.dma with mcc := l } ∧
      (o.op = 1 → u.xm = s.xm) ∧ (o.op ≠ 1 → u.xm = mine.foldl (fun m e => memPut m e.1 e.2) s.xm) ∧
      (∀ a, a < lo ∨ hi ≤ a ∨ (∀ e ∈ dirty, e.1 ≠ a) → memByte u.xm a = memByte s.xm a) ∧ u.gm = s.gm)) ∧
  (∀ (dirty : List (Nat × Byte)) (s : State), s.quiet = true → s.dma.mcc = [] → Completes (.mccDone dirty) s s)

/-- A command slot does nothing while the domain is off, EN is 0, or a frequency change, training or a quick retrain runs,
save that new requests join; a single request is otherwise issued, opens its row and records its latency, counting a
miss of its budget. PROMO raises a waiting request one class and never above HI; refresh is postponed in panic up to
the limit (log 17); the scrubber reads the next line and counts what ECC found, and reads none in panic or while it is
off. FCHG and TRAIN set their busy bits, or wait while the other runs; their ends switch the timing set or set READY,
or report sources 503 and 499; an oscillator reading out of range begins a quick retrain counted with source 504. A
radio's transmit stream below TX_LO puts port 0 in panic, counted once with source 501, and an underrun is counted
with source 502. (R379, R380, R382, R383, R384, R387, R388, R389, R390, R392, R393) -/
def Obligations.DramController : Prop :=
  (∀ (t fin : Nat) (l : List DramReq) (back : List Nat) (hit : Bool) (k : Ecc) (s : State), s.quiet = true →
    let u := s.until t
    let joined := ((u.levelsBack back).dramArrive u.now l).dropSpec
    ((s.domOn 4 = false ∨ s.on F.DMC_CTL_EN = false) → Completes (.dramRequest t l back hit k fin) s s) ∧
    (s.domOn 4 = true → s.on F.DMC_CTL_EN = true →
      (joined.on F.DMC_STAT_FBUSY = true ∨ joined.on F.DMC_STAT_TBUSY = true ∨ joined.dmc.quick = true ∨
        joined.dramChoose hit = none) → joined.quiet = true →
      Completes (.dramRequest t l back hit k fin) s joined)) ∧
  (∀ (t fin : Nat) (r : DramReq) (k : Ecc) (s : State), s.running 4 = true → s.on F.DMC_CTL_EN = true → s.dmc.reqs = [] →
    s.dmc.txLow = [] → s.dmc.rxLow = [] → s.dmc.cuLow = [] → s.get F.DMC_STAT_PANIC = 0 →
    s.on F.DMC_STAT_FBUSY = false → s.on F.DMC_STAT_TBUSY = false → s.dmc.quick = false → s.dmc.poison = [] →
    r.spec = false → r.addr.toNat < s.xmMib * 0x100000 → s.xmDead = false →
    let now := (s.until t).now
    let lat := max fin now - now
    let miss := 10 * s.get (F.DMC_PORT_CFG_LAT r.port.val) < lat
    let issued := fun (u : State) => u.dmc.reqs = [] ∧ u.time = (s.until t).time ∧
      tabGet (fun _ => 0) u.dmc.rows (s.dramBank r.addr.toNat) = s.dramRow r.addr.toNat + 1 ∧
      u.get (F.DMC_PORT_STAT_MAXLAT r.port.val)
        = max (s.get (F.DMC_PORT_STAT_MAXLAT r.port.val)) (min 65535 (lat / 10)) ∧ u.xm = s.xm ∧ u.gm = s.gm
    (k = .good → ¬miss → Answers (.dramRequest t [r] [] false k fin) s (fun u => issued u ∧
      u.get (F.DMC_PORT_STAT_MISS r.port.val) = s.get (F.DMC_PORT_STAT_MISS r.port.val))) ∧
    (k = .good → miss → s.countsOnly 500 = true → Answers (.dramRequest t [r] [] false k fin) s (fun u => issued u ∧
      u.get (F.DMC_PORT_STAT_MISS r.port.val)
        = (s.bump (F.DMC_PORT_STAT_MISS r.port.val) 1).get (F.DMC_PORT_STAT_MISS r.port.val))) ∧
    (k = .lasting → r.write = false → ¬miss → s.on F.DMC_CTL_ECC_EN = true → s.countsOnly 498 = true →
      Answers (.dramRequest t [r] [] false k fin) s (fun u => issued u ∧ u.dmc.poison = [] ∧
        u.get F.DMC_ECC_CNT2_UE = (s.bump F.DMC_ECC_CNT2_UE 1).get F.DMC_ECC_CNT2_UE ∧ CountedOnce s u 498))) ∧
  (∀ (n : Nat) (r : DmcReq) (s : State), s.running 4 = true → s.dmc.reqs[n]? = some r →
    let promo := s.get (F.DMC_PORT_CFG_PROMO r.port)
    let u := s.until (r.since + 10 * promo)
    let d := { s.dmc with reqs := setAt s.dmc.reqs n { r with promos := r.promos + 1, since := u.now } }
    (r.spec = false → promo ≠ 0 → s.reqClass r < 2 → Completes (.requestPromote n) s { u with dmc := d }) ∧
    ((r.spec = true ∨ promo = 0 ∨ 2 ≤ s.reqClass r) → Completes (.requestPromote n) s s)) ∧
  (∀ (n : Nat) (s : State), s.quiet = true → (s.domOn 4 = false ∨ s.dmc.reqs[n]? = none) →
    Completes (.requestPromote n) s s) ∧
  (∀ s : State, s.quiet = true →
    let held := { s.dmc with postponed := s.dmc.postponed + 1 }
    let done := { s.dmc with postponed := 0 }
    (s.domOn 4 = true → s.on F.DMC_CTL_EN = true →
      (s.panics = true → s.dmc.postponed < postponeLimit → Completes .dramRefresh s { s with dmc := held }) ∧
      (s.panics = true → postponeLimit ≤ s.dmc.postponed → Completes .dramRefresh s s) ∧
      (s.panics = false → Completes .dramRefresh s { s with dmc := done })) ∧
    ((s.domOn 4 = false ∨ s.on F.DMC_CTL_EN = false) → Completes .dramRefresh s s)) ∧
  (∀ (k : Ecc) (s : State), s.quiet = true →
    let reads := s.domOn 4 = true ∧ s.on F.DMC_CTL_SCRUB_EN = true ∧ s.on F.DMC_STAT_READY = true ∧
      s.on F.DMC_CTL_ECC_EN = true ∧ s.panics = false ∧ s.on F.DMC_STAT_FBUSY = false ∧ s.on F.DMC_STAT_TBUSY = false
    let next := if s.dmc.scrub + 1 < s.xmMib * 0x100000 / 64 then s.dmc.scrub + 1 else 0
    let d := { s.dmc with scrub := next }
    let found := if s.dmc.poison.any (fun w => w / 8 == s.dmc.scrub) then Ecc.lasting else k
    (¬reads → Completes (.scrubRead k) s s) ∧
    (reads → found = .good → Completes (.scrubRead k) s { s with dmc := d }) ∧
    (reads → found = .single → s.countsOnly 496 = true → Answers (.scrubRead k) s (fun u => u.dmc = d ∧
      u.get F.DMC_ECC_CNT_CE = (s.bump F.DMC_ECC_CNT_CE 1).get F.DMC_ECC_CNT_CE ∧
      u.get F.DMC_ECC_CNT2_SCRUBFIX = (s.bump F.DMC_ECC_CNT2_SCRUBFIX 1).get F.DMC_ECC_CNT2_SCRUBFIX ∧ u.xm = s.xm)) ∧
    (reads → found = .retry → s.countsOnly 497 = true → Completes (.scrubRead k) s
      ((({ s with dmc := d } : State).bump F.DMC_ECC_CNT_TRANS 1).counted 497)) ∧
    (reads → found = .lasting → s.countsOnly 498 = true → Completes (.scrubRead k) s
      ((({ s with dmc := d } : State).bump F.DMC_ECC_CNT2_UE 1).counted 498))) ∧
  (∀ (who : Fin 4) (v : Word) (s : State), s.takes who.val 4 = true →
    let still := fun (u : State) => u.get F.DMC_STAT_TSET = s.get F.DMC_STAT_TSET ∧
      (s.on F.DMC_CTL_EN = true → u.dmc = s.dmc ∧ u.xm = s.xm) ∧ u.gm = s.gm
    let busy := s.on F.DMC_STAT_FBUSY = true ∨ s.on F.DMC_STAT_TBUSY = true
    (bit v.toNat 0 = true → busy →
      Answers (.frequencyChange who v) s (fun u => u.get F.DMC_CTL_FCHG = 1 ∧
        u.get F.DMC_STAT_FBUSY = s.get F.DMC_STAT_FBUSY ∧ u.get F.DMC_STAT_TBUSY = s.get F.DMC_STAT_TBUSY ∧ still u) ∧
      Answers (.dramTrain who v) s (fun u => u.get F.DMC_CTL_TRAIN = 1 ∧
        u.get F.DMC_STAT_FBUSY = s.get F.DMC_STAT_FBUSY ∧ u.get F.DMC_STAT_TBUSY = s.get F.DMC_STAT_TBUSY ∧ still u)) ∧
    (bit v.toNat 0 = true → ¬busy →
      (s.transiting = false → Answers (.frequencyChange who v) s (fun u => u.get F.DMC_STAT_FBUSY = 1 ∧
        u.get F.DMC_CTL_FCHG = 1 ∧ still u)) ∧
      (s.on F.DMC_CTL_FCHG = false → bit v.toNat 9 = false → Answers (.dramTrain who v) s (fun u =>
        u.get F.DMC_STAT_TBUSY = 1 ∧ u.get F.DMC_CTL_TRAIN = 1 ∧ still u))) ∧
    (bit v.toNat 0 = false →
      Answers (.frequencyChange who v) s (fun u => u.get F.DMC_CTL_FCHG = s.get F.DMC_CTL_FCHG ∧
        u.get F.DMC_STAT_FBUSY = s.get F.DMC_STAT_FBUSY ∧ u.get F.DMC_STAT_READY = 0 ∧ still u) ∧
      Answers (.dramTrain who v) s (fun u => u.get F.DMC_CTL_TRAIN = s.get F.DMC_CTL_TRAIN ∧
        u.get F.DMC_STAT_TBUSY = s.get F.DMC_STAT_TBUSY ∧ u.get F.DMC_STAT_READY = 0 ∧ still u))) ∧
  (∀ s : State, s.running 4 = true → s.on F.DMC_STAT_FBUSY = true →
    (s.on F.DMC_CTL_HOLD_AIR = false ∨ s.exchangeRuns = false) → s.on F.DMC_CTL_TRAIN = false →
    s.ctl.slot = none → s.ctl.trimLate = false → s.transiting = false → s.yal.load = none →
    let t := 1 - s.get F.DMC_STAT_TSET
    (Answers (.frequencyChangeDone true) s (fun u => u.get F.DMC_STAT_TSET = t ∧
      u.get F.DMC_STAT_RATE = min 5 (s.tset t 0 % 8) ∧ u.get F.DMC_STAT_FBUSY = 0 ∧ u.get F.DMC_CTL_FCHG = 0 ∧
      u.xm = s.xm ∧ u.gm = s.gm)) ∧
    (s.countsOnly 503 = true → Answers (.frequencyChangeDone false) s (fun u =>
      u.get F.DMC_STAT_TSET = s.get F.DMC_STAT_TSET ∧ u.get F.DMC_STAT_RATE = s.get F.DMC_STAT_RATE ∧
      u.get F.DMC_STAT_FBUSY = 0 ∧ u.get F.DMC_CTL_FCHG = 0 ∧ u.xm = s.xm ∧ CountedOnce s u 503))) ∧
  (∀ (ok : Bool) (s : State), s.quiet = true →
    (s.domOn 4 = false ∨ s.on F.DMC_STAT_FBUSY = false ∨ (s.on F.DMC_CTL_HOLD_AIR = true ∧ s.exchangeRuns = true)) →
    Completes (.frequencyChangeDone ok) s s) ∧
  (∀ (r : Fin 3) (s : State), s.running 4 = true → s.on F.DMC_STAT_TBUSY = true →
    (s.on F.DMC_CTL_EN = false ∨ s.on F.DMC_CTL_FCHG = false) →
    (r.val < 2 → Answers (.dramTrainDone r) s (fun u => u.get F.DMC_STAT_TBUSY = 0 ∧ u.get F.DMC_CTL_TRAIN = 0 ∧
      u.get F.DMC_TRAIN_STAT_RESULT = r.val + 1 ∧ u.get F.DMC_STAT_READY = s.get F.DMC_CTL_EN ∧
      u.dmc = { s.dmc with trained := true, dqsAt := s.now } ∧ u.xm = s.xm ∧ u.gm = s.gm)) ∧
    (r.val = 2 → s.countsOnly 499 = true → Answers (.dramTrainDone r) s (fun u => u.get F.DMC_STAT_TBUSY = 0 ∧
      u.get F.DMC_CTL_TRAIN = 0 ∧ u.get F.DMC_TRAIN_STAT_RESULT = 3 ∧ u.get F.DMC_STAT_READY = 0 ∧ u.dmc = s.dmc ∧
      u.xm = s.xm ∧ CountedOnce s u 499))) ∧
  (∀ (r : Fin 3) (s : State), s.quiet = true → (s.domOn 4 = false ∨ s.on F.DMC_STAT_TBUSY = false) →
    Completes (.dramTrainDone r) s s) ∧
  (∀ s : State, s.quiet = true →
    let asked := s.domOn 4 = true ∧ s.dmc.quick = true
    let d := { s.dmc with quick := false, dqsAt := s.now }
    let e := { s.dmc with quick := false }
    (asked → Completes (.quickRetrainDone true) s (({ s with dmc := d } : State).put F.DMC_STAT_READY (s.get F.DMC_CTL_EN)) ∧
      Completes (.quickRetrainDone false) s (((({ s with dmc := e } : State).put
        F.DMC_STAT_READY 0).put F.DMC_CTL_TRAIN 1).put F.DMC_STAT_TBUSY 1)) ∧
    (¬asked → Completes (.quickRetrainDone true) s s ∧ Completes (.quickRetrainDone false) s s)) ∧
  (∀ s : State, s.quiet = true →
    let reads := s.domOn 4 = true ∧ s.on F.DMC_STAT_READY = true ∧ s.dmc.quick = false
    let u := s.until (s.dmc.dqsAt + 100000000)
    let d := { s.dmc with dqsAt := u.now }
    let e := { s.dmc with dqsAt := u.now, quick := true }
    (reads → Completes (.dqsDriftCheck true) s { u with dmc := d } ∧
      (s.countsOnly 504 = true → Completes (.dqsDriftCheck false) s
        ((({ u with dmc := e } : State).bump F.DMC_TRAIN_STAT_RETRAINS 1).counted 504))) ∧
    (¬reads → Completes (.dqsDriftCheck true) s s ∧ Completes (.dqsDriftCheck false) s s)) ∧
  (∀ (n : Fin 3) (s : State), s.running 11 = true → s.domOn 4 = true →
    s.fbit F.DMC_STAT_PANIC 1 = !s.dmc.cuLow.isEmpty →
    let d := { s.dmc with txLow := addOnce s.dmc.txLow n.val }
    let low := fun (t : State) => t.dmc = d ∧ t.fbit F.DMC_STAT_PANIC 0 = true ∧
      t.fbit F.DMC_STAT_PANIC 1 = s.fbit F.DMC_STAT_PANIC 1 ∧ t.xm = s.xm ∧ t.gm = s.gm
    let under := fun (t : State) =>
      t.get F.DMC_PANIC_CNT_UNDERRUN = (s.bump F.DMC_PANIC_CNT_UNDERRUN 1).get F.DMC_PANIC_CNT_UNDERRUN ∧ CountedOnce s t 502
    (s.fbit F.DMC_STAT_PANIC 0 = true → Answers (.txStreamLow n) s (fun t => low t ∧
        t.get F.DMC_PANIC_CNT_PANICS = s.get F.DMC_PANIC_CNT_PANICS) ∧
      (s.countsOnly 502 = true → Answers (.txStreamUnderrun n) s (fun t => low t ∧ under t))) ∧
    (s.fbit F.DMC_STAT_PANIC 0 = false → s.countsOnly 501 = true → Answers (.txStreamLow n) s (fun t => low t ∧
        t.get F.DMC_PANIC_CNT_PANICS = (s.bump F.DMC_PANIC_CNT_PANICS 1).get F.DMC_PANIC_CNT_PANICS) ∧
      (s.countsOnly 502 = true → Answers (.txStreamUnderrun n) s (fun t => low t ∧ under t ∧
        t.get F.DMC_PANIC_CNT_PANICS = (s.bump F.DMC_PANIC_CNT_PANICS 1).get F.DMC_PANIC_CNT_PANICS)))) ∧
  (∀ (n : Fin 3) (s : State), s.quiet = true → s.domOn 11 = false →
    Completes (.txStreamLow n) s s ∧ Completes (.txStreamUnderrun n) s s)

/-- An INSERT whose keys are new takes the named or lowest free index, writes the entry with its kind, keys and epoch,
indexes both keys, and answers STATUS 0 with the index and GO 0; a key already present answers STATUS 1 and changes
nothing else. REMOVE empties the entry, its index free at once or, while pinned, later, and is logged in Island. A
full pair of buckets answers FULL, no free index NOFREE, a bad field BADCMD, a lasting read error or a halted engine
MEMERR; a slot whose GO word is 0, or an engine that is off, does nothing. EN with two or more cache banks enables
lookups and is ignored with fewer. FLUSH keeps every cached entry, and one whose write-back fails is marked and raises
source 481. No other entry and no other byte of GM changes. (R354, R356, R357, R358, R359, R360, R369, R371, R373) -/
def Obligations.EndpointCommands : Prop :=
  (∀ (slot : Fin 516) (x : Nat) (p1 p2 : Nat × Nat) (s : State), s.running 5 = true → s.on F.EPT_CTL_EN = true →
    s.eptHalted = false → s.mode ≠ 9 →
    let a := s.cmdAddr slot.val
    let d := memBytes s.gm a 128
    let op := leNat (d.take 4)
    let epx := leNat ((d.drop 4).take 4)
    let key1 := (d.drop 8).take (keyLen (bits op 9 7))
    let key2 := (d.drop 0x30).take (keyLen (bits op 12 10))
    op % 16 = 1 → leNat (d.drop 0x7C) ≠ 0 → bits op 31 14 = 0 → bits epx 30 18 = 0 → 1 ≤ bits op 6 4 → bits op 6 4 ≤ 5 →
    bits op 9 7 ∈ [0, 2, 3, 6] → (bit op 13 = true → bits op 12 10 ∈ [0, 2, 3, 6]) → ((d.drop 0x68).take 20).any (· != 0) = false →
    (s.buckets (bits op 9 7) key1 ++ if bit op 13 then s.buckets (bits op 12 10) key2 else []).all (fun b => s.eptXmOk (s.bucketAddr b) 64) = true →
    (s.findKey (bits op 9 7) key1 = none → (bit op 13 = true → s.findKey (bits op 12 10) key2 = none) →
      s.freeSlot (bits op 9 7) key1 [] = some p1 →
      (bit op 13 = true → s.freeSlot (bits op 12 10) key2 [p1] = some p2) →
      (if bit epx 31 then (if s.entFree (bits epx 17 0) then some (bits epx 17 0) else none)
        else s.allocIndex (s.get F.EPT_ALLOC_FLOOR_X)) = some x → s.eptXmOk (s.entAddr x) 256 = true →
      Answers (.insert slot .good) s (fun u =>
        u.ent x = { kind := bits op 6 4, t1 := bits op 9 7, t2 := if bit op 13 then bits op 12 10 else 0, k2 := bit op 13,
                    cepoch := s.get F.EPT_EPOCH_NUM + 2 ^ 31 * s.get F.EPT_EPOCH_ISLAND, key1 := key1,
                    key2 := if bit op 13 then key2 else [] } ∧
        (∀ y, y ≠ x → u.ent y = s.ent y) ∧
        (bit op 13 = false → u.slotWord p1.1 p1.2 = s.slotFor (bits op 9 7) key1 x) ∧
        (bit op 13 = true → u.slotWord p2.1 p2.2 = s.slotFor (bits op 12 10) key2 x) ∧
        memNat u.gm (a + 0x60) 4 = 0 ∧ memNat u.gm (a + 0x64) 4 = x % 2 ^ 32 ∧ memNat u.gm (a + 0x7C) 4 = 0 ∧
        (∀ b, b < a + 0x60 ∨ a + 0x80 ≤ b → memByte u.gm b = memByte s.gm b) ∧ u.ept.lines = s.ept.lines ∧
        u.get F.EPT_OCC_ENTRIES = u.eptOcc % 2 ^ 19)) ∧
    (s.findKey (bits op 9 7) key1 = some x → x < 2 ^ 18 →
      Answers (.insert slot .good) s (fun u => u.ept = s.ept ∧ u.xm = s.xm ∧ u.regs = s.regs ∧
        memNat u.gm (a + 0x60) 4 = 1 ∧ memNat u.gm (a + 0x64) 4 = x ∧ memNat u.gm (a + 0x7C) 4 = 0 ∧
        ∀ b, b < a + 0x60 ∨ a + 0x80 ≤ b → memByte u.gm b = memByte s.gm b))) ∧
  (∀ (slot : Fin 516) (s : State), s.running 5 = true → s.on F.EPT_CTL_EN = true → s.eptHalted = false →
    let a := s.cmdAddr slot.val
    let d := memBytes s.gm a 128
    let op := leNat (d.take 4)
    let x := leNat ((d.drop 4).take 4) % 2 ^ 18
    op % 16 = 2 → leNat (d.drop 0x7C) ≠ 0 → bits op 31 14 = 0 → bits (leNat ((d.drop 4).take 4)) 30 18 = 0 →
    ((d.drop 0x68).take 20).any (· != 0) = false →
    ((s.ent x).kind ≠ 0 → s.eptXmOk (s.entAddr x) 256 = true → s.eptLine x = none →
      (s.mode ≠ 9 → Answers (.remove slot .good) s (fun u => u.ent x = {} ∧ (∀ y, y ≠ x → u.ent y = s.ent y) ∧
        u.ept.leaving = (if tabGet (fun _ => 0) s.ept.pins x = 0 then s.ept.leaving else s.ept.leaving ++ [x]) ∧
        memNat u.gm (a + 0x60) 4 = 0 ∧ memNat u.gm (a + 0x64) 4 = x ∧ memNat u.gm (a + 0x7C) 4 = 0 ∧
        (∀ b, b < a + 0x60 ∨ a + 0x80 ≤ b → memByte u.gm b = memByte s.gm b))) ∧
      (s.mode = 9 → bit (s.get (F.EPT_ILOG_CTL_KINDS)) (s.ent x).kind = true →
        (s.get F.EPT_ILOG_WR_PTR + 65536 - s.get F.EPT_ILOG_RD_PTR) % 65536 < max 1 (s.get F.EPT_ILOG_CTL_SIZE) →
        Answers (.remove slot .good) s (fun u => u.ent x = {} ∧
          u.get F.EPT_ILOG_WR_PTR = (s.get F.EPT_ILOG_WR_PTR + 1) % 65536 ∧
          memNat u.xm (s.get F.EPT_ILOG_BASE_ADDR / 64 * 64
            + 64 * (s.get F.EPT_ILOG_WR_PTR % max 1 (s.get F.EPT_ILOG_CTL_SIZE)) + 4) 4 = x))) ∧
    ((s.ent x).kind = 0 → Answers (.remove slot .good) s (fun u => u.ept = s.ept ∧ u.xm = s.xm ∧
      memNat u.gm (a + 0x60) 4 = 4 ∧ memNat u.gm (a + 0x64) 4 = x ∧ memNat u.gm (a + 0x7C) 4 = 0))) ∧
  (∀ (slot : Fin 516) (k : Check) (s : State), s.quiet = true → s.domOn 5 = true →
    let a := s.cmdAddr slot.val
    let d := memBytes s.gm a 128
    let op := leNat (d.take 4)
    let key1 := (d.drop 8).take (keyLen (bits op 9 7))
    let key2 := (d.drop 0x30).take (keyLen (bits op 12 10))
    let x := leNat ((d.drop 4).take 4) % 2 ^ 18
    let runs := s.on F.EPT_CTL_EN = true ∧ leNat (d.drop 0x7C) ≠ 0
    let ends := fun (status result : Nat) (u : State) => u.ept = s.ept ∧ u.xm = s.xm ∧
      memNat u.gm (a + 0x60) 4 = status ∧ memNat u.gm (a + 0x64) 4 = result ∧ memNat u.gm (a + 0x7C) 4 = 0 ∧
      ∀ b, b < a + 0x60 ∨ a + 0x80 ≤ b → memByte u.gm b = memByte s.gm b
    (¬runs → Completes (.insert slot k) s s ∧ Completes (.remove slot k) s s) ∧
    (runs → s.eptHalted = true → op % 16 ≠ 2 → Answers (.insert slot k) s (ends 6 0) ∧ Completes (.remove slot k) s s) ∧
    (runs → s.eptHalted = true → op % 16 = 2 → Answers (.remove slot k) s (ends 6 x) ∧ Completes (.insert slot k) s s) ∧
    (runs → s.eptHalted = false → k = .lasting → s.countsOnly 480 = true →
      (op % 16 ≠ 2 → Answers (.insert slot k) s (fun u => ends 6 0 u ∧ CountedOnce s u 480)) ∧
      (op % 16 = 2 → Answers (.remove slot k) s (fun u => ends 6 x u ∧ CountedOnce s u 480))) ∧
    (runs → s.eptHalted = false → k ≠ .lasting → op % 16 ≠ 1 → op % 16 ≠ 2 → Answers (.insert slot k) s (ends 5 0)) ∧
    (runs → s.eptHalted = false → k ≠ .lasting → op % 16 = 1 → (bits op 6 4 = 0 ∨ 5 < bits op 6 4 ∨ bits op 31 14 ≠ 0 ∨
      bits op 9 7 ∈ [1, 4, 5, 7] ∨ (bit op 13 = true ∧ bits op 12 10 ∈ [1, 4, 5, 7])) → Answers (.insert slot k) s (ends 5 0)) ∧
    (runs → s.eptHalted = false → k ≠ .lasting → op % 16 = 1 → bits op 31 14 = 0 → bits (leNat ((d.drop 4).take 4)) 30 18 = 0 →
      1 ≤ bits op 6 4 → bits op 6 4 ≤ 5 → bits op 9 7 ∈ [0, 2, 3, 6] → bit op 13 = false →
      ((d.drop 0x68).take 20).any (· != 0) = false →
      (s.buckets (bits op 9 7) key1).all (fun b => s.eptXmOk (s.bucketAddr b) 64) = true →
      s.findKey (bits op 9 7) key1 = none →
      (s.freeSlot (bits op 9 7) key1 [] = none → s.countsOnly 482 = true → Answers (.insert slot k) s (fun u => ends 2 0 u ∧
        u.get F.EPT_CNT_FULL = (s.bump F.EPT_CNT_FULL 1).get F.EPT_CNT_FULL ∧ CountedOnce s u 482)) ∧
      (s.freeSlot (bits op 9 7) key1 [] ≠ none → bit (leNat ((d.drop 4).take 4)) 31 = true → s.entFree x = false →
        s.countsOnly 483 = true → Answers (.insert slot k) s (fun u => ends 3 0 u ∧
          u.get F.EPT_CNT_NOFREE = (s.bump F.EPT_CNT_NOFREE 1).get F.EPT_CNT_NOFREE ∧ CountedOnce s u 483)) ∧
      (s.freeSlot (bits op 9 7) key1 [] ≠ none → bit (leNat ((d.drop 4).take 4)) 31 = false →
        s.allocIndex (s.get F.EPT_ALLOC_FLOOR_X) = none → s.countsOnly 483 = true →
        Answers (.insert slot k) s (fun u => ends 3 0 u ∧ CountedOnce s u 483)))) ∧
  (∀ (who : Fin 4) (v : Word) (bad : List Nat) (s : State), s.takes who.val 5 = true →
    let w := if s.on F.EPT_CTL_EN = true ∨ s.eptBanks.length < 2 then s
      else (forEach (s.ept.lines.filter (fun l => !s.eptBanks.contains (l.gaddr / 0x100000)))
        (fun l s => (s.writeBack l).dropLine l.entry) s).put F.EPT_CTL_EN 1
    (bit v.toNat 1 = false → w.quiet = true → Completes (.eptEnable who v bad) s w) ∧
    (bit v.toNat 0 = true → s.on F.EPT_CTL_EN = true → s.xmDead = true → s.countsOnly 481 = true → s.ept.lines.length = 1 →
      Answers (.cacheFlush who v bad) s (fun u => u.ept.lines.map EptLine.entry = s.ept.lines.map EptLine.entry ∧
        (∀ l, l ∈ u.ept.lines → l.stuck = true) ∧ u.xm = s.xm ∧ CountedOnce s u 481)) ∧
    (bit v.toNat 1 = false → s.on F.EPT_CTL_EN = false → s.ept.lines = [] → Completes (.eptEnable who v bad) s
      (if s.eptBanks.length < 2 then s else s.put F.EPT_CTL_EN 1)) ∧
    (bit v.toNat 0 = true → s.on F.EPT_CTL_EN = true → s.xmDead = false → Answers (.cacheFlush who v []) s (fun u =>
      u.ept.lines.map EptLine.entry = s.ept.lines.map EptLine.entry ∧ (∀ l, l ∈ u.ept.lines → l.stuck = false) ∧
      u.ept.ents = s.ept.ents ∧ u.gm = s.gm ∧ u.regs = s.regs))) ∧
  (∀ (l : EptLine) (k : Nat) (s : State), 0x10 ≤ k → k < 0x18 →
    memByte (s.writeBack l).xm (s.entAddr l.entry + k) = memByte s.gm (l.gaddr + k) ∧
    ∀ b, b < s.entAddr l.entry ∨ s.entAddr l.entry + 256 ≤ b → memByte (s.writeBack l).xm b = memByte s.xm b)

/-- RT_UPD installs the staged prefix with its bits beyond PLEN 0 as the only one of its key, or removes it, and reports
ERR for a PLEN beyond the width, for a removal of an absent prefix and, with source 485, for a full table; a GO whose
stage names the other action does nothing. A finished lookup's result word carries the entry's Granary address and
index, or the route's next hop and PLEN, or STATUS 1 for a miss and while EN is 0, or STATUS 2 for a lasting read
error and while the engine is halted; a hit pins the entry, and one by a task that holds eight pins answers STATUS 3
without one. A result arriving at a waiting WAITOP is written to its register, its slot is empty and the thread goes
on; one that arrives after its task has ended is discarded with its pin. (R40, R41, R73, R74, R75, R356, R361, R371,
R373) -/
def Obligations.RoutesAndResults : Prop :=
  (∀ (who : Fin 4) (s : State), s.takes who.val 5 = true →
    let w4 := s.get (F.EPT_RT_STAGE_WORD 4)
    let plen := w4 % 256
    let v6 := bit w4 8
    let w := if v6 then 128 else 32
    let raw := (List.range 4).flatMap (fun k => natLe (s.get (F.EPT_RT_STAGE_WORD k)) 4)
    let pre := beNat (raw.take (w / 8)) / 2 ^ (w - plen) * 2 ^ (w - plen)
    let same := fun (r : Route) => r.v6 == v6 && r.plen == plen && r.pre == pre
    (bit w4 9 = false → plen ≤ w → (s.ept.routes.filter (fun r => r.v6 == v6)).length < (if v6 then 32768 else 65536) →
      Answers (.routeAdd who) s (fun u => u.get F.EPT_RT_UPD_ERR = 0 ∧
        u.ept = { s.ept with routes := s.ept.routes.filter (fun r => !same r)
          ++ [⟨v6, plen, pre, s.get (F.EPT_RT_STAGE_WORD 5) % 2 ^ 18⟩] } ∧ u.xm = s.xm ∧ u.gm = s.gm)) ∧
    (bit w4 9 = true → plen ≤ w → s.ept.routes.any same = true → Answers (.routeRemove who) s (fun u =>
      u.get F.EPT_RT_UPD_ERR = 0 ∧ u.ept = { s.ept with routes := s.ept.routes.filter (fun r => !same r) } ∧
      u.xm = s.xm ∧ u.gm = s.gm)) ∧
    (bit w4 9 = true → plen ≤ w → s.ept.routes.any same = false →
      Completes (.routeRemove who) s (s.put F.EPT_RT_UPD_ERR 1)) ∧
    (bit w4 9 = false → w < plen → Completes (.routeAdd who) s (s.put F.EPT_RT_UPD_ERR 1)) ∧
    (bit w4 9 = true → w < plen → Completes (.routeRemove who) s (s.put F.EPT_RT_UPD_ERR 1)) ∧
    (bit w4 9 = false → plen ≤ w → s.ept.routes.any same = true → Answers (.routeAdd who) s (fun u => u.get F.EPT_RT_UPD_ERR = 0 ∧
        u.ept = { s.ept with routes := s.ept.routes.filter (fun r => !same r)
          ++ [⟨v6, plen, pre, s.get (F.EPT_RT_STAGE_WORD 5) % 2 ^ 18⟩] } ∧ u.xm = s.xm ∧ u.gm = s.gm)) ∧
    (bit w4 9 = true → Completes (.routeAdd who) s s) ∧
    (bit w4 9 = false → Completes (.routeRemove who) s s)) ∧
  (∀ (l : List Route) (s : State), s.takes 0 5 = true →
    let t : State := { s with ept := { s.ept with routes := l } }
    let w4 := s.get (F.EPT_RT_STAGE_WORD 4)
    bit w4 9 = false → w4 % 256 ≤ (if bit w4 8 then 128 else 32) → l.any (fun r => r.v6 == bit w4 8 && r.plen == w4 % 256) = false →
    (if bit w4 8 then 32768 else 65536) ≤ (l.filter (fun r => r.v6 == bit w4 8)).length → s.countsOnly 485 = true →
    Answers (.routeAdd 0) t (fun u => u.get F.EPT_RT_UPD_ERR = 1 ∧ u.ept = t.ept ∧ CountedOnce s u 485)) ∧
  (∀ (v6 : Bool) (a : Nat) (r : Route) (s : State), s.routeFind v6 a = some r → r ∈ s.ept.routes ∧ r.v6 = v6 ∧
    r.pre = a / 2 ^ ((if v6 then 128 else 32) - r.plen) * 2 ^ ((if v6 then 128 else 32) - r.plen) ∧
    (∀ q : Route, q ∈ s.ept.routes → q.v6 = v6 → q.plen ≤ (if v6 then 128 else 32) →
      q.pre = a / 2 ^ ((if v6 then 128 else 32) - q.plen) * 2 ^ ((if v6 then 128 else 32) - q.plen) →
      q.plen ≤ r.plen ∨ (if v6 then 128 else 32) ≤ r.plen)) ∧
  (∀ (i : Nat) (k wb : Check) (g : Lookup) (s : State), s.running 5 = true → s.ept.lookups[i]? = some g →
    let u : State := { s with ept := { s.ept with lookups := s.ept.lookups.eraseIdx i } }
    let f := s.search g.table g.key k
    (s.eptHalted = true → Completes (.lookupComplete i k wb) s (u.lookupResult g.dest (2 * 2 ^ 51) none)) ∧
    (s.eptHalted = false → s.on F.EPT_CTL_EN = false →
      Completes (.lookupComplete i k wb) s (u.lookupResult g.dest (2 ^ 51) none)) ∧
    (s.eptHalted = false → s.on F.EPT_CTL_EN = true → f = .miss →
      Completes (.lookupComplete i k wb) s (u.lookupResult g.dest (2 ^ 51) none)) ∧
    (∀ r : Route, s.eptHalted = false → s.on F.EPT_CTL_EN = true → f = .route r → r.nh < 2 ^ 18 → r.plen < 256 →
      Completes (.lookupComplete i k wb) s (u.lookupResult g.dest (r.nh * 2 ^ 25 + r.plen * 2 ^ 43) none)) ∧
    (∀ n : Nat, s.eptHalted = false → s.on F.EPT_CTL_EN = true → f = .bad n → s.countsOnly n = true →
      Completes (.lookupComplete i k wb) s ((u.counted n).lookupResult g.dest (2 * 2 ^ 51) none)) ∧
    (∀ (x : Nat) (c : EptLine), s.eptHalted = false → s.on F.EPT_CTL_EN = true → f = .entry x → s.eptLine x = some c →
      c.stuck = false →
      let hit := fun (v : State) => (v.ent x).hits = min 0xFFFFFFFF ((s.ent x).hits + 1) ∧
        (v.ent x).last = s.now / 2 ^ 30 % 2 ^ 32 ∧ (∀ y, y ≠ x → v.ent y = s.ent y) ∧ v.xm = s.xm ∧ v.yal.g = s.yal.g ∧
        v.ept.lookups = s.ept.lookups.eraseIdx i
      let word := fun (v : Nat) => match g.dest with | .creation _ _ => v % 2 ^ 25 | .slot _ _ _ => v
      (s.pinsHeld g.dest < 8 → Answers (.lookupComplete i k wb) s (fun v => hit v ∧
        v.yal.arriving = s.yal.arriving ++ [⟨g.dest, BitVec.ofNat 64 (word (c.gaddr % 2 ^ 25 + x * 2 ^ 25)), some x⟩] ∧
        tabGet (fun _ => 0) v.ept.pins x = tabGet (fun _ => 0) s.ept.pins x + 1)) ∧
      (8 ≤ s.pinsHeld g.dest → Answers (.lookupComplete i k wb) s (fun v => hit v ∧
        v.yal.arriving = s.yal.arriving ++ [⟨g.dest, BitVec.ofNat 64 (word (x * 2 ^ 25 + 3 * 2 ^ 51)), none⟩] ∧
        v.ept.pins = s.ept.pins)))) ∧
  (∀ (i : Nat) (k wb : Check) (s : State), s.running 5 = true →
    let w := s.lookupComplete i k wb
    w.quiet = true → Completes (.lookupComplete i k wb) s w) ∧
  (∀ (i : Nat) (k wb : Check) (s : State), s.quiet = true → (s.domOn 5 = false ∨ s.ept.lookups[i]? = none) →
    Completes (.lookupComplete i k wb) s s) ∧
  (∀ (t : Fin 512) (i id k : Nat) (v : DWord) (pin : Option Nat) (s : State), s.running 5 = true →
    s.yal.arriving[i]? = some ⟨.slot t.val id k, v, pin⟩ →
    let u : State := { s with yal := { s.yal with arriving := s.yal.arriving.eraseIdx i } }
    let th := { s.thread t.val with pins := (s.thread t.val).pins ++ pin.toList }
    let mine := fun (task : Task) => (s.thread t.val).task = some task ∧ task.id = id
    let kept := (u.setThread t.val { th with slots := setAt th.slots k (.result v) })
    (∀ (task : Task) (gd : Nat), mine task → th.st = .wait (.operand gd k) → Completes (.operandArrive i) s
      ((u.setThread t.val { th with slots := setAt th.slots k .empty, st := .run, pc := (th.pc + 4) % 0x10000 }).setReg
        t.val gd v)) ∧
    (∀ (task : Task), mine task → (match th.st with | .wait (.operand _ j) => j == k | _ => false) = false →
      Completes (.operandArrive i) s kept) ∧
    ((s.thread t.val).task.map Task.id ≠ some id → Completes (.operandArrive i) s
      (match pin with | none => u | some x => u.unpin x))) ∧
  (∀ (i id : Nat) (k : Fin 3) (v : DWord) (pin : Option Nat) (s : State), s.running 5 = true →
    s.yal.arriving[i]? = some ⟨.creation id k.val, v, pin⟩ →
    let u : State := { s with yal := { s.yal with arriving := s.yal.arriving.eraseIdx i } }
    let give := fun (j : Task) => if j.id ≠ id then j
      else if k.val = 1 then { j with await1 := false, op1 := v.toNat, pin := pin, since := s.now }
      else { j with await2 := false, op2 := v.toNat, since := s.now }
    let h := { s.hts with tasks := s.hts.tasks.map give }
    ((∃ j ∈ s.hts.tasks, j.id = id) → Completes (.operandArrive i) s { u with hts := h }) ∧
    ((∀ j ∈ s.hts.tasks, j.id ≠ id) → Completes (.operandArrive i) s
      (match pin with | none => u | some x => u.unpin x))) ∧
  (∀ (i : Nat) (s : State), s.quiet = true → (s.domOn 5 = false ∨ s.yal.arriving[i]? = none) →
    Completes (.operandArrive i) s s)

/-- MOUNT reads the flash and sets MOUNTED; GO of JRN_APP queues the record with its TYPE, ID, DEL and payload, or answers
STATUS 1 before a mount and 4 for type 0 or a payload over 4,064 bytes; a GO while the requester's own append runs is
ignored. The append's end takes the next SEQ and answers STATUS 0 where a read-back compared, or 3 with source 486
where both failed; a flash that does not answer ends it with STATUS 3 and source 490; with no append waiting neither
does anything. COMPACT counts a sector once mounted and does nothing before. Programming only clears bits. (R363,
R364, R365, R366, R367, R368, R371) -/
def Obligations.ConfigurationJournal : Prop :=
  (∀ (who : Fin 4) (v : Word) (s : State), s.takes who.val 5 = true → bit v.toNat 2 = false →
    Answers (.journalMount who v true) s (fun u => u.get F.EPT_JRN_CTL_MOUNTED = 1 ∧
      s.get F.EPT_JRN_SEQ_SEQ ≤ u.get F.EPT_JRN_SEQ_SEQ ∧ u.get F.EPT_JRN_KEYS_N = s.liveRecords.length % 2 ^ 17 ∧
      u.flash = s.flash ∧ u.gm = s.gm ∧ u.ept = s.ept)) ∧
  (∀ (who : Fin 4) (v : Word) (s : State), s.takes who.val 5 = true → (∀ q, q ∈ s.ept.appends → q.who ≠ who.val) →
    let q : Bool → JrnReq := fun del => ⟨who.val, fldOf v (F.EPT_JRN_APP_TYPE who.val), del, s.get (F.EPT_JRN_ID_ID who.val),
      memBytes s.gm (s.get (F.EPT_JRN_SRC_ADDR who.val)) (fldOf v (F.EPT_JRN_APP_LEN who.val))⟩
    let queued := fun (del : Bool) (u : State) => u.ept = { s.ept with appends := s.ept.appends ++ [q del] } ∧
      u.get (F.EPT_JRN_APP_GO who.val) = 1 ∧ u.get F.EPT_JRN_CTL_BUSY = 1 ∧ u.flash = s.flash ∧ u.gm = s.gm
    (s.on F.EPT_JRN_CTL_MOUNTED = true → fldOf v (F.EPT_JRN_APP_TYPE who.val) ≠ 0 →
      fldOf v (F.EPT_JRN_APP_LEN who.val) ≤ 4064 → s.jrnRoom (q false) = true →
      Answers (.journalAppend who v) s (queued false) ∧ Answers (.journalDelete who v) s (queued true)) ∧
    (s.on F.EPT_JRN_CTL_MOUNTED = false → Answers (.journalAppend who v) s (fun u =>
      u.get (F.EPT_JRN_APP_STATUS who.val) = 1 ∧ u.ept = s.ept ∧ u.flash = s.flash ∧ u.gm = s.gm)) ∧
    (s.on F.EPT_JRN_CTL_MOUNTED = true → (fldOf v (F.EPT_JRN_APP_TYPE who.val) = 0 ∨ 4064 < fldOf v (F.EPT_JRN_APP_LEN who.val)) →
      Answers (.journalAppend who v) s (fun u =>
        u.get (F.EPT_JRN_APP_STATUS who.val) = 4 ∧ u.ept = s.ept ∧ u.flash = s.flash ∧ u.gm = s.gm) ∧
      Answers (.journalDelete who v) s (fun u =>
        u.get (F.EPT_JRN_APP_STATUS who.val) = 4 ∧ u.ept = s.ept ∧ u.flash = s.flash ∧ u.gm = s.gm))) ∧
  (∀ (who : Fin 4) (v : Word) (s : State), s.takes who.val 5 = true → (∃ q ∈ s.ept.appends, q.who = who.val) →
    Answers (.journalAppend who v) s (fun u => u.ept = s.ept ∧ u.flash = s.flash ∧ u.gm = s.gm ∧
      u.get (F.EPT_JRN_APP_STATUS who.val) = s.get (F.EPT_JRN_APP_STATUS who.val)) ∧
    Answers (.journalDelete who v) s (fun u => u.ept = s.ept ∧ u.flash = s.flash ∧ u.gm = s.gm ∧
      u.get (F.EPT_JRN_APP_STATUS who.val) = s.get (F.EPT_JRN_APP_STATUS who.val))) ∧
  (∀ (who : Fin 4) (v : Word) (ok : Bool) (s : State), s.takes who.val 5 = true →
    let mounts := s.jrnCtlWrite (withFld v F.EPT_JRN_CTL_MOUNT 1) ok
    let compacts := s.jrnCtlWrite (withFld v F.EPT_JRN_CTL_COMPACT 1) ok
    (mounts.quiet = true → Completes (.journalMount who v ok) s mounts) ∧
    (compacts.quiet = true → Completes (.journalCompact who v ok) s compacts) ∧
    (bit v.toNat 0 = false → s.on F.EPT_JRN_CTL_MOUNTED = false → Completes (.journalCompact who v ok) s s)) ∧
  (∀ (ok1 ok2 erase : Bool) (s : State), s.quiet = true →
    let w := s.journalAppendDone ok1 ok2 erase
    (s.domOn 5 = true → w.quiet = true → Completes (.journalAppendDone ok1 ok2 erase) s w) ∧
    ((s.domOn 5 = false ∨ s.ept.appends = []) → Completes (.journalAppendDone ok1 ok2 erase) s s ∧
      Completes .flashTimeout s s)) ∧
  (∀ (q : JrnReq) (l : List JrnReq) (s : State), s.running 5 = true → s.ept.appends = q :: l →
    (s.jrnRoom q = true → q.payload.length ≤ 4064 → s.dataSectors.length < 47 → s.get F.EPT_JRN_SEQ_SEQ + 1 < 2 ^ 64 →
      Answers (.journalAppendDone true true true) s (fun u =>
        u.get (F.EPT_JRN_APP_STATUS q.who) = 0 ∧ u.get (F.EPT_JRN_APP_GO q.who) = 0 ∧
        u.get F.EPT_JRN_SEQ_SEQ = s.get F.EPT_JRN_SEQ_SEQ + 1 ∧ u.ept = { s.ept with appends := l } ∧ u.gm = s.gm)) ∧
    (s.jrnRoom q = true → s.dataSectors = [] → s.get F.EPT_JRN_SEQ_SEQ + 1 < 2 ^ 64 → s.countsOnly 486 = true →
      Answers (.journalAppendDone false false true) s (fun u =>
        u.get (F.EPT_JRN_APP_STATUS q.who) = 3 ∧ u.get (F.EPT_JRN_APP_GO q.who) = 0 ∧
        u.get F.EPT_JRN_SEQ_SEQ = s.get F.EPT_JRN_SEQ_SEQ + 1 ∧ u.ept = { s.ept with appends := l } ∧ CountedOnce s u 486)) ∧
    (s.countsOnly 490 = true → Answers .flashTimeout s (fun u =>
      u.get (F.EPT_JRN_APP_STATUS q.who) = 3 ∧ u.get (F.EPT_JRN_APP_GO q.who) = 0 ∧
      u.ept = { s.ept with appends := l } ∧ u.flash = s.flash ∧ u.gm = s.gm ∧
      u.get (F.FLT_SRC_COUNT 490) = (s.bump (F.FLT_SRC_COUNT 490) 1).get (F.FLT_SRC_COUNT 490)))) ∧
  (∀ (who : Fin 4) (v : Word) (s : State), s.takes who.val 5 = true → s.on F.EPT_JRN_CTL_MOUNTED = true →
    bit v.toNat 0 = false →
    (s.dataSectors ≠ [] → s.dataSectors.length < 64 → Answers (.journalCompact who v true) s (fun u =>
      u.get F.EPT_JRN_CNT_COMPACT = (s.bump F.EPT_JRN_CNT_COMPACT 1).get F.EPT_JRN_CNT_COMPACT ∧ u.ept = s.ept ∧
      u.gm = s.gm)) ∧
    ((s.dataSectors = [] ∨ 64 ≤ s.dataSectors.length) → Answers (.journalCompact who v true) s (fun u =>
      u.flash = s.flash ∧ u.get F.EPT_JRN_CNT_COMPACT = s.get F.EPT_JRN_CNT_COMPACT ∧ u.ept = s.ept ∧ u.gm = s.gm))) ∧
  (∀ (m : Mem) (a k : Nat) (bs : List Byte), k < bs.length →
    tabGet flashDflt (flashProgram m a bs) (a + k) = tabGet flashDflt m (a + k) &&& bs.getD k 0xFF)

/-- An accepted JOIN, ADMIT, LEAVE, NOTICE, FAULT or firmware message stands in the mailbox with its header, payload and
stamp and advances WR_PTR; LEAVE takes its sender out of REACH; at the anchor a FAULT is counted in FLT.RMT. A full
mailbox drops it with source 585. DATA is passed to the parser from its sender, and toward another device leaves on
its route with HOPS one less. ACK clears what it names; RREP completes the pending remote access; RACC in order writes
or reads as the host and answers. A message with a failed check value is counted and delivered nowhere; one whose
control buffer failed for good is dropped with source 587; a slot that hears nothing, or a federation that is off,
takes nothing in. (R426, R431, R432, R433, R434, R436, R437, R440, R443, R447) -/
def Obligations.FabricDelivery : Prop :=
  (∀ (slot : Fin 8) (m : FedMsg) (p : List Byte) (t : Nat) (c : Check) (s : State), s.fabricTakes slot.val m p → c ≠ .lasting →
    let h := FedMsgHeader { m with payload := p } m.hops.toNat
    (s.mboxFull = false → (m.type = 20 → s.fedId ≠ s.fedAnchor) →
      (m.type = 16 → Answers (.join slot m t c) s (fun u => Mailed s u h p t)) ∧
      (m.type = 17 → Answers (.admitDevice slot m t c) s (fun u => Mailed s u h p t)) ∧
      (m.type = 19 → Answers (.notice slot m t c) s (fun u => Mailed s u h p t)) ∧
      (m.type = 20 → Answers (.fault slot m t c) s (fun u => Mailed s u h p t)) ∧
      (32 ≤ m.type.toNat → Answers (.firmwareMessage slot m t c) s (fun u => Mailed s u h p t))) ∧
    (s.mboxFull = false → m.type = 20 → s.fedId = s.fedAnchor → Answers (.fault slot m t c) s (fun u =>
      Mailed s u h p t ∧ u.get (F.FLT_RMT_SRC m.src.toNat) = leNat (p.take 2) % 1024 ∧
      u.get (F.FLT_RMT_COUNT m.src.toNat) = (s.bump (F.FLT_RMT_COUNT m.src.toNat) 1).get (F.FLT_RMT_COUNT m.src.toNat))) ∧
    (s.mboxFull = false → m.type = 18 → m.src.toNat ≠ s.fedId → Answers (.leave slot m t c) s (fun u =>
      u.fed.left = m.src.toNat :: s.fed.left.filter (· != m.src.toNat) ∧ u.fbit F.FED_REACH_SET m.src.toNat = false ∧
      u.get F.FED_MBOX_WR_PTR = (s.get F.FED_MBOX_WR_PTR % s.mboxSize + 1) % s.mboxSize % 1024)) ∧
    (s.mboxFull = true → 32 ≤ m.type.toNat → s.countsOnly 585 = true →
      Answers (.firmwareMessage slot m t c) s (fun u => u.gm = s.gm ∧
        u.get F.FED_CNT4_MBOXOVF = (s.bump F.FED_CNT4_MBOXOVF 1).get F.FED_CNT4_MBOXOVF ∧
        u.get F.FED_MBOX_WR_PTR = s.get F.FED_MBOX_WR_PTR)) ∧
    (m.type = 4 → Answers (.data slot m t c) s (fun u => u.prs.input = s.prs.input ++
      [{ bytes := p, port := 3, start := 0, srcid := m.src.toNat, stamp := t, ref := s.prs.nextRef }] ∧ u.gm = s.gm)) ∧
    (m.type = 1 → Answers (.ack slot m t c) s (fun u =>
      u.fed.rel = s.fed.rel.filter (fun e => !((List.range (leNat (p.take 1))).any (fun i =>
        leNat ((p.drop (4 + 4 * i)).take 4) == e.msg.seq.toNat) && (e.msg.dst.toNat == m.src.toNat || e.msg.dst == 0xFF))) ∧
      u.gm = s.gm)) ∧
    (m.type = 3 → s.on F.HST_RA_CTL_BUSY = true → m.src.toNat = s.hst.raDev → leNat (p.take 4) = s.hst.raNum →
      Answers (.rrep slot m t c) s (fun u => u.get F.HST_RA_CTL_BUSY = 0 ∧
        u.get F.HST_RA_CTL_STATUS = (if leNat ((p.drop 4).take 1) = 0 then 0 else 3) ∧
        u.get F.HST_RA_DATA_DATA = (if leNat ((p.drop 4).take 1) = 0 ∧ s.hst.raOp = false
          then leNat ((p.drop 8).take 4) else s.get F.HST_RA_DATA_DATA) ∧ u.gm = s.gm)) ∧
    (∀ (x : Ext) (j : Nat), m.type = 2 → s.racc m.src.toNat = { inc := m.incarn.toNat, next := leNat (p.take 4) } →
      leNat ((p.drop 8).take 4) = 0x50000C / 4 → s.domOn 12 = true → s.reaches 0 = true → s.mode ≠ 0xB →
      leNat ((p.drop 4).take 1) ≤ 1 → s.fedRoute m.src.toNat = some j → j < 2 →
      Answers (.racc slot m t c x) s (fun u =>
        (u.racc m.src.toNat).next = (leNat (p.take 4) + 1) % 2 ^ 32 ∧
        (leNat ((p.drop 4).take 1) = 1 → u.get (F.CU_MAXLEN_LEN 0) = leNat ((p.drop 12).take 4) % 2 ^ 14 ∧
          (u.racc m.src.toNat).replies = [(leNat (p.take 4), 0, 0)]) ∧
        (leNat ((p.drop 4).take 1) = 0 → u.get (F.CU_MAXLEN_LEN 0) = s.get (F.CU_MAXLEN_LEN 0) ∧
          (u.racc m.src.toNat).replies.map (fun r => (r.1, r.2.1, r.2.2 % 2 ^ 14))
            = [(leNat (p.take 4), 0, s.get (F.CU_MAXLEN_LEN 0))]) ∧ u.gm = s.gm))) ∧
  (∀ (slot : Fin 8) (m : FedMsg) (t j : Nat) (c : Check) (s : State), s.quiet = true → s.fabricHears slot.val = true → s.fedState ≠ 0 →
    s.on (F.FEDS_LINK_CFG_EN slot.val) = true → s.fedHalted = false → m.ver = 1 → m.type = 4 → fedFlag m fOpen = false → c ≠ .lasting →
    m.dst.toNat ≠ s.fedId → s.fedRoute m.dst.toNat = some j → j < 2 → s.cuSends j = true → s.stopped = false →
    (fedBytes m).length + 18 ≤ s.cuMaxLen j → 1 < m.hops.toNat → m.dst ≠ 0xFF →
    let f := { s.fed with out := [(j, { m with hops := m.hops - 1 })] }
    Completes (.data slot m t c) s { s.until t with fed := f }) ∧
  (∀ (slot : Fin 8) (m : FedMsg) (t : Nat) (c : Check) (s : State), s.quiet = true → s.fabricHears slot.val = true → s.fedState ≠ 0 →
    s.on (F.FEDS_LINK_CFG_EN slot.val) = true → s.fedHalted = false → m.ver = 1 → m.type = 4 → c ≠ .lasting →
    m.dst.toNat = s.fedId → s.fedCheck m = none → s.get (F.FLT_CLASS_CFG01_ENTRY 0) = 0 →
    Answers (.data slot m t c) s (fun u => u.prs = s.prs ∧ u.gm = s.gm ∧ u.fed.peers = s.fed.peers ∧
      u.get F.FED_CNT2_MIC = (s.bump F.FED_CNT2_MIC 1).get F.FED_CNT2_MIC)) ∧
  (∀ (slot : Fin 8) (m : FedMsg) (t : Nat) (c : Check) (x : Ext) (s : State), s.quiet = true →
    let got := fun (acc : Access) (n : BitVec 8) => s.fabricMessage acc slot.val { m with type := n } t c
    (Settles (.ack slot m t c) s (got noAccess 1)) ∧
    (Settles (.racc slot m t c x) s (got (hostPath x) 2)) ∧
    (Settles (.rrep slot m t c) s (got noAccess 3)) ∧
    (Settles (.data slot m t c) s (got noAccess 4)) ∧
    (Settles (.join slot m t c) s (got noAccess 16)) ∧
    (Settles (.admitDevice slot m t c) s (got noAccess 17)) ∧
    (Settles (.leave slot m t c) s (got noAccess 18)) ∧
    (Settles (.notice slot m t c) s (got noAccess 19)) ∧
    (Settles (.fault slot m t c) s (got noAccess 20)) ∧
    (32 ≤ m.type.toNat → Settles (.firmwareMessage slot m t c) s (got noAccess m.type)) ∧
    (m.type.toNat < 32 → Completes (.firmwareMessage slot m t c) s s) ∧
    (s.fabricHears slot.val = false → Completes (.ack slot m t c) s s ∧ Completes (.racc slot m t c x) s s ∧
      Completes (.rrep slot m t c) s s ∧ Completes (.data slot m t c) s s ∧ Completes (.join slot m t c) s s ∧
      Completes (.admitDevice slot m t c) s s ∧ Completes (.leave slot m t c) s s ∧ Completes (.notice slot m t c) s s ∧
      Completes (.fault slot m t c) s s ∧ Completes (.firmwareMessage slot m t c) s s) ∧
    (s.fabricHears slot.val = true → (s.fedState = 0 ∨ s.on (F.FEDS_LINK_CFG_EN slot.val) = false) →
      let b := { s.fed with out := [] }
      Completes (.ack slot m t c) s { s with fed := b } ∧ Completes (.join slot m t c) s { s with fed := b } ∧
      Completes (.data slot m t c) s { s with fed := b }) ∧
    (s.fabricHears slot.val = true → s.fedState ≠ 0 → s.on (F.FEDS_LINK_CFG_EN slot.val) = true → c = .lasting →
      s.countsOnly 587 = true → 32 ≤ m.type.toNat →
      let b := { s.fed with out := [] }
      Completes (.firmwareMessage slot m t c) s ((({ s with fed := b } : State).until t).counted 587) ∧
      Completes (.data slot m t c) s ((({ s with fed := b } : State).until t).counted 587)))

/-- An accepted heartbeat brings its slot up with its peer, MISSED 0 and the hops it advertises, and one whose check value
fails is counted alone; a due heartbeat leaves and the next is HB later, and on a link that carries nothing only the
time moves on; a missed deadline advances MISSED and the third loses the slot with LOSSES and source 576. A quorum
result that held for SETTLE takes effect: its loss enters Island with EPOCH.ISLAND and source 582, its return leaves
it with source 583. EN enters JOINING, or MEMBER at the anchor; clearing it enters OFF; ADMITTED enters SYNC or MEMBER
by the epoch and SYNCED enters MEMBER; in any other state ADMITTED and SYNCED do nothing. (R429, R434, R438, R439,
R444, R445, R446, R448) -/
def Obligations.FabricLinks : Prop :=
  (∀ (slot : Fin 8) (m : FedMsg) (p : List Byte) (t : Nat) (k : Check) (s : State), s.quiet = true →
    s.fabricHears slot.val = true → s.fedState ≠ 0 → s.on (F.FEDS_LINK_CFG_EN slot.val) = true → k ≠ .lasting → m.ver = 1 →
    m.type = 0 →
    let a := s.stampIn (s.fedPort slot.val) t
    (s.on (F.FEDS_LINK_STAT_UP slot.val) = true → s.get (F.FEDS_LINK_STAT_PEER slot.val) = m.src.toNat ∧
      a < (s.fslot slot.val).at' + (s.get (F.FEDS_LINK_STAT_MISSED slot.val) + 1) * (s.fslot slot.val).hb * 1000000) →
    (s.fedCheck m = some p → (s.fedNumbered m).1 = .accept → s.fedConflict slot.val m = false → m.src.toNat ≠ s.fedId →
      leNat ((p.drop 1).take 1) % 2 = s.get F.FED_SIZE_CLASS_CLASS → s.air.bh.report = false →
      Answers (.heartbeat slot m t k) s (fun u => u.get (F.FEDS_LINK_STAT_UP slot.val) = 1 ∧
        u.get (F.FEDS_LINK_STAT_PEER slot.val) = m.src.toNat ∧ u.get (F.FEDS_LINK_STAT_MISSED slot.val) = 0 ∧
        u.get (F.FEDS_LINK_STAT_OPEN slot.val) = b2n (fedFlag m fOpen) ∧
        (u.fslot slot.val).at' = a ∧ (u.fslot slot.val).hb = max 1 (leNat ((p.drop 2).take 2)) ∧
        (∀ d, d < 64 → (u.fslot slot.val).adv.getD d 15
          = leNat ((p.drop (4 + d / 2)).take 1) / 16 ^ (d % 2) % 16) ∧
        (∀ j, j ≠ slot.val → u.fslot j = s.fslot j) ∧ u.time = (s.until t).time)) ∧
    (s.fedCheck m = none → s.get (F.FLT_CLASS_CFG01_ENTRY 0) = 0 → Answers (.heartbeat slot m t k) s (fun u =>
      u.get F.FED_CNT2_MIC = (s.bump F.FED_CNT2_MIC 1).get F.FED_CNT2_MIC ∧ u.fed.slots = s.fed.slots ∧
      u.fed.peers = s.fed.peers ∧ u.gm = s.gm))) ∧
  (∀ (slot : Fin 8) (m : FedMsg) (t : Nat) (k : Check) (s : State), s.quiet = true →
    Settles (.heartbeat slot m t k) s (s.fabricMessage noAccess slot.val { m with type := 0 } t k) ∧
    (s.fabricHears slot.val = false → Completes (.heartbeat slot m t k) s s)) ∧
  (∀ (slot : Fin 8) (s : State), s.quiet = true →
    let joined := s.domOn 5 = true ∧ s.fedState ≠ 0 ∧ s.on (F.FEDS_LINK_CFG_EN slot.val) = true
    let b := { s.fed with out := [] }
    let u := ({ s with fed := b } : State).until (s.fslot slot.val).due
    let next := u.now + max 1 (s.get F.FED_TIMING_HB) * 1000000
    let silent := s.on F.SEC_RST_RDIE_HOLD = true ∨ (slot.val < 2 ∧ s.cuUp slot.val = false)
    (¬joined → Completes (.heartbeatSend slot) s s) ∧
    (joined → silent → Completes (.heartbeatSend slot) s (u.setFslot slot.val { s.fslot slot.val with due := next })) ∧
    (joined → ¬silent → slot.val < 2 → (s.keySlot (s.get F.FED_KEY_MAC)).loaded = false → s.stopped = false →
      126 ≤ s.cuMaxLen slot.val → Answers (.heartbeatSend slot) s (fun v => (v.fslot slot.val).due = next ∧
        v.time = u.time ∧ v.fed.seq = (s.fed.seq + 1) % 2 ^ 32 ∧
        v.fed.out.map (fun x => (x.1, x.2.type, x.2.src, x.2.dst, x.2.payload.length))
          = [(slot.val, 0, BitVec.ofNat 6 s.fedId, 255, 64)] ∧ (∀ x, x ∈ v.fed.out → fedFlag x.2 fOpen = true) ∧
        (∀ j, j ≠ slot.val → v.fslot j = s.fslot j) ∧ v.gm = s.gm)) ∧
    (joined → Settles (.heartbeatSend slot) s (s.heartbeatSend slot.val))) ∧
  (∀ (slot : Fin 8) (s : State), s.quiet = true →
    let j := s.get (F.FEDS_LINK_STAT_MISSED slot.val) + 1
    let b := { s.fed with out := [] }
    let u := ({ s with fed := b } : State).until ((s.fslot slot.val).at' + j * (s.fslot slot.val).hb * 1000000)
    let up := s.domOn 5 = true ∧ s.on (F.FEDS_LINK_STAT_UP slot.val) = true
    (¬up → Completes (.heartbeatDeadline slot) s s) ∧
    (up → j < 3 → Completes (.heartbeatDeadline slot) s (u.put (F.FEDS_LINK_STAT_MISSED slot.val) j)) ∧
    (up → j = 3 → s.countsOnly 576 = true → Answers (.heartbeatDeadline slot) s (fun v =>
      v.get (F.FEDS_LINK_STAT_UP slot.val) = 0 ∧ v.time = u.time ∧ (v.fslot slot.val).adv = [] ∧
      v.get (F.FEDS_LINK_STAT_LOSSES slot.val)
        = (s.bump (F.FEDS_LINK_STAT_LOSSES slot.val) 1).get (F.FEDS_LINK_STAT_LOSSES slot.val) ∧ CountedOnce s v 576))) ∧
  (∀ (q : Bool) (since : Nat) (s : State), s.running 5 = true → s.fed.pend = some (q, since) →
    let held := (s.until (since + max 1 (s.get F.FED_TIMING_SETTLE) * 10000000)).time
    (q = false → s.fedState = 3 → s.mboxFull = false → s.countsOnly 582 = true →
      Answers .quorumSettle s (fun u => u.fedState = 4 ∧ u.get F.EPT_EPOCH_ISLAND = 1 ∧ u.get F.FED_STAT_QUORUM = 0 ∧
        u.get F.FED_STAT_VIEW_PEND = 0 ∧ u.fed.pend = none ∧ CountedOnce s u 582 ∧
        u.mode = (if 6 ≤ s.mode ∧ s.mode ≤ 8 ∧ s.ctl.entry = none then 9 else s.mode) ∧ u.time = held)) ∧
    (q = true → s.fedState = 4 → s.mboxFull = false → s.countsOnly 583 = true →
      Answers .quorumSettle s (fun u => u.fedState = 3 ∧ u.get F.EPT_EPOCH_ISLAND = 0 ∧ u.get F.FED_STAT_QUORUM = 1 ∧
        u.get F.FED_STAT_VIEW_PEND = 0 ∧ u.fed.pend = none ∧ CountedOnce s u 583 ∧
        u.mode = (if s.mode = 9 then s.get F.TOP_MODE_BASE else s.mode) ∧ u.time = held)) ∧
    Settles .quorumSettle s s.quorumSettle) ∧
  (∀ s : State, s.quiet = true → (s.domOn 5 = false ∨ s.fed.pend = none) → Completes .quorumSettle s s) ∧
  (∀ (who : Fin 4) (v : Word) (s : State), s.takes who.val 5 = true → bit v.toNat 1 = false → bit v.toNat 2 = false →
    (s.on F.FED_CTL_EN = true → Completes (.fedEnable who v) s s) ∧
    (s.on F.FED_CTL_EN = false → Completes (.fedDisable who v) s s) ∧
    (s.on F.FED_CTL_EN = false → Answers (.fedEnable who v) s (fun u =>
      u.on F.FED_CTL_EN = true ∧ u.fedState = (if s.fedId = s.fedAnchor then 3 else 1) ∧
      u.get F.FED_STAT_SERVE = (if s.fedId = s.fedAnchor then 1 else 0) ∧ (∀ k, k < 8 → (u.fslot k).due = s.now))) ∧
    (s.on F.FED_CTL_EN = true → 1 ≤ s.fedState → s.fedState ≤ 2 →
      Answers (.fedDisable who v) s (fun u => u.on F.FED_CTL_EN = false ∧ u.fedState = 0 ∧ u.get F.FED_STAT_SERVE = 1 ∧
        u.fed.pend = none ∧ u.fed.slots = s.fed.slots)) ∧
    (s.on F.FED_CTL_EN = true → 3 ≤ s.fedState → s.mboxFull = false →
      (∀ k ∈ s.fedUp, k < 2) → Answers (.fedDisable who v) s (fun u => u.on F.FED_CTL_EN = false ∧ u.fedState = 0 ∧
        u.get F.FED_STAT_SERVE = 1 ∧ u.fed.pend = none ∧ u.fed.slots = s.fed.slots))) ∧
  (∀ (who : Fin 4) (v : Word) (s : State), s.takes who.val 5 = true → bit v.toNat 0 = true → s.on F.FED_CTL_EN = true →
    (bit v.toNat 2 = false → s.fedState = 1 → Answers (.admitted who v) s (fun u =>
        u.fedState = (if s.get F.EPT_EPOCH_NUM < s.get F.FED_EPOCH_SYS_NUM then 2 else 3) ∧ u.fed.slots = s.fed.slots)) ∧
    (bit v.toNat 2 = false → s.fedState ≠ 1 → Completes (.admitted who v) s s) ∧
    (bit v.toNat 1 = false → s.fedState = 2 → Answers (.synced who v) s (fun u =>
        u.fedState = 3 ∧ u.get F.FED_STAT_SERVE = 1 ∧ u.fed.slots = s.fed.slots)) ∧
    (bit v.toNat 1 = false → s.fedState ≠ 2 → Completes (.synced who v) s s))

/-- GO of FED.TX_CTL numbers and sends the message of the stage, STATUS 0, or with REL enters it in the send table, STATUS
1; a type, length or state that may not be sent answers STATUS 5, a device without a route 2, a full table 4, and
sends nothing. Gathered acknowledgements leave as one ACK; at its time a REL message is sent again, and after RETRIES
it leaves the table with STATUS 3, RETX and source 581; a remote access held for a gap is carried out once its time is
over, counted with source 588; with nothing gathered, pending or held none of these does anything. (R430, R433, R434,
R435, R436, R443, R453) -/
def Obligations.FabricReliability : Prop :=
  (∀ (who : Fin 4) (v : Word) (s : State), s.takes who.val 5 = true →
    let dst := fldOf v (F.FED_TX_CTL_DST who.val)
    let len := fldOf v (F.FED_TX_CTL_LEN who.val)
    let rel := fldOf v (F.FED_TX_CTL_REL who.val)
    let src := s.get (F.FED_TX_SRC_ADDR who.val)
    let fit := txType (fldOf v (F.FED_TX_CTL_TYPE who.val)) = true ∧ len ≤ 2008 ∧ s.fedState ≠ 0 ∧ s.fedHalted = false ∧
      src + len ≤ Config.granaryBytes
    let one := fldOf v (F.FED_TX_CTL_ALL who.val) = 0 ∧ dst ≠ s.fedId
    let kept := fun (status : Nat) (u : State) => u.get (F.FED_TX_CTL_STATUS who.val) = status ∧ u.fed.out = [] ∧
      u.fed.rel = s.fed.rel ∧ u.fed.seq = s.fed.seq ∧
      u.get (F.FED_TX_SEQ_SEQ who.val) = s.get (F.FED_TX_SEQ_SEQ who.val) ∧ u.gm = s.gm
    let keyed := s.slotRefusal 6 (s.get F.FED_KEY_MAC) useFabric = none
    let sent := fun (j : Nat) (u : State) => u.get (F.FED_TX_SEQ_SEQ who.val) = s.fed.seq % 2 ^ 32 ∧
      u.fed.seq = (s.fed.seq + 1) % 2 ^ 32 ∧ u.gm = s.gm ∧
      u.fed.out.map (fun x => (x.1, x.2.type, x.2.dst.toNat, x.2.payload))
        = [(j, BitVec.ofNat 8 (fldOf v (F.FED_TX_CTL_TYPE who.val)), dst, memBytes s.gm src len)]
    let carries := fun (j : Nat) => s.fedRoute dst = some j ∧ j < 2 ∧ s.cuUp j = true ∧ len + 58 ≤ s.cuMaxLen j ∧
      s.stopped = false
    (¬fit → Answers (.fabricSend who v) s (kept 5)) ∧
    (fit → one → s.fedRoute dst = none → Answers (.fabricSend who v) s (kept 2)) ∧
    (fit → one → s.fedRoute dst ≠ none → rel = 1 → 256 ≤ s.fed.rel.length → Answers (.fabricSend who v) s (kept 4)) ∧
    (fit → one → s.fedRoute dst ≠ none → rel = 0 → (s.keySlot (s.get F.FED_KEY_MAC)).loaded = false →
      fldOf v (F.FED_TX_CTL_TYPE who.val) ≠ 16 → fldOf v (F.FED_TX_CTL_TYPE who.val) ≠ 17 →
      Answers (.fabricSend who v) s (kept 5)) ∧
    (∀ j : Nat, fit → one → keyed → carries j → fldOf v (F.FED_TX_CTL_WRAP who.val) = 0 → rel = 0 →
      Answers (.fabricSend who v) s (fun u => sent j u ∧ u.fed.rel = s.fed.rel ∧
        u.get (F.FED_TX_CTL_STATUS who.val) = 0)) ∧
    (∀ j : Nat, fit → one → keyed → carries j → fldOf v (F.FED_TX_CTL_WRAP who.val) = 0 → rel = 1 → s.fed.rel.length < 256 →
      Answers (.fabricSend who v) s (fun u => sent j u ∧
        u.get (F.FED_TX_CTL_STATUS who.val) = 1 ∧ u.fed.rel.take s.fed.rel.length = s.fed.rel ∧
        (u.fed.rel.drop s.fed.rel.length).map (fun e => (e.who, e.tries, e.due))
          = [(some who.val, 0, s.now + max 1 (s.get F.FED_TIMING_RTO) * 1000000)]))) ∧
  (∀ (src : Fin 64) (s : State), s.quiet = true →
    (s.domOn 5 = true → Settles (.ackGather src) s (s.ackGather src.val)) ∧
    ((s.domOn 5 = false ∨ s.fed.acks.find? (fun a => a.src == src.val) = none) → Completes (.ackGather src) s s)) ∧
  (∀ (src : Fin 64) (a : FedAcks) (j : Nat) (s : State), s.running 5 = true →
    s.fed.acks.find? (fun b => b.src == src.val) = some a → s.stopped = false →
    s.slotRefusal 6 (s.get F.FED_KEY_MAC) useFabric = none → a.seqs.length ≤ 16 →
    s.fedRoute src.val = some j → j < 2 → s.cuUp j = true → 126 ≤ s.cuMaxLen j →
    Answers (.ackGather src) s (fun u => u.fed.acks = s.fed.acks.filter (fun b => b.src != src.val) ∧
      u.fed.out.map (fun x => (x.2.type, x.2.dst.toNat, x.2.payload))
        = [(1, src.val, natLe a.seqs.length 1 ++ [0, 0, 0] ++ a.seqs.flatMap (fun n => natLe n 4))] ∧
      u.time = (s.until (a.at' + 1000000)).time ∧ u.gm = s.gm)) ∧
  (∀ (seq : BitVec 32) (s : State), s.quiet = true →
    (s.domOn 5 = true → Settles (.relResend seq) s (s.relResend seq.toNat)) ∧
    ((s.domOn 5 = false ∨ s.fed.rel.find? (fun e => e.msg.seq.toNat == seq.toNat) = none) →
      Completes (.relResend seq) s s)) ∧
  (∀ (seq : BitVec 32) (e : FedRel) (s : State), s.running 5 = true →
    s.fed.rel.find? (fun e => e.msg.seq.toNat == seq.toNat) = some e →
    (∀ j : Nat, e.tries < s.get F.FED_TIMING_RETRIES → e.msg.dst.toNat < 64 → s.fedRoute e.msg.dst.toNat = some j → j < 2 →
      s.cuUp j = true → s.stopped = false → (fedBytes e.msg).length + 18 ≤ s.cuMaxLen j →
      let u := s.until e.due
      let again := fun (x : FedRel) => if x.msg.seq.toNat == seq.toNat then { x with
          tries := x.tries + 1, due := e.due + max 1 (s.get F.FED_TIMING_RTO) * 1000000 } else x
      let f := { s.fed with rel := s.fed.rel.map again, out := [(j, e.msg)] }
      Completes (.relResend seq) s { u with fed := f }) ∧
    (s.get F.FED_TIMING_RETRIES ≤ e.tries → s.countsOnly 581 = true → Answers (.relResend seq) s (fun u =>
      u.fed.rel = s.fed.rel.filter (fun x => x.msg.seq.toNat != seq.toNat) ∧
      u.get F.FED_CNT3_RETX = (s.bump F.FED_CNT3_RETX 1).get F.FED_CNT3_RETX ∧
      (∀ w : Fin 4, e.who = some w.val → s.get (F.FED_TX_SEQ_SEQ w.val) = seq.toNat → u.get (F.FED_TX_CTL_STATUS w.val) = 3) ∧
      CountedOnce s u 581 ∧ u.gm = s.gm))) ∧
  (∀ (src : Fin 64) (x : Ext) (s : State), s.quiet = true →
    (s.domOn 5 = true → Settles (.raccGapTimeout src x) s (s.raccGap (hostPath x) src.val)) ∧
    ((s.domOn 5 = false ∨ (s.racc src.val).held = []) → Completes (.raccGapTimeout src x) s s)) ∧
  (∀ (src : Fin 64) (x : Ext) (a : FedAcc) (j : Nat) (s : State), s.running 5 = true → (s.racc src.val).held = [a] →
    a.op = 1 → a.addr = 0x50000C / 4 → s.domOn 12 = true → s.reaches 0 = true → s.mode ≠ 0xB → s.countsOnly 588 = true →
    s.fedRoute src.val = some j → j < 2 →
    Answers (.raccGapTimeout src x) s (fun u => (u.racc src.val).held = [] ∧ (u.racc src.val).next = (a.rnum + 1) % 2 ^ 32 ∧
      u.get (F.CU_MAXLEN_LEN 0) = a.data % 2 ^ 14 ∧
      u.time = (s.until (a.at' + max 1 (s.get F.FED_TIMING_RTO) * 1000000 * (s.get F.FED_TIMING_RETRIES + 1))).time ∧
      CountedOnce s u 588 ∧ u.gm = s.gm)) ∧
  (∀ (q : FedPeer) (inc seq : Nat), (fedSequence q inc seq).1 = .accept → inc < 2 ^ 32 → seq < 2 ^ 32 →
    (fedSequence (fedSequence q inc seq).2 inc seq).1 = .duplicate)

/-- A forced occurrence sets FORCED and its sticky bit and counts; of a class that enters at L1 with nothing pending it
becomes pending with its deadline and its interrupt bit; with FORCE_EN 0 nothing happens. GRACE1's expiry takes its
source to L2 with a new deadline, its class interrupt and a record; GRACE2's takes it to L3 and, without a dump, to
Fault Hold; the timer of a source that is not pending at that level does nothing. An acknowledgement by the owner
returns the source to not pending with LEVEL 0 and leaves its sticky bit and COUNT; one from another requester is
counted in HOLD_WR and changes nothing else. (R473, R474, R475, R476, R478, R482, R489, R494) -/
def Obligations.FaultCollector : Prop :=
  (∀ (who : Fin 4) (j : Fin 20) (i : Nat) (s : State), s.takes who.val 0 = true → i < 32 →
    let n := 32 * j.val + i
    (s.on F.FLT_CTL_FORCE_EN = true → s.countsOnly n = true →
      Completes (.faultForce who j (BitVec.ofNat 32 (2 ^ i))) s
        (((s.put (F.FLT_SRC_FORCED n) 1).put (F.FLT_SRC_STICKY n) 1).bump (F.FLT_SRC_COUNT n) 1)) ∧
    (s.on F.FLT_CTL_FORCE_EN = true → sourceRaised n = true → sourceClass n < 2 → n ≠ 601 → n ≠ 619 →
      s.entryLevel (sourceClass n) = 1 → s.classPending (sourceClass n) = [] → s.level n = 0 → s.fedState = 0 →
      s.pendOf n = none → Answers (.faultForce who j (BitVec.ofNat 32 (2 ^ i))) s (fun u => u.level n = 1 ∧
        u.pendOf n = some { order := s.flt.nextOrder, deadline := s.now + s.grace (sourceClass n) 1 } ∧
        u.get (F.FLT_SRC_PEND n) = 1 ∧ u.get (F.FLT_SRC_STICKY n) = 1 ∧ u.get (F.FLT_SRC_FORCED n) = 1 ∧ CountedOnce s u n ∧
        u.fbit F.FLT_IRQ_CLASS (sourceClass n) = true ∧ (∀ m, m ≠ n → u.pendOf m = s.pendOf m) ∧ u.acn.mem = s.acn.mem)) ∧
    (∀ v : Word, s.on F.FLT_CTL_FORCE_EN = true → Settles (.faultForce who j v) s
      { s with raised := s.raised ++ (onesOf v.toNat 32).map (fun b => (32 * j.val + b, true)) }) ∧
    Settles (.faultAck who j (BitVec.ofNat 32 (2 ^ i))) s (s.faultAck who.val j.val (BitVec.ofNat 32 (2 ^ i)).toNat) ∧
    Completes (.faultAck who j 0) s s ∧
    (who.val = s.ackOwner → (s.pendOf n = none ∨ s.level n = 3) → Completes (.faultAck who j (BitVec.ofNat 32 (2 ^ i))) s s) ∧
    (∀ v : Word, s.on F.FLT_CTL_FORCE_EN = false → Completes (.faultForce who j v) s s) ∧
    (∀ (p : Pending) (v : Word), s.pendOf n = some p → p.merged = none → s.level n ≠ 3 → who.val = s.ackOwner →
      v = BitVec.ofNat 32 (2 ^ i) → (n < 160 ∨ 320 ≤ n) → sourceClass n < 2 →
      (∀ e ∈ s.flt.pend, ∀ q : Pending, e.2 = some q → q.merged ≠ some n) →
      Answers (.faultAck who j v) s (fun u => u.pendOf n = none ∧ u.level n = 0 ∧ u.get (F.FLT_SRC_PEND n) = 0 ∧
        u.get (F.FLT_SRC_COUNT n) = s.get (F.FLT_SRC_COUNT n) ∧ u.get (F.FLT_SRC_STICKY n) = s.get (F.FLT_SRC_STICKY n) ∧
        (∀ m, m ≠ n → u.pendOf m = s.pendOf m) ∧ u.acn.mem = s.acn.mem)) ∧
    (∀ v : Word, v ≠ 0 → who.val ≠ s.ackOwner → Completes (.faultAck who j v) s (s.bump F.FLT_HOLD_WR_COUNT 1))) ∧
  (∀ (n : Fin 640) (bad : Fin 3) (s : State), s.quiet = true →
    Settles (.grace1Expiry n bad) s (s.graceExpiry n.val 1 bad.val) ∧ Settles (.grace2Expiry n bad) s (s.graceExpiry n.val 2 bad.val) ∧
    ((s.pendOf n.val = none ∨ s.level n.val ≠ 1) → Completes (.grace1Expiry n bad) s s) ∧
    ((s.pendOf n.val = none ∨ s.level n.val ≠ 2) → Completes (.grace2Expiry n bad) s s)) ∧
  (∀ (n : Fin 640) (p : Pending) (s : State), s.quiet = true → s.pendOf n.val = some p → p.merged = none →
    sourceRaised n.val = true → s.fedState = 0 →
    (s.level n.val = 1 → n.val < 32 ∨ (320 ≤ n.val ∧ n.val < 384) → s.flt.recorded.contains n.val = false →
      s.acnStopped = false → s.acn.rseq + 1 < 2 ^ 32 →
      Answers (.grace1Expiry n 0) s (fun u => u.level n.val = 2 ∧ u.time = (s.until p.deadline).time ∧
        u.pendOf n.val = some { p with deadline := u.now + s.grace (sourceClass n.val) 2 } ∧
        u.fbit F.FLT_IRQ_CLASS (sourceClass n.val) = true ∧ u.acn.rseq = s.acn.rseq + 1 ∧
        memNat u.acn.mem (ringAddr (s.acn.rseq + 1)) 4 = 1 + 2 * 256 + 65536 * n.val ∧
        u.get (F.FLT_SRC_COUNT n.val) = s.get (F.FLT_SRC_COUNT n.val))) ∧
    (s.level n.val = 2 → s.stopped = false → s.on F.PWR_STAT_HOLD = false → s.on F.FLT_CTL_DUMP_EN = false →
      (∀ d, d < 14 → s.domOn d = true → d ∈ modeDomains 0xB) → s.ctl.fronts = [] → s.acnStopped = false →
      (∀ k, k < 4 → s.on (F.SQ_CTL_EN k) = false ∧ s.husk k 0 = none ∧ s.husk k 1 = none) →
      s.yal.threads = [] → (∀ c, c < 64 → s.on (F.DMA_CH_CTL_RUN c) = false) → s.cuPhase 0 = 7 → s.cuPhase 1 = 7 →
      Answers (.grace2Expiry n 0) s (fun u => u.level n.val = 3 ∧ u.mode = 0xB ∧ u.time = (s.until p.deadline).time ∧
        u.flt.l3 = some (u.now, n.val, s.get F.TOP_MODE_CUR + 16 * s.get F.TOP_MODE_BASE) ∧
        u.get F.PWR_STAT_STATE = 2 ∧ u.acn.rseq = (s.acn.rseq + 1) % 2 ^ 32)))

/-- A finished dump programs its image with STATE complete and goes to Fault Hold with its DUMP record; a timeout leaves
the image incomplete and goes there too; ERASE erases the region alone, and is ignored while a dump or an erase runs.
A commit writes a valid copy of the counter block with the next CSEQ over the older copy and keeps the other; CLRRING
empties the ring, RSEQ running on, and does nothing after SEC.LOCK; a firmware record stands in the next slot with
TYPE 7, its DETAIL and a good CRC, ERR 0, and a lost one leaves the ring, ERR 1, with source 633. (R483, R484, R485,
R488, R489, R490, R491, R492, R495) -/
def Obligations.DumpsAndAcorn : Prop :=
  (∀ (d n : Nat) (s : State), s.quiet = true → s.mode = 0xA → s.flt.dump = some d → s.acnStopped = false →
    (∀ e, e < 14 → s.domOn e = true → e ∈ modeDomains 0xB) → s.ctl.fronts = [] → s.cuPhase 0 = 7 → s.cuPhase 1 = 7 →
    Answers (.dumpComplete 0) s (fun u => u.mode = 0xB ∧ u.flt.dump = none ∧ u.get F.ACN_DUMP_CTL_STATE = 2 ∧
      u.cnt cntDumpOk = s.cnt cntDumpOk + 1 ∧ u.acn.rseq = (s.acn.rseq + 1) % 2 ^ 32 ∧
      (∀ a, a < s.dumpBase → tabGet flashDflt u.flash a = tabGet flashDflt s.flash a)) ∧
    Answers (.dumpTimeout n 0) s (fun u => u.mode = 0xB ∧ u.flt.dump = none ∧ u.time = (s.until d).time ∧
      u.get F.ACN_DUMP_CTL_STATE = s.get F.ACN_DUMP_CTL_STATE ∧ u.cnt cntDumpBad = s.cnt cntDumpBad + 1 ∧
      u.acn.rseq = (s.acn.rseq + 1) % 2 ^ 32)) ∧
  (∀ (who : Fin 4) (v : Word) (s : State), s.takes who.val 0 = true →
    (s.flt.dump = none → s.on F.ACN_DUMP_CTL_BUSY = false → Completes (.dumpErase who v) s
      ((s.put F.ACN_DUMP_CTL_BUSY 1).put F.ACN_DUMP_CTL_ERASE 1)) ∧
    ((s.flt.dump ≠ none ∨ s.on F.ACN_DUMP_CTL_BUSY = true) → Completes (.dumpErase who v) s s)) ∧
  (∀ (n : Nat) (bad : Fin 3) (ok : Bool) (s : State), s.quiet = true →
    Settles (.dumpComplete bad) s (s.dumpComplete bad.val) ∧ Settles (.dumpTimeout n bad) s (s.dumpTimeout n bad.val) ∧
    (s.flt.dump = none → Completes (.dumpComplete bad) s s ∧ Completes (.dumpTimeout n bad) s s) ∧
    (s.on F.ACN_DUMP_CTL_BUSY = false → Completes (.dumpEraseDone ok) s s)) ∧
  (∀ (who : Fin 4) (v : Word) (bad : Fin 3) (s : State), s.takes who.val 0 = true →
    Settles (.counterCommit who v bad) s (s.acnCtlWrite (withFld v F.ACN_CTL_COMMIT 1) bad.val) ∧
    Settles (.counterPeriod bad) s (s.counterPeriod bad.val) ∧
    Settles (.clrring who v bad) s (s.acnCtlWrite (withFld v F.ACN_CTL_CLRRING 1) bad.val) ∧
    Settles (.firmwareRecord who v bad) s (s.firmwareRecord bad.val) ∧
    (s.acnStopped = true → bit v.toNat 8 = false → Completes (.clrring who v bad) s (s.take v [F.ACN_CTL_PERIOD])) ∧
    (s.acnStopped = true → Completes (.firmwareRecord who v bad) s (s.put F.ACN_FW_CTL_ERR 1))) ∧
  (∀ s : State, s.quiet = true → s.on F.ACN_DUMP_CTL_BUSY = true →
    Answers (.dumpEraseDone true) s (fun u => u.get F.ACN_DUMP_CTL_BUSY = 0 ∧ u.get F.ACN_DUMP_CTL_STATE = 0 ∧
      (∀ a, s.dumpBase ≤ a → a < s.dumpBase + s.dumpRoom → tabGet flashDflt u.flash a = 0xFF) ∧
      (∀ a, a < s.dumpBase ∨ s.dumpBase + s.dumpRoom ≤ a → tabGet flashDflt u.flash a = tabGet flashDflt s.flash a) ∧
      u.acn.mem = s.acn.mem) ∧
    Answers (.dumpEraseDone false) s (fun u => u.get F.ACN_DUMP_CTL_BUSY = 0 ∧ u.get F.ACN_DUMP_CTL_STATE = 3 ∧
      u.flash = s.flash)) ∧
  (∀ (who : Fin 4) (v : Word) (s : State), s.acnStopped = false → s.acn.hold.length ≤ 64 →
    let top := max (s.cnt 8) (max ((s.cntCopy 0).getD 0) ((s.cntCopy 0x200).getD 0))
    let committed := fun (u : State) => u.cntCopy s.cntTarget = some (top + 1) ∧
      u.cntCopy (0x200 - s.cntTarget) = s.cntCopy (0x200 - s.cntTarget) ∧
      (∀ a, 0x400 ≤ a → memByte u.acn.mem a = memByte s.acn.mem a) ∧ u.acn.rseq = s.acn.rseq
    top + 1 < 2 ^ 64 →
    (s.takes who.val 0 = true → bit v.toNat 9 = false → Answers (.counterCommit who v 0) s committed) ∧
    (s.quiet = true → Answers (.counterPeriod 0) s (fun u => committed u ∧
      u.acn.due = u.now + max 1 (s.get F.ACN_CTL_PERIOD) * 60000000000))) ∧
  (∀ (who : Fin 4) (v : Word) (s : State), s.takes who.val 0 = true → bit v.toNat 8 = false → s.acnStopped = false →
    Answers (.clrring who v 0) s (fun u => u.acn.rseq = s.acn.rseq ∧
      (∀ a, a < 0x20000 → memByte u.acn.mem a = memByte s.acn.mem a) ∧
      (∀ a, 0x20000 ≤ a → memByte u.acn.mem a = if s.on F.SEC_LOCK_LOCK then memByte s.acn.mem a else 0))) ∧
  (∀ (who : Fin 4) (v : Word) (s : State), s.takes who.val 0 = true →
    let n := (s.acn.rseq + 1) % 2 ^ 32
    let a := 0x20000 + 64 * (n % 2048)
    (s.acnStopped = false → Answers (.firmwareRecord who v 0) s (fun u => u.acn.rseq = n ∧ u.get F.ACN_RSEQ_N = n ∧
      u.get F.ACN_FW_CTL_ERR = 0 ∧ memNat u.acn.mem a 1 = 7 ∧ memNat u.acn.mem (a + 8) 4 = n ∧
      memNat u.acn.mem (a + 40) 16 = s.get F.ACN_FW_REC_DETAIL % 2 ^ 128 ∧ u.slotGood (n % 2048) = true ∧
      ∀ b, (0x400 ≤ b ∧ b < a) ∨ a + 64 ≤ b → memByte u.acn.mem b = memByte s.acn.mem b)) ∧
    (s.acnStopped = false → s.countsOnly 633 = true → Answers (.firmwareRecord who v 2) s (fun u =>
      u.acn.rseq = s.acn.rseq ∧ u.get F.ACN_FW_CTL_ERR = 1 ∧ u.acn.mem = s.acn.mem ∧
      u.get (F.FLT_SRC_COUNT 633) = (s.bump (F.FLT_SRC_COUNT 633) 1).get (F.FLT_SRC_COUNT 633))))

/-- A tail doorbell posts its descriptors with their stamp, a head doorbell releases entries; an accepted SEND is
presented to the parser and completes with STATUS 0 where CPL asks, BUF joins the free list, NOP is consumed, each
moving the SQ head; a duplicate number completes with STATUS 1, a stale one with 2 and a descriptor that breaks R419
with 3, presented and listed nowhere; a host read that fails halts the queue pair with CAUSE 1 and source 561, its
descriptor left posted; a queue pair that is off, halted or without a posted descriptor fetches nothing. A frame fills
the oldest buffer and its entry is written with length and TC; one longer than the buffer is dropped and the buffer
stays. EN restarts both rings with an empty SEQ record, and a write that does not change it does nothing. No other
queue pair changes. (R418, R419, R420, R421, R422, R423, R425) -/
def Obligations.HostQueues : Prop :=
  (∀ (q : Fin 32) (tail head : BitVec 16) (t : Nat) (s : State), s.running 2 = true → s.qpOn q.val = true →
    let x := s.qp q.val
    let k := (tail.toNat % s.sqSize q.val + s.sqSize q.val - x.sqTail) % s.sqSize q.val
    let posts := x.posts ++ [(k, s.stampIn 6 (s.until t).now)]
    let freed := (head.toNat % s.cqSize q.val + s.cqSize q.val - x.cqHead) % s.cqSize q.val
    Completes (.sqDoorbell q tail t) s (if k = 0 then s.until t else (s.until t).setQp q.val
      { x with sqTail := tail.toNat % s.sqSize q.val, posts := posts }) ∧
    Completes (.cqDoorbell q head) s (s.setQp q.val
      { x with cqHead := head.toNat % s.cqSize q.val, cqUsed := x.cqUsed - freed })) ∧
  (∀ (q : Fin 32) (tail head : BitVec 16) (t : Nat) (s : State), s.quiet = true → (s.domOn 2 = false ∨ s.qpOn q.val = false) →
    Completes (.sqDoorbell q tail t) s s ∧ Completes (.cqDoorbell q head) s s) ∧
  (∀ (q : Fin 32) (d : SqDesc) (data : List Byte) (k kb : Check) (s : State), s.quiet = true →
    Settles (.send q d data k kb) s (s.hostSend q.val d data k kb) ∧ Settles (.buf q d k) s (s.hostBuf q.val d k) ∧
    Settles (.hostNop q d k) s (s.hostNop q.val d k) ∧ Settles (.hostRxDeliver q k) s (s.hostRx q.val k) ∧
    ((s.qpRuns q.val = false ∨ s.hostTaken = false ∨ (s.qp q.val).posts = []) → Completes (.send q d data k kb) s s ∧
      Completes (.buf q d k) s s ∧ Completes (.hostNop q d k) s s) ∧
    ((s.qpRuns q.val = false ∨ s.nextRx q.val = none ∨ (s.qp q.val).bufs = []) → Completes (.hostRxDeliver q k) s s)) ∧
  (∀ (q : Fin 32) (d : SqDesc) (n stamp : Nat) (l : List (Nat × Nat)) (s : State), s.quiet = true →
    s.qpRuns q.val = true → s.hostTaken = true → (s.qp q.val).posts = (n, stamp) :: l →
    let h := s.get (F.HSTQ_QP_IDX_SQHEAD q.val)
    let moved := fun (u : State) => (u.qp q.val).posts = (if n ≤ 1 then l else (n - 1, stamp) :: l) ∧
      u.get (F.HSTQ_QP_IDX_SQHEAD q.val) = (if h + 1 = s.sqSize q.val then 0 else (h + 1) % 65536) ∧
      (∀ e, e ≠ q.val → u.qp e = s.qp e) ∧ u.gm = s.gm ∧ u.xm = s.xm
    let cq := s.get (F.HSTQ_QP_CQBASE_ADDR q.val) / 4096 * 4096 + 16 * s.get (F.HSTQ_QP_IDX_CQTAIL q.val)
    let entry := fun (status : Nat) (u : State) => memNat u.hostOut cq 8 = d.tag.toNat + 2 ^ 16 * d.seq.toNat
        + 2 ^ 48 * status + 2 ^ 56 * b2n (s.qp q.val).phase ∧ memNat u.hostOut (cq + 8) 8 = stamp % 2 ^ 64 ∧
      (u.qp q.val).cqUsed = (s.qp q.val).cqUsed + 1
    (badSqDesc 2 d = false → Answers (.hostNop q d .good) s (fun u => moved u ∧ u.hostOut = s.hostOut ∧ u.prs = s.prs)) ∧
    (badSqDesc 1 d = false → (seqCheck (s.qp q.val) d.seq.toNat).1 = 0 → Answers (.buf q d .good) s (fun u => moved u ∧
      (u.qp q.val).bufs = (s.qp q.val).bufs ++ [⟨d.tag.toNat, d.seq.toNat, d.len.toNat, d.addr.toNat⟩] ∧
      u.hostOut = s.hostOut ∧ u.prs = s.prs)) ∧
    (∀ data : List Byte, badSqDesc 0 d = false → (seqCheck (s.qp q.val) d.seq.toNat).1 = 0 → s.xmDead = false →
      data.length = d.len.toNat → Answers (.send q d data .good .good) s (fun u => moved u ∧
        u.prs.input = s.prs.input ++ [{ bytes := data, port := 2, srcid := q.val, stamp := stamp, ref := s.prs.nextRef,
                                        start := if s.fbit F.PRS_HOST_RAW_QP q.val then 3 else 0 }] ∧
        (bit d.ctl.toNat 2 = true → entry 0 u) ∧ (bit d.ctl.toNat 2 = false → u.hostOut = s.hostOut))) ∧
    (badSqDesc 0 d = false → (seqCheck (s.qp q.val) d.seq.toNat).1 = 1 → s.get (F.FLT_CLASS_CFG01_ENTRY 0) = 0 →
      Answers (.send q d [] .good .good) s (fun u => moved u ∧ entry 1 u ∧ u.prs = s.prs ∧
        u.get (F.HSTQ_QP_CNT_DUP q.val) = (s.bump (F.HSTQ_QP_CNT_DUP q.val) 1).get (F.HSTQ_QP_CNT_DUP q.val))) ∧
    (badSqDesc 0 d = false → (seqCheck (s.qp q.val) d.seq.toNat).1 = 2 → s.get (F.FLT_CLASS_CFG01_ENTRY 0) = 0 →
      Answers (.send q d [] .good .good) s (fun u => moved u ∧ entry 2 u ∧ u.prs = s.prs ∧
        u.get (F.HSTQ_QP_CNT_STALE q.val) = (s.bump (F.HSTQ_QP_CNT_STALE q.val) 1).get (F.HSTQ_QP_CNT_STALE q.val))) ∧
    (badSqDesc 0 d = true → Answers (.send q d [] .good .good) s (fun u => moved u ∧ entry 3 u ∧ u.prs = s.prs ∧
        u.get (F.HSTQ_QP_CNT2_BAD q.val) = (s.bump (F.HSTQ_QP_CNT2_BAD q.val) 1).get (F.HSTQ_QP_CNT2_BAD q.val))) ∧
    (badSqDesc 1 d = true → Answers (.buf q d .good) s (fun u => moved u ∧ entry 3 u ∧
        (u.qp q.val).bufs = (s.qp q.val).bufs)) ∧
    (∀ data : List Byte, s.countsOnly 561 = true →
      let kept := fun (u : State) => u.get (F.HSTQ_QP_CTL_HALTED q.val) = 1 ∧ u.get (F.HSTQ_QP_CTL_CAUSE q.val) = 1 ∧
        u.hst.qps = s.hst.qps ∧ u.get (F.HSTQ_QP_IDX_SQHEAD q.val) = h ∧ u.prs = s.prs ∧ u.hostOut = s.hostOut ∧ CountedOnce s u 561
      Answers (.send q d data .lasting .good) s kept ∧ Answers (.buf q d .lasting) s kept ∧
      Answers (.hostNop q d .lasting) s kept)) ∧
  (∀ (q : Fin 32) (it : EgItem) (b : HostBuf) (l : List HostBuf) (rest : List EgItem) (s : State), s.quiet = true →
    s.qpRuns q.val = true → s.nextRx q.val = some it → takeFirst (fun i => i == it) s.hts.egress = some (it, rest) →
    (s.qp q.val).bufs = b :: l →
    let n := it.pkt.bytes.length
    let cq := s.get (F.HSTQ_QP_CQBASE_ADDR q.val) / 4096 * 4096 + 16 * s.get (F.HSTQ_QP_IDX_CQTAIL q.val)
    (n ≤ b.len → (b.addr + n ≤ cq ∨ cq + 16 ≤ b.addr) → b.tag < 65536 → b.seq < 65536 → b.len < 65536 →
      Answers (.hostRxDeliver q .good) s (fun u => u.hts.egress = rest ∧ (u.qp q.val).bufs = l ∧
        memBytes u.hostOut b.addr n = it.pkt.bytes ∧
        memNat u.hostOut cq 8 = b.tag + 2 ^ 16 * b.seq + 2 ^ 32 * n
          + 2 ^ 56 * (b2n (s.qp q.val).phase + 2 + 4 * (it.tc % 8)) ∧
        memNat u.hostOut (cq + 8) 8 = it.pkt.stamp % 2 ^ 64 ∧ (∀ e, e ≠ q.val → u.qp e = s.qp e) ∧ u.gm = s.gm)) ∧
    (b.len < n → s.get (F.FLT_CLASS_CFG01_ENTRY 0) = 0 → Answers (.hostRxDeliver q .good) s (fun u => u.hts.egress = rest ∧
      u.hst = s.hst ∧ u.hostOut = s.hostOut ∧
      u.get (F.HSTQ_QP_CNT2_RXDROP q.val) = (s.bump (F.HSTQ_QP_CNT2_RXDROP q.val) 1).get (F.HSTQ_QP_CNT2_RXDROP q.val)))) ∧
  (∀ (who : Fin 4) (q : Fin 32) (v : Word) (s : State), s.takes who.val 2 = true →
    ((s.on F.HST_LINK_LIMP = true ∨ bit v.toNat 0 = s.on (F.HSTQ_QP_CTL_EN q.val)) → Completes (.qpEnableWrite who q v) s s) ∧
    (s.on F.HST_LINK_LIMP = false → s.on (F.HSTQ_QP_CTL_EN q.val) = false → bit v.toNat 0 = true → Answers (.qpEnableWrite who q v) s (fun u =>
      u.get (F.HSTQ_QP_CTL_EN q.val) = 1 ∧ u.get (F.HSTQ_QP_CTL_HALTED q.val) = b2n (s.halted [561, 563, 566]) ∧ u.qp q.val = {} ∧
      u.get (F.HSTQ_QP_IDX_SQHEAD q.val) = 0 ∧ u.get (F.HSTQ_QP_IDX_CQTAIL q.val) = 0 ∧
      (∀ e, e ≠ q.val → u.qp e = s.qp e) ∧ u.gm = s.gm)) ∧
    (s.on F.HST_LINK_LIMP = false → s.on (F.HSTQ_QP_CTL_EN q.val) = true → bit v.toNat 0 = false → s.queued 2 q.val = [] →
      Answers (.qpEnableWrite who q v) s (fun u => u.get (F.HSTQ_QP_CTL_EN q.val) = 0 ∧ u.qp q.val = {} ∧
        (∀ e, e ≠ q.val → u.qp e = s.qp e) ∧ u.gm = s.gm)))

/-- COAL_US sends the queue pair's vector, or sets its pending bit while masked, and its entry count starts again;
unmasking sends a pending message; FLR clears the MSI-X table and is counted with source 568; the link's loss halts
the running queue pairs with CAUSE 2 and raises source 563, and its return shows speed and width and leaves them
halted; AER errors are counted with sources 565 and 566. On the anchor RA_CTL carries out an access of the device
itself at once, answers STATUS 2 for a device that is not reached, and ignores a GO while BUSY is 1; on any other
device it does nothing; RA_TO ends a pending access with STATUS 1. (R417, R424, R425, R426, R428) -/
def Obligations.HostLinkEvents : Prop :=
  (∀ (q : Fin 32) (s : State), s.running 2 = true → s.on (F.HSTQ_QP_CFG_IRQ_EN q.val) = true → (s.qp q.val).coal ≠ 0 →
    let v := s.get (F.HSTQ_QP_CFG_VEC q.val)
    let x := s.vec v
    Completes (.qpCoalTimeout q) s
      (((s.until ((s.qp q.val).coalAt + 1000 * s.get (F.HSTQ_QP_COAL_US q.val))).setQp q.val
        { s.qp q.val with coal := 0, coalAt := 0 }).setVec v
        (if x.masked || !s.on F.HST_LINK_UP then { x with pend := true } else { x with sent := x.sent + 1 }))) ∧
  (∀ (n : Fin 128) (addr : BitVec 64) (data : BitVec 32) (s : State), s.running 2 = true →
    let goes := (s.vec n.val).pend && s.on F.HST_LINK_UP
    let sent := (s.vec n.val).sent + b2n goes
    let waits := (s.vec n.val).pend && !goes
    Completes (.msixUnmask n addr data) s (s.setVec n.val
      { masked := false, pend := waits, addr := addr.toNat, data := data.toNat, sent := sent })) ∧
  (∀ s : State, s.running 2 = true → (∀ c, c < 64 → (s.dch c).ph ≠ 2) → s.hts.egress = [] → s.countsOnly 568 = true →
    Answers .functionLevelReset s (fun u => u.hst.msix = [] ∧ (∀ q, q < 32 → u.qp q = {} ∧ u.on (F.HSTQ_QP_CTL_EN q) = false) ∧
      u.get F.HST_LINK_UP = s.get F.HST_LINK_UP ∧
      u.get (F.FLT_SRC_COUNT 568) = (s.bump (F.FLT_SRC_COUNT 568) 1).get (F.FLT_SRC_COUNT 568) ∧ u.gm = s.gm ∧ u.xm = s.xm)) ∧
  (∀ s : State, s.running 2 = true → s.on F.HST_LINK_UP = true → (∀ c, c < 64 → (s.dch c).ph ≠ 2) → s.hts.egress = [] →
    s.countsOnly 563 = true →
    Answers .hostLinkDown s (fun u => u.get F.HST_LINK_UP = 0 ∧ u.get F.HST_LINK_SPEED = 0 ∧ u.get F.HST_LINK_WIDTH = 0 ∧
      (∀ q, q < 32 → s.qpOn q = true → u.get (F.HSTQ_QP_CTL_HALTED q) = 1 ∧ u.get (F.HSTQ_QP_CTL_CAUSE q) = 2) ∧
      (∀ q, q < 32 → s.qpOn q = false → u.word (F.HSTQ_QP_CTL_EN q).addr = s.word (F.HSTQ_QP_CTL_EN q).addr) ∧
      u.hst = s.hst ∧ u.get (F.FLT_SRC_COUNT 563) = (s.bump (F.FLT_SRC_COUNT 563) 1).get (F.FLT_SRC_COUNT 563))) ∧
  (∀ (speed width : Fin 5) (s : State), s.running 2 = true → s.on F.HST_LINK_LIMP = false →
    Completes (.hostLinkUp speed width) s
      (((s.put F.HST_LINK_UP 1).put F.HST_LINK_SPEED speed.val).put F.HST_LINK_WIDTH width.val)) ∧
  (∀ s : State, s.running 2 = true →
    (s.countsOnly 566 = true → Completes (.pcieError true) s (s.counted 566)) ∧
    (∀ last : Nat, tabGet (fun _ => 0) s.flt.last 565 = last → s.countsOnly 565 = true →
      let noted := tabSet (fun _ => 0) s.flt.last 565 (s.now + 1)
      Completes (.pcieError false) s (if last = 0 ∨ last - 1 + 1000000000 ≤ s.now
        then ({ s with flt := { s.flt with last := noted } } : State).counted 565 else s))) ∧
  (∀ (who : Fin 4) (v : Word) (x : Ext) (s : State), s.takes who.val 2 = true → s.fedId = s.fedAnchor →
    s.get F.HST_RA_DEV_DEV = s.fedId → s.on F.HST_RA_CTL_BUSY = false → s.get F.HST_RA_ADDR_ADDR = 0x50000C / 4 →
    s.domOn 12 = true → s.reaches 0 = true →
    Answers (.raRead who v x) s (fun u => u.get F.HST_RA_CTL_BUSY = 0 ∧ u.get F.HST_RA_CTL_STATUS = 0 ∧
      u.get F.HST_RA_DATA_DATA % 2 ^ 14 = s.get (F.CU_MAXLEN_LEN 0) ∧ u.fed = s.fed ∧ u.gm = s.gm) ∧
    Answers (.raWrite who v x) s (fun u => u.get F.HST_RA_CTL_BUSY = 0 ∧ u.get F.HST_RA_CTL_STATUS = 0 ∧
      u.get (F.CU_MAXLEN_LEN 0) = s.get F.HST_RA_DATA_DATA % 2 ^ 14 ∧ u.fed = s.fed ∧ u.gm = s.gm)) ∧
  (∀ (who : Fin 4) (v : Word) (x : Ext) (s : State), s.takes who.val 2 = true →
    let ends := fun (status : Nat) (u : State) => u.get F.HST_RA_CTL_BUSY = s.get F.HST_RA_CTL_BUSY ∧
      u.get F.HST_RA_CTL_STATUS = status ∧ u.fed = s.fed ∧ u.gm = s.gm
    (s.fedId ≠ s.fedAnchor → Completes (.raRead who v x) s s ∧ Completes (.raWrite who v x) s s) ∧
    (s.fedId = s.fedAnchor → s.on F.HST_RA_CTL_BUSY = true →
      Answers (.raRead who v x) s (ends (s.get F.HST_RA_CTL_STATUS)) ∧
      Answers (.raWrite who v x) s (ends (s.get F.HST_RA_CTL_STATUS))) ∧
    (s.fedId = s.fedAnchor → s.on F.HST_RA_CTL_BUSY = false → s.get F.HST_RA_DEV_DEV ≠ s.fedId →
      (s.fedState < 3 ∨ s.fbit F.FED_REACH_SET (s.get F.HST_RA_DEV_DEV) = false) →
      Answers (.raRead who v x) s (ends 2) ∧ Answers (.raWrite who v x) s (ends 2)) ∧
    Settles (.raRead who v x) s (s.raCtlWrite (hostPath x) (withFld (withFld v F.HST_RA_CTL_GO 1) F.HST_RA_CTL_OP 0)) ∧
    Settles (.raWrite who v x) s (s.raCtlWrite (hostPath x) (withFld (withFld v F.HST_RA_CTL_GO 1) F.HST_RA_CTL_OP 1))) ∧
  (∀ s : State, s.quiet = true →
    (s.domOn 2 = true → s.on F.HST_RA_CTL_BUSY = true → Completes .raTimeout s
      ((((s.until (s.hst.raAt + max 1 (s.get F.HST_RA_CTL_RA_TO) * 1000000)).put F.HST_RA_CTL_BUSY 0).put
        F.HST_RA_CTL_GO 0).put F.HST_RA_CTL_STATUS 1)) ∧
    ((s.domOn 2 = false ∨ s.on F.HST_RA_CTL_BUSY = false) → Completes .raTimeout s s)) ∧
  (∀ (q : Fin 32) (n : Fin 128) (addr : BitVec 64) (data : BitVec 32) (speed width : Fin 5) (b : Bool) (s : State), s.quiet = true →
    (s.domOn 2 = true → Settles .functionLevelReset s s.hostFlr ∧ Settles .hostLinkDown s s.hostLinkDown) ∧
    (s.domOn 2 = true → (s.on (F.HSTQ_QP_CFG_IRQ_EN q.val) = false ∨ (s.qp q.val).coal = 0) →
      Completes (.qpCoalTimeout q) s s) ∧
    (s.on F.HST_LINK_UP = false → Completes .hostLinkDown s s) ∧
    (s.domOn 2 = true → s.on F.HST_LINK_LIMP = true → Completes (.hostLinkUp speed width) s
      (((s.put F.HST_LINK_UP 1).put F.HST_LINK_SPEED 1).put F.HST_LINK_WIDTH 1)) ∧
    (s.domOn 2 = false → Completes (.qpCoalTimeout q) s s ∧ Completes (.msixUnmask n addr data) s s ∧
      Completes .functionLevelReset s s ∧ Completes .hostLinkDown s s ∧ Completes (.hostLinkUp speed width) s s ∧
      Completes (.pcieError b) s s))

/-- A taken frame that fails the walk is counted in its class and dropped where its action is drop; a well-formed one
meets the lowest rule of the active bank that hits, whose count advances, or the default action, and is dropped, sent
to the host queue, stripped and parsed again, or offered as a task with the tag, class and order of the action; a
frame whose buffer fails for good is dropped with source 323; a parser that is halted, or has no frame, takes none. A
held task is created as soon as its slice takes it, stays held until then, and is counted lost when its slice halts.
RULE_UPD writes the staged rule with a count of zero, or reports a bad action and writes nothing; it reads a rule and
its count and may clear the count; SWAP makes the other bank active; PAT_UPD installs the staged pattern or reports
ERR. (R295, R300, R301, R302, R303, R304, R305, R306, R308, R309, R311) -/
def Obligations.FramesRulesPatterns : Prop :=
  (∀ (port : Fin 6) (buf pat rule : Check) (x : Ext) (s : State), s.quiet = true →
    Settles (.frameParse port buf pat rule x) s (s.parseFrame (hostPath x) port.val buf pat rule) ∧
    (s.oldestFrame port.val = none → (s.recirc = [] ∨ s.parserRuns = false) → Completes (.frameParse port buf pat rule x) s s) ∧
    (∀ (j : Nat) (p : Packet), s.oldestFrame port.val = some (j, p) → s.fabricFrame p = none →
      let u := s.pullFrame j port.val
      (s.parserRuns = false → Completes (.frameParse port buf pat rule x) s s) ∧
      (s.parserRuns = true → s.recirc = [] → s.portHeld port.val = true → Completes (.frameParse port buf pat rule x) s s) ∧
      (s.unserved port.val = true → u.quiet = true → Completes (.frameParse port buf pat rule x) s (u.bump F.FED_CNT3_SYNCDROP 1)) ∧
      (s.unserved port.val = false → s.parserRuns = true → s.recirc = [] → s.portHeld port.val = false → buf = .lasting →
        u.quiet = true → u.countsOnly 323 = true →
        Completes (.frameParse port buf pat rule x) s ((u.bump F.PRS_CNT2_ERR 1).counted 323)))) ∧
  (∀ (port : Fin 6) (x : Ext) (j : Nat) (p : Packet) (s : State), s.quiet = true → s.parserRuns = true →
    s.recirc = [] → s.portHeld port.val = false → s.oldestFrame port.val = some (j, p) → s.fabricFrame p = none →
    s.unserved port.val = false → (s.pullFrame j port.val).quiet = true →
    let w := walk s.walkCfg p.start p.bytes
    let u := (s.pullFrame j port.val).bump F.PRS_PCNT_PASSES 1
    let ms := if s.fbit F.PRS_PAT_PORTS_PORTS port.val then s.search' w.payload else []
    let q := { p with pass2 := false, hits := (ms.take 64).map (fun m => (m.2.2, m.2.1)), pcount := min 2047 ms.length }
    let key := classKey q w (s.groups ms)
    let h := crc32c (s.get F.PRS_HASH_SEED_SEED) (hashText q w)
    let bank := s.get F.PRS_BANK_ACTIVE
    let q1 := fun (num : Nat) => { q with record := recordOf q w key num h }
    let own := p.port * 0x10000 + p.srcid
    let task := fun (a : List Nat) (num : Nat) (s' : State) =>
      let w0 := a.getD 0 0
      classTask (q1 num) ([h, a.getD 1 0, Nat.xor h (a.getD 1 0), own].getD (bits w0 12 11) h) (bits w0 8 3)
        (s'.liveRegion (if bit w0 18 then bits w0 20 19 else s'.regmap (h / 2 ^ 24))) (bit w0 9) (bit w0 10) false false
    (w.mal ≠ 0 → s.get (F.PRS_MAL_ACT_ACT w.mal) = 0 → u.countsOnly (328 + w.mal) = true →
      Answers (.frameParse port .good .good .good x) s (fun t => t.hts.tasks = s.hts.tasks ∧ t.hts.egress = s.hts.egress ∧
        t.prs = u.prs ∧ t.get (F.PRS_MAL_CNT_COUNT w.mal) = (s.bump (F.PRS_MAL_CNT_COUNT w.mal) 1).get (F.PRS_MAL_CNT_COUNT w.mal) ∧
        (tabGet (fun _ => 0) s.flt.last (328 + w.mal) = 0 → t.get (F.FLT_SRC_STICKY (328 + w.mal)) = 1))) ∧
    (∀ (i : Nat) (r : Rule), w.mal = 0 → s.matchRule bank (leNat key) = some (i, r) →
      let hitU := u.setRule bank i { r with hits := min 0xFFFFFFFF (r.hits + 1) }
      let num := i + 0x4000 * bank + 0x8000
      let w0 := r.words.getD 32 0
      (bits w0 2 1 = 1 → Completes (.frameParse port .good .good .good x) s (hitU.bump F.PRS_CNT_RDROP 1)) ∧
      (bits w0 2 1 = 3 → Completes (.frameParse port .good .good .good x) s
        { hitU with recirc := [{ q1 num with
          bytes := (strip w (bits w0 24 21)).1
          start := (strip w (bits w0 24 21)).2
          hits := []
          pcount := 0 }] }) ∧
      (bits w0 2 1 = 2 → s.get (F.HTS_EG_LVL_PKTS 2) < s.get (F.HTS_EG_BP_MAX 2) * 256 →
        s.get (F.FLT_CLASS_CFG01_ENTRY 0) = 0 →
        let tc := if bit w.vlan 15 then bits w.vlan 14 12 else 0
        let it : EgItem := { kind := 2, target := bits w0 29 25, tc := tc, pkt := q1 num }
        (hitU.portDrop it = none) → Answers (.frameParse port .good .good .good x) s (fun t =>
          t.hts.egress = s.hts.egress ++ [it] ∧ t.hts.tasks = s.hts.tasks ∧ t.prs.rules = hitU.prs.rules)) ∧
      (bits w0 2 1 = 0 → 7 ≤ bits w0 16 13 → bit w0 10 = false →
        let k := task (r.words.drop 32) num hitU
        hitU.sliceHalted k.region = false → hitU.refuses .classifier k = false →
        Answers (.frameParse port .good .good .good x) s (fun t =>
          t.hts.tasks = s.hts.tasks ++ [{ k with id := s.hts.nextId, made := s.now, since := s.now }] ∧
          t.hts.egress = s.hts.egress ∧ t.prs.rules = hitU.prs.rules))) ∧
    (w.mal = 0 → s.matchRule bank (leNat key) = none → bits (s.get (F.PRS_DEF_ACT_WORD 0)) 2 1 = 1 →
      Completes (.frameParse port .good .good .good x) s (u.bump F.PRS_CNT_NOHIT 1))) ∧
  (∀ (k : Task) (s : State), s.running 5 = true → s.prs.stalled = some k → k.ordered = false →
    let k := { k with region := s.liveRegion k.region }
    let p := { s.prs with stalled := none, stalledKey := none }
    let asked : List Lookup := match s.prs.stalledKey with
      | some (tb, key) => [⟨.creation s.hts.nextId 1, tb, key⟩]
      | none => []
    (s.sliceHalted k.region = true → Completes .creationRetry s (({ s with prs := p } : State).bump F.HTS_CNT2_LOST 1)) ∧
    (s.sliceHalted k.region = false → s.refuses .classifier k = true → Completes .creationRetry s s) ∧
    (s.sliceHalted k.region = false → s.refuses .classifier k = false → Answers .creationRetry s (fun t => t.prs = p ∧
      t.hts.tasks = s.hts.tasks ++ [{ k with id := s.hts.nextId, made := s.now, since := s.now }] ∧
      t.ept.lookups = s.ept.lookups ++ asked))) ∧
  (∀ s : State, s.quiet = true →
    (s.domOn 5 = true → Settles .creationRetry s s.creationRetry) ∧
    ((s.domOn 5 = false ∨ s.prs.stalled = none) → Completes .creationRetry s s)) ∧
  (∀ (who : Fin 4) (v : Word) (s : State), s.takes who.val 5 = true →
    let i := fldOf v F.PRS_RULE_UPD_INDEX
    let b := fldOf v F.PRS_RULE_UPD_BANK
    let upd := fun (op : Nat) => ((s.put F.PRS_RULE_UPD_INDEX i).put F.PRS_RULE_UPD_BANK b).put F.PRS_RULE_UPD_OP op
    (badAction (s.ruleStage.drop 32) = true → Completes (.ruleWrite who v) s ((upd 0).put F.PRS_RULE_UPD_ERR 1)) ∧
    (badAction (s.ruleStage.drop 32) = false → Completes (.ruleWrite who v) s
      (((upd 0).setRule b i (if s.ruleStage.all (· == 0) then {} else { words := s.ruleStage })).put F.PRS_RULE_UPD_ERR 0)) ∧
    Answers (.ruleRead who v) s (fun t => (∀ k, k < 40 → t.get (F.PRS_RULE_STAGE_WORD k) = (s.rule b i).words.getD k 0 % 2 ^ 32) ∧
      t.get F.PRS_RULE_HITS_HITS = (s.rule b i).hits % 2 ^ 32 ∧ t.prs = s.prs ∧ t.hts = s.hts) ∧
    Answers (.ruleReadClear who v) s (fun t => (∀ k, k < 40 → t.get (F.PRS_RULE_STAGE_WORD k) = (s.rule b i).words.getD k 0 % 2 ^ 32) ∧
      t.get F.PRS_RULE_HITS_HITS = (s.rule b i).hits % 2 ^ 32 ∧ (t.rule b i).hits = 0 ∧ (t.rule b i).words = (s.rule b i).words ∧
      t.prs = (s.setRule b i { s.rule b i with hits := 0 }).prs ∧ t.hts = s.hts)) ∧
  (∀ (who : Fin 4) (v : Word) (s : State), s.takes who.val 5 = true →
    Completes (.bankSwap who v) s ((s.put F.PRS_BANK_ACTIVE (1 - s.get F.PRS_BANK_ACTIVE)).addWrap F.PRS_BANK_SWAPS 1)) ∧
  (∀ (who : Fin 4) (v : Word) (s : State), s.takes who.val 5 = true →
    let ws := (List.range 18).map (fun k => s.get (F.PRS_PAT_STAGE_WORD k))
    let n := fldOf v F.PRS_PAT_UPD_PAT
    let bad := 64 < bits (ws.getD 16 0) 6 0 ∨ bits (ws.getD 16 0) 31 11 ≠ 0 ∨ bits (ws.getD 17 0) 31 24 ≠ 0
    (bad → Completes (.patternInstall who v) s ((s.put F.PRS_PAT_UPD_PAT n).put F.PRS_PAT_UPD_ERR 1)) ∧
    (¬ bad → Answers (.patternInstall who v) s (fun t => t.pat n = (if bits (ws.getD 16 0) 6 0 = 0 then [] else ws) ∧
      (∀ m, m ≠ n → t.pat m = s.pat m) ∧ t.get F.PRS_PAT_UPD_ERR = 0 ∧ t.prs.rules = s.prs.rules)))

/-- A write of a register without an action of its own sets its fields by their access codes, a wide one at the write of
its highest word with the requester's staged lower words, and no other register word. A read returns the value, with
wo fields 0, captures a wide register, clears rc fields unless the requester's PEEK is set, and pops the egress and
radar queues at their low words; the upper words come from the capture. Partial writes and accesses that find no
register are ignored, counted in BADACC and raise source 638; trim windows ignore writes and count them. The Granary
aperture reaches the memory's bytes where it is open. A requester that the device does not hear has no effect. A
register whose domain is off reads 0, ignores writes and counts in OFFACC; Fault Hold ignores and counts writes it
does not take. (R4, R6, R7, R8, R9, R456, R541, R542, R543) -/
def Obligations.ControlWindow : Prop :=
  (∀ (who : Fin 4) (addr : BitVec 26) (en : BitVec 4) (v : Word) (x : Ext) (w cross : Bool) (c : Fin 2) (s : State),
    (s.quiet = true →
      Settles (.registerWrite who addr en v x) s (s.writeWord who.val addr.toNat en v x) ∧
      Settles (.wideWriteCommit who addr v x) s (s.writeWord who.val addr.toNat 0xF v x) ∧
      Settles (.rcRead who addr en) s (s.readWord who.val addr.toNat en) ∧
      Settles (.wideReadCapture who addr) s (s.readWord who.val addr.toNat 0xF) ∧
      Settles (.egtsPop who c) s (s.readWord who.val (0x10200 + 16 * c.val) 0xF) ∧
      Settles (.detEvtPop who) s (s.readWord who.val 0x340108 0xF) ∧
      Settles (.accessNoRegister who addr w cross) s (s.wildAccess who.val addr.toNat w cross)) ∧
    (s.quiet = true → s.reaches who.val = false →
      Completes (.registerWrite who addr en v x) s s ∧ Completes (.wideWriteCommit who addr v x) s s ∧
      Completes (.rcRead who addr en) s s ∧ Completes (.wideReadCapture who addr) s s ∧ Completes (.egtsPop who c) s s ∧
      Completes (.detEvtPop who) s s ∧ Completes (.accessNoRegister who addr w cross) s s ∧
      Completes (.trimWindowWrite who) s s)) ∧
  (∀ (who : Fin 4) (addr : BitVec 26) (v : Word) (x : Ext) (s : State), let a := addr.toNat
    a % 4 = 0 → 0x2000000 ≤ a → s.running 3 = true → s.reaches who.val = true → s.apertureOpen who.val = true →
    let gm := memPutBytes s.gm (a - 0x2000000) (natLe v.toNat 4)
    Completes (.registerWrite who addr 0xF v x) s { s with gm := gm } ∧
    Completes (.rcRead who addr 0xF) s (s.gotRead who.val (enabledBytes 0xF (memNat s.gm (a - 0x2000000) 4)))) ∧
  (∀ (who : Fin 4) (addr : BitVec 26) (v : Word) (x : Ext) (l : RLoc) (s : State),
    let a := addr.toNat
    let low := a - 4 * l.word
    a % 4 = 0 → a < 0x2000000 → findReg a regBlocks = some l → s.takes who.val (domainOf low) = true →
    (l.word + 1 = l.desc.words →
      let new := s.staged who.val low l.word v.toNat
      let key := keyOf who.val low l.desc
      let good := fun (u : State) => Wrote (s.on F.SEC_LOCK_LOCK) new (s.wide key l.desc.words) (u.wide key l.desc.words) l.desc ∧
        u.gm = s.gm ∧ u.xm = s.xm ∧ u.time = s.time ∧ ∀ b, b < key ∨ key + 4 * l.desc.words ≤ b → u.word b = s.word b
      s.plainAt who.val low new x → Answers (.registerWrite who addr 0xF v x) s good ∧ Answers (.wideWriteCommit who addr v x) s good) ∧
    (l.word + 1 < l.desc.words → Completes (.registerWrite who addr 0xF v x) s
      { s with stage := tabSet (fun _ => 0) s.stage (0x100000000 * who.val + a) v })) ∧
  (∀ (who : Fin 4) (addr : BitVec 26) (v : Word) (x : Ext) (l : RLoc) (s : State),
    let a := addr.toNat
    let dom := domainOf (a - 4 * l.word)
    a % 4 = 0 → a < 0x2000000 → findReg a regBlocks = some l → s.quiet = true → s.reaches who.val = true →
    (s.domOn dom = false → s.countsOnly 611 = true →
      let off := fun (u : State) => u.get F.PWR_OFFACC_COUNT = (s.bump F.PWR_OFFACC_COUNT 1).get F.PWR_OFFACC_COUNT ∧
        u.gm = s.gm ∧ u.stage = s.stage ∧ u.capture = s.capture
      Answers (.registerWrite who addr 0xF v x) s off ∧
      Answers (.rcRead who addr 0xF) s (fun u => off u ∧ tabGet (fun _ => 0) u.readData who.val = 0)) ∧
    (s.domOn dom = true → s.mode = 0xB → holdTakes (a - 4 * l.word) = false →
      Completes (.registerWrite who addr 0xF v x) s (s.bump F.FLT_HOLD_WR_COUNT 1))) ∧
  (∀ (who : Fin 4) (addr : BitVec 26) (en : BitVec 4) (v : Word) (x : Ext) (s : State), s.quiet = true → s.reaches who.val = true →
    s.countsOnly 638 = true →
    let lost := fun (u : State) => u.get F.TOP_BADACC_COUNT = (s.bump F.TOP_BADACC_COUNT 1).get F.TOP_BADACC_COUNT ∧
      (tabGet (fun _ => 0) s.flt.last 638 = 0 → u.get (F.FLT_SRC_STICKY 638) = 1) ∧ u.gm = s.gm ∧ u.stage = s.stage ∧ u.time = s.time
    let read0 := fun (u : State) => tabGet (fun _ => 0) u.readData who.val = 0
    (en ≠ 0xF → Answers (.registerWrite who addr en v x) s lost) ∧
    Answers (.accessNoRegister who addr true true) s lost ∧
    Answers (.accessNoRegister who addr false true) s (fun u => lost u ∧ read0 u) ∧
    (findReg (addr.toNat / 4 * 4) regBlocks = none → zeroOffset (addr.toNat / 4 * 4) = false → addr.toNat < 0x2000000 →
      Answers (.accessNoRegister who addr true false) s lost ∧
      Answers (.accessNoRegister who addr false false) s (fun u => lost u ∧ read0 u)) ∧
    Completes (.trimWindowWrite who) s { s with ctl := { s.ctl with trimWrites := s.ctl.trimWrites + 1 } }) ∧
  (∀ (who : Fin 4) (addr : BitVec 26) (en : BitVec 4) (l : RLoc) (s : State),
    let a := addr.toNat
    let low := a - 4 * l.word
    a % 4 = 0 → a < 0x2000000 → findReg a regBlocks = some l → s.running (domainOf low) = true → s.reaches who.val = true →
    let key := keyOf who.val low l.desc
    let v := foldFields l.desc.fields (fun f => f.acc == .wo) (fun _ => 0) (s.view key l.desc.words)
    let peek := s.on (F.TOP_PEEK_EN who.val)
    (l.word = 0 → l.desc.words = 1 →
      (peek = true → Completes (.rcRead who addr en) s (s.gotRead who.val (enabledBytes en (v % 2 ^ 32)))) ∧
      (peek = false → a ≠ 0x10 → Answers (.rcRead who addr en) s (fun u =>
        tabGet (fun _ => 0) u.readData who.val = BitVec.ofNat 32 (enabledBytes en (v % 2 ^ 32)) ∧
        (∀ f ∈ l.desc.fields, bits (u.word key).toNat f.hi f.lo = if f.acc = .rc then 0 else bits (s.word key).toNat f.hi f.lo) ∧
        u.gm = s.gm ∧ u.time = s.time ∧ ∀ b, b ≠ key → u.word b = s.word b))) ∧
    (l.word = 0 → 1 < l.desc.words →
      let u := State.gotRead { s with capture := tabSet (fun _ => 0) s.capture (0x100000000 * who.val + low) v } who.val (v % 2 ^ 32)
      (peek = true → Completes (.wideReadCapture who addr) s u) ∧
      Answers (.wideReadCapture who addr) s (fun t => t.capture = u.capture ∧ t.readData = u.readData ∧ t.gm = s.gm ∧
        t.stage = s.stage)) ∧
    (0 < l.word → Completes (.rcRead who addr en) s
      (s.gotRead who.val (enabledBytes en (wordAt (tabGet (fun _ => 0) s.capture (0x100000000 * who.val + low)) l.word))))) ∧
  (∀ (who : Fin 4) (en : BitVec 4) (s : State), s.running 0 = true → s.reaches who.val = true → s.on (F.TOP_PEEK_EN who.val) = false →
    Answers (.rcRead who 0x10 en) s (fun u => u.get F.TOP_TEMP_MAX = s.get F.TOP_TEMP_NOW ∧ u.get F.TOP_TEMP_NOW = s.get F.TOP_TEMP_NOW ∧
      tabGet (fun _ => 0) u.readData who.val = BitVec.ofNat 32 (enabledBytes en (s.word 0x10).toNat))) ∧
  (∀ (who : Fin 4) (c : Fin 2) (q : List EgTs) (s : State), s.running 5 = true → s.reaches who.val = true →
    s.time.egts[c.val]? = some q →
    let v := egtsView q
    let u := State.gotRead { s with capture := tabSet (fun _ => 0) s.capture (0x100000000 * who.val + 0x10200 + 16 * c.val) v }
      who.val (v % 2 ^ 32)
    Completes (.egtsPop who c) s (if s.on (F.TOP_PEEK_EN who.val) then u
      else { u with time := { s.time with egts := setAt s.time.egts c.val (q.drop 1) } })) ∧
  (∀ (who : Fin 4) (q : List Radar) (s : State), s.running 11 = true → s.reaches who.val = true →
    (s.radio 1).radar = q →
    let v := radarView q
    let u := State.gotRead { s with capture := tabSet (fun _ => 0) s.capture (0x100000000 * who.val + 0x340108) v } who.val (v % 2 ^ 32)
    Answers (.detEvtPop who) s (fun t => tabGet (fun _ => 0) t.readData who.val = BitVec.ofNat 32 (v % 2 ^ 32) ∧
      t.capture = u.capture ∧ (t.radio 1).radar = (if s.on (F.TOP_PEEK_EN who.val) then q else q.drop 1) ∧
      (s.on (F.TOP_PEEK_EN who.val) = false → t.get F.RFB_DET_STAT_DEPTH = (q.length - 1) % 2 ^ 5)))

/-- A power-on reset starts TBM at 0 and a warm reset, by pin, SEC.RST, watchdog, supply loss or glitch, keeps it; either
leaves the reset state in Sprout with its cause recorded, with fuses, flash, Acorn's contents and the waiting commands
kept. RDIE_HOLD halts the radio die's sequencers with CAUSE 3 and unlocks its radios; boot steps follow one another;
the watchdog counts from its enable or kick; a conversion updates TEMP and the trip comparator counts samples in a
row, the hundredth at 125 C raising source 637. With no boot running or a host load awaited a boot step does nothing.
(R497, R498, R499, R500, R512, R515, R516, R526, R537) -/
def Obligations.ResetsAndBoot : Prop :=
  (∀ (who : Fin 4) (v : Word) (avs boot fuses : Bool) (a b k : Fin 3) (t : BitVec 16) (s : State),
    Settles .powerOnReset s s.powerOn ∧ Settles .resetPin s (s.warm 1) ∧ Settles .supplyPgLoss s s.supplyLoss ∧
    Settles .bootGlitch s s.bootGlitch ∧ Settles .watchdogExpiry s s.wdtExpiry ∧
    Settles (.bootStepComplete avs boot fuses a b k) s (s.bootStep avs boot fuses a.val b.val k.val) ∧
    Settles (.tempConversion t) s (s.tempConversion t) ∧ Settles (.thermalTripSample t k) s (s.tripSample t k.val) ∧
    (s.takes who.val 0 = true → Settles (.radioDieHold who v) s s.dieHold ∧ Settles (.radioDieRelease who v) s s.dieRelease) ∧
    (s.quiet = true → (s.ctl.boot = none ∨ (s.ctl.boot = some 4 ∧ s.on F.SEC_BOOT_STAT_WAIT = true)) →
      Completes (.bootStepComplete avs boot fuses a b k) s s) ∧
    (s.quiet = true → s.supEn = false ∨ s.regulating = true → Completes .supplyPgLoss s s) ∧
    (s.ctl.boot = none → Settles .bootGlitch s (s.raise 620)) ∧
    (s.takes who.val 0 = true → (s.on F.SEC_RST_RDIE_HOLD = true → Completes (.radioDieHold who v) s s) ∧
      (s.on F.SEC_RST_RDIE_HOLD = false → Completes (.radioDieRelease who v) s s))) ∧
  (∀ s : State, Answers .powerOnReset s (fun u => u.time = State.reset.time ∧ u.regs = State.reset.regs ∧ u.gm = [] ∧
    u.xm = [] ∧ u.yal = State.reset.yal ∧ u.hts = State.reset.hts ∧ u.mode = 1 ∧ u.ctl.boot = some 1 ∧ u.ctl.cause = 0 ∧
    u.fuse = s.fuse ∧ u.flash = s.flash ∧ u.acn.mem = s.acn.mem ∧ u.pending = s.pending)) ∧
  (∀ s : State,
    let reset := fun (cause now : Nat) (u : State) => u.time.tbm = now ∧ u.gm = [] ∧ u.xm = [] ∧ u.yal = State.reset.yal ∧
      u.hts = State.reset.hts ∧ u.mode = 1 ∧ u.ctl.boot = some 1 ∧ u.ctl.cause = cause ∧ u.fuse = s.fuse ∧ u.flash = s.flash ∧
      u.acn.mem = s.acn.mem ∧ u.pending = s.pending ∧ (∀ b, b ≠ 0x10034 → u.word b = regReset b) ∧
      u.get F.TIME_CLK_STAT_X32K_OK = s.get F.TIME_CLK_STAT_X32K_OK
    Answers .resetPin s (reset 1 s.time.tbm) ∧
    (∀ (who : Fin 4) (v : Word), s.domOn 0 = true → s.reaches who.val = true →
      Answers (.warmReset who v) s (reset (if who = 0 then 2 else if who = 3 then 4 else 3) s.time.tbm)) ∧
    (s.wdtRuns = true → Answers .watchdogExpiry s (reset 5 (s.until (s.now + (s.wdtLimit - s.wdtCount))).time.tbm)) ∧
    (s.quiet = true → s.wdtRuns = false → Completes .watchdogExpiry s s) ∧
    (s.supEn = true → s.regulating = false → Answers .supplyPgLoss s (reset 6 s.time.tbm)) ∧
    (s.ctl.boot.isSome = true → Answers .bootGlitch s (reset 7 s.time.tbm)) ∧
    (∀ (who : Fin 4) (v : Word), s.takes who.val 1 = true → s.on F.SEC_WDT_EN = true →
      let t := s.put F.SEC_WDT_MS (v.toNat % 65536)
      (t.wdtRuns = true ∧ t.wdtLimit ≤ t.wdtCount → Answers (.watchdogMsWrite who v) s (reset 5 s.time.tbm)) ∧
      (¬ (t.wdtRuns = true ∧ t.wdtLimit ≤ t.wdtCount) → Completes (.watchdogMsWrite who v) s t))) ∧
  (∀ (who : Fin 4) (v : Word) (s : State), s.takes who.val 1 = true →
    let restart := fun (s : State) => { s with sec := { s.sec with wdtUsed := 0, wdtAt := s.now } }
    Completes (.watchdogKick who v) s (restart s) ∧
    (s.on F.SEC_WDT_EN = false → Completes (.watchdogEnable who v) s
      (restart ((s.put F.SEC_WDT_MS (v.toNat % 65536)).put F.SEC_WDT_EN 1)))) ∧
  (∀ (who : Fin 4) (v : Word) (s : State), s.takes who.val 0 = true →
    (s.on F.SEC_RST_RDIE_HOLD = false → (∀ n, n < 4 → s.husk n 0 = none ∧ s.husk n 1 = none) →
      s.cuUp 0 = false → s.cuUp 1 = false → Answers (.radioDieHold who v) s (fun u => u.get F.SEC_RST_RDIE_HOLD = 1 ∧
        (∀ n, n < 4 → s.on (F.SQ_CTL_EN n) = true → s.on (F.SQ_CTL_HALTED n) = false →
          u.get (F.SQ_CTL_HALTED n) = 1 ∧ u.get (F.SQ_CTL_CAUSE n) = 3) ∧
        (∀ n, n < 3 → u.get (F.RF_RF_STAT_LOCK n) = 0 ∧ (u.radio n).csw = none) ∧
        (∀ c, c < 2 → u.get (F.CU_STAT_PHASE c) = 7) ∧ u.gm = s.gm ∧ u.hts = s.hts)) ∧
    (s.on F.SEC_RST_RDIE_HOLD = true → Answers (.radioDieRelease who v) s (fun u => u.get F.SEC_RST_RDIE_HOLD = 0 ∧
      u.gm = s.gm ∧ u.hts = s.hts ∧ u.seqs = s.seqs))) ∧
  (∀ (avs boot : Bool) (s : State), s.quiet = true →
    (s.ctl.boot = some 1 → Answers (.bootStepComplete avs boot true 0 0 0) s (fun u => u.ctl.boot = some 2 ∧
      u.get F.SEC_STRAP_AVS = b2n avs ∧ u.get F.SEC_STRAP_BOOT = b2n boot ∧ u.get F.PWR_STAT_AVS = b2n avs ∧
      u.get F.SEC_LC_STATE = s.fuse.lifecycle % 4)) ∧
    (s.ctl.boot = some 2 → Answers (.bootStepComplete avs boot true 0 0 0) s (fun u => u.ctl.boot = some 3 ∧ u.gm = s.gm)) ∧
    (s.ctl.boot = some 3 → Completes (.bootStepComplete avs boot true 0 0 0) s
      { s with sec := { s.sec with key := s.identityKey }, ctl := { s.ctl with boot := some 4 } }) ∧
    (s.ctl.boot = some 4 → s.on F.SEC_STRAP_BOOT = true → s.on F.SEC_BOOT_STAT_WAIT = false →
      Completes (.bootStepComplete avs boot true 0 0 0) s (s.put F.SEC_BOOT_STAT_WAIT 1)) ∧
    (s.ctl.boot = some 5 → Answers (.bootStepComplete avs boot true 0 0 0) s (fun u => u.ctl.boot = some 6 ∧
      u.meas 0 = natLe (s.sec.signed % 2 ^ 384) 48 ∧
      u.ctl.wake = some { source := 1, target := 6, start := s.now, at' := s.now, boot := true })) ∧
    (s.ctl.boot = some 6 → s.ctl.wake = none → (∀ d, d < 14 → s.domOn d = true) →
      Answers (.bootStepComplete avs boot true 0 0 0) s (fun u => u.ctl.boot = none ∧ u.mode = 6 ∧ u.get F.TOP_MODE_BASE = 6 ∧
        u.gm = s.gm))) ∧
  (∀ (t : BitVec 16) (s : State), s.quiet = true → s.countsOnly 636 = true →
    Answers (.tempConversion t) s (fun u => u.get F.TOP_TEMP_NOW = t.toNat ∧
      signed 16 (u.get F.TOP_TEMP_MAX) = max (signed 16 (s.get F.TOP_TEMP_MAX)) t.toInt ∧
      (920 ≤ t.toInt → s.sec.hot = false → u.get (F.FLT_SRC_STICKY 636) = 1 ∧ u.sec.hot = true) ∧
      (t.toInt < 880 → u.sec.hot = false) ∧ u.gm = s.gm)) ∧
  (∀ (t : BitVec 16) (s : State), s.quiet = true → (s.sec.trip < 99 ∨ t.toInt < 1000) →
    Completes (.thermalTripSample t 0) s { s with sec := { s.sec with
      trip := if 1000 ≤ t.toInt then s.sec.trip + 1 else 0, tripped := if t.toInt < 960 then false else s.sec.tripped } }) ∧
  (∀ (t : BitVec 16) (s : State), 99 ≤ s.sec.trip → 1000 ≤ t.toInt →
    let u := { s with acn := { s.acn with bad := 0 }, sec := { s.sec with trip := 100, tripped := true } }
    (s.sec.tripped = false → Settles (.thermalTripSample t 0) s (u.raise 637)) ∧
    (s.quiet = true → s.sec.tripped = true → Completes (.thermalTripSample t 0) s u))

/-- A refused request counts and reads STATUS 3 and changes no mode; one for the mode in force completes; full modes
change at once; a lower mode begins an entry, halting the sequencers of the front ends that go off, and a mode that
needs domains begins a wake in Sprout; a request behind another waits. Entry steps follow one another through their
abort points, and at the end the mode, the domains and the power state are the target's. A wake event records itself
and acts as its enable and the state of the device say; stages follow one another, are retried once, and end in the
target mode. TRIM starts a voltage change that ends in its state or waits for the regulator. With no entry, wake or
voltage change in progress their events do nothing; a request in Island changes the mode to return to alone. (R21,
R23, R458, R460, R462, R463, R465, R466, R467, R469) -/
def Obligations.ModesAndWakes : Prop :=
  (∀ (who : Fin 4) (v : Word) (mv : BitVec 16) (r k : Fin 3) (l : List Nat) (s : State),
    Settles (.entryStepComplete k) s (s.entryStep k.val) ∧ Settles .entryTimeout s s.entryTimeout ∧
    Settles .wakePin s (s.wakeEvent 0) ∧ Settles .wakeAlarm s s.wakeAlarm ∧ Settles (.wakeStageReady mv) s (s.stageReady mv.toNat) ∧
    Settles (.wakeStageTimeout l k) s (s.stageLate l k.val) ∧ Settles .trimChangeDone s s.trimDone ∧
    Settles (.avsStatusPoll r mv k) s (s.avsPoll r.val mv.toNat k.val) ∧
    (s.takes who.val 0 = true → Settles (.modeRequest who v) s (s.modeRequest (withFld v F.TOP_MODE_REQ_GO 1)) ∧
      Settles (.trimChange who v) s (s.trimChange v) ∧ (who = 0 → Settles (.wakeHost who v) s (s.wakeEvent 1)) ∧
      (who ≠ 0 → Completes (.wakeHost who v) s s)) ∧
    (s.quiet = true →
      (s.ctl.entry = none → Completes (.entryStepComplete k) s s ∧ Completes .entryTimeout s s) ∧
      (∀ e : Entry, s.ctl.entry = some e → e.step ≠ 2 ∨ s.entryQuiet e = true → Completes .entryTimeout s s) ∧
      (s.ctl.wake = none → Completes (.wakeStageReady mv) s s ∧ Completes (.wakeStageTimeout l k) s s) ∧
      (s.ctl.trim = none → Completes .trimChangeDone s s) ∧
      (s.on F.PWR_STAT_AVS = false → Completes (.avsStatusPoll r mv k) s s))) ∧
  (∀ (who : Fin 4) (v : Word) (s : State), s.takes who.val 0 = true →
    let t := v.toNat % 16
    let still := fun (u : State) => u.mode = s.mode ∧ u.ctl.entry.map (·.target) = s.ctl.entry.map (·.target) ∧
      u.get F.PWR_DOM_ON = s.get F.PWR_DOM_ON ∧ u.get F.TOP_MODE_REQ_TARGET = t ∧ u.gm = s.gm ∧ u.hts = s.hts
    (s.modeRefused t = true → Answers (.modeRequest who v) s (fun u => still u ∧ u.get F.TOP_MODE_REQ_STATUS = 3 ∧
      u.ctl.slot.map (·.target) = s.ctl.slot.map (·.target) ∧
      u.get F.TOP_MODE_REQ_REFUSALS = (s.bump F.TOP_MODE_REQ_REFUSALS 1).get F.TOP_MODE_REQ_REFUSALS)) ∧
    (s.modeRefused t = false → s.mode = 9 → Answers (.modeRequest who v) s (fun u => u.mode = 9 ∧ u.get F.TOP_MODE_BASE = t ∧
      u.get F.TOP_MODE_REQ_STATUS = 0 ∧ u.ctl.slot = none ∧ u.get F.PWR_DOM_ON = s.get F.PWR_DOM_ON ∧ u.gm = s.gm)) ∧
    (s.modeRefused t = false → s.mode ≠ 9 →
      (s.modeHeld = true ∨ s.ctl.slot ≠ none → Answers (.modeRequest who v) s (fun u => still u ∧
        u.get F.TOP_MODE_REQ_STATUS = 1 ∧ u.get F.TOP_MODE_PEND = 1 ∧ u.ctl.slot = some ⟨t, true⟩)) ∧
      (s.modeHeld = false → s.ctl.slot = none →
        (t = s.mode → Answers (.modeRequest who v) s (fun u => still u ∧ u.get F.TOP_MODE_REQ_STATUS = 0)) ∧
        (t ≠ s.mode → 6 ≤ t → t ≤ 8 → (∀ d, d < 14 → s.domOn d = true) → Answers (.modeRequest who v) s (fun u =>
          u.mode = t ∧ u.get F.TOP_MODE_BASE = t ∧ u.get F.TOP_MODE_REQ_STATUS = 0 ∧ u.gm = s.gm ∧ u.hts = s.hts)) ∧
        (t ≠ s.mode → t ≠ 0 → (modeDomains t).all s.domOn = false → Answers (.modeRequest who v) s (fun u =>
          u.mode = 1 ∧ u.get F.TOP_MODE_REQ_STATUS = 2 ∧ u.gm = s.gm ∧ u.hts = s.hts ∧
          u.ctl.wake = some { source := s.mode, target := t, start := s.now, at' := s.now, latest := true })) ∧
        (t ≠ s.mode → t < 6 → (t = 0 ∨ (modeDomains t).all s.domOn = true) →
          (∀ n, n < 4 → s.husk n 0 = none ∧ s.husk n 1 = none) → Answers (.modeRequest who v) s (fun u => u.mode = s.mode ∧ u.get F.TOP_MODE_REQ_STATUS = 2 ∧ u.get F.TOP_MODE_BUSY = 1 ∧ u.gm = s.gm ∧
          u.ctl.entry = some { source := s.mode, target := t, latest := true } ∧
          u.ctl.fronts = s.ctl.fronts.filter (fun f => (s.modeFronts t).contains f) ∧
          ∀ n, n < 4 → (s.ctl.fronts.contains n && !(s.modeFronts t).contains n && s.on (F.SQ_CTL_EN n)
            && !s.on (F.SQ_CTL_HALTED n)) = true → u.get (F.SQ_CTL_HALTED n) = 1 ∧ u.get (F.SQ_CTL_CAUSE n) = 3))))) ∧
  (∀ (e : Entry) (s : State), s.quiet = true → s.ctl.entry = some e → e.wakeHeld = false → s.hts.tasks = [] → s.prs.input = [] →
    s.cuUp 0 = false → s.cuUp 1 = false →
    (e.step = 1 → (s.entryOff e).contains 5 = false → Answers (.entryStepComplete 0) s (fun u => u.mode = s.mode ∧ u.get F.PWR_STAT_APT = 1 ∧
      u.ctl.entry = some { e with point := 1, step := 2, deadline := s.now + 1000 * max 1 (s.get F.PWR_ENTRY_TO_US) } ∧
      u.gm = s.gm)) ∧
    (e.step = 2 → s.entryQuiet e = true → Answers (.entryStepComplete 0) s (fun u => u.mode = s.mode ∧ u.get F.PWR_STAT_APT = 2 ∧
      u.ctl.entry = some { e with point := 2, step := 3, deadline := 0 } ∧ u.gm = s.gm)) ∧
    (e.step = 2 → s.entryQuiet e = false → s.runningOn (clustersOf (s.entryOff e)) = [] → Answers .entryTimeout s (fun u =>
      u.time = (s.until e.deadline).time ∧ u.ctl.entry = some { e with point := 2, step := 3, deadline := 0 } ∧ u.gm = s.gm)) ∧
    (e.step = 3 → Answers (.entryStepComplete 0) s (fun u => u.mode = s.mode ∧ u.get F.PWR_STAT_APT = 3 ∧ u.gm = s.gm ∧
      u.ctl.entry = some { e with point := 3, step := 4, avs := if s.on F.PWR_STAT_AVS && e.target != 0 then s.now + s.avsTo else 0 })) ∧
    (e.step = 4 → 3 ≤ e.target → e.target ≤ 5 → s.ctl.slot = none → s.ctl.trimLate = false → s.yal.load = none →
      Answers (.entryStepComplete 0) s (fun u => u.mode = e.target ∧ u.get F.TOP_MODE_BASE = e.target ∧ u.ctl.entry = none ∧
        u.get F.PWR_STAT_STATE = s.modePower e.target ∧ u.ctl.fronts = s.modeFronts e.target ∧
        ∀ d, d < 14 → u.domOn d = (s.domOn d && (modeDomains e.target).contains d)))) ∧
  (∀ (e : Entry) (s : State), s.quiet = true → s.ctl.entry = some e → e.wakeHeld = true → e.step = 1 → s.ctl.slot = none →
    s.ctl.trimLate = false → s.yal.load = none → s.countsOnly 608 = true → (∀ n, n < 4 → s.husk n 0 = none ∧ s.husk n 1 = none) →
    Answers (.entryStepComplete 0) s (fun u => u.ctl.entry = none ∧ u.mode = s.mode ∧ u.get (F.FLT_SRC_STICKY 608) = 1 ∧
      u.get F.PWR_CNT_ABORTS = (s.bump F.PWR_CNT_ABORTS 1).get F.PWR_CNT_ABORTS ∧ u.ctl.fronts = s.modeFronts e.source ∧
      u.get F.PWR_DOM_ON = s.get F.PWR_DOM_ON)) ∧
  (∀ (s : State), s.quiet = true →
    let u := s.putBit F.PWR_WAKE_STAT_SRC 0 true
    (s.fbit F.PWR_WAKE_EN_SRC 0 = false → Completes .wakePin s u) ∧
    (s.fbit F.PWR_WAKE_EN_SRC 0 = true →
      (∀ w : Wake, s.ctl.wake = some w → Completes .wakePin s (if w.boot then u else u.bump F.PWR_WAKE_STAT_EXTRA 1)) ∧
      (∀ e : Entry, s.ctl.wake = none → s.ctl.entry = some e → Completes .wakePin s
        (if e.target = 0 then u else { u with ctl := { s.ctl with entry := some { e with wakeHeld := true } } })) ∧
      (s.ctl.wake = none → s.ctl.entry = none → s.mode ≠ 3 → s.mode ≠ 4 → Completes .wakePin s u) ∧
      (s.ctl.wake = none → s.ctl.entry = none → s.mode = 3 ∨ s.mode = 4 → Answers .wakePin s (fun t => t.mode = 1 ∧
        t.ctl.wake = some { source := s.mode, target := s.wakeTarget, start := s.now, at' := s.now } ∧
        t.get F.PWR_STAT_STATE = s.modePower s.wakeTarget ∧ t.gm = s.gm)))) ∧
  (∀ (v : Word) (s : State), s.quiet = true → s.takes 0 0 = true →
    let u := s.putBit F.PWR_WAKE_STAT_SRC 1 true
    (s.fbit F.PWR_WAKE_EN_SRC 1 = false → Completes (.wakeHost 0 v) s u) ∧
    (s.fbit F.PWR_WAKE_EN_SRC 1 = true →
      (∀ w : Wake, s.ctl.wake = some w → Completes (.wakeHost 0 v) s (if w.boot then u else u.bump F.PWR_WAKE_STAT_EXTRA 1)) ∧
      (∀ e : Entry, s.ctl.wake = none → s.ctl.entry = some e → Completes (.wakeHost 0 v) s
        (if e.target = 0 then u else { u with ctl := { s.ctl with entry := some { e with wakeHeld := true } } })) ∧
      (s.ctl.wake = none → s.ctl.entry = none → s.mode ≠ 3 → s.mode ≠ 4 → Completes (.wakeHost 0 v) s u) ∧
      (s.ctl.wake = none → s.ctl.entry = none → s.mode = 3 ∨ s.mode = 4 → Answers (.wakeHost 0 v) s (fun t => t.mode = 1 ∧
        t.ctl.wake = some { source := s.mode, target := s.wakeTarget, start := s.now, at' := s.now } ∧
        t.get F.PWR_STAT_STATE = s.modePower s.wakeTarget ∧ t.gm = s.gm)))) ∧
  (∀ s : State, s.quiet = true →
    let a := s.get F.PWR_WAKE_AT_NS
    (s.ctl.alarm = false ∨ a = 2 ^ 64 - 1 → Completes .wakeAlarm s s) ∧
    (s.ctl.alarm = true → a ≠ 2 ^ 64 - 1 → s.ctl.entry = none → s.ctl.wake = none →
      Answers .wakeAlarm s (fun u => u.time = (s.until a).time ∧ u.ctl.alarm = false ∧ u.fbit F.PWR_WAKE_STAT_SRC 2 = true ∧
        u.ctl.wake = (if s.fbit F.PWR_WAKE_EN_SRC 2 = true ∧ (s.mode = 3 ∨ s.mode = 4) then
          some { source := s.mode, target := s.wakeTarget, start := (s.until a).now, at' := (s.until a).now } else none)))) ∧
  (∀ (w : Wake) (mv : BitVec 16) (s : State), s.quiet = true → s.ctl.wake = some w →
    (w.stage < 4 → w.retry = false → Answers (.wakeStageReady mv) s (fun u => u.mode = s.mode ∧ u.gm = s.gm ∧
      u.get F.PWR_STAT_STAGE = (w.stage + 1) % 8 ∧
      u.ctl.wake = some { w with stage := w.stage + 1, failing := [], at' := s.now })) ∧
    (w.stage < 4 → w.retry = true → 1 ≤ w.stage → s.countsOnly (598 + 2 * w.stage) = true → Answers (.wakeStageReady mv) s (fun u =>
      u.mode = s.mode ∧ u.fbit F.PWR_WAKE_LOG_RETRIED (w.stage - 1) = true ∧ u.get (F.FLT_SRC_STICKY (598 + 2 * w.stage)) = 1 ∧
      u.ctl.wake = some { w with stage := w.stage + 1, retry := false, failing := [], at' := s.now })) ∧
    (w.stage = 4 → w.retry = false → w.boot = false → 4 ≤ w.target → w.target ≤ 7 → w.source ≠ 3 → s.fedState = 0 →
      Answers (.wakeStageReady mv) s (fun u => u.mode = w.target ∧ u.ctl.wake = none ∧ u.ctl.fronts = s.modeFronts w.target ∧
        u.get F.PWR_STAT_STATE = s.modePower w.target ∧
        ∀ d, d < 14 → u.domOn d = (s.domOn d || (modeDomains w.target).contains d))) ∧
    (w.retry = false → ∀ l : List Nat, Completes (.wakeStageTimeout l 0) s
      { s.until (w.at' + stageTimeout w.stage) with ctl := { s.ctl with
        wake := some { w with retry := true, failing := l, at' := (s.until (w.at' + stageTimeout w.stage)).now } } }) ∧
    (w.retry = true → w.stage = 3 → w.failing = [] → s.countsOnly 605 = true → Answers (.wakeStageTimeout [] 0) s (fun u =>
      u.fbit F.PWR_WAKE_LOG_FAILED 2 = true ∧ u.get (F.FLT_SRC_STICKY 605) = 1 ∧ u.gm = s.gm ∧
      u.ctl.wake.map (·.stage) = some 4))) ∧
  (∀ (who : Fin 4) (v : Word) (s : State), s.takes who.val 0 = true →
    let u := s.setWord F.PWR_CTL_TRIM.addr (v &&& 7)
    (s.mode < 6 ∨ 9 < s.mode → Completes (.trimChange who v) s u) ∧
    (6 ≤ s.mode → s.mode ≤ 9 → s.modeHeld = true → Completes (.trimChange who v) s { u with ctl := { s.ctl with trimLate := true } }) ∧
    (6 ≤ s.mode → s.mode ≤ 9 → s.modeHeld = false → s.get F.PWR_STAT_STATE ≠ u.get F.PWR_CTL_TRIM → Answers (.trimChange who v) s (fun t =>
      t.get F.TOP_MODE_BUSY = 1 ∧ t.mode = s.mode ∧ t.ctl.trim = some ⟨u.get F.PWR_CTL_TRIM,
        if s.on F.PWR_STAT_AVS then s.now + s.avsTo else 0, false, false⟩))) ∧
  (∀ (t : TrimMove) (s : State), s.quiet = true → s.ctl.trim = some t →
    (t.deadline ≠ 0 → Completes .trimChangeDone s s) ∧
    (t.deadline = 0 → t.failed = false → s.ctl.slot = none → s.ctl.trimLate = false → s.yal.load = none → s.ctl.entry = none →
      s.ctl.wake = none → Answers .trimChangeDone s (fun u => u.get F.PWR_STAT_STATE = t.target % 8 ∧ u.ctl.trim = none ∧
        u.get F.TOP_MODE_BUSY = 0 ∧ u.mode = s.mode ∧ u.gm = s.gm)) ∧
    (∀ mv : BitVec 16, t.deadline ≠ 0 → s.on F.PWR_STAT_AVS = true →
      let n := s.until (s.now + 20000)
      Completes (.avsStatusPoll 1 mv 0) s { (n.put F.PWR_AVS_STAT_MV mv.toNat).put F.PWR_AVS_STAT_NACK 0 with
        ctl := { s.ctl with trim := some { t with deadline := 0 } } } ∧
      (n.now < t.deadline → Completes (.avsStatusPoll 0 mv 0) s (n.put F.PWR_AVS_STAT_NACK 0)) ∧
      (t.deadline ≤ n.now → Completes (.avsStatusPoll 0 mv 0) s { n.put F.PWR_AVS_STAT_NACK 0 with ctl := { s.ctl with
        trim := some (if t.retry then { t with deadline := 0, failed := true }
                      else { t with retry := true, deadline := n.now + s.avsTo }) } })))

/-- CHAN takes valid values while the MAC is disabled and else raises source 161 + 32n; STEER_COPY copies one entry and
ignores entry 0; GO in CSW_CTL starts a switch to the setting then in CSW_CTL and CSW_PUNCT with its count, or at once
with a count of 0 unless an exchange runs, sets the fields alone while a switch runs, and is refused for a channel
that is none; the retune's end sets CHAN and clears GO; a radar burst that the enabled detector sees on the operating
channel is queued or, with sixteen waiting, lost with OVF; lost lock, antenna faults and power limits set their status
and raise their sources; EN starts a MAC, muted after a failed calibration, and its fall stops it. (R218, R220, R221,
R223, R228, R230, R231, R235, R273) -/
def Obligations.RadioControl : Prop :=
  (∀ (who : Fin 4) (n : Fin 3) (v : Word) (s : State), s.takes who.val 11 = true →
    let ok := !s.on (F.MX_CTL_EN n.val) && channelOk n.val (bits v.toNat 7 0) (bits v.toNat 10 8) (bit v.toNat 11) (bits v.toNat 31 16)
    (ok = true → Completes (.chanWrite who n v) s
      ((((s.put (F.RF_CHAN_PRIM n.val) (bits v.toNat 7 0)).put (F.RF_CHAN_BW n.val) (bits v.toNat 10 8)).put
        (F.RF_CHAN_CH320_2 n.val) (bits v.toNat 11 11)).put (F.RF_CHAN_PUNCT n.val) (bits v.toNat 31 16))) ∧
    (ok = false → s.countsOnly (161 + 32 * n.val) = true → Completes (.chanWrite who n v) s (s.counted (161 + 32 * n.val)))) ∧
  (∀ (who : Fin 4) (n : Fin 3) (v : Word) (s : State), s.takes who.val 11 = true →
    let a := fldOf v (F.RF_STEER_COPY_SRC n.val)
    let b := fldOf v (F.RF_STEER_COPY_DST n.val)
    let u := (s.put (F.RF_STEER_COPY_SRC n.val) a).put (F.RF_STEER_COPY_DST n.val) b
    let x := s.radio n.val
    Completes (.steerCopy who n v) s (if a = 0 ∨ b = 0 then u
      else u.setRadio n.val { x with steer := tabSet (fun _ => {}) x.steer b (tabGet (fun _ => {}) x.steer a) })) ∧
  (∀ (who : Fin 4) (n : Fin 3) (v : Word) (s : State), s.takes who.val 11 = true →
    let u := s.take v [F.RF_CSW_CTL_CH n.val, F.RF_CSW_CTL_BW n.val, F.RF_CSW_CTL_CH320_2 n.val, F.RF_CSW_CTL_QUIET n.val,
      F.RF_CSW_CTL_COUNT n.val]
    let c : Csw := ⟨u.get (F.RF_CSW_CTL_COUNT n.val), false, u.get (F.RF_CSW_CTL_CH n.val), u.get (F.RF_CSW_CTL_BW n.val),
      u.get (F.RF_CSW_CTL_CH320_2 n.val), u.get (F.RF_CSW_PUNCT_PUNCT n.val), u.on (F.RF_CSW_CTL_QUIET n.val), false, false⟩
    let ok := channelOk n.val c.prim c.bw (c.second == 1) c.punct
    let go := fun (c : Csw) => (u.put (F.RF_CSW_CTL_GO n.val) 1).setRadio n.val { s.radio n.val with csw := some c }
    ((s.radio n.val).csw ≠ none → Completes (.channelSwitch who n v) s u) ∧
    ((s.radio n.val).csw = none →
      (ok = false → s.countsOnly (161 + 32 * n.val) = true → Completes (.channelSwitch who n v) s (u.counted (161 + 32 * n.val))) ∧
      (ok = true → c.left ≠ 0 → Completes (.channelSwitch who n v) s (go c)) ∧
      (∀ (k : Fin 2) (h : Husk), ok = true → c.left = 0 → s.husk n.val k.val = some h → h.st = 3 →
        Completes (.channelSwitch who n v) s (go { c with due := true })) ∧
      (ok = true → c.left = 0 → s.husk n.val 0 = none → s.husk n.val 1 = none → Answers (.channelSwitch who n v) s (fun t =>
        t.get (F.RF_CSW_CTL_GO n.val) = 1 ∧ (t.radio n.val).csw = some { c with due := true, tuning := true } ∧
        t.get (F.RF_CHAN_PRIM n.val) = s.get (F.RF_CHAN_PRIM n.val) ∧ t.gm = s.gm ∧ t.hts = s.hts)))) ∧
  (∀ (n : Fin 3) (s : State), s.quiet = true →
    ((s.radio n.val).csw = none → Completes (.channelRetuneDone n) s s) ∧
    (∀ c : Csw, (s.radio n.val).csw = some c →
      (c.tuning = false → Completes (.channelRetuneDone n) s s) ∧
      (c.tuning = true → Completes (.channelRetuneDone n) s
        ((((((s.put (F.RF_CHAN_PRIM n.val) c.prim).put (F.RF_CHAN_BW n.val) c.bw).put (F.RF_CHAN_CH320_2 n.val) c.second).put
          (F.RF_CHAN_PUNCT n.val) c.punct).put (F.RF_CSW_CTL_GO n.val) 0).setRadio n.val { s.radio n.val with csw := none })))) ∧
  (∀ (subch pulses width rssi t : Nat) (chirp : Bool) (s : State), s.quiet = true →
    let e : Radar := ⟨subch % 2 ^ subchannels (s.get (F.RF_CHAN_BW 1)), pulses, width, rssi, chirp, t⟩
    let sees := s.radioHears 1 = true ∧ s.on F.RFB_DET_CTL_EN = true ∧ s.radarThr < signed 8 rssi ∧ e.subch ≠ 0 ∧ s.radarBlank t = false
    (s.radioHears 1 = true → Settles (.radarBurst subch pulses width rssi chirp t) s
      (s.radarBurst ⟨subch, pulses, width, rssi, chirp, t⟩)) ∧
    (¬ sees → Completes (.radarBurst subch pulses width rssi chirp t) s s) ∧
    (sees → (s.radio 1).radar.length < 16 → s.countsOnly 198 = true → Answers (.radarBurst subch pulses width rssi chirp t) s (fun u =>
      u.time = (s.until t).time ∧ (u.radio 1).radar = (s.radio 1).radar ++ [e] ∧ u.get F.RFB_DET_STAT_DEPTH = (s.radio 1).radar.length + 1 ∧
      u.get (F.FLT_SRC_STICKY 198) = 1 ∧ CountedOnce s u 198 ∧ u.gm = s.gm)) ∧
    (sees → 16 ≤ (s.radio 1).radar.length → s.countsOnly 199 = true →
      Completes (.radarBurst subch pulses width rssi chirp t) s (((s.until t).put F.RFB_DET_STAT_OVF 1).counted 199))) ∧
  (∀ (n chain : Fin 4) (on : Bool) (s : State), s.quiet = true →
    (s.radioPowered n.val = false → Completes (.pllUnlock n) s s ∧ Completes (.pllRelock n) s s ∧
      Completes (.antennaFault n chain) s s ∧ Completes (.rfPowerLimit n chain on) s s) ∧
    (s.radioPowered n.val = true → Settles (.pllUnlock n) s (s.pllUnlock n.val) ∧
      Settles (.antennaFault n chain) s (s.antennaFault n.val chain.val) ∧
      Settles (.rfPowerLimit n chain on) s (s.rfPowerLimit n.val chain.val on))) ∧
  (∀ (n : Fin 3) (chain : Fin 4) (s : State), s.quiet = true → s.radioPowered n.val = true →
    (s.countsOnly (160 + 32 * n.val) = true → s.husk n.val 0 = none → s.husk n.val 1 = none → Answers (.pllUnlock n.castSucc) s (fun u =>
      u.get (F.RF_RF_STAT_LOCK n.val) = 0 ∧ (u.radio n.val).unlocked = true ∧ u.get (F.FLT_SRC_STICKY (160 + 32 * n.val)) = 1 ∧
      u.gm = s.gm ∧ u.hts = s.hts)) ∧
    Answers (.pllRelock n.castSucc) s (fun u => u.get (F.RF_RF_STAT_LOCK n.val) = 1 ∧ u.gm = s.gm ∧ u.hts = s.hts ∧
      (u.radio n.val).unlocked = ((s.radio n.val).unlocked && s.isPending (160 + 32 * n.val))) ∧
    (s.countsOnly (163 + 32 * n.val) = true → Completes (.antennaFault n.castSucc chain) s
      ((s.putBit (F.RF_RF_STAT_ANTF n.val) chain.val true).counted (163 + 32 * n.val))) ∧
    Completes (.rfPowerLimit n.castSucc chain false) s (s.putBit (F.RF_RF_STAT_LIMIT n.val) chain.val false) ∧
    (s.countsOnly (162 + 32 * n.val) = true → Completes (.rfPowerLimit n.castSucc chain true) s
      ((s.putBit (F.RF_RF_STAT_LIMIT n.val) chain.val true).counted (162 + 32 * n.val)))) ∧
  (∀ (chain : Fin 4) (s : State), s.quiet = true → s.radioPowered 3 = true →
    (s.countsOnly 256 = true → s.husk 3 0 = none → s.husk 3 1 = none → Completes (.pllUnlock 3) s (s.counted 256)) ∧
    Completes (.pllRelock 3) s s ∧ Completes (.rfPowerLimit 3 chain false) s s ∧
    (s.countsOnly 259 = true → Completes (.antennaFault 3 chain) s
      { s.counted 259 with air := { s.air with pip := { s.air.pip with txBad := true } } }) ∧
    (s.countsOnly 258 = true → Completes (.rfPowerLimit 3 chain true) s (s.counted 258))) ∧
  (∀ (who : Fin 4) (n : Fin 3) (v : Word) (s : State), s.takes who.val 11 = true →
    let t := s.put (F.MX_CTL_TXOFF n.val) (fldOf v (F.MX_CTL_TXOFF n.val))
    (s.on (F.MX_CTL_EN n.val) = false →
      let u := fun (bad : Bool) => (t.put (F.MX_CTL_EN n.val) 1).setRadio n.val { s.radio n.val with calFail := bad }
      Completes (.macEnable who n v true) s ((u false).put (F.RF_RF_STAT_LOCK n.val) 1) ∧
      (s.countsOnly (165 + 32 * n.val) = true → Completes (.macEnable who n v false) s ((u true).counted (165 + 32 * n.val))) ∧
      Completes (.macDisable who n v) s t) ∧
    (s.on (F.MX_CTL_EN n.val) = true → Completes (.macEnable who n v true) s t ∧
      Settles (.macDisable who n v) s (t.macDisable n.val) ∧
      (s.husk n.val 0 = none → s.husk n.val 1 = none → Completes (.macDisable who n v) s (t.put (F.MX_CTL_EN n.val) 0))))

/-- A frame that no radio hears, or of a format that its radio does not decode, changes nothing. A management frame is
delivered with its own stamp; a data frame of a link that is absent is not taken; an unprotected one whose number
stands at the window start is delivered and the window moves on, one above it in the window is held with its bit set,
and one that the window has passed is a duplicate; a lost buffer, link record or scoreboard entry and no room are
counted and raised. A BlockAckReq moves the window start of an active entry, the hold timeout passes the held frame
on, opening an agreement sets its entry and closing it returns the size to 1. A link record takes its six staged words
or is refused with ERR; a station's first link opens its scoreboard entries with size 1. An FCS failure is counted, a
QoS Null ends the service period, and feedback fills its steering entry and ends the sounding husk. (R202, R205, R218,
R231, R188, R189, R190, R192, R193) -/
def Obligations.WifiReception : Prop :=
  (∀ (f : AirFrame) (k sb lk ro : Check) (room low : Bool) (s : State),
    let n := f.radio.val
    let st := f.sta.toNat
    let hears := s.radioHears n && ppduOk n f.fmt.val f.data
    let t := s.until f.stamp.toNat
    let got : Packet := ⟨s.prs.nextRef, f.head ++ f.text, 4, if f.mgmt then 1 else 0, st, t.stampIn n f.stamp.toNat, false,
      n + 4 * f.tid.val, none, [], 0, [], false⟩
    let here := lk ≠ .lasting ∧ s.linkTableOk n = true ∧ s.linkPresent n st = true
    let taken : State := { t with prs := { s.prs with input := s.prs.input ++ [got], nextRef := s.prs.nextRef + 1 } }
    Settles (.mpduReceive f k ⟨sb, lk, ro⟩ room low) s (s.mpduReceive f k sb lk ro room low) ∧
    (s.quiet = true → hears = false → Completes (.mpduReceive f k ⟨sb, lk, ro⟩ room low) s s) ∧
    (s.quiet = true → hears = true →
      (s.countsOnly (64 + 32 * n) = true → Completes (.mpduReceive f .lasting ⟨sb, lk, ro⟩ room false) s (t.counted (64 + 32 * n))) ∧
      (k ≠ .lasting → s.countsOnly (66 + 32 * n) = true → Completes (.mpduReceive f k ⟨sb, lk, ro⟩ false false) s
        ((t.bump (F.MX_RXCNT_OVF n) 1).counted (66 + 32 * n))) ∧
      (k ≠ .lasting → s.linkTableOk n = true → lk ≠ .lasting → s.linkPresent n st = false →
        Completes (.mpduReceive f k ⟨sb, lk, ro⟩ true false) s (if f.mgmt = true ∧ f.prot = false then taken else t)) ∧
      (k ≠ .lasting → (s.linkTableOk n = false ∨ lk = .lasting) → s.countsOnly (65 + 32 * n) = true →
        Completes (.mpduReceive f k ⟨sb, lk, ro⟩ true false) s
          ((if f.mgmt = true ∧ f.prot = false then taken else t).counted (65 + 32 * n))) ∧
      (k ≠ .lasting → here → f.data = true → f.mgmt = false → (s.sbOk = false ∨ sb = .lasting) → s.countsOnly (93 + 32 * n) = true →
        Completes (.mpduReceive f k ⟨sb, lk, ro⟩ true false) s (t.counted (93 + 32 * n))) ∧
      (k ≠ .lasting → here → f.data = true → f.mgmt = false → s.sbOk = true → sb ≠ .lasting → f.prot = false → f.psPoll = false →
        f.pm = false → f.om = none → f.bsr = none →
        (s.sbBase + 0x300000 ≤ s.linkBase n ∨ s.linkBase n + 0x10000 ≤ s.sbBase) → bit (s.sbNat st f.tid.val 0x80 2) 15 = true →
        let d := (f.sn.toNat + 4096 - s.sbWs st f.tid.val) % 4096
        (d = 0 → bit (s.sbNat st f.tid.val 0 128) 0 = false → s.air.rx = [] →
          Answers (.mpduReceive f k ⟨sb, lk, ro⟩ true false) s (fun u => u.time = t.time ∧ u.air.rx = [] ∧ u.prs = taken.prs ∧
            u.sbWs st f.tid.val = (f.sn.toNat + 1) % 4096 ∧ u.hts = s.hts ∧ bits (u.linkPs n st) 15 8 = f.rssi.toNat)) ∧
        (0 < d → d < s.sbSize st f.tid.val → bit (s.sbNat st f.tid.val 0 128) 0 = false → bit (s.sbNat st f.tid.val 0 128) d = false →
          s.air.rx = [] → ro ≠ .lasting → s.xmDead = false →
          let a := s.sbNat st f.tid.val 0x98 8 + 8 * (f.sn.toNat % s.sbSize st f.tid.val)
          Answers (.mpduReceive f k ⟨sb, lk, ro⟩ true false) s (fun u => u.air.rx.map (fun r => (r.sn, r.st, r.stored, r.pkt.bytes)) =
            [(f.sn.toNat, 1, t.now, f.head ++ f.text)] ∧ u.prs.input = s.prs.input ∧ u.sbWs st f.tid.val = s.sbWs st f.tid.val ∧
            bit (u.sbNat st f.tid.val 0 128) d = true ∧ u.sbNat st f.tid.val 0x84 2 = 1 ∧
            u.sbNat st f.tid.val 0x88 8 = t.now % 2 ^ 64 ∧ u.hts = s.hts ∧
            ∀ b, b < a ∨ a + 8 ≤ b → memByte u.xm b = memByte s.xm b)) ∧
        (2048 ≤ d → Answers (.mpduReceive f k ⟨sb, lk, ro⟩ true false) s (fun u => u.prs = s.prs ∧ u.hts = s.hts ∧
          u.sbWs st f.tid.val = s.sbWs st f.tid.val ∧ u.sbNat st f.tid.val 0 128 = s.sbNat st f.tid.val 0 128 ∧
          u.sbNat st f.tid.val 0xA0 4 = (s.sbNat st f.tid.val 0xA0 4 + 1) % 2 ^ 32 ∧
          u.get F.SQA_RXCNT_DUP = (s.bump F.SQA_RXCNT_DUP 1).get F.SQA_RXCNT_DUP))))) ∧
  (∀ (n : Fin 3) (st : BitVec 11) (tid : Fin 8) (start : BitVec 12) (s : State), s.quiet = true →
    let d := (start.toNat + 4096 - s.sbWs st.toNat tid.val) % 4096
    let active := s.radioHears n.val = true ∧ s.sbOk = true ∧ bit (s.sbNat st.toNat tid.val 0x80 2) 15 = true
    (s.radioHears n.val = true → Settles (.barReceive n st tid start) s (s.barReceive st.toNat tid.val start.toNat)) ∧
    (¬ active ∨ d = 0 ∨ 2048 ≤ d → Completes (.barReceive n st tid start) s s) ∧
    (active → 0 < d → d < 2048 → s.air.rx = [] →
      Answers (.barReceive n st tid start) s (fun u => u.sbWs st.toNat tid.val = start.toNat ∧ u.prs = s.prs ∧ u.air = s.air ∧
        u.sbNat st.toNat tid.val 0x82 2 = s.sbNat st.toNat tid.val 0x82 2 ∧ u.regs = s.regs))) ∧
  (∀ (st : BitVec 11) (tid : Fin 8) (s : State), s.quiet = true →
    let t := s.sbNat st.toNat tid.val 0x88 8
    let waits := s.domOn 11 = true ∧ s.sbOk = true ∧ t ≠ 0 ∧ s.sbHole st.toNat tid.val = true
    (s.domOn 11 = true → Settles (.rxHoldTimeout st tid) s (s.rxHoldTimeout st.toNat tid.val)) ∧
    (¬ waits → Completes (.rxHoldTimeout st tid) s s) ∧
    (∀ f : RxFrame, waits → s.air.rx = [f] → f.sta = st.toNat → f.tid = tid.val → f.st = 1 → f.prot = false → f.sn < 4096 →
      s.sbWs st.toNat tid.val ≠ f.sn → (f.sn + 4096 - s.sbWs st.toNat tid.val) % 4096 < 2048 →
      Answers (.rxHoldTimeout st tid) s (fun u => u.sbWs st.toNat tid.val = (f.sn + 1) % 4096 ∧ u.air.rx = [] ∧
        u.time = (s.until (t + 1000 * max 1 (s.get F.SQA_RX_HOLD_US))).time ∧ u.sbNat st.toNat tid.val 0x88 8 = 0 ∧
        u.prs = { s.prs with input := s.prs.input ++ [{ f.pkt with ref := s.prs.nextRef }], nextRef := s.prs.nextRef + 1 }))) ∧
  (∀ (who : Fin 4) (v : Word) (s : State), s.takes who.val 11 = true →
    let u := (s.put F.SQA_SB_UPD_STA (fldOf v F.SQA_SB_UPD_STA)).put F.SQA_SB_UPD_TID (fldOf v F.SQA_SB_UPD_TID)
    let w := fun (c : Nat) => (u.put F.SQA_SB_UPD_CLOSE c).put F.SQA_SB_UPD_WSIZE (fldOf v F.SQA_SB_UPD_WSIZE)
    Settles (.sbOpen who v) s (w 0).sbOpen ∧ Settles (.sbClose who v) s (w 1).sbClose ∧
    (s.sbOk = false → Completes (.sbOpen who v) s (w 0) ∧ Completes (.sbClose who v) s (w 1))) ∧
  (∀ (who : Fin 4) (v : Word) (s : State), s.takes who.val 11 = true → s.sbOk = true →
    let st := fldOf v F.SQA_SB_UPD_STA
    let tid := fldOf v F.SQA_SB_UPD_TID
    let e := s.sbBase + 192 * (8 * st + tid)
    Answers (.sbOpen who v) s (fun u => u.sbWs st tid = s.get F.SQA_SB_SSN_SSN ∧ bit (u.sbNat st tid 0x80 2) 15 = true ∧
      u.sbNat st tid 0x82 2 = max 1 (min 1024 (fldOf v F.SQA_SB_UPD_WSIZE)) ∧ u.sbNat st tid 0 128 = 0 ∧
      u.sbNat st tid 0x98 8 = s.get F.SQA_SB_RO_ADDR / 8 * 8 ∧ u.prs = s.prs ∧ u.air = s.air ∧
      ∀ a, a < e ∨ e + 192 ≤ a → memByte u.gm a = memByte s.gm a) ∧
    (s.air.rx = [] → Answers (.sbClose who v) s (fun u => u.sbNat st tid 0x82 2 = 1 ∧ u.sbWs st tid = s.sbWs st tid ∧ u.prs = s.prs ∧
      ∀ a, a < e ∨ e + 192 ≤ a → memByte u.gm a = memByte s.gm a)) ∧
    (∀ f : RxFrame, s.air.rx = [f] → f.sta = st → f.tid = tid → f.st = 1 → f.prot = false → f.sn < 4096 →
      (f.sn + 4096 - s.sbWs st tid) % 4096 < 2048 → Answers (.sbClose who v) s (fun u => u.sbNat st tid 0x82 2 = 1 ∧ u.air.rx = [] ∧
        u.prs = { s.prs with input := s.prs.input ++ [{ f.pkt with ref := s.prs.nextRef }], nextRef := s.prs.nextRef + 1 } ∧
        ∀ a, a < e ∨ e + 192 ≤ a → memByte u.gm a = memByte s.gm a))) ∧
  (∀ (who : Fin 4) (n : Fin 3) (v : Word) (s : State), s.takes who.val 11 = true → s.linkTableOk n.val = true →
    (∀ k, 2 ≤ k → k < 8 → s.on (F.FEDS_LINK_STAT_UP k) = false) →
    (∀ m : Fin 3, s.sbBase + 0x300000 ≤ s.linkBase m.val ∨ s.linkBase m.val + 0x10000 ≤ s.sbBase) →
    let st := fldOf v (F.MX_LINK_UPD_STA n.val)
    let e := s.sbBase + 1536 * st
    let t := s.put (F.MX_LINK_UPD_STA n.val) st
    let a := s.linkBase n.val + 32 * st
    (t.linkRefused n.val = true → Completes (.linkUpdate who n v) s (t.put (F.MX_LINK_UPD_ERR n.val) 1)) ∧
    (t.linkRefused n.val = false → (s.linkPresent n.val st = true → bit (s.linkStage n.val 0) 0 = true) →
      Answers (.linkUpdate who n v) s (fun u => u.get (F.MX_LINK_UPD_ERR n.val) = 0 ∧ u.hts = s.hts ∧ u.air = s.air ∧
        (s.associated st = true ∨ u.associated st = false → ∀ k, k < 1536 → memByte u.gm (e + k) = memByte s.gm (e + k)) ∧
        (s.associated st = false → u.associated st = true → s.sbOk = true →
          ∀ k : Fin 8, u.sbNat st k.val 0x82 2 = 1 ∧ u.sbNat st k.val 0x80 2 = 0 ∧ u.sbNat st k.val 0 128 = 0) ∧
        (∀ k, k < 6 → u.linkNat n.val st (4 * k) 4 = s.linkStage n.val k) ∧
        ∀ b, (b < a ∨ a + 24 ≤ b) → (b < e ∨ e + 1536 ≤ b) → memByte u.gm b = memByte s.gm b))) ∧
  (∀ (who : Fin 4) (n : Fin 3) (v : Word) (s : State), s.takes who.val 11 = true →
    Settles (.linkUpdate who n v) s ((s.put (F.MX_LINK_UPD_STA n.val) (fldOf v (F.MX_LINK_UPD_STA n.val))).linkUpdate n.val).fabricCheck) ∧
  (∀ (n : Fin 3) (st : BitVec 11) (s : State), s.quiet = true →
    Settles (.qosNullEosp n st) s (s.qosNullEosp n.val st.toNat) ∧
    (s.radioHears n.val = true → Completes (.fcsFailReceive n) s (s.bump (F.MX_RXCNT_FCSERR n.val) 1)) ∧
    (s.radioHears n.val = false → Completes (.fcsFailReceive n) s s) ∧
    (((s.radio n.val).eosp.contains st.toNat && s.mayCommit n.val) = false → Completes (.qosNullEosp n st) s s) ∧
    ((s.radio n.val).eosp.contains st.toNat = true → s.mayCommit n.val = true → s.linkTableOk n.val = true → Answers (.qosNullEosp n st) s (fun u =>
      (u.radio n.val).eosp = (s.radio n.val).eosp.filter (· != st.toNat) ∧ u.hts = s.hts ∧
      u.linkPs n.val st.toNat = setBit (s.linkPs n.val st.toNat) 1 false))) ∧
  (∀ (n : Fin 3) (st : BitVec 11) (p : List Byte) (h : Husk) (j : HuskSta) (s : State), s.quiet = true →
    Settles (.soundingFeedback n st (some p)) s (s.soundingFeedback n.val st.toNat (some p)) ∧
    Settles (.soundingFeedback n st none) s (s.soundingFeedback n.val st.toNat none) ∧
    (s.soundingSlot n.val st.toNat = none → Completes (.soundingFeedback n st none) s s ∧ Completes (.soundingFeedback n st (some p)) s s) ∧
    (s.husk n.val 0 = some h → h.st = 3 → h.sounding = true → h.mpdus = [] → h.stas = [j] → j.sta = st.toNat → j.await = true →
      (s.radio n.val).csw = none →
      let e := s.linkNat n.val st.toNat 0x16 2 % 4096
      let g := if s.on (F.RF_SND_CFG_MU n.val) then s.get (F.RF_SND_CFG_GROUP n.val) else 0
      e ≠ 0 → Answers (.soundingFeedback n st (some p)) s (fun u => tabGet (fun _ => {}) (u.radio n.val).steer e = ⟨g, s.now, p⟩ ∧
        u.get (F.RF_SND_CNT_OK n.val) = (s.bump (F.RF_SND_CNT_OK n.val) 1).get (F.RF_SND_CNT_OK n.val) ∧
        u.husk n.val 0 = none ∧ (s.binStoreOk = true → bits (u.bin st.toNat n.val j.bin) 27 16 = e))))

/-- At a target beacon time of a MAC with power the DTIM count goes down and the armed beacon's window opens, or a beacon
not armed counts a failure; the beacon that wins the medium is sent with the fields the MAC fills and clears its run
of failures, but not while its sequencer is halted, an exchange or a channel switch is due, or the radio may not send;
a window that ends unsent counts a failure and the third in a row is starvation. An accepted parent beacon steps the
TSF and restarts the windows, an empty window counts one missed, and in a search the listening end takes the next
candidate and its channel while its beacon ends the search. (R211, R212, R213, R214, R225, R226, R227) -/
def Obligations.BeaconsAndBackhaul : Prop :=
  (∀ (n : Fin 3) (b : Fin 16) (s : State),
    Settles (.wifiTbtt n b) s (s.wifiTbtt n.val b.val) ∧ Settles (.wifiBeaconCommit n b) s (s.wifiBeaconCommit n.val b.val) ∧
    Settles (.beaconWindowEnd n b) s (s.beaconWindowEnd n.val b.val) ∧
    (s.quiet = true → (s.domOn 11 = false ∨ (0 < b.val ∧ s.on (F.MX_BSS_CFG_NONTX n.val b.val) = true)) →
      Completes (.wifiTbtt n b) s s) ∧
    (s.running 11 = true → (b = 0 ∨ s.on (F.MX_BSS_CFG_NONTX n.val b.val) = false) → (s.radio n.val).csw = none →
      (∀ w ∈ (s.radio n.val).bwin, w.1 ≠ b.val) →
      let x := s.radio n.val
      let t := s.nextTbtt n.val b.val
      let d := tabGet (fun _ => 0) x.dtim b.val
      let base := fun (u : State) => u.time = (s.until (s.tsfToTbm n.val t).toNat).time ∧ u.gm = s.gm ∧ u.hts = s.hts ∧
        tabGet (fun _ => 0) (u.radio n.val).tbtt b.val = t + 1 ∧ (u.radio n.val).armed = x.armed ∧
        (u.radio n.val).grpOn = x.grpOn.filter (· != b.val) ∧
        tabGet (fun _ => 0) (u.radio n.val).dtim b.val = if d = 0 then max 1 (s.get (F.MX_BSS_CFG_DTIM n.val b.val)) - 1 else d - 1
      (s.bssBeacons n.val b.val = false → Answers (.wifiTbtt n b) s (fun u => base u ∧ (u.radio n.val).bwin = x.bwin)) ∧
      (s.bssBeacons n.val b.val = true → x.armed.any (fun a => a.b == b.val) = true → Answers (.wifiTbtt n b) s (fun u => base u ∧
        (u.radio n.val).bwin = x.bwin ++ [(b.val, t + s.beaconLate n.val b.val)] ∧
        u.get (F.MX_BCN_RUN_FAILS n.val b.val) = s.get (F.MX_BCN_RUN_FAILS n.val b.val))) ∧
      (s.bssBeacons n.val b.val = true → x.armed.any (fun a => a.b == b.val) = false → s.get (F.MX_BCN_RUN_RUN n.val b.val) < 2 →
        Answers (.wifiTbtt n b) s (fun u => base u ∧ (u.radio n.val).bwin = x.bwin ∧
          u.get (F.MX_BCN_RUN_RUN n.val b.val) = s.get (F.MX_BCN_RUN_RUN n.val b.val) + 1 ∧
          u.get (F.MX_BCN_RUN_FAILS n.val b.val) = min 65535 (s.get (F.MX_BCN_RUN_FAILS n.val b.val) + 1))))) ∧
  (∀ (n : Fin 3) (b : Fin 16) (s : State), s.quiet = true →
    let x := s.radio n.val
    ((∀ w ∈ x.bwin, w.1 ≠ b.val) → Completes (.wifiBeaconCommit n b) s s ∧ Completes (.beaconWindowEnd n b) s s) ∧
    (s.beaconHeld n.val = true ∨ s.switching n.val = true ∨ s.radioOk n.val = false ∨ s.on (F.MX_CTL_TXOFF n.val) = true →
      Completes (.wifiBeaconCommit n b) s s)) ∧
  (∀ (n : Fin 3) (b : Fin 16) (a : Arm) (e : Nat) (s : State), s.quiet = true →
    let x := s.radio n.val
    let armed := x.armed.filter (fun a => a.b != b.val)
    let bwin := x.bwin.filter (fun w => w.1 != b.val)
    let run := s.get (F.MX_BCN_RUN_RUN n.val b.val)
    x.armed.find? (fun a => a.b == b.val) = some a → x.bwin.find? (fun w => w.1 == b.val) = some (b.val, e) →
    (s.switching n.val = false → s.beaconHeld n.val = false → s.radioOk n.val = true → s.on (F.MX_CTL_TXOFF n.val) = false →
      s.tsf n.val < e →
      let good := match a.slot with | some k => s.keyGen k == a.gen | none => true
      let behind := x.bwin.any (fun v => decide (v.1 < b.val) && v.2 - s.beaconLate n.val v.1 == e - s.beaconLate n.val b.val)
      (behind = true → Completes (.wifiBeaconCommit n b) s s) ∧
      (behind = false → good = true → Answers (.wifiBeaconCommit n b) s (fun u => (u.radio n.val).beacon = some (s.fillBeacon n.val a) ∧
        (u.radio n.val).bwin = bwin ∧ (u.radio n.val).armed = armed ∧ u.get (F.MX_BCN_RUN_RUN n.val b.val) = 0 ∧
        u.fbit (F.MX_BCN_STAT_STARVED n.val) b.val = false ∧ u.time = s.time ∧ u.gm = s.gm ∧ u.hts = s.hts)) ∧
      (behind = false → good = false → run < 2 → Answers (.wifiBeaconCommit n b) s (fun u =>
        (u.radio n.val).beacon = x.beacon ∧ (u.radio n.val).bwin = bwin ∧ (u.radio n.val).armed = armed ∧
        u.get (F.MX_BCN_RUN_RUN n.val b.val) = run + 1 ∧ u.gm = s.gm ∧ u.hts = s.hts))) ∧
    (let ended := fun (u : State) => (u.radio n.val).bwin = bwin ∧ (u.radio n.val).armed = armed ∧ u.gm = s.gm ∧ u.hts = s.hts ∧
       u.time = (s.until (s.tsfToTbm n.val e).toNat).time ∧ u.get (F.MX_BCN_RUN_RUN n.val b.val) = min 255 (run + 1) ∧
       u.get (F.MX_BCN_RUN_FAILS n.val b.val) = min 65535 (s.get (F.MX_BCN_RUN_FAILS n.val b.val) + 1) ∧
       (a.slot.isSome = true → a.gen ≠ 16 → u.get (F.SQ_PN_BURN_COUNT n.val) = (s.bump (F.SQ_PN_BURN_COUNT n.val) 1).get (F.SQ_PN_BURN_COUNT n.val))
     (run < 2 ∨ s.fbit (F.MX_BCN_STAT_STARVED n.val) b.val = true → Answers (.beaconWindowEnd n b) s ended) ∧
     (2 ≤ run → s.fbit (F.MX_BCN_STAT_STARVED n.val) b.val = false → s.countsOnly (33 + 8 * n.val) = true →
       Answers (.beaconWindowEnd n b) s (fun u => ended u ∧ u.fbit (F.MX_BCN_STAT_STARVED n.val) b.val = true ∧
         u.get (F.FLT_SRC_STICKY (33 + 8 * n.val)) = 1)))) ∧
  (∀ (t : Nat) (ts : BitVec 64) (s : State), s.quiet = true → s.on F.MXA_BH_CTL_UP = true → s.air.bh.report = false →
    let n := s.get F.MXA_BH_CFG_RADIO
    let v := (ts.toNat + Config.stampDelay n) % 2 ^ 64
    n < 3 → s.radioHears n = true → s.air.bh.anchor = none → s.time.tsfBase.length = 3 →
    Answers (.parentBeacon t ts) s (fun u => u.time.tbm = (s.until t).time.tbm ∧ u.tsf n = v ∧ u.get F.MXA_BH_CTL_MISSED = 0 ∧
      u.air.bh = { s.air.bh with anchor := some ts.toNat, k := 1 } ∧ u.gm = s.gm ∧ u.hts = s.hts ∧
      u.get F.MXA_BH_LAST_LAST = ofSigned 16 (max (-32767) (min 32767 (signed 64 (v + 2 ^ 64 - (s.until t).tsf n)))) ∧
      u.get F.MXA_BH_STAT_STEPS = (s.bump F.MXA_BH_STAT_STEPS 1).get F.MXA_BH_STAT_STEPS)) ∧
  (∀ (t : Nat) (ts : BitVec 64) (s : State),
    (s.radioHears (s.get F.MXA_BH_CFG_RADIO) = true → Settles (.parentBeacon t ts) s (s.parentStep (fun s => s.parentBeacon t ts.toNat))) ∧
    (s.domOn 11 = true → Settles .parentWindowEnd s (s.parentStep (fun s => s.parentWindowEnd)) ∧
      Settles .candidateListenEnd s s.candidateListenEnd) ∧
    (s.quiet = true →
      (s.radioHears (s.get F.MXA_BH_CFG_RADIO) = false ∨ (s.on F.MXA_BH_CTL_UP = false ∧ s.air.bh.report = false) →
        Completes (.parentBeacon t ts) s s) ∧
      (s.domOn 11 = false ∨ (s.air.bh.report = false ∧ (s.on F.MXA_BH_CTL_UP = false ∨ s.air.bh.anchor = none ∨ 3 < s.air.bh.k)) →
        Completes .parentWindowEnd s s) ∧
      (s.domOn 11 = false → Completes .candidateListenEnd s s))) ∧
  (∀ (a : Nat) (s : State), s.running 11 = true → s.air.bh.report = false → s.on F.MXA_BH_CTL_UP = true → s.air.bh.anchor = some a →
    s.air.bh.k ≤ 3 → s.get F.MXA_BH_CTL_MISSED < 2 → Answers .parentWindowEnd s (fun u =>
      u.time = (s.until (s.tsfToTbm (s.get F.MXA_BH_CFG_RADIO) (s.parentWindow a s.air.bh.k)).toNat).time ∧
      u.get F.MXA_BH_CTL_MISSED = s.get F.MXA_BH_CTL_MISSED + 1 ∧ u.air.bh = { s.air.bh with k := s.air.bh.k + 1 } ∧
      u.gm = s.gm ∧ u.hts = s.hts)) ∧
  (∀ (k : Nat) (s : State), s.running 11 = true →
    (s.air.bh.search = false → Completes .candidateListenEnd s s) ∧
    (s.air.bh.search = true → s.nextCandidate = some k → s.candRadio k = s.get F.MXA_BH_CFG_RADIO →
      s.candRadio k < 3 → (s.candidates.length ≤ s.air.bh.tried → s.countsOnly (68 + 32 * s.candRadio k) = true) →
      let r := s.candRadio k
      let there := s.get (F.RF_CHAN_PRIM r) == s.get (F.MXA_BH_CAND_CH_CH k) && s.get (F.RF_CHAN_BW r) == s.get (F.MXA_BH_CAND_CH_BW k)
        && s.get (F.RF_CHAN_CH320_2 r) == s.get (F.MXA_BH_CAND_CH_CH320_2 k)
      let tried := if s.candidates.length ≤ s.air.bh.tried then 0 else s.air.bh.tried
      Answers .candidateListenEnd s (fun u =>
        (s.candidates.length ≤ s.air.bh.tried → CountedOnce s u (68 + 32 * r)) ∧ u.time = (s.until s.air.bh.listenEnd).time ∧ u.get F.MXA_BH_CTL_CUR = k ∧
        u.get (F.RF_CHAN_PRIM (s.candRadio k)) = s.get (F.MXA_BH_CAND_CH_CH k) ∧
        u.get (F.RF_CHAN_BW (s.candRadio k)) = s.get (F.MXA_BH_CAND_CH_BW k) ∧
        u.get (F.RF_CHAN_CH320_2 (s.candRadio k)) = s.get (F.MXA_BH_CAND_CH_CH320_2 k) ∧
        u.air.bh = { s.air.bh with tried := tried + 1, listenEnd :=
          u.now + (if there then 0 else retuneNs r) + 3 * (max 1 (s.get (F.MXA_BH_CAND_CH_BI k)) * 1024) * 1000 } ∧ u.gm = s.gm))) ∧
  (∀ (t : Nat) (s : State), s.quiet = true →
    let heard := s.radioHears (s.get F.MXA_BH_CFG_RADIO) = true ∧ s.air.bh.search = true ∧ t < s.air.bh.listenEnd ∧
      s.air.bh.listenEnd ≤ t + 3 * s.bhInterval * 1000
    (heard → Completes (.candidateBeacon t) s
      { (s.until t).put F.MXA_BH_CTL_HEARD 1 with air := { s.air with bh := { s.air.bh with search := false } } }) ∧
    (¬ heard → Completes (.candidateBeacon t) s s))

/-- A frame that falls into an open LISTEN window ends the LISTEN with its code and RSSI. DATA in sequence is delivered
and NESN turns, a repeat is counted, and both are answered; a failing check value, a replayed counter or a node whose
link is down is counted and answered by nothing; ACK frees the pending frame; a POLL of a sleepy node on the home
channel is answered; ALERT, FLOOD and JOIN follow their own checks. Only the node's record changes in memory. A frame
that the window does not detect changes nothing, one with a bad CRC, TYPE or header counts CRC, a receive buffer that
fails is source 264, and a radio that hears nothing or has no window open does nothing. (R239, R240, R243, R250, R251,
R256, R260, R261, R262) -/
def Obligations.PipFrames : Prop :=
  (∀ (f : PipFrame) (node sd w0 w1 ch rate rep : Nat) (s : State), s.pipIndex f.addr.toNat = some node → node < 16384 →
    s.nodePresent node = true → s.pipHeld < 64 → f.sat = false →
    let l := s.nodeLink node
    let c := s.nodeCfg node
    let d := s.nodeBase + 64 * node
    let e := s.until (pipEndNs f)
    let p := (s.gainEnd f).air.pip
    let ans := fun (c : Bool) => if s.air.pip.bwin = none then { p with ex := .answer node (e.now + 500000) c 2 } else p
    let key := s.nodeNat node 8 2 % 8192
    let up := s.nodeNat node 0x1C 4
    let passes := if pipSec f = true then s.micOk f key = true ∧ up < f.ctr.toNat else bit c 4 = false
    let only := fun (u : State) => u.hts = s.hts ∧ u.xm = s.xm ∧ ∀ b, b < d ∨ d + 64 ≤ b → memByte u.gm b = memByte s.gm b
    let took := fun (u : State) => ListenEnds s u f 1 sd ∧ only u ∧ u.nodeNat node 0x28 8 = f.stamp.toNat ∧
      u.nodeNat node 0x38 1 = f.rssi.toNat ∧ u.nodeNat node 0x1C 4 = if pipSec f = true then f.ctr.toNat else up
    let fails := fun (cnt : Fld) (u : State) => ListenEnds s u f 2 sd ∧ u.gm = s.gm ∧ u.prs = s.prs ∧ u.air.pip = p ∧
      u.hts = s.hts ∧ u.get cnt = (s.bump cnt 1).get cnt
    (s.pipListens f 1 sd w0 w1 ch rate rep → bit l 0 = true →
      (s.nodeKind node = 0 → passes → f.body ≠ [] → bit l 3 = false →
        (f.fc.getLsbD 4 = bit l 2 → Answers (.pipData f .good true) s (fun u => took u ∧ Delivered s u (e.pipPacket f node 0) ∧
          u.nodeLink node = setBit l 2 (!bit l 2) ∧ u.air.pip = ans false)) ∧
        (f.fc.getLsbD 4 ≠ bit l 2 → Answers (.pipData f .good true) s (fun u => took u ∧ u.prs = s.prs ∧ u.nodeLink node = l ∧
          u.air.pip = ans false ∧
          u.get F.PIP_RXCNT2_DUP = (s.bump F.PIP_RXCNT2_DUP 1).get F.PIP_RXCNT2_DUP))) ∧
      ((if pipSec f = true then s.micOk f key = false else bit c 4 = true) →
        Answers (.pipData f .good true) s (fails F.PIP_RXCNT_MIC)) ∧
      (pipSec f = true → s.micOk f key = true → f.ctr.toNat ≤ up → Answers (.pipData f .good true) s (fails F.PIP_RXCNT2_RPLY))) ∧
    (s.pipListens f 1 sd w0 w1 ch rate rep → bit l 0 = false → Answers (.pipData f .good true) s (fails F.PIP_LCNT_UNKNOWN)) ∧
    (s.pipListens f 2 sd w0 w1 ch rate rep → bit l 0 = true → s.nodeKind node = 0 → passes → bit l 3 = true →
      (f.fc.getLsbD 5 ≠ bit l 1 → Answers (.pipAck f .good true) s (fun u => took u ∧ u.prs = s.prs ∧
        u.air.pip = { p with pending := s.air.pip.pending.filter (fun p => p.1 != node) } ∧
        u.nodeLink node = setBits (setBit (setBit l 3 false) 1 (!bit l 1)) 7 4 0)) ∧
      (f.fc.getLsbD 5 = bit l 1 → Answers (.pipAck f .good true) s (fun u => took u ∧ u.prs = s.prs ∧ u.air.pip = p ∧
        u.nodeLink node = l))) ∧
    (s.pipListens f 3 sd w0 w1 ch rate rep → bit l 0 = true → s.nodeKind node = 1 → passes → bit l 3 = false →
      Answers (.pipPoll f .good true) s (fun u => took u ∧ u.prs = s.prs ∧ u.nodeLink node = l ∧ u.air.pip =
        if ch = s.get F.PIP_HOME_CH then ans true else p)) ∧
    (s.pipListens f 4 sd w0 w1 ch rate rep → pipSec f = true → s.micOk f key = true → s.mode ≠ 4 →
      let al := s.nodeNat node 0x24 4
      (bit c 3 = false → Answers (.pipAlert f .good true) s (fails F.PIP_LCNT_UNKNOWN)) ∧
      (bit c 3 = true → f.ctr.toNat = al → Answers (.pipAlert f .good true) s (fun u => ListenEnds s u f 1 sd ∧ u.gm = s.gm ∧
        u.prs = s.prs ∧ u.get F.PIP_RXCNT2_DUP = (s.bump F.PIP_RXCNT2_DUP 1).get F.PIP_RXCNT2_DUP ∧
        u.air.pip = ans false)) ∧
      (bit c 3 = true → f.ctr.toNat ≠ al → f.ctr.toNat ≤ up → Answers (.pipAlert f .good true) s (fails F.PIP_RXCNT2_RPLY)) ∧
      (bit c 3 = true → f.ctr.toNat ≠ al → up < f.ctr.toNat → Answers (.pipAlert f .good true) s (fun u => ListenEnds s u f 1 sd ∧
        only u ∧ Delivered s u (e.pipPacket f node 0) ∧ u.nodeNat node 0x1C 4 = f.ctr.toNat ∧ u.nodeNat node 0x24 4 = f.ctr.toNat ∧
        u.nodeNat node 0x28 8 = f.stamp.toNat ∧ u.nodeLink node = l ∧
        u.air.pip = ans false))) ∧
    (s.pipListens f 5 sd w0 w1 ch rate rep → bit l 0 = true → pipSec f = true → s.micOk f key = true → e.seen f.addr.toNat f.ctr.toNat = false →
      (f.ctr.toNat ≤ up → Answers (.pipFlood f .good true) s (fails F.PIP_RXCNT2_RPLY)) ∧
      (up < f.ctr.toNat → s.air.pip.seen.length < 4096 → Answers (.pipFlood f .good true) s (fun u => took u ∧ u.nodeLink node = l ∧
        u.air.pip = { p with seen := s.air.pip.seen ++ [(f.addr.toNat, f.ctr.toNat, e.now)] } ∧
        if leNat (f.body.take 4) = s.get F.PIP_ADDR_ADDR ∨ leNat (f.body.take 4) = 0xFFFFFFFF then Delivered s u (e.pipPacket f node 0)
        else u.prs = s.prs))) ∧
    (s.pipListens f 6 sd w0 w1 ch rate rep → pipSec f = true → s.micOk f key = true → up < f.ctr.toNat →
      Answers (.pipJoin f .good true) s (fun u => ListenEnds s u f 1 sd ∧ u.gm = s.gm ∧ u.air.pip = p ∧
        Delivered s u (e.pipPacket f node (if bit l 0 = true then 2 else 0))))) ∧
  (∀ (f : PipFrame) (sd w0 w1 ch rate rep : Nat) (s : State), s.pipHeld < 64 → f.sat = false →
    let e := s.until (pipEndNs f)
    let p := (s.gainEnd f).air.pip
    (s.pipListens f 6 sd w0 w1 ch rate rep → s.pipIndex f.addr.toNat = none → Answers (.pipJoin f .good true) s (fun u =>
      ListenEnds s u f 1 sd ∧ u.gm = s.gm ∧ u.air.pip = p ∧ Delivered s u (e.pipPacket f 0 1))) ∧
    (s.pipListens f 5 sd w0 w1 ch rate rep → e.seen f.addr.toNat f.ctr.toNat = true → Answers (.pipFlood f .good true) s (fun u =>
      ListenEnds s u f 1 sd ∧ u.gm = s.gm ∧ u.air.pip = p ∧ u.prs = s.prs ∧
      u.get F.PIP_FLOOD_SEEN = (s.bump F.PIP_FLOOD_SEEN 1).get F.PIP_FLOOD_SEEN))) ∧
  (∀ (t sd w0 w1 ch rate rep : Nat) (rssi : BitVec 8) (s : State), s.quiet = true → s.radioHears 3 = true → s.air.pip.ex = .none →
    (s.seq 3).wait = some (.listen sd w0 w1 ch rate rep) → 0 < sd → sd < 32 → w0 ≤ t →
    (t < w1 → Answers (.pipFrameReject t rssi false) s (fun u => u.time = (s.until t).time ∧ (u.seq 3).wait = none ∧ u.gm = s.gm ∧
      u.prs = s.prs ∧ u.air.pip = s.air.pip ∧ u.get F.PIP_RX_STAT_RSSI = rssi.toNat ∧ u.reg 515 sd = BitVec.ofNat 64 (2 + 256 * rssi.toNat) ∧
      u.get F.PIP_RXCNT_CRC = (s.bump F.PIP_RXCNT_CRC 1).get F.PIP_RXCNT_CRC)) ∧
    (w1 ≤ t → Completes (.pipFrameReject t rssi false) s s)) ∧
  (∀ (f : PipFrame) (k : Check) (room sat : Bool) (t : Nat) (rssi : BitVec 8) (s : State),
    Settles (.pipData f k room) s (s.pipReceive 1 f k room).st ∧
    Settles (.pipAck f k room) s (s.pipReceive 2 f k room).st ∧
    Settles (.pipPoll f k room) s (s.pipReceive 3 f k room).st ∧
    Settles (.pipAlert f k room) s (s.pipAlert f k room) ∧
    Settles (.pipFlood f k room) s (s.pipReceive 5 f k room).st ∧
    Settles (.pipJoin f k room) s (s.pipReceive 6 f k room).st ∧
    Settles (.pipFrameReject t rssi sat) s (s.pipReject t rssi.toNat sat) ∧
    (s.quiet = true → s.radioHears 3 = false ∨ s.pipWindow t = none → Completes (.pipFrameReject t rssi sat) s s) ∧
    (s.quiet = true → s.radioHears 3 = false ∨ s.pipWindow f.stamp.toNat = none →
      Completes (.pipData f k room) s s ∧
      Completes (.pipAck f k room) s s ∧
      Completes (.pipPoll f k room) s s ∧
      Completes (.pipAlert f k room) s s ∧
      Completes (.pipFlood f k room) s s ∧
      Completes (.pipJoin f k room) s s)) ∧
  (∀ (f : PipFrame) (k : Check) (room : Bool) (sd w0 w1 ch rate rep : Nat) (s : State), s.quiet = true → s.radioHears 3 = true →
    pipType f = 1 → s.air.pip.ex = .none → (s.seq 3).wait = some (.listen sd w0 w1 ch rate rep) → w0 ≤ f.stamp.toNat →
    f.stamp.toNat < w1 → f.sat = false → 0 < sd → sd < 16 →
    let lost := fun (u : State) => ListenEnds s u f 2 sd ∧ u.gm = s.gm ∧ u.prs = s.prs ∧ u.hts = s.hts ∧ u.air.pip = (s.gainEnd f).air.pip
    (s.pipDetects f rate rep = false → Completes (.pipData f k room) s s) ∧
    (s.pipDetects f rate rep = true → pipFrameOk f = false → Answers (.pipData f k room) s (fun u => lost u ∧
      u.get F.PIP_RXCNT_CRC = (s.bump F.PIP_RXCNT_CRC 1).get F.PIP_RXCNT_CRC)) ∧
    (s.pipDetects f rate rep = true → pipFrameOk f = true → s.countsOnly 264 = true → Answers (.pipData f k false) s (fun u => lost u ∧
      CountedOnce s u 264)))

/-- The automatic answer is the pending frame or an ACK, and nothing where the radio may not send; none is sent where none
is owed; an answer that does not come ends the exchange and at the retry limit the link; an anchor moves EC and ANCHOR
on; supervision ends a connection with a NOTICE; the beacon's target time, its sending and its window follow the run
of failures; a beacon is not sent while its sequencer is halted, an exchange runs, the radio may not send or the
medium is busy; a seen key leaves after 30 s; with the domain off none of these events does anything. NODE_UPD
installs the staged record by its mode or sets ERR; plan and map take legal values only; EN starts and stops the
radio. (R242, R249, R252, R253, R254, R255, R256, R257, R258, R262, R272) -/
def Obligations.PipNodes : Prop :=
  (∀ (node : Fin 16384) (who : Fin 4) (v : Word) (ok : Bool) (s : State),
    let w := fun (conn merge : Nat) => ((s.put F.PIP_NODE_UPD_NODE (fldOf v F.PIP_NODE_UPD_NODE)).put F.PIP_NODE_UPD_CONN conn).put
      F.PIP_NODE_UPD_MERGE merge
    let t := (s.put F.PIP_CTL_TXOFF (fldOf v F.PIP_CTL_TXOFF)).put F.PIP_CTL_BAND (fldOf v F.PIP_CTL_BAND)
    Settles .pipAutoAnswer s s.autoAnswer ∧ Settles .pipTbtt s s.pipTbtt ∧ Settles .pipBeaconCommit s s.pipBeaconCommit ∧
    Settles .pipBeaconWindowEnd s s.pipBeaconWindowEnd ∧
    (s.domOn 5 = true → Settles .pipAnswerTimeout s s.answerTimeout ∧ Settles (.pipAnchor node) s (s.pipAnchor node.val) ∧
      Settles (.pipSupervisionTimeout node) s (s.supervision node.val) ∧ Settles .floodCacheExpiry s s.seenExpiry) ∧
    (s.quiet = true → s.domOn 5 = false → Completes .pipAnswerTimeout s s ∧ Completes (.pipAnchor node) s s ∧
      Completes (.pipSupervisionTimeout node) s s ∧ Completes .floodCacheExpiry s s ∧ Completes .pipTbtt s s) ∧
    (s.quiet = true → s.owesAnswer = false → Completes .pipAutoAnswer s s) ∧
    (s.quiet = true → s.awaitsAnswer = false → Completes .pipAnswerTimeout s s) ∧
    (s.takes who.val 5 = true → Settles (.nodeUpdate who v) s (w 0 0).nodeUpdate ∧
      Settles (.nodeUpdateConn who v) s (w 1 0).nodeUpdate ∧
      Settles (.nodeUpdateMerge who v) s (w (fldOf v F.PIP_NODE_UPD_CONN) 1).nodeUpdate ∧
      Settles (.pipEnable who v ok) s (t.pipEnable ok) ∧
      Settles (.pipDisable who v) s (if s.on F.PIP_CTL_EN then t.pipDisable else t))) ∧
  (∀ (node t slot : Nat) (choose : Bool) (s : State), s.quiet = true → s.air.pip.ex = .answer node t choose slot → slot = 2 →
    let may := s.radioOk 3 = true ∧ s.on F.PIP_CTL_TXOFF = false ∧ s.air.pip.txBad = false
    let again := bit (s.nodeLink node) 3 = false ∨ bits (s.nodeLink node) 7 4 < max 1 (s.get F.PIP_RETRY_LIMIT)
    let key := s.nodeNat node 8 2 % 8192
    let ctr := s.nodeNat node 0x20 4
    let c := s.nodeCfg node
    let d := s.nodeBase + 64 * node
    let e := s.until t
    let sends := fun (u : State) (m : List Byte) => u.air.pip.sent = m ∧ u.prs = s.prs ∧ u.hts = s.hts ∧
      u.air.pip.line = pipLine (max 16 (s.get F.PIP_TX_CFG_PRE)) (s.get F.PIP_SYNC_WORD) (bits c 8 7) (nums m) ∧
      u.air.pip.power = (min 60 (s.get F.PIP_TX_CFG_PWR) : Int) - 20 ∧
      u.nodeNat node 0x20 4 = ctr + 1 ∧ u.nodeNat node 0x30 8 = e.now % 2 ^ 64 ∧ u.nodeNat node 0 26 = s.nodeNat node 0 26 ∧
      ∀ b, b < d ∨ d + 64 ≤ b → memByte u.gm b = memByte s.gm b
    (¬ may → again → Completes .pipAutoAnswer s (e.setEx .none)) ∧
    (may → s.slotRefusal 6 key usePip = none → node < 16384 → s.nodeTableOk = true → s.nodeKind node ≠ 2 → ctr ≠ 0xFFFFFFFF →
      (choose = false → again → Answers .pipAutoAnswer s (fun u => sends u (s.nodeMpdu node 2 ctr key [] 0) ∧
        u.time = (e.until (e.now + s.pipDuration (bits c 6 5) (bits c 8 7) 16)).time ∧ u.nodeLink node = s.nodeLink node ∧
        u.air.pip.ex = .none ∧ u.air.pip.pending = s.air.pip.pending ∧
        u.get F.PIP_TXTIME_NS = (s.get F.PIP_TXTIME_NS + s.pipDuration (bits c 6 5) (bits c 8 7) 16) % 2 ^ 64)) ∧
      (∀ it : EgItem, choose = true → s.nodePending node = some it → (pipBody it).1 = 1 → (pipBody it).2 ≠ [] →
        let m := (pipBody it).2
        let fin := e.now + s.pipDuration (bits c 6 5) (bits c 8 7) (16 + m.length)
        let tb := if bits c 6 5 = 0 then 20000 else if bits c 6 5 = 1 then 10000 else 5000
        Answers .pipAutoAnswer s (fun u => sends u (s.nodeMpdu node 1 ctr key m 1) ∧ u.time = e.time ∧ u.air.pip.pending = s.air.pip.pending ∧
          u.nodeLink node = setBits (setBit (s.nodeLink node) 3 true) 7 4 (min 15 (bits (s.nodeLink node) 7 4 + 1)) ∧
          u.air.pip.ex = .await node 2 (fin + 450000) (fin + 600000 + (max 16 (s.get F.PIP_TX_CFG_PRE) + 32) * 2 ^ bits c 8 7 * tb))))) ∧
  (∀ (node slot lo hi : Nat) (it : EgItem) (s : State), s.running 5 = true → s.air.pip.ex = .await node slot lo hi → slot = 2 →
    let l := s.nodeLink node
    let d := s.nodeBase + 64 * node
    let e := s.until hi
    (bit l 3 = false ∨ bits l 7 4 < max 1 (s.get F.PIP_RETRY_LIMIT) → Completes .pipAnswerTimeout s (e.setEx .none)) ∧
    (bit l 3 = true → max 1 (s.get F.PIP_RETRY_LIMIT) ≤ bits l 7 4 → node < 16384 → s.nodeTableOk = true → s.air.pip.pending = [(node, it)] →
      s.husk 3 0 = none → s.husk 3 1 = none → s.hts.egress = [] →
      Answers .pipAnswerTimeout s (fun u => u.time = e.time ∧ Delivered s u (e.noticePacket node 2) ∧
        u.air.pip = { s.air.pip with ex := .none, pending := [] } ∧ bits (u.nodeLink node) 7 3 = 0 ∧ bit (u.nodeLink node) 0 = false ∧
        u.get F.PIP_TXDROP_RETRY = (s.bump F.PIP_TXDROP_RETRY 1).get F.PIP_TXDROP_RETRY ∧
        u.get F.PIP_QDROP_NOCONN = (s.bump F.PIP_QDROP_NOCONN 1).get F.PIP_QDROP_NOCONN ∧
        ∀ b, b < d + 0x1A ∨ d + 0x1C ≤ b → memByte u.gm b = memByte s.gm b))) ∧
  (∀ (node : Fin 16384) (s : State), s.running 5 = true →
    let n := node.val
    let on := s.nodePresent n = true ∧ s.nodeKind n = 0 ∧ s.nodeLive n = true
    let d := s.nodeBase + 64 * n
    let e := s.until (s.nodeNat n 0x28 8 + max 4 (min 64 (s.nodeNat n 0x0C 1)) * 1000000000)
    (¬ on → Completes (.pipAnchor node) s s ∧ Completes (.pipSupervisionTimeout node) s s) ∧
    (on → Answers (.pipAnchor node) s (fun u => u.time = (s.until (s.nodeAnchor n)).time ∧ u.air = s.air ∧ u.regs = s.regs ∧
      u.nodeNat n 0x10 8 = (s.nodeAnchor n + 1000000 * s.nodeNat n 0x0A 2) % 2 ^ 64 ∧ u.nodeNat n 0x18 2 = (s.nodeNat n 0x18 2 + 1) % 65536 ∧
      ∀ b, b < d + 0x10 ∨ d + 0x1A ≤ b → memByte u.gm b = memByte s.gm b)) ∧
    (on → s.air.pip.ex = .none → s.air.pip.pending = [] → s.husk 3 0 = none → s.husk 3 1 = none → s.hts.egress = [] →
      Answers (.pipSupervisionTimeout node) s (fun u => u.time = e.time ∧ Delivered s u (e.noticePacket n 1) ∧ u.air = s.air ∧
        bits (u.nodeLink n) 7 3 = 0 ∧ bit (u.nodeLink n) 0 = false ∧ u.get F.PIP_LCNT_STO = (s.bump F.PIP_LCNT_STO 1).get F.PIP_LCNT_STO ∧
        ∀ b, b < d + 0x1A ∨ d + 0x1C ≤ b → memByte u.gm b = memByte s.gm b))) ∧
  (∀ s : State, s.quiet = true →
    let p := s.air.pip
    let t := s.pipNextTbtt
    let run := s.get F.PIP_BCN_STAT_RUN
    let failed := fun (u : State) => u.gm = s.gm ∧ u.hts = s.hts ∧ u.get F.PIP_BCN_STAT_RUN = min 255 (run + 1) ∧
      u.get F.PIP_BCN_STAT_FAILS = min 65535 (s.get F.PIP_BCN_STAT_FAILS + 1)
    let starves := fun (u : State) => u.on F.PIP_BCN_STAT_STARVED = true ∧ u.get (F.FLT_SRC_STICKY 57) = 1
    let few := run < 2 ∨ s.on F.PIP_BCN_STAT_STARVED = true
    let may := s.radioOk 3 = true ∧ s.on F.PIP_CTL_TXOFF = false ∧ p.txBad = false ∧ s.beaconHeld 3 = false ∧ p.ex = .none ∧
      (s.on F.PIP_TX_CFG_LBT = false ∨ signed 8 (Config.pipRssi s.now % 256) < signed 8 (s.get F.PIP_TX_CFG_CCA_THR))
    (s.domOn 5 = false ∨ s.on F.PIP_BCN_CFG_EN = false → Completes .pipTbtt s s) ∧
    (s.domOn 5 = true → s.on F.PIP_BCN_CFG_EN = true → p.bwin = none →
      (∀ a : Arm, p.armed = some a → s.husk 3 0 = none → s.husk 3 1 = none → Answers .pipTbtt s (fun u => u.time = (s.until t).time ∧
        u.air.pip = { p with tbtt := t + 1, bwin := some (t + 1000000 * max 1 (s.get F.PIP_BCN_CFG_LATE)) } ∧ u.gm = s.gm ∧ u.hts = s.hts ∧
        u.get F.PIP_BCN_STAT_RUN = run ∧
        if s.on F.PIP_CHMAP_AT_GO = true ∧ a.pn % 65536 = s.get F.PIP_CHMAP_AT_AT then
          u.get F.PIP_CHMAP_MAP = s.get F.PIP_CHMAP_NEXT_MAP ∧ u.get F.PIP_CHMAP_AT_GO = 0
        else u.get F.PIP_CHMAP_MAP = s.get F.PIP_CHMAP_MAP ∧ u.get F.PIP_CHMAP_AT_GO = s.get F.PIP_CHMAP_AT_GO)) ∧
      (p.armed = none → few → Answers .pipTbtt s (fun u => failed u ∧ u.time = (s.until t).time ∧ u.air.pip = { p with tbtt := t + 1 }))) ∧
    ((p.bwin = none ∨ p.armed = none ∨ ¬ may → Completes .pipBeaconCommit s s) ∧
      (∀ (a : Arm) (x : Nat), p.bwin = some x → p.armed = some a → may →
        (x ≤ s.now → Completes .pipBeaconCommit s s) ∧
        (s.now < x → a.slot.any (fun k => s.keyGen k == a.gen) = true →
          let out : PipSt := { p with
            armed := none
            bwin := none
            beacon := []
            sent := p.beacon
            line := pipLine (max 16 (s.get F.PIP_TX_CFG_PRE)) (s.get F.PIP_SYNC_WORD) (s.get F.PIP_BCN_CFG_REP) (nums p.beacon)
            power := (min 60 (s.get F.PIP_TX_CFG_PWR) : Int) - 20 }
          Completes .pipBeaconCommit s ((((s.setPip out).put F.PIP_TXTIME_NS (s.get F.PIP_TXTIME_NS +
            s.pipDuration (s.get F.PIP_BCN_CFG_RATE) (s.get F.PIP_BCN_CFG_REP) p.beacon.length)).put F.PIP_BCN_STAT_RUN 0).put
            F.PIP_BCN_STAT_STARVED 0)) ∧
        (s.now < x → a.slot.any (fun k => s.keyGen k == a.gen) = false → few → Answers .pipBeaconCommit s (fun u => failed u ∧
          u.air.pip = { p with armed := none, bwin := none, beacon := [] })))) ∧
    (p.bwin = none → Completes .pipBeaconWindowEnd s s) ∧
    (∀ x : Nat, p.bwin = some x →
      let lapsed := fun (u : State) => failed u ∧ u.time = (s.until x).time ∧ u.air.pip = { p with armed := none, bwin := none, beacon := [] }
      (few → Answers .pipBeaconWindowEnd s lapsed) ∧
      (¬ few → s.countsOnly 57 = true → Answers .pipBeaconWindowEnd s (fun u => lapsed u ∧ starves u))) ∧
    (s.domOn 5 = true → (p.seen = [] → Completes .floodCacheExpiry s s) ∧
      (∀ (a c t : Nat) (l : List (Nat × Nat × Nat)), p.seen = (a, c, t) :: l →
        Completes .floodCacheExpiry s ((s.until (t + 30000000000)).setPip { p with seen := l })))) ∧
  (∀ (who : Fin 4) (v : Word) (s : State), s.takes who.val 5 = true →
    let n := fldOf v F.PIP_NODE_UPD_NODE
    let d := s.nodeBase + 64 * n
    let t := fun (conn merge : Nat) => ((s.put F.PIP_NODE_UPD_NODE n).put F.PIP_NODE_UPD_CONN conn).put F.PIP_NODE_UPD_MERGE merge
    let both := fldOf v F.PIP_NODE_UPD_CONN
    let keeps := bit (s.nodeStage 0) 0 = true ∨ s.nodePresent n = false
    let installs := fun (u : State) => u.get F.PIP_NODE_UPD_ERR = 0 ∧ u.nodeNat n 0 16 = s.stagedNat 0 16 ∧
      u.nodeNat n 0x38 8 = s.stagedNat 0x38 8 ∧ u.hts = s.hts ∧ u.air = s.air ∧ u.prs = s.prs
    let later := 0 < signed 16 (s.stagedNat 0x18 2 + 65536 - s.nodeNat n 0x18 2)
    ((t 0 0).nodeRefused n = true → Completes (.nodeUpdate who v) s ((t 0 0).put F.PIP_NODE_UPD_ERR 1)) ∧
    ((t 1 0).nodeRefused n = true → fldOf v F.PIP_NODE_UPD_MERGE = 0 → Completes (.nodeUpdateConn who v) s ((t 1 0).put F.PIP_NODE_UPD_ERR 1)) ∧
    ((t both 1).nodeRefused n = true → Completes (.nodeUpdateMerge who v) s ((t both 1).put F.PIP_NODE_UPD_ERR 1)) ∧
    ((t 0 0).nodeRefused n = false → keeps → Answers (.nodeUpdate who v) s (fun u => installs u ∧
      ∀ b, b < d ∨ (d + 16 ≤ b ∧ b < d + 0x38) ∨ d + 64 ≤ b → memByte u.gm b = memByte s.gm b)) ∧
    ((t 1 0).nodeRefused n = false → fldOf v F.PIP_NODE_UPD_MERGE = 0 → keeps → s.air.pip.pending = [] →
      Answers (.nodeUpdateConn who v) s (fun u => installs u ∧ u.nodeNat n 0x10 8 = s.stagedNat 0x10 8 ∧
        u.nodeNat n 0x18 2 = s.stagedNat 0x18 2 ∧ u.nodeLink n = 1 ∧ u.nodeNat n 0x1C 12 = s.stagedNat 0x1C 12 ∧
        u.nodeNat n 0x28 8 = s.now % 2 ^ 64 ∧
        ∀ b, b < d ∨ (d + 0x30 ≤ b ∧ b < d + 0x38) ∨ d + 64 ≤ b → memByte u.gm b = memByte s.gm b)) ∧
    ((t both 1).nodeRefused n = false → keeps → Answers (.nodeUpdateMerge who v) s (fun u => installs u ∧
      (∀ k, k < 3 → u.nodeNat n (0x1C + 4 * k) 4 = max (s.nodeNat n (0x1C + 4 * k) 4) (s.stagedNat (0x1C + 4 * k) 4)) ∧
      u.nodeNat n 0x10 8 = (if later then s.stagedNat 0x10 8 else s.nodeNat n 0x10 8) ∧
      u.nodeNat n 0x18 2 = (if later then s.stagedNat 0x18 2 else s.nodeNat n 0x18 2) ∧ u.nodeLink n = s.nodeLink n ∧
      ∀ b, b < d ∨ (d + 0x28 ≤ b ∧ b < d + 0x38) ∨ d + 64 ≤ b → memByte u.gm b = memByte s.gm b))) ∧
  (∀ (who : Fin 4) (v : Word) (s : State), s.takes who.val 5 = true →
    let f0 := fldOf v F.PIP_CHPLAN_F0
    let sp := fldOf v F.PIP_CHPLAN_SP
    let top := f0 + 1575 * max 1 sp
    let inside := if s.get F.PIP_CTL_BAND = 0 then 863000 ≤ f0 ∧ top ≤ 870000 else 902000 ≤ f0 ∧ top ≤ 928000
    let map := (tabGet (fun _ => 0) s.stage (0x100000000 * who.val + 0x400010)).toNat + 2 ^ 32 * v.toNat
    let t := (s.put F.PIP_CTL_TXOFF (fldOf v F.PIP_CTL_TXOFF)).put F.PIP_CTL_BAND (fldOf v F.PIP_CTL_BAND)
    (inside → Completes (.chplanWrite who v) s ((s.put F.PIP_CHPLAN_F0 f0).put F.PIP_CHPLAN_SP sp)) ∧
    (¬ inside → s.countsOnly 257 = true → Completes (.chplanWrite who v) s (s.counted 257)) ∧
    (map ≠ 0 → Completes (.chmapWrite who v) s (s.put F.PIP_CHMAP_MAP map)) ∧
    (map = 0 → s.countsOnly 257 = true → Completes (.chmapWrite who v) s (s.counted 257)) ∧
    Completes (.chmapChange who v) s ((s.put F.PIP_CHMAP_AT_AT (fldOf v F.PIP_CHMAP_AT_AT)).put F.PIP_CHMAP_AT_GO 1) ∧
    (s.on F.PIP_CTL_EN = true → Completes (.pipEnable who v true) s t) ∧
    (s.on F.PIP_CTL_EN = false → Completes (.pipEnable who v true) s ((t.put F.PIP_CTL_EN 1).setPip { s.air.pip with calFail := false, txBad := false })) ∧
    (s.on F.PIP_CTL_EN = false → s.countsOnly 260 = true → Completes (.pipEnable who v false) s
      (((t.put F.PIP_CTL_EN 1).setPip { s.air.pip with calFail := true, txBad := false }).counted 260)) ∧
    (s.on F.PIP_CTL_EN = false → Completes (.pipDisable who v) s t) ∧
    (s.on F.PIP_CTL_EN = true → s.husk 3 0 = none → s.husk 3 1 = none → Completes (.pipDisable who v) s (t.put F.PIP_CTL_EN 0)))

/-- BIN and TRIG of SQP, and GAIN and LISTEN of SQA, SQB and SQC, that issue normally raise ILLEGAL, whatever their
operands; what raising it does to a sequencer with no husk and no window set follows: it halts with CAUSE 1, EXC 1 and
the word address of the instruction, its pc and registers stand, and its source is counted. (R62) -/
def Obligations.WrongSequencer : Prop :=
  (∀ (i : Issue) (sd sa sb : BitVec 5) (slot : Fin 2) (s : State), i.who = .seq 3 → Issues s i .s [sd, sa, sb] →
    exec (.bin i sd sa sb) s = done (s.exception (.seq 3) .illegal) ∧
    exec (.trig i sd sa sb slot) s = done (s.exception (.seq 3) .illegal)) ∧
  (∀ (q : Fin 4) (i : Issue) (sd sa : BitVec 5) (step : Fin 8) (fromReg : Bool) (s : State), q ≠ 3 → i.who = .seq q →
    Issues s i .s [sd, sa] → exec (.gain i sd sa step fromReg) s = done (s.exception (.seq q) .illegal)) ∧
  (∀ (q : Fin 4) (i : Issue) (sd sa sb : BitVec 5) (rate rep : Fin 4) (s : State), q ≠ 3 → i.who = .seq q →
    Issues s i .s [sd, sa, sb] → exec (.listen i sd sa sb rate rep) s = done (s.exception (.seq q) .illegal)) ∧
  (∀ (q : Fin 4) (s : State), s.quiet = true → q.val < s.seqs.length → s.husk q.val 0 = none → s.husk q.val 1 = none →
    (s.sqa q.val).window = [] → s.countsOnly (32 + 8 * q.val) = true →
    let u := (s.exception (.seq q) .illegal).settle
    u.on (F.SQ_CTL_HALTED q.val) = true ∧ u.get (F.SQ_CTL_CAUSE q.val) = 1 ∧
      u.get (F.SQ_CTL_EXC q.val) = 1 ∧ u.get (F.SQ_HALT_PC_PC q.val) = (s.seq q.val).pc / 4 % 2 ^ 14 ∧
      (u.seq q.val).pc = (s.seq q.val).pc ∧ (u.seq q.val).wait = none ∧ (u.seq q.val).halting = none ∧ u.yal.g = s.yal.g ∧
      u.get (F.FLT_SRC_STICKY (32 + 8 * q.val)) = 1 ∧ u.gm = s.gm ∧ u.sd = s.sd)

/-- Where commands wait, a step is the first one's effect on the state with the queue's rest. Where none waits (the
model's choice, log entry 6) and nothing is unreported, TBM advances by one tick of its clock, the pins follow the
state, and nothing else changes. (R103, R553) -/
def Obligations.StepRunsFront : Prop :=
  (∀ (c : Instr) (rest : List Instr) (s : State), s.pending = c :: rest → step s = exec c { s with pending := rest }) ∧
  (∀ s : State, s.pending = [] → s.quiet = true →
    let d := if s.on F.TIME_CLK_STAT_SRC = true then 30517 * 2 ^ 32 + 0x94000000 else 2 ^ 32
    step s = .next ({ s with time := { s.time with tbm := s.time.tbm + d } } : State).close)

/-- After reset no command waits and nothing is unreported, the mode is Sprout, its boot is at its first step, FAULT_N and
SUP_EN are low, TBM is 0, no source stands at a level, and every volatile memory is as a part's that nothing has
written (the model's choice of zeros, log entry 1). (R22, R481, R497, R530) -/
def Obligations.ResetState : Prop :=
  State.reset.pending = [] ∧ State.reset.quiet = true ∧ State.reset.mode = 1 ∧ State.reset.ctl.boot = some 1 ∧
  State.reset.pins.faultN = false ∧ State.reset.pins.supEn = false ∧ State.reset.faultNLow = true ∧ State.reset.supEn = false ∧
  State.reset.time.tbm = 0 ∧ (∀ n, n < 640 → State.reset.level n = 0) ∧ State.reset.acn.bad = 0 ∧
  State.reset.gm = [] ∧ State.reset.xm = [] ∧ State.reset.sd = [] ∧ State.reset.yal.lm = [] ∧ State.reset.yal.cm = []

/-- After every step, from whatever state, FAULT_N is low exactly while a source stands at L2 or L3, in Sprout hold, in
Limp, Dump and Fault Hold, and during reset, which for this pin lasts to step 7 of the boot. (R481) -/
def Obligations.FaultPin : Prop :=
  ∀ s t : State, step s = .next t → (t.pins.faultN = false ↔
    (∃ n, n < 640 ∧ (t.level n = 2 ∨ t.level n = 3)) ∨ t.on F.PWR_STAT_HOLD = true ∨ t.mode = 2 ∨ t.mode = 0xA ∨ t.mode = 0xB ∨
      t.ctl.boot.isSome = true)

/-- Every command, with every operand and in every state, completes in a next state with nothing unreported; no command is
refused and none faults. From every state, whatever command stands in front, a step goes on; it leaves no occurrence
unreported and no halt outstanding, so that the conditions of the other statements hold again, and SUP_EN at the level
of its rules: low in Retain and Off, in the last step of an entry to them, and in a boot before its regulator stage or
after a fuse error. (R47, R466, R477, R518, R526) -/
def Obligations.StepsEnd : Prop :=
  (∀ (c : Instr) (s : State), ∃ t, exec c s = .next t ∧ t.quiet = true ∧ t.acn.bad = 0) ∧
  ∀ s : State, ∃ t, step s = .next t ∧ t.quiet = true ∧ t.acn.bad = 0 ∧
    (t.pins.supEn = true ↔ t.mode ≠ 3 ∧ t.mode ≠ 0 ∧
      (∀ e : Entry, t.ctl.entry = some e → ¬ (e.step = 4 ∧ (e.target = 3 ∨ e.target = 0))) ∧
      (match t.ctl.boot with | some k => 6 ≤ k | none => t.on F.SEC_BOOT_STAT_FUSEERR = false))
end

