-- ==== Sys2Proof/Laws/Bits.lean ====
section
/-! SUPPORT. The laws of bit fields: what a field reads after a field is set, its own or another. -/

namespace Sys2Proof.Machine

theorem setBits_eq (v hi lo x : Nat) (h : lo ≤ hi) :
    setBits v hi lo x = 2 ^ lo * (2 ^ (hi + 1 - lo) * (v / 2 ^ (hi + 1)) + x % 2 ^ (hi + 1 - lo)) + v % 2 ^ lo := by
  have e : 2 ^ (hi + 1) = 2 ^ lo * 2 ^ (hi + 1 - lo) := by rw [← Nat.pow_add]; congr 1; omega
  unfold setBits
  rw [Nat.mul_add, ← Nat.mul_assoc, ← e, Nat.mul_comm (2 ^ (hi + 1)), Nat.mul_comm (2 ^ lo)]

/-- Each bit after a field was set: the field's from the new value, the others as before. -/
theorem testBit_setBits (v hi lo x i : Nat) (h : lo ≤ hi) :
    (setBits v hi lo x).testBit i = if lo ≤ i ∧ i ≤ hi then x.testBit (i - lo) else v.testBit i := by
  rw [setBits_eq v hi lo x h, Nat.testBit_two_pow_mul_add _ (Nat.mod_lt _ (Nat.two_pow_pos _))]
  split
  · next hi' => rw [Nat.testBit_mod_two_pow]; simp [hi', show ¬ lo ≤ i by omega]
  · next hi' =>
    rw [Nat.testBit_two_pow_mul_add _ (Nat.mod_lt _ (Nat.two_pow_pos _))]
    split
    · next hw => rw [Nat.testBit_mod_two_pow]; simp [hw, show lo ≤ i ∧ i ≤ hi by omega]
    · next hw =>
      rw [Nat.testBit_div_two_pow, if_neg (by omega)]
      congr 1; omega

theorem testBit_bits (v hi lo i : Nat) : (bits v hi lo).testBit i = (decide (i < hi + 1 - lo) && v.testBit (lo + i)) := by
  rw [bits, Nat.testBit_mod_two_pow, Nat.testBit_div_two_pow, Nat.add_comm i lo]

/-- A field read after it was set: the low bits of the value. -/
@[simp] theorem bits_setBits_self (v hi lo x : Nat) (h : lo ≤ hi) :
    bits (setBits v hi lo x) hi lo = x % 2 ^ (hi + 1 - lo) := by
  refine Nat.eq_of_testBit_eq fun i => ?_
  rw [testBit_bits, testBit_setBits _ _ _ _ _ h, Nat.testBit_mod_two_pow]
  by_cases hi' : i < hi + 1 - lo
  · simp [hi', show lo ≤ lo + i ∧ lo + i ≤ hi by omega]
  · simp [hi']

/-- A field read after another, disjoint field was set: as before. -/
theorem bits_setBits_ne (v hi lo x hi' lo' : Nat) (h : lo ≤ hi) (d : hi' < lo ∨ hi < lo') :
    bits (setBits v hi lo x) hi' lo' = bits v hi' lo' := by
  refine Nat.eq_of_testBit_eq fun i => ?_
  rw [testBit_bits, testBit_bits, testBit_setBits _ _ _ _ _ h]
  by_cases hi'' : i < hi' + 1 - lo'
  · simp [hi'', show ¬ (lo ≤ lo' + i ∧ lo' + i ≤ hi) by omega]
  · simp [hi'']

theorem bits_lt (v hi lo : Nat) : bits v hi lo < 2 ^ (hi + 1 - lo) := Nat.mod_lt _ (Nat.two_pow_pos _)

theorem setBits_lt (v hi lo x n : Nat) (h : lo ≤ hi) (hn : hi < n) (hv : v < 2 ^ n) : setBits v hi lo x < 2 ^ n := by
  refine Nat.lt_pow_two_of_testBit _ fun i hi' => ?_
  rw [testBit_setBits _ _ _ _ _ h, if_neg (by omega)]
  exact Nat.testBit_lt_two_pow (Nat.lt_of_lt_of_le hv (Nat.pow_le_pow_right (by omega) hi'))

/-- One bit set or cleared reads so; the others as before. -/
theorem bit_eq_testBit (v i : Nat) : bit v i = v.testBit i := by
  rw [bit, Nat.testBit_eq_decide_div_mod_eq]; rfl

theorem bit_setBit_self (v i : Nat) (b : Bool) : bit (setBit v i b) i = b := by
  rw [bit_eq_testBit, setBit, testBit_setBits _ _ _ _ _ (Nat.le_refl i), if_pos ⟨Nat.le_refl i, Nat.le_refl i⟩]
  cases b <;> simp

theorem bit_setBit_ne (v i j : Nat) (b : Bool) (h : j ≠ i) : bit (setBit v i b) j = bit v j := by
  rw [bit_eq_testBit, bit_eq_testBit, setBit, testBit_setBits _ _ _ _ _ (Nat.le_refl i), if_neg (by omega)]

end Sys2Proof.Machine
end

