-- ==== Sys2Proof/Laws/Tab.lean ====
section
/-! SUPPORT. The laws of tables and memories: reading after writing, and the canonical form that every write keeps. -/

namespace Sys2Proof.Machine

section
variable {α : Type} (d : Nat → α)

theorem tabGet_tabDel_self (k : Nat) (t : Tab α) : tabGet d (tabDel k t) k = d k := by
  induction t with
  | nil => rfl
  | cons e t ih =>
    unfold tabDel; split
    · exact ih
    · next h => simp [tabGet, Ne.symm h, ih]

theorem tabGet_tabDel_ne {j k : Nat} (h : j ≠ k) (t : Tab α) : tabGet d (tabDel k t) j = tabGet d t j := by
  induction t with
  | nil => rfl
  | cons e t ih =>
    unfold tabDel; split
    · next he => simp [tabGet, he, h, ih]
    · simp [tabGet, ih]

theorem tabGet_tabIns_self (k : Nat) (v : α) (t : Tab α) (h : ∀ e ∈ t, e.1 ≠ k) : tabGet d (tabIns k v t) k = v := by
  induction t with
  | nil => simp [tabIns, tabGet]
  | cons e t ih =>
    have he : k ≠ e.1 := fun x => h e (by simp) x.symm
    unfold tabIns; split
    · simp [tabGet]
    · simp only [tabGet, he, if_false]; exact ih fun e m => h e (by simp [m])

theorem tabGet_tabIns_ne {j k : Nat} (h : j ≠ k) (v : α) (t : Tab α) : tabGet d (tabIns k v t) j = tabGet d t j := by
  induction t with
  | nil => simp [tabIns, tabGet, h]
  | cons e t ih =>
    unfold tabIns; split
    · simp [tabGet, h]
    · simp [tabGet, ih]

theorem tabDel_keys (k : Nat) (t : Tab α) : ∀ e ∈ tabDel k t, e ∈ t ∧ e.1 ≠ k := by
  induction t with
  | nil => simp [tabDel]
  | cons e t ih =>
    unfold tabDel; split
    · intro x hx; exact ⟨by simp [(ih x hx).1], (ih x hx).2⟩
    · next h =>
      intro x hx
      rcases List.mem_cons.1 hx with rfl | hx
      · exact ⟨by simp, h⟩
      · exact ⟨by simp [(ih x hx).1], (ih x hx).2⟩

variable [DecidableEq α]

/-- A key read after it was written holds the value written. -/
@[simp] theorem tabGet_tabSet_self (t : Tab α) (k : Nat) (v : α) : tabGet d (tabSet d t k v) k = v := by
  unfold tabSet; split
  · next h => rw [tabGet_tabDel_self, h]
  · exact tabGet_tabIns_self d k v _ fun e m => (tabDel_keys k t e m).2

/-- A write leaves every other key alone. -/
theorem tabGet_tabSet_ne {j k : Nat} (h : j ≠ k) (t : Tab α) (v : α) : tabGet d (tabSet d t k v) j = tabGet d t j := by
  unfold tabSet; split
  · exact tabGet_tabDel_ne d h t
  · rw [tabGet_tabIns_ne d h, tabGet_tabDel_ne d h]

omit [DecidableEq α] in
theorem tabAbove_iff (k : Nat) (t : Tab α) (h : t.Pairwise (fun a b => a.1 < b.1)) :
    tabAbove k t = true ↔ ∀ e ∈ t, k < e.1 := by
  cases t with
  | nil => simp [tabAbove]
  | cons e t =>
    simp only [tabAbove, decide_eq_true_eq, List.mem_cons, forall_eq_or_imp]
    exact ⟨fun hk => ⟨hk, fun x hx => Nat.lt_trans hk ((List.pairwise_cons.1 h).1 x hx)⟩, fun hk => hk.1⟩

/-- The canonical form: keys strictly rising, and no entry equal to its default. -/
theorem tabWf_iff (t : Tab α) :
    tabWf d t = true ↔ t.Pairwise (fun a b => a.1 < b.1) ∧ ∀ e ∈ t, e.2 ≠ d e.1 := by
  induction t with
  | nil => simp [tabWf]
  | cons e t ih =>
    simp only [tabWf, Bool.and_eq_true, decide_eq_true_eq, ih, List.pairwise_cons, List.mem_cons, forall_eq_or_imp]
    constructor
    · rintro ⟨⟨h1, h2⟩, h3, h4⟩; exact ⟨⟨(tabAbove_iff _ _ h3).1 h2, h3⟩, h1, h4⟩
    · rintro ⟨⟨h2, h3⟩, h1, h4⟩; exact ⟨⟨h1, (tabAbove_iff _ _ h3).2 h2⟩, h3, h4⟩

omit [DecidableEq α] in
theorem tabDel_pairwise (k : Nat) (t : Tab α) (h : t.Pairwise (fun a b => a.1 < b.1)) :
    (tabDel k t).Pairwise (fun a b => a.1 < b.1) := by
  induction t with
  | nil => simp [tabDel]
  | cons e t ih =>
    have h' := List.pairwise_cons.1 h
    unfold tabDel; split
    · exact ih h'.2
    · exact List.pairwise_cons.2 ⟨fun x hx => h'.1 x (tabDel_keys k t x hx).1, ih h'.2⟩

omit [DecidableEq α] in
theorem tabIns_mem (k : Nat) (v : α) (t : Tab α) : ∀ e ∈ tabIns k v t, e = (k, v) ∨ e ∈ t := by
  induction t with
  | nil => simp [tabIns]
  | cons e t ih =>
    unfold tabIns; split
    · intro x hx; simpa using hx
    · intro x hx
      rcases List.mem_cons.1 hx with rfl | hx
      · simp
      · rcases ih x hx with h | h <;> simp [h]

omit [DecidableEq α] in
theorem tabIns_pairwise (k : Nat) (v : α) (t : Tab α) (h : t.Pairwise (fun a b => a.1 < b.1))
    (hk : ∀ e ∈ t, e.1 ≠ k) : (tabIns k v t).Pairwise (fun a b => a.1 < b.1) := by
  induction t with
  | nil => simp [tabIns]
  | cons e t ih =>
    have h' := List.pairwise_cons.1 h
    unfold tabIns; split
    · next hlt =>
      refine List.pairwise_cons.2 ⟨fun x hx => ?_, h⟩
      rcases List.mem_cons.1 hx with rfl | hx
      · exact hlt
      · exact Nat.lt_trans hlt (h'.1 x hx)
    · next hge =>
      refine List.pairwise_cons.2 ⟨fun x hx => ?_, ih h'.2 fun x hx => hk x (by simp [hx])⟩
      have := hk e (by simp)
      rcases tabIns_mem k v t x hx with rfl | hx
      · simp only; omega
      · exact h'.1 x hx

/-- Every write keeps the canonical form. -/
theorem tabWf_tabSet (t : Tab α) (k : Nat) (v : α) (h : tabWf d t = true) : tabWf d (tabSet d t k v) = true := by
  rw [tabWf_iff] at h ⊢
  have hp := tabDel_pairwise k t h.1
  have hd : ∀ e ∈ tabDel k t, e.2 ≠ d e.1 := fun e m => h.2 e (tabDel_keys k t e m).1
  unfold tabSet; split
  · exact ⟨hp, hd⟩
  · next hv =>
    refine ⟨tabIns_pairwise k v _ hp fun e m => (tabDel_keys k t e m).2, fun e m => ?_⟩
    rcases tabIns_mem k v _ e m with rfl | m
    · exact hv
    · exact hd e m

end

/-! ### Memories -/

/-- A memory is in canonical form. -/
abbrev memWf (m : Mem) : Bool := tabWf memDflt m

@[simp] theorem memByte_memPut_self (m : Mem) (a : Nat) (b : Byte) : memByte (memPut m a b) a = b :=
  tabGet_tabSet_self memDflt m a b

theorem memByte_memPut_ne {a j : Nat} (h : j ≠ a) (m : Mem) (b : Byte) : memByte (memPut m a b) j = memByte m j :=
  tabGet_tabSet_ne memDflt h m b

theorem memWf_memPut (m : Mem) (a : Nat) (b : Byte) (h : memWf m = true) : memWf (memPut m a b) = true :=
  tabWf_tabSet memDflt m a b h

/-- A store leaves every byte outside it as it was. -/
theorem memByte_memPutBytes_out (l : List Byte) (m : Mem) (a j : Nat) (h : j < a ∨ a + l.length ≤ j) :
    memByte (memPutBytes m a l) j = memByte m j := by
  induction l generalizing m a with
  | nil => rfl
  | cons b l ih =>
    simp only [List.length_cons] at h
    rw [memPutBytes, ih _ _ (by omega), memByte_memPut_ne (by omega)]

/-- A store leaves its own bytes. -/
theorem memByte_memPutBytes_in (l : List Byte) (m : Mem) (a i : Nat) (h : i < l.length) :
    memByte (memPutBytes m a l) (a + i) = l[i] := by
  induction l generalizing m a i with
  | nil => simp at h
  | cons b l ih =>
    cases i with
    | zero => rw [memPutBytes, memByte_memPutBytes_out _ _ _ _ (by omega)]; simp
    | succ i =>
      have := ih (memPut m a b) (a + 1) i (by simpa using h)
      rw [memPutBytes, show a + (i + 1) = a + 1 + i by omega, this]; rfl

/-- Every store keeps the canonical form. -/
theorem memWf_memPutBytes (l : List Byte) (m : Mem) (a : Nat) (h : memWf m = true) :
    memWf (memPutBytes m a l) = true := by
  induction l generalizing m a with
  | nil => exact h
  | cons b l ih => exact ih _ _ (memWf_memPut m a b h)

theorem memBytes_length (m : Mem) (a n : Nat) : (memBytes m a n).length = n := by
  induction n generalizing a with
  | zero => rfl
  | succ n ih => simp [memBytes, ih]

/-- Bytes read back after they were stored. -/
@[simp] theorem memBytes_memPutBytes (l : List Byte) (m : Mem) (a : Nat) :
    memBytes (memPutBytes m a l) a l.length = l := by
  have key : ∀ (n : Nat) (m' : Mem) (b : Nat) (l' : List Byte), l'.length = n →
      (∀ i (h : i < l'.length), memByte m' (b + i) = l'[i]) → memBytes m' b n = l' := by
    intro n
    induction n with
    | zero => intro m' b l' hl _; simp [memBytes, List.length_eq_zero_iff.1 hl]
    | succ n ih =>
      intro m' b l' hl h
      cases l' with
      | nil => simp at hl
      | cons x l' =>
        have h0 := h 0 (by simp)
        simp only [memBytes, Nat.add_zero, List.getElem_cons_zero] at h0 ⊢
        rw [h0, ih m' (b + 1) l' (by simpa using hl)]
        intro i hi
        have := h (i + 1) (by simpa using hi)
        rw [show b + 1 + i = b + (i + 1) by omega, this]; rfl
  exact key _ _ _ _ rfl fun i h => memByte_memPutBytes_in l m a i h

end Sys2Proof.Machine
end

