-- ==== Sys2Proof/Laws/Regs.lean ====
section
/-! SUPPORT. The laws of the register file: a field read after a field is written. -/

namespace Sys2Proof.Machine

@[simp] theorem State.word_setWord_self (s : State) (a : Nat) (v : Word) : (s.setWord a v).word a = v :=
  tabGet_tabSet_self regReset s.regs a v

theorem State.word_setWord_ne {a b : Nat} (h : b ≠ a) (s : State) (v : Word) : (s.setWord a v).word b = s.word b :=
  tabGet_tabSet_ne regReset h s.regs v

theorem State.wide_lt (s : State) (a n : Nat) : s.wide a n < 2 ^ (32 * n) := by
  induction n generalizing a with
  | zero => simp [State.wide]
  | succ n ih =>
    have h1 := ih (a + 4)
    have h2 := (s.word a).isLt
    have e : 2 ^ (32 * (n + 1)) = 2 ^ 32 * 2 ^ (32 * n) := by rw [← Nat.pow_add]; congr 1; omega
    rw [State.wide, e]
    generalize 2 ^ (32 * n) = M at *
    omega

/-- A register's words are its low words and the words above them. -/
theorem State.wide_split (s : State) (a n k : Nat) :
    s.wide a (n + k) = s.wide a n + 2 ^ (32 * n) * s.wide (a + 4 * n) k := by
  induction n generalizing a with
  | zero => simp [State.wide]
  | succ n ih =>
    rw [show n + 1 + k = (n + k) + 1 by omega, State.wide, State.wide, ih,
      show a + 4 + 4 * n = a + 4 * (n + 1) by omega,
      show 2 ^ (32 * (n + 1)) = 2 ^ 32 * 2 ^ (32 * n) by rw [← Nat.pow_add]; congr 1; omega]
    rw [Nat.mul_add, ← Nat.mul_assoc, Nat.add_assoc]

theorem State.wide_setWord_out (s : State) (a b n : Nat) (v : Word) (h : b < a ∨ a + 4 * n ≤ b) :
    (s.setWord b v).wide a n = s.wide a n := by
  induction n generalizing a with
  | zero => rfl
  | succ n ih =>
    rw [State.wide, State.wide, ih (a + 4) (by omega), State.word_setWord_ne (by omega)]

/-- Words outside those written read as before. -/
theorem State.wide_setWide_out (s : State) (a n b m v : Nat) (h : b + 4 * m ≤ a ∨ a + 4 * n ≤ b) :
    (s.setWide b m v).wide a n = s.wide a n := by
  induction m generalizing s b v with
  | zero => rfl
  | succ m ih =>
    rw [State.setWide, ih _ _ _ (by omega)]
    cases n with
    | zero => rfl
    | succ n => exact State.wide_setWord_out s a b (n + 1) _ (by omega)

/-- The words written read as the number written. -/
theorem State.wide_setWide_self (s : State) (a n v : Nat) : (s.setWide a n v).wide a n = v % 2 ^ (32 * n) := by
  induction n generalizing s a v with
  | zero => simp [State.wide, Nat.mod_one]
  | succ n ih =>
    rw [State.setWide, State.wide, ih]
    have : ((s.setWord a (BitVec.ofNat 32 v)).setWide (a + 4) n (v / 2 ^ 32)).word a = BitVec.ofNat 32 v := by
      have h := State.wide_setWide_out (s.setWord a (BitVec.ofNat 32 v)) a 1 (a + 4) n (v / 2 ^ 32) (by omega)
      simp only [State.wide, Nat.mul_zero, Nat.add_zero, State.word_setWord_self] at h
      exact BitVec.eq_of_toNat_eq h
    rw [this, BitVec.toNat_ofNat, show 32 * (n + 1) = 32 + 32 * n by omega, Nat.pow_add, Nat.mod_mul]

/-- The value of a register after its low words were written. -/
theorem State.wide_setWide_low (s : State) (a n k v : Nat) :
    (s.setWide a n v).wide a (n + k) = v % 2 ^ (32 * n) + 2 ^ (32 * n) * s.wide (a + 4 * n) k := by
  rw [State.wide_split, State.wide_setWide_self, State.wide_setWide_out _ _ _ _ _ _ (by omega)]

/-- A field may be read from as many words as hold it. -/
theorem State.get_eq (s : State) (f : Fld) (N : Nat) (h : f.hi < 32 * N) : s.get f = bits (s.wide f.addr N) f.hi f.lo := by
  obtain ⟨k, rfl⟩ : ∃ k, N = f.hi / 32 + 1 + k := ⟨N - (f.hi / 32 + 1), by omega⟩
  refine Nat.eq_of_testBit_eq fun i => ?_
  rw [State.get, testBit_bits, testBit_bits, State.wide_split s f.addr (f.hi / 32 + 1) k,
    Nat.add_comm (s.wide _ _), Nat.testBit_two_pow_mul_add _ (State.wide_lt _ _ _)]
  by_cases hi : i < f.hi + 1 - f.lo
  · rw [if_pos (by omega)]
  · simp [hi]

theorem State.testBit_wide_put (s : State) (f : Fld) (v N i : Nat) (hf : f.lo ≤ f.hi) (hN : f.hi < 32 * N) :
    ((s.put f v).wide f.addr N).testBit i
      = if f.lo ≤ i ∧ i ≤ f.hi then v.testBit (i - f.lo) else (s.wide f.addr N).testBit i := by
  obtain ⟨k, rfl⟩ : ∃ k, N = f.hi / 32 + 1 + k := ⟨N - (f.hi / 32 + 1), by omega⟩
  have hb := setBits_lt (s.wide f.addr (f.hi / 32 + 1)) f.hi f.lo v (32 * (f.hi / 32 + 1)) hf (by omega)
    (State.wide_lt _ _ _)
  rw [State.put, State.wide_setWide_low, Nat.mod_eq_of_lt hb, Nat.add_comm, Nat.testBit_two_pow_mul_add _ hb,
    testBit_setBits _ _ _ _ _ hf, State.wide_split s f.addr (f.hi / 32 + 1) k, Nat.add_comm (s.wide f.addr _),
    Nat.testBit_two_pow_mul_add _ (State.wide_lt _ _ _)]
  split
  · rfl
  · rw [if_neg (by omega)]

/-- A field read after it was written: the low bits of the value. -/
@[simp] theorem State.get_put_self (s : State) (f : Fld) (v : Nat) (h : f.lo ≤ f.hi) :
    (s.put f v).get f = v % 2 ^ (f.hi + 1 - f.lo) := by
  refine Nat.eq_of_testBit_eq fun i => ?_
  rw [State.get, testBit_bits, State.testBit_wide_put _ _ _ _ _ h (by omega), Nat.testBit_mod_two_pow]
  by_cases hi : i < f.hi + 1 - f.lo
  · simp [hi, show f.lo ≤ f.lo + i ∧ f.lo + i ≤ f.hi by omega]
  · simp [hi]

/-- A field of other words reads as before a write. -/
theorem State.get_put_ne (s : State) (f g : Fld) (v : Nat)
    (h : f.addr + 4 * (f.hi / 32 + 1) ≤ g.addr ∨ g.addr + 4 * (g.hi / 32 + 1) ≤ f.addr) :
    (s.put f v).get g = s.get g := by
  rw [State.get, State.put, State.wide_setWide_out _ _ _ _ _ _ h]; rfl

/-- A disjoint field of the same register reads as before a write. -/
theorem State.get_put_disj (s : State) (f g : Fld) (v : Nat) (hf : f.lo ≤ f.hi) (ha : g.addr = f.addr)
    (h : g.hi < f.lo ∨ f.hi < g.lo) : (s.put f v).get g = s.get g := by
  have hN : f.hi < 32 * (f.hi / 32 + 1 + (g.hi / 32 + 1)) := by omega
  rw [State.get_eq _ g _ (show g.hi < 32 * (f.hi / 32 + 1 + (g.hi / 32 + 1)) by omega),
    State.get_eq s g _ (show g.hi < 32 * (f.hi / 32 + 1 + (g.hi / 32 + 1)) by omega), ha]
  refine Nat.eq_of_testBit_eq fun i => ?_
  rw [testBit_bits, testBit_bits, State.testBit_wide_put _ _ _ _ _ hf hN]
  by_cases hi : i < g.hi + 1 - g.lo
  · rw [if_neg (by omega)]
  · simp [hi]

/-- What a write of register words changes: the register words. -/
theorem State.setWide_eq (s : State) (a n v : Nat) : s.setWide a n v = { s with regs := (s.setWide a n v).regs } := by
  induction n generalizing s a v with
  | zero => rfl
  | succ n ih => rw [State.setWide, ih]; rfl

/-- A field's write changes the register words alone. -/
theorem State.put_eq (s : State) (f : Fld) (v : Nat) : s.put f v = { s with regs := (s.put f v).regs } :=
  State.setWide_eq s _ _ _

/-- What a field reads depends on the register words alone. -/
theorem State.get_congr {s t : State} (h : s.regs = t.regs) (f : Fld) : s.get f = t.get f := by
  have : ∀ n a, s.wide a n = t.wide a n := by
    intro n
    induction n with
    | zero => intro a; rfl
    | succ n ih => intro a; simp only [State.wide, State.word, h, ih]
  simp only [State.get, this]

theorem State.on_congr {s t : State} (h : s.regs = t.regs) (f : Fld) : s.on f = t.on f := by
  simp only [State.on, State.get_congr h f]

/-- Register words stay in canonical form. -/
theorem State.regs_setWide_wf (s : State) (a n v : Nat) (h : tabWf regReset s.regs = true) :
    tabWf regReset (s.setWide a n v).regs = true := by
  induction n generalizing s a v with
  | zero => exact h
  | succ n ih => exact ih _ _ _ (tabWf_tabSet regReset s.regs a _ h)

theorem State.regs_put_wf (s : State) (f : Fld) (v : Nat) (h : tabWf regReset s.regs = true) :
    tabWf regReset (s.put f v).regs = true := State.regs_setWide_wf s _ _ _ h

end Sys2Proof.Machine
end

