-- ==== Sys2Proof/Laws/State.lean ====
section
/-! SUPPORT. What each named update of the state leaves alone, field by field, and that it leaves the register words so
that every field of the control window reads as before. -/

namespace Sys2Proof.Machine

@[simp] theorem State.put_capture (s : State) (f : Fld) (v : Nat) : (s.put f v).capture = s.capture := by rw [State.put_eq]
@[simp] theorem State.put_stage (s : State) (f : Fld) (v : Nat) : (s.put f v).stage = s.stage := by rw [State.put_eq]
@[simp] theorem State.put_readData (s : State) (f : Fld) (v : Nat) : (s.put f v).readData = s.readData := by rw [State.put_eq]
@[simp] theorem State.put_raised (s : State) (f : Fld) (v : Nat) : (s.put f v).raised = s.raised := by rw [State.put_eq]
@[simp] theorem State.put_freeCtr (s : State) (f : Fld) (v : Nat) : (s.put f v).freeCtr = s.freeCtr := by rw [State.put_eq]
@[simp] theorem State.put_pins (s : State) (f : Fld) (v : Nat) : (s.put f v).pins = s.pins := by rw [State.put_eq]
@[simp] theorem State.put_ctl (s : State) (f : Fld) (v : Nat) : (s.put f v).ctl = s.ctl := by rw [State.put_eq]
@[simp] theorem State.put_flt (s : State) (f : Fld) (v : Nat) : (s.put f v).flt = s.flt := by rw [State.put_eq]
@[simp] theorem State.put_acn (s : State) (f : Fld) (v : Nat) : (s.put f v).acn = s.acn := by rw [State.put_eq]
@[simp] theorem State.put_fuse (s : State) (f : Fld) (v : Nat) : (s.put f v).fuse = s.fuse := by rw [State.put_eq]
@[simp] theorem State.put_sec (s : State) (f : Fld) (v : Nat) : (s.put f v).sec = s.sec := by rw [State.put_eq]
@[simp] theorem State.put_time (s : State) (f : Fld) (v : Nat) : (s.put f v).time = s.time := by rw [State.put_eq]
@[simp] theorem State.put_phs (s : State) (f : Fld) (v : Nat) : (s.put f v).phs = s.phs := by rw [State.put_eq]
@[simp] theorem State.put_yal (s : State) (f : Fld) (v : Nat) : (s.put f v).yal = s.yal := by rw [State.put_eq]
@[simp] theorem State.put_hts (s : State) (f : Fld) (v : Nat) : (s.put f v).hts = s.hts := by rw [State.put_eq]
@[simp] theorem State.put_seqs (s : State) (f : Fld) (v : Nat) : (s.put f v).seqs = s.seqs := by rw [State.put_eq]
@[simp] theorem State.put_sd (s : State) (f : Fld) (v : Nat) : (s.put f v).sd = s.sd := by rw [State.put_eq]
@[simp] theorem State.put_cip (s : State) (f : Fld) (v : Nat) : (s.put f v).cip = s.cip := by rw [State.put_eq]
@[simp] theorem State.put_air (s : State) (f : Fld) (v : Nat) : (s.put f v).air = s.air := by rw [State.put_eq]
@[simp] theorem State.put_ept (s : State) (f : Fld) (v : Nat) : (s.put f v).ept = s.ept := by rw [State.put_eq]
@[simp] theorem State.put_prs (s : State) (f : Fld) (v : Nat) : (s.put f v).prs = s.prs := by rw [State.put_eq]
@[simp] theorem State.put_dmc (s : State) (f : Fld) (v : Nat) : (s.put f v).dmc = s.dmc := by rw [State.put_eq]
@[simp] theorem State.put_dma (s : State) (f : Fld) (v : Nat) : (s.put f v).dma = s.dma := by rw [State.put_eq]
@[simp] theorem State.put_hst (s : State) (f : Fld) (v : Nat) : (s.put f v).hst = s.hst := by rw [State.put_eq]
@[simp] theorem State.put_fed (s : State) (f : Fld) (v : Nat) : (s.put f v).fed = s.fed := by rw [State.put_eq]
@[simp] theorem State.put_hostOut (s : State) (f : Fld) (v : Nat) : (s.put f v).hostOut = s.hostOut := by rw [State.put_eq]
@[simp] theorem State.put_cu (s : State) (f : Fld) (v : Nat) : (s.put f v).cu = s.cu := by rw [State.put_eq]
@[simp] theorem State.put_recirc (s : State) (f : Fld) (v : Nat) : (s.put f v).recirc = s.recirc := by rw [State.put_eq]
@[simp] theorem State.put_gm (s : State) (f : Fld) (v : Nat) : (s.put f v).gm = s.gm := by rw [State.put_eq]
@[simp] theorem State.put_xm (s : State) (f : Fld) (v : Nat) : (s.put f v).xm = s.xm := by rw [State.put_eq]
@[simp] theorem State.put_flash (s : State) (f : Fld) (v : Nat) : (s.put f v).flash = s.flash := by rw [State.put_eq]
@[simp] theorem State.put_pending (s : State) (f : Fld) (v : Nat) : (s.put f v).pending = s.pending := by rw [State.put_eq]

@[simp] theorem State.bump_capture (s : State) (f : Fld) (k : Nat) : (s.bump f k).capture = s.capture := by rw [State.bump, State.put_eq]
@[simp] theorem State.bump_stage (s : State) (f : Fld) (k : Nat) : (s.bump f k).stage = s.stage := by rw [State.bump, State.put_eq]
@[simp] theorem State.bump_readData (s : State) (f : Fld) (k : Nat) : (s.bump f k).readData = s.readData := by rw [State.bump, State.put_eq]
@[simp] theorem State.bump_raised (s : State) (f : Fld) (k : Nat) : (s.bump f k).raised = s.raised := by rw [State.bump, State.put_eq]
@[simp] theorem State.bump_freeCtr (s : State) (f : Fld) (k : Nat) : (s.bump f k).freeCtr = s.freeCtr := by rw [State.bump, State.put_eq]
@[simp] theorem State.bump_pins (s : State) (f : Fld) (k : Nat) : (s.bump f k).pins = s.pins := by rw [State.bump, State.put_eq]
@[simp] theorem State.bump_ctl (s : State) (f : Fld) (k : Nat) : (s.bump f k).ctl = s.ctl := by rw [State.bump, State.put_eq]
@[simp] theorem State.bump_flt (s : State) (f : Fld) (k : Nat) : (s.bump f k).flt = s.flt := by rw [State.bump, State.put_eq]
@[simp] theorem State.bump_acn (s : State) (f : Fld) (k : Nat) : (s.bump f k).acn = s.acn := by rw [State.bump, State.put_eq]
@[simp] theorem State.bump_fuse (s : State) (f : Fld) (k : Nat) : (s.bump f k).fuse = s.fuse := by rw [State.bump, State.put_eq]
@[simp] theorem State.bump_sec (s : State) (f : Fld) (k : Nat) : (s.bump f k).sec = s.sec := by rw [State.bump, State.put_eq]
@[simp] theorem State.bump_time (s : State) (f : Fld) (k : Nat) : (s.bump f k).time = s.time := by rw [State.bump, State.put_eq]
@[simp] theorem State.bump_phs (s : State) (f : Fld) (k : Nat) : (s.bump f k).phs = s.phs := by rw [State.bump, State.put_eq]
@[simp] theorem State.bump_yal (s : State) (f : Fld) (k : Nat) : (s.bump f k).yal = s.yal := by rw [State.bump, State.put_eq]
@[simp] theorem State.bump_hts (s : State) (f : Fld) (k : Nat) : (s.bump f k).hts = s.hts := by rw [State.bump, State.put_eq]
@[simp] theorem State.bump_seqs (s : State) (f : Fld) (k : Nat) : (s.bump f k).seqs = s.seqs := by rw [State.bump, State.put_eq]
@[simp] theorem State.bump_sd (s : State) (f : Fld) (k : Nat) : (s.bump f k).sd = s.sd := by rw [State.bump, State.put_eq]
@[simp] theorem State.bump_cip (s : State) (f : Fld) (k : Nat) : (s.bump f k).cip = s.cip := by rw [State.bump, State.put_eq]
@[simp] theorem State.bump_air (s : State) (f : Fld) (k : Nat) : (s.bump f k).air = s.air := by rw [State.bump, State.put_eq]
@[simp] theorem State.bump_ept (s : State) (f : Fld) (k : Nat) : (s.bump f k).ept = s.ept := by rw [State.bump, State.put_eq]
@[simp] theorem State.bump_prs (s : State) (f : Fld) (k : Nat) : (s.bump f k).prs = s.prs := by rw [State.bump, State.put_eq]
@[simp] theorem State.bump_dmc (s : State) (f : Fld) (k : Nat) : (s.bump f k).dmc = s.dmc := by rw [State.bump, State.put_eq]
@[simp] theorem State.bump_dma (s : State) (f : Fld) (k : Nat) : (s.bump f k).dma = s.dma := by rw [State.bump, State.put_eq]
@[simp] theorem State.bump_hst (s : State) (f : Fld) (k : Nat) : (s.bump f k).hst = s.hst := by rw [State.bump, State.put_eq]
@[simp] theorem State.bump_fed (s : State) (f : Fld) (k : Nat) : (s.bump f k).fed = s.fed := by rw [State.bump, State.put_eq]
@[simp] theorem State.bump_hostOut (s : State) (f : Fld) (k : Nat) : (s.bump f k).hostOut = s.hostOut := by rw [State.bump, State.put_eq]
@[simp] theorem State.bump_cu (s : State) (f : Fld) (k : Nat) : (s.bump f k).cu = s.cu := by rw [State.bump, State.put_eq]
@[simp] theorem State.bump_recirc (s : State) (f : Fld) (k : Nat) : (s.bump f k).recirc = s.recirc := by rw [State.bump, State.put_eq]
@[simp] theorem State.bump_gm (s : State) (f : Fld) (k : Nat) : (s.bump f k).gm = s.gm := by rw [State.bump, State.put_eq]
@[simp] theorem State.bump_xm (s : State) (f : Fld) (k : Nat) : (s.bump f k).xm = s.xm := by rw [State.bump, State.put_eq]
@[simp] theorem State.bump_flash (s : State) (f : Fld) (k : Nat) : (s.bump f k).flash = s.flash := by rw [State.bump, State.put_eq]
@[simp] theorem State.bump_pending (s : State) (f : Fld) (k : Nat) : (s.bump f k).pending = s.pending := by rw [State.bump, State.put_eq]

@[simp] theorem State.addWrap_capture (s : State) (f : Fld) (k : Nat) : (s.addWrap f k).capture = s.capture := by rw [State.addWrap, State.put_eq]
@[simp] theorem State.addWrap_stage (s : State) (f : Fld) (k : Nat) : (s.addWrap f k).stage = s.stage := by rw [State.addWrap, State.put_eq]
@[simp] theorem State.addWrap_readData (s : State) (f : Fld) (k : Nat) : (s.addWrap f k).readData = s.readData := by rw [State.addWrap, State.put_eq]
@[simp] theorem State.addWrap_raised (s : State) (f : Fld) (k : Nat) : (s.addWrap f k).raised = s.raised := by rw [State.addWrap, State.put_eq]
@[simp] theorem State.addWrap_freeCtr (s : State) (f : Fld) (k : Nat) : (s.addWrap f k).freeCtr = s.freeCtr := by rw [State.addWrap, State.put_eq]
@[simp] theorem State.addWrap_pins (s : State) (f : Fld) (k : Nat) : (s.addWrap f k).pins = s.pins := by rw [State.addWrap, State.put_eq]
@[simp] theorem State.addWrap_ctl (s : State) (f : Fld) (k : Nat) : (s.addWrap f k).ctl = s.ctl := by rw [State.addWrap, State.put_eq]
@[simp] theorem State.addWrap_flt (s : State) (f : Fld) (k : Nat) : (s.addWrap f k).flt = s.flt := by rw [State.addWrap, State.put_eq]
@[simp] theorem State.addWrap_acn (s : State) (f : Fld) (k : Nat) : (s.addWrap f k).acn = s.acn := by rw [State.addWrap, State.put_eq]
@[simp] theorem State.addWrap_fuse (s : State) (f : Fld) (k : Nat) : (s.addWrap f k).fuse = s.fuse := by rw [State.addWrap, State.put_eq]
@[simp] theorem State.addWrap_sec (s : State) (f : Fld) (k : Nat) : (s.addWrap f k).sec = s.sec := by rw [State.addWrap, State.put_eq]
@[simp] theorem State.addWrap_time (s : State) (f : Fld) (k : Nat) : (s.addWrap f k).time = s.time := by rw [State.addWrap, State.put_eq]
@[simp] theorem State.addWrap_phs (s : State) (f : Fld) (k : Nat) : (s.addWrap f k).phs = s.phs := by rw [State.addWrap, State.put_eq]
@[simp] theorem State.addWrap_yal (s : State) (f : Fld) (k : Nat) : (s.addWrap f k).yal = s.yal := by rw [State.addWrap, State.put_eq]
@[simp] theorem State.addWrap_hts (s : State) (f : Fld) (k : Nat) : (s.addWrap f k).hts = s.hts := by rw [State.addWrap, State.put_eq]
@[simp] theorem State.addWrap_seqs (s : State) (f : Fld) (k : Nat) : (s.addWrap f k).seqs = s.seqs := by rw [State.addWrap, State.put_eq]
@[simp] theorem State.addWrap_sd (s : State) (f : Fld) (k : Nat) : (s.addWrap f k).sd = s.sd := by rw [State.addWrap, State.put_eq]
@[simp] theorem State.addWrap_cip (s : State) (f : Fld) (k : Nat) : (s.addWrap f k).cip = s.cip := by rw [State.addWrap, State.put_eq]
@[simp] theorem State.addWrap_air (s : State) (f : Fld) (k : Nat) : (s.addWrap f k).air = s.air := by rw [State.addWrap, State.put_eq]
@[simp] theorem State.addWrap_ept (s : State) (f : Fld) (k : Nat) : (s.addWrap f k).ept = s.ept := by rw [State.addWrap, State.put_eq]
@[simp] theorem State.addWrap_prs (s : State) (f : Fld) (k : Nat) : (s.addWrap f k).prs = s.prs := by rw [State.addWrap, State.put_eq]
@[simp] theorem State.addWrap_dmc (s : State) (f : Fld) (k : Nat) : (s.addWrap f k).dmc = s.dmc := by rw [State.addWrap, State.put_eq]
@[simp] theorem State.addWrap_dma (s : State) (f : Fld) (k : Nat) : (s.addWrap f k).dma = s.dma := by rw [State.addWrap, State.put_eq]
@[simp] theorem State.addWrap_hst (s : State) (f : Fld) (k : Nat) : (s.addWrap f k).hst = s.hst := by rw [State.addWrap, State.put_eq]
@[simp] theorem State.addWrap_fed (s : State) (f : Fld) (k : Nat) : (s.addWrap f k).fed = s.fed := by rw [State.addWrap, State.put_eq]
@[simp] theorem State.addWrap_hostOut (s : State) (f : Fld) (k : Nat) : (s.addWrap f k).hostOut = s.hostOut := by rw [State.addWrap, State.put_eq]
@[simp] theorem State.addWrap_cu (s : State) (f : Fld) (k : Nat) : (s.addWrap f k).cu = s.cu := by rw [State.addWrap, State.put_eq]
@[simp] theorem State.addWrap_recirc (s : State) (f : Fld) (k : Nat) : (s.addWrap f k).recirc = s.recirc := by rw [State.addWrap, State.put_eq]
@[simp] theorem State.addWrap_gm (s : State) (f : Fld) (k : Nat) : (s.addWrap f k).gm = s.gm := by rw [State.addWrap, State.put_eq]
@[simp] theorem State.addWrap_xm (s : State) (f : Fld) (k : Nat) : (s.addWrap f k).xm = s.xm := by rw [State.addWrap, State.put_eq]
@[simp] theorem State.addWrap_flash (s : State) (f : Fld) (k : Nat) : (s.addWrap f k).flash = s.flash := by rw [State.addWrap, State.put_eq]
@[simp] theorem State.addWrap_pending (s : State) (f : Fld) (k : Nat) : (s.addWrap f k).pending = s.pending := by rw [State.addWrap, State.put_eq]

@[simp] theorem State.putBit_capture (s : State) (f : Fld) (i : Nat) (b : Bool) : (s.putBit f i b).capture = s.capture := by rw [State.putBit, State.put_eq]
@[simp] theorem State.putBit_stage (s : State) (f : Fld) (i : Nat) (b : Bool) : (s.putBit f i b).stage = s.stage := by rw [State.putBit, State.put_eq]
@[simp] theorem State.putBit_readData (s : State) (f : Fld) (i : Nat) (b : Bool) : (s.putBit f i b).readData = s.readData := by rw [State.putBit, State.put_eq]
@[simp] theorem State.putBit_raised (s : State) (f : Fld) (i : Nat) (b : Bool) : (s.putBit f i b).raised = s.raised := by rw [State.putBit, State.put_eq]
@[simp] theorem State.putBit_freeCtr (s : State) (f : Fld) (i : Nat) (b : Bool) : (s.putBit f i b).freeCtr = s.freeCtr := by rw [State.putBit, State.put_eq]
@[simp] theorem State.putBit_pins (s : State) (f : Fld) (i : Nat) (b : Bool) : (s.putBit f i b).pins = s.pins := by rw [State.putBit, State.put_eq]
@[simp] theorem State.putBit_ctl (s : State) (f : Fld) (i : Nat) (b : Bool) : (s.putBit f i b).ctl = s.ctl := by rw [State.putBit, State.put_eq]
@[simp] theorem State.putBit_flt (s : State) (f : Fld) (i : Nat) (b : Bool) : (s.putBit f i b).flt = s.flt := by rw [State.putBit, State.put_eq]
@[simp] theorem State.putBit_acn (s : State) (f : Fld) (i : Nat) (b : Bool) : (s.putBit f i b).acn = s.acn := by rw [State.putBit, State.put_eq]
@[simp] theorem State.putBit_fuse (s : State) (f : Fld) (i : Nat) (b : Bool) : (s.putBit f i b).fuse = s.fuse := by rw [State.putBit, State.put_eq]
@[simp] theorem State.putBit_sec (s : State) (f : Fld) (i : Nat) (b : Bool) : (s.putBit f i b).sec = s.sec := by rw [State.putBit, State.put_eq]
@[simp] theorem State.putBit_time (s : State) (f : Fld) (i : Nat) (b : Bool) : (s.putBit f i b).time = s.time := by rw [State.putBit, State.put_eq]
@[simp] theorem State.putBit_phs (s : State) (f : Fld) (i : Nat) (b : Bool) : (s.putBit f i b).phs = s.phs := by rw [State.putBit, State.put_eq]
@[simp] theorem State.putBit_yal (s : State) (f : Fld) (i : Nat) (b : Bool) : (s.putBit f i b).yal = s.yal := by rw [State.putBit, State.put_eq]
@[simp] theorem State.putBit_hts (s : State) (f : Fld) (i : Nat) (b : Bool) : (s.putBit f i b).hts = s.hts := by rw [State.putBit, State.put_eq]
@[simp] theorem State.putBit_seqs (s : State) (f : Fld) (i : Nat) (b : Bool) : (s.putBit f i b).seqs = s.seqs := by rw [State.putBit, State.put_eq]
@[simp] theorem State.putBit_sd (s : State) (f : Fld) (i : Nat) (b : Bool) : (s.putBit f i b).sd = s.sd := by rw [State.putBit, State.put_eq]
@[simp] theorem State.putBit_cip (s : State) (f : Fld) (i : Nat) (b : Bool) : (s.putBit f i b).cip = s.cip := by rw [State.putBit, State.put_eq]
@[simp] theorem State.putBit_air (s : State) (f : Fld) (i : Nat) (b : Bool) : (s.putBit f i b).air = s.air := by rw [State.putBit, State.put_eq]
@[simp] theorem State.putBit_ept (s : State) (f : Fld) (i : Nat) (b : Bool) : (s.putBit f i b).ept = s.ept := by rw [State.putBit, State.put_eq]
@[simp] theorem State.putBit_prs (s : State) (f : Fld) (i : Nat) (b : Bool) : (s.putBit f i b).prs = s.prs := by rw [State.putBit, State.put_eq]
@[simp] theorem State.putBit_dmc (s : State) (f : Fld) (i : Nat) (b : Bool) : (s.putBit f i b).dmc = s.dmc := by rw [State.putBit, State.put_eq]
@[simp] theorem State.putBit_dma (s : State) (f : Fld) (i : Nat) (b : Bool) : (s.putBit f i b).dma = s.dma := by rw [State.putBit, State.put_eq]
@[simp] theorem State.putBit_hst (s : State) (f : Fld) (i : Nat) (b : Bool) : (s.putBit f i b).hst = s.hst := by rw [State.putBit, State.put_eq]
@[simp] theorem State.putBit_fed (s : State) (f : Fld) (i : Nat) (b : Bool) : (s.putBit f i b).fed = s.fed := by rw [State.putBit, State.put_eq]
@[simp] theorem State.putBit_hostOut (s : State) (f : Fld) (i : Nat) (b : Bool) : (s.putBit f i b).hostOut = s.hostOut := by rw [State.putBit, State.put_eq]
@[simp] theorem State.putBit_cu (s : State) (f : Fld) (i : Nat) (b : Bool) : (s.putBit f i b).cu = s.cu := by rw [State.putBit, State.put_eq]
@[simp] theorem State.putBit_recirc (s : State) (f : Fld) (i : Nat) (b : Bool) : (s.putBit f i b).recirc = s.recirc := by rw [State.putBit, State.put_eq]
@[simp] theorem State.putBit_gm (s : State) (f : Fld) (i : Nat) (b : Bool) : (s.putBit f i b).gm = s.gm := by rw [State.putBit, State.put_eq]
@[simp] theorem State.putBit_xm (s : State) (f : Fld) (i : Nat) (b : Bool) : (s.putBit f i b).xm = s.xm := by rw [State.putBit, State.put_eq]
@[simp] theorem State.putBit_flash (s : State) (f : Fld) (i : Nat) (b : Bool) : (s.putBit f i b).flash = s.flash := by rw [State.putBit, State.put_eq]
@[simp] theorem State.putBit_pending (s : State) (f : Fld) (i : Nat) (b : Bool) : (s.putBit f i b).pending = s.pending := by rw [State.putBit, State.put_eq]

@[simp] theorem State.setWord_capture (s : State) (a : Nat) (v : Word) : (s.setWord a v).capture = s.capture := rfl
@[simp] theorem State.setWord_stage (s : State) (a : Nat) (v : Word) : (s.setWord a v).stage = s.stage := rfl
@[simp] theorem State.setWord_readData (s : State) (a : Nat) (v : Word) : (s.setWord a v).readData = s.readData := rfl
@[simp] theorem State.setWord_raised (s : State) (a : Nat) (v : Word) : (s.setWord a v).raised = s.raised := rfl
@[simp] theorem State.setWord_freeCtr (s : State) (a : Nat) (v : Word) : (s.setWord a v).freeCtr = s.freeCtr := rfl
@[simp] theorem State.setWord_pins (s : State) (a : Nat) (v : Word) : (s.setWord a v).pins = s.pins := rfl
@[simp] theorem State.setWord_ctl (s : State) (a : Nat) (v : Word) : (s.setWord a v).ctl = s.ctl := rfl
@[simp] theorem State.setWord_flt (s : State) (a : Nat) (v : Word) : (s.setWord a v).flt = s.flt := rfl
@[simp] theorem State.setWord_acn (s : State) (a : Nat) (v : Word) : (s.setWord a v).acn = s.acn := rfl
@[simp] theorem State.setWord_fuse (s : State) (a : Nat) (v : Word) : (s.setWord a v).fuse = s.fuse := rfl
@[simp] theorem State.setWord_sec (s : State) (a : Nat) (v : Word) : (s.setWord a v).sec = s.sec := rfl
@[simp] theorem State.setWord_time (s : State) (a : Nat) (v : Word) : (s.setWord a v).time = s.time := rfl
@[simp] theorem State.setWord_phs (s : State) (a : Nat) (v : Word) : (s.setWord a v).phs = s.phs := rfl
@[simp] theorem State.setWord_yal (s : State) (a : Nat) (v : Word) : (s.setWord a v).yal = s.yal := rfl
@[simp] theorem State.setWord_hts (s : State) (a : Nat) (v : Word) : (s.setWord a v).hts = s.hts := rfl
@[simp] theorem State.setWord_seqs (s : State) (a : Nat) (v : Word) : (s.setWord a v).seqs = s.seqs := rfl
@[simp] theorem State.setWord_sd (s : State) (a : Nat) (v : Word) : (s.setWord a v).sd = s.sd := rfl
@[simp] theorem State.setWord_cip (s : State) (a : Nat) (v : Word) : (s.setWord a v).cip = s.cip := rfl
@[simp] theorem State.setWord_air (s : State) (a : Nat) (v : Word) : (s.setWord a v).air = s.air := rfl
@[simp] theorem State.setWord_ept (s : State) (a : Nat) (v : Word) : (s.setWord a v).ept = s.ept := rfl
@[simp] theorem State.setWord_prs (s : State) (a : Nat) (v : Word) : (s.setWord a v).prs = s.prs := rfl
@[simp] theorem State.setWord_dmc (s : State) (a : Nat) (v : Word) : (s.setWord a v).dmc = s.dmc := rfl
@[simp] theorem State.setWord_dma (s : State) (a : Nat) (v : Word) : (s.setWord a v).dma = s.dma := rfl
@[simp] theorem State.setWord_hst (s : State) (a : Nat) (v : Word) : (s.setWord a v).hst = s.hst := rfl
@[simp] theorem State.setWord_fed (s : State) (a : Nat) (v : Word) : (s.setWord a v).fed = s.fed := rfl
@[simp] theorem State.setWord_hostOut (s : State) (a : Nat) (v : Word) : (s.setWord a v).hostOut = s.hostOut := rfl
@[simp] theorem State.setWord_cu (s : State) (a : Nat) (v : Word) : (s.setWord a v).cu = s.cu := rfl
@[simp] theorem State.setWord_recirc (s : State) (a : Nat) (v : Word) : (s.setWord a v).recirc = s.recirc := rfl
@[simp] theorem State.setWord_gm (s : State) (a : Nat) (v : Word) : (s.setWord a v).gm = s.gm := rfl
@[simp] theorem State.setWord_xm (s : State) (a : Nat) (v : Word) : (s.setWord a v).xm = s.xm := rfl
@[simp] theorem State.setWord_flash (s : State) (a : Nat) (v : Word) : (s.setWord a v).flash = s.flash := rfl
@[simp] theorem State.setWord_pending (s : State) (a : Nat) (v : Word) : (s.setWord a v).pending = s.pending := rfl

@[simp] theorem State.setWide_capture (s : State) (a n v : Nat) : (s.setWide a n v).capture = s.capture := by rw [State.setWide_eq]
@[simp] theorem State.setWide_stage (s : State) (a n v : Nat) : (s.setWide a n v).stage = s.stage := by rw [State.setWide_eq]
@[simp] theorem State.setWide_readData (s : State) (a n v : Nat) : (s.setWide a n v).readData = s.readData := by rw [State.setWide_eq]
@[simp] theorem State.setWide_raised (s : State) (a n v : Nat) : (s.setWide a n v).raised = s.raised := by rw [State.setWide_eq]
@[simp] theorem State.setWide_freeCtr (s : State) (a n v : Nat) : (s.setWide a n v).freeCtr = s.freeCtr := by rw [State.setWide_eq]
@[simp] theorem State.setWide_pins (s : State) (a n v : Nat) : (s.setWide a n v).pins = s.pins := by rw [State.setWide_eq]
@[simp] theorem State.setWide_ctl (s : State) (a n v : Nat) : (s.setWide a n v).ctl = s.ctl := by rw [State.setWide_eq]
@[simp] theorem State.setWide_flt (s : State) (a n v : Nat) : (s.setWide a n v).flt = s.flt := by rw [State.setWide_eq]
@[simp] theorem State.setWide_acn (s : State) (a n v : Nat) : (s.setWide a n v).acn = s.acn := by rw [State.setWide_eq]
@[simp] theorem State.setWide_fuse (s : State) (a n v : Nat) : (s.setWide a n v).fuse = s.fuse := by rw [State.setWide_eq]
@[simp] theorem State.setWide_sec (s : State) (a n v : Nat) : (s.setWide a n v).sec = s.sec := by rw [State.setWide_eq]
@[simp] theorem State.setWide_time (s : State) (a n v : Nat) : (s.setWide a n v).time = s.time := by rw [State.setWide_eq]
@[simp] theorem State.setWide_phs (s : State) (a n v : Nat) : (s.setWide a n v).phs = s.phs := by rw [State.setWide_eq]
@[simp] theorem State.setWide_yal (s : State) (a n v : Nat) : (s.setWide a n v).yal = s.yal := by rw [State.setWide_eq]
@[simp] theorem State.setWide_hts (s : State) (a n v : Nat) : (s.setWide a n v).hts = s.hts := by rw [State.setWide_eq]
@[simp] theorem State.setWide_seqs (s : State) (a n v : Nat) : (s.setWide a n v).seqs = s.seqs := by rw [State.setWide_eq]
@[simp] theorem State.setWide_sd (s : State) (a n v : Nat) : (s.setWide a n v).sd = s.sd := by rw [State.setWide_eq]
@[simp] theorem State.setWide_cip (s : State) (a n v : Nat) : (s.setWide a n v).cip = s.cip := by rw [State.setWide_eq]
@[simp] theorem State.setWide_air (s : State) (a n v : Nat) : (s.setWide a n v).air = s.air := by rw [State.setWide_eq]
@[simp] theorem State.setWide_ept (s : State) (a n v : Nat) : (s.setWide a n v).ept = s.ept := by rw [State.setWide_eq]
@[simp] theorem State.setWide_prs (s : State) (a n v : Nat) : (s.setWide a n v).prs = s.prs := by rw [State.setWide_eq]
@[simp] theorem State.setWide_dmc (s : State) (a n v : Nat) : (s.setWide a n v).dmc = s.dmc := by rw [State.setWide_eq]
@[simp] theorem State.setWide_dma (s : State) (a n v : Nat) : (s.setWide a n v).dma = s.dma := by rw [State.setWide_eq]
@[simp] theorem State.setWide_hst (s : State) (a n v : Nat) : (s.setWide a n v).hst = s.hst := by rw [State.setWide_eq]
@[simp] theorem State.setWide_fed (s : State) (a n v : Nat) : (s.setWide a n v).fed = s.fed := by rw [State.setWide_eq]
@[simp] theorem State.setWide_hostOut (s : State) (a n v : Nat) : (s.setWide a n v).hostOut = s.hostOut := by rw [State.setWide_eq]
@[simp] theorem State.setWide_cu (s : State) (a n v : Nat) : (s.setWide a n v).cu = s.cu := by rw [State.setWide_eq]
@[simp] theorem State.setWide_recirc (s : State) (a n v : Nat) : (s.setWide a n v).recirc = s.recirc := by rw [State.setWide_eq]
@[simp] theorem State.setWide_gm (s : State) (a n v : Nat) : (s.setWide a n v).gm = s.gm := by rw [State.setWide_eq]
@[simp] theorem State.setWide_xm (s : State) (a n v : Nat) : (s.setWide a n v).xm = s.xm := by rw [State.setWide_eq]
@[simp] theorem State.setWide_flash (s : State) (a n v : Nat) : (s.setWide a n v).flash = s.flash := by rw [State.setWide_eq]
@[simp] theorem State.setWide_pending (s : State) (a n v : Nat) : (s.setWide a n v).pending = s.pending := by rw [State.setWide_eq]

@[simp] theorem State.raise_regs (s : State) (n : Nat) : (s.raise n).regs = s.regs := rfl
@[simp] theorem State.raise_capture (s : State) (n : Nat) : (s.raise n).capture = s.capture := rfl
@[simp] theorem State.raise_stage (s : State) (n : Nat) : (s.raise n).stage = s.stage := rfl
@[simp] theorem State.raise_readData (s : State) (n : Nat) : (s.raise n).readData = s.readData := rfl
@[simp] theorem State.raise_freeCtr (s : State) (n : Nat) : (s.raise n).freeCtr = s.freeCtr := rfl
@[simp] theorem State.raise_pins (s : State) (n : Nat) : (s.raise n).pins = s.pins := rfl
@[simp] theorem State.raise_ctl (s : State) (n : Nat) : (s.raise n).ctl = s.ctl := rfl
@[simp] theorem State.raise_flt (s : State) (n : Nat) : (s.raise n).flt = s.flt := rfl
@[simp] theorem State.raise_acn (s : State) (n : Nat) : (s.raise n).acn = s.acn := rfl
@[simp] theorem State.raise_fuse (s : State) (n : Nat) : (s.raise n).fuse = s.fuse := rfl
@[simp] theorem State.raise_sec (s : State) (n : Nat) : (s.raise n).sec = s.sec := rfl
@[simp] theorem State.raise_time (s : State) (n : Nat) : (s.raise n).time = s.time := rfl
@[simp] theorem State.raise_phs (s : State) (n : Nat) : (s.raise n).phs = s.phs := rfl
@[simp] theorem State.raise_yal (s : State) (n : Nat) : (s.raise n).yal = s.yal := rfl
@[simp] theorem State.raise_hts (s : State) (n : Nat) : (s.raise n).hts = s.hts := rfl
@[simp] theorem State.raise_seqs (s : State) (n : Nat) : (s.raise n).seqs = s.seqs := rfl
@[simp] theorem State.raise_sd (s : State) (n : Nat) : (s.raise n).sd = s.sd := rfl
@[simp] theorem State.raise_cip (s : State) (n : Nat) : (s.raise n).cip = s.cip := rfl
@[simp] theorem State.raise_air (s : State) (n : Nat) : (s.raise n).air = s.air := rfl
@[simp] theorem State.raise_ept (s : State) (n : Nat) : (s.raise n).ept = s.ept := rfl
@[simp] theorem State.raise_prs (s : State) (n : Nat) : (s.raise n).prs = s.prs := rfl
@[simp] theorem State.raise_dmc (s : State) (n : Nat) : (s.raise n).dmc = s.dmc := rfl
@[simp] theorem State.raise_dma (s : State) (n : Nat) : (s.raise n).dma = s.dma := rfl
@[simp] theorem State.raise_hst (s : State) (n : Nat) : (s.raise n).hst = s.hst := rfl
@[simp] theorem State.raise_fed (s : State) (n : Nat) : (s.raise n).fed = s.fed := rfl
@[simp] theorem State.raise_hostOut (s : State) (n : Nat) : (s.raise n).hostOut = s.hostOut := rfl
@[simp] theorem State.raise_cu (s : State) (n : Nat) : (s.raise n).cu = s.cu := rfl
@[simp] theorem State.raise_recirc (s : State) (n : Nat) : (s.raise n).recirc = s.recirc := rfl
@[simp] theorem State.raise_gm (s : State) (n : Nat) : (s.raise n).gm = s.gm := rfl
@[simp] theorem State.raise_xm (s : State) (n : Nat) : (s.raise n).xm = s.xm := rfl
@[simp] theorem State.raise_flash (s : State) (n : Nat) : (s.raise n).flash = s.flash := rfl
@[simp] theorem State.raise_pending (s : State) (n : Nat) : (s.raise n).pending = s.pending := rfl
@[simp] theorem State.raise_word (s : State) (n : Nat) (a : Nat) : (s.raise n).word a = s.word a := by simp only [State.word, State.raise_regs]
@[simp] theorem State.raise_get (s : State) (n : Nat) (g : Fld) : (s.raise n).get g = s.get g := State.get_congr (State.raise_regs s n) g
@[simp] theorem State.raise_on (s : State) (n : Nat) (g : Fld) : (s.raise n).on g = s.on g := State.on_congr (State.raise_regs s n) g

@[simp] theorem State.raiseIf_regs (s : State) (b : Bool) (n : Nat) : (s.raiseIf b n).regs = s.regs := by unfold State.raiseIf; split <;> rfl
@[simp] theorem State.raiseIf_capture (s : State) (b : Bool) (n : Nat) : (s.raiseIf b n).capture = s.capture := by unfold State.raiseIf; split <;> rfl
@[simp] theorem State.raiseIf_stage (s : State) (b : Bool) (n : Nat) : (s.raiseIf b n).stage = s.stage := by unfold State.raiseIf; split <;> rfl
@[simp] theorem State.raiseIf_readData (s : State) (b : Bool) (n : Nat) : (s.raiseIf b n).readData = s.readData := by unfold State.raiseIf; split <;> rfl
@[simp] theorem State.raiseIf_freeCtr (s : State) (b : Bool) (n : Nat) : (s.raiseIf b n).freeCtr = s.freeCtr := by unfold State.raiseIf; split <;> rfl
@[simp] theorem State.raiseIf_pins (s : State) (b : Bool) (n : Nat) : (s.raiseIf b n).pins = s.pins := by unfold State.raiseIf; split <;> rfl
@[simp] theorem State.raiseIf_ctl (s : State) (b : Bool) (n : Nat) : (s.raiseIf b n).ctl = s.ctl := by unfold State.raiseIf; split <;> rfl
@[simp] theorem State.raiseIf_flt (s : State) (b : Bool) (n : Nat) : (s.raiseIf b n).flt = s.flt := by unfold State.raiseIf; split <;> rfl
@[simp] theorem State.raiseIf_acn (s : State) (b : Bool) (n : Nat) : (s.raiseIf b n).acn = s.acn := by unfold State.raiseIf; split <;> rfl
@[simp] theorem State.raiseIf_fuse (s : State) (b : Bool) (n : Nat) : (s.raiseIf b n).fuse = s.fuse := by unfold State.raiseIf; split <;> rfl
@[simp] theorem State.raiseIf_sec (s : State) (b : Bool) (n : Nat) : (s.raiseIf b n).sec = s.sec := by unfold State.raiseIf; split <;> rfl
@[simp] theorem State.raiseIf_time (s : State) (b : Bool) (n : Nat) : (s.raiseIf b n).time = s.time := by unfold State.raiseIf; split <;> rfl
@[simp] theorem State.raiseIf_phs (s : State) (b : Bool) (n : Nat) : (s.raiseIf b n).phs = s.phs := by unfold State.raiseIf; split <;> rfl
@[simp] theorem State.raiseIf_yal (s : State) (b : Bool) (n : Nat) : (s.raiseIf b n).yal = s.yal := by unfold State.raiseIf; split <;> rfl
@[simp] theorem State.raiseIf_hts (s : State) (b : Bool) (n : Nat) : (s.raiseIf b n).hts = s.hts := by unfold State.raiseIf; split <;> rfl
@[simp] theorem State.raiseIf_seqs (s : State) (b : Bool) (n : Nat) : (s.raiseIf b n).seqs = s.seqs := by unfold State.raiseIf; split <;> rfl
@[simp] theorem State.raiseIf_sd (s : State) (b : Bool) (n : Nat) : (s.raiseIf b n).sd = s.sd := by unfold State.raiseIf; split <;> rfl
@[simp] theorem State.raiseIf_cip (s : State) (b : Bool) (n : Nat) : (s.raiseIf b n).cip = s.cip := by unfold State.raiseIf; split <;> rfl
@[simp] theorem State.raiseIf_air (s : State) (b : Bool) (n : Nat) : (s.raiseIf b n).air = s.air := by unfold State.raiseIf; split <;> rfl
@[simp] theorem State.raiseIf_ept (s : State) (b : Bool) (n : Nat) : (s.raiseIf b n).ept = s.ept := by unfold State.raiseIf; split <;> rfl
@[simp] theorem State.raiseIf_prs (s : State) (b : Bool) (n : Nat) : (s.raiseIf b n).prs = s.prs := by unfold State.raiseIf; split <;> rfl
@[simp] theorem State.raiseIf_dmc (s : State) (b : Bool) (n : Nat) : (s.raiseIf b n).dmc = s.dmc := by unfold State.raiseIf; split <;> rfl
@[simp] theorem State.raiseIf_dma (s : State) (b : Bool) (n : Nat) : (s.raiseIf b n).dma = s.dma := by unfold State.raiseIf; split <;> rfl
@[simp] theorem State.raiseIf_hst (s : State) (b : Bool) (n : Nat) : (s.raiseIf b n).hst = s.hst := by unfold State.raiseIf; split <;> rfl
@[simp] theorem State.raiseIf_fed (s : State) (b : Bool) (n : Nat) : (s.raiseIf b n).fed = s.fed := by unfold State.raiseIf; split <;> rfl
@[simp] theorem State.raiseIf_hostOut (s : State) (b : Bool) (n : Nat) : (s.raiseIf b n).hostOut = s.hostOut := by unfold State.raiseIf; split <;> rfl
@[simp] theorem State.raiseIf_cu (s : State) (b : Bool) (n : Nat) : (s.raiseIf b n).cu = s.cu := by unfold State.raiseIf; split <;> rfl
@[simp] theorem State.raiseIf_recirc (s : State) (b : Bool) (n : Nat) : (s.raiseIf b n).recirc = s.recirc := by unfold State.raiseIf; split <;> rfl
@[simp] theorem State.raiseIf_gm (s : State) (b : Bool) (n : Nat) : (s.raiseIf b n).gm = s.gm := by unfold State.raiseIf; split <;> rfl
@[simp] theorem State.raiseIf_xm (s : State) (b : Bool) (n : Nat) : (s.raiseIf b n).xm = s.xm := by unfold State.raiseIf; split <;> rfl
@[simp] theorem State.raiseIf_flash (s : State) (b : Bool) (n : Nat) : (s.raiseIf b n).flash = s.flash := by unfold State.raiseIf; split <;> rfl
@[simp] theorem State.raiseIf_pending (s : State) (b : Bool) (n : Nat) : (s.raiseIf b n).pending = s.pending := by unfold State.raiseIf; split <;> rfl
@[simp] theorem State.raiseIf_word (s : State) (b : Bool) (n : Nat) (a : Nat) : (s.raiseIf b n).word a = s.word a := by simp only [State.word, State.raiseIf_regs]
@[simp] theorem State.raiseIf_get (s : State) (b : Bool) (n : Nat) (g : Fld) : (s.raiseIf b n).get g = s.get g := State.get_congr (State.raiseIf_regs s b n) g
@[simp] theorem State.raiseIf_on (s : State) (b : Bool) (n : Nat) (g : Fld) : (s.raiseIf b n).on g = s.on g := State.on_congr (State.raiseIf_regs s b n) g

@[simp] theorem State.ticks_regs (s : State) (k : Nat) : (s.ticks k).regs = s.regs := by unfold State.ticks; split <;> rfl
@[simp] theorem State.ticks_capture (s : State) (k : Nat) : (s.ticks k).capture = s.capture := by unfold State.ticks; split <;> rfl
@[simp] theorem State.ticks_stage (s : State) (k : Nat) : (s.ticks k).stage = s.stage := by unfold State.ticks; split <;> rfl
@[simp] theorem State.ticks_readData (s : State) (k : Nat) : (s.ticks k).readData = s.readData := by unfold State.ticks; split <;> rfl
@[simp] theorem State.ticks_raised (s : State) (k : Nat) : (s.ticks k).raised = s.raised := by unfold State.ticks; split <;> rfl
@[simp] theorem State.ticks_freeCtr (s : State) (k : Nat) : (s.ticks k).freeCtr = s.freeCtr := by unfold State.ticks; split <;> rfl
@[simp] theorem State.ticks_pins (s : State) (k : Nat) : (s.ticks k).pins = s.pins := by unfold State.ticks; split <;> rfl
@[simp] theorem State.ticks_ctl (s : State) (k : Nat) : (s.ticks k).ctl = s.ctl := by unfold State.ticks; split <;> rfl
@[simp] theorem State.ticks_flt (s : State) (k : Nat) : (s.ticks k).flt = s.flt := by unfold State.ticks; split <;> rfl
@[simp] theorem State.ticks_acn (s : State) (k : Nat) : (s.ticks k).acn = s.acn := by unfold State.ticks; split <;> rfl
@[simp] theorem State.ticks_fuse (s : State) (k : Nat) : (s.ticks k).fuse = s.fuse := by unfold State.ticks; split <;> rfl
@[simp] theorem State.ticks_sec (s : State) (k : Nat) : (s.ticks k).sec = s.sec := by unfold State.ticks; split <;> rfl
@[simp] theorem State.ticks_phs (s : State) (k : Nat) : (s.ticks k).phs = s.phs := by unfold State.ticks; split <;> rfl
@[simp] theorem State.ticks_yal (s : State) (k : Nat) : (s.ticks k).yal = s.yal := by unfold State.ticks; split <;> rfl
@[simp] theorem State.ticks_hts (s : State) (k : Nat) : (s.ticks k).hts = s.hts := by unfold State.ticks; split <;> rfl
@[simp] theorem State.ticks_seqs (s : State) (k : Nat) : (s.ticks k).seqs = s.seqs := by unfold State.ticks; split <;> rfl
@[simp] theorem State.ticks_sd (s : State) (k : Nat) : (s.ticks k).sd = s.sd := by unfold State.ticks; split <;> rfl
@[simp] theorem State.ticks_cip (s : State) (k : Nat) : (s.ticks k).cip = s.cip := by unfold State.ticks; split <;> rfl
@[simp] theorem State.ticks_air (s : State) (k : Nat) : (s.ticks k).air = s.air := by unfold State.ticks; split <;> rfl
@[simp] theorem State.ticks_ept (s : State) (k : Nat) : (s.ticks k).ept = s.ept := by unfold State.ticks; split <;> rfl
@[simp] theorem State.ticks_prs (s : State) (k : Nat) : (s.ticks k).prs = s.prs := by unfold State.ticks; split <;> rfl
@[simp] theorem State.ticks_dmc (s : State) (k : Nat) : (s.ticks k).dmc = s.dmc := by unfold State.ticks; split <;> rfl
@[simp] theorem State.ticks_dma (s : State) (k : Nat) : (s.ticks k).dma = s.dma := by unfold State.ticks; split <;> rfl
@[simp] theorem State.ticks_hst (s : State) (k : Nat) : (s.ticks k).hst = s.hst := by unfold State.ticks; split <;> rfl
@[simp] theorem State.ticks_fed (s : State) (k : Nat) : (s.ticks k).fed = s.fed := by unfold State.ticks; split <;> rfl
@[simp] theorem State.ticks_hostOut (s : State) (k : Nat) : (s.ticks k).hostOut = s.hostOut := by unfold State.ticks; split <;> rfl
@[simp] theorem State.ticks_cu (s : State) (k : Nat) : (s.ticks k).cu = s.cu := by unfold State.ticks; split <;> rfl
@[simp] theorem State.ticks_recirc (s : State) (k : Nat) : (s.ticks k).recirc = s.recirc := by unfold State.ticks; split <;> rfl
@[simp] theorem State.ticks_gm (s : State) (k : Nat) : (s.ticks k).gm = s.gm := by unfold State.ticks; split <;> rfl
@[simp] theorem State.ticks_xm (s : State) (k : Nat) : (s.ticks k).xm = s.xm := by unfold State.ticks; split <;> rfl
@[simp] theorem State.ticks_flash (s : State) (k : Nat) : (s.ticks k).flash = s.flash := by unfold State.ticks; split <;> rfl
@[simp] theorem State.ticks_pending (s : State) (k : Nat) : (s.ticks k).pending = s.pending := by unfold State.ticks; split <;> rfl
@[simp] theorem State.ticks_word (s : State) (k : Nat) (a : Nat) : (s.ticks k).word a = s.word a := by simp only [State.word, State.ticks_regs]
@[simp] theorem State.ticks_get (s : State) (k : Nat) (g : Fld) : (s.ticks k).get g = s.get g := State.get_congr (State.ticks_regs s k) g
@[simp] theorem State.ticks_on (s : State) (k : Nat) (g : Fld) : (s.ticks k).on g = s.on g := State.on_congr (State.ticks_regs s k) g

@[simp] theorem State.until_regs (s : State) (ns : Nat) : (s.until ns).regs = s.regs := by unfold State.until; split <;> simp only [State.ticks_regs]
@[simp] theorem State.until_capture (s : State) (ns : Nat) : (s.until ns).capture = s.capture := by unfold State.until; split <;> simp only [State.ticks_capture]
@[simp] theorem State.until_stage (s : State) (ns : Nat) : (s.until ns).stage = s.stage := by unfold State.until; split <;> simp only [State.ticks_stage]
@[simp] theorem State.until_readData (s : State) (ns : Nat) : (s.until ns).readData = s.readData := by unfold State.until; split <;> simp only [State.ticks_readData]
@[simp] theorem State.until_raised (s : State) (ns : Nat) : (s.until ns).raised = s.raised := by unfold State.until; split <;> simp only [State.ticks_raised]
@[simp] theorem State.until_freeCtr (s : State) (ns : Nat) : (s.until ns).freeCtr = s.freeCtr := by unfold State.until; split <;> simp only [State.ticks_freeCtr]
@[simp] theorem State.until_pins (s : State) (ns : Nat) : (s.until ns).pins = s.pins := by unfold State.until; split <;> simp only [State.ticks_pins]
@[simp] theorem State.until_ctl (s : State) (ns : Nat) : (s.until ns).ctl = s.ctl := by unfold State.until; split <;> simp only [State.ticks_ctl]
@[simp] theorem State.until_flt (s : State) (ns : Nat) : (s.until ns).flt = s.flt := by unfold State.until; split <;> simp only [State.ticks_flt]
@[simp] theorem State.until_acn (s : State) (ns : Nat) : (s.until ns).acn = s.acn := by unfold State.until; split <;> simp only [State.ticks_acn]
@[simp] theorem State.until_fuse (s : State) (ns : Nat) : (s.until ns).fuse = s.fuse := by unfold State.until; split <;> simp only [State.ticks_fuse]
@[simp] theorem State.until_sec (s : State) (ns : Nat) : (s.until ns).sec = s.sec := by unfold State.until; split <;> simp only [State.ticks_sec]
@[simp] theorem State.until_phs (s : State) (ns : Nat) : (s.until ns).phs = s.phs := by unfold State.until; split <;> simp only [State.ticks_phs]
@[simp] theorem State.until_yal (s : State) (ns : Nat) : (s.until ns).yal = s.yal := by unfold State.until; split <;> simp only [State.ticks_yal]
@[simp] theorem State.until_hts (s : State) (ns : Nat) : (s.until ns).hts = s.hts := by unfold State.until; split <;> simp only [State.ticks_hts]
@[simp] theorem State.until_seqs (s : State) (ns : Nat) : (s.until ns).seqs = s.seqs := by unfold State.until; split <;> simp only [State.ticks_seqs]
@[simp] theorem State.until_sd (s : State) (ns : Nat) : (s.until ns).sd = s.sd := by unfold State.until; split <;> simp only [State.ticks_sd]
@[simp] theorem State.until_cip (s : State) (ns : Nat) : (s.until ns).cip = s.cip := by unfold State.until; split <;> simp only [State.ticks_cip]
@[simp] theorem State.until_air (s : State) (ns : Nat) : (s.until ns).air = s.air := by unfold State.until; split <;> simp only [State.ticks_air]
@[simp] theorem State.until_ept (s : State) (ns : Nat) : (s.until ns).ept = s.ept := by unfold State.until; split <;> simp only [State.ticks_ept]
@[simp] theorem State.until_prs (s : State) (ns : Nat) : (s.until ns).prs = s.prs := by unfold State.until; split <;> simp only [State.ticks_prs]
@[simp] theorem State.until_dmc (s : State) (ns : Nat) : (s.until ns).dmc = s.dmc := by unfold State.until; split <;> simp only [State.ticks_dmc]
@[simp] theorem State.until_dma (s : State) (ns : Nat) : (s.until ns).dma = s.dma := by unfold State.until; split <;> simp only [State.ticks_dma]
@[simp] theorem State.until_hst (s : State) (ns : Nat) : (s.until ns).hst = s.hst := by unfold State.until; split <;> simp only [State.ticks_hst]
@[simp] theorem State.until_fed (s : State) (ns : Nat) : (s.until ns).fed = s.fed := by unfold State.until; split <;> simp only [State.ticks_fed]
@[simp] theorem State.until_hostOut (s : State) (ns : Nat) : (s.until ns).hostOut = s.hostOut := by unfold State.until; split <;> simp only [State.ticks_hostOut]
@[simp] theorem State.until_cu (s : State) (ns : Nat) : (s.until ns).cu = s.cu := by unfold State.until; split <;> simp only [State.ticks_cu]
@[simp] theorem State.until_recirc (s : State) (ns : Nat) : (s.until ns).recirc = s.recirc := by unfold State.until; split <;> simp only [State.ticks_recirc]
@[simp] theorem State.until_gm (s : State) (ns : Nat) : (s.until ns).gm = s.gm := by unfold State.until; split <;> simp only [State.ticks_gm]
@[simp] theorem State.until_xm (s : State) (ns : Nat) : (s.until ns).xm = s.xm := by unfold State.until; split <;> simp only [State.ticks_xm]
@[simp] theorem State.until_flash (s : State) (ns : Nat) : (s.until ns).flash = s.flash := by unfold State.until; split <;> simp only [State.ticks_flash]
@[simp] theorem State.until_pending (s : State) (ns : Nat) : (s.until ns).pending = s.pending := by unfold State.until; split <;> simp only [State.ticks_pending]
@[simp] theorem State.until_word (s : State) (ns : Nat) (a : Nat) : (s.until ns).word a = s.word a := by simp only [State.word, State.until_regs]
@[simp] theorem State.until_get (s : State) (ns : Nat) (g : Fld) : (s.until ns).get g = s.get g := State.get_congr (State.until_regs s ns) g
@[simp] theorem State.until_on (s : State) (ns : Nat) (g : Fld) : (s.until ns).on g = s.on g := State.on_congr (State.until_regs s ns) g

@[simp] theorem State.close_regs (s : State) : s.close.regs = s.regs := by rw [State.close]
@[simp] theorem State.close_capture (s : State) : s.close.capture = s.capture := by rw [State.close]
@[simp] theorem State.close_stage (s : State) : s.close.stage = s.stage := by rw [State.close]
@[simp] theorem State.close_readData (s : State) : s.close.readData = s.readData := by rw [State.close]
@[simp] theorem State.close_raised (s : State) : s.close.raised = s.raised := by rw [State.close]
@[simp] theorem State.close_freeCtr (s : State) : s.close.freeCtr = s.freeCtr := by rw [State.close]
@[simp] theorem State.close_ctl (s : State) : s.close.ctl = s.ctl := by rw [State.close]
@[simp] theorem State.close_flt (s : State) : s.close.flt = s.flt := by rw [State.close]
@[simp] theorem State.close_fuse (s : State) : s.close.fuse = s.fuse := by rw [State.close]
@[simp] theorem State.close_sec (s : State) : s.close.sec = s.sec := by rw [State.close]
@[simp] theorem State.close_time (s : State) : s.close.time = s.time := by rw [State.close]
@[simp] theorem State.close_phs (s : State) : s.close.phs = s.phs := by rw [State.close]
@[simp] theorem State.close_yal (s : State) : s.close.yal = s.yal := by rw [State.close]
@[simp] theorem State.close_hts (s : State) : s.close.hts = s.hts := by rw [State.close]
@[simp] theorem State.close_seqs (s : State) : s.close.seqs = s.seqs := by rw [State.close]
@[simp] theorem State.close_sd (s : State) : s.close.sd = s.sd := by rw [State.close]
@[simp] theorem State.close_cip (s : State) : s.close.cip = s.cip := by rw [State.close]
@[simp] theorem State.close_air (s : State) : s.close.air = s.air := by rw [State.close]
@[simp] theorem State.close_ept (s : State) : s.close.ept = s.ept := by rw [State.close]
@[simp] theorem State.close_prs (s : State) : s.close.prs = s.prs := by rw [State.close]
@[simp] theorem State.close_dmc (s : State) : s.close.dmc = s.dmc := by rw [State.close]
@[simp] theorem State.close_dma (s : State) : s.close.dma = s.dma := by rw [State.close]
@[simp] theorem State.close_hst (s : State) : s.close.hst = s.hst := by rw [State.close]
@[simp] theorem State.close_fed (s : State) : s.close.fed = s.fed := by rw [State.close]
@[simp] theorem State.close_hostOut (s : State) : s.close.hostOut = s.hostOut := by rw [State.close]
@[simp] theorem State.close_cu (s : State) : s.close.cu = s.cu := by rw [State.close]
@[simp] theorem State.close_recirc (s : State) : s.close.recirc = s.recirc := by rw [State.close]
@[simp] theorem State.close_gm (s : State) : s.close.gm = s.gm := by rw [State.close]
@[simp] theorem State.close_xm (s : State) : s.close.xm = s.xm := by rw [State.close]
@[simp] theorem State.close_flash (s : State) : s.close.flash = s.flash := by rw [State.close]
@[simp] theorem State.close_pending (s : State) : s.close.pending = s.pending := by rw [State.close]
@[simp] theorem State.close_word (s : State) (a : Nat) : s.close.word a = s.word a := by simp only [State.word, State.close_regs]
@[simp] theorem State.close_get (s : State) (g : Fld) : s.close.get g = s.get g := State.get_congr (State.close_regs s) g
@[simp] theorem State.close_on (s : State) (g : Fld) : s.close.on g = s.on g := State.on_congr (State.close_regs s) g

@[simp] theorem State.setThread_regs (s : State) (k : Nat) (x : Thread) : (s.setThread k x).regs = s.regs := rfl
@[simp] theorem State.setThread_capture (s : State) (k : Nat) (x : Thread) : (s.setThread k x).capture = s.capture := rfl
@[simp] theorem State.setThread_stage (s : State) (k : Nat) (x : Thread) : (s.setThread k x).stage = s.stage := rfl
@[simp] theorem State.setThread_readData (s : State) (k : Nat) (x : Thread) : (s.setThread k x).readData = s.readData := rfl
@[simp] theorem State.setThread_raised (s : State) (k : Nat) (x : Thread) : (s.setThread k x).raised = s.raised := rfl
@[simp] theorem State.setThread_freeCtr (s : State) (k : Nat) (x : Thread) : (s.setThread k x).freeCtr = s.freeCtr := rfl
@[simp] theorem State.setThread_pins (s : State) (k : Nat) (x : Thread) : (s.setThread k x).pins = s.pins := rfl
@[simp] theorem State.setThread_ctl (s : State) (k : Nat) (x : Thread) : (s.setThread k x).ctl = s.ctl := rfl
@[simp] theorem State.setThread_flt (s : State) (k : Nat) (x : Thread) : (s.setThread k x).flt = s.flt := rfl
@[simp] theorem State.setThread_acn (s : State) (k : Nat) (x : Thread) : (s.setThread k x).acn = s.acn := rfl
@[simp] theorem State.setThread_fuse (s : State) (k : Nat) (x : Thread) : (s.setThread k x).fuse = s.fuse := rfl
@[simp] theorem State.setThread_sec (s : State) (k : Nat) (x : Thread) : (s.setThread k x).sec = s.sec := rfl
@[simp] theorem State.setThread_time (s : State) (k : Nat) (x : Thread) : (s.setThread k x).time = s.time := rfl
@[simp] theorem State.setThread_phs (s : State) (k : Nat) (x : Thread) : (s.setThread k x).phs = s.phs := rfl
@[simp] theorem State.setThread_hts (s : State) (k : Nat) (x : Thread) : (s.setThread k x).hts = s.hts := rfl
@[simp] theorem State.setThread_seqs (s : State) (k : Nat) (x : Thread) : (s.setThread k x).seqs = s.seqs := rfl
@[simp] theorem State.setThread_sd (s : State) (k : Nat) (x : Thread) : (s.setThread k x).sd = s.sd := rfl
@[simp] theorem State.setThread_cip (s : State) (k : Nat) (x : Thread) : (s.setThread k x).cip = s.cip := rfl
@[simp] theorem State.setThread_air (s : State) (k : Nat) (x : Thread) : (s.setThread k x).air = s.air := rfl
@[simp] theorem State.setThread_ept (s : State) (k : Nat) (x : Thread) : (s.setThread k x).ept = s.ept := rfl
@[simp] theorem State.setThread_prs (s : State) (k : Nat) (x : Thread) : (s.setThread k x).prs = s.prs := rfl
@[simp] theorem State.setThread_dmc (s : State) (k : Nat) (x : Thread) : (s.setThread k x).dmc = s.dmc := rfl
@[simp] theorem State.setThread_dma (s : State) (k : Nat) (x : Thread) : (s.setThread k x).dma = s.dma := rfl
@[simp] theorem State.setThread_hst (s : State) (k : Nat) (x : Thread) : (s.setThread k x).hst = s.hst := rfl
@[simp] theorem State.setThread_fed (s : State) (k : Nat) (x : Thread) : (s.setThread k x).fed = s.fed := rfl
@[simp] theorem State.setThread_hostOut (s : State) (k : Nat) (x : Thread) : (s.setThread k x).hostOut = s.hostOut := rfl
@[simp] theorem State.setThread_cu (s : State) (k : Nat) (x : Thread) : (s.setThread k x).cu = s.cu := rfl
@[simp] theorem State.setThread_recirc (s : State) (k : Nat) (x : Thread) : (s.setThread k x).recirc = s.recirc := rfl
@[simp] theorem State.setThread_gm (s : State) (k : Nat) (x : Thread) : (s.setThread k x).gm = s.gm := rfl
@[simp] theorem State.setThread_xm (s : State) (k : Nat) (x : Thread) : (s.setThread k x).xm = s.xm := rfl
@[simp] theorem State.setThread_flash (s : State) (k : Nat) (x : Thread) : (s.setThread k x).flash = s.flash := rfl
@[simp] theorem State.setThread_pending (s : State) (k : Nat) (x : Thread) : (s.setThread k x).pending = s.pending := rfl
@[simp] theorem State.setThread_word (s : State) (k : Nat) (x : Thread) (a : Nat) : (s.setThread k x).word a = s.word a := by simp only [State.word, State.setThread_regs]
@[simp] theorem State.setThread_get (s : State) (k : Nat) (x : Thread) (g : Fld) : (s.setThread k x).get g = s.get g := State.get_congr (State.setThread_regs s k x) g
@[simp] theorem State.setThread_on (s : State) (k : Nat) (x : Thread) (g : Fld) : (s.setThread k x).on g = s.on g := State.on_congr (State.setThread_regs s k x) g

@[simp] theorem State.setReg_regs (s : State) (x r : Nat) (v : DWord) : (s.setReg x r v).regs = s.regs := by unfold State.setReg; split <;> rfl
@[simp] theorem State.setReg_capture (s : State) (x r : Nat) (v : DWord) : (s.setReg x r v).capture = s.capture := by unfold State.setReg; split <;> rfl
@[simp] theorem State.setReg_stage (s : State) (x r : Nat) (v : DWord) : (s.setReg x r v).stage = s.stage := by unfold State.setReg; split <;> rfl
@[simp] theorem State.setReg_readData (s : State) (x r : Nat) (v : DWord) : (s.setReg x r v).readData = s.readData := by unfold State.setReg; split <;> rfl
@[simp] theorem State.setReg_raised (s : State) (x r : Nat) (v : DWord) : (s.setReg x r v).raised = s.raised := by unfold State.setReg; split <;> rfl
@[simp] theorem State.setReg_freeCtr (s : State) (x r : Nat) (v : DWord) : (s.setReg x r v).freeCtr = s.freeCtr := by unfold State.setReg; split <;> rfl
@[simp] theorem State.setReg_pins (s : State) (x r : Nat) (v : DWord) : (s.setReg x r v).pins = s.pins := by unfold State.setReg; split <;> rfl
@[simp] theorem State.setReg_ctl (s : State) (x r : Nat) (v : DWord) : (s.setReg x r v).ctl = s.ctl := by unfold State.setReg; split <;> rfl
@[simp] theorem State.setReg_flt (s : State) (x r : Nat) (v : DWord) : (s.setReg x r v).flt = s.flt := by unfold State.setReg; split <;> rfl
@[simp] theorem State.setReg_acn (s : State) (x r : Nat) (v : DWord) : (s.setReg x r v).acn = s.acn := by unfold State.setReg; split <;> rfl
@[simp] theorem State.setReg_fuse (s : State) (x r : Nat) (v : DWord) : (s.setReg x r v).fuse = s.fuse := by unfold State.setReg; split <;> rfl
@[simp] theorem State.setReg_sec (s : State) (x r : Nat) (v : DWord) : (s.setReg x r v).sec = s.sec := by unfold State.setReg; split <;> rfl
@[simp] theorem State.setReg_time (s : State) (x r : Nat) (v : DWord) : (s.setReg x r v).time = s.time := by unfold State.setReg; split <;> rfl
@[simp] theorem State.setReg_phs (s : State) (x r : Nat) (v : DWord) : (s.setReg x r v).phs = s.phs := by unfold State.setReg; split <;> rfl
@[simp] theorem State.setReg_hts (s : State) (x r : Nat) (v : DWord) : (s.setReg x r v).hts = s.hts := by unfold State.setReg; split <;> rfl
@[simp] theorem State.setReg_seqs (s : State) (x r : Nat) (v : DWord) : (s.setReg x r v).seqs = s.seqs := by unfold State.setReg; split <;> rfl
@[simp] theorem State.setReg_sd (s : State) (x r : Nat) (v : DWord) : (s.setReg x r v).sd = s.sd := by unfold State.setReg; split <;> rfl
@[simp] theorem State.setReg_cip (s : State) (x r : Nat) (v : DWord) : (s.setReg x r v).cip = s.cip := by unfold State.setReg; split <;> rfl
@[simp] theorem State.setReg_air (s : State) (x r : Nat) (v : DWord) : (s.setReg x r v).air = s.air := by unfold State.setReg; split <;> rfl
@[simp] theorem State.setReg_ept (s : State) (x r : Nat) (v : DWord) : (s.setReg x r v).ept = s.ept := by unfold State.setReg; split <;> rfl
@[simp] theorem State.setReg_prs (s : State) (x r : Nat) (v : DWord) : (s.setReg x r v).prs = s.prs := by unfold State.setReg; split <;> rfl
@[simp] theorem State.setReg_dmc (s : State) (x r : Nat) (v : DWord) : (s.setReg x r v).dmc = s.dmc := by unfold State.setReg; split <;> rfl
@[simp] theorem State.setReg_dma (s : State) (x r : Nat) (v : DWord) : (s.setReg x r v).dma = s.dma := by unfold State.setReg; split <;> rfl
@[simp] theorem State.setReg_hst (s : State) (x r : Nat) (v : DWord) : (s.setReg x r v).hst = s.hst := by unfold State.setReg; split <;> rfl
@[simp] theorem State.setReg_fed (s : State) (x r : Nat) (v : DWord) : (s.setReg x r v).fed = s.fed := by unfold State.setReg; split <;> rfl
@[simp] theorem State.setReg_hostOut (s : State) (x r : Nat) (v : DWord) : (s.setReg x r v).hostOut = s.hostOut := by unfold State.setReg; split <;> rfl
@[simp] theorem State.setReg_cu (s : State) (x r : Nat) (v : DWord) : (s.setReg x r v).cu = s.cu := by unfold State.setReg; split <;> rfl
@[simp] theorem State.setReg_recirc (s : State) (x r : Nat) (v : DWord) : (s.setReg x r v).recirc = s.recirc := by unfold State.setReg; split <;> rfl
@[simp] theorem State.setReg_gm (s : State) (x r : Nat) (v : DWord) : (s.setReg x r v).gm = s.gm := by unfold State.setReg; split <;> rfl
@[simp] theorem State.setReg_xm (s : State) (x r : Nat) (v : DWord) : (s.setReg x r v).xm = s.xm := by unfold State.setReg; split <;> rfl
@[simp] theorem State.setReg_flash (s : State) (x r : Nat) (v : DWord) : (s.setReg x r v).flash = s.flash := by unfold State.setReg; split <;> rfl
@[simp] theorem State.setReg_pending (s : State) (x r : Nat) (v : DWord) : (s.setReg x r v).pending = s.pending := by unfold State.setReg; split <;> rfl
@[simp] theorem State.setReg_word (s : State) (x r : Nat) (v : DWord) (a : Nat) : (s.setReg x r v).word a = s.word a := by simp only [State.word, State.setReg_regs]
@[simp] theorem State.setReg_get (s : State) (x r : Nat) (v : DWord) (g : Fld) : (s.setReg x r v).get g = s.get g := State.get_congr (State.setReg_regs s x r v) g
@[simp] theorem State.setReg_on (s : State) (x r : Nat) (v : DWord) (g : Fld) : (s.setReg x r v).on g = s.on g := State.on_congr (State.setReg_regs s x r v) g

@[simp] theorem State.setLoad_regs (s : State) (l : Option Load) : (s.setLoad l).regs = s.regs := rfl
@[simp] theorem State.setLoad_capture (s : State) (l : Option Load) : (s.setLoad l).capture = s.capture := rfl
@[simp] theorem State.setLoad_stage (s : State) (l : Option Load) : (s.setLoad l).stage = s.stage := rfl
@[simp] theorem State.setLoad_readData (s : State) (l : Option Load) : (s.setLoad l).readData = s.readData := rfl
@[simp] theorem State.setLoad_raised (s : State) (l : Option Load) : (s.setLoad l).raised = s.raised := rfl
@[simp] theorem State.setLoad_freeCtr (s : State) (l : Option Load) : (s.setLoad l).freeCtr = s.freeCtr := rfl
@[simp] theorem State.setLoad_pins (s : State) (l : Option Load) : (s.setLoad l).pins = s.pins := rfl
@[simp] theorem State.setLoad_ctl (s : State) (l : Option Load) : (s.setLoad l).ctl = s.ctl := rfl
@[simp] theorem State.setLoad_flt (s : State) (l : Option Load) : (s.setLoad l).flt = s.flt := rfl
@[simp] theorem State.setLoad_acn (s : State) (l : Option Load) : (s.setLoad l).acn = s.acn := rfl
@[simp] theorem State.setLoad_fuse (s : State) (l : Option Load) : (s.setLoad l).fuse = s.fuse := rfl
@[simp] theorem State.setLoad_sec (s : State) (l : Option Load) : (s.setLoad l).sec = s.sec := rfl
@[simp] theorem State.setLoad_time (s : State) (l : Option Load) : (s.setLoad l).time = s.time := rfl
@[simp] theorem State.setLoad_phs (s : State) (l : Option Load) : (s.setLoad l).phs = s.phs := rfl
@[simp] theorem State.setLoad_hts (s : State) (l : Option Load) : (s.setLoad l).hts = s.hts := rfl
@[simp] theorem State.setLoad_seqs (s : State) (l : Option Load) : (s.setLoad l).seqs = s.seqs := rfl
@[simp] theorem State.setLoad_sd (s : State) (l : Option Load) : (s.setLoad l).sd = s.sd := rfl
@[simp] theorem State.setLoad_cip (s : State) (l : Option Load) : (s.setLoad l).cip = s.cip := rfl
@[simp] theorem State.setLoad_air (s : State) (l : Option Load) : (s.setLoad l).air = s.air := rfl
@[simp] theorem State.setLoad_ept (s : State) (l : Option Load) : (s.setLoad l).ept = s.ept := rfl
@[simp] theorem State.setLoad_prs (s : State) (l : Option Load) : (s.setLoad l).prs = s.prs := rfl
@[simp] theorem State.setLoad_dmc (s : State) (l : Option Load) : (s.setLoad l).dmc = s.dmc := rfl
@[simp] theorem State.setLoad_dma (s : State) (l : Option Load) : (s.setLoad l).dma = s.dma := rfl
@[simp] theorem State.setLoad_hst (s : State) (l : Option Load) : (s.setLoad l).hst = s.hst := rfl
@[simp] theorem State.setLoad_fed (s : State) (l : Option Load) : (s.setLoad l).fed = s.fed := rfl
@[simp] theorem State.setLoad_hostOut (s : State) (l : Option Load) : (s.setLoad l).hostOut = s.hostOut := rfl
@[simp] theorem State.setLoad_cu (s : State) (l : Option Load) : (s.setLoad l).cu = s.cu := rfl
@[simp] theorem State.setLoad_recirc (s : State) (l : Option Load) : (s.setLoad l).recirc = s.recirc := rfl
@[simp] theorem State.setLoad_gm (s : State) (l : Option Load) : (s.setLoad l).gm = s.gm := rfl
@[simp] theorem State.setLoad_xm (s : State) (l : Option Load) : (s.setLoad l).xm = s.xm := rfl
@[simp] theorem State.setLoad_flash (s : State) (l : Option Load) : (s.setLoad l).flash = s.flash := rfl
@[simp] theorem State.setLoad_pending (s : State) (l : Option Load) : (s.setLoad l).pending = s.pending := rfl
@[simp] theorem State.setLoad_word (s : State) (l : Option Load) (a : Nat) : (s.setLoad l).word a = s.word a := by simp only [State.word, State.setLoad_regs]
@[simp] theorem State.setLoad_get (s : State) (l : Option Load) (g : Fld) : (s.setLoad l).get g = s.get g := State.get_congr (State.setLoad_regs s l) g
@[simp] theorem State.setLoad_on (s : State) (l : Option Load) (g : Fld) : (s.setLoad l).on g = s.on g := State.on_congr (State.setLoad_regs s l) g

@[simp] theorem State.setSeq_regs (s : State) (n : Nat) (q : Seqr) : (s.setSeq n q).regs = s.regs := rfl
@[simp] theorem State.setSeq_capture (s : State) (n : Nat) (q : Seqr) : (s.setSeq n q).capture = s.capture := rfl
@[simp] theorem State.setSeq_stage (s : State) (n : Nat) (q : Seqr) : (s.setSeq n q).stage = s.stage := rfl
@[simp] theorem State.setSeq_readData (s : State) (n : Nat) (q : Seqr) : (s.setSeq n q).readData = s.readData := rfl
@[simp] theorem State.setSeq_raised (s : State) (n : Nat) (q : Seqr) : (s.setSeq n q).raised = s.raised := rfl
@[simp] theorem State.setSeq_freeCtr (s : State) (n : Nat) (q : Seqr) : (s.setSeq n q).freeCtr = s.freeCtr := rfl
@[simp] theorem State.setSeq_pins (s : State) (n : Nat) (q : Seqr) : (s.setSeq n q).pins = s.pins := rfl
@[simp] theorem State.setSeq_ctl (s : State) (n : Nat) (q : Seqr) : (s.setSeq n q).ctl = s.ctl := rfl
@[simp] theorem State.setSeq_flt (s : State) (n : Nat) (q : Seqr) : (s.setSeq n q).flt = s.flt := rfl
@[simp] theorem State.setSeq_acn (s : State) (n : Nat) (q : Seqr) : (s.setSeq n q).acn = s.acn := rfl
@[simp] theorem State.setSeq_fuse (s : State) (n : Nat) (q : Seqr) : (s.setSeq n q).fuse = s.fuse := rfl
@[simp] theorem State.setSeq_sec (s : State) (n : Nat) (q : Seqr) : (s.setSeq n q).sec = s.sec := rfl
@[simp] theorem State.setSeq_time (s : State) (n : Nat) (q : Seqr) : (s.setSeq n q).time = s.time := rfl
@[simp] theorem State.setSeq_phs (s : State) (n : Nat) (q : Seqr) : (s.setSeq n q).phs = s.phs := rfl
@[simp] theorem State.setSeq_yal (s : State) (n : Nat) (q : Seqr) : (s.setSeq n q).yal = s.yal := rfl
@[simp] theorem State.setSeq_hts (s : State) (n : Nat) (q : Seqr) : (s.setSeq n q).hts = s.hts := rfl
@[simp] theorem State.setSeq_sd (s : State) (n : Nat) (q : Seqr) : (s.setSeq n q).sd = s.sd := rfl
@[simp] theorem State.setSeq_cip (s : State) (n : Nat) (q : Seqr) : (s.setSeq n q).cip = s.cip := rfl
@[simp] theorem State.setSeq_air (s : State) (n : Nat) (q : Seqr) : (s.setSeq n q).air = s.air := rfl
@[simp] theorem State.setSeq_ept (s : State) (n : Nat) (q : Seqr) : (s.setSeq n q).ept = s.ept := rfl
@[simp] theorem State.setSeq_prs (s : State) (n : Nat) (q : Seqr) : (s.setSeq n q).prs = s.prs := rfl
@[simp] theorem State.setSeq_dmc (s : State) (n : Nat) (q : Seqr) : (s.setSeq n q).dmc = s.dmc := rfl
@[simp] theorem State.setSeq_dma (s : State) (n : Nat) (q : Seqr) : (s.setSeq n q).dma = s.dma := rfl
@[simp] theorem State.setSeq_hst (s : State) (n : Nat) (q : Seqr) : (s.setSeq n q).hst = s.hst := rfl
@[simp] theorem State.setSeq_fed (s : State) (n : Nat) (q : Seqr) : (s.setSeq n q).fed = s.fed := rfl
@[simp] theorem State.setSeq_hostOut (s : State) (n : Nat) (q : Seqr) : (s.setSeq n q).hostOut = s.hostOut := rfl
@[simp] theorem State.setSeq_cu (s : State) (n : Nat) (q : Seqr) : (s.setSeq n q).cu = s.cu := rfl
@[simp] theorem State.setSeq_recirc (s : State) (n : Nat) (q : Seqr) : (s.setSeq n q).recirc = s.recirc := rfl
@[simp] theorem State.setSeq_gm (s : State) (n : Nat) (q : Seqr) : (s.setSeq n q).gm = s.gm := rfl
@[simp] theorem State.setSeq_xm (s : State) (n : Nat) (q : Seqr) : (s.setSeq n q).xm = s.xm := rfl
@[simp] theorem State.setSeq_flash (s : State) (n : Nat) (q : Seqr) : (s.setSeq n q).flash = s.flash := rfl
@[simp] theorem State.setSeq_pending (s : State) (n : Nat) (q : Seqr) : (s.setSeq n q).pending = s.pending := rfl
@[simp] theorem State.setSeq_word (s : State) (n : Nat) (q : Seqr) (a : Nat) : (s.setSeq n q).word a = s.word a := by simp only [State.word, State.setSeq_regs]
@[simp] theorem State.setSeq_get (s : State) (n : Nat) (q : Seqr) (g : Fld) : (s.setSeq n q).get g = s.get g := State.get_congr (State.setSeq_regs s n q) g
@[simp] theorem State.setSeq_on (s : State) (n : Nat) (q : Seqr) (g : Fld) : (s.setSeq n q).on g = s.on g := State.on_congr (State.setSeq_regs s n q) g

@[simp] theorem State.setRadio_regs (s : State) (n : Nat) (x : Radio) : (s.setRadio n x).regs = s.regs := rfl
@[simp] theorem State.setRadio_capture (s : State) (n : Nat) (x : Radio) : (s.setRadio n x).capture = s.capture := rfl
@[simp] theorem State.setRadio_stage (s : State) (n : Nat) (x : Radio) : (s.setRadio n x).stage = s.stage := rfl
@[simp] theorem State.setRadio_readData (s : State) (n : Nat) (x : Radio) : (s.setRadio n x).readData = s.readData := rfl
@[simp] theorem State.setRadio_raised (s : State) (n : Nat) (x : Radio) : (s.setRadio n x).raised = s.raised := rfl
@[simp] theorem State.setRadio_freeCtr (s : State) (n : Nat) (x : Radio) : (s.setRadio n x).freeCtr = s.freeCtr := rfl
@[simp] theorem State.setRadio_pins (s : State) (n : Nat) (x : Radio) : (s.setRadio n x).pins = s.pins := rfl
@[simp] theorem State.setRadio_ctl (s : State) (n : Nat) (x : Radio) : (s.setRadio n x).ctl = s.ctl := rfl
@[simp] theorem State.setRadio_flt (s : State) (n : Nat) (x : Radio) : (s.setRadio n x).flt = s.flt := rfl
@[simp] theorem State.setRadio_acn (s : State) (n : Nat) (x : Radio) : (s.setRadio n x).acn = s.acn := rfl
@[simp] theorem State.setRadio_fuse (s : State) (n : Nat) (x : Radio) : (s.setRadio n x).fuse = s.fuse := rfl
@[simp] theorem State.setRadio_sec (s : State) (n : Nat) (x : Radio) : (s.setRadio n x).sec = s.sec := rfl
@[simp] theorem State.setRadio_time (s : State) (n : Nat) (x : Radio) : (s.setRadio n x).time = s.time := rfl
@[simp] theorem State.setRadio_phs (s : State) (n : Nat) (x : Radio) : (s.setRadio n x).phs = s.phs := rfl
@[simp] theorem State.setRadio_yal (s : State) (n : Nat) (x : Radio) : (s.setRadio n x).yal = s.yal := rfl
@[simp] theorem State.setRadio_hts (s : State) (n : Nat) (x : Radio) : (s.setRadio n x).hts = s.hts := rfl
@[simp] theorem State.setRadio_seqs (s : State) (n : Nat) (x : Radio) : (s.setRadio n x).seqs = s.seqs := rfl
@[simp] theorem State.setRadio_sd (s : State) (n : Nat) (x : Radio) : (s.setRadio n x).sd = s.sd := rfl
@[simp] theorem State.setRadio_cip (s : State) (n : Nat) (x : Radio) : (s.setRadio n x).cip = s.cip := rfl
@[simp] theorem State.setRadio_ept (s : State) (n : Nat) (x : Radio) : (s.setRadio n x).ept = s.ept := rfl
@[simp] theorem State.setRadio_prs (s : State) (n : Nat) (x : Radio) : (s.setRadio n x).prs = s.prs := rfl
@[simp] theorem State.setRadio_dmc (s : State) (n : Nat) (x : Radio) : (s.setRadio n x).dmc = s.dmc := rfl
@[simp] theorem State.setRadio_dma (s : State) (n : Nat) (x : Radio) : (s.setRadio n x).dma = s.dma := rfl
@[simp] theorem State.setRadio_hst (s : State) (n : Nat) (x : Radio) : (s.setRadio n x).hst = s.hst := rfl
@[simp] theorem State.setRadio_fed (s : State) (n : Nat) (x : Radio) : (s.setRadio n x).fed = s.fed := rfl
@[simp] theorem State.setRadio_hostOut (s : State) (n : Nat) (x : Radio) : (s.setRadio n x).hostOut = s.hostOut := rfl
@[simp] theorem State.setRadio_cu (s : State) (n : Nat) (x : Radio) : (s.setRadio n x).cu = s.cu := rfl
@[simp] theorem State.setRadio_recirc (s : State) (n : Nat) (x : Radio) : (s.setRadio n x).recirc = s.recirc := rfl
@[simp] theorem State.setRadio_gm (s : State) (n : Nat) (x : Radio) : (s.setRadio n x).gm = s.gm := rfl
@[simp] theorem State.setRadio_xm (s : State) (n : Nat) (x : Radio) : (s.setRadio n x).xm = s.xm := rfl
@[simp] theorem State.setRadio_flash (s : State) (n : Nat) (x : Radio) : (s.setRadio n x).flash = s.flash := rfl
@[simp] theorem State.setRadio_pending (s : State) (n : Nat) (x : Radio) : (s.setRadio n x).pending = s.pending := rfl
@[simp] theorem State.setRadio_word (s : State) (n : Nat) (x : Radio) (a : Nat) : (s.setRadio n x).word a = s.word a := by simp only [State.word, State.setRadio_regs]
@[simp] theorem State.setRadio_get (s : State) (n : Nat) (x : Radio) (g : Fld) : (s.setRadio n x).get g = s.get g := State.get_congr (State.setRadio_regs s n x) g
@[simp] theorem State.setRadio_on (s : State) (n : Nat) (x : Radio) (g : Fld) : (s.setRadio n x).on g = s.on g := State.on_congr (State.setRadio_regs s n x) g

@[simp] theorem State.setPip_regs (s : State) (p : PipSt) : (s.setPip p).regs = s.regs := rfl
@[simp] theorem State.setPip_capture (s : State) (p : PipSt) : (s.setPip p).capture = s.capture := rfl
@[simp] theorem State.setPip_stage (s : State) (p : PipSt) : (s.setPip p).stage = s.stage := rfl
@[simp] theorem State.setPip_readData (s : State) (p : PipSt) : (s.setPip p).readData = s.readData := rfl
@[simp] theorem State.setPip_raised (s : State) (p : PipSt) : (s.setPip p).raised = s.raised := rfl
@[simp] theorem State.setPip_freeCtr (s : State) (p : PipSt) : (s.setPip p).freeCtr = s.freeCtr := rfl
@[simp] theorem State.setPip_pins (s : State) (p : PipSt) : (s.setPip p).pins = s.pins := rfl
@[simp] theorem State.setPip_ctl (s : State) (p : PipSt) : (s.setPip p).ctl = s.ctl := rfl
@[simp] theorem State.setPip_flt (s : State) (p : PipSt) : (s.setPip p).flt = s.flt := rfl
@[simp] theorem State.setPip_acn (s : State) (p : PipSt) : (s.setPip p).acn = s.acn := rfl
@[simp] theorem State.setPip_fuse (s : State) (p : PipSt) : (s.setPip p).fuse = s.fuse := rfl
@[simp] theorem State.setPip_sec (s : State) (p : PipSt) : (s.setPip p).sec = s.sec := rfl
@[simp] theorem State.setPip_time (s : State) (p : PipSt) : (s.setPip p).time = s.time := rfl
@[simp] theorem State.setPip_phs (s : State) (p : PipSt) : (s.setPip p).phs = s.phs := rfl
@[simp] theorem State.setPip_yal (s : State) (p : PipSt) : (s.setPip p).yal = s.yal := rfl
@[simp] theorem State.setPip_hts (s : State) (p : PipSt) : (s.setPip p).hts = s.hts := rfl
@[simp] theorem State.setPip_seqs (s : State) (p : PipSt) : (s.setPip p).seqs = s.seqs := rfl
@[simp] theorem State.setPip_sd (s : State) (p : PipSt) : (s.setPip p).sd = s.sd := rfl
@[simp] theorem State.setPip_cip (s : State) (p : PipSt) : (s.setPip p).cip = s.cip := rfl
@[simp] theorem State.setPip_ept (s : State) (p : PipSt) : (s.setPip p).ept = s.ept := rfl
@[simp] theorem State.setPip_prs (s : State) (p : PipSt) : (s.setPip p).prs = s.prs := rfl
@[simp] theorem State.setPip_dmc (s : State) (p : PipSt) : (s.setPip p).dmc = s.dmc := rfl
@[simp] theorem State.setPip_dma (s : State) (p : PipSt) : (s.setPip p).dma = s.dma := rfl
@[simp] theorem State.setPip_hst (s : State) (p : PipSt) : (s.setPip p).hst = s.hst := rfl
@[simp] theorem State.setPip_fed (s : State) (p : PipSt) : (s.setPip p).fed = s.fed := rfl
@[simp] theorem State.setPip_hostOut (s : State) (p : PipSt) : (s.setPip p).hostOut = s.hostOut := rfl
@[simp] theorem State.setPip_cu (s : State) (p : PipSt) : (s.setPip p).cu = s.cu := rfl
@[simp] theorem State.setPip_recirc (s : State) (p : PipSt) : (s.setPip p).recirc = s.recirc := rfl
@[simp] theorem State.setPip_gm (s : State) (p : PipSt) : (s.setPip p).gm = s.gm := rfl
@[simp] theorem State.setPip_xm (s : State) (p : PipSt) : (s.setPip p).xm = s.xm := rfl
@[simp] theorem State.setPip_flash (s : State) (p : PipSt) : (s.setPip p).flash = s.flash := rfl
@[simp] theorem State.setPip_pending (s : State) (p : PipSt) : (s.setPip p).pending = s.pending := rfl
@[simp] theorem State.setPip_word (s : State) (p : PipSt) (a : Nat) : (s.setPip p).word a = s.word a := by simp only [State.word, State.setPip_regs]
@[simp] theorem State.setPip_get (s : State) (p : PipSt) (g : Fld) : (s.setPip p).get g = s.get g := State.get_congr (State.setPip_regs s p) g
@[simp] theorem State.setPip_on (s : State) (p : PipSt) (g : Fld) : (s.setPip p).on g = s.on g := State.on_congr (State.setPip_regs s p) g

@[simp] theorem State.setCup_regs (s : State) (c : Nat) (x : CuSt) : (s.setCup c x).regs = s.regs := rfl
@[simp] theorem State.setCup_capture (s : State) (c : Nat) (x : CuSt) : (s.setCup c x).capture = s.capture := rfl
@[simp] theorem State.setCup_stage (s : State) (c : Nat) (x : CuSt) : (s.setCup c x).stage = s.stage := rfl
@[simp] theorem State.setCup_readData (s : State) (c : Nat) (x : CuSt) : (s.setCup c x).readData = s.readData := rfl
@[simp] theorem State.setCup_raised (s : State) (c : Nat) (x : CuSt) : (s.setCup c x).raised = s.raised := rfl
@[simp] theorem State.setCup_freeCtr (s : State) (c : Nat) (x : CuSt) : (s.setCup c x).freeCtr = s.freeCtr := rfl
@[simp] theorem State.setCup_pins (s : State) (c : Nat) (x : CuSt) : (s.setCup c x).pins = s.pins := rfl
@[simp] theorem State.setCup_ctl (s : State) (c : Nat) (x : CuSt) : (s.setCup c x).ctl = s.ctl := rfl
@[simp] theorem State.setCup_flt (s : State) (c : Nat) (x : CuSt) : (s.setCup c x).flt = s.flt := rfl
@[simp] theorem State.setCup_acn (s : State) (c : Nat) (x : CuSt) : (s.setCup c x).acn = s.acn := rfl
@[simp] theorem State.setCup_fuse (s : State) (c : Nat) (x : CuSt) : (s.setCup c x).fuse = s.fuse := rfl
@[simp] theorem State.setCup_sec (s : State) (c : Nat) (x : CuSt) : (s.setCup c x).sec = s.sec := rfl
@[simp] theorem State.setCup_time (s : State) (c : Nat) (x : CuSt) : (s.setCup c x).time = s.time := rfl
@[simp] theorem State.setCup_phs (s : State) (c : Nat) (x : CuSt) : (s.setCup c x).phs = s.phs := rfl
@[simp] theorem State.setCup_yal (s : State) (c : Nat) (x : CuSt) : (s.setCup c x).yal = s.yal := rfl
@[simp] theorem State.setCup_hts (s : State) (c : Nat) (x : CuSt) : (s.setCup c x).hts = s.hts := rfl
@[simp] theorem State.setCup_seqs (s : State) (c : Nat) (x : CuSt) : (s.setCup c x).seqs = s.seqs := rfl
@[simp] theorem State.setCup_sd (s : State) (c : Nat) (x : CuSt) : (s.setCup c x).sd = s.sd := rfl
@[simp] theorem State.setCup_cip (s : State) (c : Nat) (x : CuSt) : (s.setCup c x).cip = s.cip := rfl
@[simp] theorem State.setCup_air (s : State) (c : Nat) (x : CuSt) : (s.setCup c x).air = s.air := rfl
@[simp] theorem State.setCup_ept (s : State) (c : Nat) (x : CuSt) : (s.setCup c x).ept = s.ept := rfl
@[simp] theorem State.setCup_prs (s : State) (c : Nat) (x : CuSt) : (s.setCup c x).prs = s.prs := rfl
@[simp] theorem State.setCup_dmc (s : State) (c : Nat) (x : CuSt) : (s.setCup c x).dmc = s.dmc := rfl
@[simp] theorem State.setCup_dma (s : State) (c : Nat) (x : CuSt) : (s.setCup c x).dma = s.dma := rfl
@[simp] theorem State.setCup_hst (s : State) (c : Nat) (x : CuSt) : (s.setCup c x).hst = s.hst := rfl
@[simp] theorem State.setCup_fed (s : State) (c : Nat) (x : CuSt) : (s.setCup c x).fed = s.fed := rfl
@[simp] theorem State.setCup_hostOut (s : State) (c : Nat) (x : CuSt) : (s.setCup c x).hostOut = s.hostOut := rfl
@[simp] theorem State.setCup_recirc (s : State) (c : Nat) (x : CuSt) : (s.setCup c x).recirc = s.recirc := rfl
@[simp] theorem State.setCup_gm (s : State) (c : Nat) (x : CuSt) : (s.setCup c x).gm = s.gm := rfl
@[simp] theorem State.setCup_xm (s : State) (c : Nat) (x : CuSt) : (s.setCup c x).xm = s.xm := rfl
@[simp] theorem State.setCup_flash (s : State) (c : Nat) (x : CuSt) : (s.setCup c x).flash = s.flash := rfl
@[simp] theorem State.setCup_pending (s : State) (c : Nat) (x : CuSt) : (s.setCup c x).pending = s.pending := rfl
@[simp] theorem State.setCup_word (s : State) (c : Nat) (x : CuSt) (a : Nat) : (s.setCup c x).word a = s.word a := by simp only [State.word, State.setCup_regs]
@[simp] theorem State.setCup_get (s : State) (c : Nat) (x : CuSt) (g : Fld) : (s.setCup c x).get g = s.get g := State.get_congr (State.setCup_regs s c x) g
@[simp] theorem State.setCup_on (s : State) (c : Nat) (x : CuSt) (g : Fld) : (s.setCup c x).on g = s.on g := State.on_congr (State.setCup_regs s c x) g

@[simp] theorem State.setDch_regs (s : State) (c : Nat) (x : DmaCh) : (s.setDch c x).regs = s.regs := rfl
@[simp] theorem State.setDch_capture (s : State) (c : Nat) (x : DmaCh) : (s.setDch c x).capture = s.capture := rfl
@[simp] theorem State.setDch_stage (s : State) (c : Nat) (x : DmaCh) : (s.setDch c x).stage = s.stage := rfl
@[simp] theorem State.setDch_readData (s : State) (c : Nat) (x : DmaCh) : (s.setDch c x).readData = s.readData := rfl
@[simp] theorem State.setDch_raised (s : State) (c : Nat) (x : DmaCh) : (s.setDch c x).raised = s.raised := rfl
@[simp] theorem State.setDch_freeCtr (s : State) (c : Nat) (x : DmaCh) : (s.setDch c x).freeCtr = s.freeCtr := rfl
@[simp] theorem State.setDch_pins (s : State) (c : Nat) (x : DmaCh) : (s.setDch c x).pins = s.pins := rfl
@[simp] theorem State.setDch_ctl (s : State) (c : Nat) (x : DmaCh) : (s.setDch c x).ctl = s.ctl := rfl
@[simp] theorem State.setDch_flt (s : State) (c : Nat) (x : DmaCh) : (s.setDch c x).flt = s.flt := rfl
@[simp] theorem State.setDch_acn (s : State) (c : Nat) (x : DmaCh) : (s.setDch c x).acn = s.acn := rfl
@[simp] theorem State.setDch_fuse (s : State) (c : Nat) (x : DmaCh) : (s.setDch c x).fuse = s.fuse := rfl
@[simp] theorem State.setDch_sec (s : State) (c : Nat) (x : DmaCh) : (s.setDch c x).sec = s.sec := rfl
@[simp] theorem State.setDch_time (s : State) (c : Nat) (x : DmaCh) : (s.setDch c x).time = s.time := rfl
@[simp] theorem State.setDch_phs (s : State) (c : Nat) (x : DmaCh) : (s.setDch c x).phs = s.phs := rfl
@[simp] theorem State.setDch_yal (s : State) (c : Nat) (x : DmaCh) : (s.setDch c x).yal = s.yal := rfl
@[simp] theorem State.setDch_hts (s : State) (c : Nat) (x : DmaCh) : (s.setDch c x).hts = s.hts := rfl
@[simp] theorem State.setDch_seqs (s : State) (c : Nat) (x : DmaCh) : (s.setDch c x).seqs = s.seqs := rfl
@[simp] theorem State.setDch_sd (s : State) (c : Nat) (x : DmaCh) : (s.setDch c x).sd = s.sd := rfl
@[simp] theorem State.setDch_cip (s : State) (c : Nat) (x : DmaCh) : (s.setDch c x).cip = s.cip := rfl
@[simp] theorem State.setDch_air (s : State) (c : Nat) (x : DmaCh) : (s.setDch c x).air = s.air := rfl
@[simp] theorem State.setDch_ept (s : State) (c : Nat) (x : DmaCh) : (s.setDch c x).ept = s.ept := rfl
@[simp] theorem State.setDch_prs (s : State) (c : Nat) (x : DmaCh) : (s.setDch c x).prs = s.prs := rfl
@[simp] theorem State.setDch_dmc (s : State) (c : Nat) (x : DmaCh) : (s.setDch c x).dmc = s.dmc := rfl
@[simp] theorem State.setDch_hst (s : State) (c : Nat) (x : DmaCh) : (s.setDch c x).hst = s.hst := rfl
@[simp] theorem State.setDch_fed (s : State) (c : Nat) (x : DmaCh) : (s.setDch c x).fed = s.fed := rfl
@[simp] theorem State.setDch_hostOut (s : State) (c : Nat) (x : DmaCh) : (s.setDch c x).hostOut = s.hostOut := rfl
@[simp] theorem State.setDch_cu (s : State) (c : Nat) (x : DmaCh) : (s.setDch c x).cu = s.cu := rfl
@[simp] theorem State.setDch_recirc (s : State) (c : Nat) (x : DmaCh) : (s.setDch c x).recirc = s.recirc := rfl
@[simp] theorem State.setDch_gm (s : State) (c : Nat) (x : DmaCh) : (s.setDch c x).gm = s.gm := rfl
@[simp] theorem State.setDch_xm (s : State) (c : Nat) (x : DmaCh) : (s.setDch c x).xm = s.xm := rfl
@[simp] theorem State.setDch_flash (s : State) (c : Nat) (x : DmaCh) : (s.setDch c x).flash = s.flash := rfl
@[simp] theorem State.setDch_pending (s : State) (c : Nat) (x : DmaCh) : (s.setDch c x).pending = s.pending := rfl
@[simp] theorem State.setDch_word (s : State) (c : Nat) (x : DmaCh) (a : Nat) : (s.setDch c x).word a = s.word a := by simp only [State.word, State.setDch_regs]
@[simp] theorem State.setDch_get (s : State) (c : Nat) (x : DmaCh) (g : Fld) : (s.setDch c x).get g = s.get g := State.get_congr (State.setDch_regs s c x) g
@[simp] theorem State.setDch_on (s : State) (c : Nat) (x : DmaCh) (g : Fld) : (s.setDch c x).on g = s.on g := State.on_congr (State.setDch_regs s c x) g

@[simp] theorem State.setVec_regs (s : State) (v : Nat) (x : MsixVec) : (s.setVec v x).regs = s.regs := rfl
@[simp] theorem State.setVec_capture (s : State) (v : Nat) (x : MsixVec) : (s.setVec v x).capture = s.capture := rfl
@[simp] theorem State.setVec_stage (s : State) (v : Nat) (x : MsixVec) : (s.setVec v x).stage = s.stage := rfl
@[simp] theorem State.setVec_readData (s : State) (v : Nat) (x : MsixVec) : (s.setVec v x).readData = s.readData := rfl
@[simp] theorem State.setVec_raised (s : State) (v : Nat) (x : MsixVec) : (s.setVec v x).raised = s.raised := rfl
@[simp] theorem State.setVec_freeCtr (s : State) (v : Nat) (x : MsixVec) : (s.setVec v x).freeCtr = s.freeCtr := rfl
@[simp] theorem State.setVec_pins (s : State) (v : Nat) (x : MsixVec) : (s.setVec v x).pins = s.pins := rfl
@[simp] theorem State.setVec_ctl (s : State) (v : Nat) (x : MsixVec) : (s.setVec v x).ctl = s.ctl := rfl
@[simp] theorem State.setVec_flt (s : State) (v : Nat) (x : MsixVec) : (s.setVec v x).flt = s.flt := rfl
@[simp] theorem State.setVec_acn (s : State) (v : Nat) (x : MsixVec) : (s.setVec v x).acn = s.acn := rfl
@[simp] theorem State.setVec_fuse (s : State) (v : Nat) (x : MsixVec) : (s.setVec v x).fuse = s.fuse := rfl
@[simp] theorem State.setVec_sec (s : State) (v : Nat) (x : MsixVec) : (s.setVec v x).sec = s.sec := rfl
@[simp] theorem State.setVec_time (s : State) (v : Nat) (x : MsixVec) : (s.setVec v x).time = s.time := rfl
@[simp] theorem State.setVec_phs (s : State) (v : Nat) (x : MsixVec) : (s.setVec v x).phs = s.phs := rfl
@[simp] theorem State.setVec_yal (s : State) (v : Nat) (x : MsixVec) : (s.setVec v x).yal = s.yal := rfl
@[simp] theorem State.setVec_hts (s : State) (v : Nat) (x : MsixVec) : (s.setVec v x).hts = s.hts := rfl
@[simp] theorem State.setVec_seqs (s : State) (v : Nat) (x : MsixVec) : (s.setVec v x).seqs = s.seqs := rfl
@[simp] theorem State.setVec_sd (s : State) (v : Nat) (x : MsixVec) : (s.setVec v x).sd = s.sd := rfl
@[simp] theorem State.setVec_cip (s : State) (v : Nat) (x : MsixVec) : (s.setVec v x).cip = s.cip := rfl
@[simp] theorem State.setVec_air (s : State) (v : Nat) (x : MsixVec) : (s.setVec v x).air = s.air := rfl
@[simp] theorem State.setVec_ept (s : State) (v : Nat) (x : MsixVec) : (s.setVec v x).ept = s.ept := rfl
@[simp] theorem State.setVec_prs (s : State) (v : Nat) (x : MsixVec) : (s.setVec v x).prs = s.prs := rfl
@[simp] theorem State.setVec_dmc (s : State) (v : Nat) (x : MsixVec) : (s.setVec v x).dmc = s.dmc := rfl
@[simp] theorem State.setVec_fed (s : State) (v : Nat) (x : MsixVec) : (s.setVec v x).fed = s.fed := rfl
@[simp] theorem State.setVec_hostOut (s : State) (v : Nat) (x : MsixVec) : (s.setVec v x).hostOut = s.hostOut := rfl
@[simp] theorem State.setVec_cu (s : State) (v : Nat) (x : MsixVec) : (s.setVec v x).cu = s.cu := rfl
@[simp] theorem State.setVec_recirc (s : State) (v : Nat) (x : MsixVec) : (s.setVec v x).recirc = s.recirc := rfl
@[simp] theorem State.setVec_gm (s : State) (v : Nat) (x : MsixVec) : (s.setVec v x).gm = s.gm := rfl
@[simp] theorem State.setVec_xm (s : State) (v : Nat) (x : MsixVec) : (s.setVec v x).xm = s.xm := rfl
@[simp] theorem State.setVec_flash (s : State) (v : Nat) (x : MsixVec) : (s.setVec v x).flash = s.flash := rfl
@[simp] theorem State.setVec_pending (s : State) (v : Nat) (x : MsixVec) : (s.setVec v x).pending = s.pending := rfl
@[simp] theorem State.setVec_word (s : State) (v : Nat) (x : MsixVec) (a : Nat) : (s.setVec v x).word a = s.word a := by simp only [State.word, State.setVec_regs]
@[simp] theorem State.setVec_get (s : State) (v : Nat) (x : MsixVec) (g : Fld) : (s.setVec v x).get g = s.get g := State.get_congr (State.setVec_regs s v x) g
@[simp] theorem State.setVec_on (s : State) (v : Nat) (x : MsixVec) (g : Fld) : (s.setVec v x).on g = s.on g := State.on_congr (State.setVec_regs s v x) g

@[simp] theorem State.setQp_regs (s : State) (q : Nat) (x : Qp) : (s.setQp q x).regs = s.regs := rfl
@[simp] theorem State.setQp_capture (s : State) (q : Nat) (x : Qp) : (s.setQp q x).capture = s.capture := rfl
@[simp] theorem State.setQp_stage (s : State) (q : Nat) (x : Qp) : (s.setQp q x).stage = s.stage := rfl
@[simp] theorem State.setQp_readData (s : State) (q : Nat) (x : Qp) : (s.setQp q x).readData = s.readData := rfl
@[simp] theorem State.setQp_raised (s : State) (q : Nat) (x : Qp) : (s.setQp q x).raised = s.raised := rfl
@[simp] theorem State.setQp_freeCtr (s : State) (q : Nat) (x : Qp) : (s.setQp q x).freeCtr = s.freeCtr := rfl
@[simp] theorem State.setQp_pins (s : State) (q : Nat) (x : Qp) : (s.setQp q x).pins = s.pins := rfl
@[simp] theorem State.setQp_ctl (s : State) (q : Nat) (x : Qp) : (s.setQp q x).ctl = s.ctl := rfl
@[simp] theorem State.setQp_flt (s : State) (q : Nat) (x : Qp) : (s.setQp q x).flt = s.flt := rfl
@[simp] theorem State.setQp_acn (s : State) (q : Nat) (x : Qp) : (s.setQp q x).acn = s.acn := rfl
@[simp] theorem State.setQp_fuse (s : State) (q : Nat) (x : Qp) : (s.setQp q x).fuse = s.fuse := rfl
@[simp] theorem State.setQp_sec (s : State) (q : Nat) (x : Qp) : (s.setQp q x).sec = s.sec := rfl
@[simp] theorem State.setQp_time (s : State) (q : Nat) (x : Qp) : (s.setQp q x).time = s.time := rfl
@[simp] theorem State.setQp_phs (s : State) (q : Nat) (x : Qp) : (s.setQp q x).phs = s.phs := rfl
@[simp] theorem State.setQp_yal (s : State) (q : Nat) (x : Qp) : (s.setQp q x).yal = s.yal := rfl
@[simp] theorem State.setQp_hts (s : State) (q : Nat) (x : Qp) : (s.setQp q x).hts = s.hts := rfl
@[simp] theorem State.setQp_seqs (s : State) (q : Nat) (x : Qp) : (s.setQp q x).seqs = s.seqs := rfl
@[simp] theorem State.setQp_sd (s : State) (q : Nat) (x : Qp) : (s.setQp q x).sd = s.sd := rfl
@[simp] theorem State.setQp_cip (s : State) (q : Nat) (x : Qp) : (s.setQp q x).cip = s.cip := rfl
@[simp] theorem State.setQp_air (s : State) (q : Nat) (x : Qp) : (s.setQp q x).air = s.air := rfl
@[simp] theorem State.setQp_ept (s : State) (q : Nat) (x : Qp) : (s.setQp q x).ept = s.ept := rfl
@[simp] theorem State.setQp_prs (s : State) (q : Nat) (x : Qp) : (s.setQp q x).prs = s.prs := rfl
@[simp] theorem State.setQp_dmc (s : State) (q : Nat) (x : Qp) : (s.setQp q x).dmc = s.dmc := rfl
@[simp] theorem State.setQp_dma (s : State) (q : Nat) (x : Qp) : (s.setQp q x).dma = s.dma := rfl
@[simp] theorem State.setQp_fed (s : State) (q : Nat) (x : Qp) : (s.setQp q x).fed = s.fed := rfl
@[simp] theorem State.setQp_hostOut (s : State) (q : Nat) (x : Qp) : (s.setQp q x).hostOut = s.hostOut := rfl
@[simp] theorem State.setQp_cu (s : State) (q : Nat) (x : Qp) : (s.setQp q x).cu = s.cu := rfl
@[simp] theorem State.setQp_recirc (s : State) (q : Nat) (x : Qp) : (s.setQp q x).recirc = s.recirc := rfl
@[simp] theorem State.setQp_gm (s : State) (q : Nat) (x : Qp) : (s.setQp q x).gm = s.gm := rfl
@[simp] theorem State.setQp_xm (s : State) (q : Nat) (x : Qp) : (s.setQp q x).xm = s.xm := rfl
@[simp] theorem State.setQp_flash (s : State) (q : Nat) (x : Qp) : (s.setQp q x).flash = s.flash := rfl
@[simp] theorem State.setQp_pending (s : State) (q : Nat) (x : Qp) : (s.setQp q x).pending = s.pending := rfl
@[simp] theorem State.setQp_word (s : State) (q : Nat) (x : Qp) (a : Nat) : (s.setQp q x).word a = s.word a := by simp only [State.word, State.setQp_regs]
@[simp] theorem State.setQp_get (s : State) (q : Nat) (x : Qp) (g : Fld) : (s.setQp q x).get g = s.get g := State.get_congr (State.setQp_regs s q x) g
@[simp] theorem State.setQp_on (s : State) (q : Nat) (x : Qp) (g : Fld) : (s.setQp q x).on g = s.on g := State.on_congr (State.setQp_regs s q x) g

@[simp] theorem State.setFslot_regs (s : State) (k : Nat) (x : FedSlot) : (s.setFslot k x).regs = s.regs := rfl
@[simp] theorem State.setFslot_capture (s : State) (k : Nat) (x : FedSlot) : (s.setFslot k x).capture = s.capture := rfl
@[simp] theorem State.setFslot_stage (s : State) (k : Nat) (x : FedSlot) : (s.setFslot k x).stage = s.stage := rfl
@[simp] theorem State.setFslot_readData (s : State) (k : Nat) (x : FedSlot) : (s.setFslot k x).readData = s.readData := rfl
@[simp] theorem State.setFslot_raised (s : State) (k : Nat) (x : FedSlot) : (s.setFslot k x).raised = s.raised := rfl
@[simp] theorem State.setFslot_freeCtr (s : State) (k : Nat) (x : FedSlot) : (s.setFslot k x).freeCtr = s.freeCtr := rfl
@[simp] theorem State.setFslot_pins (s : State) (k : Nat) (x : FedSlot) : (s.setFslot k x).pins = s.pins := rfl
@[simp] theorem State.setFslot_ctl (s : State) (k : Nat) (x : FedSlot) : (s.setFslot k x).ctl = s.ctl := rfl
@[simp] theorem State.setFslot_flt (s : State) (k : Nat) (x : FedSlot) : (s.setFslot k x).flt = s.flt := rfl
@[simp] theorem State.setFslot_acn (s : State) (k : Nat) (x : FedSlot) : (s.setFslot k x).acn = s.acn := rfl
@[simp] theorem State.setFslot_fuse (s : State) (k : Nat) (x : FedSlot) : (s.setFslot k x).fuse = s.fuse := rfl
@[simp] theorem State.setFslot_sec (s : State) (k : Nat) (x : FedSlot) : (s.setFslot k x).sec = s.sec := rfl
@[simp] theorem State.setFslot_time (s : State) (k : Nat) (x : FedSlot) : (s.setFslot k x).time = s.time := rfl
@[simp] theorem State.setFslot_phs (s : State) (k : Nat) (x : FedSlot) : (s.setFslot k x).phs = s.phs := rfl
@[simp] theorem State.setFslot_yal (s : State) (k : Nat) (x : FedSlot) : (s.setFslot k x).yal = s.yal := rfl
@[simp] theorem State.setFslot_hts (s : State) (k : Nat) (x : FedSlot) : (s.setFslot k x).hts = s.hts := rfl
@[simp] theorem State.setFslot_seqs (s : State) (k : Nat) (x : FedSlot) : (s.setFslot k x).seqs = s.seqs := rfl
@[simp] theorem State.setFslot_sd (s : State) (k : Nat) (x : FedSlot) : (s.setFslot k x).sd = s.sd := rfl
@[simp] theorem State.setFslot_cip (s : State) (k : Nat) (x : FedSlot) : (s.setFslot k x).cip = s.cip := rfl
@[simp] theorem State.setFslot_air (s : State) (k : Nat) (x : FedSlot) : (s.setFslot k x).air = s.air := rfl
@[simp] theorem State.setFslot_ept (s : State) (k : Nat) (x : FedSlot) : (s.setFslot k x).ept = s.ept := rfl
@[simp] theorem State.setFslot_prs (s : State) (k : Nat) (x : FedSlot) : (s.setFslot k x).prs = s.prs := rfl
@[simp] theorem State.setFslot_dmc (s : State) (k : Nat) (x : FedSlot) : (s.setFslot k x).dmc = s.dmc := rfl
@[simp] theorem State.setFslot_dma (s : State) (k : Nat) (x : FedSlot) : (s.setFslot k x).dma = s.dma := rfl
@[simp] theorem State.setFslot_hst (s : State) (k : Nat) (x : FedSlot) : (s.setFslot k x).hst = s.hst := rfl
@[simp] theorem State.setFslot_hostOut (s : State) (k : Nat) (x : FedSlot) : (s.setFslot k x).hostOut = s.hostOut := rfl
@[simp] theorem State.setFslot_cu (s : State) (k : Nat) (x : FedSlot) : (s.setFslot k x).cu = s.cu := rfl
@[simp] theorem State.setFslot_recirc (s : State) (k : Nat) (x : FedSlot) : (s.setFslot k x).recirc = s.recirc := rfl
@[simp] theorem State.setFslot_gm (s : State) (k : Nat) (x : FedSlot) : (s.setFslot k x).gm = s.gm := rfl
@[simp] theorem State.setFslot_xm (s : State) (k : Nat) (x : FedSlot) : (s.setFslot k x).xm = s.xm := rfl
@[simp] theorem State.setFslot_flash (s : State) (k : Nat) (x : FedSlot) : (s.setFslot k x).flash = s.flash := rfl
@[simp] theorem State.setFslot_pending (s : State) (k : Nat) (x : FedSlot) : (s.setFslot k x).pending = s.pending := rfl
@[simp] theorem State.setFslot_word (s : State) (k : Nat) (x : FedSlot) (a : Nat) : (s.setFslot k x).word a = s.word a := by simp only [State.word, State.setFslot_regs]
@[simp] theorem State.setFslot_get (s : State) (k : Nat) (x : FedSlot) (g : Fld) : (s.setFslot k x).get g = s.get g := State.get_congr (State.setFslot_regs s k x) g
@[simp] theorem State.setFslot_on (s : State) (k : Nat) (x : FedSlot) (g : Fld) : (s.setFslot k x).on g = s.on g := State.on_congr (State.setFslot_regs s k x) g

@[simp] theorem State.setPd_regs (s : State) (d : Nat) (p : PhaseDom) : (s.setPd d p).regs = s.regs := rfl
@[simp] theorem State.setPd_capture (s : State) (d : Nat) (p : PhaseDom) : (s.setPd d p).capture = s.capture := rfl
@[simp] theorem State.setPd_stage (s : State) (d : Nat) (p : PhaseDom) : (s.setPd d p).stage = s.stage := rfl
@[simp] theorem State.setPd_readData (s : State) (d : Nat) (p : PhaseDom) : (s.setPd d p).readData = s.readData := rfl
@[simp] theorem State.setPd_raised (s : State) (d : Nat) (p : PhaseDom) : (s.setPd d p).raised = s.raised := rfl
@[simp] theorem State.setPd_freeCtr (s : State) (d : Nat) (p : PhaseDom) : (s.setPd d p).freeCtr = s.freeCtr := rfl
@[simp] theorem State.setPd_pins (s : State) (d : Nat) (p : PhaseDom) : (s.setPd d p).pins = s.pins := rfl
@[simp] theorem State.setPd_ctl (s : State) (d : Nat) (p : PhaseDom) : (s.setPd d p).ctl = s.ctl := rfl
@[simp] theorem State.setPd_flt (s : State) (d : Nat) (p : PhaseDom) : (s.setPd d p).flt = s.flt := rfl
@[simp] theorem State.setPd_acn (s : State) (d : Nat) (p : PhaseDom) : (s.setPd d p).acn = s.acn := rfl
@[simp] theorem State.setPd_fuse (s : State) (d : Nat) (p : PhaseDom) : (s.setPd d p).fuse = s.fuse := rfl
@[simp] theorem State.setPd_sec (s : State) (d : Nat) (p : PhaseDom) : (s.setPd d p).sec = s.sec := rfl
@[simp] theorem State.setPd_time (s : State) (d : Nat) (p : PhaseDom) : (s.setPd d p).time = s.time := rfl
@[simp] theorem State.setPd_yal (s : State) (d : Nat) (p : PhaseDom) : (s.setPd d p).yal = s.yal := rfl
@[simp] theorem State.setPd_hts (s : State) (d : Nat) (p : PhaseDom) : (s.setPd d p).hts = s.hts := rfl
@[simp] theorem State.setPd_seqs (s : State) (d : Nat) (p : PhaseDom) : (s.setPd d p).seqs = s.seqs := rfl
@[simp] theorem State.setPd_sd (s : State) (d : Nat) (p : PhaseDom) : (s.setPd d p).sd = s.sd := rfl
@[simp] theorem State.setPd_cip (s : State) (d : Nat) (p : PhaseDom) : (s.setPd d p).cip = s.cip := rfl
@[simp] theorem State.setPd_air (s : State) (d : Nat) (p : PhaseDom) : (s.setPd d p).air = s.air := rfl
@[simp] theorem State.setPd_ept (s : State) (d : Nat) (p : PhaseDom) : (s.setPd d p).ept = s.ept := rfl
@[simp] theorem State.setPd_prs (s : State) (d : Nat) (p : PhaseDom) : (s.setPd d p).prs = s.prs := rfl
@[simp] theorem State.setPd_dmc (s : State) (d : Nat) (p : PhaseDom) : (s.setPd d p).dmc = s.dmc := rfl
@[simp] theorem State.setPd_dma (s : State) (d : Nat) (p : PhaseDom) : (s.setPd d p).dma = s.dma := rfl
@[simp] theorem State.setPd_hst (s : State) (d : Nat) (p : PhaseDom) : (s.setPd d p).hst = s.hst := rfl
@[simp] theorem State.setPd_fed (s : State) (d : Nat) (p : PhaseDom) : (s.setPd d p).fed = s.fed := rfl
@[simp] theorem State.setPd_hostOut (s : State) (d : Nat) (p : PhaseDom) : (s.setPd d p).hostOut = s.hostOut := rfl
@[simp] theorem State.setPd_cu (s : State) (d : Nat) (p : PhaseDom) : (s.setPd d p).cu = s.cu := rfl
@[simp] theorem State.setPd_recirc (s : State) (d : Nat) (p : PhaseDom) : (s.setPd d p).recirc = s.recirc := rfl
@[simp] theorem State.setPd_gm (s : State) (d : Nat) (p : PhaseDom) : (s.setPd d p).gm = s.gm := rfl
@[simp] theorem State.setPd_xm (s : State) (d : Nat) (p : PhaseDom) : (s.setPd d p).xm = s.xm := rfl
@[simp] theorem State.setPd_flash (s : State) (d : Nat) (p : PhaseDom) : (s.setPd d p).flash = s.flash := rfl
@[simp] theorem State.setPd_pending (s : State) (d : Nat) (p : PhaseDom) : (s.setPd d p).pending = s.pending := rfl
@[simp] theorem State.setPd_word (s : State) (d : Nat) (p : PhaseDom) (a : Nat) : (s.setPd d p).word a = s.word a := by simp only [State.word, State.setPd_regs]
@[simp] theorem State.setPd_get (s : State) (d : Nat) (p : PhaseDom) (g : Fld) : (s.setPd d p).get g = s.get g := State.get_congr (State.setPd_regs s d p) g
@[simp] theorem State.setPd_on (s : State) (d : Nat) (p : PhaseDom) (g : Fld) : (s.setPd d p).on g = s.on g := State.on_congr (State.setPd_regs s d p) g

@[simp] theorem State.setCnt_regs (s : State) (off v : Nat) : (s.setCnt off v).regs = s.regs := rfl
@[simp] theorem State.setCnt_capture (s : State) (off v : Nat) : (s.setCnt off v).capture = s.capture := rfl
@[simp] theorem State.setCnt_stage (s : State) (off v : Nat) : (s.setCnt off v).stage = s.stage := rfl
@[simp] theorem State.setCnt_readData (s : State) (off v : Nat) : (s.setCnt off v).readData = s.readData := rfl
@[simp] theorem State.setCnt_raised (s : State) (off v : Nat) : (s.setCnt off v).raised = s.raised := rfl
@[simp] theorem State.setCnt_freeCtr (s : State) (off v : Nat) : (s.setCnt off v).freeCtr = s.freeCtr := rfl
@[simp] theorem State.setCnt_pins (s : State) (off v : Nat) : (s.setCnt off v).pins = s.pins := rfl
@[simp] theorem State.setCnt_ctl (s : State) (off v : Nat) : (s.setCnt off v).ctl = s.ctl := rfl
@[simp] theorem State.setCnt_flt (s : State) (off v : Nat) : (s.setCnt off v).flt = s.flt := rfl
@[simp] theorem State.setCnt_fuse (s : State) (off v : Nat) : (s.setCnt off v).fuse = s.fuse := rfl
@[simp] theorem State.setCnt_sec (s : State) (off v : Nat) : (s.setCnt off v).sec = s.sec := rfl
@[simp] theorem State.setCnt_time (s : State) (off v : Nat) : (s.setCnt off v).time = s.time := rfl
@[simp] theorem State.setCnt_phs (s : State) (off v : Nat) : (s.setCnt off v).phs = s.phs := rfl
@[simp] theorem State.setCnt_yal (s : State) (off v : Nat) : (s.setCnt off v).yal = s.yal := rfl
@[simp] theorem State.setCnt_hts (s : State) (off v : Nat) : (s.setCnt off v).hts = s.hts := rfl
@[simp] theorem State.setCnt_seqs (s : State) (off v : Nat) : (s.setCnt off v).seqs = s.seqs := rfl
@[simp] theorem State.setCnt_sd (s : State) (off v : Nat) : (s.setCnt off v).sd = s.sd := rfl
@[simp] theorem State.setCnt_cip (s : State) (off v : Nat) : (s.setCnt off v).cip = s.cip := rfl
@[simp] theorem State.setCnt_air (s : State) (off v : Nat) : (s.setCnt off v).air = s.air := rfl
@[simp] theorem State.setCnt_ept (s : State) (off v : Nat) : (s.setCnt off v).ept = s.ept := rfl
@[simp] theorem State.setCnt_prs (s : State) (off v : Nat) : (s.setCnt off v).prs = s.prs := rfl
@[simp] theorem State.setCnt_dmc (s : State) (off v : Nat) : (s.setCnt off v).dmc = s.dmc := rfl
@[simp] theorem State.setCnt_dma (s : State) (off v : Nat) : (s.setCnt off v).dma = s.dma := rfl
@[simp] theorem State.setCnt_hst (s : State) (off v : Nat) : (s.setCnt off v).hst = s.hst := rfl
@[simp] theorem State.setCnt_fed (s : State) (off v : Nat) : (s.setCnt off v).fed = s.fed := rfl
@[simp] theorem State.setCnt_hostOut (s : State) (off v : Nat) : (s.setCnt off v).hostOut = s.hostOut := rfl
@[simp] theorem State.setCnt_cu (s : State) (off v : Nat) : (s.setCnt off v).cu = s.cu := rfl
@[simp] theorem State.setCnt_recirc (s : State) (off v : Nat) : (s.setCnt off v).recirc = s.recirc := rfl
@[simp] theorem State.setCnt_gm (s : State) (off v : Nat) : (s.setCnt off v).gm = s.gm := rfl
@[simp] theorem State.setCnt_xm (s : State) (off v : Nat) : (s.setCnt off v).xm = s.xm := rfl
@[simp] theorem State.setCnt_flash (s : State) (off v : Nat) : (s.setCnt off v).flash = s.flash := rfl
@[simp] theorem State.setCnt_pending (s : State) (off v : Nat) : (s.setCnt off v).pending = s.pending := rfl
@[simp] theorem State.setCnt_word (s : State) (off v : Nat) (a : Nat) : (s.setCnt off v).word a = s.word a := by simp only [State.word, State.setCnt_regs]
@[simp] theorem State.setCnt_get (s : State) (off v : Nat) (g : Fld) : (s.setCnt off v).get g = s.get g := State.get_congr (State.setCnt_regs s off v) g
@[simp] theorem State.setCnt_on (s : State) (off v : Nat) (g : Fld) : (s.setCnt off v).on g = s.on g := State.on_congr (State.setCnt_regs s off v) g

end Sys2Proof.Machine
end

