-- ==== Sys2Proof/Laws/Settle.lean ====
section
/-! SUPPORT. The end of a command: nothing but the output pins follows where nothing was reported, and a source that enters
at no level is counted and sticks. -/

namespace Sys2Proof.Machine

theorem State.quiet_congr {s t : State} (h1 : s.raised = t.raised) (h2 : s.seqs = t.seqs) : s.quiet = t.quiet := by
  unfold State.quiet State.seq; rw [h1, h2]

@[simp] theorem State.quiet_put (s : State) (f : Fld) (v : Nat) : (s.put f v).quiet = s.quiet :=
  State.quiet_congr (by simp) (by simp)

@[simp] theorem State.quiet_bump (s : State) (f : Fld) (v : Nat) : (s.bump f v).quiet = s.quiet :=
  State.quiet_congr (by simp) (by simp)

/-- A quiet state ends a command as it is. -/
theorem State.settle_quiet {s : State} (h : s.quiet = true) : s.settle = s.close := by
  have : s.collect 16 = s := by unfold State.collect; rw [if_pos h]
  rw [State.settle, this, State.calm, if_pos h]

theorem done_quiet {s : State} (h : s.quiet = true) : done s = .next s.close := by
  rw [done, State.settle_quiet h]

/-- A meaning that ends in a quiet state completes in it. -/
theorem completes_of {c : Instr} {s u v : State} (h : exec c s = done v) (hu : v = u) (hq : u.quiet = true) :
    Completes c s u := by
  rw [Completes, h, hu, done_quiet hq]

theorem State.raised_of_quiet {s : State} (h : s.quiet = true) : s.raised = [] := by
  unfold State.quiet at h
  simp only [Bool.and_eq_true, List.isEmpty_iff] at h
  exact h.1

theorem State.halting_of_quiet {s : State} (h : s.quiet = true) (n : Nat) (hn : n < 4) : (s.seq n).halting = none := by
  unfold State.quiet at h
  simp only [Bool.and_eq_true, List.all_eq_true, List.mem_range, Option.isNone_iff_eq_none] at h
  exact h.2 n hn

/-- No sequencer halts where none was ordered to. -/
theorem State.haltSeqs_of_quiet {s t : State} (h : s.quiet = true) (e : t.seqs = s.seqs) : t.haltSeqs = t := by
  have hs : ∀ n, t.seq n = s.seq n := fun n => by unfold State.seq; rw [e]
  simp only [State.haltSeqs, show List.range 4 = [0, 1, 2, 3] from rfl, forEach, hs,
    State.halting_of_quiet h 0 (by omega), State.halting_of_quiet h 1 (by omega), State.halting_of_quiet h 2 (by omega),
    State.halting_of_quiet h 3 (by omega)]
  simp [hs, State.halting_of_quiet h]

theorem State.entryLevel_put (s : State) (n v hi lo : Nat) (k : Nat) (hk : k < 2) (hh : hi < 32) :
    (s.put ⟨0x1001000 + 0x4 * n, hi, lo⟩ v).entryLevel k = s.entryLevel k := by
  unfold State.entryLevel
  rw [if_neg (by omega), if_neg (by omega), if_neg (by omega), if_neg (by omega)]
  refine State.get_put_ne _ _ _ _ (.inr ?_)
  simp only [F.FLT_CLASS_CFG01_ENTRY]
  omega

theorem State.countsOnly_iff {s : State} {n : Nat} (h : s.countsOnly n = true) :
    sourceRaised n = true ∧ sourceClass n < 2 ∧ n ≠ 601 ∧ n ≠ 619 ∧ s.entryLevel (sourceClass n) = 0 := by
  simpa [State.countsOnly, and_assoc] using h

/-- An occurrence of a source that enters at no level is counted and sticks. -/
theorem State.occur_counted {s : State} {n : Nat} (h : s.countsOnly n = true) : s.occur n false = s.counted n := by
  obtain ⟨h1, h2, h3, h4, h5⟩ := State.countsOnly_iff h
  have e : (s.counted n).entryLevel (sourceClass n) = 0 := by
    unfold State.counted State.bump
    simp only [F.FLT_SRC_FORCED, F.FLT_SRC_STICKY, F.FLT_SRC_COUNT]
    rw [State.entryLevel_put _ _ _ _ _ _ h2 (by omega), State.entryLevel_put _ _ _ _ _ _ h2 (by omega),
      State.entryLevel_put _ _ _ _ _ _ h2 (by omega), h5]
  have u : s.occur n false = (s.counted n).takeLevel n := by
    unfold State.occur
    simp only [h1, if_true, show ¬ sourceClass n = 3 by omega, false_and, if_false, h3, h4, or_self]
    rfl
  rw [u, State.takeLevel]
  simp only [e, if_true]

/-- Where a quiet state reports such a source, the command ends with the source counted. -/
theorem State.settle_raise {s : State} {n : Nat} (h : s.countsOnly n = true) (hq : s.quiet = true) :
    (s.raise n).settle = (s.counted n).close := by
  have hr := State.raised_of_quiet hq
  have hc : (s.counted n).quiet = true := by simpa [State.counted] using hq
  have e : ({ s.raise n with raised := [] } : State) = s := by
    cases s; simp only [State.raise] at *; simp_all
  have o : occurrences (s.raise n).raised = [(n, false)] := by
    simp [State.raise, hr, occurrences, addOnce, sortBy, insertBy]
  have hh : (s.raise n).haltSeqs = s.raise n := State.haltSeqs_of_quiet hq rfl
  have nq : (s.raise n).quiet = false := by simp [State.quiet, State.raise, hr]
  have c16 : (s.raise n).collect 16 = (s.counted n).collect 15 := by
    conv => lhs; unfold State.collect
    rw [if_neg (by simp [nq])]
    simp only [hh, o, e, forEach, List.foldl, State.occur_counted h]
  have : (s.counted n).collect 15 = s.counted n := by unfold State.collect; rw [if_pos hc]
  rw [State.settle, c16, this, State.calm, if_pos hc]

theorem completes_of_raise {c : Instr} {s u v : State} {n : Nat} (h : exec c s = done (v.raise n)) (hu : v = u)
    (hq : u.quiet = true) (hn : u.countsOnly n = true) : Completes c s (u.counted n) := by
  rw [Completes, h, hu, done, State.settle_raise hn hq]

end Sys2Proof.Machine
end

