-- ==== Sys2Proof/Laws/Issue.lean ====
section
/-! SUPPORT. An instruction that issues normally: it counts against the budget and does its own effect. -/

namespace Sys2Proof.Machine

@[simp] theorem State.thread_setThread_self (s : State) (t : Nat) (x : Thread) : (s.setThread t x).thread t = x :=
  tabGet_tabSet_self _ _ _ _

theorem State.thread_setThread_ne {t u : Nat} (h : u ≠ t) (s : State) (x : Thread) :
    (s.setThread t x).thread u = s.thread u := tabGet_tabSet_ne _ h _ _

/-- An instruction that issues normally does its body's effect, counted against the budget. -/
theorem State.issue_eq {s : State} {i : Issue} {pr : Profile} {regs : List (BitVec 5)} (h : Issues s i pr regs)
    (body : State → Flow) : s.issue i pr regs body = (s.countInstr i.who).finish i.who (body (s.countInstr i.who)) := by
  obtain ⟨-, h1, h2, h3, h4⟩ := h
  simp [State.issue, h1, h2, h3, h4]

@[simp] theorem State.reg_setThread (s : State) (t : Nat) (x : Thread) (y r : Nat) : (s.setThread t x).reg y r = s.reg y r :=
  rfl

@[simp] theorem State.reg_countInstr (s : State) (w : Issuer) (y r : Nat) : (s.countInstr w).reg y r = s.reg y r := by
  cases w <;> rfl

@[simp] theorem State.thread_setReg (s : State) (y r : Nat) (v : DWord) (t : Nat) : (s.setReg y r v).thread t = s.thread t := by
  unfold State.setReg; split <;> rfl

@[simp] theorem State.seq_setReg (s : State) (y r : Nat) (v : DWord) (n : Nat) : (s.setReg y r v).seq n = s.seq n := by
  unfold State.setReg; split <;> rfl

@[simp] theorem State.pcOf_countInstr (s : State) (w : Issuer) : (s.countInstr w).pcOf w = s.pcOf w := by
  cases w <;> simp [State.countInstr, State.pcOf]

@[simp] theorem State.pcOf_setReg (s : State) (w : Issuer) (y r : Nat) (v : DWord) : (s.setReg y r v).pcOf w = s.pcOf w := by
  cases w <;> simp [State.pcOf]

@[simp] theorem State.quiet_setThread (s : State) (t : Nat) (x : Thread) : (s.setThread t x).quiet = s.quiet := rfl

@[simp] theorem State.quiet_countInstr (s : State) (w : Issuer) : (s.countInstr w).quiet = s.quiet := by cases w <;> rfl

@[simp] theorem State.quiet_setReg (s : State) (y r : Nat) (v : DWord) : (s.setReg y r v).quiet = s.quiet := by
  unfold State.setReg; split <;> rfl

theorem State.seq_setSeq (s : State) (n : Nat) (q : Seqr) (m : Nat) :
    (s.setSeq n q).seq m = if m = n ∧ m < s.seqs.length then q else s.seq m := by
  have : ∀ (l : List Seqr) (n m : Nat), (setAt l n q).getD m {} = if m = n ∧ m < l.length then q else l.getD m {} := by
    intro l
    induction l with
    | nil => intro n m; simp [setAt]
    | cons a l ih =>
      intro n m
      cases n with
      | zero => cases m <;> simp [setAt]
      | succ n =>
        cases m with
        | zero => simp [setAt]
        | succ m =>
          have := ih n m
          simp only [List.getD_eq_getElem?_getD] at this
          simp [setAt, this]
  exact this _ _ _

/-- Moving the pc leaves a quiet state quiet. -/
@[simp] theorem State.quiet_setPc {s : State} (w : Issuer) (pc : Nat) (h : s.quiet = true) : (s.setPc w pc).quiet = true := by
  cases w with
  | thr t => exact h
  | seq n =>
    have hr := State.raised_of_quiet h
    simp only [State.setPc, State.quiet, State.setSeq_raised, hr, Bool.and_eq_true, List.isEmpty_iff, List.all_eq_true,
      List.mem_range, true_and]
    intro m hm
    rw [State.seq_setSeq]
    split
    · rename_i e; rw [← e.1] ; simpa using State.halting_of_quiet h m hm
    · simpa using State.halting_of_quiet h m hm

theorem Issues.quiet {s : State} {i : Issue} {pr : Profile} {regs : List (BitVec 5)} (h : Issues s i pr regs) :
    s.quiet = true := h.1

theorem writesReg_aluRR {c : Instr} {s : State} {i : Issue} {gd ga gb : BitVec 5} {f : DWord → DWord → DWord}
    (h : Issues s i .both [gd, ga, gb]) (hc : exec c s = done (s.aluRR i gd ga gb f)) :
    WritesReg c i s gd (f (s.val i ga) (s.val i gb)) := by
  refine completes_of hc ?_ (by simp [State.advance, h.quiet])
  simp [State.aluRR, State.issue_eq h, State.finish, State.advance, State.val]

theorem writesReg_aluR {c : Instr} {s : State} {i : Issue} {gd ga : BitVec 5} {f : DWord → DWord}
    (h : Issues s i .both [gd, ga]) (hc : exec c s = done (s.aluR i gd ga f)) : WritesReg c i s gd (f (s.val i ga)) := by
  refine completes_of hc ?_ (by simp [State.advance, h.quiet])
  simp [State.aluR, State.issue_eq h, State.finish, State.advance, State.val]

theorem writesReg_aluD {c : Instr} {s : State} {i : Issue} {gd ga : BitVec 5} {f : DWord → DWord → DWord}
    (h : Issues s i .both [gd, ga]) (hc : exec c s = done (s.aluD i gd ga f)) :
    WritesReg c i s gd (f (s.val i gd) (s.val i ga)) := by
  refine completes_of hc ?_ (by simp [State.advance, h.quiet])
  simp [State.aluD, State.issue_eq h, State.finish, State.advance, State.val]

end Sys2Proof.Machine
end

