-- ==== Sys2Proof/WellFormed.lean ====
section
/-! DEFINITION. Which commands are well formed.  Most operand bounds stand in the types of `Instr`; the checks below are
of operands given as numbers or lists, each against the rule that bounds what it stands for. -/

namespace Sys2Proof

/-- A TBM or TBN value in whole nanoseconds: 64 bits (R102). -/
def stampWf (t : Nat) : Bool := decide (t < 2 ^ 64)

/-- A protected frame carries the nonce and the tag of its suite: 12 and 16 bytes of GCMP, 13 and 8 or 16 of CCMP
(R341, R344). -/
def AirFrame.wf (f : AirFrame) : Bool :=
  !f.prot || (if f.gcm then f.nonce.length == 12 && f.tag.length == 16
    else f.nonce.length == 13 && (f.tag.length == 8 || f.tag.length == 16))

/-- A Pip frame's LEN is 8 to 96 (R239): its body is at most 88 bytes, or 80 when SEC is 1 (R243, R244); at most the 32 bits
of the sync word match, and only the lowest rate repeats (R237). -/
def PipFrame.wf (f : PipFrame) : Bool :=
  decide (f.body.length ≤ (if f.fc.getLsbD 7 then 80 else 88)) && decide (f.matched.toNat ≤ 32)
    && (decide (f.rep.val = 0) || decide (f.rate.val = 0))

/-- A fabric message's check value is 8 bytes and its LEN counts the payload in 16 bits (R431). -/
def FedMsg.wf (m : FedMsg) : Bool := m.mic.length == 8 && decide (m.payload.length < 0x10000)

/-- The MPDUs of BUILD that fail their buffer reads are named once each, lowest first (R171). -/
def Fit.wf (f : Fit) : Bool := (f.lost.zip (f.lost.drop 1)).all (fun p => decide (p.1 < p.2))

/-- Acknowledged MPDUs: a TID and a 12-bit sequence number each (R185). -/
def ackedWf (l : List (Nat × Nat)) : Bool := l.all (fun e => decide (e.1 < 8 ∧ e.2 < 4096))

/-- Numbers below a bound. -/
def belowWf (n : Nat) (l : List Nat) : Bool := l.all (fun e => decide (e < n))

/-- The operands of a command name hardware that exists and have the lengths the spec gives them. -/
def Instr.wf : Instr → Bool
  | .pick _ _ _ _ _ bad => belowWf 2048 bad
  | .buildSu _ _ _ _ fits _ _ | .buildMu _ _ _ _ fits _ _ | .buildTrigger _ _ _ _ fits _ _ => fits.all Fit.wf
  | .phaseInputCount _ e _ _ | .phaseIndexEdge _ e | .mainsEdge _ e _ => stampWf e.t && stampWf e.held
  | .ppsInEdge _ t | .parentBeacon t _
  | .candidateBeacon t | .pipFrameReject t _ _ | .sqDoorbell _ _ t | .portFrameSent _ t _ => stampWf t
  | .blockAckReceive _ _ _ acked _ _ => ackedWf acked
  | .mpduReceive f _ _ _ _ => f.wf
  | .radarBurst subch pulses width rssi _ t =>
    stampWf t && decide (subch < 65536) && decide (pulses < 256) && decide (width < 128) && decide (rssi < 256)
  | .pipData f _ _ | .pipAck f _ _ | .pipPoll f _ _ | .pipAlert f _ _ | .pipFlood f _ _ | .pipJoin f _ _ => f.wf
  | .lrCodeFrame _ w _ => w.line.length == 2560 && w.dec.length == 1664
  | .diagDone _ res => belowWf (2 ^ 23) res
  | .cuFrameReceive _ _ _ t _ => stampWf t
  | .cacheFlush _ _ bad => belowWf (2 ^ 20) bad
  | .dramRequest t _ _ _ _ _ => stampWf t
  | .send _ d body _ _ => body.length == d.len.toNat
  | .hostLinkUp speed width => decide (1 ≤ speed.val) && (width.val == 1 || width.val == 2 || width.val == 4)
  | .heartbeat _ m t _ | .ack _ m t _ | .racc _ m t _ _ | .rrep _ m t _ | .data _ m t _ | .join _ m t _
  | .admitDevice _ m t _ | .leave _ m t _ | .notice _ m t _ | .fault _ m t _ => m.wf && stampWf t
  | .firmwareMessage _ m t _ => m.wf && stampWf t && decide (32 ≤ m.type.toNat)
  | .wakeStageTimeout failing _ => belowWf 32 failing
  | _ => true

end Sys2Proof
end

