-- ==== Sys2Proof/Tests/Slice0.lean ====
section
/-! SUPPORT. Tests: helpers, ill-formed commands, one step each, and for every statement with hypotheses a state and operands
that meet them. -/

namespace Sys2Proof.Tests

set_option maxRecDepth 20000
set_option Elab.async false

open Sys2Proof Sys2Proof.Machine

/-- A state with register fields set. -/
def State.sets (s : State) (l : List (Fld × Nat)) : State := l.foldl (fun s f => s.put f.1 f.2) s

/-- A machine whose boot is over, in Service + Route at TBM 1 s with every domain on, the host's link up, and class U
entering at no level. -/
def live : State :=
  State.sets { State.reset with ctl := { boot := none }, time := { tbm := 1000000000 * 2 ^ 32 } }
    [(F.PWR_DOM_ON, 0x3FFF), (F.TOP_MODE_CUR, 7), (F.FLT_CLASS_CFG01_ENTRY 1, 0), (F.HST_LINK_UP, 1)]

/-- The same with register fields set. -/
def at' (l : List (Fld × Nat)) : State := State.sets live l

/-- An instruction of thread 9, and of a sequencer. -/
def iT : Issue := ⟨.thr 9, .good⟩
def iS (n : Fin 4) : Issue := ⟨.seq n, .good⟩

/-- Thread 9 as it is, with registers set. -/
def State.thr (s : State) (t : Thread) (regs : List (Nat × DWord)) : State :=
  regs.foldl (fun s r => s.setReg 9 r.1 r.2) (s.setThread 9 t)

/-- Thread 9 runs a task at byte 0x100, with registers set. -/
def runT (regs : List (Nat × DWord)) : State := State.thr live { st := .run, pc := 0x100, task := some {} } regs

/-- Sequencer `n` runs at byte 0x40, with registers set. -/
def State.sqr (s : State) (n : Nat) (regs : List (Nat × DWord)) : State :=
  regs.foldl (fun s r => s.setReg (512 + n) r.1 r.2) ((s.put (F.SQ_CTL_EN n) 1).setSeq n { pc := 0x40 })

/-- Bytes at an address of GM. -/
def State.gmAt (s : State) (a : Nat) (b : List Byte) : State := { s with gm := memPutBytes s.gm a b }

/-- A frame of station 3, TID 2, number `sn`, heard by radio 1 at 1 s + 500 ns. -/
def airF (data mgmt prot : Bool) (sn : Nat) : AirFrame :=
  { radio := 1, fmt := 4, sta := 3, tid := 2, sn := BitVec.ofNat 12 sn, stamp := 1000000500, rssi := 77, data := data,
    mgmt := mgmt, psPoll := false, qos := true, pm := false, ack := true, om := none, bsr := none, prot := prot, gcm := false,
    pn := 0, nonce := [], aad := [], head := [9, 8], text := [7], tag := [] }

/-- Radio 1 hears, station 3 has a link to it, and its TID 2 an active scoreboard entry of size 8 that starts at 18. -/
def wifi (l : List (Fld × Nat)) : State :=
  State.gmAt (State.gmAt { at' ([(F.MX_CTL_EN 1, 1), (F.MX_LINK_BASE_ADDR 1, 0x100000), (F.SQA_SB_BASE_ADDR, 0x200000)] ++ l) with
    ctl := { boot := none, fronts := [0, 1, 2, 3, 4, 5] } } (0x100000 + 32 * 3) [1, 0, 0, 0])
    (0x200000 + 192 * 26 + 128) [18, 128, 8, 0]

/-- A header of R49 with 260 code bytes for units, every entry word 256. -/
def image : List Byte :=
  natLe 0x4F564C59 4 ++ natLe 0 4 ++ natLe 7 4 ++ natLe 260 4 ++ natLe 0 4 ++ natLe 2287405185 4 ++ natLe 0 8
    ++ (List.replicate 65 (natLe 256 4)).flatten

/-- A device that has joined a fabric over copper slot 1: ID 0, anchor 9, key slot 0 for CMAC. -/
def fed1 (l : List (Fld × Nat)) : State :=
  { at' ([(F.FED_CTL_EN, 1), (F.FED_STAT_STATE, 1), (F.FED_ID_ANCHOR, 9), (F.FEDS_LINK_CFG_EN 1, 1), (F.CU_STAT_UP 1, 1),
      (F.CU_STAT_UP 0, 1), (F.FED_MBOX_SIZE_N, 2)] ++ (List.range 64).map (fun k => (F.FED_ROUTE_HOPS k, 15)) ++ l)
    with cip := { keys := [(0, { loaded := true, use := 0xFF, key := 5 })] } }

/-- A message of device 5. -/
def fmsg (type : BitVec 8) (flags dst : Nat) (payload : List Byte) : FedMsg :=
  { ver := 1, type := type, flags := BitVec.ofNat 8 flags, hops := 15, src := 5, dst := BitVec.ofNat 8 dst, seq := 0, incarn := 0,
    epoch := 0, tbn := 0, tc := 0, payload := payload, mic := List.replicate 8 0 }

/-- A heartbeat of device 5. -/
def hbmsg (flags : Nat) : FedMsg := fmsg 0 flags 255 ([3, 0, 100, 0] ++ List.replicate 31 0xFF ++ [0xF1] ++ List.replicate 28 0)

/-- The record of Pip node 77, address 0xA1B2C3D4, key slot 3, CI 50 ms, STO 6 s, its event 9 at TBM 2 s. -/
def pipRec (cfg link up dn al : Nat) : List Byte :=
  natLe cfg 4 ++ natLe 0xA1B2C3D4 4 ++ natLe 3 2 ++ natLe 50 2 ++ [6, 10, 3, 0] ++ natLe 2000000000 8 ++ natLe 9 2 ++ natLe link 2
    ++ natLe up 4 ++ natLe dn 4 ++ natLe al 4 ++ natLe 900000000 8 ++ natLe 800000000 8 ++ List.replicate 8 0

/-- A device whose Pip radio is on, with that node in its table and its endpoint index. -/
def pip (l : List (Fld × Nat)) (rec' : List Byte) : State :=
  let s := at' ([(F.PIP_CTL_EN, 1), (F.PIP_NETID_NETID, 0xBEEF), (F.PIP_ADDR_ADDR, 0x11223344), (F.PIP_NODE_BASE_ADDR, 0x300000),
    (F.EPT_CTL_EN, 1), (F.EPT_IDX_BASE_ADDR, 0x100000)] ++ l)
  let key := natLe 0xA1B2C3D4 4
  let s := { s with ctl := { boot := none, fronts := [0, 1, 2, 3, 4, 5] },
                    cip := { keys := [(3, { loaded := true, use := 0xFF, key := 9 })] },
                    ept := { ents := [(6, { kind := 2, t1 := 6, key1 := key })] },
                    gm := memPutBytes [] (0x300000 + 64 * 77) rec',
                    xm := memPutNat [] 0x610 8 (77 * 2 ^ 24) }
  s.slotPut ((s.buckets 6 key).headD 0) 0 (s.slotFor 6 key 6)

/-- The same in a LISTEN of 1 ms on channel 4 at rate 0 with register 5 for its result. -/
def pipL (l : List (Fld × Nat)) (rec' : List Byte) : State :=
  let s := pip l rec'
  s.setSeq 3 { wait := some (.listen 5 1000000000 1001000000 4 0 0) }

/-- The frame with its CRC. -/
def crcd (f : PipFrame) : PipFrame :=
  { f with crc := BitVec.ofNat 16 (crc16 ((pipBytes f).length :: nums (pipBytes f))) }

/-- A frame of that node. -/
def pfr (fc ctr : Nat) (body : List Byte) : PipFrame :=
  crcd ⟨1000500000, 0, 0, 32, 0xC3, false, BitVec.ofNat 16 fc, 0xBEEF, 0xA1B2C3D4, BitVec.ofNat 32 ctr, body, 0, 0⟩

/-- Command slot 3 with word OP and word EPX, GO set, and the rest 0. -/
def eptMade (l : List (Fld × Nat)) (op epx : Nat) : State :=
  State.gmAt (at' ([(F.EPT_CTL_EN, 1), (F.EPT_IDX_BASE_ADDR, 0x100000)] ++ l)) 0x180
    (natLe op 4 ++ natLe epx 4 ++ List.replicate 116 0 ++ natLe 1 4)

/-- The same with both buckets of the key 0 of table 0 full. -/
def eptFull (l : List (Fld × Nat)) (op epx : Nat) : State :=
  let s := eptMade l op epx
  { s with xm := ((s.keySlots 0 (List.replicate 8 0)).foldl (fun m p => memPutNat m (s.bucketAddr p.1 + 8 * p.2) 8 0x40000) s.xm) }

/-- The same with entries 6 and 262,143 in use under another key. -/
def eptUsed (l : List (Fld × Nat)) (op epx : Nat) : State :=
  { eptMade l op epx with ept := { ents := [(6, { kind := 2, key1 := List.replicate 8 1 }), (0x3FFFF, { kind := 2, key1 := List.replicate 8 2 })] } }

/-- A lookup of thread 9's task 4 for its slot 1. -/
def lkG (table : Nat) (key : List Byte) : Lookup := { dest := .slot 9 4 1, table := table, key := key }

/-- Lookups are on, and `g` stands second. -/
def lkS (l : List (Fld × Nat)) (e : Ept) (g : Lookup) : State :=
  { at' ([(F.EPT_CTL_EN, 1)] ++ l) with ept := { e with lookups := [lkG 1 [9, 0, 0, 0], g] } }

/-- A frame of `n` bytes for queue pair 31. -/
def hostIt (n : Nat) : EgItem := { kind := 2, target := 31, tc := 7, pkt := { bytes := (List.range n).map (BitVec.ofNat 8), stamp := 5 } }

/-- A fabric message and a Pip frame with their check values: AES-CMAC under key slot 0 (key 5) and 3 (key 9). -/
def wmic (m : FedMsg) (v : Nat) : FedMsg := { m with mic := natLe v 8 }
def pmic (f : PipFrame) (v : Nat) : PipFrame := crcd { f with mic := BitVec.ofNat 32 v }

/-! ### Ill-formed commands, one for each check, are refused -/

/-- A protected Data frame, of GCMP or CCMP, with the given nonce and tag lengths. -/
def airSealed (gcm : Bool) (nonce tag : Nat) : AirFrame :=
  { airF true false true 20 with gcm := gcm, nonce := List.replicate nonce 0, tag := List.replicate tag 0 }

theorem test_wf_refuses_stamp : (Instr.parentBeacon (2 ^ 64) 0).wf = false ∧ (Instr.parentBeacon (2 ^ 64 - 1) 0).wf = true := by
  decide +kernel

theorem test_wf_refuses_air_frame :
    (Instr.mpduReceive (airSealed true 13 16) .good ⟨.good, .good, .good⟩ true false).wf = false ∧
    (Instr.mpduReceive (airSealed true 12 8) .good ⟨.good, .good, .good⟩ true false).wf = false ∧
    (Instr.mpduReceive (airSealed false 12 16) .good ⟨.good, .good, .good⟩ true false).wf = false ∧
    (Instr.mpduReceive (airSealed false 13 12) .good ⟨.good, .good, .good⟩ true false).wf = false ∧
    (Instr.mpduReceive (airSealed false 13 8) .good ⟨.good, .good, .good⟩ true false).wf = true := by decide +kernel

theorem test_wf_refuses_pip_frame :
    (Instr.pipData (pfr 0x81 1 (List.replicate 81 0)) .good true).wf = false ∧
    (Instr.pipData (pfr 0x01 1 (List.replicate 89 0)) .good true).wf = false ∧
    (Instr.pipData (pfr 0x01 1 (List.replicate 88 0)) .good true).wf = true := by decide +kernel

theorem test_wf_refuses_fabric_message :
    (Instr.heartbeat 1 { fmsg 0 0 1 [] with mic := [0] } 0 .good).wf = false ∧
    (Instr.heartbeat 1 (fmsg 0 0 1 []) (2 ^ 64) .good).wf = false ∧
    (Instr.firmwareMessage 1 (fmsg 31 0 1 []) 0 .good).wf = false ∧ (Instr.firmwareMessage 1 (fmsg 32 0 1 []) 0 .good).wf = true := by
  decide +kernel

theorem test_wf_refuses_lists :
    (Instr.pick (iS 0) 1 2 1 0 [2048]).wf = false ∧ (Instr.buildSu (iS 0) 1 2 0 [⟨3, [1, 1]⟩] false []).wf = false ∧
    (Instr.blockAckReceive 0 0 1 [(8, 0)] 0 0).wf = false ∧ (Instr.blockAckReceive 0 0 1 [(0, 4096)] 0 0).wf = false ∧
    (Instr.diagDone 0 [2 ^ 23]).wf = false ∧ (Instr.cacheFlush 0 0 [2 ^ 20]).wf = false ∧ (Instr.wakeStageTimeout [32] 0).wf = false := by
  decide +kernel

theorem test_wf_refuses_radar_burst :
    (Instr.radarBurst 65536 1 1 1 false 0).wf = false ∧ (Instr.radarBurst 1 256 1 1 false 0).wf = false ∧
    (Instr.radarBurst 1 1 128 1 false 0).wf = false ∧ (Instr.radarBurst 1 1 1 256 false 0).wf = false ∧
    (Instr.radarBurst 1 1 1 1 false 0).wf = true := by decide +kernel

theorem test_wf_refuses_lengths :
    (Instr.lrCodeFrame 0 ⟨List.replicate 2559 false, List.replicate 1664 false, .good⟩ false).wf = false ∧
    (Instr.lrCodeFrame 0 ⟨List.replicate 2560 false, List.replicate 1663 false, .good⟩ false).wf = false ∧
    (Instr.send 0 ⟨0, 64, 0, 0, 0, 0, 0⟩ (List.replicate 63 0) .good .good).wf = false ∧
    (Instr.hostLinkUp 0 1).wf = false ∧ (Instr.hostLinkUp 3 3).wf = false ∧ (Instr.hostLinkUp 3 4).wf = true := by decide +kernel

theorem test_wf_refuses_pip_rate :
    (Instr.pipData { pfr 0x01 1 [] with matched := 33 } .good true).wf = false ∧
    (Instr.pipData { pfr 0x01 1 [] with rate := 1, rep := 1 } .good true).wf = false ∧
    (Instr.pipData { pfr 0x01 1 [] with rep := 1 } .good true).wf = true := by decide +kernel

/-! ### Words of chapter 03, written out from its formats and opcode table -/

/-- R57, R63: opcode 0x01 in [31:26], gd 1 in [25:21], ga 2 in [20:16], gb 3 in [15:11], function 0x000. -/
theorem test_word_add : decodeYalvo iT { mem := .good } 0b000001_00001_00010_00011_00000000000 = some (.add iT 1 2 3) := by decide +kernel

/-- R57, R64: opcode 0x02, gd 1, ga 2, imm16 0xFFFF. -/
theorem test_word_addi : decodeYalvo iT { mem := .good } 0b000010_00001_00010_1111111111111111 = some (.addi iT 1 2 0xFFFF) := by decide +kernel

/-- R58, R59: the word of zeros, a reserved function of opcode 0x01 and a reserved opcode are no instruction. -/
theorem test_word_reserved :
    decodeYalvo iT { mem := .good } 0 = none ∧ decodeYalvo iT { mem := .good } 0b000001_00001_00010_00011_00000011101 = none ∧
    decodeYalvo iT { mem := .good } 0b001110_00000_00000_0000000000000000 = none := by decide +kernel

/-! ### One step each, expected from the rules named -/

/-- What a test looks for holds after one command. -/
def after (c : Instr) (s : State) (p : State → Bool) : Bool :=
  match step { s with pending := [c] } with
  | .next t => p t && t.pending.isEmpty
  | _ => false

/-- R63: ADD keeps the low 64 bits. -/
theorem test_add_wraps : after (.add iT 1 2 3) (runT [(2, -1), (3, 2)]) (fun t => t.reg 9 1 == 1 && t.pcOf iT.who == 0x104) = true := by
  decide +kernel

/-- R63: DIV of -2^63 by -1 gives -2^63; DIVU by 0 gives all ones. -/
theorem test_division_corners :
    after (.div iT 1 2 3) (runT [(2, 0x8000000000000000), (3, -1)]) (fun t => t.reg 9 1 == 0x8000000000000000) = true ∧
    after (.divu iT 1 2 3) (runT [(2, 7)]) (fun t => t.reg 9 1 == -1) = true := by decide +kernel

/-- R63: CSUM carries around the end; the ones'-complement sum of 0xFFFF and 1 is 1. -/
theorem test_csum_end_around : after (.csum iT 1 2 3) (runT [(2, 0xFFFF), (3, 1)]) (fun t => t.reg 9 1 == 1) = true := by
  decide +kernel

/-- R30: a write of g0 is discarded. -/
theorem test_register_0 : after (.addi iT 0 2 5) (runT [(2, 5)]) (fun t => t.reg 9 0 == 0) = true := by decide +kernel

/-- R66: little-endian, to the thread's own unit; R33: offset −4. -/
theorem test_store_word : after (.stw iT 1 2 0 (-4)) (runT [(1, 0x11223344), (2, 0x108)])
    (fun t => memByte t.yal.lm 0x10104 == 0x44 && memByte t.yal.lm 0x10107 == 0x11 && memByte t.yal.lm 0x10108 == 0) = true := by
  decide +kernel

/-- R62: GAIN outside SQP is ILLEGAL, and the sequencer halts with CAUSE 1, EXC 1. -/
theorem test_gain_in_sqb : after (.gain (iS 1) 1 2 3 false) (State.sqr live 1 [])
    (fun t => t.on (F.SQ_CTL_HALTED 1) && t.get (F.SQ_CTL_CAUSE 1) == 1 && t.get (F.SQ_CTL_EXC 1) == 1) = true := by decide +kernel

/-- The worked example of 08_pip_radio.md: a DATA with SEQ 0, NESN 1 and CTR 5,431 meets SEQ 1, NESN 0 and UPCTR 5,430: it is
accepted, NESN turns, LISTEN returns 1 and an answer is due. -/
theorem test_trough_sensor : after (.pipData (pmic (pfr 0x8A1 5431 [1, 2, 3]) 0x11c043bf) .good true)
    (pipL [(F.PIP_HOME_CH, 4)] (pipRec 0x83 3 5430 2208 0))
    (fun t => t.reg 515 5 % 256 == 1 && bit (t.nodeLink 77) 2 && t.nodeNat 77 0x1C 4 == 5431 && t.air.pip.ex != .none) = true := by
  decide +kernel

/-- The same example: its repeat with CTR 5,432 is discarded and counted in DUP. -/
theorem test_trough_sensor_repeat : after (.pipData (pmic (pfr 0x8A1 5432 [1, 2, 3]) 0xefcd2e38) .good true)
    (pipL [(F.PIP_HOME_CH, 4)] (pipRec 0x83 7 5431 2209 0))
    (fun t => t.get F.PIP_RXCNT2_DUP == 1 && t.prs.input.isEmpty && t.nodeNat 77 0x1C 4 == 5432) = true := by
  decide +kernel

/-- R257: with BI 1,024 ms and OFS 0, the first target beacon time after 1 s is 1.024 s (TBM). -/
theorem test_pip_tbtt : after .pipTbtt (pip [(F.PIP_BCN_CFG_EN, 1)] []) (fun t => t.now == 1024000000 && t.get F.PIP_BCN_STAT_FAILS == 1) = true := by
  decide +kernel

/-- R103: an idle step is one clock of the crystal. -/
theorem test_idle_step : (match step live with | .next t => t.time.tbm == 1000000001 * 2 ^ 32 | _ => false) = true := by decide +kernel

/-! ### Every statement's hypotheses are met -/

theorem wit_OrdinaryArithmetic :
  (let i : Issue := iT
   let gd : BitVec 5 := 1
   let ga : BitVec 5 := 2
   let gb : BitVec 5 := 3
   let s : State := runT [(2, 0x8000000000000000), (3, -1)]
   (Issues s i .both [gd, ga, gb])) ∧
  (let i : Issue := iT
   let gd : BitVec 5 := 1
   let ga : BitVec 5 := 2
   let s : State := runT [(2, 0x8000000000000f00)]
   (Issues s i .both [gd, ga])) ∧
  (let i : Issue := iT
   let gd : BitVec 5 := 1
   let ga : BitVec 5 := 2
   let s : State := runT [(2, 0x8000000000000f00), (1, 77)]
   (Issues s i .both [gd, ga])) ∧
  (let i : Issue := iT
   let gd : BitVec 5 := 1
   let s : State := runT [(2, 0x8000000000000f00), (1, 77)]
   (Issues s i .both [gd, 0])) := by
  delta Issues; refine ⟨?_, ?_, ?_, ?_⟩ <;> decide +kernel

theorem wit_BranchAndJump :
  (let i : Issue := iT
   let ga : BitVec 5 := 2
   let s : State := runT []
   (Issues s i .both [ga])) ∧
  (let i : Issue := iT
   let s : State := runT []
   (Issues s i .both [])) ∧
  (let i : Issue := iT
   let ga : BitVec 5 := 2
   let s : State := runT [(2, 0xFFFC)]
   (Issues s i .both [ga]) ∧ ((s.val i ga).toNat % 4 = 0) ∧ ((s.val i ga).toNat < 65536)) ∧
  (let i : Issue := iT
   let gd : BitVec 5 := 2
   let ga : BitVec 5 := 2
   let s : State := runT [(2, 0xFFFC)]
   (Issues s i .both [ga, gd]) ∧ ((s.val i ga).toNat % 4 = 0) ∧ ((s.val i ga).toNat < 65536)) ∧
  (let i : Issue := iT
   let gd : BitVec 5 := 0
   let s : State := runT [(2, 0xFFFC)]
   (Issues s i .both [gd])) := by
  delta Issues; refine ⟨?_, ?_, ?_, ?_, ?_⟩ <;> decide +kernel

theorem wit_Exceptions :
  (let t : Fin 512 := 9
   let i : Issue := iT
   let ga : BitVec 5 := 2
   let s : State := runT [(2, 3)]
   (i.who = .thr t) ∧ (Issues s i .both [ga]) ∧ ((((s.countInstr i.who).haltThread t.val)).countsOnly (384 + 4 * (t.val / 32)) = true)) ∧
  (let t : Fin 512 := 9
   let i : Issue := iT
   let ga : BitVec 5 := 2
   let s : State := runT [(2, 3)]
   (i.who = .thr t) ∧ (Issues s i .both [ga]) ∧ ((((s.countInstr i.who).haltThread t.val)).countsOnly (384 + 4 * (t.val / 32)) = true) ∧ ((s.val i ga).toNat % 4 ≠ 0)) ∧
  (let t : Fin 512 := 9
   let i : Issue := iT
   let gd : BitVec 5 := 1
   let ga : BitVec 5 := 2
   let off : BitVec 14 := 0
   let s : State := runT [(2, 65536)]
   (i.who = .thr t) ∧ (Issues s i .both [gd, ga]) ∧ (s.addrOf i ga off % 4 = 0) ∧ (0x10000 < s.addrOf i ga off + 4) ∧ (((s.countInstr i.who).haltThread t.val).countsOnly (384 + 4 * (t.val / 32)) = true)) := by
  delta Issues; refine ⟨?_, ?_, ?_⟩ <;> decide +kernel

theorem wit_LoadsAndStores :
  (let s := runT [(2, 0xFFF8)]
   Issues s iT .both [1, 2] ∧ iT.who = .thr 9 ∧ ownBytes 0 (s.thread 9).sbuf = [] ∧ s.addrOf iT 2 0 % 8 = 0 ∧
     s.addrOf iT 2 0 + 8 ≤ 0x10000) ∧
  (let s := State.sqr live 3 [(2, 0x3FF8)]
   Issues s (iS 3) .both [1, 2] ∧ (iS 3).who = .seq 3 ∧ s.addrOf (iS 3) 2 0 % 8 = 0 ∧ s.addrOf (iS 3) 2 0 + 8 ≤ 0x4000) ∧
  (let s := State.thr live { st := .run, pc := 0x100, task := some {}, sbuf := List.replicate 7 ⟨2, 8, [0]⟩ } [(2, 0x1000)]
   Issues s iT .both [1, 2] ∧ (3 : Fin 4) ≠ 0 ∧ (∀ n ∈ [1, 2, 4, 8], s.accessCheck (.thr 9) 3 (s.addrOf iT 2 0) n true = none) ∧
     (∀ n ∈ [1, 2, 4, 8], s.accessCheck (.thr 9) 1 (s.addrOf iT 2 0) n true = none) ∧ (s.thread 9).sbuf.length < 8) := by
  delta Issues; decide +kernel

theorem wit_AtomicsAndWindow :
  (let t : Fin 512 := 9
   let i : Issue := iT
   let gd : BitVec 5 := 1
   let ga : BitVec 5 := 2
   let off : BitVec 14 := 0x3FF8
   let s : State := runT [(2, 0x10000), (1, -1)]
   (i.who = .thr t) ∧ (Issues s i .p [gd, ga]) ∧ (s.addrOf i ga off % 8 = 0) ∧ (s.addrOf i ga off + 8 ≤ 0x10000)) ∧
  (let t : Fin 512 := 9
   let i : Issue := iT
   let gd : BitVec 5 := 1
   let ga : BitVec 5 := 2
   let s : State := runT [(2, 0x10000), (1, -1)]
   (i.who = .thr t) ∧ (Issues s i .p [gd, ga]) ∧ (let c := s.countInstr i.who
   let sp : Fin 4 := 2
   (sp ≠ 0) ∧ ((c.haltThread t.val).countsOnly (384 + 4 * (t.val / 32)) = true))) ∧
  (let t : Fin 512 := 9
   let i : Issue := iT
   let gd : BitVec 5 := 1
   let ga : BitVec 5 := 2
   let off : BitVec 9 := 0x1FF
   let size : Fin 4 := 3
   let s : State := runT [(2, -7), (1, 0x1122334455667788)]
   (i.who = .thr t) ∧ (Issues s i .p [gd, ga]) ∧ (let a := (s.val i ga + off.zeroExtend 64).toNat
   let n := 2 ^ size.val
   (a + n ≤ 512))) ∧
  (let t : Fin 512 := 9
   let i : Issue := iT
   let gd : BitVec 5 := 1
   let ga : BitVec 5 := 2
   let off : BitVec 9 := 0x1FF
   let size : Fin 4 := 3
   let s : State := runT [(2, -6)]
   (i.who = .thr t) ∧ (Issues s i .p [gd, ga]) ∧ (let a := (s.val i ga + off.zeroExtend 64).toNat
   let n := 2 ^ size.val
   let c := s.countInstr i.who
   (512 < a + n) ∧ ((c.haltThread t.val).countsOnly (384 + 4 * (t.val / 32)) = true))) := by
  delta Issues; refine ⟨?_, ?_, ?_, ?_⟩ <;> decide +kernel

theorem wit_FencesAndReturns :
  (let t : Fin 512 := 9
   let i : Issue := iT
   let s : State := runT []
   (i.who = .thr t) ∧ (Issues s i .p []) ∧ ((s.thread t.val).sbuf = [])) ∧
  (let t : Fin 512 := 9
   let i : Issue := iT
   let s : State := State.thr live { st := .run, sbuf := [⟨3, 0, [1]⟩] } []
   (i.who = .thr t) ∧ (Issues s i .p []) ∧ ((s.thread t.val).sbuf ≠ [])) ∧
  (let t : Fin 512 := 9
   let i : Issue := iT
   let s : State := runT []
   (i.who = .thr t) ∧ (Issues s i .p [])) ∧
  (let t : Fin 512 := 9
   let e : StoreEnt := ⟨2, 64, [1, 2]⟩
   let rest : List StoreEnt := []
   let s : State := State.thr live { st := .run, sbuf := [⟨2, 64, [1, 2]⟩] } []
   (s.quiet = true) ∧ ((s.thread t.val).sbuf = e :: rest) ∧ (s.yal.dcache = []) ∧ ((e.space = 1 ∨ e.space = 2 ∨ e.space = 3 ∧ s.xmDead = false)) ∧ ((s.thread t.val).st = .run)) ∧
  (let t : Fin 512 := 9
   let e : StoreEnt := ⟨1, 64, [1, 2]⟩
   let rest : List StoreEnt := []
   let s : State := State.thr live { st := .wait .fenceD, pc := 8, sbuf := [⟨1, 64, [1, 2]⟩] } []
   (s.quiet = true) ∧ ((s.thread t.val).sbuf = e :: rest) ∧ (s.yal.dcache = []) ∧ ((e.space = 1 ∨ e.space = 2 ∨ e.space = 3 ∧ s.xmDead = false)) ∧ ((s.thread t.val).st = .wait .fenceD) ∧ (rest = [])) ∧
  (let t : Fin 512 := 9
   let e : StoreEnt := ⟨3, 64, [1, 2]⟩
   let rest : List StoreEnt := []
   let s : State := State.thr live { st := .wait (.store ⟨2, 0, [7]⟩), pc := 8, sbuf := [⟨3, 64, [1, 2]⟩] } []
   (s.quiet = true) ∧ ((s.thread t.val).sbuf = e :: rest) ∧ (s.yal.dcache = []) ∧ ((e.space = 1 ∨ e.space = 2 ∨ e.space = 3 ∧ s.xmDead = false)) ∧ (let w : StoreEnt := ⟨2, 0, [7]⟩
   ((s.thread t.val).st = .wait (.store w)))) ∧
  (let t : Fin 512 := 9
   let gd : Nat := 4
   let a : Nat := 64
   let n : Nat := 8
   let sgn : Bool := true
   let s : State := State.thr { live with gm := [(65, 7)] } { st := .wait (.load 4 2 64 8 true []), task := some {} } []
   (s.quiet = true) ∧ ((s.thread t.val).st = .wait (.load gd 2 a n sgn []))) := by
  delta Issues; refine ⟨?_, ?_, ?_, ?_, ?_, ?_, ?_⟩ <;> decide +kernel

theorem wit_FencesAndReturns_2 :
  (let t : Fin 512 := 9
   let gd : Nat := 4
   let a : Nat := 64
   let n : Nat := 8
   let sgn : Bool := true
   let s : State := State.thr { live with gm := [(65, 7)] } { st := .wait (.load 4 2 64 8 true []), task := some {} } []
   (s.quiet = true) ∧ ((s.thread t.val).st = .wait (.load gd 2 a n sgn [])) ∧ ((s.haltThread t.val).countsOnly (386 + 4 * (t.val / 32)) = true)) := by
  decide +kernel

theorem wit_InstructionWords :
  (let i : Issue := iT
   let x : Met := {}
   let v : Nat := 0x04220800
   let w : Nat := 0x04220800
   let c : Instr := .add iT 1 2 1
   (v < 2 ^ 32) ∧ (w < 2 ^ 32) ∧ (decodeYalvo i x v = some c) ∧ (decodeYalvo i x w = some c)) ∧
  (let w : Nat := 0xFFFFFFFF
   (bits w 31 26 ∈ [0x00, 0x0E, 0x0F, 0x17, 0x3C, 0x3D, 0x3E, 0x3F])) ∧
  (let i : Issue := iT
   let s : State := live
   (s.wordAtPc i.who = 0)) := by
  refine ⟨?_, ?_, ?_⟩ <;> decide +kernel

theorem wit_AcceleratorRequests :
  (let t : Fin 512 := 9
   let i : Issue := iT
   let ga : BitVec 5 := 2
   let slot : Fin 4 := 3
   let s : State := runT [(2, 0xFFFC)]
   (i.who = .thr t) ∧ (Issues s i .p [ga]) ∧ (let a := (s.val i ga).toNat
   let keyBytes := fun (table : Fin 7) => [8, 4, 16, 40, 4, 16, 4].getD table.val 0
   (s.slotOf t.val slot.val = .empty) ∧ (let table : Fin 7 := 6
   (a + keyBytes table ≤ 0x10000)))) ∧
  (let t : Fin 512 := 9
   let i : Issue := iT
   let ga : BitVec 5 := 2
   let slot : Fin 4 := 3
   let s : State := State.thr live { st := .run, task := some {}, held := some { hits := [(5, 77)], pcount := 1 } } [(2, 0)]
   (i.who = .thr t) ∧ (Issues s i .p [ga]) ∧ (let a := (s.val i ga).toNat
   (s.slotOf t.val slot.val = .empty) ∧ (let p : Packet := { hits := [(5, 77)], pcount := 1 }
   ((s.thread t.val).held = some p) ∧ (a < 2048)))) ∧
  (let t : Fin 512 := 9
   let i : Issue := iT
   let ga : BitVec 5 := 2
   let slot : Fin 4 := 3
   let s : State := State.thr { live with yal := { lm := [(0x10000, 0x38), (0x10006, 1)] }, cip := { keys := [(3, ⟨true, 0, 0x21, 0, 1, 5⟩)] } } { st := .run } [(2, 0)]
   (i.who = .thr t) ∧ (Issues s i .p [ga]) ∧ (let a := (s.val i ga).toNat
   let dest := s.slotDest t.val slot.val
   (s.slotOf t.val slot.val = .empty) ∧ (a + 32 ≤ 0x10000) ∧ (let d := memBytes s.yal.lm (0x10000 * (t.val / 8) + a) 32
   let j := descJob d (.program dest (t.val / 128))
   (s.badDesc d = false) ∧ (s.slotRefusal j.op j.slot useProgram = none)))) ∧
  (let t : Fin 512 := 9
   let i : Issue := iT
   let ga : BitVec 5 := 2
   let slot : Fin 4 := 3
   let s : State := State.thr ((at' [(F.CIP_CTL_ALARM, 1)])) { st := .run } [(2, 0)]
   (i.who = .thr t) ∧ (Issues s i .p [ga]) ∧ (let a := (s.val i ga).toNat
   (s.slotOf t.val slot.val = .empty) ∧ (a + 32 ≤ 0x10000) ∧ (s.on F.CIP_CTL_ALARM = true))) ∧
  (let t : Fin 512 := 9
   let i : Issue := iT
   let ga : BitVec 5 := 2
   let slot : Fin 4 := 3
   let s : State := State.thr { live with yal := { lm := [(0x10000, 0x38), (0x10006, 1)] } } { st := .run } [(2, 0)]
   (i.who = .thr t) ∧ (Issues s i .p [ga]) ∧ (let a := (s.val i ga).toNat
   let dest := s.slotDest t.val slot.val
   (s.slotOf t.val slot.val = .empty) ∧ (a + 32 ≤ 0x10000) ∧ (let d := memBytes s.yal.lm (0x10000 * (t.val / 8) + a) 32
   let j := descJob d (.program dest (t.val / 128))
   (s.badDesc d = false) ∧ (s.slotRefusal j.op j.slot useProgram = some 3)))) ∧
  (let t : Fin 512 := 9
   let i : Issue := iT
   let ga : BitVec 5 := 2
   let slot : Fin 4 := 3
   let s : State := State.thr { (at' [(F.FLT_SRC_LEVEL 450, 2)]) with yal := { lm := [(0x10000, 0x38), (0x10006, 1)] } } { st := .run } [(2, 0)]
   (i.who = .thr t) ∧ (Issues s i .p [ga]) ∧ (let a := (s.val i ga).toNat
   let dest := s.slotDest t.val slot.val
   (s.slotOf t.val slot.val = .empty) ∧ (a + 32 ≤ 0x10000) ∧ (let d := memBytes s.yal.lm (0x10000 * (t.val / 8) + a) 32
   let j := descJob d (.program dest (t.val / 128))
   (s.badDesc d = false) ∧ (s.slotRefusal j.op j.slot useProgram = some 6)))) ∧
  (let t : Fin 512 := 9
   let i : Issue := iT
   let ga : BitVec 5 := 2
   let slot : Fin 4 := 3
   let s : State := runT [(2, 0xFFFD)]
   (i.who = .thr t) ∧ (Issues s i .p [ga]) ∧ (let a := (s.val i ga).toNat
   let c := s.countInstr i.who
   let keyBytes := fun (table : Fin 7) => [8, 4, 16, 40, 4, 16, 4].getD table.val 0
   let mayHalt := (c.haltThread t.val).countsOnly (384 + 4 * (t.val / 32)) = true
   (s.slotOf t.val slot.val = .empty) ∧ (mayHalt) ∧ (let table : Fin 7 := 6
   (0x10000 < a + keyBytes table)))) := by
  delta Issues; refine ⟨?_, ?_, ?_, ?_, ?_, ?_, ?_⟩ <;> decide +kernel

theorem wit_AcceleratorRequests_2 :
  (let t : Fin 512 := 9
   let i : Issue := iT
   let ga : BitVec 5 := 2
   let slot : Fin 4 := 3
   let s : State := runT [(2, 0xFFFD)]
   (i.who = .thr t) ∧ (Issues s i .p [ga]) ∧ (let a := (s.val i ga).toNat
   let c := s.countInstr i.who
   let mayHalt := (c.haltThread t.val).countsOnly (384 + 4 * (t.val / 32)) = true
   (s.slotOf t.val slot.val = .empty) ∧ (mayHalt) ∧ (0x10000 < a + 32))) ∧
  (let t : Fin 512 := 9
   let i : Issue := iT
   let ga : BitVec 5 := 2
   let slot : Fin 4 := 3
   let s : State := runT [(2, 0xFFFD)]
   (i.who = .thr t) ∧ (Issues s i .p [ga]) ∧ (let a := (s.val i ga).toNat
   let c := s.countInstr i.who
   let mayHalt := (c.haltThread t.val).countsOnly (384 + 4 * (t.val / 32)) = true
   (s.slotOf t.val slot.val = .empty) ∧ (mayHalt) ∧ ((s.thread t.val).held = none ∨ 2048 ≤ a))) ∧
  (let t : Fin 512 := 9
   let i : Issue := iT
   let ga : BitVec 5 := 2
   let slot : Fin 4 := 3
   let s : State := State.thr live { st := .run, task := some {}, slots := [.empty, .empty, .empty, .outstanding] } []
   (i.who = .thr t) ∧ (Issues s i .p [ga]) ∧ (let c := s.countInstr i.who
   let mayHalt := (c.haltThread t.val).countsOnly (384 + 4 * (t.val / 32)) = true
   (s.slotOf t.val slot.val ≠ .empty) ∧ (mayHalt))) ∧
  (let t : Fin 512 := 9
   let i : Issue := iT
   let gd : BitVec 5 := 4
   let slot : Fin 4 := 3
   let s : State := State.thr live { st := .run, slots := [.empty, .empty, .empty, .result 5] } []
   (i.who = .thr t) ∧ (Issues s i .p [gd]) ∧ (let v : DWord := 5
   (s.slotOf t.val slot.val = .result v))) ∧
  (let t : Fin 512 := 9
   let i : Issue := iT
   let gd : BitVec 5 := 4
   let slot : Fin 4 := 3
   let s : State := State.thr live { st := .run, slots := [.empty, .empty, .empty, .outstanding] } []
   (i.who = .thr t) ∧ (Issues s i .p [gd]) ∧ (s.slotOf t.val slot.val = .outstanding)) ∧
  (let t : Fin 512 := 9
   let i : Issue := iT
   let gd : BitVec 5 := 4
   let slot : Fin 4 := 3
   let s : State := runT []
   (i.who = .thr t) ∧ (Issues s i .p [gd]) ∧ (let c := s.countInstr i.who
   (s.slotOf t.val slot.val = .empty) ∧ ((c.haltThread t.val).countsOnly (384 + 4 * (t.val / 32)) = true))) := by
  delta Issues; refine ⟨?_, ?_, ?_, ?_, ?_, ?_⟩ <;> decide +kernel

theorem wit_TaskEndAndEgress :
  (let t : Fin 512 := 9
   let i : Issue := iT
   let k : Task := {}
   let p : Packet := {}
   let s : State := State.thr live { st := .run, task := some {}, held := some {} } []
   (i.who = .thr t) ∧ (Issues s i .p []) ∧ ((s.thread t.val).task = some k) ∧ ((s.thread t.val).held = some p) ∧ ((s.thread t.val).cpin = none) ∧ ((s.thread t.val).pins = []) ∧ (k.ordered = false)) ∧
  (let t : Fin 512 := 9
   let i : Issue := iT
   let k : Task := { ordered := true }
   let s : State := State.thr { live with hts := { places := [{}] } } { st := .run, task := some { ordered := true } } []
   (i.who = .thr t) ∧ ((s.thread t.val).task = some k) ∧ (k.ordered = true) ∧ ((s.thread t.val).ordr = false) ∧ (let ga : BitVec 5 := 2
   (Issues s i .p [0, ga]))) ∧
  (let t : Fin 512 := 9
   let i : Issue := iT
   let gd : BitVec 5 := 1
   let ga : BitVec 5 := 2
   let p : Packet := { bytes := [1, 2] }
   let s : State := State.thr live { st := .run, task := some {}, held := some { bytes := [1, 2] } } [(1, 0x0002000000000000), (2, 0x0000000004600801)]
   (i.who = .thr t) ∧ (Issues s i .p [gd, ga]) ∧ ((s.thread t.val).held = some p) ∧ (s.val i gd = handleOf p) ∧ (let w := egWord (s.val i ga)
   (validEgWord w p.bytes.length (s.get F.FED_ID_ID) = true) ∧ (w.kind = 6))) ∧
  (let t : Fin 512 := 9
   let i : Issue := iT
   let gd : BitVec 5 := 1
   let ga : BitVec 5 := 2
   let p : Packet := { bytes := [1, 2] }
   let s : State := State.thr (at' [(F.CU_STAT_UP 0, 1), (F.HTS_EG_BP_MAX 0, 0), (F.HTS_EG_BP_ON 0, 1), (F.CU_MAXLEN_LEN 0, 1500)]) { st := .run, task := some {}, held := some { bytes := [1, 2] } } [(1, 0x0002000000000000), (2, 0x801)]
   (i.who = .thr t) ∧ (Issues s i .p [gd, ga]) ∧ ((s.thread t.val).held = some p) ∧ (s.val i gd = handleOf p) ∧ (let w := egWord (s.val i ga)
   (validEgWord w p.bytes.length (s.get F.FED_ID_ID) = true) ∧ (let q := rewrite p (memBytes s.yal.pw (512 * t.val) 512) w.h w.c
   let u := (s.countInstr i.who).dropHeld t.val
   (w.kind < 6) ∧ (s.get (F.HTS_EG_BP_MAX w.kind) = 0) ∧ (s.get (F.HTS_EG_BP_ON w.kind) = 1) ∧ (u.portDrop { kind := w.kind, target := w.target, tc := w.tc, pkt := q } = none)))) := by
  delta Issues; refine ⟨?_, ?_, ?_, ?_⟩ <;> decide +kernel

theorem wit_TaskCreation :
  (let t : Fin 512 := 9
   let i : Issue := iT
   let gd : BitVec 5 := 1
   let ga : BitVec 5 := 2
   let pk : Bool := true
   let pn : Bool := true
   let k : Task := {}
   let s : State := State.thr (live) { st := .run, task := some {} } [(2, 0x0000004000001234), (1, 99)]
   (i.who = .thr t) ∧ (Issues s i .p [gd, ga]) ∧ ((s.thread t.val).task = some k) ∧ (let c := s.countInstr i.who
   let th := s.thread t.val
   let w := flowWord (s.val i ga).toNat
   let p := if pk = true then th.held else none
   let bad := pk = true ∧ th.held = none ∨ pn = true ∧ th.cpin = none ∨ badFlow w (p.map (fun q => q.bytes.length)) = true
   (bad) ∧ ((c.haltThread t.val).countsOnly (384 + 4 * (t.val / 32)) = true))) ∧
  (let t : Fin 512 := 9
   let i : Issue := iT
   let gd : BitVec 5 := 1
   let ga : BitVec 5 := 2
   let pk : Bool := true
   let pn : Bool := true
   let k : Task := { op1 := 7 }
   let s : State := State.thr (live) { st := .run, task := some { op1 := 7 }, held := some { bytes := [1, 2, 3] }, cpin := some 6 } [(2, 0x0000004200001234), (1, 99), (3, 8)]
   (i.who = .thr t) ∧ (Issues s i .p [gd, ga]) ∧ ((s.thread t.val).task = some k) ∧ (let c := s.countInstr i.who
   let th := s.thread t.val
   let w := flowWord (s.val i ga).toNat
   let p := if pk = true then th.held else none
   let bad := pk = true ∧ th.held = none ∨ pn = true ∧ th.cpin = none ∨ badFlow w (p.map (fun q => q.bytes.length)) = true
   let r := s.liveRegion (if w.expl = true then w.region else k.region)
   let n := taskOf w r (p.map (fun q => rewrite q (memBytes s.yal.pw (512 * t.val) 512) w.h w.c)) (if pn = true then th.cpin.map (fun e => (e, k.op1)) else none) (s.val i gd)
   (¬ bad) ∧ (c.refuses .fork n = false))) ∧
  (let t : Fin 512 := 9
   let i : Issue := iT
   let gd : BitVec 5 := 1
   let ga : BitVec 5 := 2
   let pk : Bool := false
   let pn : Bool := false
   let k : Task := {}
   let s : State := State.thr { at' [(F.HTS_CTL_PAUSE, 1)] with flt := { last := [(369, 5)] } } { st := .run, task := some {} } [(2, 0x0000004000001234), (1, 99)]
   (i.who = .thr t) ∧ (Issues s i .p [gd, ga]) ∧ ((s.thread t.val).task = some k) ∧ (let c := s.countInstr i.who
   let th := s.thread t.val
   let w := flowWord (s.val i ga).toNat
   let p := if pk = true then th.held else none
   let bad := pk = true ∧ th.held = none ∨ pn = true ∧ th.cpin = none ∨ badFlow w (p.map (fun q => q.bytes.length)) = true
   let r := s.liveRegion (if w.expl = true then w.region else k.region)
   let n := taskOf w r (p.map (fun q => rewrite q (memBytes s.yal.pw (512 * t.val) 512) w.h w.c)) (if pn = true then th.cpin.map (fun e => (e, k.op1)) else none) (s.val i gd)
   let last := tabGet (fun _ => 0) s.flt.last 369
   (¬ bad) ∧ (c.refuses .fork n = true) ∧ (last ≠ 0) ∧ (s.now < last - 1 + 1000000000))) ∧
  (let t : Fin 512 := 9
   let i : Issue := iT
   let gd : BitVec 5 := 1
   let ga : BitVec 5 := 2
   let pk : Bool := false
   let pn : Bool := false
   let k : Task := {}
   let s : State := State.thr (at' [(F.HTS_CTL_PAUSE, 1)]) { st := .run, task := some {} } [(2, 0x0000004000001234), (1, 99)]
   (i.who = .thr t) ∧ (Issues s i .p [gd, ga]) ∧ ((s.thread t.val).task = some k) ∧ (let c := s.countInstr i.who
   let th := s.thread t.val
   let w := flowWord (s.val i ga).toNat
   let p := if pk = true then th.held else none
   let bad := pk = true ∧ th.held = none ∨ pn = true ∧ th.cpin = none ∨ badFlow w (p.map (fun q => q.bytes.length)) = true
   let r := s.liveRegion (if w.expl = true then w.region else k.region)
   let n := taskOf w r (p.map (fun q => rewrite q (memBytes s.yal.pw (512 * t.val) 512) w.h w.c)) (if pn = true then th.cpin.map (fun e => (e, k.op1)) else none) (s.val i gd)
   let refused := (c.bump F.HTS_CNT_FORKREF 1)
   let last := tabGet (fun _ => 0) s.flt.last 369
   (¬ bad) ∧ (c.refuses .fork n = true) ∧ ((last = 0 ∨ last - 1 + 1000000000 ≤ s.now)) ∧ (let u := s.advance (({ refused with flt := { s.flt with last := tabSet (fun _ => 0) s.flt.last 369 (s.now + 1) } } : State).setReg t.val gd.toNat 1) i
   (u.countsOnly 369 = true)))) ∧
  (let who : Fin 4 := 0
   let s : State := at' [(F.HTS_INJ_FLOW_FLOW 0, 0x8043300000123)]
   (s.takes who.val 5 = true) ∧ (let w := flowWord (s.get (F.HTS_INJ_FLOW_FLOW who.val))
   (w.rest ≠ 0 ∨ w.h ≠ 0 ∨ w.c ≠ 0))) ∧
  (let who : Fin 4 := 0
   let s : State := at' [(F.HTS_INJ_FLOW_FLOW 0, 0x43300000123)]
   (s.takes who.val 5 = true) ∧ (let w := flowWord (s.get (F.HTS_INJ_FLOW_FLOW who.val))
   let r := if w.expl = true then w.region else s.regmap (w.tag / 2 ^ 24)
   let n := taskOf w r none none (BitVec.ofNat 64 (s.get (F.HTS_INJ_VAL_VAL who.val)))
   let u := s.put (F.HTS_INJ_CTL_ERR who.val) 0
   (w.rest = 0) ∧ (w.h = 0) ∧ (w.c = 0) ∧ (u.refuses .injection n = false))) ∧
  (let who : Fin 4 := 0
   let s : State := { at' [(F.HTS_INJ_FLOW_FLOW 0, 0x43300000123), (F.HTS_CTL_PAUSE, 1)] with flt := { last := [(370, 5)] } }
   (s.takes who.val 5 = true) ∧ (let w := flowWord (s.get (F.HTS_INJ_FLOW_FLOW who.val))
   let r := if w.expl = true then w.region else s.regmap (w.tag / 2 ^ 24)
   let n := taskOf w r none none (BitVec.ofNat 64 (s.get (F.HTS_INJ_VAL_VAL who.val)))
   let u := s.put (F.HTS_INJ_CTL_ERR who.val) 0
   let last := tabGet (fun _ => 0) s.flt.last 370
   (w.rest = 0) ∧ (w.h = 0) ∧ (w.c = 0) ∧ (u.refuses .injection n = true) ∧ (last ≠ 0) ∧ (s.now < last - 1 + 1000000000))) := by
  delta Issues; refine ⟨?_, ?_, ?_, ?_, ?_, ?_, ?_⟩ <;> decide +kernel

theorem wit_TaskCreation_2 :
  (let who : Fin 4 := 0
   let s : State := at' [(F.HTS_INJ_FLOW_FLOW 0, 0x43300000123), (F.HTS_CTL_PAUSE, 1)]
   (s.takes who.val 5 = true) ∧ (let w := flowWord (s.get (F.HTS_INJ_FLOW_FLOW who.val))
   let r := if w.expl = true then w.region else s.regmap (w.tag / 2 ^ 24)
   let n := taskOf w r none none (BitVec.ofNat 64 (s.get (F.HTS_INJ_VAL_VAL who.val)))
   let u := s.put (F.HTS_INJ_CTL_ERR who.val) 0
   let no := (u.put (F.HTS_INJ_CTL_ACC who.val) 0).bump F.HTS_CNT_INJREF 1
   let last := tabGet (fun _ => 0) s.flt.last 370
   (w.rest = 0) ∧ (w.h = 0) ∧ (w.c = 0) ∧ (u.refuses .injection n = true) ∧ ((last = 0 ∨ last - 1 + 1000000000 ≤ s.now)) ∧ (let x : State := { no with flt := { s.flt with last := tabSet (fun _ => 0) s.flt.last 370 (s.now + 1) } }
   (x.countsOnly 370 = true)))) := by
  decide +kernel

theorem wit_SchedulerCommands :
  (let c : Fin 16 := 3
   let s : State := live
   (s.running (clusterDomain c.val) = true)) ∧
  (let c : Fin 16 := 3
   let s : State := at' [(F.PWR_DOM_ON, 0x1F)]
   (s.quiet = true) ∧ (s.domOn (clusterDomain c.val) = false)) ∧
  (let c : Fin 16 := 3
   let s : State := live
   (s.quiet = true) ∧ (s.stopped = true ∨ s.sliceHalted (c.val / 4) = true ∨ s.sliceOn (c.val / 4) = false ∨ s.nextTask c.val = none)) ∧
  (let s : State := live
   (s.quiet = true) ∧ (s.domOn 5 = false ∨ s.hts.clmapPend = none)) ∧
  (let id : Nat := 9
   let s : State := live
   (s.quiet = true) ∧ (s.domOn 5 = false ∨ s.hts.tasks.find? (fun j => j.id == id) = none)) ∧
  (let c : Fin 16 := 2
   let pick : Nat := 1
   let t : Nat := 65
   let un : Nat := 8
   let k : Task := { id := 4, tag := 2, atomic := true, pkt := some { bytes := [9] }, mask := 1 }
   let s : State := State.setThread (State.setThread { at' [(F.YCU_GEN_GEN 8, 3), (F.HTS_CLMAP_C 0, 0x20)] with hts := { tasks := [{ id := 4, tag := 2, atomic := true, pkt := some { bytes := [9] }, mask := 1 }] } } 64 { st := .idle }) 65 { st := .idle }
   (s.quiet = true) ∧ (s.stopped = false) ∧ (s.sliceHalted (c.val / 4) = false) ∧ (s.sliceOn (c.val / 4) = true) ∧ (s.nextTask c.val = some k) ∧ (s.chooseUnit c.val k.tag = some un) ∧ (pick < (s.idleThreads un).length) ∧ ((s.idleThreads un).getD pick 0 = t)) ∧
  (let c : Fin 16 := 15
   let p : Place := { task := 3, cluster := 15, done := true }
   let s : State := { live with hts := { places := [{ task := 3, cluster := 15, done := true }] } }
   (s.running (clusterDomain c.val) = true) ∧ (releasable c.val s.hts.places [] = some p) ∧ ((∀ q ∈ s.hts.places, q.cluster = c.val → q.parked = false)) ∧ (p.cluster = c.val) ∧ (p.out = none)) := by
  refine ⟨?_, ?_, ?_, ?_, ?_, ?_, ?_⟩ <;> decide +kernel

theorem wit_SchedulerCommands_2 :
  (let c : Fin 16 := 15
   let p : Place := { task := 3, cluster := 15, done := true }
   let s : State := { live with hts := { places := [{ task := 3, cluster := 15, done := true }] } }
   (s.running (clusterDomain c.val) = true) ∧ (releasable c.val s.hts.places [] = some p) ∧ ((∀ q ∈ s.hts.places, q.cluster = c.val → q.parked = false)) ∧ (p.cluster = c.val) ∧ (let u : State := { s with hts := { s.hts with places := s.hts.places.filter (fun q => q.task != p.task) } }
   ((u.bump F.HTS_CNT2_LOST 1).countsOnly (353 + 4 * (c.val / 4)) = true))) ∧
  (let c : Fin 16 := 15
   let p : Place := { task := 3, cluster := 15, done := true, out := some { kind := 6, target := 7 } }
   let s : State := { live with hts := { places := [{ task := 3, cluster := 15, done := true, out := some { kind := 6, target := 7 } }] } }
   (s.running (clusterDomain c.val) = true) ∧ (releasable c.val s.hts.places [] = some p) ∧ ((∀ q ∈ s.hts.places, q.cluster = c.val → q.parked = false)) ∧ (p.cluster = c.val) ∧ (let it : EgItem := { kind := 6, target := 7 }
   (p.out = some it) ∧ (it.kind = 6))) ∧
  (let who : Fin 4 := 0
   let s : State := live
   (s.takes who.val 5 = true)) ∧
  (let j : Nat := 15
   let v : Nat := 3
   let s : State := { live with hts := { clmapPend := some [(15, 3)] } }
   (s.running 5 = true) ∧ (s.hts.clmapPend = some [(j, v)]) ∧ (s.hts.places = []) ∧ (s.hts.locks = [])) ∧
  (let j : Nat := 15
   let v : Nat := 3
   let s : State := { live with hts := { clmapPend := some [(15, 3)], locks := [(0, 0, 0)] } }
   (s.running 5 = true) ∧ (s.hts.clmapPend = some [(j, v)]) ∧ (s.hts.places ≠ [] ∨ s.hts.locks ≠ [])) ∧
  (let who : Fin 4 := 0
   let s : State := { live with hts := { tasks := [{ region := 3 }, { id := 1, region := 3, ordered := true, pin := some 5 }, { id := 2, region := 1 }], places := [{ task := 1 }] } }
   (s.takes who.val 5 = true)) ∧
  (let id : Nat := 2
   let k : Task := { id := 2, region := 3 }
   let s : State := { at' [(F.HTS_STARVE_US, 5)] with hts := { tasks := [{ id := 2, region := 3 }] } }
   (s.running 5 = true) ∧ (s.hts.tasks.find? (fun j => j.id == id) = some k) ∧ (k.await1 = false) ∧ (k.await2 = false) ∧ (k.starved = false) ∧ (s.get F.HTS_STARVE_US ≠ 0) ∧ (k.region < 4) ∧ (let u : State := { s.until (k.since + 1000 * s.get F.HTS_STARVE_US) with hts := { s.hts with tasks := s.hts.tasks.map (fun j => if j.id == id then { j with starved := true } else j) } }
   (u.countsOnly (354 + 4 * k.region) = true))) := by
  refine ⟨?_, ?_, ?_, ?_, ?_, ?_, ?_⟩ <;> decide +kernel

theorem wit_SchedulerCommands_3 :
  (let who : Fin 4 := 0
   let k : Fin 6 := 5
   let v : Word := 0x01010101
   let s : State := live
   (s.takes who.val 5 = true) ∧ (let xoff := max 1 (fldOf v (F.HTS_EG_BP_XOFF k.val))
   let xon := min (fldOf v (F.HTS_EG_BP_XON k.val)) xoff
   let lvl := s.get (F.HTS_EG_LVL_PKTS k.val)
   let on := s.on (F.HTS_EG_BP_ON k.val)
   (on = false ∧ lvl < 256 * xoff ∨ on = true ∧ 256 * xon < lvl))) ∧
  (let who : Fin 4 := 0
   let k : Fin 6 := 5
   let v : Word := 0x01010101
   let s : State := at' [(F.HTS_EG_BP_ON 5, 1), (F.HTS_EG_LVL_PKTS 5, 256)]
   (s.takes who.val 5 = true) ∧ (let xoff := max 1 (fldOf v (F.HTS_EG_BP_XOFF k.val))
   let xon := min (fldOf v (F.HTS_EG_BP_XON k.val)) xoff
   let lvl := s.get (F.HTS_EG_LVL_PKTS k.val)
   let on := s.on (F.HTS_EG_BP_ON k.val)
   (on = true) ∧ (lvl ≤ 256 * xon))) ∧
  (let who : Fin 4 := 0
   let k : Fin 6 := 5
   let v : Word := 0x01010101
   let s : State := at' [(F.HTS_EG_LVL_PKTS 5, 256)]
   (s.takes who.val 5 = true) ∧ (let u := (((s.put (F.HTS_EG_BP_XOFF k.val) (fldOf v (F.HTS_EG_BP_XOFF k.val))).put (F.HTS_EG_BP_XON k.val) (fldOf v (F.HTS_EG_BP_XON k.val))).put (F.HTS_EG_BP_MAX k.val) (fldOf v (F.HTS_EG_BP_MAX k.val))).put (F.HTS_EG_BP_SRC k.val) (fldOf v (F.HTS_EG_BP_SRC k.val))
   let xoff := max 1 (fldOf v (F.HTS_EG_BP_XOFF k.val))
   let lvl := s.get (F.HTS_EG_LVL_PKTS k.val)
   let on := s.on (F.HTS_EG_BP_ON k.val)
   let last := tabGet (fun _ => 0) s.flt.last 371
   (on = false) ∧ (256 * xoff ≤ lvl) ∧ ((last = 0 ∨ last - 1 + 1000000000 ≤ s.now)) ∧ (let w : State := { u.put (F.HTS_EG_BP_ON k.val) 1 with flt := { s.flt with last := tabSet (fun _ => 0) s.flt.last 371 (s.now + 1) } }
   (w.countsOnly 371 = true)))) ∧
  (let who : Fin 4 := 0
   let k : Fin 6 := 5
   let v : Word := 0x01010101
   let s : State := { at' [(F.HTS_EG_LVL_PKTS 5, 256)] with flt := { last := [(371, 7)] } }
   (s.takes who.val 5 = true) ∧ (let xoff := max 1 (fldOf v (F.HTS_EG_BP_XOFF k.val))
   let lvl := s.get (F.HTS_EG_LVL_PKTS k.val)
   let on := s.on (F.HTS_EG_BP_ON k.val)
   let last := tabGet (fun _ => 0) s.flt.last 371
   (on = false) ∧ (256 * xoff ≤ lvl) ∧ (last ≠ 0) ∧ (s.now < last - 1 + 1000000000))) := by
  refine ⟨?_, ?_, ?_, ?_⟩ <;> decide +kernel

theorem wit_ThreadsAndSequencers :
  (let who : Fin 4 := 0
   let un : Fin 64 := 63
   let n : Fin 8 := 7
   let v : Word := 0x80
   let s : State := State.setThread (at' [(F.YCU_GEN_GEN 63, 5)]) 511 { st := .halt }
   (s.takes who.val 5 = true) ∧ (s.stopped = false) ∧ (v.toNat % 256 = 2 ^ n.val) ∧ ((s.thread (8 * un.val + n.val)).st = .halt)) ∧
  (let who : Fin 4 := 0
   let c : Fin 16 := 15
   let v : Word := 0x8000
   let s : State := at' [(F.YCU_CL_FENCE_FENCED, 0x8000)]
   (s.takes who.val 5 = true) ∧ (s.stopped = false) ∧ (v.toNat = 2 ^ c.val) ∧ (s.fbit F.YCU_CL_FENCE_FENCED c.val = true) ∧ ((∀ n, 384 + 4 * c.val ≤ n → n < 388 + 4 * c.val → s.level n = 0)) ∧ ((∀ t, 32 * c.val ≤ t → t < 32 * c.val + 32 → (s.thread t).st ≠ .halt)) ∧ (s.hts.places = [])) ∧
  (let who : Fin 4 := 0
   let n : Fin 4 := 3
   let s : State := at' [(F.YCU_GEN_GEN 67, 2)]
   (s.takes who.val (if n.val < 3 then 11 else 5) = true) ∧ (n.val < s.seqs.length) ∧ (s.level 63 = 0) ∧ ((∀ k, 32 + 8 * n.val ≤ k → k < 39 + 8 * n.val → s.level k = 0)) ∧ (s.get (F.YCU_GEN_GEN (64 + n.val)) ≠ 0xFFFFFFFF) ∧ (s.on (F.SQ_CTL_EN n.val) = false)) ∧
  (let who : Fin 4 := 0
   let n : Fin 4 := 3
   let s : State := at' [(F.SQ_CTL_EN 3, 1)]
   (s.takes who.val (if n.val < 3 then 11 else 5) = true) ∧ (n.val < s.seqs.length) ∧ (s.on (F.SQ_CTL_EN n.val) = true) ∧ (s.on (F.SQ_CTL_HALTED n.val) = false) ∧ (n.val < s.air.sq.length) ∧ (s.husk n.val 0 = none) ∧ (s.husk n.val 1 = none) ∧ ((s.sqa n.val).window = [])) := by
  refine ⟨?_, ?_, ?_, ?_⟩ <;> decide +kernel

theorem wit_ProgramLoads :
  (let who : Fin 4 := 0
   let s : State := { live with yal := { load := some {} } }
   (s.takes who.val 5 = true) ∧ (s.yal.load ≠ none)) ∧
  (let who : Fin 4 := 0
   let s : State := { live with ctl := { boot := none, entry := some { target := 5 } } }
   (s.takes who.val 5 = true) ∧ (s.yal.load = none) ∧ (s.transiting = true)) ∧
  (let who : Fin 4 := 0
   let v : Word := 0x50000
   let s : State := at' [(F.YCU_LOAD_UNITS_UNIT, 0x100), (F.YCU_LOAD_SRC_ADDR, 0x1000)]
   (s.takes who.val 5 = true) ∧ (let src := s.get F.YCU_LOAD_SRC_ADDR / 32 * 32
   let units := onesOf (s.get F.YCU_LOAD_UNITS_UNIT) 64
   let seqs := onesOf (fldOf v F.YCU_LOAD_CTL_SEQ) 4
   (s.yal.load = none) ∧ (s.transiting = false) ∧ (s.imageCheck src units seqs = .header))) ∧
  (let who : Fin 4 := 0
   let v : Word := 0x50000
   let s : State := State.gmAt (State.gmAt (at' [(F.YCU_LOAD_UNITS_UNIT, 0x100), (F.YCU_LOAD_SRC_ADDR, 0x1000)]) 0x1000 image) 0x1014 [0]
   (s.takes who.val 5 = true) ∧ (let src := s.get F.YCU_LOAD_SRC_ADDR / 32 * 32
   let units := onesOf (s.get F.YCU_LOAD_UNITS_UNIT) 64
   let seqs := onesOf (fldOf v F.YCU_LOAD_CTL_SEQ) 4
   (s.yal.load = none) ∧ (s.transiting = false) ∧ (s.imageCheck src units seqs = .crc))) ∧
  (let who : Fin 4 := 0
   let v : Word := 0x50000
   let m : Fin 2 := 0
   let s : State := State.gmAt (State.thr (at' [(F.YCU_LOAD_UNITS_UNIT, 0x313), (F.YCU_LOAD_SRC_ADDR, 0x1000)]) { st := .halt } []) 0x1000 image
   (s.takes who.val 5 = true) ∧ (let src := s.get F.YCU_LOAD_SRC_ADDR / 32 * 32
   let units := onesOf (s.get F.YCU_LOAD_UNITS_UNIT) 64
   let seqs := onesOf (fldOf v F.YCU_LOAD_CTL_SEQ) 4
   let first := if m = 1 then units else units.filter (fun n => n % 4 == 0)
   let go := first.filter (fun n => !s.unitBarred n)
   (s.yal.load = none) ∧ (s.transiting = false) ∧ (s.imageCheck src units seqs = .good) ∧ (seqs = []) ∧ (go ≠ []))) ∧
  (let who : Fin 4 := 0
   let v : Word := 0x100A0
   let s : State := State.gmAt (at' [(F.YCU_LOAD_SRC_ADDR, 0x1000)]) 0x1000 (natLe 0x4F564C59 4 ++ natLe 1 4 ++ natLe 7 4 ++ natLe 4 4 ++ natLe 0 4 ++ natLe 0x2144df1c 4 ++ natLe 0 8 ++ natLe 0 4)
   (s.takes who.val 5 = true) ∧ (let src := s.get F.YCU_LOAD_SRC_ADDR / 32 * 32
   let units := onesOf (s.get F.YCU_LOAD_UNITS_UNIT) 64
   let seqs := onesOf (fldOf v F.YCU_LOAD_CTL_SEQ) 4
   (s.yal.load = none) ∧ (s.transiting = false) ∧ (s.imageCheck src units seqs = .good) ∧ (seqs ≠ []) ∧ ((∀ n ∈ seqs, s.on (F.SQ_CTL_EN n) = false ∨ s.on (F.SQ_CTL_HALTED n) = true)))) ∧
  (let un : Fin 64 := 63
   let l : Load := { draining := [63] }
   let s : State := { live with yal := { load := some { draining := [63] } } }
   (s.quiet = true) ∧ (s.yal.load = some l) ∧ (un.val ∈ l.draining) ∧ (s.unitQuiet un.val = true) ∧ (s.unitBarred un.val = false) ∧ (l.barrier = false)) := by
  refine ⟨?_, ?_, ?_, ?_, ?_, ?_, ?_⟩ <;> decide +kernel

theorem wit_ProgramLoads_2 :
  (let un : Fin 64 := 63
   let l : Load := { barrier := true, draining := [63, 2] }
   let s : State := { live with yal := { load := some { barrier := true, draining := [63, 2] } } }
   (s.quiet = true) ∧ (s.yal.load = some l) ∧ (un.val ∈ l.draining) ∧ (s.unitQuiet un.val = true) ∧ (let rest := l.draining.filter (· != un.val)
   (s.unitBarred un.val = false) ∧ (l.barrier = true) ∧ (rest ≠ []))) ∧
  (let un : Fin 64 := 63
   let l : Load := { barrier := true, draining := [63], ready := [2] }
   let s : State := { live with yal := { load := some { barrier := true, draining := [63], ready := [2] } } }
   (s.quiet = true) ∧ (s.yal.load = some l) ∧ (un.val ∈ l.draining) ∧ (s.unitQuiet un.val = true) ∧ (let rest := l.draining.filter (· != un.val)
   (s.unitBarred un.val = false) ∧ (l.barrier = true) ∧ (rest = []) ∧ (l.copying = []) ∧ (l.waiting = false))) ∧
  (let un : Fin 64 := 63
   let l : Load := { draining := [63, 2] }
   let s : State := { (at' [(F.YCU_CL_FENCE_FENCED, 0x8000)]) with yal := { load := some { draining := [63, 2] } } }
   (s.quiet = true) ∧ (s.yal.load = some l) ∧ (un.val ∈ l.draining) ∧ (s.unitQuiet un.val = true) ∧ (let rest := l.draining.filter (· != un.val)
   (s.unitBarred un.val = true) ∧ (rest ≠ []))) ∧
  (let l : Load := { deadline := 2000000000 }
   let s : State := { live with yal := { load := some { deadline := 2000000000 } } }
   (s.quiet = true) ∧ (s.yal.load = some l) ∧ (l.deadline ≠ 0) ∧ (l.waiting = false) ∧ (l.draining = [])) ∧
  (let l : Load := { draining := [5, 6], copying := [4], deadline := 2000000000 }
   let s : State := { live with yal := { load := some { draining := [5, 6], copying := [4], deadline := 2000000000 } } }
   (s.quiet = true) ∧ (s.yal.load = some l) ∧ (l.deadline ≠ 0) ∧ (l.waiting = false) ∧ (l.draining ≠ []) ∧ (l.copying ≠ [])) ∧
  (let l : Load := { draining := [5, 6], ready := [4], deadline := 2000000000, barrier := true }
   let s : State := { live with yal := { load := some { draining := [5, 6], ready := [4], deadline := 2000000000, barrier := true } } }
   (s.quiet = true) ∧ (s.yal.load = some l) ∧ (l.deadline ≠ 0) ∧ (l.waiting = false) ∧ (l.draining ≠ []) ∧ (l.copying = []) ∧ (l.ready ≠ [])) ∧
  (let l : Load := { draining := [5, 6], deadline := 2000000000 }
   let s : State := { live with yal := { load := some { draining := [5, 6], deadline := 2000000000 } } }
   (s.quiet = true) ∧ (s.yal.load = some l) ∧ (l.deadline ≠ 0) ∧ (l.waiting = false) ∧ (l.draining ≠ []) ∧ (l.copying = []) ∧ (l.ready = []) ∧ (l.units = []) ∧ (s.ctl.slot = none) ∧ (s.ctl.trimLate = false) ∧ (s.on F.DMC_CTL_FCHG = false) ∧ (s.on F.DMC_CTL_TRAIN = false)) := by
  refine ⟨?_, ?_, ?_, ?_, ?_, ?_, ?_⟩ <;> decide +kernel

theorem wit_ProgramLoads_3 :
  (let x : Fin 68 := 63
   let l : Load := { copying := [63, 62], src := 0x1000 }
   let s : State := State.gmAt { live with yal := { load := some { copying := [63, 62], src := 0x1000 } } } 0x1000 image
   (s.quiet = true) ∧ (s.yal.load = some l) ∧ (x.val ∈ l.copying) ∧ (l.waiting = false) ∧ (let rest := l.copying.filter (· != x.val)
   (rest ≠ []))) ∧
  (let x : Fin 68 := 63
   let l : Load := { copying := [63], src := 0x1000 }
   let s : State := State.gmAt { live with yal := { load := some { copying := [63], src := 0x1000 } } } 0x1000 image
   (s.quiet = true) ∧ (s.yal.load = some l) ∧ (x.val ∈ l.copying) ∧ (l.waiting = false) ∧ (let rest := l.copying.filter (· != x.val)
   (rest = []) ∧ (l.draining = []) ∧ (l.ready = []) ∧ (l.units = []) ∧ (s.ctl.slot = none) ∧ (s.ctl.trimLate = false) ∧ (s.on F.DMC_CTL_FCHG = false) ∧ (s.on F.DMC_CTL_TRAIN = false))) ∧
  (let x : Fin 68 := 63
   let l : Load := { copying := [63, 62], src := 0x1000 }
   let s : State := State.gmAt { live with yal := { load := some { copying := [63, 62], src := 0x1000 } } } 0x1000 image
   (s.quiet = true) ∧ (s.yal.load = some l) ∧ (x.val ∈ l.copying) ∧ (l.waiting = false) ∧ (let rest := l.copying.filter (· != x.val)
   (rest ≠ []) ∧ (x.val < 64) ∧ (s.countsOnly (386 + 4 * (x.val / 4)) = true))) ∧
  (let x : Fin 68 := 66
   let l : Load := { copying := [66, 67], src := 0x1000 }
   let s : State := State.gmAt { live with yal := { load := some { copying := [66, 67], src := 0x1000 } } } 0x1000 image
   (s.quiet = true) ∧ (s.yal.load = some l) ∧ (x.val ∈ l.copying) ∧ (l.waiting = false) ∧ (let rest := l.copying.filter (· != x.val)
   (rest ≠ []) ∧ (64 ≤ x.val))) := by
  refine ⟨?_, ?_, ?_, ?_⟩ <;> decide +kernel

theorem wit_SequencerWaits :
  (let q : Fin 4 := 2
   let i : Issue := iS 2
   let sd : BitVec 5 := 1
   let sa : BitVec 5 := 2
   let sb : BitVec 5 := 3
   let d : Fin 4 := 3
   let s : State := State.sqr live 2 []
   (i.who = .seq q) ∧ (Issues s i .s [sd, sa, sb]) ∧ (s.locked d.val = false)) ∧
  (let q : Fin 4 := 2
   let i : Issue := iS 2
   let sd : BitVec 5 := 1
   let sa : BitVec 5 := 2
   let sb : BitVec 5 := 3
   let d : Fin 4 := 3
   let s : State := State.sqr (at' [(F.PHS_PD_STAT_STATE 3, 2)]) 2 [(2, 0xFFFFFFF6), (3, 5)]
   (i.who = .seq q) ∧ (Issues s i .s [sd, sa, sb]) ∧ (let phi := (s.val i sa).toNat % 2 ^ 32
   let guard := (s.val i sb).toNat
   (s.locked d.val = true) ∧ ((guard : Int) ≤ signed 32 (s.phaseNow d.val + 2 ^ 32 - phi)))) ∧
  (let q : Fin 4 := 2
   let i : Issue := iS 2
   let sd : BitVec 5 := 1
   let sa : BitVec 5 := 2
   let sb : BitVec 5 := 3
   let d : Fin 4 := 3
   let s : State := State.sqr { at' [(F.PHS_PD_STAT_STATE 3, 2)] with phs := [{}, {}, {}, { refT := 1000000000, w := 0x200000000 }] } 2 [(2, 0x100), (3, 0)]
   (i.who = .seq q) ∧ (Issues s i .s [sd, sa, sb]) ∧ (let phi := (s.val i sa).toNat % 2 ^ 32
   let guard := (s.val i sb).toNat
   let t : Int := 1008388608
   (s.locked d.val = true) ∧ (signed 32 (s.phaseNow d.val + 2 ^ 32 - phi) < (guard : Int)) ∧ (s.predict d.val phi = some t) ∧ ((s.now : Int) < t))) ∧
  (let n : Fin 4 := 2
   let sd : Nat := 1
   let phi : Nat := 0x80
   let guard : Nat := 65535
   let d : Nat := 3
   let t : Int := 1004194304
   let s : State := State.setSeq { at' [] with phs := [{}, {}, {}, { refT := 1000000000, w := 0x200000000 }] } 2 { wait := some (.phase 1 0x80 65535 3) }
   (s.quiet = true) ∧ ((s.seq n.val).wait = some (.phase sd phi guard d)) ∧ (s.predict d phi = some t) ∧ ((s.until t.toNat).errBound d ≤ guard)) ∧
  (let q : Fin 4 := 2
   let i : Issue := iS 2
   let sd : BitVec 5 := 1
   let sa : BitVec 5 := 2
   let base : Fin 5 := 0
   let s : State := State.sqr live 2 [(2, 1000000000)]
   (i.who = .seq q) ∧ (Issues s i .s [sd, sa]) ∧ ((base = 1 → s.on F.TIME_TBN_CTL_LOCKED = true)) ∧ (let v := (s.val i sa).toNat
   let b := if base = 0 then s.now else if base = 1 then s.tbn / 2 ^ 32 else s.tsf (base.val - 2)
   (v = b))) ∧
  (let q : Fin 4 := 2
   let i : Issue := iS 2
   let sd : BitVec 5 := 1
   let sa : BitVec 5 := 2
   let base : Fin 5 := 2
   let s : State := State.sqr live 2 [(2, 5)]
   (i.who = .seq q) ∧ (Issues s i .s [sd, sa]) ∧ ((base = 1 → s.on F.TIME_TBN_CTL_LOCKED = true)) ∧ (let v := (s.val i sa).toNat
   let b := if base = 0 then s.now else if base = 1 then s.tbn / 2 ^ 32 else s.tsf (base.val - 2)
   (v < b))) ∧
  (let q : Fin 4 := 2
   let i : Issue := iS 2
   let sd : BitVec 5 := 1
   let sa : BitVec 5 := 2
   let base : Fin 5 := 0
   let s : State := State.sqr live 2 [(2, 1000000001)]
   (i.who = .seq q) ∧ (Issues s i .s [sd, sa]) ∧ ((base = 1 → s.on F.TIME_TBN_CTL_LOCKED = true)) ∧ (let v := (s.val i sa).toNat
   let b := if base = 0 then s.now else if base = 1 then s.tbn / 2 ^ 32 else s.tsf (base.val - 2)
   (b < v))) := by
  delta Issues; refine ⟨?_, ?_, ?_, ?_, ?_, ?_, ?_⟩ <;> decide +kernel

theorem wit_SequencerWaits_2 :
  (let n : Fin 4 := 2
   let sd : Nat := 1
   let v : Nat := 1000000001
   let s : State := State.setSeq live 2 { wait := some (.time 1 0 1000000001) }
   (s.quiet = true) ∧ ((s.seq n.val).wait = some (.time sd 0 v))) ∧
  (let i : Issue := iS 3
   let sd : BitVec 5 := 1
   let sa : BitVec 5 := 2
   let sb : BitVec 5 := 3
   let rate : Fin 4 := 2
   let s : State := State.sqr live 3 [(2, 3), (3, 10)]
   (i.who = .seq 3) ∧ (Issues s i .s [sd, sa, sb]) ∧ (rate.val < 3) ∧ ((s.val i sb).toNat ≠ 0)) ∧
  (let sd : Nat := 1
   let a : Nat := 5
   let e : Nat := 1000000500
   let ch : Nat := 3
   let rate : Nat := 1
   let rep : Nat := 0
   let s : State := State.setSeq live 3 { wait := some (.listen 1 5 1000000500 3 1 0) }
   (s.quiet = true) ∧ ((s.seq 3).wait = some (.listen sd a e ch rate rep))) ∧
  (let n : Nat := 3
   let sd : Nat := 1
   let s : State := live
   (n < s.seqs.length) ∧ (sd ≠ 0)) ∧
  (let n : Nat := 3
   let s : State := live
   (n < s.seqs.length)) := by
  delta Issues; refine ⟨?_, ?_, ?_, ?_, ?_⟩ <;> decide +kernel

theorem wit_SequencerSelection :
  (let q : Fin 4 := 2
   let i : Issue := iS 2
   let sd : BitVec 5 := 1
   let sa : BitVec 5 := 2
   let sb : BitVec 5 := 3
   let s : State := State.sqr (State.gmAt (at' [(F.MX_LINK_BASE_ADDR 2, 0x40000)]) 0x40060 [1]) 2 [(2, 0x1003)]
   (i.who = .seq q) ∧ (Issues s i .s [sd, sa, sb]) ∧ (q ≠ 3) ∧ (let h := (s.val i sa).toNat
   let st := h % 2048
   let l := h / 2048
   (h < 8192) ∧ (l < 3) ∧ (s.linkPresent l st = true) ∧ (s.staTableOk = true) ∧ (s.on F.SQA_BIN_CFG_VALID = false))) ∧
  (let q : Fin 4 := 2
   let i : Issue := iS 2
   let sd : BitVec 5 := 1
   let sa : BitVec 5 := 2
   let s : State := State.sqr { State.gmAt (State.gmAt (at' [(F.MX_LINK_BASE_ADDR 2, 0x40000)]) 0x40060 [1]) 0x60 [0x20] with sd := [(0x8000, 1), (0x8002, 3)] } 2 [(2, 0)]
   (i.who = .seq q) ∧ (Issues s i .s [sd, sa]) ∧ (q ≠ 3) ∧ (q.val < s.air.sq.length) ∧ (let n := q.val
   let a := (s.val i sa).toNat
   let x := memNat s.sd (0x4000 * n + a + 2) 2
   (a + 8 ≤ 0x4000) ∧ (memNat s.sd (0x4000 * n + a) 2 = 1) ∧ (s.verdict n [] x = .yes) ∧ ((s.sqa n).window = []) ∧ ((s.sqa n).granted.contains x = false) ∧ ((s.sqa n).granted.length < 512) ∧ (s.get (F.SQ_CYC_STAT_WINDOWS n) < 64))) ∧
  (let i : Issue := iS 3
   let sd : BitVec 5 := 1
   let s : State := State.sqr (State.setSqa live 3 { window := [5] }) 3 []
   (i.who = .seq 3) ∧ (Issues s i .s [sd]) ∧ ((s.sqa 3).window ≠ [])) ∧
  (let q : Fin 4 := 1
   let i : Issue := iS 1
   let sd : BitVec 5 := 1
   let s : State := State.sqr live 1 []
   (i.who = .seq q) ∧ (Issues s i .s [sd]) ∧ ((s.sqa q.val).window = [])) ∧
  (let i : Issue := iS 3
   let sd : BitVec 5 := 1
   let sa : BitVec 5 := 2
   let s : State := State.sqr live 3 []
   (i.who = .seq 3) ∧ (Issues s i .s [sd, sa])) := by
  delta Issues; refine ⟨?_, ?_, ?_, ?_, ?_⟩ <;> decide +kernel

theorem wit_HuskBuild :
  (let q : Fin 4 := 2
   let i : Issue := iS 2
   let sd : BitVec 5 := 1
   let sa : BitVec 5 := 2
   let slot : Fin 2 := 1
   let st : Nat := 3
   let t : Nat := 0
   let it : EgItem := { kind := 4, target := 3, pkt := { bytes := List.replicate 20 1, stamp := 1000000000 } }
   let s : State := State.sqr (State.setSqa { State.gmAt (State.gmAt (at' [(F.MX_LINK_BASE_ADDR 2, 0x40000), (F.SQA_BIN_CFG_VALID, 1), (F.SQA_BIN_BASE_ADDR, 0x100000)]) 0x40060 [1]) 0x40072 [1] with hts := { egress := [{ kind := 4, target := 3, pkt := { bytes := List.replicate 20 1, stamp := 1000000000 } }] } } 2 { window := [3] }) 2 [(2, 5484)]
   (i.who = .seq q) ∧ (Issues s i .s [sd, sa]) ∧ (q ≠ 3) ∧ (q.val < s.air.sq.length) ∧ (let n := q.val
   (s.husk n slot.val = none) ∧ ((s.sqa n).window = [st]) ∧ (1 ≤ (s.val i sa).toNat) ∧ ((s.val i sa).toNat ≤ 5484) ∧ (s.on F.SQA_BIN_CFG_VALID = true) ∧ (s.binStoreOk = true) ∧ (s.staTableOk = true) ∧ (s.linkKey n st = none) ∧ (s.tidsOf n st = [t]) ∧ (s.hts.egress = [it]) ∧ (it.kind = 4) ∧ (it.target = st) ∧ (it.tc = t) ∧ (s.tooOld it = false) ∧ (s.linkDoze n st = false) ∧ (let x := s.snSpace (s.snKey n st t)
   (x.retry = []) ∧ ((x.next + 4096 - x.oldest) % 4096 < s.txWindow st t)))) ∧
  (let q : Fin 4 := 2
   let i : Issue := iS 2
   let sd : BitVec 5 := 1
   let sa : BitVec 5 := 2
   let slot : Fin 2 := 1
   let st : Nat := 3
   let s : State := State.sqr (State.setSqa (State.gmAt (at' [(F.MX_LINK_BASE_ADDR 2, 0x40000), (F.SQA_BIN_CFG_VALID, 1), (F.SQA_BIN_BASE_ADDR, 0x100000)]) 0x40060 [1]) 2 { window := [3] }) 2 [(2, 1)]
   (i.who = .seq q) ∧ (Issues s i .s [sd, sa]) ∧ (q ≠ 3) ∧ (q.val < s.air.sq.length) ∧ (let n := q.val
   (s.husk n slot.val = none) ∧ ((s.sqa n).window = [st]) ∧ (1 ≤ (s.val i sa).toNat) ∧ ((s.val i sa).toNat ≤ 5484) ∧ (s.on F.SQA_BIN_CFG_VALID = true) ∧ (s.binStoreOk = true) ∧ (s.staTableOk = true) ∧ (s.tidsOf n st = []))) ∧
  (let q : Fin 4 := 2
   let i : Issue := iS 2
   let sd : BitVec 5 := 1
   let sa : BitVec 5 := 2
   let slot : Fin 2 := 1
   let st : Nat := 3
   let s : State := State.sqr (State.setSqa (State.gmAt (at' [(F.MX_LINK_BASE_ADDR 2, 0x40000), (F.SQA_BIN_CFG_VALID, 1), (F.SQA_BIN_BASE_ADDR, 0x100000)]) 0x40060 [1]) 2 { window := [3] }) 2 [(2, 1)]
   (i.who = .seq q) ∧ (Issues s i .s [sd, sa]) ∧ (q ≠ 3) ∧ (q.val < s.air.sq.length) ∧ (let n := q.val
   (s.husk n slot.val = none) ∧ ((s.sqa n).window = [st]) ∧ (1 ≤ (s.val i sa).toNat) ∧ ((s.val i sa).toNat ≤ 5484) ∧ (s.on F.SQA_BIN_CFG_VALID = true) ∧ (s.binStoreOk = true) ∧ (s.staTableOk = true))) ∧
  (let i : Issue := iS 3
   let sd : BitVec 5 := 1
   let sa : BitVec 5 := 2
   let slot : Fin 2 := 1
   let node : Nat := 7
   let s : State := State.sqr (State.setSqa { at' [] with cip := { keys := [(0, ⟨true, 0, 8, 0, 1, 5⟩)] } } 3 { window := [7] }) 3 [(2, 100)]
   (i.who = .seq 3) ∧ (Issues s i .s [sd, sa]) ∧ (3 < s.air.sq.length) ∧ (s.husk 3 slot.val = none) ∧ ((s.sqa 3).window = [node]) ∧ (1 ≤ (s.val i sa).toNat) ∧ ((s.val i sa).toNat ≤ 5484) ∧ (s.nodeKind node ≠ 2) ∧ (s.nodeNat node 0x20 4 < 0xFFFFFFFF) ∧ (s.slotRefusal 6 (s.nodeNat node 8 2 % 8192) usePip = none)) := by
  delta Issues; refine ⟨?_, ?_, ?_, ?_⟩ <;> decide +kernel

theorem wit_HuskInstructions :
  (let q : Fin 4 := 2
   let i : Issue := iS 2
   let sd : BitVec 5 := 1
   let sa : BitVec 5 := 2
   let sb : BitVec 5 := 3
   let slot : Fin 2 := 1
   let h : Husk := { stas := [{ sta := 5 }] }
   let s : State := State.sqr (State.setSqa live 2 { husk1 := some { stas := [{ sta := 5 }] } }) 2 [(2, 6)]
   (i.who = .seq q) ∧ (Issues s i .s [sd, sa, sb]) ∧ (s.husk q.val slot.val = some h) ∧ (h.st < 3) ∧ (let n := q.val
   let a := (s.val i sa).toNat
   (n ≠ 3) ∧ (trigType a = true) ∧ (h.trig = none))) ∧
  (let q : Fin 4 := 2
   let i : Issue := iS 2
   let sd : BitVec 5 := 1
   let sa : BitVec 5 := 2
   let sb : BitVec 5 := 3
   let slot : Fin 2 := 1
   let h : Husk := { stas := [{ sta := 5 }] }
   let s : State := State.sqr (State.setSqa live 2 { husk1 := some { stas := [{ sta := 5 }] } }) 2 [(2, 1000000000), (3, 1)]
   (i.who = .seq q) ∧ (Issues s i .s [sd, sa, sb]) ∧ (s.husk q.val slot.val = some h) ∧ (h.st < 3) ∧ (let n := q.val
   let a := (s.val i sa).toNat
   let b := (s.val i sb).toNat
   (s.husk n (1 - slot.val) = none) ∧ (h.pip = none) ∧ (0 < b) ∧ (s.now < a + b))) ∧
  (let q : Fin 4 := 2
   let i : Issue := iS 2
   let sd : BitVec 5 := 1
   let sa : BitVec 5 := 2
   let sb : BitVec 5 := 3
   let slot : Fin 2 := 1
   let s : State := State.sqr live 2 []
   (i.who = .seq q) ∧ (Issues s i .s [sd, sa, sb]) ∧ (s.husk q.val slot.val = none)) ∧
  (let q : Fin 4 := 2
   let i : Issue := iS 2
   let sd : BitVec 5 := 1
   let slot : Fin 2 := 1
   let s : State := State.sqr live 2 []
   (i.who = .seq q) ∧ (Issues s i .s [sd]) ∧ (let n := q.val
   (s.husk n slot.val = none))) ∧
  (let q : Fin 4 := 2
   let i : Issue := iS 2
   let sd : BitVec 5 := 1
   let slot : Fin 2 := 1
   let s : State := State.sqr (State.setSqa live 2 { husk1 := some {} }) 2 []
   (i.who = .seq q) ∧ (Issues s i .s [sd]) ∧ (let n := q.val
   let h : Husk := {}
   (s.husk n slot.val = some h) ∧ (h.st < 3) ∧ (h.mpdus = []) ∧ (s.husk n (1 - slot.val) = none) ∧ (n < s.air.sq.length))) ∧
  (let i : Issue := iS 3
   let sd : BitVec 5 := 1
   let sa : BitVec 5 := 2
   let s : State := State.sqr live 3 []
   (i.who = .seq 3) ∧ (Issues s i .s [sd, sa]) ∧ (s.on F.PIP_BCN_CFG_EN = false)) ∧
  (let i : Issue := iS 3
   let sd : BitVec 5 := 1
   let sa : BitVec 5 := 2
   let s : State := State.sqr { at' [(F.PIP_BCN_CFG_EN, 1), (F.PIP_BCN_KEY_SLOT, 3)] with cip := { keys := [(3, ⟨true, 0, 8, 2, 1, 5⟩)] } } 3 []
   (i.who = .seq 3) ∧ (Issues s i .s [sd, sa]) ∧ (s.on F.PIP_BCN_CFG_EN = true) ∧ (s.val i sa = 0) ∧ (s.air.pip.armed = none) ∧ (s.get F.PIP_BCTR_NEXT < 0xFFFFFFFF) ∧ (s.slotRefusal 6 (s.get F.PIP_BCN_KEY_SLOT) usePip = none)) := by
  delta Issues; refine ⟨?_, ?_, ?_, ?_, ?_, ?_, ?_⟩ <;> decide +kernel

theorem wit_HuskLife :
  (let n : Fin 4 := 2
   let slot : Fin 2 := 1
   let h : Husk := { mpdus := [{}] }
   let s : State := State.setSqa { at' [(F.MX_CTL_EN 2, 1)] with ctl := { boot := none, fronts := [2] } } 2 { husk1 := some { mpdus := [{}] } }
   (s.quiet = true) ∧ (s.husk n.val slot.val = some h) ∧ (let ready := h.st = 1 ∧ h.mpdus.all (fun m => m.done) = true ∧ (h.kind ≠ 3 ∨ h.pip.isSome = true)
   (ready) ∧ (s.radioOk n.val = true))) ∧
  (let n : Fin 4 := 2
   let slot : Fin 2 := 1
   let h : Husk := { mpdus := [{}] }
   let s : State := State.setSqa live 2 { husk1 := some { mpdus := [{}] } }
   (s.quiet = true) ∧ (s.husk n.val slot.val = some h) ∧ (let ready := h.st = 1 ∧ h.mpdus.all (fun m => m.done) = true ∧ (h.kind ≠ 3 ∨ h.pip.isSome = true)
   (ready) ∧ (s.radioOk n.val = false) ∧ (s.husk n.val (1 - slot.val) = none) ∧ (n.val < s.air.sq.length) ∧ ((s.seq n.val).wait = none))) ∧
  (let n : Fin 4 := 2
   let slot : Fin 2 := 1
   let h : Husk := { st := 2 }
   let s : State := State.setSqa live 2 { husk1 := some { st := 2 } }
   (s.quiet = true) ∧ (s.husk n.val slot.val = some h) ∧ (let ready := h.st = 1 ∧ h.mpdus.all (fun m => m.done) = true ∧ (h.kind ≠ 3 ∨ h.pip.isSome = true)
   (¬ ready))) ∧
  (let n : Fin 3 := 2
   let slot : Fin 2 := 1
   let kind : Fin 8 := 0
   let sd : Nat := 1
   let a : Nat := 1000000100
   let b : Nat := 30
   let ie : Nat := 0
   let t0 : Int := 1000000100
   let e : Option Int := some 1000000130
   let h : Husk := { mpdus := [{}] }
   let s : State := State.setSeq (State.setSqa { at' [(F.MX_CTL_EN 2, 1)] with ctl := { boot := none, fronts := [2] } } 2 { husk1 := some { mpdus := [{}] } }) 2 { wait := some (.launch 1 1 0 1000000100 30 0) }
   (s.quiet = true) ∧ (n.val < s.air.sq.length) ∧ (n.val < s.seqs.length) ∧ (s.husk n.val slot.val = some h) ∧ (h.pip = none) ∧ ((s.seq n.val).wait = some (.launch sd slot.val kind.val a b ie)) ∧ (s.launchWindow n.val kind.val a b = some (t0, e)) ∧ (h.st ≠ 2 ∨ s.mayCommit n.val = false)) ∧
  (let n : Fin 3 := 2
   let slot : Fin 2 := 1
   let kind : Fin 8 := 0
   let rx : Nat := 0
   let sd : Nat := 1
   let a : Nat := 1000000100
   let b : Nat := 30
   let ie : Nat := 0
   let t0 : Int := 1000000100
   let e : Option Int := some 1000000130
   let h : Husk := { st := 2, stas := [{ sta := 9 }], mpdus := [{ sta := 9 }] }
   let s : State := State.setSeq (State.setSqa { at' [(F.MX_CTL_EN 2, 1), (F.SQA_STA_BASE_ADDR, 0x100000), (F.MX_LINK_BASE_ADDR 2, 0x40000)] with ctl := { boot := none, fronts := [2] } } 2 { husk1 := some { st := 2, stas := [{ sta := 9 }], mpdus := [{ sta := 9 }] } }) 2 { wait := some (.launch 1 1 0 1000000100 30 0) }
   (s.quiet = true) ∧ (n.val < s.air.sq.length) ∧ (n.val < s.seqs.length) ∧ (s.husk n.val slot.val = some h) ∧ (h.pip = none) ∧ ((s.seq n.val).wait = some (.launch sd slot.val kind.val a b ie)) ∧ (s.launchWindow n.val kind.val a b = some (t0, e)) ∧ (let ahead := ∀ t1 ∈ e, t0 < t1 ∧ (s.now : Int) < t1
   (h.st = 2) ∧ (ahead) ∧ (s.mayCommit n.val = true) ∧ (s.apNstrHold n.val rx = false) ∧ (s.gensMatch h = true))) ∧
  (let n : Fin 3 := 2
   let slot : Fin 2 := 1
   let kind : Fin 8 := 0
   let rx : Nat := 0
   let sd : Nat := 1
   let a : Nat := 1000000100
   let b : Nat := 30
   let ie : Nat := 0
   let t0 : Int := 1000000100
   let e : Option Int := some 1000000130
   let h : Husk := { st := 2, stas := [{ sta := 9 }], mpdus := [{ sta := 9, slot := some 4, gen := 7 }] }
   let s : State := State.setSeq (State.setSqa { at' [(F.MX_CTL_EN 2, 1)] with ctl := { boot := none, fronts := [2] } } 2 { husk1 := some { st := 2, stas := [{ sta := 9 }], mpdus := [{ sta := 9, slot := some 4, gen := 7 }] } }) 2 { wait := some (.launch 1 1 0 1000000100 30 0) }
   (s.quiet = true) ∧ (n.val < s.air.sq.length) ∧ (n.val < s.seqs.length) ∧ (s.husk n.val slot.val = some h) ∧ (h.pip = none) ∧ ((s.seq n.val).wait = some (.launch sd slot.val kind.val a b ie)) ∧ (s.launchWindow n.val kind.val a b = some (t0, e)) ∧ (let ahead := ∀ t1 ∈ e, t0 < t1 ∧ (s.now : Int) < t1
   (h.st = 2) ∧ (ahead) ∧ (s.mayCommit n.val = true) ∧ (s.apNstrHold n.val rx = false) ∧ (s.gensMatch h = false) ∧ (s.husk n.val (1 - slot.val) = none))) ∧
  (let slot : Fin 2 := 1
   let sd : Nat := 1
   let a : Nat := 1000000100
   let b : Nat := 30
   let ie : Nat := 0
   let t0 : Int := 1000000000
   let h : Husk := { st := 2, kind := 3, stas := [{ sta := 77 }], pip := some { node := 77, type := 1, mpdu := [1, 2], slot := 3, gen := (pip [] []).keyGen 3 } }
   let p : PipTx := { node := 77, type := 1, mpdu := [1, 2], slot := 3, gen := (pip [] []).keyGen 3 }
   let s : State := State.setSeq (State.setSqa (pip [(F.PIP_TX_CFG_LBT, 0)] (pipRec 1 1 10 7 12)) 3 { husk1 := some { st := 2, kind := 3, stas := [{ sta := 77 }], pip := some { node := 77, type := 1, mpdu := [1, 2], slot := 3, gen := (pip [] []).keyGen 3 } } }) 3 { wait := some (.launch 1 1 7 1000000100 30 0) }
   (s.quiet = true) ∧ (3 < s.air.sq.length) ∧ (3 < s.seqs.length) ∧ (s.husk 3 slot.val = some h) ∧ (h.pip = some p) ∧ (h.st = 2) ∧ ((s.seq 3).wait = some (.launch sd slot.val 7 a b ie)) ∧ (s.launchWindow 3 7 a b = some (t0, none)) ∧ ((p.anchor ≠ 0 → max t0 p.anchor < p.anchor + 1000000 ∧ s.now < p.anchor + 1000000)) ∧ (s.mayCommit 3 = true) ∧ (s.pipClear = true) ∧ (s.gensMatch h = true)) := by
  refine ⟨?_, ?_, ?_, ?_, ?_, ?_, ?_⟩ <;> decide +kernel

theorem wit_HuskLife_2 :
  (let n : Fin 4 := 2
   let slot : Fin 2 := 1
   let sd : Nat := 1
   let a : Nat := 1000000100
   let b : Nat := 3
   let ie : Nat := 0
   let h : Husk := { st := 2, mpdus := [{}] }
   let s : State := State.setSeq (State.setSqa { at' [(F.MX_CTL_EN 2, 1)] with ctl := { boot := none, fronts := [2] } } 2 { husk1 := some { st := 2, mpdus := [{}] } }) 2 { wait := some (.launch 1 1 0 1000000100 3 0) }
   (s.quiet = true) ∧ (n.val < s.air.sq.length) ∧ (n.val < s.seqs.length) ∧ (s.husk n.val slot.val = some h) ∧ (h.st < 3) ∧ (h.pip = none) ∧ (s.husk n.val (1 - slot.val) = none) ∧ (0 < b) ∧ ((s.seq n.val).wait = some (.launch sd slot.val 0 a b ie))) ∧
  (let n : Fin 3 := 2
   let slot : Fin 2 := 0
   let st : BitVec 11 := 7
   let h : Husk := { st := 3, stas := [{ sta := 7, await := true }, { sta := 8, await := true }], mpdus := [{ sta := 7, sn := 4 }, { sta := 8, sn := 4 }] }
   let s : State := State.setSqa (State.gmAt (at' [(F.HTS_EG_LVL_PKTS 4, 1), (F.MX_LINK_BASE_ADDR 2, 0x40000)]) 0x400E0 [1]) 2 { husk0 := some { st := 3, stas := [{ sta := 7, await := true }, { sta := 8, await := true }], mpdus := [{ sta := 7, sn := 4 }, { sta := 8, sn := 4 }] } }
   (s.quiet = true) ∧ (n.val < s.air.sq.length) ∧ (s.husk n.val slot.val = some h) ∧ (h.st = 3) ∧ (h.stas.any (fun k => k.sta == st.toNat && k.await) = true) ∧ ((s.radio n.val).csw = none) ∧ (h.sounding = false)) ∧
  (let n : Fin 3 := 2
   let slot : Fin 2 := 0
   let st : BitVec 11 := 7
   let m : Mpdu := { sta := 7, sn := 4 }
   let k : HuskSta := { sta := 7, await := true }
   let h : Husk := { st := 3, stas := [{ sta := 7, await := true }], mpdus := [{ sta := 7, sn := 4 }] }
   let s : State := State.setSqa (State.gmAt (at' [(F.HTS_EG_LVL_PKTS 4, 1), (F.MX_LINK_BASE_ADDR 2, 0x40000), (F.SQA_BIN_BASE_ADDR, 0x100000)]) 0x400E0 [1]) 2 { husk0 := some { st := 3, stas := [{ sta := 7, await := true }], mpdus := [{ sta := 7, sn := 4 }] } }
   (s.quiet = true) ∧ (n.val < s.air.sq.length) ∧ (s.husk n.val slot.val = some h) ∧ (h.st = 3) ∧ (h.stas = [k]) ∧ (k.sta = st.toNat) ∧ (k.await = true) ∧ (h.mpdus = [m]) ∧ (m.sta = st.toNat) ∧ (h.sounding = false) ∧ (s.linkPresent n.val st.toNat = true) ∧ (s.tablesApart n.val) ∧ ((s.radio n.val).csw = none) ∧ (s.get (F.HTS_EG_LVL_PKTS 4) ≠ 0)) ∧
  (let n : Fin 3 := 2
   let slot : Fin 2 := 0
   let st : BitVec 11 := 7
   let m : Mpdu := { sta := 7, sn := 4 }
   let k : HuskSta := { sta := 7, await := true }
   let h : Husk := { st := 3, stas := [{ sta := 7, await := true }], mpdus := [{ sta := 7, sn := 4 }] }
   let s : State := State.setSqa (State.gmAt (at' [(F.HTS_EG_LVL_PKTS 4, 1), (F.MX_LINK_BASE_ADDR 2, 0x40000), (F.SQA_BIN_BASE_ADDR, 0x100000)]) 0x400E0 [1]) 2 { husk0 := some { st := 3, stas := [{ sta := 7, await := true }], mpdus := [{ sta := 7, sn := 4 }] } }
   (s.quiet = true) ∧ (n.val < s.air.sq.length) ∧ (s.husk n.val slot.val = some h) ∧ (h.st = 3) ∧ (h.stas = [k]) ∧ (k.sta = st.toNat) ∧ (k.await = true) ∧ (h.mpdus = [m]) ∧ (m.sta = st.toNat) ∧ (h.sounding = false) ∧ (s.linkPresent n.val st.toNat = true) ∧ (s.tablesApart n.val) ∧ ((s.radio n.val).csw = none) ∧ (s.get (F.HTS_EG_LVL_PKTS 4) ≠ 0) ∧ (let space := fun (u : State) => u.snSpace (s.snKey n.val st.toNat m.tid)
   (s.stationKnown st.toNat = true) ∧ (m.tries + 1 < s.get F.SQA_RETRY_LIMIT) ∧ ((space s).retry = []))) ∧
  (let n : Fin 4 := 3
   let slot : Fin 2 := 1
   let h : Husk := { st := 3 }
   let s : State := State.setSqa live 3 { husk1 := some { st := 3 } }
   (s.quiet = true) ∧ (n.val < s.air.sq.length) ∧ (s.husk n.val slot.val = some h) ∧ ((s.radio n.val).csw = none) ∧ (h.st = 3) ∧ (h.stas.all (fun k => !k.await) = true)) ∧
  (let n : Fin 4 := 3
   let slot : Fin 2 := 1
   let h : Husk := { st := 2 }
   let s : State := State.setSqa live 3 { husk1 := some { st := 2 } }
   (s.quiet = true) ∧ (n.val < s.air.sq.length) ∧ (s.husk n.val slot.val = some h) ∧ ((s.radio n.val).csw = none) ∧ (h.st ≠ 3 ∨ h.stas.any (fun k => k.await) = true)) ∧
  (let s : State := { live with air := { emlHold := [8190] } }
   (s.quiet = true)) := by
  refine ⟨?_, ?_, ?_, ?_, ?_, ?_, ?_⟩ <;> decide +kernel

theorem wit_ScheduleTables :
  (let n : Fin 4 := 3
   let s : State := live
   (s.running (if n.val < 3 then 11 else 5) = true) ∧ (n.val < s.air.sq.length) ∧ (let d := s.get (F.SQ_CYCLE_PD n.val)
   let byPhase := s.get (F.SQ_CYCLE_MODE n.val) = 1 ∧ s.locked d = true ∧ (s.sqa n.val).unlk = false
   (¬ byPhase))) ∧
  (let n : Fin 4 := 3
   let s : State := { at' [(F.SQ_CYCLE_MODE 3, 1), (F.SQ_CYCLE_PD 3, 3), (F.PHS_PD_STAT_STATE 3, 2), (F.SQ_CYCLE_DIV 3, 0)] with phs := [{}, {}, {}, { refT := 1000000000, w := 0x200000000 }] }
   (s.running (if n.val < 3 then 11 else 5) = true) ∧ (n.val < s.air.sq.length) ∧ (let d := s.get (F.SQ_CYCLE_PD n.val)
   let step := 65536 / 2 ^ min 14 (s.get (F.SQ_CYCLE_DIV n.val))
   let byPhase := s.get (F.SQ_CYCLE_MODE n.val) = 1 ∧ s.locked d = true ∧ (s.sqa n.val).unlk = false
   let t : Int := 3147483648
   (byPhase) ∧ (s.predict d (((s.phaseNow d / step + 1) * step) % 2 ^ 32) = some t))) ∧
  (let who : Fin 4 := 0
   let s : State := at' [(F.SQA_STA_STAGE_WORD 0, 0x12345678), (F.SQA_STA_STAGE_WORD 7, 0xFFFFFFFF)]
   (s.takes who.val 11 = true) ∧ (s.staTableOk = true)) ∧
  (let who : Fin 4 := 0
   let v : Word := 0x17FF
   let s : State := at' [(F.SQA_BIN_STAGE_BIN, 0x1234567890ABCDEF)]
   (s.takes who.val 11 = true) ∧ (s.binStoreOk = true) ∧ (bits v.toNat 12 11 ≠ 3)) ∧
  (let who : Fin 4 := 0
   let v : Word := 0x1FFF
   let s : State := at' [(F.SQA_BIN_STAGE_BIN, 0x1234567890ABCDEF)]
   (s.takes who.val 11 = true) ∧ (bits v.toNat 12 11 = 3)) ∧
  (let s : State := State.gmAt live 0x20 (natLe 0x8000000000 8)
   (s.running 11 = true) ∧ (s.binStoreOk = true)) ∧
  (let st : BitVec 11 := 5
   let s : State := live
   (s.running 11 = true) ∧ (let c := s.staNat st.toNat 0x14 4
   let n := bits c 17 16
   (n = 3 ∨ s.twtActive st.toNat n = false))) := by
  refine ⟨?_, ?_, ?_, ?_, ?_, ?_, ?_⟩ <;> decide +kernel

theorem wit_ScheduleTables_2 :
  (let st : BitVec 11 := 5
   let s : State := State.setSqa (State.gmAt live 0xB0 [0xA0, 0x86, 1, 0, 50, 0, 6, 0, 1, 0, 0, 0]) 2 { served := [5] }
   (s.running 11 = true) ∧ (let c := s.staNat st.toNat 0x14 4
   let n := bits c 17 16
   let spd := bits c 15 0
   let x := s.until ((s.now : Int) + 1000 * max 0 ((spd : Int) - s.twtDelta st.toNat n)).toNat
   let missed := x.hasWork n st.toNat = true ∧ (s.sqa n).served.contains st.toNat = false
   (n < 3) ∧ (s.twtActive st.toNat n = true) ∧ (¬ missed))) ∧
  (let st : BitVec 11 := 5
   let s : State := { (State.gmAt live 0xB0 [0xA0, 0x86, 1, 0, 50, 0, 6, 0, 1, 0, 0, 0]) with hts := { egress := [{ kind := 4, target := 5 }] } }
   (s.running 11 = true) ∧ (let c := s.staNat st.toNat 0x14 4
   let n := bits c 17 16
   let spd := bits c 15 0
   let x := s.until ((s.now : Int) + 1000 * max 0 ((spd : Int) - s.twtDelta st.toNat n)).toNat
   let missed := x.hasWork n st.toNat = true ∧ (s.sqa n).served.contains st.toNat = false
   (n < 3) ∧ (s.twtActive st.toNat n = true) ∧ (missed) ∧ (s.countsOnly (37 + 8 * n) = true))) := by
  refine ⟨?_, ?_⟩ <;> decide +kernel

theorem wit_CipherJobs :
  (let l : Fin 32 := 31
   let pre : List Job := [{ src := .program (.slot 3 2 3) 2 }]
   let post : List Job := []
   let j : Job := { src := .rx 1 2 3 4, slot := 4 }
   let s : State := { at' [(F.CIP_CTL_RT_BURST, 1)] with cip := { jobs := [{ src := .program (.slot 3 2 3) 2 }] ++ { src := .rx 1 2 3 4, slot := 4 } :: [], keys := [(4, ⟨true, 0, 0x20, 2, 1, 5⟩)], lanes := [(31, { burst := 7 })] } }
   (s.running (regionDomain (l.val / 8)) = true) ∧ (s.cip.jobs = pre ++ j :: post) ∧ (j.lane = none) ∧ (s.laneJob l.val = none) ∧ ((s.lane l.val).stopped = false) ∧ (s.on F.CIP_CTL_ALARM = false) ∧ (s.cipHalted = false) ∧ (let ln := s.lane l.val
   let region := l.val / 8
   let program := s.cip.jobs.any (fun q => q.ofRegion region && q.lane.isNone)
   let engine := bit (if s.get F.CIP_CTL_POOL = 0 then 15 else s.get F.CIP_CTL_POOL) region && s.cip.jobs.any (fun q => q.engine && q.lane.isNone)
   let limit := max 1 (s.get F.CIP_CTL_RT_BURST)
   (engine = true) ∧ (j.engine = true) ∧ ((∀ q ∈ pre, q.lane = none → q.engine = false)) ∧ (program = false ∨ ln.burst < limit))) ∧
  (let l : Fin 32 := 31
   let pre : List Job := [{ src := .rx 1 2 3 4 }]
   let post : List Job := [{ src := .rx 1 5 3 4 }]
   let j : Job := { src := .program (.slot 1 2 3) 3, op := 6, slot := 4 }
   let s : State := { at' [(F.CIP_CTL_POOL, 7)] with cip := { jobs := [{ src := .rx 1 2 3 4 }] ++ { src := .program (.slot 1 2 3) 3, op := 6, slot := 4 } :: [{ src := .rx 1 5 3 4 }], keys := [(4, ⟨true, 0, 0x20, 2, 1, 5⟩)] } }
   (s.running (regionDomain (l.val / 8)) = true) ∧ (s.cip.jobs = pre ++ j :: post) ∧ (j.lane = none) ∧ (s.laneJob l.val = none) ∧ ((s.lane l.val).stopped = false) ∧ (s.on F.CIP_CTL_ALARM = false) ∧ (s.cipHalted = false) ∧ (let ln := s.lane l.val
   let region := l.val / 8
   let engine := bit (if s.get F.CIP_CTL_POOL = 0 then 15 else s.get F.CIP_CTL_POOL) region && s.cip.jobs.any (fun q => q.engine && q.lane.isNone)
   let limit := max 1 (s.get F.CIP_CTL_RT_BURST)
   (j.ofRegion region = true) ∧ ((∀ q ∈ pre, q.lane = none → q.ofRegion region = false)) ∧ (engine = false ∨ limit ≤ ln.burst))) ∧
  (let l : Fin 32 := 31
   let pre : List Job := [{ src := .rx 1 2 3 4 }]
   let post : List Job := [{ src := .rx 1 5 3 4 }]
   let j : Job := { src := .program (.slot 1 2 3) 3, op := 6, slot := 4 }
   let s : State := { at' [(F.CIP_CTL_POOL, 7)] with cip := { jobs := [{ src := .rx 1 2 3 4 }] ++ { src := .program (.slot 1 2 3) 3, op := 6, slot := 4 } :: [{ src := .rx 1 5 3 4 }], keys := [(4, ⟨true, 0, 0x20, 2, 1, 5⟩)] } }
   (s.running (regionDomain (l.val / 8)) = true) ∧ (s.cip.jobs = pre ++ j :: post) ∧ (j.lane = none) ∧ (s.laneJob l.val = none) ∧ ((s.lane l.val).stopped = false) ∧ (s.on F.CIP_CTL_ALARM = false) ∧ (s.cipHalted = false) ∧ (let k := s.keySlot j.slot
   let ln := s.lane l.val
   let region := l.val / 8
   let t := ({ s with cip := { s.cip with jobs := pre ++ { j with lane := some l.val, type := k.type, gen := s.keyGen j.slot, key := k.key } :: post } } : State)
   let engine := bit (if s.get F.CIP_CTL_POOL = 0 then 15 else s.get F.CIP_CTL_POOL) region && s.cip.jobs.any (fun q => q.engine && q.lane.isNone)
   let limit := max 1 (s.get F.CIP_CTL_RT_BURST)
   (j.ofRegion region = true) ∧ ((∀ q ∈ pre, q.lane = none → q.ofRegion region = false)) ∧ (engine = false ∨ limit ≤ ln.burst) ∧ (let w := (t.setLane l.val { ln with burst := 0 }).eraseSlot j.slot
   (w.quiet = true) ∧ (w.countsOnly 450 = true)))) ∧
  (let l : Fin 32 := 30
   let s : State := live
   (s.quiet = true) ∧ ((s.laneJob l.val).isSome = true ∨ (s.lane l.val).stopped = true ∨ s.domOn (regionDomain (l.val / 8)) = false ∨
         s.on F.CIP_CTL_ALARM = true ∨ s.cipHalted = true ∨ s.cip.jobs.all (fun j => j.lane.isSome) = true)) ∧
  (let l : Fin 32 := 31
   let r : Nat := 3
   let dest : Dest := .slot 1 2 3
   let j : Job := { src := .program (.slot 1 2 3) 3, op := 8, slot := 4, len := 2, lane := some 31 }
   let s : State := { live with cip := { jobs := [{ src := .program (.slot 1 2 3) 3, op := 8, slot := 4, len := 2, lane := some 31 }], keys := [(4, ⟨true, 0, 0x20, 2, 0xFFFFFFFFFFFE, 5⟩)] } }
   (s.quiet = true) ∧ (s.laneJob l.val = some j) ∧ (j.op = 8) ∧ (j.src = .program dest r) ∧ (let k := s.keySlot j.slot
   (k.pn + j.len ≤ 2 ^ 48))) ∧
  (let l : Fin 32 := 31
   let r : Nat := 3
   let dest : Dest := .slot 1 2 3
   let j : Job := { src := .program (.slot 1 2 3) 3, op := 8, slot := 4, len := 2, lane := some 31 }
   let s : State := { live with cip := { jobs := [{ src := .program (.slot 1 2 3) 3, op := 8, slot := 4, len := 2, lane := some 31 }], keys := [(4, ⟨true, 0, 0x20, 2, 0xFFFFFFFFFFFF, 5⟩)] } }
   (s.quiet = true) ∧ (s.laneJob l.val = some j) ∧ (j.op = 8) ∧ (j.src = .program dest r) ∧ (let k := s.keySlot j.slot
   let u := s.dropLaneJob l.val
   (2 ^ 48 < k.pn + j.len) ∧ ((u.arrive dest (statusWord 8 0 0)).countsOnly 453 = true))) ∧
  (let l : Fin 32 := 30
   let s : State := live
   (s.quiet = true) ∧ ((∀ j, s.laneJob l.val = some j → j.op ≠ 8))) := by
  refine ⟨?_, ?_, ?_, ?_, ?_, ?_, ?_⟩ <;> decide +kernel

theorem wit_JobEnds : ∀ op : Fin 8, ∃ (l : Fin 32) (r : Nat) (dest : Dest) (j : Job) (s : State), s.quiet = true ∧
    s.laneJob l.val = some j ∧ j.op = op.val ∧ j.src = .program dest r ∧ j.data = [] ∧ s.jobXmDead j = false ∧
    (((s.dropLaneJob l.val).bump F.CIP_CNT2_MEMERR 1).arrive dest (statusWord 6 0 0)).countsOnly 451 = true :=
  fun op => ⟨31, 3, .slot 1 2 3, { src := .program (.slot 1 2 3) 3, op := op.val, lane := some 31 },
    { live with cip := { jobs := [{ src := .program (.slot 1 2 3) 3, op := op.val, lane := some 31 }] } }, by revert op; decide⟩

theorem wit_JobEnds_none : ∀ op : Fin 8, ∃ (l : Fin 32) (s : State), s.quiet = true ∧ s.laneJob l.val = none :=
  fun _ => ⟨31, live, by decide⟩

theorem wit_KeyCommands :
  (let who : Fin 4 := 0
   let s : State := at' [(F.CIP_KEY_STAGE_KEY 7 0, 0x80000001)]
   (s.takes who.val 5 = true) ∧ (s.on (F.CIP_KEY_CMD_GO who.val) = false) ∧ (s.keyRight who.val = true) ∧ (s.on F.CIP_CTL_ALARM = false)) ∧
  (let who : Fin 4 := 0
   let s : State := at' [(F.CIP_KEY_STAGE_KEY 7 0, 0x80000001), (F.CIP_CTL_ALARM, 1)]
   (s.takes who.val 5 = true) ∧ (s.on (F.CIP_KEY_CMD_GO who.val) = false) ∧ (s.keyRight who.val = false ∨ s.on F.CIP_CTL_ALARM = true)) ∧
  (let who : Fin 4 := 0
   let s : State := at' [(F.CIP_KEY_STAGE_KEY 7 0, 0x80000001), (F.CIP_KEY_CMD_GO 0, 1)]
   (s.takes who.val 5 = true) ∧ (s.on (F.CIP_KEY_CMD_GO who.val) = true)) ∧
  (let c : KeyCmd := ⟨2, true, 8191, 1, 0x21, 77, 5⟩
   let rest : List KeyCmd := []
   let s : State := { live with cip := { cmds := [⟨2, true, 8191, 1, 0x21, 77, 5⟩], keys := [(8191, ⟨true, 0, 1, 15, 3, 4⟩)] } }
   (s.running 5 = true) ∧ (s.cip.cmds = c :: rest) ∧ (c.who < 4) ∧ (c.erase = true)) ∧
  (let c : KeyCmd := ⟨2, false, 8191, 1, 0x21, 77, 5⟩
   let rest : List KeyCmd := []
   let s : State := { live with cip := { cmds := [⟨2, false, 8191, 1, 0x21, 77, 5⟩], keys := [(8191, ⟨true, 0, 1, 15, 3, 4⟩)] } }
   (s.running 5 = true) ∧ (s.cip.cmds = c :: rest) ∧ (c.who < 4) ∧ (c.erase = false)) ∧
  (let c : KeyCmd := ⟨2, true, 8191, 1, 0x21, 77, 5⟩
   let rest : List KeyCmd := []
   let s : State := { live with cip := { cmds := [⟨2, true, 8191, 1, 0x21, 77, 5⟩], keys := [(8191, ⟨true, 0, 1, 15, 3, 4⟩)], jobs := [{ src := .program (.slot 1 2 3) 3, slot := 8191 }, { src := .rx 1 2 3 4 }] } }
   (s.running 5 = true) ∧ (s.cip.cmds = c :: rest) ∧ (c.who < 4) ∧ (c.erase = true) ∧ ((∀ j ∈ s.cip.jobs, j.slot = c.slot → j.engine = false))) ∧
  (let s : State := live
   (s.quiet = true) ∧ (s.domOn 5 = false ∨ s.cip.cmds = [])) := by
  refine ⟨?_, ?_, ?_, ?_, ?_, ?_, ?_⟩ <;> decide +kernel

theorem wit_Zeroisation :
  (let who : Fin 4 := 0
   let v : Word := 0
   let s : State := live
   (s.takes who.val 5 = true) ∧ (let u := (s.take (withFld v F.CIP_CTL_ZERO 1) [F.CIP_CTL_RT_BURST, F.CIP_CTL_POOL]).zeroiseBy 0x3FF
   (u.quiet = true))) ∧
  (let s : State := { at' [(F.FLT_CLASS_CFG3_ENTRY, 0)] with cip := { keys := [(5, ⟨true, 1, 3, 15, 9, 8⟩)] } }
   (s.running 5 = true) ∧ (let u := ((s.put F.CIP_RNG_STAT_OK 0).counted 448).zeroiseBy 448
   (u.quiet = true) ∧ (u.get F.FLT_CLASS_CFG3_ENTRY = 0))) ∧
  (let l : Fin 32 := 31
   let s : State := { at' [(F.FLT_CLASS_CFG3_ENTRY, 0)] with cip := { jobs := [{ src := .program (.slot 1 2 3) 3, lane := some 31 }] } }
   (s.quiet = true) ∧ ((s.laneJob l.val).isSome = true) ∧ (let u := (s.counted 449).zeroiseBy 449
   (u.quiet = true) ∧ (u.get F.FLT_CLASS_CFG3_ENTRY = 0))) ∧
  (let l : Fin 32 := 30
   let s : State := { at' [(F.FLT_CLASS_CFG3_ENTRY, 0)] with cip := { jobs := [{ src := .program (.slot 1 2 3) 3, lane := some 31 }] } }
   (s.quiet = true) ∧ (s.laneJob l.val = none)) ∧
  (let n : Nat := 449
   let s : State := { live with cip := { keys := [(5, ⟨true, 1, 3, 15, 9, 8⟩)], cmds := [⟨2, true, 8191, 1, 0x21, 77, 5⟩] } }
   (s.quiet = true) ∧ ((∀ j ∈ s.cip.jobs, j.engine = false)) ∧ (n = 448 ∨ n = 449 ∨ n = 0x3FF)) ∧
  (let n : Nat := 449
   let s : State := { live with cip := { keys := [(5, ⟨true, 1, 3, 15, 9, 8⟩)], cmds := [⟨2, true, 8191, 1, 0x21, 77, 5⟩] } }
   (s.quiet = true) ∧ ((∀ j ∈ s.cip.jobs, j.engine = false)) ∧ (n = 448 ∨ n = 449 ∨ n = 0x3FF) ∧ (n ≠ 0x3FF)) ∧
  (let n : Nat := 0x3FF
   let s : State := { live with cip := { keys := [(5, ⟨true, 1, 3, 15, 9, 8⟩)], cmds := [⟨2, true, 8191, 1, 0x21, 77, 5⟩] } }
   (s.quiet = true) ∧ ((∀ j ∈ s.cip.jobs, j.engine = false)) ∧ (n = 448 ∨ n = 449 ∨ n = 0x3FF) ∧ (n = 0x3FF)) := by
  refine ⟨?_, ?_, ?_, ?_, ?_, ?_, ?_⟩ <;> decide +kernel

theorem wit_Zeroisation_2 :
  (let n : Nat := 448
   let s : State := { live with cip := { keys := [(5, ⟨true, 1, 3, 15, 9, 8⟩)], cmds := [⟨2, true, 8191, 1, 0x21, 77, 5⟩] } }
   (s.quiet = true) ∧ ((∀ j ∈ s.cip.jobs, j.engine = false)) ∧ (n = 448 ∨ n = 449 ∨ n = 0x3FF)) ∧
  (let l : Fin 32 := 31
   let s : State := live
   (s.running (regionDomain (l.val / 8)) = true)) ∧
  (let l : Fin 32 := 31
   let s : State := live
   (s.running (regionDomain (l.val / 8)) = true) ∧ (let ln := s.lane l.val
   (ln.late = false))) ∧
  (let l : Fin 32 := 31
   let s : State := { live with cip := { lanes := [(31, { late := true, stopped := true })] } }
   (s.running (regionDomain (l.val / 8)) = true) ∧ (let ln := s.lane l.val
   (ln.late = true) ∧ (ln.stopped = true))) ∧
  (let l : Fin 32 := 31
   let s : State := { at' [(F.FLT_CLASS_CFG3_ENTRY, 0)] with cip := { lanes := [(31, { late := true })] } }
   (s.running (regionDomain (l.val / 8)) = true) ∧ (let ln := s.lane l.val
   (ln.late = true) ∧ (ln.stopped = false) ∧ (let u := ((s.setLane l.val { ln with stopped := true }).counted 448).zeroiseBy 448
   (u.quiet = true) ∧ (u.get F.FLT_CLASS_CFG3_ENTRY = 0)))) := by
  refine ⟨?_, ?_, ?_, ?_, ?_⟩ <;> decide +kernel

theorem wit_SecurityFuses :
  (let who : Fin 4 := 0
   let slot : Fin 4 := 3
   let s : State := at' [(F.SEC_FUSE_CTL_ERR, 1)]
   (s.takes who.val 1 = true) ∧ (s.countsOnly 621 = true) ∧ (let lc := s.get F.SEC_LC_STATE
   let key := s.fuse.slots.getD slot.val {}
   (key.blank = true ∧ lc < 2))) ∧
  (let who : Fin 4 := 0
   let slot : Fin 4 := 3
   let s : State := { live with fuse := { slots := [{}, {}, {}, ⟨5, true⟩] } }
   (s.takes who.val 1 = true) ∧ (s.countsOnly 621 = true) ∧ (let lc := s.get F.SEC_LC_STATE
   let key := s.fuse.slots.getD slot.val {}
   (key.blank = false ∨ 2 ≤ lc))) ∧
  (let who : Fin 4 := 0
   let s : State := live
   (s.takes who.val 1 = true) ∧ (s.countsOnly 621 = true) ∧ (let lc := s.get F.SEC_LC_STATE
   (s.fuse.dbgKey.blank = true ∧ lc < 2))) ∧
  (let who : Fin 4 := 0
   let s : State := { live with fuse := { dbgKey := ⟨5, false⟩ } }
   (s.takes who.val 1 = true) ∧ (s.countsOnly 621 = true) ∧ (let lc := s.get F.SEC_LC_STATE
   (s.fuse.dbgKey.blank = false ∨ 2 ≤ lc))) ∧
  (let who : Fin 4 := 0
   let v : Word := 0x18
   let s : State := at' [(F.SEC_LC_STATE, 2)]
   (s.takes who.val 1 = true) ∧ (s.countsOnly 621 = true) ∧ (let lc := s.get F.SEC_LC_STATE
   let i := fldOf v F.SEC_FUSE_CTL_SLOT
   let revokes := (lc = 1 ∨ lc = 2) ∧ (s.sec.image = false ∨ s.get F.SEC_KEYHASH_STAT_RUN ≠ i) ∧ s.goodSlots ≠ [i]
   (revokes))) ∧
  (let who : Fin 4 := 0
   let v : Word := 0x18
   let s : State := { at' [(F.SEC_LC_STATE, 2), (F.SEC_KEYHASH_STAT_RUN, 3)] with sec := { image := true } }
   (s.takes who.val 1 = true) ∧ (s.countsOnly 621 = true) ∧ (let lc := s.get F.SEC_LC_STATE
   let i := fldOf v F.SEC_FUSE_CTL_SLOT
   let revokes := (lc = 1 ∨ lc = 2) ∧ (s.sec.image = false ∨ s.get F.SEC_KEYHASH_STAT_RUN ≠ i) ∧ s.goodSlots ≠ [i]
   (¬revokes))) ∧
  (let who : Fin 4 := 0
   let v : Word := 0x3C02
   let s : State := { live with fuse := { slots := [⟨5, true⟩, {}, {}, {}] } }
   (s.takes who.val 1 = true) ∧ (s.countsOnly 621 = true) ∧ (let t := fldOf v F.SEC_LC_CTL_TARGET
   let moves := s.fuse.lifecycle < t ∧ fldOf v F.SEC_LC_CTL_CONFIRM = 0x3C ∧ (t = 2 → ∃ k ∈ s.fuse.slots, k.valid = true) ∧ (t = 3 → s.sec.image = true ∨ s.on F.SEC_DBG_CTL_OPEN = true)
   (moves))) := by
  refine ⟨?_, ?_, ?_, ?_, ?_, ?_, ?_⟩ <;> decide +kernel

theorem wit_SecurityFuses_2 :
  (let who : Fin 4 := 0
   let v : Word := 0x3C02
   let s : State := live
   (s.takes who.val 1 = true) ∧ (s.countsOnly 621 = true) ∧ (let t := fldOf v F.SEC_LC_CTL_TARGET
   let moves := s.fuse.lifecycle < t ∧ fldOf v F.SEC_LC_CTL_CONFIRM = 0x3C ∧ (t = 2 → ∃ k ∈ s.fuse.slots, k.valid = true) ∧ (t = 3 → s.sec.image = true ∨ s.on F.SEC_DBG_CTL_OPEN = true)
   (¬moves))) ∧
  (let who : Fin 4 := 0
   let v : Word := 64
   let s : State := { live with acn := { svn := 64 }, fuse := { floor := 63 } }
   (s.takes who.val 1 = true) ∧ (let t := fldOf v F.SEC_ARB_TARGET
   (s.sec.arb = none) ∧ (t ≤ s.acn.svn) ∧ (s.fuse.floor < t))) ∧
  (let who : Fin 4 := 0
   let v : Word := 65
   let s : State := { live with acn := { svn := 64 } }
   (s.takes who.val 1 = true) ∧ (let t := fldOf v F.SEC_ARB_TARGET
   (s.sec.arb = none) ∧ (s.acn.svn < t ∨ t ≤ s.fuse.floor) ∧ (s.countsOnly 622 = true))) ∧
  (let who : Fin 4 := 0
   let s : State := { live with sec := { arb := some 64 } }
   (s.takes who.val 1 = true) ∧ (s.sec.arb ≠ none)) ∧
  (let t : Nat := 64
   let s : State := { live with fuse := { floor := 63 }, sec := { arb := some 64 } }
   (s.running 1 = true) ∧ (s.sec.arb = some t)) ∧
  (let s : State := live
   (s.quiet = true) ∧ (s.sec.arb = none)) := by
  refine ⟨?_, ?_, ?_, ?_, ?_, ?_⟩ <;> decide +kernel

theorem wit_SecurityImages :
  (let who : Fin 4 := 0
   let s : State := at' [(F.SEC_BOOT_STAT_WAIT, 1)]
   (s.takes who.val 1 = true) ∧ (who = 0) ∧ (s.on F.SEC_BOOT_STAT_WAIT = true) ∧ (s.countsOnly 616 = true) ∧ (s.countsOnly 617 = true)) ∧
  (let who : Fin 4 := 0
   let s : State := live
   (s.takes who.val 1 = true) ∧ (who ≠ 0 ∨ s.on F.SEC_BOOT_STAT_WAIT = false)) ∧
  (let who : Fin 4 := 0
   let s : State := at' [(F.SEC_VER_SRC_ADDR 0, 0x1FFFFFF)]
   (s.takes who.val 1 = true) ∧ (s.on (F.SEC_VER_CTL_BUSY who.val) = false)) ∧
  (let who : Fin 4 := 0
   let s : State := at' [(F.SEC_VER_CTL_BUSY 0, 1)]
   (s.takes who.val 1 = true) ∧ (s.on (F.SEC_VER_CTL_BUSY who.val) = true)) ∧
  (let who : Nat := 2
   let a : Nat := 64
   let l : List (Nat × Nat) := [(0, 128)]
   let s : State := { live with sec := { vers := [(2, 64), (0, 128)] } }
   (s.running 1 = true) ∧ (s.sec.vers = (who, a) :: l)) ∧
  (let s : State := live
   (s.quiet = true) ∧ (s.sec.vers = [])) ∧
  (let who : Fin 4 := 0
   let s : State := live
   (s.takes who.val 1 = true)) := by
  refine ⟨?_, ?_, ?_, ?_, ?_, ?_, ?_⟩ <;> decide +kernel

theorem wit_SecurityImages_2 :
  (let f : FieldDesc := ⟨3, 0, .rwl, .all 0⟩
   (f.acc = .rwl)) := by
  decide +kernel

theorem wit_SecurityEvidence :
  (let who : Fin 4 := 0
   let s : State := live
   (s.takes who.val 1 = true)) ∧
  (let who : Fin 4 := 0
   let s : State := at' [(F.SEC_QUOTE_CTL_BUSY 0, 1)]
   (s.takes who.val 1 = true) ∧ (s.on (F.SEC_QUOTE_CTL_BUSY who.val) = true)) ∧
  (let who : Fin 4 := 0
   let s : State := live
   (s.takes who.val 1 = true) ∧ (let rma := s.get F.SEC_LC_STATE = 3 ∨ s.sec.key = none
   (s.on (F.SEC_QUOTE_CTL_BUSY who.val) = false) ∧ (rma))) ∧
  (let who : Fin 4 := 0
   let s : State := { at' [(F.FLT_SRC_PEND 448, 1)] with sec := { key := some 5 } }
   (s.takes who.val 1 = true) ∧ (let rma := s.get F.SEC_LC_STATE = 3 ∨ s.sec.key = none
   (s.on (F.SEC_QUOTE_CTL_BUSY who.val) = false) ∧ (¬rma) ∧ (s.isPending 448 = true))) ∧
  (let who : Fin 4 := 0
   let s : State := { live with sec := { key := some 5 } }
   (s.takes who.val 1 = true) ∧ (let rma := s.get F.SEC_LC_STATE = 3 ∨ s.sec.key = none
   (s.on (F.SEC_QUOTE_CTL_BUSY who.val) = false) ∧ (¬rma) ∧ (s.isPending 448 = false) ∧ (s.halted (span 616 632) = false))) ∧
  (let who : Nat := 2
   let dst : Nat := 0x1000
   let nonce : List Byte := List.replicate 48 7
   let rest : List (Nat × List Byte × Nat) := []
   let s : State := { live with sec := { key := some 5, quotes := [(2, List.replicate 48 7, 0x1000)] } }
   (s.running 1 = true) ∧ (s.sec.quotes = (who, nonce, dst) :: rest) ∧ (let key : Nat := 5
   (s.get F.SEC_LC_STATE ≠ 3) ∧ (s.sec.key = some key) ∧ (s.isPending 448 = false) ∧ (s.halted (span 616 632) = false) ∧ (nonce.length = 48) ∧ (dst + 560 ≤ Config.granaryBytes))) ∧
  (let who : Nat := 2
   let dst : Nat := 0x1000
   let nonce : List Byte := List.replicate 48 7
   let rest : List (Nat × List Byte × Nat) := []
   let s : State := { live with sec := { quotes := [(2, List.replicate 48 7, 0x1000)] } }
   (s.running 1 = true) ∧ (s.sec.quotes = (who, nonce, dst) :: rest) ∧ (s.get F.SEC_LC_STATE = 3 ∨ s.sec.key = none)) := by
  refine ⟨?_, ?_, ?_, ?_, ?_, ?_, ?_⟩ <;> decide +kernel

theorem wit_SecurityEvidence_2 :
  (let s : State := live
   (s.quiet = true) ∧ (s.sec.quotes = [])) ∧
  (let who : Fin 4 := 0
   let v : Word := 0
   let s : State := live
   (s.takes who.val 1 = true) ∧ (bit v.toNat 1 = false)) ∧
  (let who : Fin 4 := 0
   let v : Word := 0
   let bad : Fin 3 := 2
   let s : State := at' [(F.SEC_DBG_CTL_FAILS, 2)]
   (s.takes who.val 1 = true) ∧ (bit v.toNat 0 = false) ∧ (let u : State := { s with sec := { s.sec with chal := false } }
   let opened := (u.put F.SEC_DBG_CTL_OPEN 1).measExtend 1 [1]
   let zeroised := (opened.acnNext bad.val).zeroiseBy 0x3FF
   ((s.debugGood = true → s.get F.SEC_LC_STATE = 2 → zeroised.quiet = true)) ∧ (s.countsOnly 618 = true))) := by
  refine ⟨?_, ?_, ?_⟩ <;> decide +kernel

theorem wit_TimeBases :
  (let who : Fin 4 := 0
   let v : Word := 0xBE76C974
   let s : State := at' [(F.TIME_TBN_CTL_HOLDOVER, 1)]
   (s.takes who.val 5 = true) ∧ (v.toInt.natAbs ≤ 1099511628)) ∧
  (let who : Fin 4 := 0
   let v : Word := 0x7FFFFFFF
   let s : State := at' [(F.TIME_TBN_CTL_HOLDOVER, 1)]
   (s.takes who.val 5 = true) ∧ (1099511628 < v.toInt.natAbs) ∧ (s.countsOnly 2 = true)) ∧
  (let who : Fin 4 := 0
   let s : State := at' [(F.TIME_TBN_CTL_ARMED, 1)]
   (s.takes who.val 5 = true) ∧ (s.on F.TIME_TBN_CTL_ARMED = true)) ∧
  (let who : Fin 4 := 0
   let s : State := at' [(F.TIME_TBN_CTL_ARMED, 0)]
   (s.takes who.val 5 = true) ∧ (s.on F.TIME_TBN_CTL_ARMED = false) ∧ (s.countsOnly 1 = true)) ∧
  (let who : Fin 4 := 0
   let s : State := live.setSeq 3 { wait := some (.time 5 1 7) }
   (s.takes who.val 5 = true)) ∧
  (let who : Fin 4 := 0
   let n : Fin 3 := 2
   let s : State := live
   (s.takes who.val 5 = true) ∧ (s.beaconing n.val = false)) ∧
  (let who : Fin 4 := 0
   let n : Fin 3 := 2
   let s : State := at' [(F.MX_BSS_CFG_EN 2 0, 1), (F.MX_BSS_CFG_BCN 2 0, 1), (F.MX_BCN_TPL_LEN 2 0, 9)]
   (s.takes who.val 5 = true) ∧ (s.beaconing n.val = true) ∧ (s.countsOnly 5 = true)) := by
  refine ⟨?_, ?_, ?_, ?_, ?_, ?_, ?_⟩ <;> decide +kernel

theorem wit_TimeBases_2 :
  (let n : Nat := 2
   let k : Nat := 77
   let s : State := live
   (n < s.time.tsfBase.length) ∧ (k < 2 ^ 63)) ∧
  (let s : State := at' [(F.TIME_CLK_STAT_SRC, 1)]
   (s.quiet = true)) ∧
  (let s : State := at' [(F.TIME_CLK_STAT_SRC, 1), (F.TIME_CLK_STAT_X32K_OK, 1)]
   (s.quiet = true) ∧ ((s.put F.TIME_CLK_STAT_X32K_OK 0).countsOnly 7 = true)) ∧
  (let s : State := at' [(F.TOP_MODE_CUR, 3)]
   (s.quiet = true) ∧ (s.mode = 3 ∨ s.mode = 0)) ∧
  (let s : State := at' [(F.TOP_MODE_CUR, 2)]
   (s.quiet = true) ∧ (let slow : State := { s.put F.TIME_CLK_STAT_SRC 1 with time := { s.time with fb := !s.on F.TIME_CLK_STAT_X32K_OK } }
   (s.mode = 2) ∧ (slow.countsOnly 0 = true))) ∧
  (let bad : Fin 3 := 0
   let s : State := live
   (s.quiet = true) ∧ (let slow : State := { s.put F.TIME_CLK_STAT_SRC 1 with time := { s.time with fb := !s.on F.TIME_CLK_STAT_X32K_OK } }
   let w : State := ((({ live.put F.TIME_CLK_STAT_SRC 1 with time := { live.time with fb := !live.on F.TIME_CLK_STAT_X32K_OK } } : State).acnNext 0).raise 0).limpEnter
   (s.mode ≠ 0) ∧ (s.mode ≠ 2) ∧ (s.mode ≠ 3) ∧ (w = ((slow.acnNext bad.val).raise 0).limpEnter) ∧ (w.raised = [(0, false)]) ∧ (({ w with raised := [] } : State).quiet = true) ∧ (({ w with raised := [] } : State).countsOnly 0 = true))) := by
  refine ⟨?_, ?_, ?_, ?_, ?_, ?_⟩ <;> decide +kernel

theorem wit_PhaseObservations :
  (let d : Fin 4 := 3
   let held : Nat := 100
   let s : State := at' [(F.PHS_PD_CFG_EN 3, 1), (F.PHS_PD_CFG_SRC 3, 2), (F.PHS_PD_STAT_STATE 3, 1)]
   (s.quiet = true) ∧ (let filt := s.get (F.PHS_PD_IDX_FILT d.val)
   let src := s.get (F.PHS_PD_CFG_SRC d.val)
   let on := s.domOn 5 = true ∧ s.on (F.PHS_PD_CFG_EN d.val) = true
   (held < filt ∨ ¬on ∨ src = 2 ∨ src = 3 ∨ 5 < src))) ∧
  (let d : Fin 4 := 3
   let held : Nat := 100
   let s : State := { at' [(F.PHS_PD_CFG_EN 3, 1), (F.PHS_PD_CFG_SRC 3, 0), (F.PHS_PD_CFG_INDEX_REQ 3, 0), (F.PHS_PD_STAT_STATE 3, 1)] with phs := [{}, {}, {}, { a := true }] }
   (s.quiet = true) ∧ (let x := s.pd d.val
   let filt := s.get (F.PHS_PD_IDX_FILT d.val)
   let src := s.get (F.PHS_PD_CFG_SRC d.val)
   let on := s.domOn 5 = true ∧ s.on (F.PHS_PD_CFG_EN d.val) = true
   let a : Bool := true
   let b : Bool := false
   (on) ∧ (filt ≤ held) ∧ (src = 0 ∨ src = 1) ∧ (let step := (grayPos a b + 4 - grayPos x.a x.b) % 4
   (step = 0)))) ∧
  (let d : Fin 4 := 3
   let t : Nat := 1000000007
   let held : Nat := 100
   let s : State := { at' [(F.PHS_PD_CFG_EN 3, 1), (F.PHS_PD_CFG_SRC 3, 0), (F.PHS_PD_CFG_INDEX_REQ 3, 0), (F.PHS_PD_STAT_STATE 3, 1)] with phs := [{}, {}, {}, { b := true }] }
   (s.quiet = true) ∧ (let x := s.pd d.val
   let filt := s.get (F.PHS_PD_IDX_FILT d.val)
   let src := s.get (F.PHS_PD_CFG_SRC d.val)
   let on := s.domOn 5 = true ∧ s.on (F.PHS_PD_CFG_EN d.val) = true
   let fault := fun v : State => (v.bump (F.PHS_PD_CNT_ILLEG d.val) 1)
   let a : Bool := true
   let b : Bool := false
   (on) ∧ (filt ≤ held) ∧ (src = 0 ∨ src = 1) ∧ (let v := (s.until t).setPd d.val { x with a := a, b := b }
   let step := (grayPos a b + 4 - grayPos x.a x.b) % 4
   (step = 2) ∧ ((fault v).countsOnly (17 + 4 * d.val) = true)))) ∧
  (let d : Fin 4 := 3
   let t : Nat := 1000000007
   let held : Nat := 100
   let s : State := at' [(F.PHS_PD_CFG_EN 3, 1), (F.PHS_PD_CFG_SRC 3, 0), (F.PHS_PD_CFG_INDEX_REQ 3, 0), (F.PHS_PD_STAT_STATE 3, 1)]
   (s.quiet = true) ∧ (let x := s.pd d.val
   let filt := s.get (F.PHS_PD_IDX_FILT d.val)
   let src := s.get (F.PHS_PD_CFG_SRC d.val)
   let on := s.domOn 5 = true ∧ s.on (F.PHS_PD_CFG_EN d.val) = true
   let a : Bool := true
   let b : Bool := false
   (on) ∧ (filt ≤ held) ∧ (src = 0 ∨ src = 1) ∧ (let v := (s.until t).setPd d.val { x with a := a, b := b }
   let step := (grayPos a b + 4 - grayPos x.a x.b) % 4
   let forward := if s.on (F.PHS_PD_CFG_INV_DIR d.val) then 3 else 1
   (step = forward) ∧ ((v.countForward d.val t).quiet = true)))) ∧
  (let d : Fin 4 := 3
   let t : Nat := 1000000007
   let held : Nat := 100
   let s : State := at' [(F.PHS_PD_CFG_EN 3, 1), (F.PHS_PD_CFG_SRC 3, 1), (F.PHS_PD_CFG_INV_DIR 3, 1), (F.PHS_PD_STAT_STATE 3, 1)]
   (s.quiet = true) ∧ (let x := s.pd d.val
   let filt := s.get (F.PHS_PD_IDX_FILT d.val)
   let src := s.get (F.PHS_PD_CFG_SRC d.val)
   let on := s.domOn 5 = true ∧ s.on (F.PHS_PD_CFG_EN d.val) = true
   let a : Bool := true
   let b : Bool := false
   (on) ∧ (filt ≤ held) ∧ (src = 0 ∨ src = 1) ∧ (let v := (s.until t).setPd d.val { x with a := a, b := b }
   let step := (grayPos a b + 4 - grayPos x.a x.b) % 4
   let forward := if s.on (F.PHS_PD_CFG_INV_DIR d.val) then 3 else 1
   (step = 4 - forward) ∧ ((v.countReverse d.val t).quiet = true)))) ∧
  (let d : Fin 4 := 3
   let held : Nat := 100
   let s : State := { at' [(F.PHS_PD_CFG_EN 3, 1), (F.PHS_PD_CFG_SRC 3, 4), (F.PHS_PD_STAT_STATE 3, 1)] with phs := [{}, {}, {}, { a := true }] }
   (s.quiet = true) ∧ (let x := s.pd d.val
   let filt := s.get (F.PHS_PD_IDX_FILT d.val)
   let src := s.get (F.PHS_PD_CFG_SRC d.val)
   let on := s.domOn 5 = true ∧ s.on (F.PHS_PD_CFG_EN d.val) = true
   let a : Bool := true
   (on) ∧ (filt ≤ held) ∧ (src = 4 ∨ src = 5) ∧ (a = false ∨ x.a = true))) ∧
  (let d : Fin 4 := 3
   let t : Nat := 1000000007
   let held : Nat := 100
   let s : State := at' [(F.PHS_PD_CFG_EN 3, 1), (F.PHS_PD_CFG_SRC 3, 5), (F.PHS_PD_STAT_STATE 3, 1)]
   (s.quiet = true) ∧ (let x := s.pd d.val
   let filt := s.get (F.PHS_PD_IDX_FILT d.val)
   let src := s.get (F.PHS_PD_CFG_SRC d.val)
   let on := s.domOn 5 = true ∧ s.on (F.PHS_PD_CFG_EN d.val) = true
   let a : Bool := true
   let b : Bool := false
   (on) ∧ (filt ≤ held) ∧ (src = 4 ∨ src = 5) ∧ (let v := (s.until t).setPd d.val { x with a := a, b := b }
   (a = true) ∧ (x.a = false) ∧ ((v.countForward d.val t).quiet = true)))) := by
  refine ⟨?_, ?_, ?_, ?_, ?_, ?_, ?_⟩ <;> decide +kernel

theorem wit_PhaseObservations_2 :
  (let d : Fin 4 := 3
   let held : Nat := 99
   let s : State := at' [(F.PHS_PD_CFG_EN 3, 1), (F.PHS_PD_CFG_SRC 3, 4), (F.PHS_PD_CFG_INDEX_REQ 3, 1), (F.PHS_PD_STAT_STATE 3, 1), (F.PHS_PD_CYC_CYC 3, 65535)]
   (s.quiet = true) ∧ (let filt := s.get (F.PHS_PD_IDX_FILT d.val)
   let src := s.get (F.PHS_PD_CFG_SRC d.val)
   let on := s.domOn 5 = true ∧ s.on (F.PHS_PD_CFG_EN d.val) = true
   (held < filt ∨ ¬on ∨ src = 2 ∨ src = 3 ∨ 5 < src))) ∧
  (let d : Fin 4 := 3
   let held : Nat := 100
   let s : State := at' [(F.PHS_PD_CFG_EN 3, 1), (F.PHS_PD_CFG_SRC 3, 4), (F.PHS_PD_CFG_INDEX_REQ 3, 1), (F.PHS_PD_STAT_STATE 3, 1), (F.PHS_PD_CYC_CYC 3, 65535)]
   (s.quiet = true) ∧ (let x := s.pd d.val
   let filt := s.get (F.PHS_PD_IDX_FILT d.val)
   let src := s.get (F.PHS_PD_CFG_SRC d.val)
   let on := s.domOn 5 = true ∧ s.on (F.PHS_PD_CFG_EN d.val) = true
   (on) ∧ (filt ≤ held) ∧ (src ≤ 1 ∨ src = 4 ∨ src = 5) ∧ (x.known = false ∨ x.n.toNat = s.cpr d.val))) ∧
  (let d : Fin 4 := 3
   let t : Nat := 1000000007
   let held : Nat := 100
   let s : State := { at' [(F.PHS_PD_CFG_EN 3, 1), (F.PHS_PD_CFG_SRC 3, 1), (F.PHS_PD_STAT_STATE 3, 1)] with phs := [{}, {}, {}, { known := true, n := 4095 }] }
   (s.quiet = true) ∧ (let x := s.pd d.val
   let filt := s.get (F.PHS_PD_IDX_FILT d.val)
   let src := s.get (F.PHS_PD_CFG_SRC d.val)
   let on := s.domOn 5 = true ∧ s.on (F.PHS_PD_CFG_EN d.val) = true
   let fault := fun v : State => (v.bump (F.PHS_PD_CNT_ILLEG d.val) 1)
   (on) ∧ (filt ≤ held) ∧ (src ≤ 1 ∨ src = 4 ∨ src = 5) ∧ (let v := (((s.until t).put (F.PHS_PD_STAT_IDX_SEEN d.val) 1).addWrap (F.PHS_PD_CYC_CYC d.val) 1).setPd d.val { x with n := 0, fresh := false, known := true }
   (x.known = true) ∧ (x.n.toNat ≠ s.cpr d.val) ∧ ((fault v).countsOnly (17 + 4 * d.val) = true)))) ∧
  (let d : Fin 4 := 3
   let held : Nat := 100
   let s : State := at' [(F.PHS_PD_CFG_EN 3, 1), (F.PHS_PD_CFG_SRC 3, 2), (F.PHS_PD_STAT_STATE 3, 1)]
   (s.quiet = true) ∧ (let filt := s.get (F.PHS_PD_IDX_FILT d.val)
   let src := s.get (F.PHS_PD_CFG_SRC d.val)
   let on := s.domOn 5 = true ∧ s.on (F.PHS_PD_CFG_EN d.val) = true
   let rising : Bool := false
   (held < filt ∨ ¬on ∨ (src ≠ 2 ∧ src ≠ 3) ∨ (src = 2 ∧ rising = false)))) ∧
  (let d : Fin 4 := 3
   let t : Nat := 1000000007
   let held : Nat := 100
   let s : State := { at' [(F.PHS_PD_CFG_EN 3, 1), (F.PHS_PD_CFG_SRC 3, 3), (F.PHS_PD_STAT_STATE 3, 1)] with phs := [{}, {}, {}, { rise := 995000009 }] }
   (s.quiet = true) ∧ (let x := s.pd d.val
   let filt := s.get (F.PHS_PD_IDX_FILT d.val)
   let src := s.get (F.PHS_PD_CFG_SRC d.val)
   let on := s.domOn 5 = true ∧ s.on (F.PHS_PD_CFG_EN d.val) = true
   let rising : Bool := true
   let prev := if rising then x.rise else x.fall
   let gap := t - (prev - 1)
   let soon := prev ≠ 0 ∧ gap < (if x.locked1 then x.period / 4 else 5000000)
   (on) ∧ (filt ≤ held) ∧ ((src = 2 ∧ rising = true) ∨ src = 3) ∧ (soon))) ∧
  (let d : Fin 4 := 3
   let t : Nat := 1000000007
   let held : Nat := 100
   let s : State := { at' [(F.PHS_PD_CFG_EN 3, 1), (F.PHS_PD_CFG_SRC 3, 3), (F.PHS_PD_STAT_STATE 3, 1)] with phs := [{}, {}, {}, { rise := 990000009 }] }
   (s.quiet = true) ∧ (let x := s.pd d.val
   let filt := s.get (F.PHS_PD_IDX_FILT d.val)
   let src := s.get (F.PHS_PD_CFG_SRC d.val)
   let on := s.domOn 5 = true ∧ s.on (F.PHS_PD_CFG_EN d.val) = true
   let fault := fun v : State => (v.bump (F.PHS_PD_CNT_ILLEG d.val) 1)
   let rising : Bool := true
   let prev := if rising then x.rise else x.fall
   let gap := t - (prev - 1)
   let soon := prev ≠ 0 ∧ gap < (if x.locked1 then x.period / 4 else 5000000)
   let wrong := prev ≠ 0 ∧ (70 * gap < 1000000000 ∨ 1000000000 < 40 * gap)
   let v := if rising then ((s.until t).setPd d.val { x with rise := t + 1 }).addWrap (F.PHS_PD_CYC_CYC d.val) 1 else (s.until t).setPd d.val { x with fall := t + 1 }
   (on) ∧ (filt ≤ held) ∧ ((src = 2 ∧ rising = true) ∨ src = 3) ∧ (¬soon) ∧ (wrong) ∧ ((fault v).countsOnly (17 + 4 * d.val) = true))) ∧
  (let d : Fin 4 := 3
   let t : Nat := 1000000007
   let held : Nat := 100
   let s : State := at' [(F.PHS_PD_CFG_EN 3, 1), (F.PHS_PD_CFG_SRC 3, 3), (F.PHS_PD_STAT_STATE 3, 1)]
   (s.quiet = true) ∧ (let x := s.pd d.val
   let filt := s.get (F.PHS_PD_IDX_FILT d.val)
   let src := s.get (F.PHS_PD_CFG_SRC d.val)
   let on := s.domOn 5 = true ∧ s.on (F.PHS_PD_CFG_EN d.val) = true
   let rising : Bool := false
   let prev := if rising then x.rise else x.fall
   let gap := t - (prev - 1)
   let soon := prev ≠ 0 ∧ gap < (if x.locked1 then x.period / 4 else 5000000)
   let wrong := prev ≠ 0 ∧ (70 * gap < 1000000000 ∨ 1000000000 < 40 * gap)
   let v := if rising then ((s.until t).setPd d.val { x with rise := t + 1 }).addWrap (F.PHS_PD_CYC_CYC d.val) 1 else (s.until t).setPd d.val { x with fall := t + 1 }
   let seen := v.observe d.val t (v.countPhase d.val 0 + (if rising then 0 else 32768 * 65536))
   (on) ∧ (filt ≤ held) ∧ ((src = 2 ∧ rising = true) ∨ src = 3) ∧ (¬soon) ∧ (¬wrong) ∧ (seen.quiet = true))) := by
  refine ⟨?_, ?_, ?_, ?_, ?_, ?_, ?_⟩ <;> decide +kernel

theorem wit_PhaseObservations_3 :
  (let who : Fin 4 := 0
   let d : Fin 4 := 3
   let s : State := at' [(F.PHS_PD_CFG_EN 3, 1), (F.PHS_PD_CFG_SRC 3, 5), (F.PHS_PD_STAT_STATE 3, 1)]
   (s.takes who.val 5 = true) ∧ (let on := s.on (F.PHS_PD_CFG_EN d.val) = true ∧ s.get (F.PHS_PD_CFG_SRC d.val) = 6
   (¬on))) ∧
  (let who : Fin 4 := 0
   let d : Fin 4 := 3
   let v : Word := 1
   let s : State := at' [(F.PHS_PD_CFG_EN 3, 1), (F.PHS_PD_CFG_SRC 3, 6), (F.PHS_PD_STAT_STATE 3, 1)]
   (s.takes who.val 5 = true) ∧ (let x := s.pd d.val
   let w := s.staged who.val (0x20030 + 0x100 * d.val) 2 v.toNat
   let t := w / 2 ^ 32
   let on := s.on (F.PHS_PD_CFG_EN d.val) = true ∧ s.get (F.PHS_PD_CFG_SRC d.val) = 6
   let late := s.now < t ∨ ((x.obs ≠ 0 ∨ x.tLast ≠ 0) ∧ t ≤ x.tLast)
   (on) ∧ (late) ∧ ((s.bump (F.PHS_PD_CNT_HREJ d.val) 1).countsOnly (18 + 4 * d.val) = true))) ∧
  (let who : Fin 4 := 0
   let d : Fin 4 := 3
   let v : Word := 0
   let s : State := at' [(F.PHS_PD_CFG_EN 3, 1), (F.PHS_PD_CFG_SRC 3, 6), (F.PHS_PD_STAT_STATE 3, 1)]
   (s.takes who.val 5 = true) ∧ (let x := s.pd d.val
   let w := s.staged who.val (0x20030 + 0x100 * d.val) 2 v.toNat
   let t := w / 2 ^ 32
   let on := s.on (F.PHS_PD_CFG_EN d.val) = true ∧ s.get (F.PHS_PD_CFG_SRC d.val) = 6
   let late := s.now < t ∨ ((x.obs ≠ 0 ∨ x.tLast ≠ 0) ∧ t ≤ x.tLast)
   let seen := s.observe d.val t (w % 2 ^ 32 * 65536)
   (on) ∧ (¬late) ∧ (seen.quiet = true))) ∧
  (let d : Nat := 3
   let s : State := live
   (d < s.phs.length) ∧ (let k : Nat := 0
   (k ≠ d))) ∧
  (let d : Nat := 3
   let s : State := live
   (d < s.phs.length) ∧ (let x := s.pd d
   (x.obs = 0))) ∧
  (let d : Nat := 3
   let s : State := { at' [(F.PHS_PD_CFG_EN 3, 1), (F.PHS_PD_STAT_STATE 3, 2)] with phs := [{}, {}, {}, { obs := 3, w := 0x100000, refT := 980000000, tLast := 980000000 }] }
   (d < s.phs.length) ∧ (let x := s.pd d
   (x.obs ≠ 0) ∧ (s.get (F.PHS_PD_STAT_STATE d) = 2))) := by
  refine ⟨?_, ?_, ?_, ?_, ?_, ?_⟩ <;> decide +kernel

theorem wit_PhaseDomains :
  (let who : Fin 4 := 0
   let d : Fin 4 := 3
   let v : Word := 0x4
   let s : State := live
   (s.takes who.val 5 = true) ∧ (d.val < s.phs.length) ∧ (let src := fldOf v (F.PHS_PD_CFG_SRC d.val)
   (s.on (F.PHS_PD_CFG_EN d.val) = false) ∧ (src ≠ 7))) ∧
  (let who : Fin 4 := 0
   let d : Fin 4 := 3
   let v : Word := 0xE
   let s : State := live
   (s.takes who.val 5 = true) ∧ (d.val < s.phs.length) ∧ (let src := fldOf v (F.PHS_PD_CFG_SRC d.val)
   (s.on (F.PHS_PD_CFG_EN d.val) = false) ∧ (src = 7))) ∧
  (let who : Fin 4 := 0
   let d : Fin 4 := 3
   let s : State := (at' [(F.PHS_PD_CFG_EN 3, 1), (F.PHS_PD_STAT_STATE 3, 2)]).setSeq 2 { wait := some (.phase 5 7 0 3) }
   (s.takes who.val 5 = true) ∧ (d.val < s.phs.length) ∧ (s.on (F.PHS_PD_CFG_EN d.val) = true)) ∧
  (let who : Fin 4 := 0
   let d : Fin 4 := 3
   let s : State := live
   (s.takes who.val 5 = true) ∧ (d.val < s.phs.length) ∧ (s.on (F.PHS_PD_CFG_EN d.val) = false)) ∧
  (let who : Fin 4 := 0
   let d : Fin 4 := 3
   let s : State := at' [(F.PHS_PD_STAT_STATE 3, 2)]
   (s.takes who.val 5 = true) ∧ (d.val < s.phs.length) ∧ (s.locked d.val = true)) ∧
  (let who : Fin 4 := 0
   let d : Fin 4 := 3
   let s : State := at' []
   (s.takes who.val 5 = true) ∧ (d.val < s.phs.length) ∧ (s.locked d.val = false)) ∧
  (let who : Fin 4 := 0
   let d : Fin 4 := 3
   let s : State := at' []
   (s.takes who.val 5 = true) ∧ (d.val < s.phs.length)) := by
  refine ⟨?_, ?_, ?_, ?_, ?_, ?_, ?_⟩ <;> decide +kernel

theorem wit_PhaseDomains_2 :
  (let d : Fin 4 := 3
   let s : State := at' [(F.PHS_PD_STAT_STATE 3, 1), (F.PHS_PD_TO_ACQ_TO 3, 200)]
   (s.running 5 = true) ∧ (d.val < s.phs.length) ∧ (let limit := s.get (F.PHS_PD_TO_ACQ_TO d.val)
   let u : State := State.setPd (State.until (at' [(F.PHS_PD_STAT_STATE 3, 1), (F.PHS_PD_TO_ACQ_TO 3, 200)]) 2000000000) 3 { acqOut := true }
   (s.get (F.PHS_PD_STAT_STATE d.val) = 1) ∧ (limit ≠ 0) ∧ ((s.pd d.val).acqOut = false) ∧ (u = (s.until ((s.pd d.val).acqAt + 10000000 * limit)).setPd d.val { s.pd d.val with acqOut := true }) ∧ (u.countsOnly (19 + 4 * d.val) = true))) ∧
  (let d : Fin 4 := 3
   let s : State := live
   (s.running 5 = true) ∧ (d.val < s.phs.length) ∧ (let limit := s.get (F.PHS_PD_TO_ACQ_TO d.val)
   (s.get (F.PHS_PD_STAT_STATE d.val) ≠ 1 ∨ limit = 0 ∨ (s.pd d.val).acqOut = true))) ∧
  (let d : Fin 4 := 3
   let s : State := live
   (s.running 5 = true) ∧ (d.val < s.phs.length) ∧ (s.locked d.val = false)) ∧
  (let d : Fin 4 := 3
   let s : State := ({ at' [(F.PHS_PD_STAT_STATE 3, 2)] with phs := [{}, {}, {}, { w := 0x200000000, obs := 9, tLast := 5 }] } : State).setSeq 2 { wait := some (.phase 5 7 0 3) }
   (s.running 5 = true) ∧ (d.val < s.phs.length) ∧ (s.locked d.val = true) ∧ (s.countsOnly (16 + 4 * d.val) = true)) := by
  refine ⟨?_, ?_, ?_, ?_⟩ <;> decide +kernel

theorem wit_PulsePerSecond :
  (let s : State := at' [(F.TIME_PPS_CTL_OUT_MODE, 3), (F.TIME_PPS_CTL_WIDTH, 1023), (F.TIME_PORT_COMP_EGR 7, 0xFFF0)]
   (s.running 5 = true) ∧ (let mode := s.get F.TIME_PPS_CTL_OUT_MODE
   let active := mode = 2 ∨ mode = 3 ∨ (mode = 1 ∧ s.on F.TIME_TBN_CTL_LOCKED = true)
   (active))) ∧
  (let s : State := at' [(F.TIME_PPS_CTL_OUT_MODE, 1)]
   (s.running 5 = true) ∧ (let mode := s.get F.TIME_PPS_CTL_OUT_MODE
   let active := mode = 2 ∨ mode = 3 ∨ (mode = 1 ∧ s.on F.TIME_TBN_CTL_LOCKED = true)
   (¬active))) ∧
  (let s : State := at' [(F.TIME_PPS_CTL_OUT_MODE, 3), (F.TIME_PORT_COMP_EGR 7, 0xFFF0)]
   (s.running 5 = true) ∧ (let mode := s.get F.TIME_PPS_CTL_OUT_MODE
   (mode = 3))) ∧
  (let falling : Bool := true
   let t : Nat := 1000000500
   let s : State := at' [(F.TIME_PPS_CTL_IN_EN, 1), (F.TIME_PPS_CTL_IN_FALL, 1)]
   (s.running 5 = true) ∧ (let stamp := s.stampIn 7 t
   let tbn := s.tbnAt (stamp * 2 ^ 32) / 2 ^ 32
   let off := min (tbn % 1000000000) (1000000000 - tbn % 1000000000)
   let far := s.on F.TIME_TBN_CTL_LOCKED = true ∧ 1000 * s.get F.TIME_PPS_CTL_PPS_TOL < off
   let right := s.on F.TIME_PPS_CTL_IN_EN = true ∧ s.on F.TIME_PPS_CTL_IN_FALL = falling
   (right) ∧ (¬far))) ∧
  (let falling : Bool := true
   let t : Nat := 1500000500
   let s : State := at' [(F.TIME_PPS_CTL_IN_EN, 1), (F.TIME_PPS_CTL_IN_FALL, 1), (F.TIME_TBN_CTL_LOCKED, 1)]
   (s.running 5 = true) ∧ (let v := s.until t
   let stamp := s.stampIn 7 t
   let tbn := s.tbnAt (stamp * 2 ^ 32) / 2 ^ 32
   let off := min (tbn % 1000000000) (1000000000 - tbn % 1000000000)
   let far := s.on F.TIME_TBN_CTL_LOCKED = true ∧ 1000 * s.get F.TIME_PPS_CTL_PPS_TOL < off
   let w := ((v.put F.TIME_PPS_CAP_TBM_NS stamp).put F.TIME_PPS_CAP_TBN_NS tbn).addWrap F.TIME_PPS_CNT_EDGES 1
   let w : State := { w with time := { w.time with ppsLast := t, ppsLost := false } }
   let right := s.on F.TIME_PPS_CTL_IN_EN = true ∧ s.on F.TIME_PPS_CTL_IN_FALL = falling
   (right) ∧ (far) ∧ (w.countsOnly 4 = true))) ∧
  (let falling : Bool := false
   let s : State := at' [(F.TIME_PPS_CTL_IN_EN, 1), (F.TIME_PPS_CTL_IN_FALL, 1), (F.TIME_TBN_CTL_LOCKED, 1)]
   (s.running 5 = true) ∧ (let right := s.on F.TIME_PPS_CTL_IN_EN = true ∧ s.on F.TIME_PPS_CTL_IN_FALL = falling
   (¬right))) ∧
  (let s : State := { at' [(F.TIME_PPS_CTL_IN_EN, 1)] with time := { tbm := 2 ^ 32, ppsLast := 7 } }
   (s.running 5 = true) ∧ (let v := s.until (s.time.ppsLast + 2000000000)
   let w : State := { v with time := { v.time with ppsLost := true } }
   (s.on F.TIME_PPS_CTL_IN_EN = true) ∧ (s.time.ppsLost = false) ∧ (w.countsOnly 3 = true))) := by
  refine ⟨?_, ?_, ?_, ?_, ?_, ?_, ?_⟩ <;> decide +kernel

theorem wit_PulsePerSecond_2 :
  (let s : State := live
   (s.running 5 = true) ∧ (s.on F.TIME_PPS_CTL_IN_EN = false ∨ s.time.ppsLost = true)) := by
  decide +kernel

theorem wit_CopperLinks :
  (let who : Fin 4 := 0
   let c : Fin 2 := 1
   let v : Word := 0x734
   let ok : Bool := true
   let s : State := { at' [(F.CU_STAT_UP 1, 1), (F.CU_CTL_MODE 1, 2), (F.CU_LEN_M 1, 9)] with ctl := { boot := none, fronts := [5] } }
   (s.takes who.val 12 = true) ∧ (c.val < s.cu.length) ∧ (s.on (F.FEDS_LINK_STAT_UP c.val) = false) ∧ (ok = true ∨ s.countsOnly (291 + 16 * c.val) = true) ∧ (let m := if fldOf v (F.CU_CTL_MODE c.val) < 5 then fldOf v (F.CU_CTL_MODE c.val) else 0
   (m ≠ s.cuMode c.val))) ∧
  (let who : Fin 4 := 0
   let c : Fin 2 := 1
   let v : Word := 0x731
   let ok : Bool := false
   let s : State := { at' [(F.CU_CTL_MODE 1, 1)] with ctl := { boot := none, fronts := [5] } }
   (s.takes who.val 12 = true) ∧ (c.val < s.cu.length) ∧ (s.on (F.FEDS_LINK_STAT_UP c.val) = false) ∧ (ok = true ∨ s.countsOnly (291 + 16 * c.val) = true) ∧ (let m := if fldOf v (F.CU_CTL_MODE c.val) < 5 then fldOf v (F.CU_CTL_MODE c.val) else 0
   (m = s.cuMode c.val) ∧ (bit v.toNat 3 = false))) ∧
  (let who : Fin 4 := 0
   let c : Fin 2 := 1
   let ok : Bool := false
   let s : State := { at' [(F.CU_CTL_MODE 1, 1), (F.FLT_CLASS_CFG01_ENTRY 0, 0)] with ctl := { boot := none, fronts := [5] } }
   (s.takes who.val 12 = true) ∧ (c.val < s.cu.length) ∧ (s.on (F.FEDS_LINK_STAT_UP c.val) = false) ∧ (ok = true ∨ s.countsOnly (291 + 16 * c.val) = true)) ∧
  (let c : Fin 2 := 1
   let rate : Fin 8 := 4
   let len : Nat := 100
   let s : State := at' [(F.CU_STAT_PHASE 1, 6)]
   (s.running 12 = true) ∧ (c.val < s.cu.length) ∧ (let resolves := s.cuPhase c.val = 6 ∧ s.cuUp c.val = false ∧ 1 ≤ rate.val ∧ rate.val ≤ 4 ∧ s.fbit (F.CU_AN_ADV_RATES c.val) (rate.val - 1) = true
   (resolves) ∧ (len < 1024))) ∧
  (let c : Fin 2 := 1
   let rate : Fin 8 := 5
   let s : State := at' [(F.CU_STAT_PHASE 1, 6)]
   (s.running 12 = true) ∧ (c.val < s.cu.length) ∧ (let resolves := s.cuPhase c.val = 6 ∧ s.cuUp c.val = false ∧ 1 ≤ rate.val ∧ rate.val ≤ 4 ∧ s.fbit (F.CU_AN_ADV_RATES c.val) (rate.val - 1) = true
   (¬resolves))) ∧
  (let c : Fin 2 := 1
   let l : CuLoss := .fast
   let s : State := { at' [(F.CU_STAT_UP 1, 1), (F.CU_CTL_MODE 1, 1), (F.CU_STAT_RATE 1, 4), (F.CU_CTL_FRT 1, 1)] with ctl := { boot := none, fronts := [5] } }
   (s.running 12 = true) ∧ (c.val < s.cu.length) ∧ (let rate := s.get (F.CU_STAT_RATE c.val)
   let up := s.cuUp c.val = true ∧ 1 ≤ rate ∧ rate ≤ 4
   let retrains := l = .fast ∧ s.on (F.CU_CTL_FRT c.val) = true ∧ 2 ≤ rate
   (up) ∧ (retrains) ∧ ((s.bump (F.CU_PCSCNT_FRT c.val) 1).countsOnly (295 + 16 * c.val) = true))) ∧
  (let c : Fin 2 := 1
   let l : CuLoss := .coef
   let s : State := { at' [(F.CU_STAT_UP 1, 1), (F.FLT_CLASS_CFG01_ENTRY 1, 0), (F.CU_CTL_MODE 1, 1), (F.CU_STAT_RATE 1, 1), (F.CU_CTL_FRT 1, 1)] with ctl := { boot := none, fronts := [5] } }
   (s.running 12 = true) ∧ (c.val < s.cu.length) ∧ (let rate := s.get (F.CU_STAT_RATE c.val)
   let up := s.cuUp c.val = true ∧ 1 ≤ rate ∧ rate ≤ 4
   let retrains := l = .fast ∧ s.on (F.CU_CTL_FRT c.val) = true ∧ 2 ≤ rate
   (up) ∧ (¬retrains) ∧ (s.cuMode c.val = 1) ∧ (s.on (F.FEDS_LINK_STAT_UP c.val) = false) ∧ (let source := if l = .coef then 288 + 16 * c.val else 289 + 16 * c.val
   (s.countsOnly source = true)))) := by
  refine ⟨?_, ?_, ?_, ?_, ?_, ?_, ?_⟩ <;> decide +kernel

theorem wit_CopperLinks_2 :
  (let c : Fin 2 := 1
   let s : State := live
   (s.running 12 = true) ∧ (c.val < s.cu.length) ∧ (let rate := s.get (F.CU_STAT_RATE c.val)
   let up := s.cuUp c.val = true ∧ 1 ≤ rate ∧ rate ≤ 4
   (¬up))) ∧
  (let who : Fin 4 := 0
   let c : Fin 2 := 1
   let s : State := live
   (s.takes who.val 12 = true) ∧ (c.val < s.cu.length) ∧ ((s.cup c.val).diag = none) ∧ (s.cuMode c.val = 0)) ∧
  (let who : Fin 4 := 0
   let c : Fin 2 := 1
   let s : State := at' [(F.CU_CTL_MODE 1, 2)]
   (s.takes who.val 12 = true) ∧ (c.val < s.cu.length) ∧ ((s.cup c.val).diag = none) ∧ (s.cuMode c.val ≠ 0)) ∧
  (let who : Fin 4 := 0
   let c : Fin 2 := 1
   let s : State := { live with cu := [{}, { diag := some 5 }] }
   (s.takes who.val 12 = true) ∧ (c.val < s.cu.length) ∧ ((s.cup c.val).diag ≠ none)) ∧
  (let c : Fin 2 := 1
   let s : State := { live with cu := [{}, { diag := some 5 }] }
   (s.running 12 = true) ∧ (c.val < s.cu.length) ∧ (let pairs : Nat := 5
   ((s.cup c.val).diag = some pairs) ∧ (s.countsOnly (294 + 16 * c.val) = true))) ∧
  (let c : Fin 2 := 1
   let s : State := live
   (s.running 12 = true) ∧ (c.val < s.cu.length) ∧ ((s.cup c.val).diag = none)) := by
  refine ⟨?_, ?_, ?_, ?_, ?_, ?_⟩ <;> decide +kernel

theorem wit_CopperFrames :
  (let c : Fin 2 := 1
   let s : State := live
   (s.quiet = true) ∧ (c.val < s.cu.length) ∧ (s.cuUp c.val = false)) ∧
  (let c : Fin 2 := 1
   let bytes : List Byte := List.replicate 59 7
   let fcs : Bool := true
   let s : State := at' [(F.CU_STAT_UP 1, 1), (F.CU_STAT_RATE 1, 5)]
   (s.quiet = true) ∧ (c.val < s.cu.length) ∧ (let good := fcs = true ∧ 64 ≤ bytes.length + 4 ∧ bytes.length + 4 ≤ s.cuMaxLen c.val
   (s.cuUp c.val = true) ∧ (¬good))) ∧
  (let c : Fin 2 := 1
   let bytes : List Byte := [0x01, 0x80, 0xC2, 0x00, 0x00, 0x01, 0, 0, 0, 0, 0, 0, 0x88, 0x08, 0x00, 0x01, 0x12, 0x34] ++ List.replicate 42 0
   let fcs : Bool := true
   let s : State := at' [(F.CU_STAT_UP 1, 1), (F.CU_STAT_RATE 1, 5)]
   (s.quiet = true) ∧ (c.val < s.cu.length) ∧ (let good := fcs = true ∧ 64 ≤ bytes.length + 4 ∧ bytes.length + 4 ≤ s.cuMaxLen c.val
   (s.cuUp c.val = true) ∧ (good) ∧ (let q : Nat := 0x1234
   (pauseQuanta bytes = some q)))) ∧
  (let c : Fin 2 := 1
   let bytes : List Byte := List.replicate 60 7
   let t : Nat := 1000000005
   let fcs : Bool := true
   let s : State := { at' [(F.CU_STAT_UP 1, 1), (F.CU_MAXLEN_LEN 1, 200)] with prs := { input := List.replicate 28 { port := 1, bytes := List.replicate 9361 7 } } }
   (s.quiet = true) ∧ (c.val < s.cu.length) ∧ (let v := s.until t
   let good := fcs = true ∧ 64 ≤ bytes.length + 4 ∧ bytes.length + 4 ≤ s.cuMaxLen c.val
   let fits := s.cuHeld c.val + bytes.length + 4 ≤ 0x40000
   (s.cuUp c.val = true) ∧ (good) ∧ (pauseQuanta bytes = none) ∧ (¬fits) ∧ ((v.bump (F.CU_MACCNT_RXOVF c.val) 1).countsOnly (292 + 16 * c.val) = true))) ∧
  (let c : Fin 2 := 1
   let bytes : List Byte := List.replicate 60 7
   let t : Nat := 1000000005
   let fcs : Bool := true
   let k : Check := .lasting
   let s : State := at' [(F.CU_STAT_UP 1, 1)]
   (s.quiet = true) ∧ (c.val < s.cu.length) ∧ (let v := s.until t
   let good := fcs = true ∧ 64 ≤ bytes.length + 4 ∧ bytes.length + 4 ≤ s.cuMaxLen c.val
   let fits := s.cuHeld c.val + bytes.length + 4 ≤ 0x40000
   (s.cuUp c.val = true) ∧ (good) ∧ (pauseQuanta bytes = none) ∧ (fits) ∧ (k = .lasting) ∧ (v.countsOnly (296 + 16 * c.val) = true))) ∧
  (let c : Fin 2 := 1
   let bytes : List Byte := List.replicate 60 7
   let t : Nat := 1000000005
   let fcs : Bool := true
   let k : Check := .corrected
   let s : State := at' [(F.CU_STAT_UP 1, 1)]
   (s.quiet = true) ∧ (c.val < s.cu.length) ∧ (let v := s.until t
   let good := fcs = true ∧ 64 ≤ bytes.length + 4 ∧ bytes.length + 4 ≤ s.cuMaxLen c.val
   let fits := s.cuHeld c.val + bytes.length + 4 ≤ 0x40000
   let p : Packet := { bytes := bytes, port := c.val, start := 0, stamp := s.stampIn (4 + c.val) t, ref := s.prs.nextRef }
   let w := ({ v with prs := { s.prs with nextRef := s.prs.nextRef + 1, input := s.prs.input ++ [p] } } : State).cuRxLevel c.val
   (s.cuUp c.val = true) ∧ (good) ∧ (pauseQuanta bytes = none) ∧ (fits) ∧ (k ≠ .lasting) ∧ (w.quiet = true))) ∧
  (let c : Nat := 1
   let s : State := live
   (c < s.cu.length) ∧ (let e : Nat := 0
   (e ≠ c))) := by
  refine ⟨?_, ?_, ?_, ?_, ?_, ?_, ?_⟩ <;> decide +kernel

theorem wit_CopperFrames_2 :
  (let c : Nat := 1
   let s : State := { at' [(F.CU_STAT_UP 1, 1), (F.CU_STAT_RATE 1, 5), (F.CU_CTL_TXPAUSE 1, 1), (F.CU_PAUSE_TH_XOFF 1, 0)] with prs := { input := [{ port := 1, bytes := [7] }] } }
   (c < s.cu.length) ∧ (let held := s.cuHeld c
   let paused := (s.cup c).paused
   (paused = 0) ∧ (1024 * s.get (F.CU_PAUSE_TH_XOFF c) < held) ∧ (s.mayPause c true = true))) ∧
  (let c : Nat := 1
   let s : State := { at' [(F.CU_STAT_UP 1, 1), (F.CU_STAT_RATE 1, 5), (F.CU_CTL_TXPAUSE 1, 1)] with cu := [{}, { paused := 900000000 }] }
   (c < s.cu.length) ∧ (let held := s.cuHeld c
   let paused := (s.cup c).paused
   (paused ≠ 0) ∧ (held < 1024 * s.get (F.CU_PAUSE_TH_XON c)))) ∧
  (let c : Nat := 1
   let s : State := { at' [(F.CU_STAT_UP 1, 1), (F.CU_STAT_RATE 1, 5), (F.CU_CTL_TXPAUSE 1, 1)] with cu := [{}, { paused := 900000000 }] }
   (c < s.cu.length)) ∧
  (let c : Fin 2 := 1
   let s : State := { at' [(F.CU_STAT_UP 1, 1), (F.CU_STAT_RATE 1, 5)] with cu := [{}, { stopTo := 1000000009 }] }
   (s.running 12 = true) ∧ (c.val < s.cu.length) ∧ ((s.cup c.val).stopTo ≠ 0)) ∧
  (let c : Fin 2 := 1
   let s : State := live
   (s.running 12 = true) ∧ (c.val < s.cu.length) ∧ ((s.cup c.val).stopTo = 0)) ∧
  (let c : Fin 2 := 1
   let s : State := { at' [(F.CU_STAT_UP 1, 1), (F.CU_STAT_RATE 1, 5), (F.CU_CTL_TXPAUSE 1, 1), (F.CU_PAUSE_TH_XON 1, 0)] with cu := [{}, { paused := 900000000 }], prs := { input := [{ port := 1, bytes := [7] }] } }
   (s.running 12 = true) ∧ (c.val < s.cu.length) ∧ (let again := (s.cup c.val).paused ≠ 0 ∧ s.mayPause c.val true = true
   (again))) ∧
  (let c : Fin 2 := 1
   let s : State := live
   (s.running 12 = true) ∧ (c.val < s.cu.length) ∧ (let again := (s.cup c.val).paused ≠ 0 ∧ s.mayPause c.val true = true
   (¬again))) := by
  refine ⟨?_, ?_, ?_, ?_, ?_, ?_, ?_⟩ <;> decide +kernel

theorem wit_CopperFrames_3 :
  (let c : Fin 2 := 1
   let port : Fin 3 := 1
   let t : Nat := 1000000005
   let s : State := live
   (s.quiet = true) ∧ (port.val = c.val) ∧ (let sends := s.cuReady c.val = true ∧ ((s.cup c.val).stopTo = 0 ∨ t < (s.cup c.val).stopFrom)
   (¬sends ∨ s.hts.egress.all (fun x => x.kind != c.val) = true))) ∧
  (let c : Fin 2 := 1
   let port : Fin 3 := 1
   let t : Nat := 1000000005
   let k : Check := .good
   let s : State := { at' [(F.CU_STAT_UP 1, 1), (F.HTS_EG_LVL_PKTS 1, 2)] with hts := { egress := [{ kind := 0 }, { kind := 1 }, { kind := 1 }] }, cu := [{}, { stopTo := 2000000000, stopFrom := 1000000006 }] }
   (s.quiet = true) ∧ (port.val = c.val) ∧ (let sends := s.cuReady c.val = true ∧ ((s.cup c.val).stopTo = 0 ∨ t < (s.cup c.val).stopFrom)
   let it : EgItem := { kind := 1 }
   let l1 : List EgItem := [{ kind := 0 }]
   let l2 : List EgItem := [{ kind := 1 }]
   (sends) ∧ (s.hts.egress = l1 ++ it :: l2) ∧ ((∀ x : EgItem, x ∈ l1 → x.kind ≠ c.val)) ∧ (it.kind = c.val) ∧ (let u := ({ s.until t with hts := { s.hts with egress := l1 ++ l2 } } : State).egressFall c.val 1
   let v := if 5 ≤ s.get (F.CU_STAT_RATE c.val) then u.lrSend c.val it.pkt.bytes else u
   let w := match ptpEvent it.pkt.bytes with | some m => v.egtsPush c.val (v.egEntry c.val t m) | none => v
   (k ≠ .lasting) ∧ (w.quiet = true)))) ∧
  (let c : Fin 2 := 1
   let port : Fin 3 := 1
   let t : Nat := 1000000005
   let k : Check := .lasting
   let s : State := { at' [(F.CU_STAT_UP 1, 1), (F.HTS_EG_LVL_PKTS 1, 2)] with hts := { egress := [{ kind := 0 }, { kind := 1 }, { kind := 1 }] }, cu := [{}, { stopTo := 2000000000, stopFrom := 1000000006 }] }
   (s.quiet = true) ∧ (port.val = c.val) ∧ (let sends := s.cuReady c.val = true ∧ ((s.cup c.val).stopTo = 0 ∨ t < (s.cup c.val).stopFrom)
   let it : EgItem := { kind := 1 }
   let l1 : List EgItem := [{ kind := 0 }]
   let l2 : List EgItem := [{ kind := 1 }]
   (sends) ∧ (s.hts.egress = l1 ++ it :: l2) ∧ ((∀ x : EgItem, x ∈ l1 → x.kind ≠ c.val)) ∧ (it.kind = c.val) ∧ (let u := ({ s.until t with hts := { s.hts with egress := l1 ++ l2 } } : State).egressFall c.val 1
   (k = .lasting) ∧ (u.countsOnly (296 + 16 * c.val) = true)))) ∧
  (let kind : Nat := 5
   (kind < 6) ∧ (let j : Nat := 0
   (j < 6) ∧ (j ≠ kind))) ∧
  (let kind : Nat := 5
   (kind < 6)) := by
  refine ⟨?_, ?_, ?_, ?_, ?_⟩ <;> decide +kernel

theorem wit_LrTraining :
  (let c : Fin 2 := 1
   let v : BitVec 64 := 0x1000001FE20
   let s : State := { at' [(F.CU_STAT_PHASE 1, 0)] with cu := [{}, { lr := { step := 4 } }] }
   (s.running 12 = true) ∧ (c.val < s.cu.length) ∧ (let w := State.copperLoss s (s.lrInfo c.val v.toNat)
   (w.quiet = true))) ∧
  (let c : Fin 2 := 1
   let v : BitVec 64 := 0x1000001FE20
   let s : State := { at' [(F.CU_STAT_PHASE 1, 0)] with cu := [{}, { lr := { step := 4 } }] }
   (s.running 12 = true) ∧ (c.val < s.cu.length) ∧ (let x := (s.cup c.val).lr
   let mode := bits v.toNat 6 5
   let usable := (mode = 1 ∨ mode = 2) ∧ bit v.toNat (if x.step < 3 then 41 else 40) = true
   (s.cuPhase c.val = 0) ∧ (bits v.toNat 3 0 = 0) ∧ (usable) ∧ (x.heard = false ∨ bit v.toNat 4 = false))) ∧
  (let c : Fin 2 := 1
   let v : BitVec 64 := 0x1000001FFB0
   let s : State := { at' [(F.CU_STAT_PHASE 1, 0)] with cu := [{}, { lr := { step := 4, heard := true, seed := 5 } }] }
   (s.running 12 = true) ∧ (c.val < s.cu.length) ∧ (let x := (s.cup c.val).lr
   let mode := bits v.toNat 6 5
   let usable := (mode = 1 ∨ mode = 2) ∧ bit v.toNat (if x.step < 3 then 41 else 40) = true
   let role := s.get (F.CU_CTL_ROLE c.val)
   (s.cuPhase c.val = 0) ∧ (bits v.toNat 3 0 = 0) ∧ (usable) ∧ (x.heard = true) ∧ (bit v.toNat 4 = true) ∧ (x.seed ≠ bits v.toNat 24 9 ∨ role = 1 ∨ role = 2))) ∧
  (let c : Fin 2 := 1
   let v : BitVec 64 := 0x0123456700005202
   let s : State := at' [(F.CU_STAT_PHASE 1, 3)]
   (s.running 12 = true) ∧ (c.val < s.cu.length) ∧ (s.cuPhase c.val = 3) ∧ (bits v.toNat 3 0 = 2)) ∧
  (let c : Fin 2 := 1
   let ok : Bool := true
   let mdix : Bool := true
   let snr : BitVec 32 := 0x0C0C0C0C
   let len : Nat := 90
   let s : State := { at' [(F.CU_STAT_PHASE 1, 3)] with cu := [{}, { lr := { step := 5, phaseAt := 1000000000 } }] }
   (s.running 12 = true) ∧ (c.val < s.cu.length) ∧ (let w := State.copperLoss s (s.lrPhaseEnd c.val ok mdix snr.toNat len)
   (w.quiet = true))) ∧
  (let c : Fin 2 := 1
   let s : State := live
   (s.running 12 = true) ∧ (c.val < s.cu.length) ∧ (let x := (s.cup c.val).lr
   let p := s.cuPhase c.val
   let runs := x.retrain = false ∧ x.okSent = false
   (p = 0 ∨ 5 ≤ p ∨ ¬runs))) ∧
  (let c : Fin 2 := 1
   let ok : Bool := true
   let s : State := { at' [(F.CU_STAT_PHASE 1, 3)] with cu := [{}, { lr := { step := 5, phaseAt := 1000000000 } }] }
   (s.running 12 = true) ∧ (c.val < s.cu.length) ∧ (let x := (s.cup c.val).lr
   let p := s.cuPhase c.val
   let runs := x.retrain = false ∧ x.okSent = false
   (runs) ∧ (ok = true) ∧ (1 ≤ p) ∧ (p ≤ 3))) := by
  refine ⟨?_, ?_, ?_, ?_, ?_, ?_, ?_⟩ <;> decide +kernel

theorem wit_LrTraining_2 :
  (let c : Fin 2 := 1
   let ok : Bool := true
   let snr : BitVec 32 := 0x0C0C0C0C
   let s : State := { at' [(F.CU_STAT_PHASE 1, 4)] with cu := [{}, { lr := { step := 5, phaseAt := 1000000000 } }] }
   (s.running 12 = true) ∧ (c.val < s.cu.length) ∧ (let x := (s.cup c.val).lr
   let p := s.cuPhase c.val
   let runs := x.retrain = false ∧ x.okSent = false
   (runs) ∧ (ok = true) ∧ (p = 4) ∧ (s.marginOk c.val snr.toNat = true) ∧ (x.okRecv = false))) ∧
  (let c : Fin 2 := 1
   let v : BitVec 48 := BitVec.ofNat 48 (1 + 2 ^ 32 * lrCrc16 (bitList 1 32))
   let s : State := { at' [(F.CU_STAT_PHASE 1, 4)] with cu := [{}, { lr := { step := 2, okSent := true, len := 99 } }] }
   (s.running 12 = true) ∧ (c.val < s.cu.length) ∧ (let w := State.copperLoss s (s.lrOam c.val v.toNat)
   (w.quiet = true))) ∧
  (let c : Fin 2 := 1
   let v : BitVec 48 := 0
   let s : State := { at' [(F.CU_STAT_PHASE 1, 4)] with cu := [{}, { lr := { step := 2, okSent := true, len := 99 } }] }
   (s.running 12 = true) ∧ (c.val < s.cu.length) ∧ (let crcGood := lrCrc16 (bitList v.toNat 32) = bits v.toNat 47 32
   (¬crcGood ∨ 4 < bits v.toNat 3 0))) ∧
  (let c : Fin 2 := 1
   let v : BitVec 48 := BitVec.ofNat 48 (1 + 2 ^ 32 * lrCrc16 (bitList 1 32))
   let s : State := { at' [(F.CU_STAT_PHASE 1, 4)] with cu := [{}, { lr := { step := 2, okSent := true, len := 99 } }] }
   (s.running 12 = true) ∧ (c.val < s.cu.length) ∧ (let x := (s.cup c.val).lr
   let crcGood := lrCrc16 (bitList v.toNat 32) = bits v.toNat 47 32
   (crcGood) ∧ (bits v.toNat 3 0 = 1) ∧ (s.cuPhase c.val = 4) ∧ (x.retrain = false) ∧ (x.step < 6) ∧ (x.okSent = true))) ∧
  (let c : Fin 2 := 1
   let v : BitVec 48 := BitVec.ofNat 48 (1 + 2 ^ 32 * lrCrc16 (bitList 1 32))
   let s : State := { at' [(F.CU_STAT_PHASE 1, 4)] with cu := [{}, { lr := { step := 2 } }] }
   (s.running 12 = true) ∧ (c.val < s.cu.length) ∧ (let x := (s.cup c.val).lr
   let crcGood := lrCrc16 (bitList v.toNat 32) = bits v.toNat 47 32
   (crcGood) ∧ (bits v.toNat 3 0 = 1) ∧ (s.cuPhase c.val = 4) ∧ (x.retrain = true ∨ x.okSent = false))) ∧
  (let c : Fin 2 := 1
   let s : State := { at' [(F.CU_STAT_PHASE 1, 0)] with cu := [{}, { lr := { heardAt := 500000000 } }] }
   (s.running 12 = true) ∧ (c.val < s.cu.length) ∧ (s.cuPhase c.val = 0) ∧ (s.countsOnly (290 + 16 * c.val) = true)) ∧
  (let c : Fin 2 := 1
   let s : State := live
   (s.running 12 = true) ∧ (c.val < s.cu.length) ∧ (s.cuPhase c.val ≠ 0)) := by
  refine ⟨?_, ?_, ?_, ?_, ?_, ?_, ?_⟩ <;> decide +kernel

theorem wit_LrTraining_3 :
  (let c : Fin 2 := 1
   let word : List Bool := ldpcEncode (List.replicate 1632 false ++ (List.range 32).map (fun k => bit (lrCrc32 (List.replicate 1632 false)) (31 - k)))
   let dec : List Bool := []
   let coef : Check := .good
   let start : Bool := false
   let s : State := at' [(F.CU_STAT_PHASE 1, 5), (F.CU_STAT_UP 1, 1)]
   (s.running 12 = true) ∧ (c.val < s.cu.length) ∧ (let w := State.copperLoss s (s.lrCodeFrame c.val word dec coef start)
   (w.quiet = true))) ∧
  (let c : Fin 2 := 1
   let s : State := live
   (s.running 12 = true) ∧ (c.val < s.cu.length) ∧ (let inData := s.cuPhase c.val = 5 ∧ s.cuUp c.val = true
   (¬inData))) ∧
  (let c : Fin 2 := 1
   let word : List Bool := ldpcEncode (List.replicate 1632 false ++ (List.range 32).map (fun k => bit (lrCrc32 (List.replicate 1632 false)) (31 - k)))
   let dec : List Bool := []
   let coef : Check := .good
   let start : Bool := false
   let s : State := at' [(F.CU_STAT_PHASE 1, 5), (F.CU_STAT_UP 1, 1)]
   (s.running 12 = true) ∧ (c.val < s.cu.length) ∧ (let f := lrDecoded word dec
   let x := (s.cup c.val).lr.took f start
   let inData := s.cuPhase c.val = 5 ∧ s.cuUp c.val = true
   let lost := max 1 (s.get (F.CU_MARGIN_FRAME_LOSS c.val)) ≤ x.bad ∨ 16 ≤ x.noMark
   (inData) ∧ (coef ≠ .lasting) ∧ (¬lost) ∧ ((∀ o, x.oam = some o → o.length ≠ 48)))) ∧
  (let c : Fin 2 := 1
   let word : List Bool := List.replicate 2560 true
   let dec : List Bool := [true]
   let coef : Check := .good
   let start : Bool := false
   let s : State := at' [(F.CU_STAT_PHASE 1, 5), (F.CU_STAT_UP 1, 1), (F.CU_MARGIN_FRAME_LOSS 1, 0)]
   (s.running 12 = true) ∧ (c.val < s.cu.length) ∧ (let f := lrDecoded word dec
   let x := (s.cup c.val).lr.took f start
   let inData := s.cuPhase c.val = 5 ∧ s.cuUp c.val = true
   let lost := max 1 (s.get (F.CU_MARGIN_FRAME_LOSS c.val)) ≤ x.bad ∨ 16 ≤ x.noMark
   (inData) ∧ (coef ≠ .lasting) ∧ (lost) ∧ (s.on (F.CU_CTL_FRT c.val) = true) ∧ (s.countsOnly (295 + 16 * c.val) = true))) ∧
  (let c : Fin 2 := 1
   let word : List Bool := List.replicate 2560 true
   let dec : List Bool := [true]
   let coef : Check := .good
   let start : Bool := false
   let s : State := at' [(F.CU_STAT_PHASE 1, 5), (F.CU_STAT_UP 1, 1), (F.CU_MARGIN_FRAME_LOSS 1, 0), (F.CU_CTL_FRT 1, 0)]
   (s.running 12 = true) ∧ (c.val < s.cu.length) ∧ (let f := lrDecoded word dec
   let x := (s.cup c.val).lr.took f start
   let inData := s.cuPhase c.val = 5 ∧ s.cuUp c.val = true
   let lost := max 1 (s.get (F.CU_MARGIN_FRAME_LOSS c.val)) ≤ x.bad ∨ 16 ≤ x.noMark
   (inData) ∧ (coef ≠ .lasting) ∧ (lost) ∧ (s.on (F.CU_CTL_FRT c.val) = false) ∧ (s.cuMode c.val ≠ 1) ∧ (s.countsOnly (289 + 16 * c.val) = true) ∧ (s.on (F.FEDS_LINK_STAT_UP c.val) = false))) ∧
  (let f : List Bool := List.replicate 1632 false ++ (List.range 32).map (fun k => bit (lrCrc32 (List.replicate 1632 false)) (31 - k))
   (frameOk f = true)) ∧
  (let f : List Bool := [true]
   (frameOk f = false)) := by
  refine ⟨?_, ?_, ?_, ?_, ?_, ?_, ?_⟩ <;> decide +kernel

theorem wit_LrTraining_4 :
  (let c : Fin 2 := 1
   let snr : BitVec 32 := 0x0C0C0C0C
   let len : Nat := 90
   let partner : Bool := true
   let s : State := { at' [(F.CU_STAT_PHASE 1, 4), (F.CU_STAT_UP 1, 1)] with cu := [{}, { lr := { step := 5, phaseAt := 1000000000, retrain := true } }] }
   (s.running 12 = true) ∧ (c.val < s.cu.length) ∧ (let w := State.copperLoss s (s.lrRetrainEnd c.val snr.toNat len partner)
   (w.quiet = true))) ∧
  (let c : Fin 2 := 1
   let s : State := live
   (s.running 12 = true) ∧ (c.val < s.cu.length) ∧ (let x := (s.cup c.val).lr
   (x.retrain = false ∨ s.cuPhase c.val ≠ 4))) ∧
  (let c : Fin 2 := 1
   let snr : BitVec 32 := 0x0C0C0C0C
   let partner : Bool := true
   let s : State := { at' [(F.CU_STAT_PHASE 1, 4), (F.CU_STAT_UP 1, 1)] with cu := [{}, { lr := { step := 5, phaseAt := 1000000000, retrain := true } }] }
   (s.running 12 = true) ∧ (c.val < s.cu.length) ∧ (let x := (s.cup c.val).lr
   (x.retrain = true) ∧ (s.cuPhase c.val = 4) ∧ (partner = true) ∧ (s.marginOk c.val snr.toNat = true))) := by
  refine ⟨?_, ?_, ?_⟩ <;> decide +kernel

theorem wit_LrCode :
  (let v : List Bool := (List.range 1664).map (fun k => bit (k * k * 2654435761) 12)
   (v.length = 1664) ∧ (let r : Nat := 6
   (r < 7))) ∧
  (let v : List Bool := (List.range 1664).map (fun k => bit (k * k * 2654435761) 12)
   (v.length = 1664)) ∧
  (let blocks : List (List Bool) := (List.range 25).map (fun i => (List.range 65).map (fun k => bit ((k + 65 * i) * (k + 65 * i) * 2654435761) 12))
   let oam : List Bool := [true, false, true, true, false, false]
   (blocks.length = 25) ∧ ((∀ b ∈ blocks, b.length = 65)) ∧ (oam.length = 6) ∧ (let k : Nat := 1663
   (k < 1664))) ∧
  (let blocks : List (List Bool) := (List.range 25).map (fun i => (List.range 65).map (fun k => bit ((k + 65 * i) * (k + 65 * i) * 2654435761) 12))
   let oam : List Bool := [true, false, true, true, false, false]
   (blocks.length = 25) ∧ ((∀ b ∈ blocks, b.length = 65)) ∧ (oam.length = 6)) ∧
  (let x : Nat := 12345
   (x < 2 ^ 58)) ∧
  (let msg : Nat := 3
   (msg < 16)) := by
  refine ⟨?_, ?_, ?_, ?_, ?_, ?_⟩ <;> decide +kernel

theorem wit_DmaChannels :
  (let who : Fin 4 := 0
   let c : Fin 64 := 63
   let v : Word := 0
   let s : State := at' [(F.DMA_CH_HEAD_PTR 63, 0x21), (F.DMA_CH_CTL_ERR 63, 1)]
   (s.takes who.val 5 = true) ∧ (s.on (F.DMA_CH_CTL_RUN c.val) = false) ∧ (bit v.toNat 1 = false)) ∧
  (let who : Fin 4 := 0
   let c : Fin 64 := 63
   let v : Word := 0
   let s : State := at' [(F.DMA_CH_CTL_RUN 63, 1)]
   (s.takes who.val 5 = true) ∧ (s.on (F.DMA_CH_CTL_RUN c.val) = true) ∧ (bit v.toNat 1 = false)) ∧
  (let who : Fin 4 := 0
   let c : Fin 64 := 63
   let v : Word := 2
   let s : State := State.setDch (at' [(F.DMA_CH_CTL_RUN 63, 1)]) 63 { ph := 1 }
   (s.takes who.val 5 = true) ∧ (s.on (F.DMA_CH_CTL_RUN c.val) = true) ∧ ((s.dch c.val).ph = 1) ∧ (bit v.toNat 0 = false)) ∧
  (let who : Fin 4 := 0
   let c : Fin 64 := 63
   let v : Word := 2
   let s : State := State.setDch (at' [(F.DMA_CH_CTL_RUN 63, 1)]) 63 { ph := 2 }
   (s.takes who.val 5 = true) ∧ (s.on (F.DMA_CH_CTL_RUN c.val) = true) ∧ ((s.dch c.val).ph ≠ 1) ∧ (bit v.toNat 0 = false)) ∧
  (let who : Fin 4 := 0
   let c : Fin 64 := 63
   let v : Word := 2
   let s : State := live
   (s.takes who.val 5 = true) ∧ (s.on (F.DMA_CH_CTL_RUN c.val) = false) ∧ (bit v.toNat 0 = false)) ∧
  (let c : Fin 64 := 63
   let s : State := live
   (s.running 5 = true) ∧ ((s.dch c.val).ph ≠ 1)) ∧
  (let c : Fin 64 := 63
   let s : State := State.setDch (at' [(F.DMA_CH_CTL_STOP 63, 1)]) 63 { ph := 1 }
   (s.running 5 = true) ∧ ((s.dch c.val).ph = 1) ∧ (s.on (F.DMA_CH_CTL_STOP c.val) = true)) := by
  refine ⟨?_, ?_, ?_, ?_, ?_, ?_, ?_⟩ <;> decide +kernel

theorem wit_DmaChannels_2 :
  (let c : Fin 64 := 63
   let ok : Bool := true
   let host : List Byte := []
   let s : State := State.setDch (State.gmAt (at' [(F.DMA_CH_CUR_PTR 63, 0x41)]) 0x40 (natLe (1 + 2 * 1 + 8 * 1 + 128) 4 ++ natLe 100 4 ++ natLe 0x1000 8 ++ natLe 0x2001 8 ++ natLe 0 8)) 63 { ph := 1 }
   (s.running 5 = true) ∧ (let p := s.get (F.DMA_CH_CUR_PTR c.val)
   let space := p % 4
   let a := p / 32 * 32
   let begins := (s.dch c.val).ph = 1 ∧ s.on (F.DMA_CH_CTL_STOP c.val) = false
   let named := space ≠ 3 ∧ s.dmaFits space a 32 = true
   let linked := space ≠ 2 ∨ s.on F.HST_LINK_UP = true
   let fetched := ok = true ∧ (space ≠ 0 ∨ s.xmDead = false)
   let d := if space = 2 then host ++ List.replicate (32 - host.length) 0 else s.dmaBytes space a 32
   let f : Nat → Nat → Nat := fun o n => leNat ((d.drop o).take n)
   let bad := s.dmaBadDesc (f 0 4) (f 4 4) (f 8 8) (f 16 8) (f 24 8)
   (begins) ∧ (named) ∧ (linked) ∧ (fetched) ∧ (bit (f 0 4) 0 = true) ∧ (bad = false))) ∧
  (let c : Fin 64 := 63
   let ok : Bool := true
   let host : List Byte := []
   let s : State := State.setDch (at' [(F.DMA_CH_CUR_PTR 63, 0x42)]) 63 { ph := 1 }
   (s.running 5 = true) ∧ (let p := s.get (F.DMA_CH_CUR_PTR c.val)
   let space := p % 4
   let a := p / 32 * 32
   let begins := (s.dch c.val).ph = 1 ∧ s.on (F.DMA_CH_CTL_STOP c.val) = false
   let named := space ≠ 3 ∧ s.dmaFits space a 32 = true
   let linked := space ≠ 2 ∨ s.on F.HST_LINK_UP = true
   let fetched := ok = true ∧ (space ≠ 0 ∨ s.xmDead = false)
   let d := if space = 2 then host ++ List.replicate (32 - host.length) 0 else s.dmaBytes space a 32
   let f : Nat → Nat → Nat := fun o n => leNat ((d.drop o).take n)
   (begins) ∧ (named) ∧ (linked) ∧ (fetched) ∧ (bit (f 0 4) 0 = false))) ∧
  (let c : Fin 64 := 63
   let ok : Bool := true
   let host : List Byte := []
   let s : State := State.setDch (State.gmAt (at' [(F.DMA_CH_CUR_PTR 63, 0x41)]) 0x40 (natLe 1 4 ++ natLe 0 4)) 63 { ph := 1 }
   (s.running 5 = true) ∧ (let p := s.get (F.DMA_CH_CUR_PTR c.val)
   let space := p % 4
   let a := p / 32 * 32
   let begins := (s.dch c.val).ph = 1 ∧ s.on (F.DMA_CH_CTL_STOP c.val) = false
   let named := space ≠ 3 ∧ s.dmaFits space a 32 = true
   let linked := space ≠ 2 ∨ s.on F.HST_LINK_UP = true
   let fetched := ok = true ∧ (space ≠ 0 ∨ s.xmDead = false)
   let d := if space = 2 then host ++ List.replicate (32 - host.length) 0 else s.dmaBytes space a 32
   let f : Nat → Nat → Nat := fun o n => leNat ((d.drop o).take n)
   let bad := s.dmaBadDesc (f 0 4) (f 4 4) (f 8 8) (f 16 8) (f 24 8)
   (begins) ∧ (named) ∧ (linked) ∧ (fetched) ∧ (bit (f 0 4) 0 = true) ∧ (bad = true) ∧ (s.countsOnly 530 = true))) ∧
  (let c : Fin 64 := 63
   let s : State := State.setDch (at' [(F.DMA_CH_CUR_PTR 63, 0x43)]) 63 { ph := 1 }
   (s.running 5 = true) ∧ (let p := s.get (F.DMA_CH_CUR_PTR c.val)
   let space := p % 4
   let a := p / 32 * 32
   let begins := (s.dch c.val).ph = 1 ∧ s.on (F.DMA_CH_CTL_STOP c.val) = false
   let named := space ≠ 3 ∧ s.dmaFits space a 32 = true
   (begins) ∧ (¬named) ∧ (s.countsOnly 530 = true))) ∧
  (let c : Fin 64 := 63
   let s : State := State.setDch (at' [(F.DMA_CH_CUR_PTR 63, 0x42), (F.HST_LINK_UP, 0)]) 63 { ph := 1 }
   (s.running 5 = true) ∧ (let p := s.get (F.DMA_CH_CUR_PTR c.val)
   let space := p % 4
   let a := p / 32 * 32
   let begins := (s.dch c.val).ph = 1 ∧ s.on (F.DMA_CH_CTL_STOP c.val) = false
   let named := space ≠ 3 ∧ s.dmaFits space a 32 = true
   let linked := space ≠ 2 ∨ s.on F.HST_LINK_UP = true
   (begins) ∧ (named) ∧ (¬linked) ∧ (s.countsOnly 531 = true))) ∧
  (let c : Fin 64 := 63
   let ok : Bool := false
   let s : State := State.setDch (at' [(F.DMA_CH_CUR_PTR 63, 0x41)]) 63 { ph := 1 }
   (s.running 5 = true) ∧ (let p := s.get (F.DMA_CH_CUR_PTR c.val)
   let space := p % 4
   let a := p / 32 * 32
   let begins := (s.dch c.val).ph = 1 ∧ s.on (F.DMA_CH_CTL_STOP c.val) = false
   let named := space ≠ 3 ∧ s.dmaFits space a 32 = true
   let linked := space ≠ 2 ∨ s.on F.HST_LINK_UP = true
   let fetched := ok = true ∧ (space ≠ 0 ∨ s.xmDead = false)
   (begins) ∧ (named) ∧ (linked) ∧ (¬fetched) ∧ (s.countsOnly 529 = true))) ∧
  (let c : Fin 64 := 63
   let s : State := live
   (s.running 5 = true) ∧ (let x := s.dch c.val
   (x.ph ≠ 3))) := by
  refine ⟨?_, ?_, ?_, ?_, ?_, ?_, ?_⟩ <;> decide +kernel

theorem wit_DmaChannels_3 :
  (let c : Fin 64 := 63
   let ok : Bool := true
   let s : State := State.setDch (at' [(F.DMA_CH_CUR_PTR 63, 0x41), (F.DMA_CH_CTL_STOP 63, 1)]) 63 { ph := 3, ctl := 0x7B, trans := true, next := 0x61 }
   (s.running 5 = true) ∧ (let p := s.get (F.DMA_CH_CUR_PTR c.val)
   let x := s.dch c.val
   let written := ok = true ∧ (p % 4 = 2 → s.on F.HST_LINK_UP = true) ∧ (p % 4 = 0 → s.xmDead = false)
   (x.ph = 3) ∧ (written))) ∧
  (let c : Fin 64 := 63
   let ok : Bool := false
   let s : State := State.setDch (at' [(F.DMA_CH_CUR_PTR 63, 0x41), (F.DMA_CH_CTL_STOP 63, 1)]) 63 { ph := 3, ctl := 0x7B, trans := true, next := 0x61 }
   (s.running 5 = true) ∧ (let p := s.get (F.DMA_CH_CUR_PTR c.val)
   let x := s.dch c.val
   let written := ok = true ∧ (p % 4 = 2 → s.on F.HST_LINK_UP = true) ∧ (p % 4 = 0 → s.xmDead = false)
   (x.ph = 3) ∧ (¬written) ∧ (s.countsOnly 532 = true))) ∧
  (let s : State := State.setDch { at' [(F.DMA_CH_CFG_SHARE 63, 255)] with dma := { refill := 1000000 } } 63 { credit := -7 }
   (s.running 5 = true)) := by
  refine ⟨?_, ?_, ?_⟩ <;> decide +kernel

theorem wit_DmaBeats :
  (let c : Nat := 63
   let s : State := State.setDch (at' [(F.DMA_CH_COUNT_BYTES 63, 70)]) 63 { ph := 2, ctl := 0xC, len := 100, dst := 33, credit := 4 }
   (s.running 5 = true) ∧ (s.nextBeat = some c) ∧ (let x := s.dch c
   let down := x.usesHost = true ∧ s.on F.HST_LINK_UP = false
   (s.dmaHalted = false) ∧ (¬down))) ∧
  (let c : Nat := 63
   let s : State := State.setDch (at' [(F.DMA_CH_COUNT_BYTES 63, 70), (F.FLT_SRC_LEVEL 532, 2)]) 63 { ph := 2, ctl := 0xC, len := 100, dst := 33, credit := 4 }
   (s.running 5 = true) ∧ (s.nextBeat = some c) ∧ (let x := s.dch c
   (s.dmaHalted = true) ∧ (x.out = []))) ∧
  (let c : Nat := 63
   let s : State := State.setDch (at' [(F.DMA_CH_COUNT_BYTES 63, 70), (F.HST_LINK_UP, 0)]) 63 { ph := 2, ctl := 0xC, len := 100, dst := 33, credit := 4 }
   (s.running 5 = true) ∧ (s.nextBeat = some c) ∧ (let x := s.dch c
   let down := x.usesHost = true ∧ s.on F.HST_LINK_UP = false
   (s.dmaHalted = false) ∧ (down) ∧ (x.out = []) ∧ (s.countsOnly 531 = true))) ∧
  (let c : Nat := 63
   let s : State := State.setDch (at' [(F.DMA_CH_COUNT_BYTES 63, 70), (F.HST_LINK_UP, 0)]) 63 { ph := 2, ctl := 0xC, len := 100, dst := 33, credit := 4, out := [(0, 30, 0)] }
   (s.running 5 = true) ∧ (s.nextBeat = some c) ∧ (let x := s.dch c
   let down := x.usesHost = true ∧ s.on F.HST_LINK_UP = false
   (s.dmaHalted = true ∨ down) ∧ (x.out ≠ []))) ∧
  (let s : State := live
   (s.running 5 = true) ∧ (s.nextBeat = none)) ∧
  (let p : Nat := 3
   let c : Nat := 63
   let s : State := State.setDch (State.setDch (at' [(F.DMA_CH_COUNT_BYTES 63, 70), (F.DMA_CH_COUNT_BYTES 5, 70), (F.DMA_CH_CFG_PRI 63, 3)]) 63 { ph := 2, ctl := 0xA, len := 100, dst := 33, credit := 400 }) 5 { ph := 2, len := 100, credit := 400 }
   (s.nextBeat = some c) ∧ (p = s.get (F.DMA_CH_CFG_PRI c)) ∧ (let e : Nat := 5
   (e < 64) ∧ (s.beatReady e = true))) ∧
  (let p : Nat := 3
   let c : Nat := 63
   let s : State := State.setDch (State.setDch (at' [(F.DMA_CH_COUNT_BYTES 63, 70), (F.DMA_CH_COUNT_BYTES 5, 70), (F.DMA_CH_CFG_PRI 63, 3)]) 63 { ph := 2, ctl := 0xA, len := 100, dst := 33, credit := 400 }) 5 { ph := 2, len := 100, credit := 400 }
   (s.nextBeat = some c) ∧ (p = s.get (F.DMA_CH_CFG_PRI c))) := by
  refine ⟨?_, ?_, ?_, ?_, ?_, ?_, ?_⟩ <;> decide +kernel

theorem wit_DmaBeats_2 :
  (let c : Fin 64 := 63
   let i : Nat := 0
   let s : State := live
   (s.running 5 = true) ∧ (let x := s.dch c.val
   (x.out[i]? = none))) ∧
  (let c : Fin 64 := 63
   let i : Nat := 0
   let ok : Bool := true
   let s : State := State.setDch (at' [(F.DMA_CH_CFG_RETRY 63, 1)]) 63 { ph := 2, ctl := 0x2E, src := 0x0807060504030201, dst := 50, out := [(3, 9, 1)] }
   (s.running 5 = true) ∧ (let x := s.dch c.val
   let off : Nat := 3
   let n : Nat := 9
   let tries : Nat := 1
   (x.ph = 2) ∧ (x.out[i]? = some (off, n, tries)) ∧ (x.halting = none) ∧ (let down := x.usesHost = true ∧ s.on F.HST_LINK_UP = false
   let usesXm := bits x.ctl 2 1 = 0 ∨ bits x.ctl 4 3 = 0
   let good := ok = true ∧ ¬down ∧ ¬(s.xmDead = true ∧ usesXm)
   (good) ∧ (tries = 0 ∨ s.countsOnly 528 = true)))) ∧
  (let c : Fin 64 := 63
   let i : Nat := 0
   let ok : Bool := false
   let s : State := State.setDch (at' [(F.DMA_CH_CFG_RETRY 63, 1)]) 63 { ph := 2, ctl := 0xE, src := 0x0807060504030201, dst := 50, out := [(3, 9, 0)] }
   (s.running 5 = true) ∧ (let x := s.dch c.val
   let off : Nat := 3
   let n : Nat := 9
   let tries : Nat := 0
   (x.ph = 2) ∧ (x.out[i]? = some (off, n, tries)) ∧ (x.halting = none) ∧ (let down := x.usesHost = true ∧ s.on F.HST_LINK_UP = false
   let usesXm := bits x.ctl 2 1 = 0 ∨ bits x.ctl 4 3 = 0
   let good := ok = true ∧ ¬down ∧ ¬(s.xmDead = true ∧ usesXm)
   (¬good) ∧ (¬down) ∧ (tries < s.get (F.DMA_CH_CFG_RETRY c.val))))) ∧
  (let c : Fin 64 := 63
   let i : Nat := 0
   let ok : Bool := false
   let s : State := State.setDch (at' [(F.DMA_CH_CFG_RETRY 63, 3)]) 63 { ph := 2, ctl := 0xA, src := 9, dst := 50, out := [(3, 9, 3)] }
   (s.running 5 = true) ∧ (let x := s.dch c.val
   let off : Nat := 3
   let n : Nat := 9
   let tries : Nat := 3
   (x.ph = 2) ∧ (x.out[i]? = some (off, n, tries)) ∧ (x.halting = none) ∧ (let down := x.usesHost = true ∧ s.on F.HST_LINK_UP = false
   let usesXm := bits x.ctl 2 1 = 0 ∨ bits x.ctl 4 3 = 0
   let good := ok = true ∧ ¬down ∧ ¬(s.xmDead = true ∧ usesXm)
   (¬good) ∧ (¬down) ∧ (s.get (F.DMA_CH_CFG_RETRY c.val) ≤ tries) ∧ (x.out.length = 1) ∧ (s.countsOnly 529 = true)))) ∧
  (let c : Fin 64 := 63
   let i : Nat := 0
   let s : State := State.setDch (at' [(F.HST_LINK_UP, 0)]) 63 { ph := 2, ctl := 0xC, src := 9, dst := 50, out := [(3, 9, 3)] }
   (s.running 5 = true) ∧ (let x := s.dch c.val
   let off : Nat := 3
   let n : Nat := 9
   let tries : Nat := 3
   (x.ph = 2) ∧ (x.out[i]? = some (off, n, tries)) ∧ (x.halting = none) ∧ (let down := x.usesHost = true ∧ s.on F.HST_LINK_UP = false
   (down) ∧ (x.out.length = 1) ∧ (s.countsOnly 531 = true)))) ∧
  (let c : Fin 64 := 63
   let i : Nat := 0
   let ok : Bool := true
   let s : State := State.setDch (at' [(F.HST_LINK_UP, 0)]) 63 { ph := 2, ctl := 0xC, src := 9, dst := 50, out := [(3, 9, 3), (12, 64, 0)] }
   (s.running 5 = true) ∧ (let x := s.dch c.val
   let off : Nat := 3
   let n : Nat := 9
   let tries : Nat := 3
   (x.ph = 2) ∧ (x.out[i]? = some (off, n, tries)) ∧ (x.halting = none) ∧ (let down := x.usesHost = true ∧ s.on F.HST_LINK_UP = false
   let usesXm := bits x.ctl 2 1 = 0 ∨ bits x.ctl 4 3 = 0
   let good := ok = true ∧ ¬down ∧ ¬(s.xmDead = true ∧ usesXm)
   (down ∨ (¬good ∧ s.get (F.DMA_CH_CFG_RETRY c.val) ≤ tries)) ∧ (1 < x.out.length)))) ∧
  (let x : DmaCh := { ctl := 2, src := 50 }
   (bits x.ctl 2 1 = 1)) := by
  refine ⟨?_, ?_, ?_, ?_, ?_, ?_, ?_⟩ <;> decide +kernel

theorem wit_DmaBeats_3 :
  (let x : DmaCh := { ctl := 0, src := 50 }
   (bits x.ctl 2 1 = 0)) ∧
  (let x : DmaCh := { ctl := 6, src := 0x0807060504030201 }
   (bits x.ctl 2 1 = 3)) ∧
  (let who : Fin 4 := 0
   let s : State := at' [(F.DMAS_MCC_LEN_LEN 0, 70)]
   (s.takes who.val 5 = true) ∧ (let a := s.get (F.DMAS_MCC_ADDR_ADDR who.val) / 64 * 64
   let n := min (s.get (F.DMAS_MCC_LEN_LEN who.val)) (s.xmMib * 0x100000 - a)
   let go := s.on (F.DMAS_MCC_CTL_BUSY who.val) = false ∧ n ≠ 0
   (go))) ∧
  (let who : Fin 4 := 0
   let s : State := live
   (s.takes who.val 5 = true) ∧ (let a := s.get (F.DMAS_MCC_ADDR_ADDR who.val) / 64 * 64
   let n := min (s.get (F.DMAS_MCC_LEN_LEN who.val)) (s.xmMib * 0x100000 - a)
   let go := s.on (F.DMAS_MCC_CTL_BUSY who.val) = false ∧ n ≠ 0
   (¬go))) ∧
  (let o : MccOp := ⟨2, 2, 64, 3⟩
   let l : List MccOp := []
   let s : State := { live with dma := { mcc := [⟨2, 2, 64, 3⟩] } }
   (s.running 5 = true) ∧ (s.dma.mcc = o :: l)) ∧
  (let s : State := live
   (s.quiet = true) ∧ (s.dma.mcc = [])) := by
  refine ⟨?_, ?_, ?_, ?_, ?_, ?_⟩ <;> decide +kernel

theorem wit_DramController :
  (let s : State := at' [(F.DMC_CTL_EN, 0)]
   (s.quiet = true) ∧ ((s.domOn 4 = false ∨ s.on F.DMC_CTL_EN = false))) ∧
  (let t : Nat := 1000000100
   let l : List DramReq := [{ port := 7, addr := 0xFC0, write := false, part := false, spec := false }]
   let back : List Nat := []
   let hit : Bool := false
   let s : State := at' [(F.DMC_CTL_EN, 1), (F.DMC_STAT_FBUSY, 1)]
   (s.quiet = true) ∧ (let u := s.until t
   let joined := ((u.levelsBack back).dramArrive u.now l).dropSpec
   (s.domOn 4 = true) ∧ (s.on F.DMC_CTL_EN = true) ∧ ((joined.on F.DMC_STAT_FBUSY = true ∨ joined.on F.DMC_STAT_TBUSY = true ∨ joined.dmc.quick = true ∨
           joined.dramChoose hit = none)) ∧ (joined.quiet = true))) ∧
  (let t : Nat := 1000000100
   let fin : Nat := 1000000200
   let r : DramReq := { port := 7, addr := 0xFC0, write := false, part := false, spec := false }
   let k : Ecc := .good
   let s : State := at' [(F.DMC_CTL_EN, 1), (F.DMC_STAT_READY, 1), (F.DMC_PORT_CFG_LAT 7, 10)]
   (s.running 4 = true) ∧ (s.on F.DMC_CTL_EN = true) ∧ (s.dmc.reqs = []) ∧ (s.dmc.txLow = []) ∧ (s.dmc.rxLow = []) ∧ (s.dmc.cuLow = []) ∧ (s.get F.DMC_STAT_PANIC = 0) ∧ (s.on F.DMC_STAT_FBUSY = false) ∧ (s.on F.DMC_STAT_TBUSY = false) ∧ (s.dmc.quick = false) ∧ (s.dmc.poison = []) ∧ (r.spec = false) ∧ (r.addr.toNat < s.xmMib * 0x100000) ∧ (s.xmDead = false) ∧ (let now := (s.until t).now
   let lat := max fin now - now
   let miss := 10 * s.get (F.DMC_PORT_CFG_LAT r.port.val) < lat
   (k = .good) ∧ (¬miss))) ∧
  (let t : Nat := 1000000100
   let fin : Nat := 1000000200
   let r : DramReq := { port := 7, addr := 0xFC0, write := false, part := false, spec := false }
   let k : Ecc := .good
   let s : State := at' [(F.DMC_CTL_EN, 1), (F.DMC_STAT_READY, 1), (F.DMC_PORT_CFG_LAT 7, 9)]
   (s.running 4 = true) ∧ (s.on F.DMC_CTL_EN = true) ∧ (s.dmc.reqs = []) ∧ (s.dmc.txLow = []) ∧ (s.dmc.rxLow = []) ∧ (s.dmc.cuLow = []) ∧ (s.get F.DMC_STAT_PANIC = 0) ∧ (s.on F.DMC_STAT_FBUSY = false) ∧ (s.on F.DMC_STAT_TBUSY = false) ∧ (s.dmc.quick = false) ∧ (s.dmc.poison = []) ∧ (r.spec = false) ∧ (r.addr.toNat < s.xmMib * 0x100000) ∧ (s.xmDead = false) ∧ (let now := (s.until t).now
   let lat := max fin now - now
   let miss := 10 * s.get (F.DMC_PORT_CFG_LAT r.port.val) < lat
   (k = .good) ∧ (miss) ∧ (s.countsOnly 500 = true))) ∧
  (let t : Nat := 1000000100
   let fin : Nat := 1000000200
   let r : DramReq := { port := 7, addr := 0xFC0, write := false, part := false, spec := false }
   let k : Ecc := .lasting
   let s : State := at' [(F.DMC_CTL_EN, 1), (F.DMC_STAT_READY, 1), (F.DMC_CTL_ECC_EN, 1), (F.DMC_PORT_CFG_LAT 7, 10)]
   (s.running 4 = true) ∧ (s.on F.DMC_CTL_EN = true) ∧ (s.dmc.reqs = []) ∧ (s.dmc.txLow = []) ∧ (s.dmc.rxLow = []) ∧ (s.dmc.cuLow = []) ∧ (s.get F.DMC_STAT_PANIC = 0) ∧ (s.on F.DMC_STAT_FBUSY = false) ∧ (s.on F.DMC_STAT_TBUSY = false) ∧ (s.dmc.quick = false) ∧ (s.dmc.poison = []) ∧ (r.spec = false) ∧ (r.addr.toNat < s.xmMib * 0x100000) ∧ (s.xmDead = false) ∧ (let now := (s.until t).now
   let lat := max fin now - now
   let miss := 10 * s.get (F.DMC_PORT_CFG_LAT r.port.val) < lat
   (k = .lasting) ∧ (r.write = false) ∧ (¬miss) ∧ (s.on F.DMC_CTL_ECC_EN = true) ∧ (s.countsOnly 498 = true))) ∧
  (let n : Nat := 1
   let r : DmcReq := { port := 3, since := 999 }
   let s : State := { at' [(F.DMC_PORT_CFG_PROMO 3, 100), (F.DMC_PORT_CFG_CLASS 3, 1)] with dmc := { reqs := [{}, { port := 3, since := 999 }] } }
   (s.running 4 = true) ∧ (s.dmc.reqs[n]? = some r) ∧ (let promo := s.get (F.DMC_PORT_CFG_PROMO r.port)
   (r.spec = false) ∧ (promo ≠ 0) ∧ (s.reqClass r < 2))) ∧
  (let n : Nat := 1
   let r : DmcReq := { port := 3, since := 999 }
   let s : State := { at' [(F.DMC_PORT_CFG_PROMO 3, 100), (F.DMC_PORT_CFG_CLASS 3, 2)] with dmc := { reqs := [{}, { port := 3, since := 999 }] } }
   (s.running 4 = true) ∧ (s.dmc.reqs[n]? = some r) ∧ (let promo := s.get (F.DMC_PORT_CFG_PROMO r.port)
   ((r.spec = true ∨ promo = 0 ∨ 2 ≤ s.reqClass r)))) := by
  refine ⟨?_, ?_, ?_, ?_, ?_, ?_, ?_⟩ <;> decide +kernel

theorem wit_DramController_2 :
  (let n : Nat := 0
   let s : State := live
   (s.quiet = true) ∧ ((s.domOn 4 = false ∨ s.dmc.reqs[n]? = none))) ∧
  (let s : State := { at' [(F.DMC_CTL_EN, 1), (F.DMC_STAT_PANIC, 2)] with dmc := { postponed := 7 } }
   (s.quiet = true) ∧ (s.domOn 4 = true) ∧ (s.on F.DMC_CTL_EN = true) ∧ (s.panics = true) ∧ (s.dmc.postponed < postponeLimit)) ∧
  (let s : State := { at' [(F.DMC_CTL_EN, 1), (F.DMC_STAT_PANIC, 2)] with dmc := { postponed := 8 } }
   (s.quiet = true) ∧ (s.domOn 4 = true) ∧ (s.on F.DMC_CTL_EN = true) ∧ (s.panics = true) ∧ (postponeLimit ≤ s.dmc.postponed)) ∧
  (let s : State := { at' [(F.DMC_CTL_EN, 1)] with dmc := { postponed := 7 } }
   (s.quiet = true) ∧ (s.domOn 4 = true) ∧ (s.on F.DMC_CTL_EN = true) ∧ (s.panics = false)) ∧
  (let s : State := { at' [(F.DMC_CTL_EN, 0)] with dmc := { postponed := 7 } }
   (s.quiet = true) ∧ ((s.domOn 4 = false ∨ s.on F.DMC_CTL_EN = false))) ∧
  (let s : State := { at' [(F.DMC_CTL_SCRUB_EN, 1), (F.DMC_CTL_ECC_EN, 0), (F.DMC_STAT_READY, 1)] with dmc := { scrub := 5 } }
   (s.quiet = true) ∧ (let reads := s.domOn 4 = true ∧ s.on F.DMC_CTL_SCRUB_EN = true ∧ s.on F.DMC_STAT_READY = true ∧ s.on F.DMC_CTL_ECC_EN = true ∧ s.panics = false ∧ s.on F.DMC_STAT_FBUSY = false ∧ s.on F.DMC_STAT_TBUSY = false
   (¬reads))) ∧
  (let k : Ecc := .good
   let s : State := { at' [(F.DMC_CTL_SCRUB_EN, 1), (F.DMC_CTL_ECC_EN, 1), (F.DMC_STAT_READY, 1)] with dmc := { scrub := 5 } }
   (s.quiet = true) ∧ (let reads := s.domOn 4 = true ∧ s.on F.DMC_CTL_SCRUB_EN = true ∧ s.on F.DMC_STAT_READY = true ∧ s.on F.DMC_CTL_ECC_EN = true ∧ s.panics = false ∧ s.on F.DMC_STAT_FBUSY = false ∧ s.on F.DMC_STAT_TBUSY = false
   let found := if s.dmc.poison.any (fun w => w / 8 == s.dmc.scrub) then Ecc.lasting else k
   (reads) ∧ (found = .good))) := by
  refine ⟨?_, ?_, ?_, ?_, ?_, ?_, ?_⟩ <;> decide +kernel

theorem wit_DramController_3 :
  (let k : Ecc := .single
   let s : State := { at' [(F.DMC_CTL_SCRUB_EN, 1), (F.DMC_CTL_ECC_EN, 1), (F.DMC_STAT_READY, 1)] with dmc := { scrub := 5 } }
   (s.quiet = true) ∧ (let reads := s.domOn 4 = true ∧ s.on F.DMC_CTL_SCRUB_EN = true ∧ s.on F.DMC_STAT_READY = true ∧ s.on F.DMC_CTL_ECC_EN = true ∧ s.panics = false ∧ s.on F.DMC_STAT_FBUSY = false ∧ s.on F.DMC_STAT_TBUSY = false
   let found := if s.dmc.poison.any (fun w => w / 8 == s.dmc.scrub) then Ecc.lasting else k
   (reads) ∧ (found = .single) ∧ (s.countsOnly 496 = true))) ∧
  (let k : Ecc := .retry
   let s : State := { at' [(F.DMC_CTL_SCRUB_EN, 1), (F.DMC_CTL_ECC_EN, 1), (F.DMC_STAT_READY, 1)] with dmc := { scrub := 5 } }
   (s.quiet = true) ∧ (let reads := s.domOn 4 = true ∧ s.on F.DMC_CTL_SCRUB_EN = true ∧ s.on F.DMC_STAT_READY = true ∧ s.on F.DMC_CTL_ECC_EN = true ∧ s.panics = false ∧ s.on F.DMC_STAT_FBUSY = false ∧ s.on F.DMC_STAT_TBUSY = false
   let found := if s.dmc.poison.any (fun w => w / 8 == s.dmc.scrub) then Ecc.lasting else k
   (reads) ∧ (found = .retry) ∧ (s.countsOnly 497 = true))) ∧
  (let k : Ecc := .lasting
   let s : State := { at' [(F.DMC_CTL_SCRUB_EN, 1), (F.DMC_CTL_ECC_EN, 1), (F.DMC_STAT_READY, 1)] with dmc := { scrub := 5 } }
   (s.quiet = true) ∧ (let reads := s.domOn 4 = true ∧ s.on F.DMC_CTL_SCRUB_EN = true ∧ s.on F.DMC_STAT_READY = true ∧ s.on F.DMC_CTL_ECC_EN = true ∧ s.panics = false ∧ s.on F.DMC_STAT_FBUSY = false ∧ s.on F.DMC_STAT_TBUSY = false
   let found := if s.dmc.poison.any (fun w => w / 8 == s.dmc.scrub) then Ecc.lasting else k
   (reads) ∧ (found = .lasting) ∧ (s.countsOnly 498 = true))) ∧
  (let who : Fin 4 := 0
   let v : Word := 1
   let s : State := at' [(F.DMC_CTL_EN, 1), (F.DMC_STAT_TBUSY, 1)]
   (s.takes who.val 4 = true) ∧ (let busy := s.on F.DMC_STAT_FBUSY = true ∨ s.on F.DMC_STAT_TBUSY = true
   (bit v.toNat 0 = true) ∧ (busy))) ∧
  (let who : Fin 4 := 0
   let v : Word := 1
   let s : State := at' [(F.DMC_CTL_EN, 1)]
   (s.takes who.val 4 = true) ∧ (let busy := s.on F.DMC_STAT_FBUSY = true ∨ s.on F.DMC_STAT_TBUSY = true
   (bit v.toNat 0 = true) ∧ (¬busy) ∧ (s.transiting = false))) ∧
  (let who : Fin 4 := 0
   let v : Word := 1
   let s : State := at' [(F.DMC_CTL_EN, 1)]
   (s.takes who.val 4 = true) ∧ (let busy := s.on F.DMC_STAT_FBUSY = true ∨ s.on F.DMC_STAT_TBUSY = true
   (bit v.toNat 0 = true) ∧ (¬busy) ∧ (s.on F.DMC_CTL_FCHG = false) ∧ (bit v.toNat 9 = false))) ∧
  (let who : Fin 4 := 0
   let v : Word := 0
   let s : State := at' [(F.DMC_CTL_EN, 1)]
   (s.takes who.val 4 = true) ∧ (bit v.toNat 0 = false)) := by
  refine ⟨?_, ?_, ?_, ?_, ?_, ?_, ?_⟩ <;> decide +kernel

theorem wit_DramController_4 :
  (let s : State := at' [(F.DMC_STAT_FBUSY, 1), (F.DMC_TSET1_WORD 0, 7), (F.DMC_CTL_HOLD_AIR, 0)]
   (s.running 4 = true) ∧ (s.on F.DMC_STAT_FBUSY = true) ∧ ((s.on F.DMC_CTL_HOLD_AIR = false ∨ s.exchangeRuns = false)) ∧ (s.on F.DMC_CTL_TRAIN = false) ∧ (s.ctl.slot = none) ∧ (s.ctl.trimLate = false) ∧ (s.transiting = false) ∧ (s.yal.load = none)) ∧
  (let s : State := at' [(F.DMC_STAT_FBUSY, 1), (F.DMC_TSET1_WORD 0, 7), (F.DMC_CTL_HOLD_AIR, 0)]
   (s.running 4 = true) ∧ (s.on F.DMC_STAT_FBUSY = true) ∧ ((s.on F.DMC_CTL_HOLD_AIR = false ∨ s.exchangeRuns = false)) ∧ (s.on F.DMC_CTL_TRAIN = false) ∧ (s.ctl.slot = none) ∧ (s.ctl.trimLate = false) ∧ (s.transiting = false) ∧ (s.yal.load = none) ∧ (s.countsOnly 503 = true)) ∧
  (let s : State := live
   (s.quiet = true) ∧ ((s.domOn 4 = false ∨ s.on F.DMC_STAT_FBUSY = false ∨ (s.on F.DMC_CTL_HOLD_AIR = true ∧ s.exchangeRuns = true)))) ∧
  (let r : Fin 3 := 1
   let s : State := at' [(F.DMC_STAT_TBUSY, 1), (F.DMC_CTL_EN, 1)]
   (s.running 4 = true) ∧ (s.on F.DMC_STAT_TBUSY = true) ∧ ((s.on F.DMC_CTL_EN = false ∨ s.on F.DMC_CTL_FCHG = false)) ∧ (r.val < 2)) ∧
  (let r : Fin 3 := 2
   let s : State := at' [(F.DMC_STAT_TBUSY, 1), (F.DMC_CTL_EN, 1)]
   (s.running 4 = true) ∧ (s.on F.DMC_STAT_TBUSY = true) ∧ ((s.on F.DMC_CTL_EN = false ∨ s.on F.DMC_CTL_FCHG = false)) ∧ (r.val = 2) ∧ (s.countsOnly 499 = true)) ∧
  (let s : State := live
   (s.quiet = true) ∧ ((s.domOn 4 = false ∨ s.on F.DMC_STAT_TBUSY = false))) ∧
  (let s : State := { at' [(F.DMC_CTL_EN, 1)] with dmc := { quick := true } }
   (s.quiet = true) ∧ (let asked := s.domOn 4 = true ∧ s.dmc.quick = true
   (asked))) := by
  refine ⟨?_, ?_, ?_, ?_, ?_, ?_, ?_⟩ <;> decide +kernel

theorem wit_DramController_5 :
  (let s : State := live
   (s.quiet = true) ∧ (let asked := s.domOn 4 = true ∧ s.dmc.quick = true
   (¬asked))) ∧
  (let s : State := { at' [(F.DMC_STAT_READY, 1)] with dmc := { dqsAt := 950000000 } }
   (s.quiet = true) ∧ (let reads := s.domOn 4 = true ∧ s.on F.DMC_STAT_READY = true ∧ s.dmc.quick = false
   (reads))) ∧
  (let s : State := { at' [(F.DMC_STAT_READY, 1)] with dmc := { dqsAt := 950000000 } }
   (s.quiet = true) ∧ (let reads := s.domOn 4 = true ∧ s.on F.DMC_STAT_READY = true ∧ s.dmc.quick = false
   (reads) ∧ (s.countsOnly 504 = true))) ∧
  (let s : State := live
   (s.quiet = true) ∧ (let reads := s.domOn 4 = true ∧ s.on F.DMC_STAT_READY = true ∧ s.dmc.quick = false
   (¬reads))) ∧
  (let s : State := { at' [(F.DMC_STAT_PANIC, 1)] with dmc := { txLow := [0] } }
   (s.running 11 = true) ∧ (s.domOn 4 = true) ∧ (s.fbit F.DMC_STAT_PANIC 1 = !s.dmc.cuLow.isEmpty) ∧ (s.fbit F.DMC_STAT_PANIC 0 = true)) ∧
  (let s : State := { at' [(F.DMC_STAT_PANIC, 1)] with dmc := { txLow := [0] } }
   (s.running 11 = true) ∧ (s.domOn 4 = true) ∧ (s.fbit F.DMC_STAT_PANIC 1 = !s.dmc.cuLow.isEmpty) ∧ (s.fbit F.DMC_STAT_PANIC 0 = true) ∧ (s.countsOnly 502 = true)) ∧
  (let s : State := live
   (s.running 11 = true) ∧ (s.domOn 4 = true) ∧ (s.fbit F.DMC_STAT_PANIC 1 = !s.dmc.cuLow.isEmpty) ∧ (s.fbit F.DMC_STAT_PANIC 0 = false) ∧ (s.countsOnly 501 = true)) := by
  refine ⟨?_, ?_, ?_, ?_, ?_, ?_, ?_⟩ <;> decide +kernel

theorem wit_DramController_6 :
  (let s : State := live
   (s.running 11 = true) ∧ (s.domOn 4 = true) ∧ (s.fbit F.DMC_STAT_PANIC 1 = !s.dmc.cuLow.isEmpty) ∧ (s.fbit F.DMC_STAT_PANIC 0 = false) ∧ (s.countsOnly 501 = true) ∧ (s.countsOnly 502 = true)) ∧
  (let s : State := at' [(F.PWR_DOM_ON, 0x3)]
   (s.quiet = true) ∧ (s.domOn 11 = false)) := by
  refine ⟨?_, ?_⟩ <;> decide +kernel

theorem wit_EndpointCommands :
  (let slot : Fin 516 := 3
   let x : Nat := 9
   let p1 : Nat × Nat := (92323, 0)
   let p2 : Nat × Nat := (92323, 1)
   let s : State := State.gmAt (at' [(F.EPT_CTL_EN, 1), (F.EPT_IDX_BASE_ADDR, 0x100000)]) 0x180 (natLe (1 + 16 * 2) 4 ++ natLe (2 ^ 31 + 9) 4 ++ List.replicate 116 0 ++ natLe 1 4)
   (s.running 5 = true) ∧ (s.on F.EPT_CTL_EN = true) ∧ (s.eptHalted = false) ∧ (s.mode ≠ 9) ∧ (let a := s.cmdAddr slot.val
   let d := memBytes s.gm a 128
   let op := leNat (d.take 4)
   let epx := leNat ((d.drop 4).take 4)
   let key1 := (d.drop 8).take (keyLen (bits op 9 7))
   let key2 := (d.drop 0x30).take (keyLen (bits op 12 10))
   (op % 16 = 1) ∧ (leNat (d.drop 0x7C) ≠ 0) ∧ (bits op 31 14 = 0) ∧ (bits epx 30 18 = 0) ∧ (1 ≤ bits op 6 4) ∧ (bits op 6 4 ≤ 5) ∧ (bits op 9 7 ∈ [0, 2, 3, 6]) ∧ ((bit op 13 = true → bits op 12 10 ∈ [0, 2, 3, 6])) ∧ (((d.drop 0x68).take 20).any (· != 0) = false) ∧ ((s.buckets (bits op 9 7) key1 ++ if bit op 13 then s.buckets (bits op 12 10) key2 else []).all (fun b => s.eptXmOk (s.bucketAddr b) 64) = true) ∧ (s.findKey (bits op 9 7) key1 = none) ∧ ((bit op 13 = true → s.findKey (bits op 12 10) key2 = none)) ∧ (s.freeSlot (bits op 9 7) key1 [] = some p1) ∧ ((bit op 13 = true → s.freeSlot (bits op 12 10) key2 [p1] = some p2)) ∧ ((if bit epx 31 then (if s.entFree (bits epx 17 0) then some (bits epx 17 0) else none)
           else s.allocIndex (s.get F.EPT_ALLOC_FLOOR_X)) = some x) ∧ (s.eptXmOk (s.entAddr x) 256 = true))) ∧
  (let slot : Fin 516 := 3
   let x : Nat := 6
   let s : State := { State.gmAt (at' [(F.EPT_CTL_EN, 1), (F.EPT_IDX_BASE_ADDR, 0x100000)]) 0x180 (natLe (1 + 16 * 2) 4 ++ natLe (2 ^ 31 + 9) 4 ++ List.replicate 116 0 ++ natLe 1 4) with ept := { ents := [(6, { kind := 2, key1 := List.replicate 8 0 })] }, xm := memPutNat [] 6957248 8 13539342904048484358 }
   (s.running 5 = true) ∧ (s.on F.EPT_CTL_EN = true) ∧ (s.eptHalted = false) ∧ (s.mode ≠ 9) ∧ (let a := s.cmdAddr slot.val
   let d := memBytes s.gm a 128
   let op := leNat (d.take 4)
   let epx := leNat ((d.drop 4).take 4)
   let key1 := (d.drop 8).take (keyLen (bits op 9 7))
   let key2 := (d.drop 0x30).take (keyLen (bits op 12 10))
   (op % 16 = 1) ∧ (leNat (d.drop 0x7C) ≠ 0) ∧ (bits op 31 14 = 0) ∧ (bits epx 30 18 = 0) ∧ (1 ≤ bits op 6 4) ∧ (bits op 6 4 ≤ 5) ∧ (bits op 9 7 ∈ [0, 2, 3, 6]) ∧ ((bit op 13 = true → bits op 12 10 ∈ [0, 2, 3, 6])) ∧ (((d.drop 0x68).take 20).any (· != 0) = false) ∧ ((s.buckets (bits op 9 7) key1 ++ if bit op 13 then s.buckets (bits op 12 10) key2 else []).all (fun b => s.eptXmOk (s.bucketAddr b) 64) = true) ∧ (s.findKey (bits op 9 7) key1 = some x) ∧ (x < 2 ^ 18))) ∧
  (let slot : Fin 516 := 3
   let s : State := { State.gmAt (at' [(F.EPT_CTL_EN, 1), (F.EPT_IDX_BASE_ADDR, 0x100000)]) 0x180 (natLe (2) 4 ++ natLe 6 4 ++ List.replicate 116 0 ++ natLe 1 4) with ept := { ents := [(6, { kind := 2, key1 := List.replicate 8 0 })], pins := [(6, 1)] } }
   (s.running 5 = true) ∧ (s.on F.EPT_CTL_EN = true) ∧ (s.eptHalted = false) ∧ (let a := s.cmdAddr slot.val
   let d := memBytes s.gm a 128
   let op := leNat (d.take 4)
   let x := leNat ((d.drop 4).take 4) % 2 ^ 18
   (op % 16 = 2) ∧ (leNat (d.drop 0x7C) ≠ 0) ∧ (bits op 31 14 = 0) ∧ (bits (leNat ((d.drop 4).take 4)) 30 18 = 0) ∧ (((d.drop 0x68).take 20).any (· != 0) = false) ∧ ((s.ent x).kind ≠ 0) ∧ (s.eptXmOk (s.entAddr x) 256 = true) ∧ (s.eptLine x = none) ∧ (s.mode ≠ 9))) ∧
  (let slot : Fin 516 := 3
   let s : State := { State.gmAt (at' [(F.EPT_CTL_EN, 1), (F.TOP_MODE_CUR, 9), (F.EPT_ILOG_CTL_KINDS, 4), (F.EPT_ILOG_WR_PTR, 65535), (F.EPT_ILOG_RD_PTR, 65534), (F.EPT_ILOG_CTL_SIZE, 2), (F.EPT_IDX_BASE_ADDR, 0x100000)]) 0x180 (natLe (2) 4 ++ natLe 6 4 ++ List.replicate 116 0 ++ natLe 1 4) with ept := { ents := [(6, { kind := 2, key1 := List.replicate 8 0 })], pins := [(6, 1)] } }
   (s.running 5 = true) ∧ (s.on F.EPT_CTL_EN = true) ∧ (s.eptHalted = false) ∧ (let a := s.cmdAddr slot.val
   let d := memBytes s.gm a 128
   let op := leNat (d.take 4)
   let x := leNat ((d.drop 4).take 4) % 2 ^ 18
   (op % 16 = 2) ∧ (leNat (d.drop 0x7C) ≠ 0) ∧ (bits op 31 14 = 0) ∧ (bits (leNat ((d.drop 4).take 4)) 30 18 = 0) ∧ (((d.drop 0x68).take 20).any (· != 0) = false) ∧ ((s.ent x).kind ≠ 0) ∧ (s.eptXmOk (s.entAddr x) 256 = true) ∧ (s.eptLine x = none) ∧ (s.mode = 9) ∧ (bit (s.get (F.EPT_ILOG_CTL_KINDS)) (s.ent x).kind = true) ∧ ((s.get F.EPT_ILOG_WR_PTR + 65536 - s.get F.EPT_ILOG_RD_PTR) % 65536 < max 1 (s.get F.EPT_ILOG_CTL_SIZE)))) ∧
  (let slot : Fin 516 := 3
   let s : State := State.gmAt (at' [(F.EPT_CTL_EN, 1), (F.EPT_IDX_BASE_ADDR, 0x100000)]) 0x180 (natLe (2) 4 ++ natLe 6 4 ++ List.replicate 116 0 ++ natLe 1 4)
   (s.running 5 = true) ∧ (s.on F.EPT_CTL_EN = true) ∧ (s.eptHalted = false) ∧ (let a := s.cmdAddr slot.val
   let d := memBytes s.gm a 128
   let op := leNat (d.take 4)
   let x := leNat ((d.drop 4).take 4) % 2 ^ 18
   (op % 16 = 2) ∧ (leNat (d.drop 0x7C) ≠ 0) ∧ (bits op 31 14 = 0) ∧ (bits (leNat ((d.drop 4).take 4)) 30 18 = 0) ∧ (((d.drop 0x68).take 20).any (· != 0) = false) ∧ ((s.ent x).kind = 0))) ∧
  (let slot : Fin 516 := 3
   let s : State := at' [(F.EPT_CTL_EN, 1)]
   (s.quiet = true) ∧ (s.domOn 5 = true) ∧ (let a := s.cmdAddr slot.val
   let d := memBytes s.gm a 128
   let runs := s.on F.EPT_CTL_EN = true ∧ leNat (d.drop 0x7C) ≠ 0
   (¬runs))) ∧
  (let slot : Fin 516 := 3
   let s : State := eptMade [(F.FLT_SRC_LEVEL 480, 2)] 0x21 9
   (s.quiet = true) ∧ (s.domOn 5 = true) ∧ (let a := s.cmdAddr slot.val
   let d := memBytes s.gm a 128
   let op := leNat (d.take 4)
   let runs := s.on F.EPT_CTL_EN = true ∧ leNat (d.drop 0x7C) ≠ 0
   (runs) ∧ (s.eptHalted = true) ∧ (op % 16 ≠ 2))) := by
  refine ⟨?_, ?_, ?_, ?_, ?_, ?_, ?_⟩ <;> decide +kernel

theorem wit_EndpointCommands_2 :
  (let slot : Fin 516 := 3
   let s : State := eptMade [(F.FLT_SRC_LEVEL 480, 2)] 2 6
   (s.quiet = true) ∧ (s.domOn 5 = true) ∧ (let a := s.cmdAddr slot.val
   let d := memBytes s.gm a 128
   let op := leNat (d.take 4)
   let runs := s.on F.EPT_CTL_EN = true ∧ leNat (d.drop 0x7C) ≠ 0
   (runs) ∧ (s.eptHalted = true) ∧ (op % 16 = 2))) ∧
  (let slot : Fin 516 := 3
   let k : Check := .lasting
   let s : State := eptMade [] 0x21 9
   (s.quiet = true) ∧ (s.domOn 5 = true) ∧ (let a := s.cmdAddr slot.val
   let d := memBytes s.gm a 128
   let op := leNat (d.take 4)
   let runs := s.on F.EPT_CTL_EN = true ∧ leNat (d.drop 0x7C) ≠ 0
   (runs) ∧ (s.eptHalted = false) ∧ (k = .lasting) ∧ (s.countsOnly 480 = true) ∧ (op % 16 ≠ 2))) ∧
  (let slot : Fin 516 := 3
   let k : Check := .lasting
   let s : State := eptMade [] 2 6
   (s.quiet = true) ∧ (s.domOn 5 = true) ∧ (let a := s.cmdAddr slot.val
   let d := memBytes s.gm a 128
   let op := leNat (d.take 4)
   let runs := s.on F.EPT_CTL_EN = true ∧ leNat (d.drop 0x7C) ≠ 0
   (runs) ∧ (s.eptHalted = false) ∧ (k = .lasting) ∧ (s.countsOnly 480 = true) ∧ (op % 16 = 2))) ∧
  (let slot : Fin 516 := 3
   let k : Check := .good
   let s : State := eptMade [] 3 6
   (s.quiet = true) ∧ (s.domOn 5 = true) ∧ (let a := s.cmdAddr slot.val
   let d := memBytes s.gm a 128
   let op := leNat (d.take 4)
   let runs := s.on F.EPT_CTL_EN = true ∧ leNat (d.drop 0x7C) ≠ 0
   (runs) ∧ (s.eptHalted = false) ∧ (k ≠ .lasting) ∧ (op % 16 ≠ 1) ∧ (op % 16 ≠ 2))) ∧
  (let slot : Fin 516 := 3
   let k : Check := .good
   let s : State := eptMade [] 0x61 6
   (s.quiet = true) ∧ (s.domOn 5 = true) ∧ (let a := s.cmdAddr slot.val
   let d := memBytes s.gm a 128
   let op := leNat (d.take 4)
   let runs := s.on F.EPT_CTL_EN = true ∧ leNat (d.drop 0x7C) ≠ 0
   (runs) ∧ (s.eptHalted = false) ∧ (k ≠ .lasting) ∧ (op % 16 = 1) ∧ ((bits op 6 4 = 0 ∨ 5 < bits op 6 4 ∨ bits op 31 14 ≠ 0 ∨
         bits op 9 7 ∈ [1, 4, 5, 7] ∨ (bit op 13 = true ∧ bits op 12 10 ∈ [1, 4, 5, 7]))))) ∧
  (let slot : Fin 516 := 3
   let k : Check := .good
   let s : State := eptFull [] 0x21 9
   (s.quiet = true) ∧ (s.domOn 5 = true) ∧ (let a := s.cmdAddr slot.val
   let d := memBytes s.gm a 128
   let op := leNat (d.take 4)
   let key1 := (d.drop 8).take (keyLen (bits op 9 7))
   let runs := s.on F.EPT_CTL_EN = true ∧ leNat (d.drop 0x7C) ≠ 0
   (runs) ∧ (s.eptHalted = false) ∧ (k ≠ .lasting) ∧ (op % 16 = 1) ∧ (bits op 31 14 = 0) ∧ (bits (leNat ((d.drop 4).take 4)) 30 18 = 0) ∧ (1 ≤ bits op 6 4) ∧ (bits op 6 4 ≤ 5) ∧ (bits op 9 7 ∈ [0, 2, 3, 6]) ∧ (bit op 13 = false) ∧ (((d.drop 0x68).take 20).any (· != 0) = false) ∧ ((s.buckets (bits op 9 7) key1).all (fun b => s.eptXmOk (s.bucketAddr b) 64) = true) ∧ (s.findKey (bits op 9 7) key1 = none) ∧ (s.freeSlot (bits op 9 7) key1 [] = none) ∧ (s.countsOnly 482 = true))) ∧
  (let slot : Fin 516 := 3
   let k : Check := .good
   let s : State := eptUsed [] 0x21 (2 ^ 31 + 6)
   (s.quiet = true) ∧ (s.domOn 5 = true) ∧ (let a := s.cmdAddr slot.val
   let d := memBytes s.gm a 128
   let op := leNat (d.take 4)
   let key1 := (d.drop 8).take (keyLen (bits op 9 7))
   let x := leNat ((d.drop 4).take 4) % 2 ^ 18
   let runs := s.on F.EPT_CTL_EN = true ∧ leNat (d.drop 0x7C) ≠ 0
   (runs) ∧ (s.eptHalted = false) ∧ (k ≠ .lasting) ∧ (op % 16 = 1) ∧ (bits op 31 14 = 0) ∧ (bits (leNat ((d.drop 4).take 4)) 30 18 = 0) ∧ (1 ≤ bits op 6 4) ∧ (bits op 6 4 ≤ 5) ∧ (bits op 9 7 ∈ [0, 2, 3, 6]) ∧ (bit op 13 = false) ∧ (((d.drop 0x68).take 20).any (· != 0) = false) ∧ ((s.buckets (bits op 9 7) key1).all (fun b => s.eptXmOk (s.bucketAddr b) 64) = true) ∧ (s.findKey (bits op 9 7) key1 = none) ∧ (s.freeSlot (bits op 9 7) key1 [] ≠ none) ∧ (bit (leNat ((d.drop 4).take 4)) 31 = true) ∧ (s.entFree x = false) ∧ (s.countsOnly 483 = true))) := by
  refine ⟨?_, ?_, ?_, ?_, ?_, ?_, ?_⟩ <;> decide +kernel

theorem wit_EndpointCommands_3 :
  (let slot : Fin 516 := 3
   let k : Check := .good
   let s : State := eptUsed [(F.EPT_ALLOC_FLOOR_X, 0x3FFFF)] 0x21 6
   (s.quiet = true) ∧ (s.domOn 5 = true) ∧ (let a := s.cmdAddr slot.val
   let d := memBytes s.gm a 128
   let op := leNat (d.take 4)
   let key1 := (d.drop 8).take (keyLen (bits op 9 7))
   let runs := s.on F.EPT_CTL_EN = true ∧ leNat (d.drop 0x7C) ≠ 0
   (runs) ∧ (s.eptHalted = false) ∧ (k ≠ .lasting) ∧ (op % 16 = 1) ∧ (bits op 31 14 = 0) ∧ (bits (leNat ((d.drop 4).take 4)) 30 18 = 0) ∧ (1 ≤ bits op 6 4) ∧ (bits op 6 4 ≤ 5) ∧ (bits op 9 7 ∈ [0, 2, 3, 6]) ∧ (bit op 13 = false) ∧ (((d.drop 0x68).take 20).any (· != 0) = false) ∧ ((s.buckets (bits op 9 7) key1).all (fun b => s.eptXmOk (s.bucketAddr b) 64) = true) ∧ (s.findKey (bits op 9 7) key1 = none) ∧ (s.freeSlot (bits op 9 7) key1 [] ≠ none) ∧ (bit (leNat ((d.drop 4).take 4)) 31 = false) ∧ (s.allocIndex (s.get F.EPT_ALLOC_FLOOR_X) = none) ∧ (s.countsOnly 483 = true))) ∧
  (let who : Fin 4 := 0
   let v : Word := 0
   let s : State := at' [(F.EPT_CACHE_BANKS, 3)]
   (s.takes who.val 5 = true) ∧ (let w := if s.on F.EPT_CTL_EN = true ∨ s.eptBanks.length < 2 then s else (forEach (s.ept.lines.filter (fun l => !s.eptBanks.contains (l.gaddr / 0x100000))) (fun l s => (s.writeBack l).dropLine l.entry) s).put F.EPT_CTL_EN 1
   (bit v.toNat 1 = false) ∧ (w.quiet = true))) ∧
  (let who : Fin 4 := 0
   let v : Word := 1
   let s : State := { at' [(F.EPT_CTL_EN, 1), (F.FLT_SRC_LEVEL 499, 2)] with ept := { lines := [⟨5, 0x1000, false⟩] } }
   (s.takes who.val 5 = true) ∧ (bit v.toNat 0 = true) ∧ (s.on F.EPT_CTL_EN = true) ∧ (s.xmDead = true) ∧ (s.countsOnly 481 = true) ∧ (s.ept.lines.length = 1)) ∧
  (let who : Fin 4 := 0
   let v : Word := 0
   let s : State := at' [(F.EPT_CACHE_BANKS, 3)]
   (s.takes who.val 5 = true) ∧ (bit v.toNat 1 = false) ∧ (s.on F.EPT_CTL_EN = false) ∧ (s.ept.lines = [])) ∧
  (let who : Fin 4 := 0
   let v : Word := 1
   let s : State := { at' [(F.EPT_CTL_EN, 1)] with ept := { lines := [⟨5, 0x1000, true⟩] } }
   (s.takes who.val 5 = true) ∧ (bit v.toNat 0 = true) ∧ (s.on F.EPT_CTL_EN = true) ∧ (s.xmDead = false)) ∧
  (let l : EptLine := ⟨5, 0x1000, true⟩
   let k : Nat := 0x17
   let s : State := { at' [(F.EPT_TBL_BASE_ADDR, 0x100)] with gm := [(0x1017, 9)] }
   (0x10 ≤ k) ∧ (k < 0x18) ∧ (let b : Nat := 0
   (b < s.entAddr l.entry ∨ s.entAddr l.entry + 256 ≤ b))) ∧
  (let k : Nat := 0x17
   (0x10 ≤ k) ∧ (k < 0x18)) := by
  refine ⟨?_, ?_, ?_, ?_, ?_, ?_, ?_⟩ <;> decide +kernel

theorem wit_RoutesAndResults :
  (let who : Fin 4 := 0
   let s : State := at' [(F.EPT_RT_STAGE_WORD 0, 0xFFFFFF0A), (F.EPT_RT_STAGE_WORD 4, 9), (F.EPT_RT_STAGE_WORD 5, 77)]
   (s.takes who.val 5 = true) ∧ (let w4 := s.get (F.EPT_RT_STAGE_WORD 4)
   let plen := w4 % 256
   let v6 := bit w4 8
   let w := if v6 then 128 else 32
   (bit w4 9 = false) ∧ (plen ≤ w) ∧ ((s.ept.routes.filter (fun r => r.v6 == v6)).length < (if v6 then 32768 else 65536)))) ∧
  (let who : Fin 4 := 0
   let s : State := { at' [(F.EPT_RT_STAGE_WORD 0, 0xFFFFFF0A), (F.EPT_RT_STAGE_WORD 4, 0x200 + 9), (F.EPT_RT_STAGE_WORD 5, 77)] with ept := { routes := [⟨false, 9, 0x0A800000, 5⟩, ⟨true, 9, 0x0A800000, 5⟩] } }
   (s.takes who.val 5 = true) ∧ (let w4 := s.get (F.EPT_RT_STAGE_WORD 4)
   let plen := w4 % 256
   let v6 := bit w4 8
   let w := if v6 then 128 else 32
   let raw := (List.range 4).flatMap (fun k => natLe (s.get (F.EPT_RT_STAGE_WORD k)) 4)
   let pre := beNat (raw.take (w / 8)) / 2 ^ (w - plen) * 2 ^ (w - plen)
   let same := fun (r : Route) => r.v6 == v6 && r.plen == plen && r.pre == pre
   (bit w4 9 = true) ∧ (plen ≤ w) ∧ (s.ept.routes.any same = true))) ∧
  (let who : Fin 4 := 0
   let s : State := at' [(F.EPT_RT_STAGE_WORD 4, 0x200 + 9)]
   (s.takes who.val 5 = true) ∧ (let w4 := s.get (F.EPT_RT_STAGE_WORD 4)
   let plen := w4 % 256
   let v6 := bit w4 8
   let w := if v6 then 128 else 32
   let raw := (List.range 4).flatMap (fun k => natLe (s.get (F.EPT_RT_STAGE_WORD k)) 4)
   let pre := beNat (raw.take (w / 8)) / 2 ^ (w - plen) * 2 ^ (w - plen)
   let same := fun (r : Route) => r.v6 == v6 && r.plen == plen && r.pre == pre
   (bit w4 9 = true) ∧ (plen ≤ w) ∧ (s.ept.routes.any same = false))) ∧
  (let who : Fin 4 := 0
   let s : State := at' [(F.EPT_RT_STAGE_WORD 4, 129 + 256)]
   (s.takes who.val 5 = true) ∧ (let w4 := s.get (F.EPT_RT_STAGE_WORD 4)
   let plen := w4 % 256
   let v6 := bit w4 8
   let w := if v6 then 128 else 32
   (bit w4 9 = false) ∧ (w < plen))) ∧
  (let who : Fin 4 := 0
   let s : State := at' [(F.EPT_RT_STAGE_WORD 4, 33 + 512)]
   (s.takes who.val 5 = true) ∧ (let w4 := s.get (F.EPT_RT_STAGE_WORD 4)
   let plen := w4 % 256
   let v6 := bit w4 8
   let w := if v6 then 128 else 32
   (bit w4 9 = true) ∧ (w < plen))) ∧
  (let who : Fin 4 := 0
   let s : State := { at' [(F.EPT_RT_STAGE_WORD 0, 0xFFFFFF0A), (F.EPT_RT_STAGE_WORD 4, 9), (F.EPT_RT_STAGE_WORD 5, 77)] with ept := { routes := [⟨false, 9, 0x0A800000, 5⟩, ⟨true, 9, 0x0A800000, 5⟩] } }
   (s.takes who.val 5 = true) ∧ (let w4 := s.get (F.EPT_RT_STAGE_WORD 4)
   let plen := w4 % 256
   let v6 := bit w4 8
   let w := if v6 then 128 else 32
   let raw := (List.range 4).flatMap (fun k => natLe (s.get (F.EPT_RT_STAGE_WORD k)) 4)
   let pre := beNat (raw.take (w / 8)) / 2 ^ (w - plen) * 2 ^ (w - plen)
   let same := fun (r : Route) => r.v6 == v6 && r.plen == plen && r.pre == pre
   (bit w4 9 = false) ∧ (plen ≤ w) ∧ (s.ept.routes.any same = true))) ∧
  (let who : Fin 4 := 0
   let s : State := at' [(F.EPT_RT_STAGE_WORD 4, 33 + 512)]
   (s.takes who.val 5 = true) ∧ (let w4 := s.get (F.EPT_RT_STAGE_WORD 4)
   (bit w4 9 = true))) := by
  refine ⟨?_, ?_, ?_, ?_, ?_, ?_, ?_⟩ <;> decide +kernel

theorem wit_RoutesAndResults_2 :
  (let who : Fin 4 := 0
   let s : State := at' [(F.EPT_RT_STAGE_WORD 4, 33)]
   (s.takes who.val 5 = true) ∧ (let w4 := s.get (F.EPT_RT_STAGE_WORD 4)
   (bit w4 9 = false))) ∧
  (let l : List Route := List.replicate 32768 ⟨true, 7, 0, 0⟩
   let s : State := at' [(F.EPT_RT_STAGE_WORD 4, 9 + 256)]
   (s.takes 0 5 = true) ∧ (let w4 := s.get (F.EPT_RT_STAGE_WORD 4)
   (bit w4 9 = false) ∧ (w4 % 256 ≤ (if bit w4 8 then 128 else 32)) ∧ (l.any (fun r => r.v6 == bit w4 8 && r.plen == w4 % 256) = false) ∧ ((if bit w4 8 then 32768 else 65536) ≤ (l.filter (fun r => r.v6 == bit w4 8)).length) ∧ (s.countsOnly 485 = true))) ∧
  (let v6 : Bool := false
   let a : Nat := 0x0A8000FF
   let r : Route := ⟨false, 32, 0x0A8000FF, 5⟩
   let s : State := { live with ept := { routes := [⟨false, 9, 0x0A800000, 5⟩, ⟨false, 32, 0x0A8000FF, 5⟩] } }
   (s.routeFind v6 a = some r) ∧ (let q : Route := ⟨false, 9, 0x0A800000, 5⟩
   (q ∈ s.ept.routes) ∧ (q.v6 = v6) ∧ (q.plen ≤ (if v6 then 128 else 32)) ∧ (q.pre = a / 2 ^ ((if v6 then 128 else 32) - q.plen) * 2 ^ ((if v6 then 128 else 32) - q.plen)))) ∧
  (let v6 : Bool := false
   let a : Nat := 0x0A8000FF
   let r : Route := ⟨false, 32, 0x0A8000FF, 5⟩
   let s : State := { live with ept := { routes := [⟨false, 9, 0x0A800000, 5⟩, ⟨false, 32, 0x0A8000FF, 5⟩] } }
   (s.routeFind v6 a = some r)) ∧
  (let i : Nat := 1
   let g : Lookup := lkG 4 [1, 2, 3, 4]
   let s : State := lkS [(F.FLT_SRC_LEVEL 480, 2)] {} (lkG 4 [1, 2, 3, 4])
   (s.running 5 = true) ∧ (s.ept.lookups[i]? = some g) ∧ (s.eptHalted = true)) ∧
  (let i : Nat := 1
   let g : Lookup := lkG 4 [1, 2, 3, 4]
   let s : State := lkS [(F.EPT_CTL_EN, 0)] {} (lkG 4 [1, 2, 3, 4])
   (s.running 5 = true) ∧ (s.ept.lookups[i]? = some g) ∧ (s.eptHalted = false) ∧ (s.on F.EPT_CTL_EN = false)) ∧
  (let i : Nat := 1
   let k : Check := .good
   let g : Lookup := lkG 4 [1, 2, 3, 4]
   let s : State := lkS [] {} (lkG 4 [1, 2, 3, 4])
   (s.running 5 = true) ∧ (s.ept.lookups[i]? = some g) ∧ (let f := s.search g.table g.key k
   (s.eptHalted = false) ∧ (s.on F.EPT_CTL_EN = true) ∧ (f = .miss))) := by
  refine ⟨?_, ?_, ?_, ?_, ?_, ?_, ?_⟩ <;> decide +kernel

theorem wit_RoutesAndResults_3 :
  (let i : Nat := 1
   let k : Check := .good
   let g : Lookup := lkG 4 [1, 2, 3, 4]
   let s : State := lkS [] { routes := [⟨false, 8, 0x01000000, 5⟩] } (lkG 4 [1, 2, 3, 4])
   (s.running 5 = true) ∧ (s.ept.lookups[i]? = some g) ∧ (let f := s.search g.table g.key k
   let r : Route := ⟨false, 8, 0x01000000, 5⟩
   (s.eptHalted = false) ∧ (s.on F.EPT_CTL_EN = true) ∧ (f = .route r) ∧ (r.nh < 2 ^ 18) ∧ (r.plen < 256))) ∧
  (let i : Nat := 1
   let k : Check := .lasting
   let g : Lookup := lkG 4 [1, 2, 3, 4]
   let s : State := lkS [] { routes := [⟨false, 8, 0x01000000, 5⟩] } (lkG 4 [1, 2, 3, 4])
   (s.running 5 = true) ∧ (s.ept.lookups[i]? = some g) ∧ (let f := s.search g.table g.key k
   let n : Nat := 484
   (s.eptHalted = false) ∧ (s.on F.EPT_CTL_EN = true) ∧ (f = .bad n) ∧ (s.countsOnly n = true))) ∧
  (let i : Nat := 1
   let k : Check := .good
   let g : Lookup := lkG 1 [6, 0, 0, 0]
   let s : State := lkS [] { ents := [(6, { kind := 2 })], lines := [⟨6, 0x1000, false⟩] } (lkG 1 [6, 0, 0, 0])
   (s.running 5 = true) ∧ (s.ept.lookups[i]? = some g) ∧ (let f := s.search g.table g.key k
   let x : Nat := 6
   let c : EptLine := ⟨6, 0x1000, false⟩
   (s.eptHalted = false) ∧ (s.on F.EPT_CTL_EN = true) ∧ (f = .entry x) ∧ (s.eptLine x = some c) ∧ (c.stuck = false) ∧ (s.pinsHeld g.dest < 8))) ∧
  (let i : Nat := 1
   let k : Check := .good
   let g : Lookup := lkG 1 [6, 0, 0, 0]
   let s : State := State.setThread (lkS [] { ents := [(6, { kind := 2 })], lines := [⟨6, 0x1000, false⟩] } (lkG 1 [6, 0, 0, 0])) 9 { st := .run, task := some { id := 4 }, pins := [1, 2, 3, 4, 5, 6, 7, 8] }
   (s.running 5 = true) ∧ (s.ept.lookups[i]? = some g) ∧ (let f := s.search g.table g.key k
   let x : Nat := 6
   let c : EptLine := ⟨6, 0x1000, false⟩
   (s.eptHalted = false) ∧ (s.on F.EPT_CTL_EN = true) ∧ (f = .entry x) ∧ (s.eptLine x = some c) ∧ (c.stuck = false) ∧ (8 ≤ s.pinsHeld g.dest))) ∧
  (let i : Nat := 1
   let k : Check := .good
   let wb : Check := .good
   let s : State := State.setThread (lkS [] { ents := [(6, { kind := 2 })], lines := [⟨6, 0x1000, false⟩] } (lkG 1 [6, 0, 0, 0])) 9 { st := .run, task := some { id := 4 }, pins := [1, 2, 3, 4, 5, 6, 7, 8] }
   (s.running 5 = true) ∧ (let w := s.lookupComplete i k wb
   (w.quiet = true))) ∧
  (let i : Nat := 0
   let s : State := live
   (s.quiet = true) ∧ ((s.domOn 5 = false ∨ s.ept.lookups[i]? = none))) ∧
  (let t : Fin 512 := 9
   let i : Nat := 0
   let id : Nat := 8
   let k : Nat := 3
   let v : DWord := 5
   let pin : Option Nat := some 6
   let s : State := State.setThread { live with yal := { arriving := [⟨.slot 9 8 3, 5, some 6⟩] } } 9 { st := .wait (.operand 4 3), task := some { id := 8 }, pc := 0x100 }
   (s.running 5 = true) ∧ (s.yal.arriving[i]? = some ⟨.slot t.val id k, v, pin⟩) ∧ (let th := { s.thread t.val with pins := (s.thread t.val).pins ++ pin.toList }
   let mine := fun (task : Task) => (s.thread t.val).task = some task ∧ task.id = id
   let task : Task := { id := 8 }
   let gd : Nat := 4
   (mine task) ∧ (th.st = .wait (.operand gd k)))) := by
  refine ⟨?_, ?_, ?_, ?_, ?_, ?_, ?_⟩ <;> decide +kernel

theorem wit_RoutesAndResults_4 :
  (let t : Fin 512 := 9
   let i : Nat := 0
   let id : Nat := 8
   let k : Nat := 3
   let v : DWord := 5
   let pin : Option Nat := some 6
   let s : State := State.setThread { live with yal := { arriving := [⟨.slot 9 8 3, 5, some 6⟩] } } 9 { st := .run, task := some { id := 8 }, pc := 0x100 }
   (s.running 5 = true) ∧ (s.yal.arriving[i]? = some ⟨.slot t.val id k, v, pin⟩) ∧ (let th := { s.thread t.val with pins := (s.thread t.val).pins ++ pin.toList }
   let mine := fun (task : Task) => (s.thread t.val).task = some task ∧ task.id = id
   let task : Task := { id := 8 }
   (mine task) ∧ ((match th.st with | .wait (.operand _ j) => j == k | _ => false) = false))) ∧
  (let t : Fin 512 := 9
   let i : Nat := 0
   let id : Nat := 8
   let k : Nat := 3
   let v : DWord := 5
   let pin : Option Nat := some 6
   let s : State := { live with yal := { arriving := [⟨.slot 9 8 3, 5, some 6⟩] }, ept := { pins := [(6, 2)] } }
   (s.running 5 = true) ∧ (s.yal.arriving[i]? = some ⟨.slot t.val id k, v, pin⟩) ∧ ((s.thread t.val).task.map Task.id ≠ some id)) ∧
  (let i : Nat := 0
   let id : Nat := 8
   let k : Fin 3 := 1
   let v : DWord := 5
   let pin : Option Nat := some 6
   let s : State := { live with yal := { arriving := [⟨.creation 8 1, 5, some 6⟩] }, hts := { tasks := [{ id := 7 }, { id := 8 }] } }
   (s.running 5 = true) ∧ (s.yal.arriving[i]? = some ⟨.creation id k.val, v, pin⟩) ∧ ((∃ j ∈ s.hts.tasks, j.id = id))) ∧
  (let i : Nat := 0
   let id : Nat := 8
   let k : Fin 3 := 1
   let v : DWord := 5
   let pin : Option Nat := none
   let s : State := { live with yal := { arriving := [⟨.creation 8 1, 5, none⟩] }, hts := { tasks := [{ id := 7 }] } }
   (s.running 5 = true) ∧ (s.yal.arriving[i]? = some ⟨.creation id k.val, v, pin⟩) ∧ ((∀ j ∈ s.hts.tasks, j.id ≠ id))) ∧
  (let i : Nat := 0
   let s : State := live
   (s.quiet = true) ∧ ((s.domOn 5 = false ∨ s.yal.arriving[i]? = none))) := by
  refine ⟨?_, ?_, ?_, ?_, ?_⟩ <;> decide +kernel

theorem wit_ConfigurationJournal :
  (let who : Fin 4 := 0
   let v : Word := 0
   let s : State := at' [(F.EPT_JRN_SEQ_SEQ, 9)]
   (s.takes who.val 5 = true) ∧ (bit v.toNat 2 = false)) ∧
  (let who : Fin 4 := 3
   let v : Word := 0x7FE0
   let s : State := at' [(F.EPT_JRN_CTL_MOUNTED, 1), (F.EPT_JRN_ID_ID 3, 5)]
   (s.takes who.val 5 = true) ∧ ((∀ q, q ∈ s.ept.appends → q.who ≠ who.val)) ∧ (let q : Bool → JrnReq := fun del => ⟨who.val, fldOf v (F.EPT_JRN_APP_TYPE who.val), del, s.get (F.EPT_JRN_ID_ID who.val), memBytes s.gm (s.get (F.EPT_JRN_SRC_ADDR who.val)) (fldOf v (F.EPT_JRN_APP_LEN who.val))⟩
   (s.on F.EPT_JRN_CTL_MOUNTED = true) ∧ (fldOf v (F.EPT_JRN_APP_TYPE who.val) ≠ 0) ∧ (fldOf v (F.EPT_JRN_APP_LEN who.val) ≤ 4064) ∧ (s.jrnRoom (q false) = true))) ∧
  (let who : Fin 4 := 3
   let s : State := at' [(F.EPT_JRN_CTL_MOUNTED, 0)]
   (s.takes who.val 5 = true) ∧ ((∀ q, q ∈ s.ept.appends → q.who ≠ who.val)) ∧ (s.on F.EPT_JRN_CTL_MOUNTED = false)) ∧
  (let who : Fin 4 := 3
   let v : Word := 0x7F00
   let s : State := at' [(F.EPT_JRN_CTL_MOUNTED, 1)]
   (s.takes who.val 5 = true) ∧ ((∀ q, q ∈ s.ept.appends → q.who ≠ who.val)) ∧ (s.on F.EPT_JRN_CTL_MOUNTED = true) ∧ ((fldOf v (F.EPT_JRN_APP_TYPE who.val) = 0 ∨ 4064 < fldOf v (F.EPT_JRN_APP_LEN who.val)))) ∧
  (let who : Fin 4 := 3
   let s : State := { at' [(F.EPT_JRN_CTL_MOUNTED, 1)] with ept := { appends := [{ who := 3, type := 5, id := 9, payload := [1, 2, 3] }] } }
   (s.takes who.val 5 = true) ∧ ((∃ q ∈ s.ept.appends, q.who = who.val))) ∧
  (let who : Fin 4 := 0
   let v : Word := 0
   let ok : Bool := true
   let s : State := live
   (s.takes who.val 5 = true) ∧ (let mounts := s.jrnCtlWrite (withFld v F.EPT_JRN_CTL_MOUNT 1) ok
   (mounts.quiet = true))) ∧
  (let who : Fin 4 := 0
   let v : Word := 0
   let ok : Bool := true
   let s : State := live
   (s.takes who.val 5 = true) ∧ (let compacts := s.jrnCtlWrite (withFld v F.EPT_JRN_CTL_COMPACT 1) ok
   (compacts.quiet = true))) := by
  refine ⟨?_, ?_, ?_, ?_, ?_, ?_, ?_⟩ <;> decide +kernel

theorem wit_ConfigurationJournal_2 :
  (let who : Fin 4 := 0
   let v : Word := 0
   let s : State := live
   (s.takes who.val 5 = true) ∧ (bit v.toNat 0 = false) ∧ (s.on F.EPT_JRN_CTL_MOUNTED = false)) ∧
  (let ok1 : Bool := true
   let ok2 : Bool := false
   let erase : Bool := true
   let s : State := { at' [(F.EPT_JRN_CTL_MOUNTED, 1)] with ept := { appends := [{ who := 3, type := 5, id := 9, payload := [1, 2, 3] }] } }
   (s.quiet = true) ∧ (let w := s.journalAppendDone ok1 ok2 erase
   (s.domOn 5 = true) ∧ (w.quiet = true))) ∧
  (let s : State := live
   (s.quiet = true) ∧ ((s.domOn 5 = false ∨ s.ept.appends = []))) ∧
  (let q : JrnReq := { who := 3, type := 5, id := 9, payload := [1, 2, 3] }
   let l : List JrnReq := []
   let s : State := { at' [(F.EPT_JRN_CTL_MOUNTED, 1), (F.EPT_JRN_CTL_BUSY, 1)] with ept := { appends := [{ who := 3, type := 5, id := 9, payload := [1, 2, 3] }] } }
   (s.running 5 = true) ∧ (s.ept.appends = q :: l) ∧ (s.jrnRoom q = true) ∧ (q.payload.length ≤ 4064) ∧ (s.dataSectors.length < 47) ∧ (s.get F.EPT_JRN_SEQ_SEQ + 1 < 2 ^ 64)) ∧
  (let q : JrnReq := { who := 3, type := 5, id := 9, payload := [1, 2, 3] }
   let l : List JrnReq := []
   let s : State := { at' [(F.EPT_JRN_CTL_MOUNTED, 1), (F.EPT_JRN_CTL_BUSY, 1)] with ept := { appends := [{ who := 3, type := 5, id := 9, payload := [1, 2, 3] }] } }
   (s.running 5 = true) ∧ (s.ept.appends = q :: l) ∧ (s.jrnRoom q = true) ∧ (s.dataSectors = []) ∧ (s.get F.EPT_JRN_SEQ_SEQ + 1 < 2 ^ 64) ∧ (s.countsOnly 486 = true)) ∧
  (let q : JrnReq := { who := 3, type := 5, id := 9, payload := [1, 2, 3] }
   let l : List JrnReq := []
   let s : State := { at' [(F.EPT_JRN_CTL_MOUNTED, 1), (F.EPT_JRN_CTL_BUSY, 1)] with ept := { appends := [{ who := 3, type := 5, id := 9, payload := [1, 2, 3] }] } }
   (s.running 5 = true) ∧ (s.ept.appends = q :: l) ∧ (s.countsOnly 490 = true)) ∧
  (let who : Fin 4 := 0
   let v : Word := 0
   let s : State := { at' [(F.EPT_JRN_CTL_MOUNTED, 1)] with flash := flashProgram [] 0 (sectorHeader 1 1 ++ jrnBytes 5 9 1 0 0 [1, 2, 3]) }
   (s.takes who.val 5 = true) ∧ (s.on F.EPT_JRN_CTL_MOUNTED = true) ∧ (bit v.toNat 0 = false) ∧ (s.dataSectors ≠ []) ∧ (s.dataSectors.length < 64)) := by
  refine ⟨?_, ?_, ?_, ?_, ?_, ?_, ?_⟩ <;> decide +kernel

theorem wit_ConfigurationJournal_3 :
  (let who : Fin 4 := 0
   let v : Word := 0
   let s : State := at' [(F.EPT_JRN_CTL_MOUNTED, 1)]
   (s.takes who.val 5 = true) ∧ (s.on F.EPT_JRN_CTL_MOUNTED = true) ∧ (bit v.toNat 0 = false) ∧ ((s.dataSectors = [] ∨ 64 ≤ s.dataSectors.length))) ∧
  (let k : Nat := 2
   let bs : List Byte := [1, 2, 0x33]
   (k < bs.length)) := by
  refine ⟨?_, ?_⟩ <;> decide +kernel

theorem wit_FabricDelivery :
  (let slot : Fin 8 := 1
   let m : FedMsg := fmsg 16 4 0 [7]
   let p : List Byte := [7]
   let c : Check := .corrected
   let s : State := fed1 [(F.FED_ID_ANCHOR, 0)]
   (s.fabricTakes slot.val m p) ∧ (c ≠ .lasting) ∧ (s.mboxFull = false) ∧ ((m.type = 20 → s.fedId ≠ s.fedAnchor)) ∧ (m.type = 16)) ∧
  (let slot : Fin 8 := 1
   let m : FedMsg := fmsg 17 4 0 [7]
   let p : List Byte := [7]
   let c : Check := .corrected
   let s : State := fed1 []
   (s.fabricTakes slot.val m p) ∧ (c ≠ .lasting) ∧ (s.mboxFull = false) ∧ ((m.type = 20 → s.fedId ≠ s.fedAnchor)) ∧ (m.type = 17)) ∧
  (let slot : Fin 8 := 1
   let m : FedMsg := wmic (fmsg 19 1 0 [7]) 0xd3b8386506a5c6cf
   let p : List Byte := [7]
   let c : Check := .corrected
   let s : State := fed1 []
   (s.fabricTakes slot.val m p) ∧ (c ≠ .lasting) ∧ (s.mboxFull = false) ∧ ((m.type = 20 → s.fedId ≠ s.fedAnchor)) ∧ (m.type = 19)) ∧
  (let slot : Fin 8 := 1
   let m : FedMsg := wmic (fmsg 20 1 0 [7]) 0x316a18340b8bb24f
   let p : List Byte := [7]
   let c : Check := .corrected
   let s : State := fed1 [(F.FED_ID_ANCHOR, 9)]
   (s.fabricTakes slot.val m p) ∧ (c ≠ .lasting) ∧ (s.mboxFull = false) ∧ ((m.type = 20 → s.fedId ≠ s.fedAnchor)) ∧ (m.type = 20)) ∧
  (let slot : Fin 8 := 1
   let m : FedMsg := wmic (fmsg 200 0 0 [7]) 0xe7eb3b18c959ca5c
   let p : List Byte := [7]
   let c : Check := .corrected
   let s : State := fed1 [(F.FED_ID_ANCHOR, 9)]
   (s.fabricTakes slot.val m p) ∧ (c ≠ .lasting) ∧ (s.mboxFull = false) ∧ ((m.type = 20 → s.fedId ≠ s.fedAnchor)) ∧ (32 ≤ m.type.toNat)) ∧
  (let slot : Fin 8 := 1
   let m : FedMsg := wmic (fmsg 20 1 0 [7]) 0x316a18340b8bb24f
   let p : List Byte := [7]
   let c : Check := .corrected
   let s : State := fed1 [(F.FED_ID_ANCHOR, 0)]
   (s.fabricTakes slot.val m p) ∧ (c ≠ .lasting) ∧ (s.mboxFull = false) ∧ (m.type = 20) ∧ (s.fedId = s.fedAnchor)) ∧
  (let slot : Fin 8 := 1
   let m : FedMsg := wmic (fmsg 18 0 255 [7]) 0x3ac1fdbce24ae943
   let p : List Byte := [7]
   let c : Check := .corrected
   let s : State := fed1 [(F.FEDS_LINK_STAT_UP 1, 1), (F.FED_ROUTE_LINK 5, 1), (F.FED_ROUTE_HOPS 5, 1)]
   (s.fabricTakes slot.val m p) ∧ (c ≠ .lasting) ∧ (s.mboxFull = false) ∧ (m.type = 18) ∧ (m.src.toNat ≠ s.fedId)) := by
  refine ⟨?_, ?_, ?_, ?_, ?_, ?_, ?_⟩ <;> decide +kernel

theorem wit_FabricDelivery_2 :
  (let slot : Fin 8 := 1
   let m : FedMsg := wmic (fmsg 200 0 0 [7]) 0xe7eb3b18c959ca5c
   let p : List Byte := [7]
   let c : Check := .corrected
   let s : State := fed1 [(F.FED_MBOX_RD_PTR, 1)]
   (s.fabricTakes slot.val m p) ∧ (c ≠ .lasting) ∧ (s.mboxFull = true) ∧ (32 ≤ m.type.toNat) ∧ (s.countsOnly 585 = true)) ∧
  (let slot : Fin 8 := 1
   let m : FedMsg := wmic (fmsg 4 0 0 [7]) 0xd92de7b062c28219
   let p : List Byte := [7]
   let c : Check := .corrected
   let s : State := fed1 []
   (s.fabricTakes slot.val m p) ∧ (c ≠ .lasting) ∧ (m.type = 4)) ∧
  (let slot : Fin 8 := 1
   let m : FedMsg := wmic (fmsg 1 0 0 [1, 0, 0, 0, 9, 0, 0, 0]) 0xedf9281b58d9cecb
   let p : List Byte := [1, 0, 0, 0, 9, 0, 0, 0]
   let c : Check := .corrected
   let s : State := { fed1 [] with fed := { rel := [{ msg := { fmsg 32 1 5 [] with seq := 9, dst := 5 } }, { msg := fmsg 32 1 5 [] }] } }
   (s.fabricTakes slot.val m p) ∧ (c ≠ .lasting) ∧ (m.type = 1)) ∧
  (let slot : Fin 8 := 1
   let m : FedMsg := wmic (fmsg 3 0 0 [8, 0, 0, 0, 0, 0, 0, 0, 1, 2, 3, 4]) 0xe3d3b33dec30bd30
   let p : List Byte := [8, 0, 0, 0, 0, 0, 0, 0, 1, 2, 3, 4]
   let c : Check := .corrected
   let s : State := { fed1 [(F.HST_RA_CTL_BUSY, 1)] with hst := { raDev := 5, raNum := 8 } }
   (s.fabricTakes slot.val m p) ∧ (c ≠ .lasting) ∧ (m.type = 3) ∧ (s.on F.HST_RA_CTL_BUSY = true) ∧ (m.src.toNat = s.hst.raDev) ∧ (leNat (p.take 4) = s.hst.raNum)) ∧
  (let slot : Fin 8 := 1
   let m : FedMsg := wmic (fmsg 2 1 0 [0, 0, 0, 0, 1, 0, 0, 0, 3, 0, 0x14, 0, 0xFF, 0xFF, 0xFF, 0xFF]) 0x92cc9c8964e51c08
   let p : List Byte := [0, 0, 0, 0, 1, 0, 0, 0, 3, 0, 0x14, 0, 0xFF, 0xFF, 0xFF, 0xFF]
   let c : Check := .corrected
   let s : State := fed1 [(F.FED_ROUTE_HOPS 5, 1)]
   (s.fabricTakes slot.val m p) ∧ (c ≠ .lasting) ∧ (let j : Nat := 0
   (m.type = 2) ∧ (s.racc m.src.toNat = { inc := m.incarn.toNat, next := leNat (p.take 4) }) ∧ (leNat ((p.drop 8).take 4) = 0x50000C / 4) ∧ (s.domOn 12 = true) ∧ (s.reaches 0 = true) ∧ (s.mode ≠ 0xB) ∧ (leNat ((p.drop 4).take 1) ≤ 1) ∧ (s.fedRoute m.src.toNat = some j) ∧ (j < 2))) ∧
  (let slot : Fin 8 := 1
   let m : FedMsg := fmsg 4 0 6 [7]
   let j : Nat := 0
   let c : Check := .good
   let s : State := fed1 [(F.FED_ROUTE_HOPS 6, 3)]
   (s.quiet = true) ∧ (s.fabricHears slot.val = true) ∧ (s.fedState ≠ 0) ∧ (s.on (F.FEDS_LINK_CFG_EN slot.val) = true) ∧ (s.fedHalted = false) ∧ (m.ver = 1) ∧ (m.type = 4) ∧ (fedFlag m fOpen = false) ∧ (c ≠ .lasting) ∧ (m.dst.toNat ≠ s.fedId) ∧ (s.fedRoute m.dst.toNat = some j) ∧ (j < 2) ∧ (s.cuSends j = true) ∧ (s.stopped = false) ∧ ((fedBytes m).length + 18 ≤ s.cuMaxLen j) ∧ (1 < m.hops.toNat) ∧ (m.dst ≠ 0xFF)) ∧
  (let slot : Fin 8 := 1
   let m : FedMsg := fmsg 4 0 0 [7]
   let c : Check := .good
   let s : State := fed1 []
   (s.quiet = true) ∧ (s.fabricHears slot.val = true) ∧ (s.fedState ≠ 0) ∧ (s.on (F.FEDS_LINK_CFG_EN slot.val) = true) ∧ (s.fedHalted = false) ∧ (m.ver = 1) ∧ (m.type = 4) ∧ (c ≠ .lasting) ∧ (m.dst.toNat = s.fedId) ∧ (s.fedCheck m = none) ∧ (s.get (F.FLT_CLASS_CFG01_ENTRY 0) = 0)) := by
  refine ⟨?_, ?_, ?_, ?_, ?_, ?_, ?_⟩ <;> decide +kernel

theorem wit_FabricDelivery_3 :
  (let s : State := fed1 []
   (s.quiet = true)) ∧
  (let m : FedMsg := fmsg 33 0 0 [7]
   let s : State := fed1 []
   (s.quiet = true) ∧ (32 ≤ m.type.toNat)) ∧
  (let m : FedMsg := fmsg 31 0 0 [7]
   let s : State := fed1 []
   (s.quiet = true) ∧ (m.type.toNat < 32)) ∧
  (let slot : Fin 8 := 1
   let s : State := fed1 [(F.CU_STAT_UP 1, 0)]
   (s.quiet = true) ∧ (s.fabricHears slot.val = false)) ∧
  (let slot : Fin 8 := 1
   let s : State := fed1 [(F.FED_STAT_STATE, 0)]
   (s.quiet = true) ∧ (s.fabricHears slot.val = true) ∧ ((s.fedState = 0 ∨ s.on (F.FEDS_LINK_CFG_EN slot.val) = false))) ∧
  (let slot : Fin 8 := 1
   let m : FedMsg := fmsg 33 0 0 [7]
   let c : Check := .lasting
   let s : State := fed1 []
   (s.quiet = true) ∧ (s.fabricHears slot.val = true) ∧ (s.fedState ≠ 0) ∧ (s.on (F.FEDS_LINK_CFG_EN slot.val) = true) ∧ (c = .lasting) ∧ (s.countsOnly 587 = true) ∧ (32 ≤ m.type.toNat)) := by
  refine ⟨?_, ?_, ?_, ?_, ?_, ?_⟩ <;> decide +kernel

theorem wit_FabricLinks :
  (let slot : Fin 8 := 1
   let m : FedMsg := { wmic (hbmsg 0) 0x497f19b57e19990c with seq := 0 }
   let p : List Byte := (hbmsg 0).payload
   let t : Nat := 5
   let k : Check := .good
   let s : State := fed1 []
   (s.quiet = true) ∧ (s.fabricHears slot.val = true) ∧ (s.fedState ≠ 0) ∧ (s.on (F.FEDS_LINK_CFG_EN slot.val) = true) ∧ (k ≠ .lasting) ∧ (m.ver = 1) ∧ (m.type = 0) ∧ (let a := s.stampIn (s.fedPort slot.val) t
   ((s.on (F.FEDS_LINK_STAT_UP slot.val) = true → s.get (F.FEDS_LINK_STAT_PEER slot.val) = m.src.toNat ∧
         a < (s.fslot slot.val).at' + (s.get (F.FEDS_LINK_STAT_MISSED slot.val) + 1) * (s.fslot slot.val).hb * 1000000)) ∧ (s.fedCheck m = some p) ∧ ((s.fedNumbered m).1 = .accept) ∧ (s.fedConflict slot.val m = false) ∧ (m.src.toNat ≠ s.fedId) ∧ (leNat ((p.drop 1).take 1) % 2 = s.get F.FED_SIZE_CLASS_CLASS) ∧ (s.air.bh.report = false))) ∧
  (let slot : Fin 8 := 1
   let m : FedMsg := hbmsg 0
   let t : Nat := 5
   let k : Check := .good
   let s : State := fed1 []
   (s.quiet = true) ∧ (s.fabricHears slot.val = true) ∧ (s.fedState ≠ 0) ∧ (s.on (F.FEDS_LINK_CFG_EN slot.val) = true) ∧ (k ≠ .lasting) ∧ (m.ver = 1) ∧ (m.type = 0) ∧ (let a := s.stampIn (s.fedPort slot.val) t
   ((s.on (F.FEDS_LINK_STAT_UP slot.val) = true → s.get (F.FEDS_LINK_STAT_PEER slot.val) = m.src.toNat ∧
         a < (s.fslot slot.val).at' + (s.get (F.FEDS_LINK_STAT_MISSED slot.val) + 1) * (s.fslot slot.val).hb * 1000000)) ∧ (s.fedCheck m = none) ∧ (s.get (F.FLT_CLASS_CFG01_ENTRY 0) = 0))) ∧
  (let s : State := fed1 []
   (s.quiet = true)) ∧
  (let slot : Fin 8 := 1
   let s : State := fed1 [(F.CU_STAT_UP 1, 0)]
   (s.quiet = true) ∧ (s.fabricHears slot.val = false)) ∧
  (let slot : Fin 8 := 1
   let s : State := fed1 [(F.FED_STAT_STATE, 0)]
   (s.quiet = true) ∧ (let joined := s.domOn 5 = true ∧ s.fedState ≠ 0 ∧ s.on (F.FEDS_LINK_CFG_EN slot.val) = true
   (¬joined))) ∧
  (let slot : Fin 8 := 1
   let s : State := fed1 [(F.SEC_RST_RDIE_HOLD, 1)]
   (s.quiet = true) ∧ (let joined := s.domOn 5 = true ∧ s.fedState ≠ 0 ∧ s.on (F.FEDS_LINK_CFG_EN slot.val) = true
   let silent := s.on F.SEC_RST_RDIE_HOLD = true ∨ (slot.val < 2 ∧ s.cuUp slot.val = false)
   (joined) ∧ (silent))) ∧
  (let slot : Fin 8 := 1
   let s : State := fed1 [(F.FED_KEY_MAC, 9), (F.FED_TIMING_HB, 255)]
   (s.quiet = true) ∧ (let joined := s.domOn 5 = true ∧ s.fedState ≠ 0 ∧ s.on (F.FEDS_LINK_CFG_EN slot.val) = true
   let silent := s.on F.SEC_RST_RDIE_HOLD = true ∨ (slot.val < 2 ∧ s.cuUp slot.val = false)
   (joined) ∧ (¬silent) ∧ (slot.val < 2) ∧ ((s.keySlot (s.get F.FED_KEY_MAC)).loaded = false) ∧ (s.stopped = false) ∧ (126 ≤ s.cuMaxLen slot.val))) := by
  refine ⟨?_, ?_, ?_, ?_, ?_, ?_, ?_⟩ <;> decide +kernel

theorem wit_FabricLinks_2 :
  (let slot : Fin 8 := 1
   let s : State := fed1 [(F.FED_KEY_MAC, 9), (F.FED_TIMING_HB, 255)]
   (s.quiet = true) ∧ (let joined := s.domOn 5 = true ∧ s.fedState ≠ 0 ∧ s.on (F.FEDS_LINK_CFG_EN slot.val) = true
   (joined))) ∧
  (let slot : Fin 8 := 1
   let s : State := fed1 []
   (s.quiet = true) ∧ (let up := s.domOn 5 = true ∧ s.on (F.FEDS_LINK_STAT_UP slot.val) = true
   (¬up))) ∧
  (let slot : Fin 8 := 1
   let s : State := { fed1 [(F.FEDS_LINK_STAT_UP 1, 1), (F.FEDS_LINK_STAT_MISSED 1, 1)] with fed := { slots := [(1, { at' := 900000000, hb := 100 })] } }
   (s.quiet = true) ∧ (let j := s.get (F.FEDS_LINK_STAT_MISSED slot.val) + 1
   let up := s.domOn 5 = true ∧ s.on (F.FEDS_LINK_STAT_UP slot.val) = true
   (up) ∧ (j < 3))) ∧
  (let slot : Fin 8 := 1
   let s : State := { fed1 [(F.FEDS_LINK_STAT_UP 1, 1), (F.FEDS_LINK_STAT_MISSED 1, 2)] with fed := { slots := [(1, { at' := 900000000, hb := 100 })] } }
   (s.quiet = true) ∧ (let j := s.get (F.FEDS_LINK_STAT_MISSED slot.val) + 1
   let up := s.domOn 5 = true ∧ s.on (F.FEDS_LINK_STAT_UP slot.val) = true
   (up) ∧ (j = 3) ∧ (s.countsOnly 576 = true))) ∧
  (let q : Bool := false
   let since : Nat := 999000000
   let s : State := { fed1 [(F.FED_STAT_STATE, 3), (F.FED_STAT_QUORUM, 1)] with fed := { pend := some (false, 999000000) } }
   (s.running 5 = true) ∧ (s.fed.pend = some (q, since)) ∧ (q = false) ∧ (s.fedState = 3) ∧ (s.mboxFull = false) ∧ (s.countsOnly 582 = true)) ∧
  (let q : Bool := true
   let since : Nat := 999000000
   let s : State := { fed1 [(F.FED_STAT_STATE, 4), (F.TOP_MODE_CUR, 9), (F.TOP_MODE_BASE, 8)] with fed := { pend := some (true, 999000000) } }
   (s.running 5 = true) ∧ (s.fed.pend = some (q, since)) ∧ (q = true) ∧ (s.fedState = 4) ∧ (s.mboxFull = false) ∧ (s.countsOnly 583 = true)) ∧
  (let q : Bool := true
   let since : Nat := 999000000
   let s : State := { fed1 [(F.FED_STAT_STATE, 4), (F.TOP_MODE_CUR, 9), (F.TOP_MODE_BASE, 8)] with fed := { pend := some (true, 999000000) } }
   (s.running 5 = true) ∧ (s.fed.pend = some (q, since))) := by
  refine ⟨?_, ?_, ?_, ?_, ?_, ?_, ?_⟩ <;> decide +kernel

theorem wit_FabricLinks_3 :
  (let s : State := fed1 []
   (s.quiet = true) ∧ ((s.domOn 5 = false ∨ s.fed.pend = none))) ∧
  (let who : Fin 4 := 0
   let v : Word := 0
   let s : State := fed1 []
   (s.takes who.val 5 = true) ∧ (bit v.toNat 1 = false) ∧ (bit v.toNat 2 = false) ∧ (s.on F.FED_CTL_EN = true)) ∧
  (let who : Fin 4 := 0
   let v : Word := 0
   let s : State := fed1 [(F.FED_CTL_EN, 0), (F.FED_STAT_STATE, 0)]
   (s.takes who.val 5 = true) ∧ (bit v.toNat 1 = false) ∧ (bit v.toNat 2 = false) ∧ (s.on F.FED_CTL_EN = false)) ∧
  (let who : Fin 4 := 0
   let v : Word := 0
   let s : State := fed1 []
   (s.takes who.val 5 = true) ∧ (bit v.toNat 1 = false) ∧ (bit v.toNat 2 = false) ∧ (s.on F.FED_CTL_EN = true) ∧ (1 ≤ s.fedState) ∧ (s.fedState ≤ 2)) ∧
  (let who : Fin 4 := 0
   let v : Word := 0
   let s : State := fed1 [(F.FED_STAT_STATE, 4)]
   (s.takes who.val 5 = true) ∧ (bit v.toNat 1 = false) ∧ (bit v.toNat 2 = false) ∧ (s.on F.FED_CTL_EN = true) ∧ (3 ≤ s.fedState) ∧ (s.mboxFull = false) ∧ ((∀ k ∈ s.fedUp, k < 2))) ∧
  (let who : Fin 4 := 0
   let v : Word := 1
   let s : State := fed1 [(F.FED_EPOCH_SYS_NUM, 9)]
   (s.takes who.val 5 = true) ∧ (bit v.toNat 0 = true) ∧ (s.on F.FED_CTL_EN = true) ∧ (bit v.toNat 2 = false) ∧ (s.fedState = 1)) ∧
  (let who : Fin 4 := 0
   let v : Word := 1
   let s : State := fed1 [(F.FED_STAT_STATE, 2)]
   (s.takes who.val 5 = true) ∧ (bit v.toNat 0 = true) ∧ (s.on F.FED_CTL_EN = true) ∧ (bit v.toNat 2 = false) ∧ (s.fedState ≠ 1)) := by
  refine ⟨?_, ?_, ?_, ?_, ?_, ?_, ?_⟩ <;> decide +kernel

theorem wit_FabricLinks_4 :
  (let who : Fin 4 := 0
   let v : Word := 1
   let s : State := fed1 [(F.FED_STAT_STATE, 2)]
   (s.takes who.val 5 = true) ∧ (bit v.toNat 0 = true) ∧ (s.on F.FED_CTL_EN = true) ∧ (bit v.toNat 1 = false) ∧ (s.fedState = 2)) ∧
  (let who : Fin 4 := 0
   let v : Word := 1
   let s : State := fed1 []
   (s.takes who.val 5 = true) ∧ (bit v.toNat 0 = true) ∧ (s.on F.FED_CTL_EN = true) ∧ (bit v.toNat 1 = false) ∧ (s.fedState ≠ 2)) := by
  refine ⟨?_, ?_⟩ <;> decide +kernel

theorem wit_FabricReliability :
  (let who : Fin 4 := 0
   let v : Word := 0x00100505
   let s : State := fed1 [(F.FED_ROUTE_HOPS 5, 1)]
   (s.takes who.val 5 = true) ∧ (let len := fldOf v (F.FED_TX_CTL_LEN who.val)
   let src := s.get (F.FED_TX_SRC_ADDR who.val)
   let fit := txType (fldOf v (F.FED_TX_CTL_TYPE who.val)) = true ∧ len ≤ 2008 ∧ s.fedState ≠ 0 ∧ s.fedHalted = false ∧ src + len ≤ Config.granaryBytes
   (¬fit))) ∧
  (let who : Fin 4 := 0
   let v : Word := 0x00100720
   let s : State := fed1 [(F.FED_ROUTE_HOPS 5, 1)]
   (s.takes who.val 5 = true) ∧ (let dst := fldOf v (F.FED_TX_CTL_DST who.val)
   let len := fldOf v (F.FED_TX_CTL_LEN who.val)
   let src := s.get (F.FED_TX_SRC_ADDR who.val)
   let fit := txType (fldOf v (F.FED_TX_CTL_TYPE who.val)) = true ∧ len ≤ 2008 ∧ s.fedState ≠ 0 ∧ s.fedHalted = false ∧ src + len ≤ Config.granaryBytes
   let one := fldOf v (F.FED_TX_CTL_ALL who.val) = 0 ∧ dst ≠ s.fedId
   (fit) ∧ (one) ∧ (s.fedRoute dst = none))) ∧
  (let who : Fin 4 := 0
   let v : Word := 0x00108520
   let s : State := { fed1 [(F.FED_ROUTE_HOPS 5, 1)] with fed := { rel := List.replicate 256 { msg := fmsg 32 1 5 [] } } }
   (s.takes who.val 5 = true) ∧ (let dst := fldOf v (F.FED_TX_CTL_DST who.val)
   let len := fldOf v (F.FED_TX_CTL_LEN who.val)
   let rel := fldOf v (F.FED_TX_CTL_REL who.val)
   let src := s.get (F.FED_TX_SRC_ADDR who.val)
   let fit := txType (fldOf v (F.FED_TX_CTL_TYPE who.val)) = true ∧ len ≤ 2008 ∧ s.fedState ≠ 0 ∧ s.fedHalted = false ∧ src + len ≤ Config.granaryBytes
   let one := fldOf v (F.FED_TX_CTL_ALL who.val) = 0 ∧ dst ≠ s.fedId
   (fit) ∧ (one) ∧ (s.fedRoute dst ≠ none) ∧ (rel = 1) ∧ (256 ≤ s.fed.rel.length))) ∧
  (let who : Fin 4 := 0
   let v : Word := 0x00100520
   let s : State := fed1 [(F.FED_ROUTE_HOPS 5, 1), (F.FED_KEY_MAC, 9)]
   (s.takes who.val 5 = true) ∧ (let dst := fldOf v (F.FED_TX_CTL_DST who.val)
   let len := fldOf v (F.FED_TX_CTL_LEN who.val)
   let rel := fldOf v (F.FED_TX_CTL_REL who.val)
   let src := s.get (F.FED_TX_SRC_ADDR who.val)
   let fit := txType (fldOf v (F.FED_TX_CTL_TYPE who.val)) = true ∧ len ≤ 2008 ∧ s.fedState ≠ 0 ∧ s.fedHalted = false ∧ src + len ≤ Config.granaryBytes
   let one := fldOf v (F.FED_TX_CTL_ALL who.val) = 0 ∧ dst ≠ s.fedId
   (fit) ∧ (one) ∧ (s.fedRoute dst ≠ none) ∧ (rel = 0) ∧ ((s.keySlot (s.get F.FED_KEY_MAC)).loaded = false) ∧ (fldOf v (F.FED_TX_CTL_TYPE who.val) ≠ 16) ∧ (fldOf v (F.FED_TX_CTL_TYPE who.val) ≠ 17))) ∧
  (let who : Fin 4 := 0
   let v : Word := 0x00100520
   let s : State := fed1 [(F.FED_ROUTE_HOPS 5, 1)]
   (s.takes who.val 5 = true) ∧ (let dst := fldOf v (F.FED_TX_CTL_DST who.val)
   let len := fldOf v (F.FED_TX_CTL_LEN who.val)
   let rel := fldOf v (F.FED_TX_CTL_REL who.val)
   let src := s.get (F.FED_TX_SRC_ADDR who.val)
   let fit := txType (fldOf v (F.FED_TX_CTL_TYPE who.val)) = true ∧ len ≤ 2008 ∧ s.fedState ≠ 0 ∧ s.fedHalted = false ∧ src + len ≤ Config.granaryBytes
   let one := fldOf v (F.FED_TX_CTL_ALL who.val) = 0 ∧ dst ≠ s.fedId
   let keyed := s.slotRefusal 6 (s.get F.FED_KEY_MAC) useFabric = none
   let carries := fun (j : Nat) => s.fedRoute dst = some j ∧ j < 2 ∧ s.cuUp j = true ∧ len + 58 ≤ s.cuMaxLen j ∧ s.stopped = false
   let j : Nat := 0
   (fit) ∧ (one) ∧ (keyed) ∧ (carries j) ∧ (fldOf v (F.FED_TX_CTL_WRAP who.val) = 0) ∧ (rel = 0))) ∧
  (let who : Fin 4 := 0
   let v : Word := 0x00108520
   let s : State := fed1 [(F.FED_ROUTE_HOPS 5, 1)]
   (s.takes who.val 5 = true) ∧ (let dst := fldOf v (F.FED_TX_CTL_DST who.val)
   let len := fldOf v (F.FED_TX_CTL_LEN who.val)
   let rel := fldOf v (F.FED_TX_CTL_REL who.val)
   let src := s.get (F.FED_TX_SRC_ADDR who.val)
   let fit := txType (fldOf v (F.FED_TX_CTL_TYPE who.val)) = true ∧ len ≤ 2008 ∧ s.fedState ≠ 0 ∧ s.fedHalted = false ∧ src + len ≤ Config.granaryBytes
   let one := fldOf v (F.FED_TX_CTL_ALL who.val) = 0 ∧ dst ≠ s.fedId
   let keyed := s.slotRefusal 6 (s.get F.FED_KEY_MAC) useFabric = none
   let carries := fun (j : Nat) => s.fedRoute dst = some j ∧ j < 2 ∧ s.cuUp j = true ∧ len + 58 ≤ s.cuMaxLen j ∧ s.stopped = false
   let j : Nat := 0
   (fit) ∧ (one) ∧ (keyed) ∧ (carries j) ∧ (fldOf v (F.FED_TX_CTL_WRAP who.val) = 0) ∧ (rel = 1) ∧ (s.fed.rel.length < 256))) ∧
  (let s : State := fed1 []
   (s.quiet = true) ∧ (s.domOn 5 = true)) := by
  refine ⟨?_, ?_, ?_, ?_, ?_, ?_, ?_⟩ <;> decide +kernel

theorem wit_FabricReliability_2 :
  (let src : Fin 64 := 5
   let s : State := fed1 []
   (s.quiet = true) ∧ ((s.domOn 5 = false ∨ s.fed.acks.find? (fun a => a.src == src.val) = none))) ∧
  (let src : Fin 64 := 5
   let a : FedAcks := ⟨5, [1, 2], 7⟩
   let j : Nat := 0
   let s : State := { fed1 [(F.FED_ROUTE_HOPS 5, 1)] with fed := { acks := [⟨4, [3], 7⟩, ⟨5, [1, 2], 7⟩] } }
   (s.running 5 = true) ∧ (s.fed.acks.find? (fun b => b.src == src.val) = some a) ∧ (s.stopped = false) ∧ (s.slotRefusal 6 (s.get F.FED_KEY_MAC) useFabric = none) ∧ (a.seqs.length ≤ 16) ∧ (s.fedRoute src.val = some j) ∧ (j < 2) ∧ (s.cuUp j = true) ∧ (126 ≤ s.cuMaxLen j)) ∧
  (let seq : BitVec 32 := 9
   let s : State := fed1 []
   (s.quiet = true) ∧ ((s.domOn 5 = false ∨ s.fed.rel.find? (fun e => e.msg.seq.toNat == seq.toNat) = none))) ∧
  (let seq : BitVec 32 := 9
   let e : FedRel := { msg := { fmsg 32 1 5 [] with seq := 9, dst := 5 }, due := 7 }
   let s : State := { fed1 [(F.FED_ROUTE_HOPS 5, 1)] with fed := { rel := [{ msg := fmsg 32 1 5 [] }, { msg := { fmsg 32 1 5 [] with seq := 9, dst := 5 }, due := 7 }] } }
   (s.running 5 = true) ∧ (s.fed.rel.find? (fun e => e.msg.seq.toNat == seq.toNat) = some e) ∧ (let j : Nat := 0
   (e.tries < s.get F.FED_TIMING_RETRIES) ∧ (e.msg.dst.toNat < 64) ∧ (s.fedRoute e.msg.dst.toNat = some j) ∧ (j < 2) ∧ (s.cuUp j = true) ∧ (s.stopped = false) ∧ ((fedBytes e.msg).length + 18 ≤ s.cuMaxLen j))) ∧
  (let seq : BitVec 32 := 9
   let e : FedRel := { who := some 2, msg := { fmsg 32 1 5 [] with seq := 9, dst := 5 }, due := 7 }
   let s : State := { fed1 [(F.FED_ROUTE_HOPS 5, 1), (F.FED_TIMING_RETRIES, 0), (F.FED_TX_SEQ_SEQ 2, 9)] with fed := { rel := [{ who := some 2, msg := { fmsg 32 1 5 [] with seq := 9, dst := 5 }, due := 7 }] } }
   (s.running 5 = true) ∧ (s.fed.rel.find? (fun e => e.msg.seq.toNat == seq.toNat) = some e) ∧ (s.get F.FED_TIMING_RETRIES ≤ e.tries) ∧ (s.countsOnly 581 = true)) ∧
  (let src : Fin 64 := 5
   let s : State := fed1 []
   (s.quiet = true) ∧ ((s.domOn 5 = false ∨ (s.racc src.val).held = []))) ∧
  (let src : Fin 64 := 5
   let a : FedAcc := ⟨3, 1, 0x140003, 0x1FFFF, 9⟩
   let j : Nat := 0
   let s : State := { fed1 [(F.FED_ROUTE_HOPS 5, 1)] with fed := { racc := [(5, { held := [⟨3, 1, 0x140003, 0x1FFFF, 9⟩] })] } }
   (s.running 5 = true) ∧ ((s.racc src.val).held = [a]) ∧ (a.op = 1) ∧ (a.addr = 0x50000C / 4) ∧ (s.domOn 12 = true) ∧ (s.reaches 0 = true) ∧ (s.mode ≠ 0xB) ∧ (s.countsOnly 588 = true) ∧ (s.fedRoute src.val = some j) ∧ (j < 2)) := by
  refine ⟨?_, ?_, ?_, ?_, ?_, ?_, ?_⟩ <;> decide +kernel

theorem wit_FabricReliability_3 :
  (let q : FedPeer := {}
   let inc : Nat := 5
   let seq : Nat := 4294967295
   ((fedSequence q inc seq).1 = .accept) ∧ (inc < 2 ^ 32) ∧ (seq < 2 ^ 32)) := by
  decide +kernel

theorem wit_FaultCollector :
  (let who : Fin 4 := 0
   let j : Fin 20 := 19
   let i : Nat := 28
   let s : State := at' [(F.FLT_CTL_FORCE_EN, 1)]
   (s.takes who.val 0 = true) ∧ (i < 32) ∧ (let n := 32 * j.val + i
   (s.on F.FLT_CTL_FORCE_EN = true) ∧ (s.countsOnly n = true))) ∧
  (let who : Fin 4 := 0
   let j : Fin 20 := 0
   let i : Nat := 1
   let s : State := at' [(F.FLT_CTL_FORCE_EN, 1), (F.FLT_CLASS_CFG01_ENTRY 0, 1), (F.FLT_CLASS_CFG01_ENTRY 1, 1)]
   (s.takes who.val 0 = true) ∧ (i < 32) ∧ (let n := 32 * j.val + i
   (s.on F.FLT_CTL_FORCE_EN = true) ∧ (sourceRaised n = true) ∧ (sourceClass n < 2) ∧ (n ≠ 601) ∧ (n ≠ 619) ∧ (s.entryLevel (sourceClass n) = 1) ∧ (s.classPending (sourceClass n) = []) ∧ (s.level n = 0) ∧ (s.fedState = 0) ∧ (s.pendOf n = none))) ∧
  (let who : Fin 4 := 0
   let i : Nat := 1
   let s : State := at' [(F.FLT_CTL_FORCE_EN, 1), (F.FLT_CLASS_CFG01_ENTRY 0, 1), (F.FLT_CLASS_CFG01_ENTRY 1, 1)]
   (s.takes who.val 0 = true) ∧ (i < 32) ∧ (s.on F.FLT_CTL_FORCE_EN = true)) ∧
  (let who : Fin 4 := 0
   let i : Nat := 1
   let s : State := live
   (s.takes who.val 0 = true) ∧ (i < 32)) ∧
  (let who : Fin 4 := 0
   let j : Fin 20 := 0
   let i : Nat := 1
   let s : State := live
   (s.takes who.val 0 = true) ∧ (i < 32) ∧ (let n := 32 * j.val + i
   (who.val = s.ackOwner) ∧ ((s.pendOf n = none ∨ s.level n = 3)))) ∧
  (let who : Fin 4 := 0
   let i : Nat := 1
   let s : State := at' [(F.FLT_CTL_FORCE_EN, 0)]
   (s.takes who.val 0 = true) ∧ (i < 32) ∧ (s.on F.FLT_CTL_FORCE_EN = false)) ∧
  (let who : Fin 4 := 0
   let j : Fin 20 := 0
   let i : Nat := 1
   let s : State := State.setPendOf (at' [(F.FLT_SRC_LEVEL 1, 2), (F.FLT_SRC_STICKY 1, 1), (F.FLT_SRC_COUNT 1, 9)]) 1 (some { order := 4 })
   (s.takes who.val 0 = true) ∧ (i < 32) ∧ (let n := 32 * j.val + i
   let p : Pending := { order := 4 }
   let v : Word := 2
   (s.pendOf n = some p) ∧ (p.merged = none) ∧ (s.level n ≠ 3) ∧ (who.val = s.ackOwner) ∧ (v = BitVec.ofNat 32 (2 ^ i)) ∧ ((n < 160 ∨ 320 ≤ n)) ∧ (sourceClass n < 2) ∧ ((∀ e ∈ s.flt.pend, ∀ q : Pending, e.2 = some q → q.merged ≠ some n)))) := by
  refine ⟨?_, ?_, ?_, ?_, ?_, ?_, ?_⟩ <;> decide +kernel

theorem wit_FaultCollector_2 :
  (let who : Fin 4 := 3
   let i : Nat := 1
   let s : State := State.setPendOf (at' [(F.FLT_SRC_LEVEL 1, 2), (F.FLT_SRC_STICKY 1, 1), (F.FLT_SRC_COUNT 1, 9)]) 1 (some { order := 4 })
   (s.takes who.val 0 = true) ∧ (i < 32) ∧ (let v : Word := 1
   (v ≠ 0) ∧ (who.val ≠ s.ackOwner))) ∧
  (let s : State := live
   (s.quiet = true)) ∧
  (let n : Fin 640 := 1
   let s : State := live
   (s.quiet = true) ∧ ((s.pendOf n.val = none ∨ s.level n.val ≠ 1))) ∧
  (let n : Fin 640 := 1
   let s : State := live
   (s.quiet = true) ∧ ((s.pendOf n.val = none ∨ s.level n.val ≠ 2))) ∧
  (let n : Fin 640 := 1
   let p : Pending := { order := 4, deadline := 1000000500 }
   let s : State := State.setPendOf (at' [(F.FLT_SRC_LEVEL 1, 1), (F.FLT_SRC_STICKY 1, 1), (F.FLT_SRC_COUNT 1, 9)]) 1 (some { order := 4, deadline := 1000000500 })
   (s.quiet = true) ∧ (s.pendOf n.val = some p) ∧ (p.merged = none) ∧ (sourceRaised n.val = true) ∧ (s.fedState = 0) ∧ (s.level n.val = 1) ∧ (n.val < 32 ∨ (320 ≤ n.val ∧ n.val < 384)) ∧ (s.flt.recorded.contains n.val = false) ∧ (s.acnStopped = false) ∧ (s.acn.rseq + 1 < 2 ^ 32)) ∧
  (let n : Fin 640 := 1
   let p : Pending := { order := 4, deadline := 1000000500 }
   let s : State := State.setPendOf (at' [(F.FLT_SRC_LEVEL 1, 2), (F.FLT_CTL_DUMP_EN, 0), (F.PWR_DOM_ON, 3), (F.TOP_MODE_CUR, 1)]) 1 (some { order := 4, deadline := 1000000500 })
   (s.quiet = true) ∧ (s.pendOf n.val = some p) ∧ (p.merged = none) ∧ (sourceRaised n.val = true) ∧ (s.fedState = 0) ∧ (s.level n.val = 2) ∧ (s.stopped = false) ∧ (s.on F.PWR_STAT_HOLD = false) ∧ (s.on F.FLT_CTL_DUMP_EN = false) ∧ ((∀ d, d < 14 → s.domOn d = true → d ∈ modeDomains 0xB)) ∧ (s.ctl.fronts = []) ∧ (s.acnStopped = false) ∧ ((∀ k, k < 4 → s.on (F.SQ_CTL_EN k) = false ∧ s.husk k 0 = none ∧ s.husk k 1 = none)) ∧ (s.yal.threads = []) ∧ ((∀ c, c < 64 → s.on (F.DMA_CH_CTL_RUN c) = false)) ∧ (s.cuPhase 0 = 7) ∧ (s.cuPhase 1 = 7)) := by
  refine ⟨?_, ?_, ?_, ?_, ?_, ?_⟩ <;> decide +kernel

theorem wit_DumpsAndAcorn :
  (let d : Nat := 1000000700
   let s : State := { at' [(F.TOP_MODE_CUR, 10), (F.PWR_DOM_ON, 3)] with flt := { dump := some 1000000700 } }
   (s.quiet = true) ∧ (s.mode = 0xA) ∧ (s.flt.dump = some d) ∧ (s.acnStopped = false) ∧ ((∀ e, e < 14 → s.domOn e = true → e ∈ modeDomains 0xB)) ∧ (s.ctl.fronts = []) ∧ (s.cuPhase 0 = 7) ∧ (s.cuPhase 1 = 7)) ∧
  (let who : Fin 4 := 0
   let s : State := live
   (s.takes who.val 0 = true) ∧ (s.flt.dump = none) ∧ (s.on F.ACN_DUMP_CTL_BUSY = false)) ∧
  (let who : Fin 4 := 0
   let s : State := at' [(F.ACN_DUMP_CTL_BUSY, 1)]
   (s.takes who.val 0 = true) ∧ ((s.flt.dump ≠ none ∨ s.on F.ACN_DUMP_CTL_BUSY = true))) ∧
  (let s : State := live
   (s.quiet = true)) ∧
  (let s : State := live
   (s.quiet = true) ∧ (s.flt.dump = none)) ∧
  (let s : State := live
   (s.quiet = true) ∧ (s.on F.ACN_DUMP_CTL_BUSY = false)) ∧
  (let who : Fin 4 := 0
   let s : State := at' [(F.FLT_SRC_LEVEL 633, 2)]
   (s.takes who.val 0 = true)) := by
  refine ⟨?_, ?_, ?_, ?_, ?_, ?_, ?_⟩ <;> decide +kernel

theorem wit_DumpsAndAcorn_2 :
  (let who : Fin 4 := 0
   let v : Word := 0
   let s : State := at' [(F.FLT_SRC_LEVEL 633, 2)]
   (s.takes who.val 0 = true) ∧ (s.acnStopped = true) ∧ (bit v.toNat 8 = false)) ∧
  (let who : Fin 4 := 0
   let s : State := at' [(F.FLT_SRC_LEVEL 633, 2)]
   (s.takes who.val 0 = true) ∧ (s.acnStopped = true)) ∧
  (let s : State := { at' [(F.ACN_DUMP_CTL_BUSY, 1), (F.ACN_DUMP_CFG_SIZE, 1)] with flash := [(5, 0), (0x10000, 3)] }
   (s.quiet = true) ∧ (s.on F.ACN_DUMP_CTL_BUSY = true)) ∧
  (let who : Fin 4 := 0
   let v : Word := 1
   let s : State := live
   (s.acnStopped = false) ∧ (s.acn.hold.length ≤ 64) ∧ (let top := max (s.cnt 8) (max ((s.cntCopy 0).getD 0) ((s.cntCopy 0x200).getD 0))
   (top + 1 < 2 ^ 64) ∧ (s.takes who.val 0 = true) ∧ (bit v.toNat 9 = false))) ∧
  (let s : State := live
   (s.acnStopped = false) ∧ (s.acn.hold.length ≤ 64) ∧ (let top := max (s.cnt 8) (max ((s.cntCopy 0).getD 0) ((s.cntCopy 0x200).getD 0))
   (top + 1 < 2 ^ 64) ∧ (s.quiet = true))) ∧
  (let who : Fin 4 := 0
   let v : Word := 0
   let s : State := { live with acn := { mem := [(4, 5), (0x20007, 8)] } }
   (s.takes who.val 0 = true) ∧ (bit v.toNat 8 = false) ∧ (s.acnStopped = false)) ∧
  (let who : Fin 4 := 0
   let s : State := { at' [(F.ACN_FW_REC_DETAIL, 5)] with acn := { rseq := 2047 } }
   (s.takes who.val 0 = true) ∧ (s.acnStopped = false)) := by
  refine ⟨?_, ?_, ?_, ?_, ?_, ?_, ?_⟩ <;> decide +kernel

theorem wit_DumpsAndAcorn_3 :
  (let who : Fin 4 := 0
   let s : State := { at' [(F.ACN_FW_REC_DETAIL, 5)] with acn := { rseq := 2047 } }
   (s.takes who.val 0 = true) ∧ (s.acnStopped = false) ∧ (s.countsOnly 633 = true)) := by
  decide +kernel

theorem wit_HostQueues :
  (let q : Fin 32 := 31
   let s : State := State.setQp (at' [(F.HSTQ_QP_CTL_EN 31, 1)]) 31 { sqTail := 60, cqHead := 1, cqUsed := 9 }
   (s.running 2 = true) ∧ (s.qpOn q.val = true)) ∧
  (let q : Fin 32 := 31
   let s : State := at' [(F.HSTQ_QP_CTL_EN 31, 1), (F.HSTQ_QP_CTL_HALTED 31, 1)]
   (s.quiet = true) ∧ ((s.domOn 2 = false ∨ s.qpOn q.val = false))) ∧
  (let s : State := at' [(F.HSTQ_QP_CTL_EN 31, 1), (F.HSTQ_QP_CTL_HALTED 31, 1)]
   (s.quiet = true)) ∧
  (let q : Fin 32 := 31
   let s : State := at' [(F.HSTQ_QP_CTL_EN 31, 1), (F.HSTQ_QP_CTL_HALTED 31, 1)]
   (s.quiet = true) ∧ ((s.qpRuns q.val = false ∨ s.hostTaken = false ∨ (s.qp q.val).posts = []))) ∧
  (let q : Fin 32 := 31
   let s : State := at' [(F.HSTQ_QP_CTL_EN 31, 1), (F.HSTQ_QP_CTL_HALTED 31, 1)]
   (s.quiet = true) ∧ ((s.qpRuns q.val = false ∨ s.nextRx q.val = none ∨ (s.qp q.val).bufs = []))) ∧
  (let q : Fin 32 := 31
   let d : SqDesc := ⟨2, 0, 3, 4, 0, 0, 0⟩
   let n : Nat := 2
   let stamp : Nat := 77
   let l : List (Nat × Nat) := []
   let s : State := State.setQp (at' [(F.HSTQ_QP_CTL_EN 31, 1), (F.HSTQ_QP_IDX_SQHEAD 31, 63)]) 31 { posts := [(2, 77)] }
   (s.quiet = true) ∧ (s.qpRuns q.val = true) ∧ (s.hostTaken = true) ∧ ((s.qp q.val).posts = (n, stamp) :: l) ∧ (badSqDesc 2 d = false)) ∧
  (let q : Fin 32 := 31
   let d : SqDesc := ⟨1, 64, 3, 4, 0, 9, 0⟩
   let n : Nat := 2
   let stamp : Nat := 77
   let l : List (Nat × Nat) := []
   let s : State := State.setQp (at' [(F.HSTQ_QP_CTL_EN 31, 1), (F.HSTQ_QP_IDX_SQHEAD 31, 63)]) 31 { posts := [(2, 77)] }
   (s.quiet = true) ∧ (s.qpRuns q.val = true) ∧ (s.hostTaken = true) ∧ ((s.qp q.val).posts = (n, stamp) :: l) ∧ (badSqDesc 1 d = false) ∧ ((seqCheck (s.qp q.val) d.seq.toNat).1 = 0)) := by
  refine ⟨?_, ?_, ?_, ?_, ?_, ?_, ?_⟩ <;> decide +kernel

theorem wit_HostQueues_2 :
  (let q : Fin 32 := 31
   let d : SqDesc := ⟨4, 3, 3, 4, 0, 9, 0⟩
   let n : Nat := 2
   let stamp : Nat := 77
   let l : List (Nat × Nat) := []
   let s : State := State.setQp (at' [(F.HSTQ_QP_CTL_EN 31, 1), (F.HSTQ_QP_IDX_SQHEAD 31, 63)]) 31 { posts := [(2, 77)] }
   (s.quiet = true) ∧ (s.qpRuns q.val = true) ∧ (s.hostTaken = true) ∧ ((s.qp q.val).posts = (n, stamp) :: l) ∧ (let data : List Byte := [1, 2, 3]
   (badSqDesc 0 d = false) ∧ ((seqCheck (s.qp q.val) d.seq.toNat).1 = 0) ∧ (s.xmDead = false) ∧ (data.length = d.len.toNat))) ∧
  (let q : Fin 32 := 31
   let d : SqDesc := ⟨4, 3, 3, 4, 0, 9, 0⟩
   let n : Nat := 2
   let stamp : Nat := 77
   let l : List (Nat × Nat) := []
   let s : State := State.setQp (at' [(F.HSTQ_QP_CTL_EN 31, 1)]) 31 { posts := [(2, 77)], h := 3, seen := 1 }
   (s.quiet = true) ∧ (s.qpRuns q.val = true) ∧ (s.hostTaken = true) ∧ ((s.qp q.val).posts = (n, stamp) :: l) ∧ (badSqDesc 0 d = false) ∧ ((seqCheck (s.qp q.val) d.seq.toNat).1 = 1) ∧ (s.get (F.FLT_CLASS_CFG01_ENTRY 0) = 0)) ∧
  (let q : Fin 32 := 31
   let d : SqDesc := ⟨4, 3, 3, 4, 0, 9, 0⟩
   let n : Nat := 2
   let stamp : Nat := 77
   let l : List (Nat × Nat) := []
   let s : State := State.setQp (at' [(F.HSTQ_QP_CTL_EN 31, 1)]) 31 { posts := [(2, 77)], h := 1000, seen := 1 }
   (s.quiet = true) ∧ (s.qpRuns q.val = true) ∧ (s.hostTaken = true) ∧ ((s.qp q.val).posts = (n, stamp) :: l) ∧ (badSqDesc 0 d = false) ∧ ((seqCheck (s.qp q.val) d.seq.toNat).1 = 2) ∧ (s.get (F.FLT_CLASS_CFG01_ENTRY 0) = 0)) ∧
  (let q : Fin 32 := 31
   let d : SqDesc := ⟨3, 64, 3, 4, 0, 9, 0⟩
   let n : Nat := 2
   let stamp : Nat := 77
   let l : List (Nat × Nat) := []
   let s : State := State.setQp (at' [(F.HSTQ_QP_CTL_EN 31, 1)]) 31 { posts := [(2, 77)], h := 1000, seen := 1 }
   (s.quiet = true) ∧ (s.qpRuns q.val = true) ∧ (s.hostTaken = true) ∧ ((s.qp q.val).posts = (n, stamp) :: l) ∧ (badSqDesc 0 d = true)) ∧
  (let q : Fin 32 := 31
   let d : SqDesc := ⟨3, 64, 3, 4, 0, 9, 0⟩
   let n : Nat := 2
   let stamp : Nat := 77
   let l : List (Nat × Nat) := []
   let s : State := State.setQp (at' [(F.HSTQ_QP_CTL_EN 31, 1)]) 31 { posts := [(2, 77)], h := 1000, seen := 1 }
   (s.quiet = true) ∧ (s.qpRuns q.val = true) ∧ (s.hostTaken = true) ∧ ((s.qp q.val).posts = (n, stamp) :: l) ∧ (badSqDesc 1 d = true)) ∧
  (let q : Fin 32 := 31
   let n : Nat := 2
   let stamp : Nat := 77
   let l : List (Nat × Nat) := []
   let s : State := State.setQp (at' [(F.HSTQ_QP_CTL_EN 31, 1)]) 31 { posts := [(2, 77)], h := 1000, seen := 1 }
   (s.quiet = true) ∧ (s.qpRuns q.val = true) ∧ (s.hostTaken = true) ∧ ((s.qp q.val).posts = (n, stamp) :: l) ∧ (s.countsOnly 561 = true)) ∧
  (let q : Fin 32 := 31
   let it : EgItem := hostIt 3
   let b : HostBuf := ⟨8, 9, 64, 100⟩
   let l : List HostBuf := []
   let rest : List EgItem := [{ hostIt 3 with tc := 1 }]
   let s : State := State.setQp { at' [(F.HSTQ_QP_CTL_EN 31, 1), (F.HTS_EG_LVL_PKTS 2, 1)] with hts := { egress := [{ hostIt 3 with tc := 1 }, hostIt 3] } } 31 { bufs := [⟨8, 9, 64, 100⟩] }
   (s.quiet = true) ∧ (s.qpRuns q.val = true) ∧ (s.nextRx q.val = some it) ∧ (takeFirst (fun i => i == it) s.hts.egress = some (it, rest)) ∧ ((s.qp q.val).bufs = b :: l) ∧ (let n := it.pkt.bytes.length
   let cq := s.get (F.HSTQ_QP_CQBASE_ADDR q.val) / 4096 * 4096 + 16 * s.get (F.HSTQ_QP_IDX_CQTAIL q.val)
   (n ≤ b.len) ∧ ((b.addr + n ≤ cq ∨ cq + 16 ≤ b.addr)) ∧ (b.tag < 65536) ∧ (b.seq < 65536) ∧ (b.len < 65536))) := by
  refine ⟨?_, ?_, ?_, ?_, ?_, ?_, ?_⟩ <;> decide +kernel

theorem wit_HostQueues_3 :
  (let q : Fin 32 := 31
   let it : EgItem := hostIt 65
   let b : HostBuf := ⟨8, 9, 64, 100⟩
   let l : List HostBuf := []
   let rest : List EgItem := []
   let s : State := State.setQp { at' [(F.HSTQ_QP_CTL_EN 31, 1), (F.HTS_EG_BP_ON 2, 1), (F.HTS_EG_LVL_PKTS 2, 1)] with hts := { egress := [hostIt 65] } } 31 { bufs := [⟨8, 9, 64, 100⟩] }
   (s.quiet = true) ∧ (s.qpRuns q.val = true) ∧ (s.nextRx q.val = some it) ∧ (takeFirst (fun i => i == it) s.hts.egress = some (it, rest)) ∧ ((s.qp q.val).bufs = b :: l) ∧ (let n := it.pkt.bytes.length
   (b.len < n) ∧ (s.get (F.FLT_CLASS_CFG01_ENTRY 0) = 0))) ∧
  (let who : Fin 4 := 0
   let q : Fin 32 := 31
   let v : Word := 1
   let s : State := at' [(F.HSTQ_QP_CTL_EN 31, 1)]
   (s.takes who.val 2 = true) ∧ ((s.on F.HST_LINK_LIMP = true ∨ bit v.toNat 0 = s.on (F.HSTQ_QP_CTL_EN q.val)))) ∧
  (let who : Fin 4 := 0
   let q : Fin 32 := 31
   let v : Word := 1
   let s : State := State.setQp (at' [(F.HSTQ_QP_CTL_HALTED 31, 1)]) 31 { h := 3, seen := 1 }
   (s.takes who.val 2 = true) ∧ (s.on F.HST_LINK_LIMP = false) ∧ (s.on (F.HSTQ_QP_CTL_EN q.val) = false) ∧ (bit v.toNat 0 = true)) ∧
  (let who : Fin 4 := 0
   let q : Fin 32 := 31
   let v : Word := 0
   let s : State := State.setQp (at' [(F.HSTQ_QP_CTL_EN 31, 1)]) 31 { h := 3, seen := 1 }
   (s.takes who.val 2 = true) ∧ (s.on F.HST_LINK_LIMP = false) ∧ (s.on (F.HSTQ_QP_CTL_EN q.val) = true) ∧ (bit v.toNat 0 = false) ∧ (s.queued 2 q.val = [])) := by
  refine ⟨?_, ?_, ?_, ?_⟩ <;> decide +kernel

theorem wit_HostLinkEvents :
  (let q : Fin 32 := 31
   let s : State := State.setQp (at' [(F.HSTQ_QP_CFG_IRQ_EN 31, 1), (F.HSTQ_QP_CFG_VEC 31, 127), (F.HSTQ_QP_COAL_US 31, 9)]) 31 { coal := 3, coalAt := 999999000 }
   (s.running 2 = true) ∧ (s.on (F.HSTQ_QP_CFG_IRQ_EN q.val) = true) ∧ ((s.qp q.val).coal ≠ 0)) ∧
  (let s : State := State.setVec live 127 { pend := true, sent := 4 }
   (s.running 2 = true)) ∧
  (let s : State := State.setVec (at' [(F.HSTQ_QP_CTL_EN 31, 1)]) 127 { pend := true, sent := 4 }
   (s.running 2 = true) ∧ ((∀ c, c < 64 → (s.dch c).ph ≠ 2)) ∧ (s.hts.egress = []) ∧ (s.countsOnly 568 = true)) ∧
  (let s : State := State.setVec (at' [(F.HSTQ_QP_CTL_EN 31, 1)]) 127 { pend := true, sent := 4 }
   (s.running 2 = true) ∧ (s.on F.HST_LINK_UP = true) ∧ ((∀ c, c < 64 → (s.dch c).ph ≠ 2)) ∧ (s.hts.egress = []) ∧ (s.countsOnly 563 = true)) ∧
  (let s : State := live
   (s.running 2 = true) ∧ (s.on F.HST_LINK_LIMP = false)) ∧
  (let s : State := live
   (s.running 2 = true) ∧ (s.countsOnly 566 = true)) ∧
  (let s : State := live
   (s.running 2 = true) ∧ (let last : Nat := 0
   (tabGet (fun _ => 0) s.flt.last 565 = last) ∧ (s.countsOnly 565 = true))) := by
  refine ⟨?_, ?_, ?_, ?_, ?_, ?_, ?_⟩ <;> decide +kernel

theorem wit_HostLinkEvents_2 :
  (let who : Fin 4 := 0
   let s : State := at' [(F.HST_RA_ADDR_ADDR, 0x140003), (F.HST_RA_DATA_DATA, 0x12345)]
   (s.takes who.val 2 = true) ∧ (s.fedId = s.fedAnchor) ∧ (s.get F.HST_RA_DEV_DEV = s.fedId) ∧ (s.on F.HST_RA_CTL_BUSY = false) ∧ (s.get F.HST_RA_ADDR_ADDR = 0x50000C / 4) ∧ (s.domOn 12 = true) ∧ (s.reaches 0 = true)) ∧
  (let who : Fin 4 := 0
   let s : State := at' [(F.FED_ID_ANCHOR, 9)]
   (s.takes who.val 2 = true) ∧ (s.fedId ≠ s.fedAnchor)) ∧
  (let who : Fin 4 := 0
   let s : State := at' [(F.HST_RA_CTL_BUSY, 1), (F.HST_RA_CTL_STATUS, 3)]
   (s.takes who.val 2 = true) ∧ (s.fedId = s.fedAnchor) ∧ (s.on F.HST_RA_CTL_BUSY = true)) ∧
  (let who : Fin 4 := 0
   let s : State := at' [(F.HST_RA_DEV_DEV, 5)]
   (s.takes who.val 2 = true) ∧ (s.fedId = s.fedAnchor) ∧ (s.on F.HST_RA_CTL_BUSY = false) ∧ (s.get F.HST_RA_DEV_DEV ≠ s.fedId) ∧ ((s.fedState < 3 ∨ s.fbit F.FED_REACH_SET (s.get F.HST_RA_DEV_DEV) = false))) ∧
  (let who : Fin 4 := 0
   let s : State := at' [(F.HST_RA_DEV_DEV, 5)]
   (s.takes who.val 2 = true)) ∧
  (let s : State := at' [(F.HST_RA_CTL_BUSY, 1), (F.HST_RA_CTL_GO, 1)]
   (s.quiet = true) ∧ (s.domOn 2 = true) ∧ (s.on F.HST_RA_CTL_BUSY = true)) ∧
  (let s : State := live
   (s.quiet = true) ∧ ((s.domOn 2 = false ∨ s.on F.HST_RA_CTL_BUSY = false))) := by
  refine ⟨?_, ?_, ?_, ?_, ?_, ?_, ?_⟩ <;> decide +kernel

theorem wit_HostLinkEvents_3 :
  (let s : State := live
   (s.quiet = true) ∧ (s.domOn 2 = true)) ∧
  (let q : Fin 32 := 3
   let s : State := live
   (s.quiet = true) ∧ (s.domOn 2 = true) ∧ ((s.on (F.HSTQ_QP_CFG_IRQ_EN q.val) = false ∨ (s.qp q.val).coal = 0))) ∧
  (let s : State := at' [(F.HST_LINK_UP, 0)]
   (s.quiet = true) ∧ (s.on F.HST_LINK_UP = false)) ∧
  (let s : State := at' [(F.HST_LINK_LIMP, 1)]
   (s.quiet = true) ∧ (s.domOn 2 = true) ∧ (s.on F.HST_LINK_LIMP = true)) ∧
  (let s : State := at' [(F.PWR_DOM_ON, 0x3)]
   (s.quiet = true) ∧ (s.domOn 2 = false)) := by
  refine ⟨?_, ?_, ?_, ?_, ?_⟩ <;> decide +kernel

theorem wit_FramesRulesPatterns :
  (let s : State := live
   (s.quiet = true)) ∧
  (let port : Fin 6 := 1
   let s : State := live
   (s.quiet = true) ∧ (s.oldestFrame port.val = none) ∧ ((s.recirc = [] ∨ s.parserRuns = false))) ∧
  (let port : Fin 6 := 1
   let s : State := { at' [(F.PWR_DOM_ON, 3)] with prs := { input := [{ port := 4 }, { bytes := [1, 2, 3], port := 1 }] } }
   (s.quiet = true) ∧ (let j : Nat := 1
   let p : Packet := { bytes := [1, 2, 3], port := 1 }
   (s.oldestFrame port.val = some (j, p)) ∧ (s.fabricFrame p = none) ∧ (s.parserRuns = false))) ∧
  (let port : Fin 6 := 1
   let s : State := { at' [(F.HTS_EG_BP_ON 2, 1), (F.HTS_EG_BP_SRC 2, 2)] with prs := { input := [{ port := 4 }, { bytes := [1, 2, 3], port := 1 }] } }
   (s.quiet = true) ∧ (let j : Nat := 1
   let p : Packet := { bytes := [1, 2, 3], port := 1 }
   (s.oldestFrame port.val = some (j, p)) ∧ (s.fabricFrame p = none) ∧ (s.parserRuns = true) ∧ (s.recirc = []) ∧ (s.portHeld port.val = true))) ∧
  (let port : Fin 6 := 1
   let s : State := { at' [(F.FED_STAT_STATE, 1), (F.FED_STAT_SERVE, 0)] with prs := { input := [{ port := 4 }, { bytes := [1, 2, 3], port := 1 }] } }
   (s.quiet = true) ∧ (let j : Nat := 1
   let p : Packet := { bytes := [1, 2, 3], port := 1 }
   (s.oldestFrame port.val = some (j, p)) ∧ (s.fabricFrame p = none) ∧ (let u := s.pullFrame j port.val
   (s.unserved port.val = true) ∧ (u.quiet = true)))) ∧
  (let port : Fin 6 := 1
   let buf : Check := .lasting
   let s : State := { live with prs := { input := [{ port := 4 }, { bytes := [1, 2, 3], port := 1 }] } }
   (s.quiet = true) ∧ (let j : Nat := 1
   let p : Packet := { bytes := [1, 2, 3], port := 1 }
   (s.oldestFrame port.val = some (j, p)) ∧ (s.fabricFrame p = none) ∧ (let u := s.pullFrame j port.val
   (s.unserved port.val = false) ∧ (s.parserRuns = true) ∧ (s.recirc = []) ∧ (s.portHeld port.val = false) ∧ (buf = .lasting) ∧ (u.quiet = true) ∧ (u.countsOnly 323 = true)))) ∧
  (let port : Fin 6 := 1
   let j : Nat := 0
   let p : Packet := { bytes := [1, 2, 3], port := 1 }
   let s : State := { at' [] with prs := { input := [{ bytes := [1, 2, 3], port := 1 }, { port := 4 }] } }
   (s.quiet = true) ∧ (s.parserRuns = true) ∧ (s.recirc = []) ∧ (s.portHeld port.val = false) ∧ (s.oldestFrame port.val = some (j, p)) ∧ (s.fabricFrame p = none) ∧ (s.unserved port.val = false) ∧ ((s.pullFrame j port.val).quiet = true) ∧ (let w := walk s.walkCfg p.start p.bytes
   let u := (s.pullFrame j port.val).bump F.PRS_PCNT_PASSES 1
   (w.mal ≠ 0) ∧ (s.get (F.PRS_MAL_ACT_ACT w.mal) = 0) ∧ (u.countsOnly (328 + w.mal) = true))) := by
  refine ⟨?_, ?_, ?_, ?_, ?_, ?_, ?_⟩ <;> decide +kernel

theorem wit_FramesRulesPatterns_2 :
  (let port : Fin 6 := 4
   let j : Nat := 0
   let p : Packet := { bytes := List.replicate 12 2 ++ [0x88, 0xB5] ++ List.replicate 50 7, port := 4, srcid := 3, stamp := 9 }
   let s : State := { at' [] with prs := { pats := [(6, 0x3B0A07 :: List.replicate 15 0 ++ [1 + 128 * 5, 0])], rules := [(5, { words := List.replicate 32 0 ++ [3, 77, 0, 0, 0, 0, 0, 0], hits := 41 })], input := [{ bytes := List.replicate 12 2 ++ [0x88, 0xB5] ++ List.replicate 50 7, port := 4, srcid := 3, stamp := 9 }, { port := 4 }] } }
   (s.quiet = true) ∧ (s.parserRuns = true) ∧ (s.recirc = []) ∧ (s.portHeld port.val = false) ∧ (s.oldestFrame port.val = some (j, p)) ∧ (s.fabricFrame p = none) ∧ (s.unserved port.val = false) ∧ ((s.pullFrame j port.val).quiet = true) ∧ (let w := walk s.walkCfg p.start p.bytes
   let ms := if s.fbit F.PRS_PAT_PORTS_PORTS port.val then s.search' w.payload else []
   let q := { p with pass2 := false, hits := (ms.take 64).map (fun m => (m.2.2, m.2.1)), pcount := min 2047 ms.length }
   let key := classKey q w (s.groups ms)
   let bank := s.get F.PRS_BANK_ACTIVE
   let i : Nat := 5
   let r : Rule := { words := List.replicate 32 0 ++ [3, 77, 0, 0, 0, 0, 0, 0], hits := 41 }
   (w.mal = 0) ∧ (s.matchRule bank (leNat key) = some (i, r)) ∧ (let w0 := r.words.getD 32 0
   (bits w0 2 1 = 1)))) ∧
  (let port : Fin 6 := 4
   let j : Nat := 0
   let p : Packet := { bytes := List.replicate 12 2 ++ [0x88, 0xB5] ++ List.replicate 50 7, port := 4, srcid := 3, stamp := 9 }
   let s : State := { at' [] with prs := { pats := [(6, 0x3B0A07 :: List.replicate 15 0 ++ [1 + 128 * 5, 0])], rules := [(5, { words := List.replicate 32 0 ++ [7, 77, 0, 0, 0, 0, 0, 0], hits := 41 })], input := [{ bytes := List.replicate 12 2 ++ [0x88, 0xB5] ++ List.replicate 50 7, port := 4, srcid := 3, stamp := 9 }, { port := 4 }] } }
   (s.quiet = true) ∧ (s.parserRuns = true) ∧ (s.recirc = []) ∧ (s.portHeld port.val = false) ∧ (s.oldestFrame port.val = some (j, p)) ∧ (s.fabricFrame p = none) ∧ (s.unserved port.val = false) ∧ ((s.pullFrame j port.val).quiet = true) ∧ (let w := walk s.walkCfg p.start p.bytes
   let ms := if s.fbit F.PRS_PAT_PORTS_PORTS port.val then s.search' w.payload else []
   let q := { p with pass2 := false, hits := (ms.take 64).map (fun m => (m.2.2, m.2.1)), pcount := min 2047 ms.length }
   let key := classKey q w (s.groups ms)
   let bank := s.get F.PRS_BANK_ACTIVE
   let i : Nat := 5
   let r : Rule := { words := List.replicate 32 0 ++ [7, 77, 0, 0, 0, 0, 0, 0], hits := 41 }
   (w.mal = 0) ∧ (s.matchRule bank (leNat key) = some (i, r)) ∧ (let w0 := r.words.getD 32 0
   (bits w0 2 1 = 3)))) ∧
  (let port : Fin 6 := 4
   let j : Nat := 0
   let p : Packet := { bytes := List.replicate 12 2 ++ [0x88, 0xB5] ++ List.replicate 50 7, port := 4, srcid := 3, stamp := 9 }
   let s : State := { at' [(F.HSTQ_QP_CTL_EN 9, 1)] with prs := { pats := [(6, 0x3B0A07 :: List.replicate 15 0 ++ [1 + 128 * 5, 0])], rules := [(5, { words := List.replicate 32 0 ++ [301989893, 77, 0, 0, 0, 0, 0, 0], hits := 41 })], input := [{ bytes := List.replicate 12 2 ++ [0x88, 0xB5] ++ List.replicate 50 7, port := 4, srcid := 3, stamp := 9 }, { port := 4 }] } }
   (s.quiet = true) ∧ (s.parserRuns = true) ∧ (s.recirc = []) ∧ (s.portHeld port.val = false) ∧ (s.oldestFrame port.val = some (j, p)) ∧ (s.fabricFrame p = none) ∧ (s.unserved port.val = false) ∧ ((s.pullFrame j port.val).quiet = true) ∧ (let w := walk s.walkCfg p.start p.bytes
   let u := (s.pullFrame j port.val).bump F.PRS_PCNT_PASSES 1
   let ms := if s.fbit F.PRS_PAT_PORTS_PORTS port.val then s.search' w.payload else []
   let q := { p with pass2 := false, hits := (ms.take 64).map (fun m => (m.2.2, m.2.1)), pcount := min 2047 ms.length }
   let key := classKey q w (s.groups ms)
   let h := crc32c (s.get F.PRS_HASH_SEED_SEED) (hashText q w)
   let bank := s.get F.PRS_BANK_ACTIVE
   let q1 := fun (num : Nat) => { q with record := recordOf q w key num h }
   let i : Nat := 5
   let r : Rule := { words := List.replicate 32 0 ++ [301989893, 77, 0, 0, 0, 0, 0, 0], hits := 41 }
   (w.mal = 0) ∧ (s.matchRule bank (leNat key) = some (i, r)) ∧ (let hitU := u.setRule bank i { r with hits := min 0xFFFFFFFF (r.hits + 1) }
   let num := i + 0x4000 * bank + 0x8000
   let w0 := r.words.getD 32 0
   (bits w0 2 1 = 2) ∧ (s.get (F.HTS_EG_LVL_PKTS 2) < s.get (F.HTS_EG_BP_MAX 2) * 256) ∧ (s.get (F.FLT_CLASS_CFG01_ENTRY 0) = 0) ∧ (let tc := if bit w.vlan 15 then bits w.vlan 14 12 else 0
   let it : EgItem := { kind := 2, target := bits w0 29 25, tc := tc, pkt := q1 num }
   ((hitU.portDrop it = none)))))) ∧
  (let port : Fin 6 := 4
   let j : Nat := 0
   let p : Packet := { bytes := List.replicate 12 2 ++ [0x88, 0xB5] ++ List.replicate 50 7, port := 4, srcid := 3, stamp := 9 }
   let s : State := { at' [] with prs := { pats := [(6, 0x3B0A07 :: List.replicate 15 0 ++ [1 + 128 * 5, 0])], rules := [(5, { words := List.replicate 32 0 ++ [1438505, 77, 0, 0, 0, 0, 0, 0], hits := 41 })], input := [{ bytes := List.replicate 12 2 ++ [0x88, 0xB5] ++ List.replicate 50 7, port := 4, srcid := 3, stamp := 9 }, { port := 4 }] } }
   (s.quiet = true) ∧ (s.parserRuns = true) ∧ (s.recirc = []) ∧ (s.portHeld port.val = false) ∧ (s.oldestFrame port.val = some (j, p)) ∧ (s.fabricFrame p = none) ∧ (s.unserved port.val = false) ∧ ((s.pullFrame j port.val).quiet = true) ∧ (let w := walk s.walkCfg p.start p.bytes
   let u := (s.pullFrame j port.val).bump F.PRS_PCNT_PASSES 1
   let ms := if s.fbit F.PRS_PAT_PORTS_PORTS port.val then s.search' w.payload else []
   let q := { p with pass2 := false, hits := (ms.take 64).map (fun m => (m.2.2, m.2.1)), pcount := min 2047 ms.length }
   let key := classKey q w (s.groups ms)
   let h := crc32c (s.get F.PRS_HASH_SEED_SEED) (hashText q w)
   let bank := s.get F.PRS_BANK_ACTIVE
   let q1 := fun (num : Nat) => { q with record := recordOf q w key num h }
   let own := p.port * 0x10000 + p.srcid
   let task := fun (a : List Nat) (num : Nat) (s' : State) => let w0 := a.getD 0 0; classTask (q1 num) ([h, a.getD 1 0, Nat.xor h (a.getD 1 0), own].getD (bits w0 12 11) h) (bits w0 8 3) (s'.liveRegion (if bit w0 18 then bits w0 20 19 else s'.regmap (h / 2 ^ 24))) (bit w0 9) (bit w0 10) false false
   let i : Nat := 5
   let r : Rule := { words := List.replicate 32 0 ++ [1438505, 77, 0, 0, 0, 0, 0, 0], hits := 41 }
   (w.mal = 0) ∧ (s.matchRule bank (leNat key) = some (i, r)) ∧ (let hitU := u.setRule bank i { r with hits := min 0xFFFFFFFF (r.hits + 1) }
   let num := i + 0x4000 * bank + 0x8000
   let w0 := r.words.getD 32 0
   (bits w0 2 1 = 0) ∧ (7 ≤ bits w0 16 13) ∧ (bit w0 10 = false) ∧ (let k := task (r.words.drop 32) num hitU
   (hitU.sliceHalted k.region = false) ∧ (hitU.refuses .classifier k = false))))) ∧
  (let port : Fin 6 := 4
   let j : Nat := 0
   let p : Packet := { bytes := List.replicate 12 2 ++ [0x88, 0xB5] ++ List.replicate 50 7, port := 4, srcid := 3, stamp := 9 }
   let s : State := { at' [(F.PRS_DEF_ACT_WORD 0, 2)] with prs := { input := [{ bytes := List.replicate 12 2 ++ [0x88, 0xB5] ++ List.replicate 50 7, port := 4, srcid := 3, stamp := 9 }, { port := 4 }] } }
   (s.quiet = true) ∧ (s.parserRuns = true) ∧ (s.recirc = []) ∧ (s.portHeld port.val = false) ∧ (s.oldestFrame port.val = some (j, p)) ∧ (s.fabricFrame p = none) ∧ (s.unserved port.val = false) ∧ ((s.pullFrame j port.val).quiet = true) ∧ (let w := walk s.walkCfg p.start p.bytes
   let ms := if s.fbit F.PRS_PAT_PORTS_PORTS port.val then s.search' w.payload else []
   let q := { p with pass2 := false, hits := (ms.take 64).map (fun m => (m.2.2, m.2.1)), pcount := min 2047 ms.length }
   let key := classKey q w (s.groups ms)
   let bank := s.get F.PRS_BANK_ACTIVE
   (w.mal = 0) ∧ (s.matchRule bank (leNat key) = none) ∧ (bits (s.get (F.PRS_DEF_ACT_WORD 0)) 2 1 = 1))) ∧
  (let k : Task := { tag := 5, region := 2 }
   let s : State := { at' [(F.HTS_CTL_PAUSE, 1), (F.FLT_SRC_LEVEL 366, 2), (F.FLT_SRC_LEVEL 362, 2)] with prs := { stalled := some { tag := 5, region := 2 } } }
   (s.running 5 = true) ∧ (s.prs.stalled = some k) ∧ (k.ordered = false) ∧ (let k := { k with region := s.liveRegion k.region }
   (s.sliceHalted k.region = true))) ∧
  (let k : Task := { tag := 5, region := 2 }
   let s : State := { at' [(F.HTS_CTL_PAUSE, 1)] with prs := { stalled := some { tag := 5, region := 2 } } }
   (s.running 5 = true) ∧ (s.prs.stalled = some k) ∧ (k.ordered = false) ∧ (let k := { k with region := s.liveRegion k.region }
   (s.sliceHalted k.region = false) ∧ (s.refuses .classifier k = true))) := by
  refine ⟨?_, ?_, ?_, ?_, ?_, ?_, ?_⟩ <;> decide +kernel

theorem wit_FramesRulesPatterns_3 :
  (let k : Task := { tag := 5, region := 2 }
   let s : State := { at' [] with prs := { stalled := some { tag := 5, region := 2 }, stalledKey := some (0, [1]) } }
   (s.running 5 = true) ∧ (s.prs.stalled = some k) ∧ (k.ordered = false) ∧ (let k := { k with region := s.liveRegion k.region }
   (s.sliceHalted k.region = false) ∧ (s.refuses .classifier k = false))) ∧
  (let s : State := live
   (s.quiet = true) ∧ (s.domOn 5 = true)) ∧
  (let s : State := live
   (s.quiet = true) ∧ ((s.domOn 5 = false ∨ s.prs.stalled = none))) ∧
  (let who : Fin 4 := 1
   let s : State := State.setRule (at' [(F.PRS_RULE_STAGE_WORD 32, 3), (F.PRS_RULE_STAGE_WORD 39, 1)]) 1 300 { words := List.replicate 33 7, hits := 9 }
   (s.takes who.val 5 = true) ∧ (badAction (s.ruleStage.drop 32) = true)) ∧
  (let who : Fin 4 := 1
   let s : State := State.setRule (at' [(F.PRS_RULE_STAGE_WORD 32, 3), (F.PRS_RULE_STAGE_WORD 39, 0)]) 1 300 { words := List.replicate 33 7, hits := 9 }
   (s.takes who.val 5 = true) ∧ (badAction (s.ruleStage.drop 32) = false)) ∧
  (let who : Fin 4 := 1
   let s : State := State.setRule (at' [(F.PRS_RULE_STAGE_WORD 32, 3), (F.PRS_RULE_STAGE_WORD 39, 0)]) 1 300 { words := List.replicate 33 7, hits := 9 }
   (s.takes who.val 5 = true)) ∧
  (let who : Fin 4 := 0
   let s : State := live
   (s.takes who.val 5 = true)) := by
  refine ⟨?_, ?_, ?_, ?_, ?_, ?_, ?_⟩ <;> decide +kernel

theorem wit_FramesRulesPatterns_4 :
  (let who : Fin 4 := 0
   let s : State := at' [(F.PRS_PAT_STAGE_WORD 16, 65)]
   (s.takes who.val 5 = true) ∧ (let ws := (List.range 18).map (fun k => s.get (F.PRS_PAT_STAGE_WORD k))
   let bad := 64 < bits (ws.getD 16 0) 6 0 ∨ bits (ws.getD 16 0) 31 11 ≠ 0 ∨ bits (ws.getD 17 0) 31 24 ≠ 0
   (bad))) ∧
  (let who : Fin 4 := 0
   let s : State := at' [(F.PRS_PAT_STAGE_WORD 16, 3), (F.PRS_PAT_STAGE_WORD 0, 0x616263)]
   (s.takes who.val 5 = true) ∧ (let ws := (List.range 18).map (fun k => s.get (F.PRS_PAT_STAGE_WORD k))
   let bad := 64 < bits (ws.getD 16 0) 6 0 ∨ bits (ws.getD 16 0) 31 11 ≠ 0 ∨ bits (ws.getD 17 0) 31 24 ≠ 0
   (¬ bad))) := by
  refine ⟨?_, ?_⟩ <;> decide +kernel

theorem wit_ControlWindow :
  (let s : State := live
   (s.quiet = true)) ∧
  (let who : Fin 4 := 2
   let s : State := at' [(F.TOP_MODE_CUR, 0xB)]
   (s.quiet = true) ∧ (s.reaches who.val = false)) ∧
  (let who : Fin 4 := 0
   let addr : BitVec 26 := 0x2000008
   let s : State := at' [(F.SEC_BOOT_STAT_WAIT, 1)]
   let a := addr.toNat
   (a % 4 = 0) ∧ (0x2000000 ≤ a) ∧ (s.running 3 = true) ∧ (s.reaches who.val = true) ∧ (s.apertureOpen who.val = true)) ∧
  (let who : Fin 4 := 0
   let addr : BitVec 26 := 0xC0000C
   let v : Word := 0x12345678
   let x : Ext := ⟨true, 0, []⟩
   let l : RLoc := ⟨⟨8, 1, 8, 2, false, false, [⟨63, 0, .rw, .all 0⟩]⟩, 12582912, 0, 0, 1⟩
   let s : State := { live with stage := [(0xC00008, 0xABCDEF01)] }
   let a := addr.toNat
   let low := a - 4 * l.word
   (a % 4 = 0) ∧ (a < 0x2000000) ∧ (findReg a regBlocks = some l) ∧ (s.takes who.val (domainOf low) = true) ∧ (l.word + 1 = l.desc.words) ∧ (let new := s.staged who.val low l.word v.toNat
   (s.plainAt who.val low new x))) ∧
  (let who : Fin 4 := 0
   let addr : BitVec 26 := 0x10028
   let l : RLoc := ⟨⟨36, 1, 12, 3, false, false, [⟨95, 0, .wo, .all 0⟩]⟩, 65536, 0, 0, 1⟩
   let s : State := live
   let a := addr.toNat
   let low := a - 4 * l.word
   (a % 4 = 0) ∧ (a < 0x2000000) ∧ (findReg a regBlocks = some l) ∧ (s.takes who.val (domainOf low) = true) ∧ (l.word + 1 < l.desc.words)) ∧
  (let who : Fin 4 := 0
   let addr : BitVec 26 := 0x10060
   let l : RLoc := ⟨⟨96, 1, 4, 1, false, false, [⟨1, 0, .rw, .all 0⟩, ⟨11, 2, .rw, .all 100⟩, ⟨12, 12, .rw, .all 0⟩, ⟨13, 13, .rw, .all 0⟩, ⟨23, 14, .rw, .all 10⟩]⟩, 65536, 0, 0, 0⟩
   let s : State := at' [(F.PWR_DOM_ON, 0x1F)]
   let a := addr.toNat
   let dom := domainOf (a - 4 * l.word)
   (a % 4 = 0) ∧ (a < 0x2000000) ∧ (findReg a regBlocks = some l) ∧ (s.quiet = true) ∧ (s.reaches who.val = true) ∧ (s.domOn dom = false) ∧ (s.countsOnly 611 = true)) ∧
  (let who : Fin 4 := 0
   let addr : BitVec 26 := 0x10060
   let l : RLoc := ⟨⟨96, 1, 4, 1, false, false, [⟨1, 0, .rw, .all 0⟩, ⟨11, 2, .rw, .all 100⟩, ⟨12, 12, .rw, .all 0⟩, ⟨13, 13, .rw, .all 0⟩, ⟨23, 14, .rw, .all 10⟩]⟩, 65536, 0, 0, 0⟩
   let s : State := at' [(F.TOP_MODE_CUR, 0xB)]
   let a := addr.toNat
   let dom := domainOf (a - 4 * l.word)
   (a % 4 = 0) ∧ (a < 0x2000000) ∧ (findReg a regBlocks = some l) ∧ (s.quiet = true) ∧ (s.reaches who.val = true) ∧ (s.domOn dom = true) ∧ (s.mode = 0xB) ∧ (holdTakes (a - 4 * l.word) = false)) := by
  refine ⟨?_, ?_, ?_, ?_, ?_, ?_, ?_⟩ <;> decide +kernel

theorem wit_ControlWindow_2 :
  (let who : Fin 4 := 0
   let en : BitVec 4 := 3
   let s : State := live
   (s.quiet = true) ∧ (s.reaches who.val = true) ∧ (s.countsOnly 638 = true) ∧ (en ≠ 0xF)) ∧
  (let who : Fin 4 := 0
   let s : State := live
   (s.quiet = true) ∧ (s.reaches who.val = true) ∧ (s.countsOnly 638 = true)) ∧
  (let who : Fin 4 := 0
   let addr : BitVec 26 := 0x1FFFFF4
   let s : State := live
   (s.quiet = true) ∧ (s.reaches who.val = true) ∧ (s.countsOnly 638 = true) ∧ (findReg (addr.toNat / 4 * 4) regBlocks = none) ∧ (zeroOffset (addr.toNat / 4 * 4) = false) ∧ (addr.toNat < 0x2000000)) ∧
  (let who : Fin 4 := 0
   let addr : BitVec 26 := 0x30
   let l : RLoc := ⟨⟨48, 1, 4, 1, false, false, [⟨15, 0, .rc, .all 0⟩]⟩, 0, 0, 0, 0⟩
   let s : State := at' [(F.TOP_BADACC_COUNT, 300), (F.TOP_PEEK_EN 0, 1)]
   let a := addr.toNat
   let low := a - 4 * l.word
   (a % 4 = 0) ∧ (a < 0x2000000) ∧ (findReg a regBlocks = some l) ∧ (s.running (domainOf low) = true) ∧ (s.reaches who.val = true) ∧ (let peek := s.on (F.TOP_PEEK_EN who.val)
   (l.word = 0) ∧ (l.desc.words = 1) ∧ (peek = true))) ∧
  (let who : Fin 4 := 0
   let addr : BitVec 26 := 0x30
   let l : RLoc := ⟨⟨48, 1, 4, 1, false, false, [⟨15, 0, .rc, .all 0⟩]⟩, 0, 0, 0, 0⟩
   let s : State := at' [(F.TOP_BADACC_COUNT, 300), (F.TOP_PEEK_EN 1, 1)]
   let a := addr.toNat
   let low := a - 4 * l.word
   (a % 4 = 0) ∧ (a < 0x2000000) ∧ (findReg a regBlocks = some l) ∧ (s.running (domainOf low) = true) ∧ (s.reaches who.val = true) ∧ (let peek := s.on (F.TOP_PEEK_EN who.val)
   (l.word = 0) ∧ (l.desc.words = 1) ∧ (peek = false) ∧ (a ≠ 0x10))) ∧
  (let who : Fin 4 := 0
   let addr : BitVec 26 := 0x10068
   let l : RLoc := ⟨⟨104, 1, 8, 2, false, false, [⟨63, 0, .ro, .all 0⟩]⟩, 65536, 0, 0, 0⟩
   let s : State := at' [(F.TIME_PPS_CAP_TBM_NS, 2 ^ 63 + 5), (F.TOP_PEEK_EN 0, 1)]
   let a := addr.toNat
   let low := a - 4 * l.word
   (a % 4 = 0) ∧ (a < 0x2000000) ∧ (findReg a regBlocks = some l) ∧ (s.running (domainOf low) = true) ∧ (s.reaches who.val = true) ∧ (let peek := s.on (F.TOP_PEEK_EN who.val)
   (l.word = 0) ∧ (1 < l.desc.words) ∧ (peek = true))) ∧
  (let who : Fin 4 := 0
   let addr : BitVec 26 := 0x10068
   let l : RLoc := ⟨⟨104, 1, 8, 2, false, false, [⟨63, 0, .ro, .all 0⟩]⟩, 65536, 0, 0, 0⟩
   let s : State := at' [(F.TIME_PPS_CAP_TBM_NS, 2 ^ 63 + 5), (F.TOP_PEEK_EN 0, 1)]
   let a := addr.toNat
   let low := a - 4 * l.word
   (a % 4 = 0) ∧ (a < 0x2000000) ∧ (findReg a regBlocks = some l) ∧ (s.running (domainOf low) = true) ∧ (s.reaches who.val = true) ∧ (l.word = 0) ∧ (1 < l.desc.words)) := by
  refine ⟨?_, ?_, ?_, ?_, ?_, ?_, ?_⟩ <;> decide +kernel

theorem wit_ControlWindow_3 :
  (let who : Fin 4 := 0
   let addr : BitVec 26 := 0x1006C
   let l : RLoc := ⟨⟨104, 1, 8, 2, false, false, [⟨63, 0, .ro, .all 0⟩]⟩, 65536, 0, 0, 1⟩
   let s : State := { at' [] with capture := [(0x10068, 2 ^ 33 + 9)] }
   let a := addr.toNat
   let low := a - 4 * l.word
   (a % 4 = 0) ∧ (a < 0x2000000) ∧ (findReg a regBlocks = some l) ∧ (s.running (domainOf low) = true) ∧ (s.reaches who.val = true) ∧ (0 < l.word)) ∧
  (let who : Fin 4 := 0
   let s : State := at' [(F.TOP_TEMP_NOW, 300), (F.TOP_TEMP_MAX, 400)]
   (s.running 0 = true) ∧ (s.reaches who.val = true) ∧ (s.on (F.TOP_PEEK_EN who.val) = false)) ∧
  (let who : Fin 4 := 0
   let c : Fin 2 := 1
   let q : List EgTs := [{ seqid := 70000, ns := 2 ^ 40 }, { seqid := 1 }]
   let s : State := { at' [] with time := { tbm := 0, egts := [[], [{ seqid := 70000, ns := 2 ^ 40 }, { seqid := 1 }]] } }
   (s.running 5 = true) ∧ (s.reaches who.val = true) ∧ (s.time.egts[c.val]? = some q)) ∧
  (let who : Fin 4 := 0
   let q : List Radar := [{ subch := 7, ns := 9 }, {}]
   let s : State := State.setRadio live 1 { radar := [{ subch := 7, ns := 9 }, {}] }
   (s.running 11 = true) ∧ (s.reaches who.val = true) ∧ ((s.radio 1).radar = q)) := by
  refine ⟨?_, ?_, ?_, ?_⟩ <;> decide +kernel

theorem wit_ResetsAndBoot :
  (let who : Fin 4 := 0
   let s : State := live
   (s.takes who.val 0 = true)) ∧
  (let s : State := live
   (s.quiet = true) ∧ ((s.ctl.boot = none ∨ (s.ctl.boot = some 4 ∧ s.on F.SEC_BOOT_STAT_WAIT = true)))) ∧
  (let s : State := { live with ctl := { boot := none, wake := some { stage := 1 } } }
   (s.quiet = true) ∧ (s.supEn = false ∨ s.regulating = true)) ∧
  (let s : State := live
   (s.ctl.boot = none)) ∧
  (let who : Fin 4 := 0
   let s : State := at' [(F.SEC_RST_RDIE_HOLD, 1)]
   (s.takes who.val 0 = true) ∧ (s.on F.SEC_RST_RDIE_HOLD = true)) ∧
  (let who : Fin 4 := 0
   let s : State := at' []
   (s.takes who.val 0 = true) ∧ (s.on F.SEC_RST_RDIE_HOLD = false)) ∧
  (let s : State := { at' [(F.SEC_LC_STATE, 3)] with gm := [(5, 1)] }
   let who : Fin 4 := 3
   (s.domOn 0 = true) ∧ (s.reaches who.val = true)) := by
  refine ⟨?_, ?_, ?_, ?_, ?_, ?_, ?_⟩ <;> decide +kernel

theorem wit_ResetsAndBoot_2 :
  (let s : State := { at' [(F.SEC_WDT_EN, 1), (F.SEC_WDT_MS, 9)] with gm := [(5, 1)], fuse := { lifecycle := 2 } }
   (s.wdtRuns = true)) ∧
  (let s : State := live
   (s.quiet = true) ∧ (s.wdtRuns = false)) ∧
  (let s : State := at' [(F.TIME_CLK_STAT_X32K_OK, 1)]
   (s.supEn = true) ∧ (s.regulating = false)) ∧
  (let s : State := { live with ctl := { boot := some 4 } }
   (s.ctl.boot.isSome = true)) ∧
  (let s : State := { at' [(F.SEC_WDT_EN, 1), (F.SEC_WDT_MS, 9)] with sec := { wdtUsed := 3000000, wdtAt := 1000000000 } }
   let who : Fin 4 := 0
   let v : Word := 2
   (s.takes who.val 1 = true) ∧ (s.on F.SEC_WDT_EN = true) ∧ (let t := s.put F.SEC_WDT_MS (v.toNat % 65536)
   (t.wdtRuns = true ∧ t.wdtLimit ≤ t.wdtCount))) ∧
  (let s : State := { at' [(F.SEC_WDT_EN, 1), (F.SEC_WDT_MS, 9)] with sec := { wdtUsed := 3000000, wdtAt := 1000000000 } }
   let who : Fin 4 := 0
   let v : Word := 4
   (s.takes who.val 1 = true) ∧ (s.on F.SEC_WDT_EN = true) ∧ (let t := s.put F.SEC_WDT_MS (v.toNat % 65536)
   (¬ (t.wdtRuns = true ∧ t.wdtLimit ≤ t.wdtCount)))) ∧
  (let who : Fin 4 := 0
   let s : State := at' [(F.SEC_WDT_EN, 1)]
   (s.takes who.val 1 = true)) := by
  refine ⟨?_, ?_, ?_, ?_, ?_, ?_, ?_⟩ <;> decide +kernel

theorem wit_ResetsAndBoot_3 :
  (let who : Fin 4 := 0
   let s : State := live
   (s.takes who.val 1 = true) ∧ (s.on F.SEC_WDT_EN = false)) ∧
  (let who : Fin 4 := 0
   let s : State := at' [(F.SQ_CTL_EN 1, 1), (F.SQ_CTL_EN 2, 1), (F.SQ_CTL_HALTED 2, 1), (F.RF_RF_STAT_LOCK 0, 1)]
   (s.takes who.val 0 = true) ∧ (s.on F.SEC_RST_RDIE_HOLD = false) ∧ ((∀ n, n < 4 → s.husk n 0 = none ∧ s.husk n 1 = none)) ∧ (s.cuUp 0 = false) ∧ (s.cuUp 1 = false)) ∧
  (let who : Fin 4 := 0
   let s : State := at' [(F.SEC_RST_RDIE_HOLD, 1), (F.CU_STAT_PHASE 0, 7)]
   (s.takes who.val 0 = true) ∧ (s.on F.SEC_RST_RDIE_HOLD = true)) ∧
  (let s : State := { State.reset with fuse := { lifecycle := 2 } }
   (s.quiet = true) ∧ (s.ctl.boot = some 1)) ∧
  (let s : State := { State.reset with ctl := { boot := some 2 } }
   (s.quiet = true) ∧ (s.ctl.boot = some 2)) ∧
  (let s : State := { State.reset with ctl := { boot := some 3 } }
   (s.quiet = true) ∧ (s.ctl.boot = some 3)) ∧
  (let s : State := State.sets { State.reset with ctl := { boot := some 4 } } [(F.SEC_STRAP_BOOT, 1)]
   (s.quiet = true) ∧ (s.ctl.boot = some 4) ∧ (s.on F.SEC_STRAP_BOOT = true) ∧ (s.on F.SEC_BOOT_STAT_WAIT = false)) := by
  refine ⟨?_, ?_, ?_, ?_, ?_, ?_, ?_⟩ <;> decide +kernel

theorem wit_ResetsAndBoot_4 :
  (let s : State := { State.reset with ctl := { boot := some 5 }, sec := { signed := 12345 } }
   (s.quiet = true) ∧ (s.ctl.boot = some 5)) ∧
  (let s : State := State.sets { State.reset with ctl := { boot := some 6 } } [(F.PWR_DOM_ON, 0x3FFF)]
   (s.quiet = true) ∧ (s.ctl.boot = some 6) ∧ (s.ctl.wake = none) ∧ ((∀ d, d < 14 → s.domOn d = true))) ∧
  (let s : State := live
   (s.quiet = true) ∧ (s.countsOnly 636 = true)) ∧
  (let t : BitVec 16 := 1000
   let s : State := { live with sec := { trip := 98 } }
   (s.quiet = true) ∧ ((s.sec.trip < 99 ∨ t.toInt < 1000))) ∧
  (let t : BitVec 16 := 1000
   let s : State := { live with sec := { trip := 99 } }
   (99 ≤ s.sec.trip) ∧ (1000 ≤ t.toInt) ∧ (s.sec.tripped = false)) ∧
  (let t : BitVec 16 := 1000
   let s : State := { live with sec := { trip := 100, tripped := true } }
   (99 ≤ s.sec.trip) ∧ (1000 ≤ t.toInt) ∧ (s.quiet = true) ∧ (s.sec.tripped = true)) := by
  refine ⟨?_, ?_, ?_, ?_, ?_, ?_⟩ <;> decide +kernel

theorem wit_ModesAndWakes :
  (let who : Fin 4 := 0
   let s : State := live
   (s.takes who.val 0 = true)) ∧
  (let who : Fin 4 := 0
   let s : State := live
   (s.takes who.val 0 = true) ∧ (who = 0)) ∧
  (let who : Fin 4 := 1
   let s : State := live
   (s.takes who.val 0 = true) ∧ (who ≠ 0)) ∧
  (let s : State := live
   (s.quiet = true) ∧ (s.ctl.entry = none)) ∧
  (let s : State := { at' [] with ctl := { boot := none, entry := some { source := 7, target := 3, step := 1, wakeHeld := false } } }
   (s.quiet = true) ∧ (let e : Entry := { source := 7, target := 3, step := 1, wakeHeld := false }
   (s.ctl.entry = some e) ∧ (e.step ≠ 2 ∨ s.entryQuiet e = true))) ∧
  (let s : State := live
   (s.quiet = true) ∧ (s.ctl.wake = none)) ∧
  (let s : State := live
   (s.quiet = true) ∧ (s.ctl.trim = none)) := by
  refine ⟨?_, ?_, ?_, ?_, ?_, ?_, ?_⟩ <;> decide +kernel

theorem wit_ModesAndWakes_2 :
  (let s : State := live
   (s.quiet = true) ∧ (s.on F.PWR_STAT_AVS = false)) ∧
  (let who : Fin 4 := 0
   let v : Word := 1
   let s : State := at' [(F.TOP_MODE_REQ_STATUS, 2)]
   (s.takes who.val 0 = true) ∧ (let t := v.toNat % 16
   (s.modeRefused t = true))) ∧
  (let who : Fin 4 := 0
   let v : Word := 8
   let s : State := at' [(F.TOP_MODE_CUR, 9), (F.MXA_BH_CFG_RADIO, 1)]
   (s.takes who.val 0 = true) ∧ (let t := v.toNat % 16
   (s.modeRefused t = false) ∧ (s.mode = 9))) ∧
  (let who : Fin 4 := 0
   let v : Word := 8
   let s : State := { at' [] with ctl := { boot := none, slot := some ⟨6, true⟩ } }
   (s.takes who.val 0 = true) ∧ (let t := v.toNat % 16
   (s.modeRefused t = false) ∧ (s.mode ≠ 9) ∧ (s.modeHeld = true ∨ s.ctl.slot ≠ none))) ∧
  (let who : Fin 4 := 0
   let v : Word := 7
   let s : State := at' [(F.TOP_MODE_REQ_STATUS, 2)]
   (s.takes who.val 0 = true) ∧ (let t := v.toNat % 16
   (s.modeRefused t = false) ∧ (s.mode ≠ 9) ∧ (s.modeHeld = false) ∧ (s.ctl.slot = none) ∧ (t = s.mode))) ∧
  (let who : Fin 4 := 0
   let v : Word := 8
   let s : State := at' []
   (s.takes who.val 0 = true) ∧ (let t := v.toNat % 16
   (s.modeRefused t = false) ∧ (s.mode ≠ 9) ∧ (s.modeHeld = false) ∧ (s.ctl.slot = none) ∧ (t ≠ s.mode) ∧ (6 ≤ t) ∧ (t ≤ 8) ∧ ((∀ d, d < 14 → s.domOn d = true)))) ∧
  (let who : Fin 4 := 0
   let v : Word := 5
   let s : State := at' [(F.TOP_MODE_CUR, 4), (F.PWR_DOM_ON, 0x207D)]
   (s.takes who.val 0 = true) ∧ (let t := v.toNat % 16
   (s.modeRefused t = false) ∧ (s.mode ≠ 9) ∧ (s.modeHeld = false) ∧ (s.ctl.slot = none) ∧ (t ≠ s.mode) ∧ (t ≠ 0) ∧ ((modeDomains t).all s.domOn = false))) := by
  refine ⟨?_, ?_, ?_, ?_, ?_, ?_, ?_⟩ <;> decide +kernel

theorem wit_ModesAndWakes_3 :
  (let who : Fin 4 := 0
   let v : Word := 4
   let s : State := { at' [(F.SQ_CTL_EN 1, 1), (F.SQ_CTL_EN 3, 1)] with ctl := { boot := none, fronts := [0, 1, 2, 3, 4, 5] } }
   (s.takes who.val 0 = true) ∧ (let t := v.toNat % 16
   (s.modeRefused t = false) ∧ (s.mode ≠ 9) ∧ (s.modeHeld = false) ∧ (s.ctl.slot = none) ∧ (t ≠ s.mode) ∧ (t < 6) ∧ ((t = 0 ∨ (modeDomains t).all s.domOn = true)) ∧ ((∀ n, n < 4 → s.husk n 0 = none ∧ s.husk n 1 = none)))) ∧
  (let e : Entry := { source := 7, target := 4, step := 1, wakeHeld := false }
   let s : State := { at' [] with ctl := { boot := none, entry := some { source := 7, target := 4, step := 1, wakeHeld := false } } }
   (s.quiet = true) ∧ (s.ctl.entry = some e) ∧ (e.wakeHeld = false) ∧ (s.hts.tasks = []) ∧ (s.prs.input = []) ∧ (s.cuUp 0 = false) ∧ (s.cuUp 1 = false) ∧ (e.step = 1) ∧ ((s.entryOff e).contains 5 = false)) ∧
  (let e : Entry := { source := 7, target := 3, step := 2, wakeHeld := false }
   let s : State := { at' [] with ctl := { boot := none, entry := some { source := 7, target := 3, step := 2, wakeHeld := false } } }
   (s.quiet = true) ∧ (s.ctl.entry = some e) ∧ (e.wakeHeld = false) ∧ (s.hts.tasks = []) ∧ (s.prs.input = []) ∧ (s.cuUp 0 = false) ∧ (s.cuUp 1 = false) ∧ (e.step = 2) ∧ (s.entryQuiet e = true)) ∧
  (let e : Entry := { source := 7, target := 3, step := 2, deadline := 1000005000 }
   let s : State := { at' [(F.DMA_CH_CTL_RUN 3, 1)] with ctl := { boot := none, entry := some { source := 7, target := 3, step := 2, deadline := 1000005000 } } }
   (s.quiet = true) ∧ (s.ctl.entry = some e) ∧ (e.wakeHeld = false) ∧ (s.hts.tasks = []) ∧ (s.prs.input = []) ∧ (s.cuUp 0 = false) ∧ (s.cuUp 1 = false) ∧ (e.step = 2) ∧ (s.entryQuiet e = false) ∧ (s.runningOn (clustersOf (s.entryOff e)) = [])) ∧
  (let e : Entry := { source := 7, target := 4, step := 3, wakeHeld := false }
   let s : State := { at' [(F.PWR_STAT_AVS, 1)] with ctl := { boot := none, entry := some { source := 7, target := 4, step := 3, wakeHeld := false } } }
   (s.quiet = true) ∧ (s.ctl.entry = some e) ∧ (e.wakeHeld = false) ∧ (s.hts.tasks = []) ∧ (s.prs.input = []) ∧ (s.cuUp 0 = false) ∧ (s.cuUp 1 = false) ∧ (e.step = 3)) ∧
  (let e : Entry := { source := 7, target := 3, step := 4, wakeHeld := false }
   let s : State := { at' [] with ctl := { boot := none, entry := some { source := 7, target := 3, step := 4, wakeHeld := false } } }
   (s.quiet = true) ∧ (s.ctl.entry = some e) ∧ (e.wakeHeld = false) ∧ (s.hts.tasks = []) ∧ (s.prs.input = []) ∧ (s.cuUp 0 = false) ∧ (s.cuUp 1 = false) ∧ (e.step = 4) ∧ (3 ≤ e.target) ∧ (e.target ≤ 5) ∧ (s.ctl.slot = none) ∧ (s.ctl.trimLate = false) ∧ (s.yal.load = none)) ∧
  (let e : Entry := { source := 7, target := 4, step := 1, wakeHeld := true }
   let s : State := { at' [(F.SQ_CTL_EN 1, 1), (F.SQ_CTL_HALTED 1, 1), (F.SQ_CTL_CAUSE 1, 3)] with ctl := { boot := none, entry := some { source := 7, target := 4, step := 1, wakeHeld := true }, fronts := [3] } }
   (s.quiet = true) ∧ (s.ctl.entry = some e) ∧ (e.wakeHeld = true) ∧ (e.step = 1) ∧ (s.ctl.slot = none) ∧ (s.ctl.trimLate = false) ∧ (s.yal.load = none) ∧ (s.countsOnly 608 = true) ∧ ((∀ n, n < 4 → s.husk n 0 = none ∧ s.husk n 1 = none))) := by
  refine ⟨?_, ?_, ?_, ?_, ?_, ?_, ?_⟩ <;> decide +kernel

theorem wit_ModesAndWakes_4 :
  (let s : State := at' [(F.PWR_WAKE_EN_SRC, 0)]
   (s.quiet = true) ∧ (s.fbit F.PWR_WAKE_EN_SRC 0 = false)) ∧
  (let s : State := { at' [(F.PWR_WAKE_EN_SRC, 3)] with ctl := { boot := none, wake := some { target := 7 } } }
   (s.quiet = true) ∧ (s.fbit F.PWR_WAKE_EN_SRC 0 = true) ∧ (let w : Wake := { target := 7 }
   (s.ctl.wake = some w))) ∧
  (let s : State := { at' [(F.PWR_WAKE_EN_SRC, 3)] with ctl := { boot := none, entry := some { source := 7, target := 4, step := 1, wakeHeld := false } } }
   (s.quiet = true) ∧ (s.fbit F.PWR_WAKE_EN_SRC 0 = true) ∧ (let e : Entry := { source := 7, target := 4, step := 1, wakeHeld := false }
   (s.ctl.wake = none) ∧ (s.ctl.entry = some e))) ∧
  (let s : State := at' [(F.PWR_WAKE_EN_SRC, 3)]
   (s.quiet = true) ∧ (s.fbit F.PWR_WAKE_EN_SRC 0 = true) ∧ (s.ctl.wake = none) ∧ (s.ctl.entry = none) ∧ (s.mode ≠ 3) ∧ (s.mode ≠ 4)) ∧
  (let s : State := at' [(F.PWR_WAKE_EN_SRC, 3), (F.TOP_MODE_CUR, 4), (F.PWR_DOM_ON, 0x207D)]
   (s.quiet = true) ∧ (s.fbit F.PWR_WAKE_EN_SRC 0 = true) ∧ (s.ctl.wake = none) ∧ (s.ctl.entry = none) ∧ (s.mode = 3 ∨ s.mode = 4)) ∧
  (let s : State := at' [(F.PWR_WAKE_EN_SRC, 0)]
   (s.quiet = true) ∧ (s.takes 0 0 = true) ∧ (s.fbit F.PWR_WAKE_EN_SRC 1 = false)) ∧
  (let s : State := { at' [(F.PWR_WAKE_EN_SRC, 3)] with ctl := { boot := none, wake := some { target := 7 } } }
   (s.quiet = true) ∧ (s.takes 0 0 = true) ∧ (s.fbit F.PWR_WAKE_EN_SRC 1 = true) ∧ (let w : Wake := { target := 7 }
   (s.ctl.wake = some w))) := by
  refine ⟨?_, ?_, ?_, ?_, ?_, ?_, ?_⟩ <;> decide +kernel

theorem wit_ModesAndWakes_5 :
  (let s : State := { at' [(F.PWR_WAKE_EN_SRC, 3)] with ctl := { boot := none, entry := some { source := 7, target := 4, step := 1, wakeHeld := false } } }
   (s.quiet = true) ∧ (s.takes 0 0 = true) ∧ (s.fbit F.PWR_WAKE_EN_SRC 1 = true) ∧ (let e : Entry := { source := 7, target := 4, step := 1, wakeHeld := false }
   (s.ctl.wake = none) ∧ (s.ctl.entry = some e))) ∧
  (let s : State := at' [(F.PWR_WAKE_EN_SRC, 3)]
   (s.quiet = true) ∧ (s.takes 0 0 = true) ∧ (s.fbit F.PWR_WAKE_EN_SRC 1 = true) ∧ (s.ctl.wake = none) ∧ (s.ctl.entry = none) ∧ (s.mode ≠ 3) ∧ (s.mode ≠ 4)) ∧
  (let s : State := at' [(F.PWR_WAKE_EN_SRC, 3), (F.TOP_MODE_CUR, 4), (F.PWR_DOM_ON, 0x207D)]
   (s.quiet = true) ∧ (s.takes 0 0 = true) ∧ (s.fbit F.PWR_WAKE_EN_SRC 1 = true) ∧ (s.ctl.wake = none) ∧ (s.ctl.entry = none) ∧ (s.mode = 3 ∨ s.mode = 4)) ∧
  (let s : State := live
   (s.quiet = true) ∧ (let a := s.get F.PWR_WAKE_AT_NS
   (s.ctl.alarm = false ∨ a = 2 ^ 64 - 1))) ∧
  (let s : State := { at' [(F.PWR_WAKE_AT_NS, 2000000000), (F.PWR_WAKE_EN_SRC, 4), (F.TOP_MODE_CUR, 3), (F.PWR_DOM_ON, 5)] with ctl := { boot := none, alarm := true } }
   (s.quiet = true) ∧ (let a := s.get F.PWR_WAKE_AT_NS
   (s.ctl.alarm = true) ∧ (a ≠ 2 ^ 64 - 1) ∧ (s.ctl.entry = none) ∧ (s.ctl.wake = none))) ∧
  (let w : Wake := { source := 3, target := 7, stage := 2, start := 5, at' := 5 }
   let s : State := { at' [(F.TOP_MODE_CUR, 1), (F.TIME_CLK_STAT_SRC, 1)] with ctl := { boot := none, wake := some { source := 3, target := 7, stage := 2, start := 5, at' := 5 } } }
   (s.quiet = true) ∧ (s.ctl.wake = some w) ∧ (w.stage < 4) ∧ (w.retry = false)) ∧
  (let w : Wake := { source := 3, target := 7, stage := 3, retry := true }
   let s : State := { at' [(F.TOP_MODE_CUR, 1)] with ctl := { boot := none, wake := some { source := 3, target := 7, stage := 3, retry := true } } }
   (s.quiet = true) ∧ (s.ctl.wake = some w) ∧ (w.stage < 4) ∧ (w.retry = true) ∧ (1 ≤ w.stage) ∧ (s.countsOnly (598 + 2 * w.stage) = true)) := by
  refine ⟨?_, ?_, ?_, ?_, ?_, ?_, ?_⟩ <;> decide +kernel

theorem wit_ModesAndWakes_6 :
  (let w : Wake := { source := 4, target := 7, stage := 4, latest := true }
   let s : State := { at' [(F.TOP_MODE_CUR, 1), (F.PWR_DOM_ON, 0x207D)] with ctl := { boot := none, wake := some { source := 4, target := 7, stage := 4, latest := true } } }
   (s.quiet = true) ∧ (s.ctl.wake = some w) ∧ (w.stage = 4) ∧ (w.retry = false) ∧ (w.boot = false) ∧ (4 ≤ w.target) ∧ (w.target ≤ 7) ∧ (w.source ≠ 3) ∧ (s.fedState = 0)) ∧
  (let w : Wake := { source := 4, target := 7, stage := 3, at' := 1000000000 }
   let s : State := { at' [(F.TOP_MODE_CUR, 1)] with ctl := { boot := none, wake := some { source := 4, target := 7, stage := 3, at' := 1000000000 } } }
   (s.quiet = true) ∧ (s.ctl.wake = some w) ∧ (w.retry = false)) ∧
  (let w : Wake := { source := 4, target := 7, stage := 3, retry := true }
   let s : State := { at' [(F.TOP_MODE_CUR, 1)] with ctl := { boot := none, wake := some { source := 4, target := 7, stage := 3, retry := true } } }
   (s.quiet = true) ∧ (s.ctl.wake = some w) ∧ (w.retry = true) ∧ (w.stage = 3) ∧ (w.failing = []) ∧ (s.countsOnly 605 = true)) ∧
  (let who : Fin 4 := 0
   let s : State := at' [(F.TOP_MODE_CUR, 5)]
   (s.takes who.val 0 = true) ∧ (s.mode < 6 ∨ 9 < s.mode)) ∧
  (let who : Fin 4 := 0
   let s : State := { at' [] with ctl := { boot := none, slot := none, wake := some { target := 7 } } }
   (s.takes who.val 0 = true) ∧ (6 ≤ s.mode) ∧ (s.mode ≤ 9) ∧ (s.modeHeld = true)) ∧
  (let who : Fin 4 := 0
   let v : Word := 1
   let s : State := at' [(F.PWR_STAT_AVS, 1)]
   (s.takes who.val 0 = true) ∧ (let u := s.setWord F.PWR_CTL_TRIM.addr (v &&& 7)
   (6 ≤ s.mode) ∧ (s.mode ≤ 9) ∧ (s.modeHeld = false) ∧ (s.get F.PWR_STAT_STATE ≠ u.get F.PWR_CTL_TRIM))) ∧
  (let t : TrimMove := { target := 1, deadline := 5 }
   let s : State := { at' [] with ctl := { boot := none, trim := some { target := 1, deadline := 5 } } }
   (s.quiet = true) ∧ (s.ctl.trim = some t) ∧ (t.deadline ≠ 0)) := by
  refine ⟨?_, ?_, ?_, ?_, ?_, ?_, ?_⟩ <;> decide +kernel

theorem wit_ModesAndWakes_7 :
  (let t : TrimMove := { target := 1 }
   let s : State := { at' [(F.TOP_MODE_BUSY, 1)] with ctl := { boot := none, trim := some { target := 1 } } }
   (s.quiet = true) ∧ (s.ctl.trim = some t) ∧ (t.deadline = 0) ∧ (t.failed = false) ∧ (s.ctl.slot = none) ∧ (s.ctl.trimLate = false) ∧ (s.yal.load = none) ∧ (s.ctl.entry = none) ∧ (s.ctl.wake = none)) ∧
  (let t : TrimMove := { target := 1, deadline := 5 }
   let s : State := { at' [(F.PWR_STAT_AVS, 1)] with ctl := { boot := none, trim := some { target := 1, deadline := 5 } } }
   (s.quiet = true) ∧ (s.ctl.trim = some t) ∧ (t.deadline ≠ 0) ∧ (s.on F.PWR_STAT_AVS = true)) ∧
  (let t : TrimMove := { target := 1, deadline := 1100000000 }
   let s : State := { at' [(F.PWR_STAT_AVS, 1)] with ctl := { boot := none, trim := some { target := 1, deadline := 1100000000 } } }
   (s.quiet = true) ∧ (s.ctl.trim = some t) ∧ (t.deadline ≠ 0) ∧ (s.on F.PWR_STAT_AVS = true) ∧ (let n := s.until (s.now + 20000)
   (n.now < t.deadline))) ∧
  (let t : TrimMove := { target := 1, deadline := 5 }
   let s : State := { at' [(F.PWR_STAT_AVS, 1)] with ctl := { boot := none, trim := some { target := 1, deadline := 5 } } }
   (s.quiet = true) ∧ (s.ctl.trim = some t) ∧ (t.deadline ≠ 0) ∧ (s.on F.PWR_STAT_AVS = true) ∧ (let n := s.until (s.now + 20000)
   (t.deadline ≤ n.now))) := by
  refine ⟨?_, ?_, ?_, ?_⟩ <;> decide +kernel

theorem wit_RadioControl :
  (let who : Fin 4 := 0
   let n : Fin 3 := 1
   let v : Word := 36 + 2 * 256 + 2 * 65536
   let s : State := live
   (s.takes who.val 11 = true) ∧ (let ok := !s.on (F.MX_CTL_EN n.val) && channelOk n.val (bits v.toNat 7 0) (bits v.toNat 10 8) (bit v.toNat 11) (bits v.toNat 31 16)
   (ok = true))) ∧
  (let who : Fin 4 := 0
   let n : Fin 3 := 1
   let v : Word := 37
   let s : State := live
   (s.takes who.val 11 = true) ∧ (let ok := !s.on (F.MX_CTL_EN n.val) && channelOk n.val (bits v.toNat 7 0) (bits v.toNat 10 8) (bit v.toNat 11) (bits v.toNat 31 16)
   (ok = false) ∧ (s.countsOnly (161 + 32 * n.val) = true))) ∧
  (let who : Fin 4 := 0
   let s : State := State.setRadio live 1 { steer := [(7, { group := 3, pre := [1, 2] })] }
   (s.takes who.val 11 = true)) ∧
  (let who : Fin 4 := 0
   let n : Fin 3 := 1
   let s : State := State.setRadio (at' [(F.RF_CSW_CTL_GO 1, 1)]) 1 { csw := some {} }
   (s.takes who.val 11 = true) ∧ ((s.radio n.val).csw ≠ none)) ∧
  (let who : Fin 4 := 0
   let n : Fin 3 := 1
   let v : Word := 35
   let s : State := live
   (s.takes who.val 11 = true) ∧ (let u := s.take v [F.RF_CSW_CTL_CH n.val, F.RF_CSW_CTL_BW n.val, F.RF_CSW_CTL_CH320_2 n.val, F.RF_CSW_CTL_QUIET n.val, F.RF_CSW_CTL_COUNT n.val]
   let c : Csw := ⟨u.get (F.RF_CSW_CTL_COUNT n.val), false, u.get (F.RF_CSW_CTL_CH n.val), u.get (F.RF_CSW_CTL_BW n.val), u.get (F.RF_CSW_CTL_CH320_2 n.val), u.get (F.RF_CSW_PUNCT_PUNCT n.val), u.on (F.RF_CSW_CTL_QUIET n.val), false, false⟩
   let ok := channelOk n.val c.prim c.bw (c.second == 1) c.punct
   ((s.radio n.val).csw = none) ∧ (ok = false) ∧ (s.countsOnly (161 + 32 * n.val) = true))) ∧
  (let who : Fin 4 := 0
   let n : Fin 3 := 1
   let v : Word := 36 + 5 * 2 ^ 13
   let s : State := live
   (s.takes who.val 11 = true) ∧ (let u := s.take v [F.RF_CSW_CTL_CH n.val, F.RF_CSW_CTL_BW n.val, F.RF_CSW_CTL_CH320_2 n.val, F.RF_CSW_CTL_QUIET n.val, F.RF_CSW_CTL_COUNT n.val]
   let c : Csw := ⟨u.get (F.RF_CSW_CTL_COUNT n.val), false, u.get (F.RF_CSW_CTL_CH n.val), u.get (F.RF_CSW_CTL_BW n.val), u.get (F.RF_CSW_CTL_CH320_2 n.val), u.get (F.RF_CSW_PUNCT_PUNCT n.val), u.on (F.RF_CSW_CTL_QUIET n.val), false, false⟩
   let ok := channelOk n.val c.prim c.bw (c.second == 1) c.punct
   ((s.radio n.val).csw = none) ∧ (ok = true) ∧ (c.left ≠ 0))) ∧
  (let who : Fin 4 := 0
   let n : Fin 3 := 1
   let v : Word := 36
   let s : State := State.setHusk live 1 1 (some { st := 3 })
   (s.takes who.val 11 = true) ∧ (let u := s.take v [F.RF_CSW_CTL_CH n.val, F.RF_CSW_CTL_BW n.val, F.RF_CSW_CTL_CH320_2 n.val, F.RF_CSW_CTL_QUIET n.val, F.RF_CSW_CTL_COUNT n.val]
   let c : Csw := ⟨u.get (F.RF_CSW_CTL_COUNT n.val), false, u.get (F.RF_CSW_CTL_CH n.val), u.get (F.RF_CSW_CTL_BW n.val), u.get (F.RF_CSW_CTL_CH320_2 n.val), u.get (F.RF_CSW_PUNCT_PUNCT n.val), u.on (F.RF_CSW_CTL_QUIET n.val), false, false⟩
   let ok := channelOk n.val c.prim c.bw (c.second == 1) c.punct
   ((s.radio n.val).csw = none) ∧ (let k : Fin 2 := 1
   let h : Husk := { st := 3 }
   (ok = true) ∧ (c.left = 0) ∧ (s.husk n.val k.val = some h) ∧ (h.st = 3)))) := by
  refine ⟨?_, ?_, ?_, ?_, ?_, ?_, ?_⟩ <;> decide +kernel

theorem wit_RadioControl_2 :
  (let who : Fin 4 := 0
   let n : Fin 3 := 1
   let v : Word := 36
   let s : State := live
   (s.takes who.val 11 = true) ∧ (let u := s.take v [F.RF_CSW_CTL_CH n.val, F.RF_CSW_CTL_BW n.val, F.RF_CSW_CTL_CH320_2 n.val, F.RF_CSW_CTL_QUIET n.val, F.RF_CSW_CTL_COUNT n.val]
   let c : Csw := ⟨u.get (F.RF_CSW_CTL_COUNT n.val), false, u.get (F.RF_CSW_CTL_CH n.val), u.get (F.RF_CSW_CTL_BW n.val), u.get (F.RF_CSW_CTL_CH320_2 n.val), u.get (F.RF_CSW_PUNCT_PUNCT n.val), u.on (F.RF_CSW_CTL_QUIET n.val), false, false⟩
   let ok := channelOk n.val c.prim c.bw (c.second == 1) c.punct
   ((s.radio n.val).csw = none) ∧ (ok = true) ∧ (c.left = 0) ∧ (s.husk n.val 0 = none) ∧ (s.husk n.val 1 = none))) ∧
  (let n : Fin 3 := 1
   let s : State := live
   (s.quiet = true) ∧ ((s.radio n.val).csw = none)) ∧
  (let n : Fin 3 := 1
   let s : State := State.setRadio live 1 { csw := some { left := 2 } }
   (s.quiet = true) ∧ (let c : Csw := { left := 2 }
   ((s.radio n.val).csw = some c) ∧ (c.tuning = false))) ∧
  (let n : Fin 3 := 1
   let s : State := State.setRadio (at' [(F.RF_CSW_CTL_GO 1, 1), (F.RF_CSW_CTL_CH 1, 44)]) 1 { csw := some { left := 1, due := true, tuning := true, prim := 40, bw := 2, punct := 2 } }
   (s.quiet = true) ∧ (let c : Csw := { left := 1, due := true, tuning := true, prim := 40, bw := 2, punct := 2 }
   ((s.radio n.val).csw = some c) ∧ (c.tuning = true))) ∧
  (let s : State := { at' [(F.MX_CTL_EN 1, 1), (F.RFB_DET_CTL_EN, 1), (F.RFB_DET_CTL_THR, 256 - 60)] with ctl := { boot := none, fronts := [0, 1, 2, 3, 4, 5] } }
   (s.quiet = true) ∧ (s.radioHears 1 = true)) ∧
  (let subch : Nat := 5
   let pulses : Nat := 6
   let width : Nat := 9
   let rssi : Nat := 156
   let t : Nat := 1000000100
   let chirp : Bool := true
   let s : State := { at' [(F.MX_CTL_EN 1, 1), (F.RFB_DET_CTL_EN, 1), (F.RFB_DET_CTL_THR, 256 - 60)] with ctl := { boot := none, fronts := [0, 1, 2, 3, 4, 5] } }
   (s.quiet = true) ∧ (let e : Radar := ⟨subch % 2 ^ subchannels (s.get (F.RF_CHAN_BW 1)), pulses, width, rssi, chirp, t⟩
   let sees := s.radioHears 1 = true ∧ s.on F.RFB_DET_CTL_EN = true ∧ s.radarThr < signed 8 rssi ∧ e.subch ≠ 0 ∧ s.radarBlank t = false
   (¬ sees))) ∧
  (let subch : Nat := 5
   let pulses : Nat := 6
   let width : Nat := 9
   let rssi : Nat := 226
   let t : Nat := 1000000100
   let chirp : Bool := true
   let s : State := State.setRadio { at' [(F.MX_CTL_EN 1, 1), (F.RFB_DET_CTL_EN, 1), (F.RFB_DET_CTL_THR, 256 - 60)] with ctl := { boot := none, fronts := [0, 1, 2, 3, 4, 5] } } 1 { radar := List.replicate 15 {} }
   (s.quiet = true) ∧ (let e : Radar := ⟨subch % 2 ^ subchannels (s.get (F.RF_CHAN_BW 1)), pulses, width, rssi, chirp, t⟩
   let sees := s.radioHears 1 = true ∧ s.on F.RFB_DET_CTL_EN = true ∧ s.radarThr < signed 8 rssi ∧ e.subch ≠ 0 ∧ s.radarBlank t = false
   (sees) ∧ ((s.radio 1).radar.length < 16) ∧ (s.countsOnly 198 = true))) := by
  refine ⟨?_, ?_, ?_, ?_, ?_, ?_, ?_⟩ <;> decide +kernel

theorem wit_RadioControl_3 :
  (let subch : Nat := 5
   let pulses : Nat := 6
   let width : Nat := 9
   let rssi : Nat := 226
   let t : Nat := 1000000100
   let chirp : Bool := true
   let s : State := State.setRadio { at' [(F.MX_CTL_EN 1, 1), (F.RFB_DET_CTL_EN, 1), (F.RFB_DET_CTL_THR, 256 - 60)] with ctl := { boot := none, fronts := [0, 1, 2, 3, 4, 5] } } 1 { radar := List.replicate 16 {} }
   (s.quiet = true) ∧ (let e : Radar := ⟨subch % 2 ^ subchannels (s.get (F.RF_CHAN_BW 1)), pulses, width, rssi, chirp, t⟩
   let sees := s.radioHears 1 = true ∧ s.on F.RFB_DET_CTL_EN = true ∧ s.radarThr < signed 8 rssi ∧ e.subch ≠ 0 ∧ s.radarBlank t = false
   (sees) ∧ (16 ≤ (s.radio 1).radar.length) ∧ (s.countsOnly 199 = true))) ∧
  (let n : Fin 4 := 2
   let s : State := at' [(F.PWR_DOM_ON, 3)]
   (s.quiet = true) ∧ (s.radioPowered n.val = false)) ∧
  (let n : Fin 4 := 2
   let s : State := { live with ctl := { boot := none, fronts := [0, 1, 2, 3, 4, 5] } }
   (s.quiet = true) ∧ (s.radioPowered n.val = true)) ∧
  (let n : Fin 3 := 2
   let s : State := { at' [(F.RF_RF_STAT_LOCK 2, 1)] with ctl := { boot := none, fronts := [0, 1, 2, 3, 4, 5] } }
   (s.quiet = true) ∧ (s.radioPowered n.val = true) ∧ (s.countsOnly (160 + 32 * n.val) = true) ∧ (s.husk n.val 0 = none) ∧ (s.husk n.val 1 = none)) ∧
  (let n : Fin 3 := 2
   let s : State := State.setRadio { live with ctl := { boot := none, fronts := [0, 1, 2, 3, 4, 5] } } 2 { unlocked := true }
   (s.quiet = true) ∧ (s.radioPowered n.val = true)) ∧
  (let n : Fin 3 := 2
   let s : State := State.setRadio { live with ctl := { boot := none, fronts := [0, 1, 2, 3, 4, 5] } } 2 { unlocked := true }
   (s.quiet = true) ∧ (s.radioPowered n.val = true) ∧ (s.countsOnly (163 + 32 * n.val) = true)) ∧
  (let n : Fin 3 := 2
   let s : State := State.setRadio { live with ctl := { boot := none, fronts := [0, 1, 2, 3, 4, 5] } } 2 { unlocked := true }
   (s.quiet = true) ∧ (s.radioPowered n.val = true) ∧ (s.countsOnly (162 + 32 * n.val) = true)) := by
  refine ⟨?_, ?_, ?_, ?_, ?_, ?_, ?_⟩ <;> decide +kernel

theorem wit_RadioControl_4 :
  (let s : State := { live with ctl := { boot := none, fronts := [0, 1, 2, 3, 4, 5] } }
   (s.quiet = true) ∧ (s.radioPowered 3 = true) ∧ (s.countsOnly 256 = true) ∧ (s.husk 3 0 = none) ∧ (s.husk 3 1 = none)) ∧
  (let s : State := { live with ctl := { boot := none, fronts := [0, 1, 2, 3, 4, 5] } }
   (s.quiet = true) ∧ (s.radioPowered 3 = true)) ∧
  (let s : State := { live with ctl := { boot := none, fronts := [0, 1, 2, 3, 4, 5] } }
   (s.quiet = true) ∧ (s.radioPowered 3 = true) ∧ (s.countsOnly 259 = true)) ∧
  (let s : State := { live with ctl := { boot := none, fronts := [0, 1, 2, 3, 4, 5] } }
   (s.quiet = true) ∧ (s.radioPowered 3 = true) ∧ (s.countsOnly 258 = true)) ∧
  (let who : Fin 4 := 0
   let n : Fin 3 := 0
   let s : State := live
   (s.takes who.val 11 = true) ∧ (s.on (F.MX_CTL_EN n.val) = false)) ∧
  (let who : Fin 4 := 0
   let n : Fin 3 := 0
   let s : State := live
   (s.takes who.val 11 = true) ∧ (s.on (F.MX_CTL_EN n.val) = false) ∧ (s.countsOnly (165 + 32 * n.val) = true)) ∧
  (let who : Fin 4 := 0
   let n : Fin 3 := 0
   let s : State := at' [(F.MX_CTL_EN 0, 1)]
   (s.takes who.val 11 = true) ∧ (s.on (F.MX_CTL_EN n.val) = true)) := by
  refine ⟨?_, ?_, ?_, ?_, ?_, ?_, ?_⟩ <;> decide +kernel

theorem wit_RadioControl_5 :
  (let who : Fin 4 := 0
   let n : Fin 3 := 0
   let s : State := at' [(F.MX_CTL_EN 0, 1)]
   (s.takes who.val 11 = true) ∧ (s.on (F.MX_CTL_EN n.val) = true) ∧ (s.husk n.val 0 = none) ∧ (s.husk n.val 1 = none)) := by
  decide +kernel

theorem wit_WifiReception :
  (let f : AirFrame := airF true false false 18
   let s : State := at' [(F.PWR_DOM_ON, 3)]
   let n := f.radio.val
   let hears := s.radioHears n && ppduOk n f.fmt.val f.data
   (s.quiet = true) ∧ (hears = false)) ∧
  (let f : AirFrame := airF true false false 18
   let s : State := wifi []
   let n := f.radio.val
   let hears := s.radioHears n && ppduOk n f.fmt.val f.data
   (s.quiet = true) ∧ (hears = true) ∧ (s.countsOnly (64 + 32 * n) = true)) ∧
  (let f : AirFrame := airF true false false 18
   let k : Check := .corrected
   let s : State := wifi []
   let n := f.radio.val
   let hears := s.radioHears n && ppduOk n f.fmt.val f.data
   (s.quiet = true) ∧ (hears = true) ∧ (k ≠ .lasting) ∧ (s.countsOnly (66 + 32 * n) = true)) ∧
  (let f : AirFrame := airF false true false 18
   let k : Check := .corrected
   let lk : Check := .good
   let s : State := State.gmAt (wifi []) (0x100000 + 32 * 3) [0]
   let n := f.radio.val
   let st := f.sta.toNat
   let hears := s.radioHears n && ppduOk n f.fmt.val f.data
   (s.quiet = true) ∧ (hears = true) ∧ (k ≠ .lasting) ∧ (s.linkTableOk n = true) ∧ (lk ≠ .lasting) ∧ (s.linkPresent n st = false)) ∧
  (let f : AirFrame := airF false true false 18
   let k : Check := .corrected
   let lk : Check := .lasting
   let s : State := State.gmAt (wifi []) (0x100000 + 32 * 3) [0]
   let n := f.radio.val
   let hears := s.radioHears n && ppduOk n f.fmt.val f.data
   (s.quiet = true) ∧ (hears = true) ∧ (k ≠ .lasting) ∧ ((s.linkTableOk n = false ∨ lk = .lasting)) ∧ (s.countsOnly (65 + 32 * n) = true)) ∧
  (let f : AirFrame := airF true false false 18
   let k : Check := .corrected
   let sb : Check := .lasting
   let lk : Check := .good
   let s : State := wifi []
   let n := f.radio.val
   let st := f.sta.toNat
   let hears := s.radioHears n && ppduOk n f.fmt.val f.data
   let here := lk ≠ .lasting ∧ s.linkTableOk n = true ∧ s.linkPresent n st = true
   (s.quiet = true) ∧ (hears = true) ∧ (k ≠ .lasting) ∧ (here) ∧ (f.data = true) ∧ (f.mgmt = false) ∧ ((s.sbOk = false ∨ sb = .lasting)) ∧ (s.countsOnly (93 + 32 * n) = true)) ∧
  (let f : AirFrame := airF true false false 18
   let k : Check := .corrected
   let sb : Check := .good
   let lk : Check := .good
   let s : State := wifi []
   let n := f.radio.val
   let st := f.sta.toNat
   let hears := s.radioHears n && ppduOk n f.fmt.val f.data
   let here := lk ≠ .lasting ∧ s.linkTableOk n = true ∧ s.linkPresent n st = true
   (s.quiet = true) ∧ (hears = true) ∧ (k ≠ .lasting) ∧ (here) ∧ (f.data = true) ∧ (f.mgmt = false) ∧ (s.sbOk = true) ∧ (sb ≠ .lasting) ∧ (f.prot = false) ∧ (f.psPoll = false) ∧ (f.pm = false) ∧ (f.om = none) ∧ (f.bsr = none) ∧ ((s.sbBase + 0x300000 ≤ s.linkBase n ∨ s.linkBase n + 0x10000 ≤ s.sbBase)) ∧ (bit (s.sbNat st f.tid.val 0x80 2) 15 = true) ∧ (let d := (f.sn.toNat + 4096 - s.sbWs st f.tid.val) % 4096
   (d = 0) ∧ (bit (s.sbNat st f.tid.val 0 128) 0 = false) ∧ (s.air.rx = []))) := by
  refine ⟨?_, ?_, ?_, ?_, ?_, ?_, ?_⟩ <;> decide +kernel

theorem wit_WifiReception_2 :
  (let f : AirFrame := airF true false false 20
   let k : Check := .corrected
   let sb : Check := .good
   let lk : Check := .good
   let ro : Check := .good
   let s : State := wifi []
   let n := f.radio.val
   let st := f.sta.toNat
   let hears := s.radioHears n && ppduOk n f.fmt.val f.data
   let here := lk ≠ .lasting ∧ s.linkTableOk n = true ∧ s.linkPresent n st = true
   (s.quiet = true) ∧ (hears = true) ∧ (k ≠ .lasting) ∧ (here) ∧ (f.data = true) ∧ (f.mgmt = false) ∧ (s.sbOk = true) ∧ (sb ≠ .lasting) ∧ (f.prot = false) ∧ (f.psPoll = false) ∧ (f.pm = false) ∧ (f.om = none) ∧ (f.bsr = none) ∧ ((s.sbBase + 0x300000 ≤ s.linkBase n ∨ s.linkBase n + 0x10000 ≤ s.sbBase)) ∧ (bit (s.sbNat st f.tid.val 0x80 2) 15 = true) ∧ (let d := (f.sn.toNat + 4096 - s.sbWs st f.tid.val) % 4096
   (0 < d) ∧ (d < s.sbSize st f.tid.val) ∧ (bit (s.sbNat st f.tid.val 0 128) 0 = false) ∧ (bit (s.sbNat st f.tid.val 0 128) d = false) ∧ (s.air.rx = []) ∧ (ro ≠ .lasting) ∧ (s.xmDead = false))) ∧
  (let f : AirFrame := airF true false false 17
   let k : Check := .corrected
   let sb : Check := .good
   let lk : Check := .good
   let s : State := wifi []
   let n := f.radio.val
   let st := f.sta.toNat
   let hears := s.radioHears n && ppduOk n f.fmt.val f.data
   let here := lk ≠ .lasting ∧ s.linkTableOk n = true ∧ s.linkPresent n st = true
   (s.quiet = true) ∧ (hears = true) ∧ (k ≠ .lasting) ∧ (here) ∧ (f.data = true) ∧ (f.mgmt = false) ∧ (s.sbOk = true) ∧ (sb ≠ .lasting) ∧ (f.prot = false) ∧ (f.psPoll = false) ∧ (f.pm = false) ∧ (f.om = none) ∧ (f.bsr = none) ∧ ((s.sbBase + 0x300000 ≤ s.linkBase n ∨ s.linkBase n + 0x10000 ≤ s.sbBase)) ∧ (bit (s.sbNat st f.tid.val 0x80 2) 15 = true) ∧ (let d := (f.sn.toNat + 4096 - s.sbWs st f.tid.val) % 4096
   (2048 ≤ d))) ∧
  (let n : Fin 3 := 1
   let s : State := wifi []
   (s.quiet = true) ∧ (s.radioHears n.val = true)) ∧
  (let n : Fin 3 := 1
   let st : BitVec 11 := 3
   let tid : Fin 8 := 2
   let start : BitVec 12 := 18
   let s : State := wifi []
   (s.quiet = true) ∧ (let d := (start.toNat + 4096 - s.sbWs st.toNat tid.val) % 4096
   let active := s.radioHears n.val = true ∧ s.sbOk = true ∧ bit (s.sbNat st.toNat tid.val 0x80 2) 15 = true
   (¬ active ∨ d = 0 ∨ 2048 ≤ d))) ∧
  (let n : Fin 3 := 1
   let st : BitVec 11 := 3
   let tid : Fin 8 := 2
   let start : BitVec 12 := 40
   let s : State := wifi []
   (s.quiet = true) ∧ (let d := (start.toNat + 4096 - s.sbWs st.toNat tid.val) % 4096
   let active := s.radioHears n.val = true ∧ s.sbOk = true ∧ bit (s.sbNat st.toNat tid.val 0x80 2) 15 = true
   (active) ∧ (0 < d) ∧ (d < 2048) ∧ (s.air.rx = []))) ∧
  (let s : State := wifi []
   (s.quiet = true) ∧ (s.domOn 11 = true)) ∧
  (let st : BitVec 11 := 3
   let tid : Fin 8 := 2
   let s : State := wifi [(F.SQA_SB_BASE_ADDR, 0x1FFFFFF)]
   (s.quiet = true) ∧ (let t := s.sbNat st.toNat tid.val 0x88 8
   let waits := s.domOn 11 = true ∧ s.sbOk = true ∧ t ≠ 0 ∧ s.sbHole st.toNat tid.val = true
   (¬ waits))) := by
  refine ⟨?_, ?_, ?_, ?_, ?_, ?_, ?_⟩ <;> decide +kernel

theorem wit_WifiReception_3 :
  (let st : BitVec 11 := 3
   let tid : Fin 8 := 2
   let s : State := State.gmAt { wifi [] with air := { rx := [{ sta := 3, tid := 2, sn := 20, st := 1, pkt := { bytes := [1] } }] } } (0x200000 + 192 * 26 + 0x88) [1, 0xCA, 0x9A, 0x3B, 0, 0, 0, 0]
   (s.quiet = true) ∧ (let t := s.sbNat st.toNat tid.val 0x88 8
   let waits := s.domOn 11 = true ∧ s.sbOk = true ∧ t ≠ 0 ∧ s.sbHole st.toNat tid.val = true
   let f : RxFrame := { sta := 3, tid := 2, sn := 20, st := 1, pkt := { bytes := [1] } }
   (waits) ∧ (s.air.rx = [f]) ∧ (f.sta = st.toNat) ∧ (f.tid = tid.val) ∧ (f.st = 1) ∧ (f.prot = false) ∧ (f.sn < 4096) ∧ (s.sbWs st.toNat tid.val ≠ f.sn) ∧ ((f.sn + 4096 - s.sbWs st.toNat tid.val) % 4096 < 2048))) ∧
  (let who : Fin 4 := 0
   let s : State := { wifi [(F.SQA_SB_SSN_SSN, 77), (F.SQA_SB_RO_ADDR, 0x12345678)] with air := { rx := [{ sta := 3, tid := 2, sn := 20, st := 1, pkt := { bytes := [1] } }] } }
   (s.takes who.val 11 = true)) ∧
  (let who : Fin 4 := 0
   let s : State := wifi [(F.SQA_SB_BASE_ADDR, 0x1FFFFFF)]
   (s.takes who.val 11 = true) ∧ (s.sbOk = false)) ∧
  (let who : Fin 4 := 0
   let s : State := { wifi [(F.SQA_SB_SSN_SSN, 77), (F.SQA_SB_RO_ADDR, 0x12345678)] with air := { rx := [{ sta := 3, tid := 2, sn := 20, st := 1, pkt := { bytes := [1] } }] } }
   (s.takes who.val 11 = true) ∧ (s.sbOk = true)) ∧
  (let who : Fin 4 := 0
   let s : State := wifi []
   (s.takes who.val 11 = true) ∧ (s.sbOk = true) ∧ (s.air.rx = [])) ∧
  (let who : Fin 4 := 0
   let v : Word := 3 + 2 * 2 ^ 11 + 64 * 2 ^ 15
   let s : State := { wifi [] with air := { rx := [{ sta := 3, tid := 2, sn := 20, st := 1, pkt := { bytes := [1] } }] } }
   (s.takes who.val 11 = true) ∧ (s.sbOk = true) ∧ (let st := fldOf v F.SQA_SB_UPD_STA
   let tid := fldOf v F.SQA_SB_UPD_TID
   let f : RxFrame := { sta := 3, tid := 2, sn := 20, st := 1, pkt := { bytes := [1] } }
   (s.air.rx = [f]) ∧ (f.sta = st) ∧ (f.tid = tid) ∧ (f.st = 1) ∧ (f.prot = false) ∧ (f.sn < 4096) ∧ ((f.sn + 4096 - s.sbWs st tid) % 4096 < 2048))) ∧
  (let who : Fin 4 := 0
   let n : Fin 3 := 1
   let v : Word := 3
   let s : State := { at' [(F.MX_CTL_EN 1, 1), (F.MX_LINK_BASE_ADDR 1, 0x100000), (F.SQA_SB_BASE_ADDR, 0x200000), (F.MX_LINK_STAGE_WORD 1 0, 7)] with ctl := { boot := none, fronts := [0, 1, 2, 3, 4, 5] } }
   (s.takes who.val 11 = true) ∧ (s.linkTableOk n.val = true) ∧ ((∀ k, 2 ≤ k → k < 8 → s.on (F.FEDS_LINK_STAT_UP k) = false)) ∧ ((∀ m : Fin 3, s.sbBase + 0x300000 ≤ s.linkBase m.val ∨ s.linkBase m.val + 0x10000 ≤ s.sbBase)) ∧ (let st := fldOf v (F.MX_LINK_UPD_STA n.val)
   let t := s.put (F.MX_LINK_UPD_STA n.val) st
   (t.linkRefused n.val = true))) := by
  refine ⟨?_, ?_, ?_, ?_, ?_, ?_, ?_⟩ <;> decide +kernel

theorem wit_WifiReception_4 :
  (let who : Fin 4 := 0
   let n : Fin 3 := 1
   let v : Word := 3
   let s : State := { at' [(F.MX_CTL_EN 1, 1), (F.MX_LINK_BASE_ADDR 1, 0x100000), (F.SQA_SB_BASE_ADDR, 0x200000), (F.MX_LINK_STAGE_WORD 1 0, 1), (F.MX_BSS_CFG_EN 1 0, 1), (F.MX_LINK_STAGE_WORD 1 5, 0x12345678)] with ctl := { boot := none, fronts := [0, 1, 2, 3, 4, 5] } }
   (s.takes who.val 11 = true) ∧ (s.linkTableOk n.val = true) ∧ ((∀ k, 2 ≤ k → k < 8 → s.on (F.FEDS_LINK_STAT_UP k) = false)) ∧ ((∀ m : Fin 3, s.sbBase + 0x300000 ≤ s.linkBase m.val ∨ s.linkBase m.val + 0x10000 ≤ s.sbBase)) ∧ (let st := fldOf v (F.MX_LINK_UPD_STA n.val)
   let t := s.put (F.MX_LINK_UPD_STA n.val) st
   (t.linkRefused n.val = false) ∧ ((s.linkPresent n.val st = true → bit (s.linkStage n.val 0) 0 = true)))) ∧
  (let who : Fin 4 := 0
   let s : State := { at' [(F.MX_CTL_EN 1, 1), (F.MX_LINK_BASE_ADDR 1, 0x100000), (F.SQA_SB_BASE_ADDR, 0x200000), (F.MX_LINK_STAGE_WORD 1 0, 1), (F.MX_BSS_CFG_EN 1 0, 1), (F.MX_LINK_STAGE_WORD 1 5, 0x12345678)] with ctl := { boot := none, fronts := [0, 1, 2, 3, 4, 5] } }
   (s.takes who.val 11 = true)) ∧
  (let s : State := wifi []
   (s.quiet = true)) ∧
  (let n : Fin 3 := 1
   let s : State := at' [(F.MX_LINK_BASE_ADDR 1, 0x100000)]
   (s.quiet = true) ∧ (s.radioHears n.val = false)) ∧
  (let n : Fin 3 := 1
   let st : BitVec 11 := 3
   let s : State := wifi []
   (s.quiet = true) ∧ (((s.radio n.val).eosp.contains st.toNat && s.mayCommit n.val) = false)) ∧
  (let n : Fin 3 := 1
   let st : BitVec 11 := 3
   let s : State := State.gmAt (State.setRadio (wifi []) 1 { eosp := [3, 4, 3] }) (0x100000 + 32 * 3 + 24) [2]
   (s.quiet = true) ∧ ((s.radio n.val).eosp.contains st.toNat = true) ∧ (s.mayCommit n.val = true) ∧ (s.linkTableOk n.val = true)) ∧
  (let s : State := live
   (s.quiet = true)) := by
  refine ⟨?_, ?_, ?_, ?_, ?_, ?_, ?_⟩ <;> decide +kernel

theorem wit_WifiReception_5 :
  (let n : Fin 3 := 1
   let st : BitVec 11 := 3
   let s : State := live
   (s.quiet = true) ∧ (s.soundingSlot n.val st.toNat = none)) ∧
  (let n : Fin 3 := 1
   let st : BitVec 11 := 3
   let h : Husk := { st := 3, kind := 2, stas := [{ sta := 3, bin := 5, await := true }], trig := some { type := 1 } }
   let j : HuskSta := { sta := 3, bin := 5, await := true }
   let s : State := State.gmAt (State.setHusk (at' [(F.MX_LINK_BASE_ADDR 1, 0x100000), (F.SQA_BIN_BASE_ADDR, 0x400000)]) 1 0 (some { st := 3, kind := 2, stas := [{ sta := 3, bin := 5, await := true }], trig := some { type := 1 } })) (0x100000 + 32 * 3 + 0x16) [9, 0]
   (s.quiet = true) ∧ (s.husk n.val 0 = some h) ∧ (h.st = 3) ∧ (h.sounding = true) ∧ (h.mpdus = []) ∧ (h.stas = [j]) ∧ (j.sta = st.toNat) ∧ (j.await = true) ∧ ((s.radio n.val).csw = none) ∧ (let e := s.linkNat n.val st.toNat 0x16 2 % 4096
   (e ≠ 0))) := by
  refine ⟨?_, ?_⟩ <;> decide +kernel

theorem wit_BeaconsAndBackhaul :
  (let n : Fin 3 := 1
   let b : Fin 16 := 2
   let s : State := at' [(F.MX_BSS_CFG_NONTX 1 2, 1)]
   (s.quiet = true) ∧ ((s.domOn 11 = false ∨ (0 < b.val ∧ s.on (F.MX_BSS_CFG_NONTX n.val b.val) = true)))) ∧
  (let n : Fin 3 := 1
   let b : Fin 16 := 2
   let s : State := { at' [(F.MX_CTL_EN 1, 1), (F.MX_BSS_CFG_DTIM 1 2, 3)] with ctl := { boot := none, fronts := [0, 1, 2, 3, 4, 5] } }
   (s.running 11 = true) ∧ ((b = 0 ∨ s.on (F.MX_BSS_CFG_NONTX n.val b.val) = false)) ∧ ((s.radio n.val).csw = none) ∧ ((∀ w ∈ (s.radio n.val).bwin, w.1 ≠ b.val)) ∧ (s.bssBeacons n.val b.val = false)) ∧
  (let n : Fin 3 := 1
   let b : Fin 16 := 2
   let s : State := State.setRadio { at' [(F.MX_CTL_EN 1, 1), (F.MX_BSS_CFG_EN 1 2, 1), (F.MX_BSS_CFG_BCN 1 2, 1), (F.MX_BCN_TPL_LEN 1 2, 100), (F.MX_BSS_CFG_DTIM 1 2, 3), (F.MX_BSS_CFG_BI 1 2, 100), (F.MX_BSS_TBTT_OFS 1 2, 500)] with ctl := { boot := none, fronts := [0, 1, 2, 3, 4, 5] } } 1 { armed := [{ b := 1 }, { b := 2 }], bwin := [(1, 5)] }
   (s.running 11 = true) ∧ ((b = 0 ∨ s.on (F.MX_BSS_CFG_NONTX n.val b.val) = false)) ∧ ((s.radio n.val).csw = none) ∧ ((∀ w ∈ (s.radio n.val).bwin, w.1 ≠ b.val)) ∧ (let x := s.radio n.val
   (s.bssBeacons n.val b.val = true) ∧ (x.armed.any (fun a => a.b == b.val) = true))) ∧
  (let n : Fin 3 := 1
   let b : Fin 16 := 2
   let s : State := { at' [(F.MX_CTL_EN 1, 1), (F.MX_BSS_CFG_EN 1 2, 1), (F.MX_BSS_CFG_BCN 1 2, 1), (F.MX_BCN_TPL_LEN 1 2, 100), (F.MX_BSS_CFG_DTIM 1 2, 3), (F.MX_BSS_CFG_BI 1 2, 100), (F.MX_BSS_TBTT_OFS 1 2, 500), (F.MX_BCN_RUN_RUN 1 2, 1)] with ctl := { boot := none, fronts := [0, 1, 2, 3, 4, 5] } }
   (s.running 11 = true) ∧ ((b = 0 ∨ s.on (F.MX_BSS_CFG_NONTX n.val b.val) = false)) ∧ ((s.radio n.val).csw = none) ∧ ((∀ w ∈ (s.radio n.val).bwin, w.1 ≠ b.val)) ∧ (let x := s.radio n.val
   (s.bssBeacons n.val b.val = true) ∧ (x.armed.any (fun a => a.b == b.val) = false) ∧ (s.get (F.MX_BCN_RUN_RUN n.val b.val) < 2))) ∧
  (let n : Fin 3 := 1
   let b : Fin 16 := 2
   let s : State := live
   (s.quiet = true) ∧ (let x := s.radio n.val
   ((∀ w ∈ x.bwin, w.1 ≠ b.val)))) ∧
  (let n : Fin 3 := 1
   let s : State := State.setRadio { at' [(F.MX_CTL_EN 1, 1), (F.MX_BSS_CFG_EN 1 2, 1), (F.MX_BSS_CFG_BCN 1 2, 1), (F.MX_BCN_TPL_LEN 1 2, 100), (F.MX_BSS_CFG_DTIM 1 2, 3), (F.MX_BSS_CFG_BI 1 2, 100), (F.MX_BSS_TBTT_OFS 1 2, 500), (F.SQ_CTL_HALTED 1, 1)] with ctl := { boot := none, fronts := [0, 1, 2, 3, 4, 5] } } 1 { armed := [{ b := 2 }], bwin := [(2, 1000500)] }
   (s.quiet = true) ∧ (s.beaconHeld n.val = true ∨ s.switching n.val = true ∨ s.radioOk n.val = false ∨ s.on (F.MX_CTL_TXOFF n.val) = true)) ∧
  (let n : Fin 3 := 1
   let b : Fin 16 := 2
   let a : Arm := { b := 2 }
   let e : Nat := 1000500
   let s : State := State.setRadio { at' [(F.MX_CTL_EN 1, 1), (F.MX_BSS_CFG_EN 1 2, 1), (F.MX_BSS_CFG_BCN 1 2, 1), (F.MX_BCN_TPL_LEN 1 2, 100), (F.MX_BSS_CFG_DTIM 1 2, 3), (F.MX_BSS_CFG_BI 1 2, 100), (F.MX_BSS_TBTT_OFS 1 2, 500)] with ctl := { boot := none, fronts := [0, 1, 2, 3, 4, 5] } } 1 { armed := [{ b := 1 }, { b := 2 }], bwin := [(1, 1000500), (2, 1000500)] }
   (s.quiet = true) ∧ (let x := s.radio n.val
   (x.armed.find? (fun a => a.b == b.val) = some a) ∧ (x.bwin.find? (fun w => w.1 == b.val) = some (b.val, e)) ∧ (s.switching n.val = false) ∧ (s.beaconHeld n.val = false) ∧ (s.radioOk n.val = true) ∧ (s.on (F.MX_CTL_TXOFF n.val) = false) ∧ (s.tsf n.val < e) ∧ (let behind := x.bwin.any (fun v => decide (v.1 < b.val) && v.2 - s.beaconLate n.val v.1 == e - s.beaconLate n.val b.val)
   (behind = true)))) := by
  refine ⟨?_, ?_, ?_, ?_, ?_, ?_, ?_⟩ <;> decide +kernel

theorem wit_BeaconsAndBackhaul_2 :
  (let n : Fin 3 := 1
   let b : Fin 16 := 2
   let a : Arm := { b := 2 }
   let e : Nat := 1000500
   let s : State := State.setRadio { at' [(F.MX_CTL_EN 1, 1), (F.MX_BSS_CFG_EN 1 2, 1), (F.MX_BSS_CFG_BCN 1 2, 1), (F.MX_BCN_TPL_LEN 1 2, 100), (F.MX_BSS_CFG_DTIM 1 2, 3), (F.MX_BSS_CFG_BI 1 2, 100), (F.MX_BSS_TBTT_OFS 1 2, 500), (F.MX_BCN_RUN_RUN 1 2, 9), (F.MX_BCN_STAT_STARVED 1, 4)] with ctl := { boot := none, fronts := [0, 1, 2, 3, 4, 5] } } 1 { armed := [{ b := 2 }], bwin := [(2, 1000500)] }
   (s.quiet = true) ∧ (let x := s.radio n.val
   (x.armed.find? (fun a => a.b == b.val) = some a) ∧ (x.bwin.find? (fun w => w.1 == b.val) = some (b.val, e)) ∧ (s.switching n.val = false) ∧ (s.beaconHeld n.val = false) ∧ (s.radioOk n.val = true) ∧ (s.on (F.MX_CTL_TXOFF n.val) = false) ∧ (s.tsf n.val < e) ∧ (let good := match a.slot with | some k => s.keyGen k == a.gen | none => true
   let behind := x.bwin.any (fun v => decide (v.1 < b.val) && v.2 - s.beaconLate n.val v.1 == e - s.beaconLate n.val b.val)
   (behind = false) ∧ (good = true)))) ∧
  (let n : Fin 3 := 1
   let b : Fin 16 := 2
   let a : Arm := { b := 2, slot := some 5, gen := 3, pn := 9 }
   let e : Nat := 1000500
   let s : State := State.setRadio { at' [(F.MX_CTL_EN 1, 1), (F.MX_BSS_CFG_EN 1 2, 1), (F.MX_BSS_CFG_BCN 1 2, 1), (F.MX_BCN_TPL_LEN 1 2, 100), (F.MX_BSS_CFG_DTIM 1 2, 3), (F.MX_BSS_CFG_BI 1 2, 100), (F.MX_BSS_TBTT_OFS 1 2, 500), (F.MX_BCN_RUN_RUN 1 2, 1)] with ctl := { boot := none, fronts := [0, 1, 2, 3, 4, 5] } } 1 { armed := [{ b := 2, slot := some 5, gen := 3, pn := 9 }], bwin := [(2, 1000500)] }
   (s.quiet = true) ∧ (let x := s.radio n.val
   let run := s.get (F.MX_BCN_RUN_RUN n.val b.val)
   (x.armed.find? (fun a => a.b == b.val) = some a) ∧ (x.bwin.find? (fun w => w.1 == b.val) = some (b.val, e)) ∧ (s.switching n.val = false) ∧ (s.beaconHeld n.val = false) ∧ (s.radioOk n.val = true) ∧ (s.on (F.MX_CTL_TXOFF n.val) = false) ∧ (s.tsf n.val < e) ∧ (let good := match a.slot with | some k => s.keyGen k == a.gen | none => true
   let behind := x.bwin.any (fun v => decide (v.1 < b.val) && v.2 - s.beaconLate n.val v.1 == e - s.beaconLate n.val b.val)
   (behind = false) ∧ (good = false) ∧ (run < 2)))) ∧
  (let n : Fin 3 := 1
   let b : Fin 16 := 2
   let a : Arm := { b := 2, slot := some 5, gen := 3, pn := 9 }
   let e : Nat := 1000500
   let s : State := State.setRadio { at' [(F.MX_CTL_EN 1, 1), (F.MX_BSS_CFG_EN 1 2, 1), (F.MX_BSS_CFG_BCN 1 2, 1), (F.MX_BCN_TPL_LEN 1 2, 100), (F.MX_BSS_CFG_DTIM 1 2, 3), (F.MX_BSS_CFG_BI 1 2, 100), (F.MX_BSS_TBTT_OFS 1 2, 500), (F.MX_BCN_RUN_RUN 1 2, 255), (F.MX_BCN_STAT_STARVED 1, 4)] with ctl := { boot := none, fronts := [0, 1, 2, 3, 4, 5] } } 1 { armed := [{ b := 2, slot := some 5, gen := 3, pn := 9 }], bwin := [(2, 1000500)] }
   (s.quiet = true) ∧ (let x := s.radio n.val
   let run := s.get (F.MX_BCN_RUN_RUN n.val b.val)
   (x.armed.find? (fun a => a.b == b.val) = some a) ∧ (x.bwin.find? (fun w => w.1 == b.val) = some (b.val, e)) ∧ (run < 2 ∨ s.fbit (F.MX_BCN_STAT_STARVED n.val) b.val = true))) ∧
  (let n : Fin 3 := 1
   let b : Fin 16 := 2
   let a : Arm := { b := 2, slot := some 5, gen := 3, pn := 9 }
   let e : Nat := 1000500
   let s : State := State.setRadio { at' [(F.MX_CTL_EN 1, 1), (F.MX_BSS_CFG_EN 1 2, 1), (F.MX_BSS_CFG_BCN 1 2, 1), (F.MX_BCN_TPL_LEN 1 2, 100), (F.MX_BSS_CFG_DTIM 1 2, 3), (F.MX_BSS_CFG_BI 1 2, 100), (F.MX_BSS_TBTT_OFS 1 2, 500), (F.MX_BCN_RUN_RUN 1 2, 2)] with ctl := { boot := none, fronts := [0, 1, 2, 3, 4, 5] } } 1 { armed := [{ b := 2, slot := some 5, gen := 3, pn := 9 }], bwin := [(2, 1000500)] }
   (s.quiet = true) ∧ (let x := s.radio n.val
   let run := s.get (F.MX_BCN_RUN_RUN n.val b.val)
   (x.armed.find? (fun a => a.b == b.val) = some a) ∧ (x.bwin.find? (fun w => w.1 == b.val) = some (b.val, e)) ∧ (2 ≤ run) ∧ (s.fbit (F.MX_BCN_STAT_STARVED n.val) b.val = false) ∧ (s.countsOnly (33 + 8 * n.val) = true))) ∧
  (let s : State := { at' [(F.MX_CTL_EN 1, 1), (F.MXA_BH_CFG_RADIO, 1), (F.MXA_BH_CTL_UP, 1), (F.MXA_BH_CTL_MISSED, 2)] with ctl := { boot := none, fronts := [0, 1, 2, 3, 4, 5] } }
   (s.quiet = true) ∧ (s.on F.MXA_BH_CTL_UP = true) ∧ (s.air.bh.report = false) ∧ (let n := s.get F.MXA_BH_CFG_RADIO
   (n < 3) ∧ (s.radioHears n = true) ∧ (s.air.bh.anchor = none) ∧ (s.time.tsfBase.length = 3))) ∧
  (let s : State := { at' [(F.MX_CTL_EN 1, 1), (F.MXA_BH_CFG_RADIO, 1)] with ctl := { boot := none, fronts := [0, 1, 2, 3, 4, 5] } }
   (s.radioHears (s.get F.MXA_BH_CFG_RADIO) = true)) ∧
  (let s : State := { at' [(F.MX_CTL_EN 1, 1), (F.MXA_BH_CFG_RADIO, 1)] with ctl := { boot := none, fronts := [0, 1, 2, 3, 4, 5] } }
   (s.domOn 11 = true)) := by
  refine ⟨?_, ?_, ?_, ?_, ?_, ?_, ?_⟩ <;> decide +kernel

theorem wit_BeaconsAndBackhaul_3 :
  (let s : State := live
   (s.quiet = true) ∧ (s.radioHears (s.get F.MXA_BH_CFG_RADIO) = false ∨ (s.on F.MXA_BH_CTL_UP = false ∧ s.air.bh.report = false))) ∧
  (let s : State := live
   (s.quiet = true) ∧ (s.domOn 11 = false ∨ (s.air.bh.report = false ∧ (s.on F.MXA_BH_CTL_UP = false ∨ s.air.bh.anchor = none ∨ 3 < s.air.bh.k)))) ∧
  (let s : State := at' [(F.PWR_DOM_ON, 3)]
   (s.quiet = true) ∧ (s.domOn 11 = false)) ∧
  (let a : Nat := 999000
   let s : State := { at' [(F.MX_CTL_EN 1, 1), (F.MXA_BH_CFG_RADIO, 1), (F.MXA_BH_CTL_UP, 1), (F.MXA_BH_CTL_MISSED, 1)] with ctl := { boot := none, fronts := [0, 1, 2, 3, 4, 5] }, air := { bh := { anchor := some 999000, k := 3 } } }
   (s.running 11 = true) ∧ (s.air.bh.report = false) ∧ (s.on F.MXA_BH_CTL_UP = true) ∧ (s.air.bh.anchor = some a) ∧ (s.air.bh.k ≤ 3) ∧ (s.get F.MXA_BH_CTL_MISSED < 2)) ∧
  (let s : State := live
   (s.running 11 = true) ∧ (s.air.bh.search = false)) ∧
  (let k : Nat := 2
   let s : State := { at' [(F.MX_CTL_EN 1, 1), (F.MXA_BH_CFG_RADIO, 1), (F.MXA_BH_CFG_CAND_N, 3), (F.MXA_BH_CTL_CUR, 1), (F.MXA_BH_CAND_CH_RADIO 2, 1), (F.MXA_BH_CAND_CH_CH 2, 44), (F.MXA_BH_CAND_CH_BW 2, 1), (F.MXA_BH_CAND_CH_BI 2, 100)] with ctl := { boot := none, fronts := [0, 1, 2, 3, 4, 5] }, air := { bh := { search := true, tried := 1, listenEnd := 1000800000 } } }
   (s.running 11 = true) ∧ (s.air.bh.search = true) ∧ (s.nextCandidate = some k) ∧ (s.candRadio k = s.get F.MXA_BH_CFG_RADIO) ∧ (s.candRadio k < 3) ∧ ((s.candidates.length ≤ s.air.bh.tried → s.countsOnly (68 + 32 * s.candRadio k) = true))) ∧
  (let t : Nat := 1000700000
   let s : State := { at' [(F.MX_CTL_EN 1, 1), (F.MXA_BH_CFG_RADIO, 1)] with ctl := { boot := none, fronts := [0, 1, 2, 3, 4, 5] }, air := { bh := { search := true, tried := 1, listenEnd := 1000800000 } } }
   (s.quiet = true) ∧ (let heard := s.radioHears (s.get F.MXA_BH_CFG_RADIO) = true ∧ s.air.bh.search = true ∧ t < s.air.bh.listenEnd ∧ s.air.bh.listenEnd ≤ t + 3 * s.bhInterval * 1000
   (heard))) := by
  refine ⟨?_, ?_, ?_, ?_, ?_, ?_, ?_⟩ <;> decide +kernel

theorem wit_BeaconsAndBackhaul_4 :
  (let t : Nat := 1000800000
   let s : State := { at' [(F.MX_CTL_EN 1, 1), (F.MXA_BH_CFG_RADIO, 1)] with ctl := { boot := none, fronts := [0, 1, 2, 3, 4, 5] }, air := { bh := { search := true, tried := 1, listenEnd := 1000800000 } } }
   (s.quiet = true) ∧ (let heard := s.radioHears (s.get F.MXA_BH_CFG_RADIO) = true ∧ s.air.bh.search = true ∧ t < s.air.bh.listenEnd ∧ s.air.bh.listenEnd ≤ t + 3 * s.bhInterval * 1000
   (¬ heard))) := by
  decide +kernel

theorem wit_PipFrames :
  (let f : PipFrame := pmic (pfr 0x81 20 [1, 2, 3]) 0x47fb2d48
   let node : Nat := 77
   let sd : Nat := 5
   let w0 : Nat := 1000000000
   let w1 : Nat := 1001000000
   let ch : Nat := 4
   let rate : Nat := 0
   let rep : Nat := 0
   let s : State := pipL [] (pipRec 1 3 10 7 12)
   (s.pipIndex f.addr.toNat = some node) ∧ (node < 16384) ∧ (s.nodePresent node = true) ∧ (s.pipHeld < 64) ∧ (f.sat = false) ∧ (let l := s.nodeLink node
   let c := s.nodeCfg node
   let key := s.nodeNat node 8 2 % 8192
   let up := s.nodeNat node 0x1C 4
   let passes := if pipSec f = true then s.micOk f key = true ∧ up < f.ctr.toNat else bit c 4 = false
   (s.pipListens f 1 sd w0 w1 ch rate rep) ∧ (bit l 0 = true) ∧ (s.nodeKind node = 0) ∧ (passes) ∧ (f.body ≠ []) ∧ (bit l 3 = false) ∧ (f.fc.getLsbD 4 = bit l 2))) ∧
  (let f : PipFrame := pfr 0x11 20 [1, 2, 3]
   let node : Nat := 77
   let sd : Nat := 5
   let w0 : Nat := 1000000000
   let w1 : Nat := 1001000000
   let ch : Nat := 4
   let rate : Nat := 0
   let rep : Nat := 0
   let s : State := pipL [] (pipRec 1 3 10 7 12)
   (s.pipIndex f.addr.toNat = some node) ∧ (node < 16384) ∧ (s.nodePresent node = true) ∧ (s.pipHeld < 64) ∧ (f.sat = false) ∧ (let l := s.nodeLink node
   let c := s.nodeCfg node
   let key := s.nodeNat node 8 2 % 8192
   let up := s.nodeNat node 0x1C 4
   let passes := if pipSec f = true then s.micOk f key = true ∧ up < f.ctr.toNat else bit c 4 = false
   (s.pipListens f 1 sd w0 w1 ch rate rep) ∧ (bit l 0 = true) ∧ (s.nodeKind node = 0) ∧ (passes) ∧ (f.body ≠ []) ∧ (bit l 3 = false) ∧ (f.fc.getLsbD 4 ≠ bit l 2))) ∧
  (let f : PipFrame := pfr 0x81 20 [1, 2, 3]
   let node : Nat := 77
   let sd : Nat := 5
   let w0 : Nat := 1000000000
   let w1 : Nat := 1001000000
   let ch : Nat := 4
   let rate : Nat := 0
   let rep : Nat := 0
   let s : State := pipL [] (pipRec 1 3 10 7 12)
   (s.pipIndex f.addr.toNat = some node) ∧ (node < 16384) ∧ (s.nodePresent node = true) ∧ (s.pipHeld < 64) ∧ (f.sat = false) ∧ (let l := s.nodeLink node
   let c := s.nodeCfg node
   let key := s.nodeNat node 8 2 % 8192
   (s.pipListens f 1 sd w0 w1 ch rate rep) ∧ (bit l 0 = true) ∧ ((if pipSec f = true then s.micOk f key = false else bit c 4 = true)))) ∧
  (let f : PipFrame := pmic (pfr 0x81 10 [1, 2, 3]) 0xa3e36b09
   let node : Nat := 77
   let sd : Nat := 5
   let w0 : Nat := 1000000000
   let w1 : Nat := 1001000000
   let ch : Nat := 4
   let rate : Nat := 0
   let rep : Nat := 0
   let s : State := pipL [] (pipRec 1 3 10 7 12)
   (s.pipIndex f.addr.toNat = some node) ∧ (node < 16384) ∧ (s.nodePresent node = true) ∧ (s.pipHeld < 64) ∧ (f.sat = false) ∧ (let l := s.nodeLink node
   let key := s.nodeNat node 8 2 % 8192
   let up := s.nodeNat node 0x1C 4
   (s.pipListens f 1 sd w0 w1 ch rate rep) ∧ (bit l 0 = true) ∧ (pipSec f = true) ∧ (s.micOk f key = true) ∧ (f.ctr.toNat ≤ up))) ∧
  (let f : PipFrame := pmic (pfr 0x81 10 [1, 2, 3]) 0xa3e36b09
   let node : Nat := 77
   let sd : Nat := 5
   let w0 : Nat := 1000000000
   let w1 : Nat := 1001000000
   let ch : Nat := 4
   let rate : Nat := 0
   let rep : Nat := 0
   let s : State := pipL [] (pipRec 1 2 10 7 12)
   (s.pipIndex f.addr.toNat = some node) ∧ (node < 16384) ∧ (s.nodePresent node = true) ∧ (s.pipHeld < 64) ∧ (f.sat = false) ∧ (let l := s.nodeLink node
   (s.pipListens f 1 sd w0 w1 ch rate rep) ∧ (bit l 0 = false))) ∧
  (let f : PipFrame := pfr 2 0 []
   let node : Nat := 77
   let sd : Nat := 5
   let w0 : Nat := 1000000000
   let w1 : Nat := 1001000000
   let ch : Nat := 4
   let rate : Nat := 0
   let rep : Nat := 0
   let s : State := (pipL [(F.HTS_EG_LVL_PKTS 5, 4)] (pipRec 1 0x3B 10 7 12)).setPip { pending := [(76, { }), (77, { })] }
   (s.pipIndex f.addr.toNat = some node) ∧ (node < 16384) ∧ (s.nodePresent node = true) ∧ (s.pipHeld < 64) ∧ (f.sat = false) ∧ (let l := s.nodeLink node
   let c := s.nodeCfg node
   let key := s.nodeNat node 8 2 % 8192
   let up := s.nodeNat node 0x1C 4
   let passes := if pipSec f = true then s.micOk f key = true ∧ up < f.ctr.toNat else bit c 4 = false
   (s.pipListens f 2 sd w0 w1 ch rate rep) ∧ (bit l 0 = true) ∧ (s.nodeKind node = 0) ∧ (passes) ∧ (bit l 3 = true) ∧ (f.fc.getLsbD 5 ≠ bit l 1))) ∧
  (let f : PipFrame := pfr 0x22 0 []
   let node : Nat := 77
   let sd : Nat := 5
   let w0 : Nat := 1000000000
   let w1 : Nat := 1001000000
   let ch : Nat := 4
   let rate : Nat := 0
   let rep : Nat := 0
   let s : State := (pipL [(F.HTS_EG_LVL_PKTS 5, 4)] (pipRec 1 0x3B 10 7 12)).setPip { pending := [(76, { }), (77, { })] }
   (s.pipIndex f.addr.toNat = some node) ∧ (node < 16384) ∧ (s.nodePresent node = true) ∧ (s.pipHeld < 64) ∧ (f.sat = false) ∧ (let l := s.nodeLink node
   let c := s.nodeCfg node
   let key := s.nodeNat node 8 2 % 8192
   let up := s.nodeNat node 0x1C 4
   let passes := if pipSec f = true then s.micOk f key = true ∧ up < f.ctr.toNat else bit c 4 = false
   (s.pipListens f 2 sd w0 w1 ch rate rep) ∧ (bit l 0 = true) ∧ (s.nodeKind node = 0) ∧ (passes) ∧ (bit l 3 = true) ∧ (f.fc.getLsbD 5 = bit l 1))) := by
  refine ⟨?_, ?_, ?_, ?_, ?_, ?_, ?_⟩ <;> decide +kernel

theorem wit_PipFrames_2 :
  (let f : PipFrame := pfr 3 0 []
   let node : Nat := 77
   let sd : Nat := 5
   let w0 : Nat := 1000000000
   let w1 : Nat := 1001000000
   let ch : Nat := 4
   let rate : Nat := 0
   let rep : Nat := 0
   let s : State := pipL [(F.PIP_HOME_CH, 4)] (pipRec 3 1 10 7 12)
   (s.pipIndex f.addr.toNat = some node) ∧ (node < 16384) ∧ (s.nodePresent node = true) ∧ (s.pipHeld < 64) ∧ (f.sat = false) ∧ (let l := s.nodeLink node
   let c := s.nodeCfg node
   let key := s.nodeNat node 8 2 % 8192
   let up := s.nodeNat node 0x1C 4
   let passes := if pipSec f = true then s.micOk f key = true ∧ up < f.ctr.toNat else bit c 4 = false
   (s.pipListens f 3 sd w0 w1 ch rate rep) ∧ (bit l 0 = true) ∧ (s.nodeKind node = 1) ∧ (passes) ∧ (bit l 3 = false))) ∧
  (let f : PipFrame := pmic (pfr 0x84 20 [1, 2, 3]) 0xf4792d27
   let node : Nat := 77
   let sd : Nat := 5
   let w0 : Nat := 1000000000
   let w1 : Nat := 1001000000
   let ch : Nat := 4
   let rate : Nat := 0
   let rep : Nat := 0
   let s : State := pipL [] (pipRec 1 0 10 7 12)
   (s.pipIndex f.addr.toNat = some node) ∧ (node < 16384) ∧ (s.nodePresent node = true) ∧ (s.pipHeld < 64) ∧ (f.sat = false) ∧ (let c := s.nodeCfg node
   let key := s.nodeNat node 8 2 % 8192
   (s.pipListens f 4 sd w0 w1 ch rate rep) ∧ (pipSec f = true) ∧ (s.micOk f key = true) ∧ (s.mode ≠ 4) ∧ (bit c 3 = false))) ∧
  (let f : PipFrame := pmic (pfr 0x84 12 [1, 2, 3]) 0xd9559014
   let node : Nat := 77
   let sd : Nat := 5
   let w0 : Nat := 1000000000
   let w1 : Nat := 1001000000
   let ch : Nat := 4
   let rate : Nat := 0
   let rep : Nat := 0
   let s : State := pipL [] (pipRec 9 0 15 7 12)
   (s.pipIndex f.addr.toNat = some node) ∧ (node < 16384) ∧ (s.nodePresent node = true) ∧ (s.pipHeld < 64) ∧ (f.sat = false) ∧ (let c := s.nodeCfg node
   let key := s.nodeNat node 8 2 % 8192
   (s.pipListens f 4 sd w0 w1 ch rate rep) ∧ (pipSec f = true) ∧ (s.micOk f key = true) ∧ (s.mode ≠ 4) ∧ (let al := s.nodeNat node 0x24 4
   (bit c 3 = true) ∧ (f.ctr.toNat = al)))) ∧
  (let f : PipFrame := pmic (pfr 0x84 10 [1, 2, 3]) 0x7ca30db1
   let node : Nat := 77
   let sd : Nat := 5
   let w0 : Nat := 1000000000
   let w1 : Nat := 1001000000
   let ch : Nat := 4
   let rate : Nat := 0
   let rep : Nat := 0
   let s : State := pipL [] (pipRec 9 0 15 7 12)
   (s.pipIndex f.addr.toNat = some node) ∧ (node < 16384) ∧ (s.nodePresent node = true) ∧ (s.pipHeld < 64) ∧ (f.sat = false) ∧ (let c := s.nodeCfg node
   let key := s.nodeNat node 8 2 % 8192
   let up := s.nodeNat node 0x1C 4
   (s.pipListens f 4 sd w0 w1 ch rate rep) ∧ (pipSec f = true) ∧ (s.micOk f key = true) ∧ (s.mode ≠ 4) ∧ (let al := s.nodeNat node 0x24 4
   (bit c 3 = true) ∧ (f.ctr.toNat ≠ al) ∧ (f.ctr.toNat ≤ up)))) ∧
  (let f : PipFrame := pmic (pfr 0x84 16 [1, 2, 3]) 0x738da642
   let node : Nat := 77
   let sd : Nat := 5
   let w0 : Nat := 1000000000
   let w1 : Nat := 1001000000
   let ch : Nat := 4
   let rate : Nat := 0
   let rep : Nat := 0
   let s : State := pipL [] (pipRec 9 0 15 7 12)
   (s.pipIndex f.addr.toNat = some node) ∧ (node < 16384) ∧ (s.nodePresent node = true) ∧ (s.pipHeld < 64) ∧ (f.sat = false) ∧ (let c := s.nodeCfg node
   let key := s.nodeNat node 8 2 % 8192
   let up := s.nodeNat node 0x1C 4
   (s.pipListens f 4 sd w0 w1 ch rate rep) ∧ (pipSec f = true) ∧ (s.micOk f key = true) ∧ (s.mode ≠ 4) ∧ (let al := s.nodeNat node 0x24 4
   (bit c 3 = true) ∧ (f.ctr.toNat ≠ al) ∧ (up < f.ctr.toNat)))) ∧
  (let f : PipFrame := pmic (pfr 0x285 10 [1, 2, 3, 4, 5]) 0xfd84cc84
   let node : Nat := 77
   let sd : Nat := 5
   let w0 : Nat := 1000000000
   let w1 : Nat := 1001000000
   let ch : Nat := 4
   let rate : Nat := 0
   let rep : Nat := 0
   let s : State := pipL [] (pipRec 1 1 15 7 12)
   (s.pipIndex f.addr.toNat = some node) ∧ (node < 16384) ∧ (s.nodePresent node = true) ∧ (s.pipHeld < 64) ∧ (f.sat = false) ∧ (let l := s.nodeLink node
   let e := s.until (pipEndNs f)
   let key := s.nodeNat node 8 2 % 8192
   let up := s.nodeNat node 0x1C 4
   (s.pipListens f 5 sd w0 w1 ch rate rep) ∧ (bit l 0 = true) ∧ (pipSec f = true) ∧ (s.micOk f key = true) ∧ (e.seen f.addr.toNat f.ctr.toNat = false) ∧ (f.ctr.toNat ≤ up))) ∧
  (let f : PipFrame := pmic (pfr 0x285 16 [255, 255, 255, 255, 5]) 0xdd708349
   let node : Nat := 77
   let sd : Nat := 5
   let w0 : Nat := 1000000000
   let w1 : Nat := 1001000000
   let ch : Nat := 4
   let rate : Nat := 0
   let rep : Nat := 0
   let s : State := pipL [] (pipRec 1 1 15 7 12)
   (s.pipIndex f.addr.toNat = some node) ∧ (node < 16384) ∧ (s.nodePresent node = true) ∧ (s.pipHeld < 64) ∧ (f.sat = false) ∧ (let l := s.nodeLink node
   let e := s.until (pipEndNs f)
   let key := s.nodeNat node 8 2 % 8192
   let up := s.nodeNat node 0x1C 4
   (s.pipListens f 5 sd w0 w1 ch rate rep) ∧ (bit l 0 = true) ∧ (pipSec f = true) ∧ (s.micOk f key = true) ∧ (e.seen f.addr.toNat f.ctr.toNat = false) ∧ (up < f.ctr.toNat) ∧ (s.air.pip.seen.length < 4096))) := by
  refine ⟨?_, ?_, ?_, ?_, ?_, ?_, ?_⟩ <;> decide +kernel

theorem wit_PipFrames_3 :
  (let f : PipFrame := pmic (pfr 0x86 16 [255]) 0xe8e5b3d
   let node : Nat := 77
   let sd : Nat := 5
   let w0 : Nat := 1000000000
   let w1 : Nat := 1001000000
   let ch : Nat := 4
   let rate : Nat := 0
   let rep : Nat := 0
   let s : State := pipL [] (pipRec 1 1 15 7 12)
   (s.pipIndex f.addr.toNat = some node) ∧ (node < 16384) ∧ (s.nodePresent node = true) ∧ (s.pipHeld < 64) ∧ (f.sat = false) ∧ (let key := s.nodeNat node 8 2 % 8192
   let up := s.nodeNat node 0x1C 4
   (s.pipListens f 6 sd w0 w1 ch rate rep) ∧ (pipSec f = true) ∧ (s.micOk f key = true) ∧ (up < f.ctr.toNat))) ∧
  (let f : PipFrame := pfr 0x86 16 [255]
   let sd : Nat := 5
   let w0 : Nat := 1000000000
   let w1 : Nat := 1001000000
   let ch : Nat := 4
   let rate : Nat := 0
   let rep : Nat := 0
   let s : State := { pipL [] [] with ept := {} }
   (s.pipHeld < 64) ∧ (f.sat = false) ∧ (s.pipListens f 6 sd w0 w1 ch rate rep) ∧ (s.pipIndex f.addr.toNat = none)) ∧
  (let f : PipFrame := pfr 0x85 16 [255]
   let sd : Nat := 5
   let w0 : Nat := 1000000000
   let w1 : Nat := 1001000000
   let ch : Nat := 4
   let rate : Nat := 0
   let rep : Nat := 0
   let s : State := (pipL [] []).setPip { seen := [(0xA1B2C3D4, 16, 999000000)] }
   (s.pipHeld < 64) ∧ (f.sat = false) ∧ (let e := s.until (pipEndNs f)
   (s.pipListens f 5 sd w0 w1 ch rate rep) ∧ (e.seen f.addr.toNat f.ctr.toNat = true))) ∧
  (let t : Nat := 1000500000
   let sd : Nat := 5
   let w0 : Nat := 1000000000
   let w1 : Nat := 1001000000
   let ch : Nat := 4
   let rate : Nat := 0
   let rep : Nat := 0
   let s : State := pipL [] (pipRec 1 0 10 7 12)
   (s.quiet = true) ∧ (s.radioHears 3 = true) ∧ (s.air.pip.ex = .none) ∧ ((s.seq 3).wait = some (.listen sd w0 w1 ch rate rep)) ∧ (0 < sd) ∧ (sd < 32) ∧ (w0 ≤ t) ∧ (t < w1)) ∧
  (let t : Nat := 1001000000
   let sd : Nat := 5
   let w0 : Nat := 1000000000
   let w1 : Nat := 1001000000
   let ch : Nat := 4
   let rate : Nat := 0
   let rep : Nat := 0
   let s : State := pipL [] (pipRec 1 0 10 7 12)
   (s.quiet = true) ∧ (s.radioHears 3 = true) ∧ (s.air.pip.ex = .none) ∧ ((s.seq 3).wait = some (.listen sd w0 w1 ch rate rep)) ∧ (0 < sd) ∧ (sd < 32) ∧ (w0 ≤ t) ∧ (w1 ≤ t)) ∧
  (let t : Nat := 1001000000
   let s : State := live
   (s.quiet = true) ∧ (s.radioHears 3 = false ∨ s.pipWindow t = none)) ∧
  (let f : PipFrame := pfr 0x81 20 [1, 2, 3]
   let s : State := live
   (s.quiet = true) ∧ (s.radioHears 3 = false ∨ s.pipWindow f.stamp.toNat = none)) := by
  refine ⟨?_, ?_, ?_, ?_, ?_, ?_, ?_⟩ <;> decide +kernel

theorem wit_PipFrames_4 :
  (let f : PipFrame := pfr 0x81 20 [1, 2, 3]
   let sd : Nat := 5
   let w0 : Nat := 1000000000
   let w1 : Nat := 1001000000
   let ch : Nat := 4
   let rate : Nat := 1
   let rep : Nat := 0
   let s : State := (pip [] (pipRec 1 0 10 7 12)).setSeq 3 { wait := some (.listen 5 1000000000 1001000000 4 1 0) }
   (s.quiet = true) ∧ (s.radioHears 3 = true) ∧ (pipType f = 1) ∧ (s.air.pip.ex = .none) ∧ ((s.seq 3).wait = some (.listen sd w0 w1 ch rate rep)) ∧ (w0 ≤ f.stamp.toNat) ∧ (f.stamp.toNat < w1) ∧ (f.sat = false) ∧ (0 < sd) ∧ (sd < 16) ∧ (s.pipDetects f rate rep = false)) ∧
  (let f : PipFrame := { pfr 0x81 20 [1, 2, 3] with crc := 0 }
   let sd : Nat := 5
   let w0 : Nat := 1000000000
   let w1 : Nat := 1001000000
   let ch : Nat := 4
   let rate : Nat := 0
   let rep : Nat := 0
   let s : State := pipL [] (pipRec 1 0 10 7 12)
   (s.quiet = true) ∧ (s.radioHears 3 = true) ∧ (pipType f = 1) ∧ (s.air.pip.ex = .none) ∧ ((s.seq 3).wait = some (.listen sd w0 w1 ch rate rep)) ∧ (w0 ≤ f.stamp.toNat) ∧ (f.stamp.toNat < w1) ∧ (f.sat = false) ∧ (0 < sd) ∧ (sd < 16) ∧ (s.pipDetects f rate rep = true) ∧ (pipFrameOk f = false)) ∧
  (let f : PipFrame := pfr 0x81 20 [1, 2, 3]
   let sd : Nat := 5
   let w0 : Nat := 1000000000
   let w1 : Nat := 1001000000
   let ch : Nat := 4
   let rate : Nat := 0
   let rep : Nat := 0
   let s : State := pipL [] (pipRec 1 0 10 7 12)
   (s.quiet = true) ∧ (s.radioHears 3 = true) ∧ (pipType f = 1) ∧ (s.air.pip.ex = .none) ∧ ((s.seq 3).wait = some (.listen sd w0 w1 ch rate rep)) ∧ (w0 ≤ f.stamp.toNat) ∧ (f.stamp.toNat < w1) ∧ (f.sat = false) ∧ (0 < sd) ∧ (sd < 16) ∧ (s.pipDetects f rate rep = true) ∧ (pipFrameOk f = true) ∧ (s.countsOnly 264 = true)) := by
  refine ⟨?_, ?_, ?_⟩ <;> decide +kernel

theorem wit_PipNodes :
  (let s : State := pip [] []
   (s.domOn 5 = true)) ∧
  (let s : State := at' [(F.PWR_DOM_ON, 3)]
   (s.quiet = true) ∧ (s.domOn 5 = false)) ∧
  (let s : State := live
   (s.quiet = true) ∧ (s.owesAnswer = false)) ∧
  (let s : State := live
   (s.quiet = true) ∧ (s.awaitsAnswer = false)) ∧
  (let who : Fin 4 := 0
   let s : State := pip [] []
   (s.takes who.val 5 = true)) ∧
  (let node : Nat := 77
   let t : Nat := 1000700000
   let slot : Nat := 2
   let choose : Bool := false
   let s : State := (pip [(F.PIP_CTL_TXOFF, 1)] (pipRec 1 0x0D 10 7 12)).setEx (.answer 77 1000700000 false 2)
   (s.quiet = true) ∧ (s.air.pip.ex = .answer node t choose slot) ∧ (slot = 2) ∧ (let may := s.radioOk 3 = true ∧ s.on F.PIP_CTL_TXOFF = false ∧ s.air.pip.txBad = false
   let again := bit (s.nodeLink node) 3 = false ∨ bits (s.nodeLink node) 7 4 < max 1 (s.get F.PIP_RETRY_LIMIT)
   (¬ may) ∧ (again))) ∧
  (let node : Nat := 77
   let t : Nat := 1000700000
   let slot : Nat := 2
   let choose : Bool := false
   let s : State := (pip [] (pipRec 1 0x0D 10 7 12)).setEx (.answer 77 1000700000 false 2)
   (s.quiet = true) ∧ (s.air.pip.ex = .answer node t choose slot) ∧ (slot = 2) ∧ (let may := s.radioOk 3 = true ∧ s.on F.PIP_CTL_TXOFF = false ∧ s.air.pip.txBad = false
   let again := bit (s.nodeLink node) 3 = false ∨ bits (s.nodeLink node) 7 4 < max 1 (s.get F.PIP_RETRY_LIMIT)
   let key := s.nodeNat node 8 2 % 8192
   let ctr := s.nodeNat node 0x20 4
   (may) ∧ (s.slotRefusal 6 key usePip = none) ∧ (node < 16384) ∧ (s.nodeTableOk = true) ∧ (s.nodeKind node ≠ 2) ∧ (ctr ≠ 0xFFFFFFFF) ∧ (choose = false) ∧ (again))) := by
  refine ⟨?_, ?_, ?_, ?_, ?_, ?_, ?_⟩ <;> decide +kernel

theorem wit_PipNodes_2 :
  (let node : Nat := 77
   let t : Nat := 1000700000
   let slot : Nat := 2
   let choose : Bool := true
   let s : State := (pip [] (pipRec 0x83 0x2D 10 7 12)).setPip { ex := .answer 77 1000700000 true 2, pending := [(77, { kind := 5, target := 77, pkt := { bytes := [1, 8, 9] } })] }
   (s.quiet = true) ∧ (s.air.pip.ex = .answer node t choose slot) ∧ (slot = 2) ∧ (let may := s.radioOk 3 = true ∧ s.on F.PIP_CTL_TXOFF = false ∧ s.air.pip.txBad = false
   let key := s.nodeNat node 8 2 % 8192
   let ctr := s.nodeNat node 0x20 4
   (may) ∧ (s.slotRefusal 6 key usePip = none) ∧ (node < 16384) ∧ (s.nodeTableOk = true) ∧ (s.nodeKind node ≠ 2) ∧ (ctr ≠ 0xFFFFFFFF) ∧ (let it : EgItem := { kind := 5, target := 77, pkt := { bytes := [1, 8, 9] } }
   (choose = true) ∧ (s.nodePending node = some it) ∧ ((pipBody it).1 = 1) ∧ ((pipBody it).2 ≠ [])))) ∧
  (let node : Nat := 77
   let slot : Nat := 2
   let lo : Nat := 1000600000
   let hi : Nat := 1000700000
   let s : State := (pip [] (pipRec 1 0x0D 10 7 12)).setEx (.await 77 2 1000600000 1000700000)
   (s.running 5 = true) ∧ (s.air.pip.ex = .await node slot lo hi) ∧ (slot = 2) ∧ (let l := s.nodeLink node
   (bit l 3 = false ∨ bits l 7 4 < max 1 (s.get F.PIP_RETRY_LIMIT)))) ∧
  (let node : Nat := 77
   let slot : Nat := 2
   let lo : Nat := 1000600000
   let hi : Nat := 1000700000
   let it : EgItem := { kind := 5, target := 77, pkt := { bytes := [1, 8, 9] } }
   let s : State := (pip [] (pipRec 1 0x8D 10 7 12)).setPip { ex := .await 77 2 1000600000 1000700000, pending := [(77, { kind := 5, target := 77, pkt := { bytes := [1, 8, 9] } })] }
   (s.running 5 = true) ∧ (s.air.pip.ex = .await node slot lo hi) ∧ (slot = 2) ∧ (let l := s.nodeLink node
   (bit l 3 = true) ∧ (max 1 (s.get F.PIP_RETRY_LIMIT) ≤ bits l 7 4) ∧ (node < 16384) ∧ (s.nodeTableOk = true) ∧ (s.air.pip.pending = [(node, it)]) ∧ (s.husk 3 0 = none) ∧ (s.husk 3 1 = none) ∧ (s.hts.egress = []))) ∧
  (let node : Fin 16384 := 77
   let s : State := pip [] (pipRec 3 1 10 7 12)
   (s.running 5 = true) ∧ (let n := node.val
   let on := s.nodePresent n = true ∧ s.nodeKind n = 0 ∧ s.nodeLive n = true
   (¬ on))) ∧
  (let node : Fin 16384 := 77
   let s : State := pip [] (pipRec 1 1 10 7 12)
   (s.running 5 = true) ∧ (let n := node.val
   let on := s.nodePresent n = true ∧ s.nodeKind n = 0 ∧ s.nodeLive n = true
   (on))) ∧
  (let node : Fin 16384 := 77
   let s : State := pip [] (pipRec 1 0xF7 10 7 12)
   (s.running 5 = true) ∧ (let n := node.val
   let on := s.nodePresent n = true ∧ s.nodeKind n = 0 ∧ s.nodeLive n = true
   (on) ∧ (s.air.pip.ex = .none) ∧ (s.air.pip.pending = []) ∧ (s.husk 3 0 = none) ∧ (s.husk 3 1 = none) ∧ (s.hts.egress = []))) ∧
  (let s : State := pip [] []
   (s.quiet = true) ∧ (s.domOn 5 = false ∨ s.on F.PIP_BCN_CFG_EN = false)) := by
  refine ⟨?_, ?_, ?_, ?_, ?_, ?_, ?_⟩ <;> decide +kernel

theorem wit_PipNodes_3 :
  (let s : State := (pip [(F.PIP_BCN_CFG_EN, 1), (F.PIP_CHMAP_AT_GO, 1), (F.PIP_CHMAP_AT_AT, 1), (F.PIP_CHMAP_NEXT_MAP, 0xFF)] []).setPip { armed := some { slot := some 3, pn := 65537 } }
   (s.quiet = true) ∧ (let p := s.air.pip
   (s.domOn 5 = true) ∧ (s.on F.PIP_BCN_CFG_EN = true) ∧ (p.bwin = none) ∧ (let a : Arm := { slot := some 3, pn := 65537 }
   (p.armed = some a) ∧ (s.husk 3 0 = none) ∧ (s.husk 3 1 = none)))) ∧
  (let s : State := pip [(F.PIP_BCN_CFG_EN, 1), (F.PIP_BCN_STAT_RUN, 1)] []
   (s.quiet = true) ∧ (let p := s.air.pip
   let run := s.get F.PIP_BCN_STAT_RUN
   let few := run < 2 ∨ s.on F.PIP_BCN_STAT_STARVED = true
   (s.domOn 5 = true) ∧ (s.on F.PIP_BCN_CFG_EN = true) ∧ (p.bwin = none) ∧ (p.armed = none) ∧ (few))) ∧
  (let s : State := pip [(F.PIP_TX_CFG_LBT, 1), (F.PIP_TX_CFG_CCA_THR, 0x80)] []
   (s.quiet = true) ∧ (let p := s.air.pip
   let may := s.radioOk 3 = true ∧ s.on F.PIP_CTL_TXOFF = false ∧ p.txBad = false ∧ s.beaconHeld 3 = false ∧ p.ex = .none ∧ (s.on F.PIP_TX_CFG_LBT = false ∨ signed 8 (Config.pipRssi s.now % 256) < signed 8 (s.get F.PIP_TX_CFG_CCA_THR))
   (p.bwin = none ∨ p.armed = none ∨ ¬ may))) ∧
  (let s : State := (pip [(F.PIP_TX_CFG_LBT, 0)] []).setPip { armed := some { slot := some 3 }, bwin := some 1000000000, beacon := [1, 2, 3] }
   (s.quiet = true) ∧ (let p := s.air.pip
   let may := s.radioOk 3 = true ∧ s.on F.PIP_CTL_TXOFF = false ∧ p.txBad = false ∧ s.beaconHeld 3 = false ∧ p.ex = .none ∧ (s.on F.PIP_TX_CFG_LBT = false ∨ signed 8 (Config.pipRssi s.now % 256) < signed 8 (s.get F.PIP_TX_CFG_CCA_THR))
   let a : Arm := { slot := some 3 }
   let x : Nat := 1000000000
   (p.bwin = some x) ∧ (p.armed = some a) ∧ (may) ∧ (x ≤ s.now))) ∧
  (let s : State := (pip [(F.PIP_TX_CFG_LBT, 0), (F.PIP_BCN_STAT_RUN, 3), (F.PIP_BCN_STAT_STARVED, 1)] []).setPip { armed := some { slot := some 3 }, bwin := some 1002000000, beacon := [1, 2, 3] }
   (s.quiet = true) ∧ (let p := s.air.pip
   let may := s.radioOk 3 = true ∧ s.on F.PIP_CTL_TXOFF = false ∧ p.txBad = false ∧ s.beaconHeld 3 = false ∧ p.ex = .none ∧ (s.on F.PIP_TX_CFG_LBT = false ∨ signed 8 (Config.pipRssi s.now % 256) < signed 8 (s.get F.PIP_TX_CFG_CCA_THR))
   let a : Arm := { slot := some 3 }
   let x : Nat := 1002000000
   (p.bwin = some x) ∧ (p.armed = some a) ∧ (may) ∧ (s.now < x) ∧ (a.slot.any (fun k => s.keyGen k == a.gen) = true))) ∧
  (let s : State := (pip [(F.PIP_TX_CFG_LBT, 0), (F.PIP_BCN_STAT_RUN, 255), (F.PIP_BCN_STAT_STARVED, 1)] []).setPip { armed := some { slot := some 3, gen := 5 }, bwin := some 1002000000, beacon := [1, 2, 3] }
   (s.quiet = true) ∧ (let p := s.air.pip
   let run := s.get F.PIP_BCN_STAT_RUN
   let few := run < 2 ∨ s.on F.PIP_BCN_STAT_STARVED = true
   let may := s.radioOk 3 = true ∧ s.on F.PIP_CTL_TXOFF = false ∧ p.txBad = false ∧ s.beaconHeld 3 = false ∧ p.ex = .none ∧ (s.on F.PIP_TX_CFG_LBT = false ∨ signed 8 (Config.pipRssi s.now % 256) < signed 8 (s.get F.PIP_TX_CFG_CCA_THR))
   let a : Arm := { slot := some 3, gen := 5 }
   let x : Nat := 1002000000
   (p.bwin = some x) ∧ (p.armed = some a) ∧ (may) ∧ (s.now < x) ∧ (a.slot.any (fun k => s.keyGen k == a.gen) = false) ∧ (few))) ∧
  (let s : State := pip [] []
   (s.quiet = true) ∧ (let p := s.air.pip
   (p.bwin = none))) := by
  refine ⟨?_, ?_, ?_, ?_, ?_, ?_, ?_⟩ <;> decide +kernel

theorem wit_PipNodes_4 :
  (let s : State := (pip [(F.PIP_BCN_STAT_RUN, 1)] []).setPip { armed := some { slot := some 3, gen := 5 }, bwin := some 1002000000, beacon := [1, 2, 3] }
   (s.quiet = true) ∧ (let p := s.air.pip
   let run := s.get F.PIP_BCN_STAT_RUN
   let few := run < 2 ∨ s.on F.PIP_BCN_STAT_STARVED = true
   let x : Nat := 1002000000
   (p.bwin = some x) ∧ (few))) ∧
  (let s : State := (pip [(F.PIP_BCN_STAT_RUN, 2)] []).setPip { armed := some { slot := some 3, gen := 5 }, bwin := some 1002000000, beacon := [1, 2, 3] }
   (s.quiet = true) ∧ (let p := s.air.pip
   let run := s.get F.PIP_BCN_STAT_RUN
   let few := run < 2 ∨ s.on F.PIP_BCN_STAT_STARVED = true
   let x : Nat := 1002000000
   (p.bwin = some x) ∧ (¬ few) ∧ (s.countsOnly 57 = true))) ∧
  (let s : State := pip [] []
   (s.quiet = true) ∧ (let p := s.air.pip
   (s.domOn 5 = true) ∧ (p.seen = []))) ∧
  (let s : State := (pip [] []).setPip { seen := [(1, 2, 3000000), (1, 3, 4000000)] }
   (s.quiet = true) ∧ (let p := s.air.pip
   let t := s.pipNextTbtt
   (s.domOn 5 = true) ∧ (let a : Nat := 1
   let c : Nat := 2
   let t : Nat := 3000000
   let l : List (Nat × Nat × Nat) := [(1, 3, 4000000)]
   (p.seen = (a, c, t) :: l)))) ∧
  (let who : Fin 4 := 0
   let v : Word := 78
   let s : State := pip [(F.PIP_NODE_STAGE_WORD 0, 1), (F.PIP_NODE_STAGE_WORD 1, 0xA1B2C3D4)] (pipRec 1 1 10 7 12)
   (s.takes who.val 5 = true) ∧ (let n := fldOf v F.PIP_NODE_UPD_NODE
   let t := fun (conn merge : Nat) => ((s.put F.PIP_NODE_UPD_NODE n).put F.PIP_NODE_UPD_CONN conn).put F.PIP_NODE_UPD_MERGE merge
   ((t 0 0).nodeRefused n = true))) ∧
  (let who : Fin 4 := 0
   let v : Word := 78
   let s : State := pip [(F.PIP_NODE_STAGE_WORD 0, 1), (F.PIP_NODE_STAGE_WORD 1, 0xA1B2C3D4)] (pipRec 1 1 10 7 12)
   (s.takes who.val 5 = true) ∧ (let n := fldOf v F.PIP_NODE_UPD_NODE
   let t := fun (conn merge : Nat) => ((s.put F.PIP_NODE_UPD_NODE n).put F.PIP_NODE_UPD_CONN conn).put F.PIP_NODE_UPD_MERGE merge
   ((t 1 0).nodeRefused n = true) ∧ (fldOf v F.PIP_NODE_UPD_MERGE = 0))) ∧
  (let who : Fin 4 := 0
   let v : Word := 78 + 0x20000
   let s : State := pip [(F.PIP_NODE_STAGE_WORD 0, 1), (F.PIP_NODE_STAGE_WORD 1, 0xA1B2C3D4)] (pipRec 1 1 10 7 12)
   (s.takes who.val 5 = true) ∧ (let n := fldOf v F.PIP_NODE_UPD_NODE
   let t := fun (conn merge : Nat) => ((s.put F.PIP_NODE_UPD_NODE n).put F.PIP_NODE_UPD_CONN conn).put F.PIP_NODE_UPD_MERGE merge
   let both := fldOf v F.PIP_NODE_UPD_CONN
   ((t both 1).nodeRefused n = true))) := by
  refine ⟨?_, ?_, ?_, ?_, ?_, ?_, ?_⟩ <;> decide +kernel

theorem wit_PipNodes_5 :
  (let who : Fin 4 := 0
   let v : Word := 78
   let s : State := pip [(F.PIP_NODE_STAGE_WORD 0, 4), (F.PIP_NODE_STAGE_WORD 1, 0xA1B2C3D4), (F.PIP_NODE_STAGE_WORD 4, 6), (F.PIP_NODE_STAGE_WORD 6, 0x55000A), (F.PIP_NODE_STAGE_WORD 7, 9), (F.PIP_NODE_STAGE_WORD 8, 9)] (pipRec 1 1 10 7 12)
   (s.takes who.val 5 = true) ∧ (let n := fldOf v F.PIP_NODE_UPD_NODE
   let t := fun (conn merge : Nat) => ((s.put F.PIP_NODE_UPD_NODE n).put F.PIP_NODE_UPD_CONN conn).put F.PIP_NODE_UPD_MERGE merge
   let keeps := bit (s.nodeStage 0) 0 = true ∨ s.nodePresent n = false
   ((t 0 0).nodeRefused n = false) ∧ (keeps))) ∧
  (let who : Fin 4 := 0
   let v : Word := 78
   let s : State := pip [(F.PIP_NODE_STAGE_WORD 0, 4), (F.PIP_NODE_STAGE_WORD 1, 0xA1B2C3D4), (F.PIP_NODE_STAGE_WORD 4, 6), (F.PIP_NODE_STAGE_WORD 6, 0x55000A), (F.PIP_NODE_STAGE_WORD 7, 9), (F.PIP_NODE_STAGE_WORD 8, 9)] (pipRec 1 1 10 7 12)
   (s.takes who.val 5 = true) ∧ (let n := fldOf v F.PIP_NODE_UPD_NODE
   let t := fun (conn merge : Nat) => ((s.put F.PIP_NODE_UPD_NODE n).put F.PIP_NODE_UPD_CONN conn).put F.PIP_NODE_UPD_MERGE merge
   let keeps := bit (s.nodeStage 0) 0 = true ∨ s.nodePresent n = false
   ((t 1 0).nodeRefused n = false) ∧ (fldOf v F.PIP_NODE_UPD_MERGE = 0) ∧ (keeps) ∧ (s.air.pip.pending = []))) ∧
  (let who : Fin 4 := 0
   let v : Word := 78
   let s : State := pip [(F.PIP_NODE_STAGE_WORD 0, 4), (F.PIP_NODE_STAGE_WORD 1, 0xA1B2C3D4), (F.PIP_NODE_STAGE_WORD 4, 6), (F.PIP_NODE_STAGE_WORD 6, 0x55000A), (F.PIP_NODE_STAGE_WORD 7, 9), (F.PIP_NODE_STAGE_WORD 8, 9)] (pipRec 1 1 10 7 12)
   (s.takes who.val 5 = true) ∧ (let n := fldOf v F.PIP_NODE_UPD_NODE
   let t := fun (conn merge : Nat) => ((s.put F.PIP_NODE_UPD_NODE n).put F.PIP_NODE_UPD_CONN conn).put F.PIP_NODE_UPD_MERGE merge
   let both := fldOf v F.PIP_NODE_UPD_CONN
   let keeps := bit (s.nodeStage 0) 0 = true ∨ s.nodePresent n = false
   ((t both 1).nodeRefused n = false) ∧ (keeps))) ∧
  (let who : Fin 4 := 0
   let v : Word := 1 + 4 * 2 ^ 20 + 902000
   let s : State := pip [(F.PIP_CTL_BAND, 1)] []
   (s.takes who.val 5 = true) ∧ (let f0 := fldOf v F.PIP_CHPLAN_F0
   let sp := fldOf v F.PIP_CHPLAN_SP
   let top := f0 + 1575 * max 1 sp
   let inside := if s.get F.PIP_CTL_BAND = 0 then 863000 ≤ f0 ∧ top ≤ 870000 else 902000 ≤ f0 ∧ top ≤ 928000
   (inside))) ∧
  (let who : Fin 4 := 0
   let v : Word := 1 + 4 * 2 ^ 20 + 902000
   let s : State := pip [] []
   (s.takes who.val 5 = true) ∧ (let f0 := fldOf v F.PIP_CHPLAN_F0
   let sp := fldOf v F.PIP_CHPLAN_SP
   let top := f0 + 1575 * max 1 sp
   let inside := if s.get F.PIP_CTL_BAND = 0 then 863000 ≤ f0 ∧ top ≤ 870000 else 902000 ≤ f0 ∧ top ≤ 928000
   (¬ inside) ∧ (s.countsOnly 257 = true))) ∧
  (let who : Fin 4 := 0
   let v : Word := 1
   let s : State := { pip [] [] with stage := [(0x400010, 7)] }
   (s.takes who.val 5 = true) ∧ (let map := (tabGet (fun _ => 0) s.stage (0x100000000 * who.val + 0x400010)).toNat + 2 ^ 32 * v.toNat
   (map ≠ 0))) ∧
  (let who : Fin 4 := 0
   let v : Word := 0
   let s : State := { pip [] [] with stage := [(0x400014, 7)] }
   (s.takes who.val 5 = true) ∧ (let map := (tabGet (fun _ => 0) s.stage (0x100000000 * who.val + 0x400010)).toNat + 2 ^ 32 * v.toNat
   (map = 0) ∧ (s.countsOnly 257 = true))) := by
  refine ⟨?_, ?_, ?_, ?_, ?_, ?_, ?_⟩ <;> decide +kernel

theorem wit_PipNodes_6 :
  (let who : Fin 4 := 0
   let s : State := pip [(F.PIP_CHMAP_AT_GO, 1)] []
   (s.takes who.val 5 = true)) ∧
  (let who : Fin 4 := 0
   let s : State := pip [] []
   (s.takes who.val 5 = true) ∧ (s.on F.PIP_CTL_EN = true)) ∧
  (let who : Fin 4 := 0
   let s : State := live
   (s.takes who.val 5 = true) ∧ (s.on F.PIP_CTL_EN = false)) ∧
  (let who : Fin 4 := 0
   let s : State := live
   (s.takes who.val 5 = true) ∧ (s.on F.PIP_CTL_EN = false) ∧ (s.countsOnly 260 = true)) ∧
  (let who : Fin 4 := 0
   let s : State := pip [] []
   (s.takes who.val 5 = true) ∧ (s.on F.PIP_CTL_EN = true) ∧ (s.husk 3 0 = none) ∧ (s.husk 3 1 = none)) := by
  refine ⟨?_, ?_, ?_, ?_, ?_⟩ <;> decide +kernel

theorem wit_WrongSequencer :
  (let i : Issue := iS 3
   let sd : BitVec 5 := 1
   let sa : BitVec 5 := 2
   let sb : BitVec 5 := 3
   let s : State := State.sqr live 3 []
   (i.who = .seq 3) ∧ (Issues s i .s [sd, sa, sb])) ∧
  (let q : Fin 4 := 1
   let i : Issue := iS 1
   let sd : BitVec 5 := 1
   let sa : BitVec 5 := 2
   let s : State := State.sqr live 1 []
   (q ≠ 3) ∧ (i.who = .seq q) ∧ (Issues s i .s [sd, sa])) ∧
  (let q : Fin 4 := 2
   let i : Issue := iS 2
   let sd : BitVec 5 := 1
   let sa : BitVec 5 := 2
   let sb : BitVec 5 := 3
   let s : State := State.sqr live 2 []
   (q ≠ 3) ∧ (i.who = .seq q) ∧ (Issues s i .s [sd, sa, sb])) ∧
  (let q : Fin 4 := 2
   let s : State := State.sqr live 2 []
   (s.quiet = true) ∧ (q.val < s.seqs.length) ∧ (s.husk q.val 0 = none) ∧ (s.husk q.val 1 = none) ∧ ((s.sqa q.val).window = []) ∧ (s.countsOnly (32 + 8 * q.val) = true)) := by
  delta Issues; refine ⟨?_, ?_, ?_, ?_⟩ <;> decide +kernel

theorem wit_StepRunsFront :
  (let c : Instr := .wakePin
   let rest : List Instr := [.wakePin]
   let s : State := { live with pending := [.wakePin, .wakePin] }
   (s.pending = c :: rest)) ∧
  (let s : State := live
   (s.pending = []) ∧ (s.quiet = true)) := by
  refine ⟨?_, ?_⟩ <;> decide +kernel

theorem wit_ResetState :
  (let n : Nat := 639
   (n < 640)) := by
  decide +kernel

theorem wit_FaultPin :
  (let s : State := live
   let t : State := (State.tick live).settle
   (step s = .next t)) := by
  rfl

end Sys2Proof.Tests
end

section
/-! The laws of the control window (R4 - R9, R456, R541 - R543): what a plain write and a reading clear do to a register's
fields, what a requester's access comes to in each case, and how an access that is lost ends. -/

namespace Sys2Proof.Machine

/-! ### Folding fields into a value -/

theorem bits_mod_two_pow (v n hi lo : Nat) (h : hi < n) : bits (v % 2 ^ n) hi lo = bits v hi lo := by
  refine Nat.eq_of_testBit_eq fun i => ?_
  rw [testBit_bits, testBit_bits, Nat.testBit_mod_two_pow]
  by_cases hi' : i < hi + 1 - lo
  · simp [show lo + i < n by omega]
  · simp [hi']

theorem foldFields_cons (f : FieldDesc) (l : List FieldDesc) (p : FieldDesc → Bool) (v : FieldDesc → Nat) (w : Nat) :
    foldFields (f :: l) p v w = foldFields l p v (if p f then setBits w f.hi f.lo (v f) else w) := rfl

/-- Bits that lie apart from every field of the list stay as they were. -/
theorem bits_foldFields_apart (l : List FieldDesc) (p : FieldDesc → Bool) (v : FieldDesc → Nat) (w hi lo : Nat)
    (hl : ∀ g ∈ l, g.lo ≤ g.hi ∧ (hi < g.lo ∨ g.hi < lo)) : bits (foldFields l p v w) hi lo = bits w hi lo := by
  induction l generalizing w with
  | nil => rfl
  | cons g l ih =>
    obtain ⟨hg, hd⟩ := hl g (by simp)
    rw [foldFields_cons, ih _ fun g m => hl g (by simp [m])]
    split
    · exact bits_setBits_ne _ _ _ _ _ _ hg hd
    · rfl

/-- A field of the list holds its new value if it was to be set, else what it held. -/
theorem bits_foldFields {l : List FieldDesc} (hp : l.Pairwise (fun f g => f.hi < g.lo ∨ g.hi < f.lo))
    (hl : ∀ f ∈ l, f.lo ≤ f.hi) (p : FieldDesc → Bool) (v : FieldDesc → Nat) (w : Nat) {f : FieldDesc} (hf : f ∈ l) :
    bits (foldFields l p v w) f.hi f.lo = if p f then v f % 2 ^ (f.hi + 1 - f.lo) else bits w f.hi f.lo := by
  induction l generalizing w with
  | nil => simp at hf
  | cons g l ih =>
    obtain ⟨hg, hp⟩ := List.pairwise_cons.1 hp
    rw [foldFields_cons]
    rcases List.mem_cons.1 hf with rfl | hf
    · rw [bits_foldFields_apart _ _ _ _ _ _ fun g m => ⟨hl g (by simp [m]), hg g m⟩]
      split
      · exact bits_setBits_self _ _ _ _ (hl f (by simp))
      · rfl
    · rw [ih hp (fun f m => hl f (by simp [m])) _ hf]
      congr 1
      split
      · exact bits_setBits_ne _ _ _ _ _ _ (hl g (by simp)) (Or.symm (hg f hf))
      · rfl

/-- What a plain write leaves in a field fits the field. -/
theorem written_lt (lock : Bool) (v old : Nat) (f : FieldDesc) : written lock v old f < 2 ^ (f.hi + 1 - f.lo) := by
  have ho := bits_lt old f.hi f.lo
  have hn := bits_lt v f.hi f.lo
  unfold written
  cases f.acc with
  | rw | wo => exact hn
  | rwl => simp only; split <;> assumption
  | w1c => exact Nat.xor_lt_two_pow ho (Nat.and_lt_two_pow _ hn)
  | w1s => exact Nat.or_lt_two_pow ho hn
  | ro | rc | sc => exact ho

/-! ### The registers of the map -/

/-- The fields of a register lie within its words and apart from one another. -/
abbrev RDesc.FieldsApart (d : RDesc) : Prop :=
  d.fields.Pairwise (fun f g => f.hi < g.lo ∨ g.hi < f.lo) ∧ ∀ f ∈ d.fields, f.lo ≤ f.hi ∧ f.hi < 32 * d.words

theorem regBlocks_fieldsApart : ∀ b ∈ regBlocks, ∀ d ∈ b.regs, d.FieldsApart := by decide +kernel

theorem findInBlock_desc_mem {base inst r : Nat} {ds : List RDesc} {l : RLoc} (h : findInBlock base inst r ds = some l) :
    l.desc ∈ ds := by
  induction ds with
  | nil => simp [findInBlock] at h
  | cons d ds ih =>
    unfold findInBlock at h
    split at h
    · cases h; simp
    · exact List.mem_cons_of_mem _ (ih h)

theorem findReg_desc_mem {a : Nat} {bs : List BlockDesc} {l : RLoc} (h : findReg a bs = some l) :
    ∃ b ∈ bs, l.desc ∈ b.regs := by
  induction bs with
  | nil => simp [findReg] at h
  | cons b bs ih =>
    have later : findReg a bs = some l → ∃ b' ∈ b :: bs, l.desc ∈ b'.regs := fun h =>
      let ⟨b', m, hl⟩ := ih h
      ⟨b', by simp [m], hl⟩
    unfold findReg at h
    split at h
    · split at h
      · next hb => cases h; exact ⟨b, by simp, findInBlock_desc_mem hb⟩
      · exact later h
    · exact later h

/-- Every register that an offset of the window finds keeps its fields apart. -/
theorem findReg_fieldsApart {a : Nat} {l : RLoc} (h : findReg a regBlocks = some l) : l.desc.FieldsApart :=
  let ⟨b, hb, hd⟩ := findReg_desc_mem h
  regBlocks_fieldsApart b hb l.desc hd

/-! ### Setting fields of a register's words -/

theorem State.word_setWide_out (s : State) (a n v b : Nat) (h : ∀ i < n, b ≠ a + 4 * i) :
    (s.setWide a n v).word b = s.word b := by
  induction n generalizing s a v with
  | zero => rfl
  | succ n ih =>
    have h0 : b ≠ a := h 0 (by omega)
    rw [State.setWide, ih _ _ _ fun i hi => by have := h (i + 1) (by omega); omega, State.word_setWord_ne h0]

theorem State.wide_one (s : State) (a : Nat) : s.wide a 1 = (s.word a).toNat := by simp [State.wide]

theorem State.wide_congr {s t : State} (h : s.regs = t.regs) (a n : Nat) : s.wide a n = t.wide a n := by
  induction n generalizing a with
  | zero => rfl
  | succ n ih => rw [State.wide, State.wide, ih, State.word, State.word, h]

/-- A field of a register after some fields were set to values that fit them. -/
theorem State.bits_wide_foldFields (s : State) {d : RDesc} (hd : d.FieldsApart) (key : Nat) (p : FieldDesc → Bool)
    (v : FieldDesc → Nat) (w : Nat) {f : FieldDesc} (hf : f ∈ d.fields) (hv : v f < 2 ^ (f.hi + 1 - f.lo)) :
    bits ((s.setWide key d.words (foldFields d.fields p v w)).wide key d.words) f.hi f.lo
      = if p f then v f else bits w f.hi f.lo := by
  obtain ⟨hp, hl⟩ := hd
  rw [State.wide_setWide_self, bits_mod_two_pow _ _ _ _ (hl f hf).2, bits_foldFields hp (fun f m => (hl f m).1) _ _ _ hf,
    Nat.mod_eq_of_lt hv]

/-- A plain write leaves each field as its access code says. -/
theorem State.wrote_storeReg (s : State) {d : RDesc} (hd : d.FieldsApart) (key v : Nat) :
    Wrote (s.on F.SEC_LOCK_LOCK) v (s.wide key d.words) ((s.storeReg key d v).wide key d.words) d := by
  intro f hf
  have e : bits ((s.storeReg key d v).wide key d.words) f.hi f.lo
      = written (s.on F.SEC_LOCK_LOCK) v (s.wide key d.words) f := by
    rw [State.storeReg, State.bits_wide_foldFields s hd key _ _ _ hf (written_lt _ _ _ _), if_pos rfl]
  dsimp only
  rw [e, written]
  cases f.acc <;> simp

/-- A reading clear leaves 0 in the rc fields of a register that is not itself an action, and the other fields alone. -/
theorem State.bits_readClear (s : State) {d : RDesc} (hd : d.FieldsApart) (low key : Nat) (h : low ≠ 0x10)
    (hpop : low ≠ 0x10200 ∧ low ≠ 0x10210 ∧ low ≠ 0x340108) {f : FieldDesc} (hf : f ∈ d.fields) :
    bits ((s.readClear low key d).wide key d.words) f.hi f.lo
      = if f.acc = .rc then 0 else bits (s.wide key d.words) f.hi f.lo := by
  obtain ⟨h0, h1, h2⟩ := hpop
  rw [State.readClear, if_neg h, if_neg (by omega), if_neg h2]
  split
  · rw [State.bits_wide_foldFields s hd key _ _ _ hf (Nat.two_pow_pos _)]
    simp
  · next hany =>
    have : f.acc ≠ .rc := fun hrc => hany (List.any_eq_true.2 ⟨f, hf, by simp [hrc]⟩)
    rw [if_neg this]

theorem State.word_readClear_out (s : State) (low key : Nat) (d : RDesc) (b : Nat) (h : low ≠ 0x10) (hpop : low ≠ 0x340108)
    (hb : ∀ i < d.words, b ≠ key + 4 * i) : (s.readClear low key d).word b = s.word b := by
  rw [State.readClear, if_neg h, if_neg hpop]
  split
  · rfl
  · split
    · exact State.word_setWide_out _ _ _ _ _ hb
    · rfl

@[simp] theorem State.setWide_quiet (s : State) (a n v : Nat) : (s.setWide a n v).quiet = s.quiet :=
  State.quiet_congr (by simp) (by simp)

/-- What a reading clear never touches, whatever the register. -/
structure SameStores (s t : State) : Prop where
  quiet : t.quiet = s.quiet
  capture : t.capture = s.capture
  stage : t.stage = s.stage
  readData : t.readData = s.readData
  gm : t.gm = s.gm

theorem State.readClear_sameStores (s : State) (low key : Nat) (d : RDesc) : SameStores s (s.readClear low key d) := by
  unfold State.readClear State.egtsPop State.detPop
  split
  · constructor <;> simp
  · split
    · exact ⟨rfl, rfl, rfl, rfl, rfl⟩
    · split
      · exact ⟨by rw [State.quiet_put]; rfl, by simp, by simp, by simp, by simp⟩
      · split
        · constructor <;> simp
        · exact ⟨rfl, rfl, rfl, rfl, rfl⟩

theorem State.readClear_time (s : State) (low key : Nat) (d : RDesc) (h : low ≠ 0x10200 ∧ low ≠ 0x10210) :
    (s.readClear low key d).time = s.time := by
  unfold State.readClear State.detPop
  rw [if_neg (show ¬ (low = 0x10200 ∨ low = 0x10210) by omega)]
  split
  · simp
  · split
    · simp
    · split <;> simp

/-! ### What a requester's access comes to -/

theorem State.running_iff (s : State) (d : Nat) : s.running d = true ↔ s.quiet = true ∧ s.domOn d = true := by
  simp [State.running]

theorem State.takes_iff (s : State) (who d : Nat) : s.takes who d = true ↔
    s.quiet = true ∧ s.domOn d = true ∧ s.reaches who = true ∧ s.mode ≠ 0xB := by
  simp [State.takes, State.running, and_assoc]

/-- A requester that the device does not hear changes nothing. -/
theorem State.unheard {s : State} {who : Nat} (h : s.reaches who = false) (a : Nat) (en : BitVec 4) (v : Word) (x : Ext)
    (w cross : Bool) : s.writeWord who a en v x = s ∧ s.readWord who a en = s ∧ s.wildAccess who a w cross = s ∧
      s.trimWindowWrite who = s := by
  simp [State.writeWord, State.readWord, State.wildAccess, State.badAccess, State.trimWindowWrite, h]

section
variable {s : State} {who : Nat} (hr : s.reaches who = true)
include hr

theorem State.writeWord_partial {en : BitVec 4} (h : en ≠ 0xF) (a : Nat) (v : Word) (x : Ext) :
    s.writeWord who a en v x = s.noRegister := by
  rw [State.writeWord, if_neg (by simp [hr]), if_pos h]

theorem State.writeWord_full {a : Nat} (ha : a % 4 = 0) (v : Word) (x : Ext) :
    s.writeWord who a 0xF v x = s.writeAt (hostPath x) who a v x := by
  simp [State.writeWord, hr, show a / 4 * 4 = a by omega]

theorem State.readWord_eq {a : Nat} (ha : a % 4 = 0) (en : BitVec 4) :
    s.readWord who a en = (s.readAt who a).2.gotRead who (enabledBytes en (s.readAt who a).1) := by
  simp only [State.readWord, hr, if_true, show a / 4 * 4 = a by omega]
  rfl

/-- An access that names no register is lost, whether or not it crosses into a second word. -/
theorem State.wildAccess_lost {a : Nat} (w : Bool) {cross : Bool}
    (h : cross = true ∨ (findReg (a / 4 * 4) regBlocks = none ∧ zeroOffset (a / 4 * 4) = false ∧ a < 0x2000000)) :
    s.wildAccess who a w cross
      = { s.noRegister with readData := if w then s.noRegister.readData else tabSet (fun _ => 0) s.noRegister.readData who 0 } := by
  have lost : s.wildAccess who a w cross = s.badAccess who w := by
    rcases h with rfl | ⟨h1, h2, h3⟩
    · simp [State.wildAccess]
    · simp [State.wildAccess, h1, h2, show ¬ 0x2000000 ≤ a by omega]
  rw [lost, State.badAccess, if_pos hr]
  cases w <;> rfl

end

/-- A write of a register of the map goes by its domain and by Fault Hold. -/
theorem State.writeAt_register {a : Nat} {l : RLoc} (h : a < 0x2000000) (hl : findReg a regBlocks = some l) (s : State)
    (acc : Access) (who : Nat) (v : Word) (x : Ext) : s.writeAt acc who a v x
      = s.inWindow (domainOf (a - 4 * l.word)) (holdTakes (a - 4 * l.word)) (fun s => s.writeLoc acc who a l v x) := by
  rw [State.writeAt, if_neg (by omega), hl]

/-- A read of a register of the map goes by its domain. -/
theorem State.readAt_register {a : Nat} {l : RLoc} (h : a < 0x2000000) (hl : findReg a regBlocks = some l) (s : State)
    (who : Nat) : s.readAt who a
      = if s.domOn (domainOf (a - 4 * l.word)) then s.readReg who a l else (0, s.offAccess) := by
  rw [State.readAt, if_neg (by omega), hl]

/-- A write that the register's domain takes reaches the register. -/
theorem State.writeWord_register {a : Nat} {l : RLoc} {s : State} {who : Nat} (ha : a % 4 = 0) (h : a < 0x2000000)
    (hl : findReg a regBlocks = some l) (ht : s.takes who (domainOf (a - 4 * l.word)) = true) (v : Word) (x : Ext) :
    s.writeWord who a 0xF v x = s.writeLoc (hostPath x) who a l v x := by
  obtain ⟨-, hd, hr, hm⟩ := (s.takes_iff _ _).1 ht
  rw [State.writeWord_full hr ha, State.writeAt_register h hl, State.inWindow]
  simp [hd, hm]

/-- A read in a domain that is on reaches the register. -/
theorem State.readWord_register {a : Nat} {l : RLoc} {s : State} {who : Nat} (ha : a % 4 = 0) (h : a < 0x2000000)
    (hl : findReg a regBlocks = some l) (hd : s.domOn (domainOf (a - 4 * l.word)) = true) (hr : s.reaches who = true)
    (en : BitVec 4) :
    s.readWord who a en = (s.readReg who a l).2.gotRead who (enabledBytes en (s.readReg who a l).1) := by
  rw [State.readWord_eq hr ha, State.readAt_register h hl, if_pos hd]

/-- The highest word of a register without an action is written plainly. -/
theorem State.writeLoc_plain {s : State} {who a : Nat} {l : RLoc} {v : Word} {x : Ext} (hw : l.word + 1 = l.desc.words)
    (hp : s.plainAt who (a - 4 * l.word) (s.staged who (a - 4 * l.word) l.word v.toNat) x) :
    s.writeLoc (hostPath x) who a l v x = s.storeReg (keyOf who (a - 4 * l.word) l.desc) l.desc
      (s.staged who (a - 4 * l.word) l.word v.toNat) := by
  rw [State.writeLoc, if_neg (by omega), State.writeReg, hp]
  rfl

/-! ### Reads of a register -/

/-- A register's value as a read returns it: wo fields read 0 (R4). -/
abbrev State.shown (s : State) (who low : Nat) (d : RDesc) : Nat :=
  foldFields d.fields (fun f => f.acc == .wo) (fun _ => 0) (s.view (keyOf who low d) d.words)

/-- The state after the capture that a read of the lowest word of a wide register makes (R8). -/
abbrev State.captured (s : State) (who low v : Nat) : State :=
  { s with capture := tabSet (fun _ => 0) s.capture (0x100000000 * who + low) v }

theorem State.readReg_single (s : State) (who a : Nat) {l : RLoc} (h0 : l.word = 0) (h1 : l.desc.words = 1) :
    s.readReg who a l = (s.shown who a l.desc % 2 ^ 32,
      if s.on (F.TOP_PEEK_EN who) then s else s.readClear a (keyOf who a l.desc) l.desc) := by
  simp [State.readReg, h0, h1, keyOf, State.shown]

theorem State.readReg_lowest (s : State) (who a : Nat) {l : RLoc} (h0 : l.word = 0) (h1 : 1 < l.desc.words) :
    s.readReg who a l = (s.shown who a l.desc % 2 ^ 32,
      if s.on (F.TOP_PEEK_EN who) then s.captured who a (s.shown who a l.desc)
      else (s.captured who a (s.shown who a l.desc)).readClear a (keyOf who a l.desc) l.desc) := by
  have e : (s.captured who a (s.shown who a l.desc)).on (F.TOP_PEEK_EN who) = s.on (F.TOP_PEEK_EN who) :=
    State.on_congr (show (s.captured who a _).regs = s.regs from rfl) _
  simp only [State.readReg, h0, if_true, Nat.mul_zero, Nat.sub_zero, h1]
  rw [← e]
  rfl

theorem State.readReg_upper (s : State) (who a : Nat) {l : RLoc} (h0 : 0 < l.word) :
    s.readReg who a l = (wordAt (tabGet (fun _ => 0) s.capture (0x100000000 * who + (a - 4 * l.word))) l.word, s) := by
  simp only [State.readReg, show l.word ≠ 0 by omega, if_false]

/-- Copying a field's bits from `v`: those of `v` there, the others as before. -/
theorem testBit_setBits_bits (w v hi lo i : Nat) (h : lo ≤ hi) :
    (setBits w hi lo (bits v hi lo)).testBit i = if lo ≤ i ∧ i ≤ hi then v.testBit i else w.testBit i := by
  rw [testBit_setBits _ _ _ _ _ h, testBit_bits]
  split
  · next hi' => rw [show lo + (i - lo) = i by omega]; simp [show i - lo < hi + 1 - lo by omega]
  · rfl

theorem foldl_range_four (g : Nat → Nat → Nat) (r : Nat) : (List.range 4).foldl g r = g (g (g (g r 0) 1) 2) 3 := rfl

theorem enabledBytes_eq (v : Nat) : enabledBytes 0xF v
    = setBits (setBits (setBits (setBits 0 7 0 (bits v 7 0)) 15 8 (bits v 15 8)) 23 16 (bits v 23 16)) 31 24
        (bits v 31 24) := by
  have on : ∀ i < 4, (0xF : BitVec 4).getLsbD i = true := by decide
  rw [enabledBytes, foldl_range_four]
  simp only [on 0 (by omega), on 1 (by omega), on 2 (by omega), on 3 (by omega), if_true]

/-- An access with all byte enables names the whole word. -/
theorem enabledBytes_full {v : Nat} (h : v < 2 ^ 32) : enabledBytes 0xF v = v := by
  refine Nat.eq_of_testBit_eq fun i => ?_
  simp only [enabledBytes_eq, testBit_setBits_bits, Nat.reduceLeDiff, Nat.zero_testBit]
  repeat' split
  any_goals rfl
  -- what is left are the bits above the word
  exact (Nat.testBit_lt_two_pow (Nat.lt_of_lt_of_le h (Nat.pow_le_pow_right (by omega) (by omega)))).symm

theorem enabledBytes_zero (en : BitVec 4) : enabledBytes en 0 = 0 := by
  revert en; decide

/-! ### The end of an access -/

theorem answers_of_quiet {c : Instr} {s v : State} {P : State → Prop} (h : exec c s = done v) (hq : v.quiet = true)
    (hP : P v.close) : Answers c s P :=
  ⟨v.close, by rw [h, done_quiet hq], hP⟩

theorem answers_of_done {c : Instr} {s v : State} {P : State → Prop} (h : exec c s = done v) (hP : P v.settle) :
    Answers c s P := ⟨v.settle, h, hP⟩

@[simp] theorem State.gotRead_quiet (s : State) (who v : Nat) : (s.gotRead who v).quiet = s.quiet := rfl

theorem State.counted_eq (s : State) (n : Nat) : s.counted n = { s with regs := (s.counted n).regs } := by
  unfold State.counted State.bump
  rw [State.put_eq, State.put_eq _ (F.FLT_SRC_STICKY n), State.put_eq s]

theorem State.get_counted_below (s : State) (n : Nat) {f : Fld} (hf : f.addr + 4 * (f.hi / 32 + 1) ≤ 0x1001000) :
    (s.counted n).get f = s.get f := by
  have hne : ∀ (t : State) (hi lo v : Nat), hi < 32 → (t.put ⟨0x1001000 + 4 * n, hi, lo⟩ v).get f = t.get f :=
    fun t hi lo v _ => State.get_put_ne _ _ _ _ (.inr (by simp only; omega))
  unfold State.counted State.bump
  simp only [F.FLT_SRC_FORCED, F.FLT_SRC_STICKY, F.FLT_SRC_COUNT]
  rw [hne _ _ _ _ (by omega), hne _ _ _ _ (by omega), hne _ _ _ _ (by omega)]

theorem State.get_counted_sticky (s : State) (n : Nat) : (s.counted n).get (F.FLT_SRC_STICKY n) = 1 := by
  unfold State.counted State.bump
  rw [State.get_put_disj _ (F.FLT_SRC_COUNT n) (F.FLT_SRC_STICKY n) _ (by simp [F.FLT_SRC_COUNT]) rfl
    (by simp [F.FLT_SRC_COUNT, F.FLT_SRC_STICKY])]
  exact State.get_put_self _ _ _ (Nat.le_refl _)

theorem State.entryLevel_congr {s t : State} (h : ∀ f : Fld, 0x1000010 ≤ f.addr → s.get f = t.get f) (k : Nat) :
    s.entryLevel k = t.entryLevel k := by
  unfold State.entryLevel
  rw [h F.FLT_CLASS_CFG3_ENTRY (by decide), h (F.FLT_CLASS_CFG01_ENTRY k) (by simp [F.FLT_CLASS_CFG01_ENTRY])]

theorem State.countsOnly_congr {s t : State} (h : ∀ f : Fld, 0x1000010 ≤ f.addr → s.get f = t.get f) (n : Nat) :
    s.countsOnly n = t.countsOnly n := by
  rw [State.countsOnly, State.countsOnly, State.entryLevel_congr h]

/-- An access lost to the requester: counter `f` has counted it, source `n`, if it had never been reported, sticks, the
requester's word is as in `r`, and memories, stages, captures and the time stand. -/
structure Lost (s t : State) (f : Fld) (n : Nat) (r : Tab Word) : Prop where
  count : t.get f = (s.bump f 1).get f
  sticky : tabGet (fun _ => 0) s.flt.last n = 0 → t.get (F.FLT_SRC_STICKY n) = 1
  gm : t.gm = s.gm
  stage : t.stage = s.stage
  time : t.time = s.time
  capture : t.capture = s.capture
  readData : t.readData = r

/-- The collector has noted the instant at which source `n` was last reported. -/
abbrev State.noted (s : State) (n : Nat) : State :=
  { s with flt := { s.flt with last := tabSet (fun _ => 0) s.flt.last n (s.now + 1) } }

/-- A source reported at most once a second is reported now, or its last report is less than a second old. -/
theorem State.raiseSec_cases (s : State) (n : Nat) :
    s.raiseSec n = (s.noted n).raise n ∨ (tabGet (fun _ => 0) s.flt.last n ≠ 0 ∧ s.raiseSec n = s) := by
  by_cases h : tabGet (fun _ => 0) s.flt.last n = 0 ∨ tabGet (fun _ => 0) s.flt.last n - 1 + second ≤ s.now
  · exact .inl (if_pos h)
  · exact .inr ⟨fun h0 => h (.inl h0), if_neg h⟩

/-- `t` is `s` with counter `f` advanced and the words that requesters have read as in `r`; the notes of the collector may
differ. -/
structure CountedIn (s t : State) (f : Fld) (r : Tab Word) : Prop where
  regs : t.regs = (s.bump f 1).regs
  quiet : t.quiet = s.quiet
  gm : t.gm = s.gm
  stage : t.stage = s.stage
  time : t.time = s.time
  capture : t.capture = s.capture
  readData : t.readData = r

theorem CountedIn.bump (s : State) (f : Fld) (n : Nat) (r : Tab Word) :
    CountedIn s { s.bump f 1 with readData := r } f r ∧ CountedIn s { (s.bump f 1).noted n with readData := r } f r := by
  have hq := State.quiet_bump s f 1
  exact ⟨⟨rfl, hq, State.bump_gm s f 1, State.bump_stage s f 1, State.bump_time s f 1, State.bump_capture s f 1, rfl⟩,
    ⟨rfl, hq, State.bump_gm s f 1, State.bump_stage s f 1, State.bump_time s f 1, State.bump_capture s f 1, rfl⟩⟩

section
variable {s t : State} {f : Fld} {n : Nat} {r : Tab Word} (hc : CountedIn s t f r) (hq : s.quiet = true)
include hc hq

theorem CountedIn.lost_silent (h0 : tabGet (fun _ => 0) s.flt.last n ≠ 0) : Lost s t.settle f n r := by
  rw [State.settle_quiet (hc.quiet.trans hq)]
  refine ⟨?_, fun h => absurd h h0, ?_, ?_, ?_, ?_, ?_⟩
  · rw [State.close_get, State.get_congr hc.regs]
  all_goals simp [hc.gm, hc.stage, hc.time, hc.capture, hc.readData]

theorem CountedIn.lost_raised (hn : s.countsOnly n = true) (hf : f.addr + 4 * (f.hi / 32 + 1) ≤ 0x1000000) :
    Lost s (t.raise n).settle f n r := by
  have htn : t.countsOnly n = true := by
    rw [← hn]
    refine State.countsOnly_congr (fun g hg => ?_) n
    rw [State.get_congr hc.regs, State.bump, State.get_put_ne _ _ _ _ (.inl (by omega))]
  rw [State.settle_raise htn (hc.quiet.trans hq)]
  refine ⟨?_, fun _ => ?_, ?_, ?_, ?_, ?_, ?_⟩
  · rw [State.close_get, State.get_counted_below _ _ (by omega), State.get_congr hc.regs]
  · rw [State.close_get, State.get_counted_sticky]
  all_goals
    simp only [State.close_gm, State.close_stage, State.close_time, State.close_capture, State.close_readData]
    rw [State.counted_eq]
    simp only [hc.gm, hc.stage, hc.time, hc.capture, hc.readData]

end

/-- An access counted in a register below the fault collector's, its source reported at most once a second, ends so. -/
theorem State.lost_settle {s : State} {f : Fld} {n : Nat} (hq : s.quiet = true) (hn : s.countsOnly n = true)
    (hf : f.addr + 4 * (f.hi / 32 + 1) ≤ 0x1000000) (r : Tab Word) :
    Lost s ({ (s.bump f 1).raiseSec n with readData := r } : State).settle f n r := by
  obtain ⟨hb, ht⟩ := CountedIn.bump s f n r
  rcases State.raiseSec_cases (s.bump f 1) n with e | ⟨h0, e⟩
  · rw [e]
    exact ht.lost_raised hq hn hf
  · rw [e]
    rw [State.bump_flt] at h0
    exact hb.lost_silent hq h0

/-- An access that finds no register ends as one lost to TOP.BADACC and source 638 (R541). -/
theorem State.lost_noRegister {s : State} (hq : s.quiet = true) (hn : s.countsOnly 638 = true) (r : Tab Word) :
    Lost s ({ s.noRegister with readData := r } : State).settle F.TOP_BADACC_COUNT 638 r :=
  State.lost_settle hq hn (by decide) r

/-- An access to a register whose domain is off ends as one lost to PWR.OFFACC and source 611 (R456). -/
theorem State.lost_offAccess {s : State} (hq : s.quiet = true) (hn : s.countsOnly 611 = true) (r : Tab Word) :
    Lost s ({ s.offAccess with readData := r } : State).settle F.PWR_OFFACC_COUNT 611 r :=
  State.lost_settle hq hn (by decide) r

end Sys2Proof.Machine
end

section
/-! How the commands of the control window end, one lemma for each kind of access (R4 - R9, R133, R234, R456, R501, R541 -
R545). -/

namespace Sys2Proof.Machine

/-! ### Writes and lost accesses -/

theorem State.writeAt_aperture {s : State} {who a : Nat} (h : 0x2000000 ≤ a) (ho : s.apertureOpen who = true)
    (hd : s.domOn 3 = true) (acc : Access) (v : Word) (x : Ext) : s.writeAt acc who a v x
      = { s with gm := memPutBytes s.gm (a - 0x2000000) (natLe v.toNat 4) } := by
  rw [State.writeAt, if_pos h, if_neg (by simp [ho]), if_pos hd]

theorem State.readAt_aperture {s : State} {who a : Nat} (h : 0x2000000 ≤ a) (ho : s.apertureOpen who = true)
    (hd : s.domOn 3 = true) : s.readAt who a = (memNat s.gm (a - 0x2000000) 4, s) := by
  rw [State.readAt, if_pos h, if_neg (by simp [ho]), if_pos hd]

section
variable {c : Instr} {s : State} {who a : Nat} {l : RLoc} {v : Word} {x : Ext} {en : BitVec 4}

/-- A write of the highest word of a register without an action ends with its fields written and all else as it was. -/
theorem answers_plainWrite (hc : exec c s = done (s.writeWord who a 0xF v x)) (ha : a % 4 = 0) (h : a < 0x2000000)
    (hl : findReg a regBlocks = some l) (ht : s.takes who (domainOf (a - 4 * l.word)) = true)
    (hw : l.word + 1 = l.desc.words)
    (hp : s.plainAt who (a - 4 * l.word) (s.staged who (a - 4 * l.word) l.word v.toNat) x) :
    let new := s.staged who (a - 4 * l.word) l.word v.toNat
    let key := keyOf who (a - 4 * l.word) l.desc
    Answers c s (fun u => Wrote (s.on F.SEC_LOCK_LOCK) new (s.wide key l.desc.words) (u.wide key l.desc.words) l.desc ∧
      u.gm = s.gm ∧ u.xm = s.xm ∧ u.time = s.time ∧ ∀ b, b < key ∨ key + 4 * l.desc.words ≤ b → u.word b = s.word b) := by
  rw [State.writeWord_register ha h hl ht, State.writeLoc_plain hw hp] at hc
  refine answers_of_quiet hc ?_ ⟨?_, ?_, ?_, ?_, fun b hb => ?_⟩
  · rw [State.storeReg, State.setWide_quiet, ((s.takes_iff _ _).1 ht).1]
  · rw [State.wide_congr (State.close_regs _)]
    exact s.wrote_storeReg (findReg_fieldsApart hl) _ _
  · simp [State.storeReg]
  · simp [State.storeReg]
  · simp [State.storeReg]
  · rw [State.close_word, State.storeReg, State.word_setWide_out _ _ _ _ _ fun i hi => by omega]

/-- A write of a lower word of a wide register waits in the requester's staging. -/
theorem completes_stagedWrite (hc : exec c s = done (s.writeWord who a 0xF v x)) (ha : a % 4 = 0) (h : a < 0x2000000)
    (hl : findReg a regBlocks = some l) (ht : s.takes who (domainOf (a - 4 * l.word)) = true)
    (hw : l.word + 1 < l.desc.words) :
    Completes c s { s with stage := tabSet (fun _ => 0) s.stage (0x100000000 * who + a) v } := by
  rw [State.writeWord_register ha h hl ht] at hc
  exact completes_of hc (if_pos hw) ((s.takes_iff _ _).1 ht).1

/-- A write of a register whose domain is off is lost. -/
theorem answers_offWrite (hc : exec c s = done (s.writeWord who a 0xF v x)) (ha : a % 4 = 0) (h : a < 0x2000000)
    (hl : findReg a regBlocks = some l) (hq : s.quiet = true) (hr : s.reaches who = true)
    (hd : s.domOn (domainOf (a - 4 * l.word)) = false) (hn : s.countsOnly 611 = true) :
    Answers c s (fun u => Lost s u F.PWR_OFFACC_COUNT 611 s.offAccess.readData) := by
  rw [State.writeWord_full hr ha, State.writeAt_register h hl, State.inWindow, hd] at hc
  exact answers_of_done hc (State.lost_offAccess hq hn _)

/-- A read of a register whose domain is off is lost and returns 0. -/
theorem answers_offRead (hc : exec c s = done (s.readWord who a en)) (ha : a % 4 = 0) (h : a < 0x2000000)
    (hl : findReg a regBlocks = some l) (hq : s.quiet = true) (hr : s.reaches who = true)
    (hd : s.domOn (domainOf (a - 4 * l.word)) = false) (hn : s.countsOnly 611 = true) :
    Answers c s (fun u => Lost s u F.PWR_OFFACC_COUNT 611 (tabSet (fun _ => 0) s.offAccess.readData who 0)) := by
  rw [State.readWord_eq hr ha, State.readAt_register h hl, hd, if_neg Bool.false_ne_true, enabledBytes_zero] at hc
  exact answers_of_done hc (State.lost_offAccess hq hn _)

/-- Fault Hold counts a write that it does not take. -/
theorem completes_heldWrite (hc : exec c s = done (s.writeWord who a 0xF v x)) (ha : a % 4 = 0) (h : a < 0x2000000)
    (hl : findReg a regBlocks = some l) (hq : s.quiet = true) (hr : s.reaches who = true)
    (hd : s.domOn (domainOf (a - 4 * l.word)) = true) (hm : s.mode = 0xB) (hh : holdTakes (a - 4 * l.word) = false) :
    Completes c s (s.bump F.FLT_HOLD_WR_COUNT 1) := by
  rw [State.writeWord_full hr ha, State.writeAt_register h hl, State.inWindow, hd, hm, hh] at hc
  exact completes_of hc rfl (by rw [State.quiet_bump, hq])

/-- A write with partial byte enables is lost. -/
theorem answers_partialWrite (hc : exec c s = done (s.writeWord who a en v x)) (hen : en ≠ 0xF) (hq : s.quiet = true)
    (hr : s.reaches who = true) (hn : s.countsOnly 638 = true) :
    Answers c s (fun u => Lost s u F.TOP_BADACC_COUNT 638 s.noRegister.readData) := by
  rw [State.writeWord_partial hr hen] at hc
  exact answers_of_done hc (State.lost_noRegister hq hn _)

/-- An access that names no register is lost, and a read returns 0. -/
theorem answers_wildAccess {w cross : Bool} (hc : exec c s = done (s.wildAccess who a w cross))
    (h : cross = true ∨ (findReg (a / 4 * 4) regBlocks = none ∧ zeroOffset (a / 4 * 4) = false ∧ a < 0x2000000))
    (hq : s.quiet = true) (hr : s.reaches who = true) (hn : s.countsOnly 638 = true) :
    Answers c s (fun u => Lost s u F.TOP_BADACC_COUNT 638
      (if w then s.noRegister.readData else tabSet (fun _ => 0) s.noRegister.readData who 0)) := by
  rw [State.wildAccess_lost hr w h] at hc
  exact answers_of_done hc (State.lost_noRegister hq hn _)

/-- A write at the open aperture changes the Granary's bytes. -/
theorem completes_apertureWrite (hc : exec c s = done (s.writeWord who a 0xF v x)) (ha : a % 4 = 0) (h : 0x2000000 ≤ a)
    (hd : s.running 3 = true) (hr : s.reaches who = true) (ho : s.apertureOpen who = true) :
    Completes c s { s with gm := memPutBytes s.gm (a - 0x2000000) (natLe v.toNat 4) } := by
  obtain ⟨hq, hd⟩ := (s.running_iff 3).1 hd
  rw [State.writeWord_full hr ha, State.writeAt_aperture h ho hd] at hc
  exact completes_of hc rfl hq

/-- A read at the open aperture returns the Granary's bytes. -/
theorem completes_apertureRead (hc : exec c s = done (s.readWord who a en)) (ha : a % 4 = 0) (h : 0x2000000 ≤ a)
    (hd : s.running 3 = true) (hr : s.reaches who = true) (ho : s.apertureOpen who = true) :
    Completes c s (s.gotRead who (enabledBytes en (memNat s.gm (a - 0x2000000) 4))) := by
  obtain ⟨hq, hd⟩ := (s.running_iff 3).1 hd
  rw [State.readWord_eq hr ha, State.readAt_aperture h ho hd] at hc
  exact completes_of hc rfl hq

end

/-! ### Where the registers whose read acts stand in the map -/

def tempLoc : RLoc := ⟨⟨0x10, 1, 0x4, 1, false, false, [⟨15, 0, .ro, .all 0⟩, ⟨31, 16, .rc, .all 0x8000⟩]⟩, 0, 0, 0, 0⟩

def egtsLoc (k : Fin 2) : RLoc :=
  ⟨⟨0x200, 2, 0x10, 3, false, true, [⟨15, 0, .rc, .all 0⟩, ⟨19, 16, .rc, .all 0⟩, ⟨27, 20, .rc, .all 0⟩, ⟨31, 31, .rc, .all 0⟩,
    ⟨95, 32, .ro, .all 0⟩]⟩, 0x10000, 0, k.val, 0⟩

def detEvtLoc : RLoc :=
  ⟨⟨0x108, 1, 0x10, 4, false, true, [⟨15, 0, .rc, .all 0⟩, ⟨23, 16, .rc, .all 0⟩, ⟨30, 24, .rc, .all 0⟩, ⟨31, 31, .rc, .all 0⟩,
    ⟨39, 32, .ro, .all 0⟩, ⟨40, 40, .ro, .all 0⟩, ⟨127, 64, .ro, .all 0⟩]⟩, 0x340000, 0, 0, 0⟩

theorem findReg_temp : findReg 0x10 regBlocks = some tempLoc := by decide +kernel

theorem findReg_egts (k : Fin 2) : findReg (0x10200 + 16 * k.val) regBlocks = some (egtsLoc k) := by
  revert k; decide +kernel

theorem findReg_detEvt : findReg 0x340108 regBlocks = some detEvtLoc := by decide +kernel

/-- A register of one word is none of the queues that a read pops. -/
theorem findReg_single {a : Nat} {l : RLoc} (hl : findReg a regBlocks = some l) (h1 : l.desc.words = 1) :
    a ≠ 0x10200 ∧ a ≠ 0x10210 ∧ a ≠ 0x340108 := by
  have wide : ∀ {a' : Nat} {l' : RLoc}, findReg a' regBlocks = some l' → l'.desc.words ≠ 1 → a ≠ a' := fun h' hw e =>
    hw (Option.some.inj (h'.symm.trans (e ▸ hl)) ▸ h1)
  exact ⟨wide (findReg_egts 0) (by decide), wide (findReg_egts 1) (by decide), wide findReg_detEvt (by decide)⟩

theorem foldFields_none (l : List FieldDesc) (p : FieldDesc → Bool) (v : FieldDesc → Nat) (w : Nat)
    (h : ∀ f ∈ l, p f = false) : foldFields l p v w = w := by
  induction l generalizing w with
  | nil => rfl
  | cons f l ih => rw [foldFields_cons, h f (by simp), if_neg Bool.false_ne_true, ih _ fun g m => h g (by simp [m])]

theorem domainOf_egts (k : Fin 2) : domainOf (0x10200 + 16 * k.val - 4 * (egtsLoc k).word) = 5 := by
  revert k; decide

theorem State.view_egts (s : State) (who n : Nat) (k : Fin 2) :
    s.view (keyOf who (0x10200 + 16 * k.val) (egtsLoc k).desc) n = egtsView (s.time.egts.getD k.val []) := by
  rw [show keyOf who (0x10200 + 16 * k.val) (egtsLoc k).desc = 0x10200 + 16 * k.val from rfl, State.view, State.computed]
  match k with
  | 0 => rfl
  | 1 => rfl

theorem State.readClear_egts (s : State) (key : Nat) (d : RDesc) (k : Fin 2) :
    s.readClear (0x10200 + 16 * k.val) key d = s.egtsPop k.val := by
  match k with
  | 0 => rfl
  | 1 => rfl

theorem getD_setAt {α : Type} (l : List α) (n m : Nat) (x d : α) :
    (setAt l n x).getD m d = if m = n ∧ m < l.length then x else l.getD m d := by
  induction l generalizing n m with
  | nil => simp [setAt]
  | cons a l ih =>
    cases n with
    | zero => cases m <;> simp [setAt]
    | succ n =>
      cases m with
      | zero => simp [setAt]
      | succ m => simpa [setAt, List.getD_eq_getElem?_getD] using ih n m

/-- Popping the radar queue leaves the events after the oldest. -/
theorem State.radar_detPop (s : State) : (s.detPop.radio 1).radar = (s.radio 1).radar.drop 1 := by
  rw [State.detPop, State.radio, State.put_air]
  change ((setAt s.air.radio 1 _).getD 1 {}).radar = _
  rw [getD_setAt]
  split
  · rfl
  · next hlen =>
    rw [State.radio, List.getD_eq_default _ _ (by omega)]
    rfl

theorem State.depth_detPop (s : State) :
    s.detPop.get F.RFB_DET_STAT_DEPTH = ((s.radio 1).radar.drop 1).length % 2 ^ 5 :=
  State.get_put_self _ _ _ (Nat.zero_le _)

@[simp] theorem State.gotRead_get (s : State) (who v : Nat) (f : Fld) : (s.gotRead who v).get f = s.get f :=
  State.get_congr (show (s.gotRead who v).regs = s.regs from rfl) f

/-! ### Reads of a register in a domain that is on -/

section
variable {c : Instr} {s : State} {who a : Nat} {l : RLoc} {en : BitVec 4}
  (hc : exec c s = done (s.readWord who a en)) (ha : a % 4 = 0) (h : a < 0x2000000)
  (hl : findReg a regBlocks = some l) (hrun : s.running (domainOf (a - 4 * l.word)) = true) (hr : s.reaches who = true)
include hc ha h hl hrun hr

/-- A read completes with the word it returns and the state that the register's read leaves. -/
theorem exec_readReg : exec c s = done ((s.readReg who a l).2.gotRead who (enabledBytes en (s.readReg who a l).1)) := by
  rw [hc, State.readWord_register ha h hl ((s.running_iff _).1 hrun).2 hr]

/-- A read of an upper word returns what the requester's capture holds. -/
theorem completes_upperRead (hw : 0 < l.word) : Completes c s (s.gotRead who
    (enabledBytes en (wordAt (tabGet (fun _ => 0) s.capture (0x100000000 * who + (a - 4 * l.word))) l.word))) := by
  have e := exec_readReg hc ha h hl hrun hr
  rw [State.readReg_upper _ _ _ hw] at e
  exact completes_of e rfl ((s.running_iff _).1 hrun).1

/-- With PEEK a read of a register of one word changes nothing but the word returned. -/
theorem completes_peekRead (h0 : l.word = 0) (h1 : l.desc.words = 1) (hp : s.on (F.TOP_PEEK_EN who) = true) :
    Completes c s (s.gotRead who (enabledBytes en (s.shown who a l.desc % 2 ^ 32))) := by
  have e := exec_readReg hc ha h hl hrun hr
  rw [State.readReg_single _ _ _ h0 h1, if_pos hp] at e
  exact completes_of e rfl ((s.running_iff _).1 hrun).1

/-- Without PEEK a read of a register of one word does its reading clear. -/
theorem exec_clearingRead (h0 : l.word = 0) (h1 : l.desc.words = 1) (hp : s.on (F.TOP_PEEK_EN who) = false) :
    exec c s = done ((s.readClear a (keyOf who a l.desc) l.desc).gotRead who
      (enabledBytes en (s.shown who a l.desc % 2 ^ 32))) := by
  have e := exec_readReg hc ha h hl hrun hr
  rwa [State.readReg_single _ _ _ h0 h1, if_neg (by simp [hp])] at e

/-- Without PEEK a read of a register of one word, none of those that act, clears its rc fields. -/
theorem answers_clearingRead (h0 : l.word = 0) (h1 : l.desc.words = 1) (hp : s.on (F.TOP_PEEK_EN who) = false)
    (hne : a ≠ 0x10) :
    let key := keyOf who a l.desc
    Answers c s (fun u =>
      tabGet (fun _ => 0) u.readData who = BitVec.ofNat 32 (enabledBytes en (s.shown who a l.desc % 2 ^ 32)) ∧
      (∀ f ∈ l.desc.fields, bits (u.word key).toNat f.hi f.lo = if f.acc = .rc then 0 else bits (s.word key).toNat f.hi f.lo) ∧
      u.gm = s.gm ∧ u.time = s.time ∧ ∀ b, b ≠ key → u.word b = s.word b) := by
  have e := exec_clearingRead hc ha h hl hrun hr h0 h1 hp
  obtain ⟨p1, p2, p3⟩ := findReg_single hl h1
  have same := s.readClear_sameStores a (keyOf who a l.desc) l.desc
  refine answers_of_quiet e (same.quiet.trans ((s.running_iff _).1 hrun).1) ⟨?_, fun f hf => ?_, ?_, ?_, fun b hb => ?_⟩
  · rw [State.close_readData, State.gotRead, tabGet_tabSet_self]
  · have hb := s.bits_readClear (findReg_fieldsApart hl) a (keyOf who a l.desc) hne ⟨p1, p2, p3⟩ hf
    rwa [h1, State.wide_one, State.wide_one] at hb
  · exact (State.close_gm _).trans same.gm
  · exact (State.close_time _).trans (s.readClear_time _ _ _ ⟨p1, p2⟩)
  · rw [State.close_word]
    exact s.word_readClear_out a _ _ b hne p3 fun i hi => by omega

end

section
variable {c : Instr} {s : State} {who a : Nat} {l : RLoc}
  (hc : exec c s = done (s.readWord who a 0xF)) (ha : a % 4 = 0) (h : a < 0x2000000)
  (hl : findReg a regBlocks = some l) (hrun : s.running (domainOf (a - 4 * l.word)) = true) (hr : s.reaches who = true)
  (h0 : l.word = 0) (h1 : 1 < l.desc.words)
include hc ha h hl hrun hr h0 h1

/-- A read of the lowest word of a wide register captures the value and, without PEEK, does its reading clear. -/
theorem exec_wideRead : exec c s = done ((if s.on (F.TOP_PEEK_EN who) then s.captured who a (s.shown who a l.desc)
      else (s.captured who a (s.shown who a l.desc)).readClear a (keyOf who a l.desc) l.desc).gotRead who
        (s.shown who a l.desc % 2 ^ 32)) := by
  rw [exec_readReg hc ha h hl hrun hr, State.readReg_lowest _ _ _ h0 h1,
    enabledBytes_full (Nat.mod_lt _ (Nat.two_pow_pos 32))]

theorem completes_wideRead_peek (hp : s.on (F.TOP_PEEK_EN who) = true) :
    Completes c s ((s.captured who a (s.shown who a l.desc)).gotRead who (s.shown who a l.desc % 2 ^ 32)) := by
  have e := exec_wideRead hc ha h hl hrun hr h0 h1
  rw [if_pos hp] at e
  exact completes_of e rfl ((s.running_iff _).1 hrun).1

/-- Whatever the register clears, a wide read leaves the capture and the word returned. -/
theorem answers_wideRead : Answers c s (fun t =>
    t.capture = (s.captured who a (s.shown who a l.desc)).capture ∧
    t.readData = (s.gotRead who (s.shown who a l.desc % 2 ^ 32)).readData ∧ t.gm = s.gm ∧ t.stage = s.stage) := by
  have e := exec_wideRead hc ha h hl hrun hr h0 h1
  have hq := ((s.running_iff _).1 hrun).1
  by_cases hp : s.on (F.TOP_PEEK_EN who) = true
  · rw [if_pos hp] at e
    exact answers_of_quiet e hq ⟨State.close_capture _, State.close_readData _, State.close_gm _, State.close_stage _⟩
  · rw [if_neg hp] at e
    have same := (s.captured who a (s.shown who a l.desc)).readClear_sameStores a (keyOf who a l.desc) l.desc
    refine answers_of_quiet e (same.quiet.trans hq) ⟨?_, ?_, ?_, ?_⟩
    · exact (State.close_capture _).trans same.capture
    · rw [State.close_readData, State.gotRead, same.readData]
      rfl
    · exact (State.close_gm _).trans same.gm
    · exact (State.close_stage _).trans same.stage

end

/-! ### The registers whose read acts: TOP.TEMP, TIME.EGTS, RFB.DET_EVT -/

section
variable {c : Instr} {s : State} {who : Nat} (hr : s.reaches who = true)
include hr

/-- A read of TOP.TEMP restarts the maximum at the present temperature (R545). -/
theorem answers_tempRead {en : BitVec 4} (hc : exec c s = done (s.readWord who 0x10 en)) (hrun : s.running 0 = true)
    (hp : s.on (F.TOP_PEEK_EN who) = false) : Answers c s (fun u =>
      u.get F.TOP_TEMP_MAX = s.get F.TOP_TEMP_NOW ∧ u.get F.TOP_TEMP_NOW = s.get F.TOP_TEMP_NOW ∧
      tabGet (fun _ => 0) u.readData who = BitVec.ofNat 32 (enabledBytes en (s.word 0x10).toNat)) := by
  have e := exec_clearingRead hc rfl (by decide) findReg_temp hrun hr rfl rfl hp
  have hv : s.shown who 0x10 tempLoc.desc % 2 ^ 32 = (s.word 0x10).toNat := by
    rw [State.shown, foldFields_none _ _ _ _ (by decide)]
    exact (congrArg (· % 2 ^ 32) (s.wide_one 0x10)).trans (Nat.mod_eq_of_lt (s.word 0x10).isLt)
  rw [hv, State.readClear, if_pos rfl] at e
  refine answers_of_quiet e ?_ ⟨?_, ?_, ?_⟩
  · rw [State.gotRead_quiet, State.quiet_put, ((s.running_iff _).1 hrun).1]
  · rw [State.close_get, State.gotRead_get, State.get_put_self _ _ _ (by decide)]
    exact Nat.mod_eq_of_lt (bits_lt _ _ _)
  · rw [State.close_get, State.gotRead_get, State.get_put_disj _ F.TOP_TEMP_MAX F.TOP_TEMP_NOW _ (by decide) rfl
      (by decide)]
  · rw [State.close_readData, State.gotRead, tabGet_tabSet_self]

/-- A read of the low word of TIME.EGTS shows the oldest entry and, without PEEK, takes it from the queue (R133). -/
theorem completes_egtsRead {k : Fin 2} {q : List EgTs} (hc : exec c s = done (s.readWord who (0x10200 + 16 * k.val) 0xF))
    (hrun : s.running 5 = true) (hq : s.time.egts[k.val]? = some q) :
    let u := (s.captured who (0x10200 + 16 * k.val) (egtsView q)).gotRead who (egtsView q % 2 ^ 32)
    Completes c s (if s.on (F.TOP_PEEK_EN who) then u
      else { u with time := { s.time with egts := setAt s.time.egts k.val (q.drop 1) } }) := by
  have e := exec_wideRead hc (by omega) (by omega) (findReg_egts k) (by rw [domainOf_egts]; exact hrun) hr rfl (by simp [egtsLoc])
  have hget : s.time.egts.getD k.val [] = q := by rw [List.getD_eq_getElem?_getD, hq]; rfl
  have hv : s.shown who (0x10200 + 16 * k.val) (egtsLoc k).desc = egtsView q := by
    rw [State.shown, foldFields_none _ _ _ _ (by simp [egtsLoc]), State.view_egts, hget]
  rw [hv] at e
  have hquiet := ((s.running_iff _).1 hrun).1
  dsimp only
  split
  · next hp =>
    rw [if_pos hp] at e
    exact completes_of e rfl hquiet
  · next hp =>
    rw [if_neg hp, State.readClear_egts, State.egtsPop, hget] at e
    exact completes_of e rfl hquiet

/-- A read of the low word of RFB.DET_EVT shows the oldest radar event and, without PEEK, takes it from the queue (R234). -/
theorem answers_detEvtRead (hc : exec c s = done (s.readWord who 0x340108 0xF)) (hrun : s.running 11 = true) :
    let q := (s.radio 1).radar
    Answers c s (fun t => tabGet (fun _ => 0) t.readData who = BitVec.ofNat 32 (radarView q % 2 ^ 32) ∧
      t.capture = (s.captured who 0x340108 (radarView q)).capture ∧
      (t.radio 1).radar = (if s.on (F.TOP_PEEK_EN who) then q else q.drop 1) ∧
      (s.on (F.TOP_PEEK_EN who) = false → t.get F.RFB_DET_STAT_DEPTH = (q.length - 1) % 2 ^ 5)) := by
  intro q
  have e := exec_wideRead hc rfl (by decide) findReg_detEvt hrun hr rfl (by decide)
  have hv : s.shown who 0x340108 detEvtLoc.desc = radarView q := by
    rw [State.shown, foldFields_none _ _ _ _ (by decide)]
    rfl
  rw [hv] at e
  have hquiet := ((s.running_iff _).1 hrun).1
  split
  · next hp =>
    rw [if_pos hp] at e
    refine answers_of_quiet e hquiet ⟨?_, State.close_capture _, ?_, fun hn => absurd (hp.symm.trans hn) (by decide)⟩
    · rw [State.close_readData, State.gotRead, tabGet_tabSet_self]
    · rw [State.radio, State.close_air]
      rfl
  · next hp =>
    rw [if_neg hp] at e
    have same := (s.captured who 0x340108 (radarView q)).readClear_sameStores 0x340108 (keyOf who 0x340108 detEvtLoc.desc)
      detEvtLoc.desc
    refine answers_of_quiet e (same.quiet.trans hquiet) ⟨?_, ?_, ?_, fun _ => ?_⟩
    · rw [State.close_readData, State.gotRead, tabGet_tabSet_self]
    · exact (State.close_capture _).trans same.capture
    · rw [State.radio, State.close_air]
      exact (s.captured who 0x340108 (radarView q)).radar_detPop
    · rw [State.close_get, State.gotRead_get]
      exact ((s.captured who 0x340108 (radarView q)).depth_detPop).trans (by rw [List.length_drop]; rfl)

end

end Sys2Proof.Machine
end

section
/-! The statement ControlWindow, from the ends of its commands. -/

namespace Sys2Proof.Machine

theorem Answers.imp {c : Instr} {s : State} {P Q : State → Prop} (h : Answers c s P) (hPQ : ∀ t, P t → Q t) :
    Answers c s Q :=
  let ⟨t, e, hP⟩ := h
  ⟨t, e, hPQ t hP⟩

/-- A lost read returned 0. -/
theorem Lost.read_zero {s t : State} {f : Fld} {n who : Nat} {r : Tab Word}
    (h : Lost s t f n (tabSet (fun _ => 0) r who 0)) : tabGet (fun _ => 0) t.readData who = 0 := by
  rw [h.readData, tabGet_tabSet_self]

/-- Settles O48: every command of the window is a read, a write or a wild access of its requester, and each clause is what
that access comes to. -/
theorem controlWindow : Obligations.ControlWindow := by
  unfold Obligations.ControlWindow
  refine ⟨fun who addr en v x w cross c s => ⟨fun _ => ⟨rfl, rfl, rfl, rfl, rfl, rfl, rfl⟩, fun hq hr => ?_⟩, ?_, ?_, ?_, ?_,
    ?_, ?_, ?_, ?_⟩
  · have unheard := fun a en => State.unheard hr a en v x w cross
    exact ⟨completes_of rfl (unheard _ en).1 hq, completes_of rfl (unheard _ 0xF).1 hq, completes_of rfl (unheard _ en).2.1 hq,
      completes_of rfl (unheard _ 0xF).2.1 hq, completes_of rfl (unheard _ 0xF).2.1 hq, completes_of rfl (unheard _ 0xF).2.1 hq,
      completes_of rfl (unheard _ en).2.2.1 hq, completes_of rfl (unheard 0 en).2.2.2 hq⟩
  · intro who addr v x s a ha h hd hr ho
    exact ⟨completes_apertureWrite rfl ha h hd hr ho, completes_apertureRead rfl ha h hd hr ho⟩
  · intro who addr v x l s a low ha h hl ht
    exact ⟨fun hw hp => ⟨answers_plainWrite rfl ha h hl ht hw hp, answers_plainWrite rfl ha h hl ht hw hp⟩,
      completes_stagedWrite rfl ha h hl ht⟩
  · intro who addr v x l s a dom ha h hl hq hr
    refine ⟨fun hd hn => ⟨?_, ?_⟩, completes_heldWrite rfl ha h hl hq hr⟩
    · exact (answers_offWrite rfl ha h hl hq hr hd hn).imp fun u lost => ⟨lost.count, lost.gm, lost.stage, lost.capture⟩
    · exact (answers_offRead (en := 0xF) rfl ha h hl hq hr hd hn).imp fun u lost =>
        ⟨⟨lost.count, lost.gm, lost.stage, lost.capture⟩, lost.read_zero⟩
  · intro who addr en v x s hq hr hn lost read0
    have of_lost : ∀ {u : State} {r : Tab Word}, Lost s u F.TOP_BADACC_COUNT 638 r → lost u := fun h =>
      ⟨h.count, h.sticky, h.gm, h.stage, h.time⟩
    have lostWrite := fun {c : Instr} {cross : Bool} hc h =>
      (answers_wildAccess (c := c) (a := addr.toNat) (w := true) (cross := cross) hc h hq hr hn).imp fun u h => of_lost h
    have lostRead := fun {c : Instr} {cross : Bool} hc h =>
      (answers_wildAccess (c := c) (a := addr.toNat) (w := false) (cross := cross) hc h hq hr hn).imp
        (Q := fun u => lost u ∧ read0 u) fun u h => ⟨of_lost h, h.read_zero⟩
    refine ⟨fun hen => (answers_partialWrite rfl hen hq hr hn).imp fun u h => of_lost h, lostWrite rfl (.inl rfl),
      lostRead rfl (.inl rfl), fun h1 h2 h3 => ⟨lostWrite rfl (.inr ⟨h1, h2, h3⟩), lostRead rfl (.inr ⟨h1, h2, h3⟩)⟩, ?_⟩
    exact completes_of rfl (if_pos hr) hq
  · intro who addr en l s a low ha h hl hrun hr key v peek
    refine ⟨fun h0 h1 => ?_, fun h0 h1 => ?_, completes_upperRead rfl ha h hl hrun hr⟩
    all_goals have hlow : low = a := by simp [low, h0]
    · simp only [v, key, hlow]
      exact ⟨completes_peekRead rfl ha h hl hrun hr h0 h1, fun hp hne => answers_clearingRead rfl ha h hl hrun hr h0 h1 hp hne⟩
    · simp only [v, key, hlow]
      exact ⟨completes_wideRead_peek rfl ha h hl hrun hr h0 h1, answers_wideRead rfl ha h hl hrun hr h0 h1⟩
  · intro who en s hrun hr hp
    exact answers_tempRead hr rfl hrun hp
  · intro who c q s hrun hr hq
    rw [Nat.add_assoc]
    exact completes_egtsRead hr rfl hrun hq
  · rintro who q s hrun hr rfl
    exact answers_detEvtRead hr rfl hrun

end Sys2Proof.Machine
end

section
/-! The state after reset (R22, R481, R530): where the registers of the fault sources stand in the map, and the statement
ResetState. -/

namespace Sys2Proof.Machine

/-! ### Passing over the earlier entries of the map -/

/-- Blocks that end at or below an offset do not hold it. -/
theorem findReg_append {a : Nat} {bs : List BlockDesc} (h : ∀ b ∈ bs, 0 < b.istride ∧ b.base + b.inst * b.istride ≤ a)
    (cs : List BlockDesc) : findReg a (bs ++ cs) = findReg a cs := by
  induction bs with
  | nil => rfl
  | cons b bs ih =>
    obtain ⟨hs, hb⟩ := h b (by simp)
    have past : ¬ (a - b.base) / b.istride < b.inst := by rw [Nat.div_lt_iff_lt_mul hs]; omega
    rw [List.cons_append, findReg, if_neg fun hc => past hc.2, ih fun b m => h b (by simp [m])]

/-- Registers that end at or below an offset of their block do not hold it. -/
theorem findInBlock_append {base inst r : Nat} {ds : List RDesc} (h : ∀ d ∈ ds, 0 < d.stride ∧ d.off + d.count * d.stride ≤ r)
    (es : List RDesc) : findInBlock base inst r (ds ++ es) = findInBlock base inst r es := by
  induction ds with
  | nil => rfl
  | cons d ds ih =>
    obtain ⟨hs, hd⟩ := h d (by simp)
    have past : ¬ (r - d.off) / d.stride < d.count := by rw [Nat.div_lt_iff_lt_mul hs]; omega
    rw [List.cons_append, findInBlock, if_neg fun hc => past hc.2.1, ih fun d m => h d (by simp [m])]

theorem findReg_cons {a : Nat} {b : BlockDesc} {l : RLoc} (hb : b.base ≤ a ∧ (a - b.base) / b.istride < b.inst)
    (h : findInBlock b.base ((a - b.base) / b.istride) ((a - b.base) % b.istride) b.regs = some l) (bs : List BlockDesc) :
    findReg a (b :: bs) = some l := by
  rw [findReg, if_pos hb, h]

/-! ### The register of a fault source -/

/-- `FLT.SRC` (R494). -/
def srcDesc : RDesc :=
  ⟨0x1000, 640, 0x4, 1, false, false, [⟨1, 0, .ro, .all 0⟩, ⟨2, 2, .ro, .all 0⟩, ⟨3, 3, .ro, .all 0⟩, ⟨4, 4, .ro, .all 0⟩,
    ⟨6, 5, .ro, .cls⟩, ⟨15, 8, .rc, .all 0⟩, ⟨31, 16, .rc, .all 0⟩]⟩

theorem findInBlock_src {n : Nat} (hn : n < 640) : findInBlock 0x1000000 0 (0x1000 + 4 * n) (regsFLT0 ++ regsFLT1)
      = some ⟨srcDesc, 0x1000000, 0, n, 0⟩ := by
  have below : ∀ d ∈ regsFLT0 ++ regsFLT1.take 7, 0 < d.stride ∧ d.off + d.count * d.stride ≤ 0x1000 := by decide
  have split : regsFLT0 ++ regsFLT1 = (regsFLT0 ++ regsFLT1.take 7) ++ [srcDesc] := rfl
  rw [split, findInBlock_append fun d m => ⟨(below d m).1, by have := (below d m).2; omega⟩]
  simp [findInBlock, srcDesc, hn]

theorem findReg_src {n : Nat} (hn : n < 640) :
    findReg (0x1001000 + 4 * n) regBlocks = some ⟨srcDesc, 0x1000000, 0, n, 0⟩ := by
  have below : ∀ b ∈ regBlocks.take 24, 0 < b.istride ∧ b.base + b.inst * b.istride ≤ 0x1001000 := by decide
  have split : regBlocks = regBlocks.take 24 ++ ⟨0x1000000, 1, 0x100000, regsFLT0 ++ regsFLT1⟩ :: regBlocks.drop 25 := rfl
  have inst : (0x1001000 + 4 * n - 0x1000000) / 0x100000 = 0 := by omega
  have off : (0x1001000 + 4 * n - 0x1000000) % 0x100000 = 0x1000 + 4 * n := by omega
  rw [split, findReg_append fun b m => ⟨(below b m).1, by have := (below b m).2; omega⟩]
  refine findReg_cons ⟨by dsimp only; omega, by dsimp only; omega⟩ ?_ _
  dsimp only
  rw [inst, off, findInBlock_src hn]

/-- A source's register holds its class alone before anything has written it. -/
theorem regReset_src {n : Nat} (hn : n < 640) : regReset (0x1001000 + 4 * n) = BitVec.ofNat 32 (sourceClass n * 2 ^ 5) := by
  have key : (0x1001000 + 4 * n) % 0x100000000 = 0x1001000 + 4 * n := Nat.mod_eq_of_lt (by omega)
  have value : resetWord ⟨srcDesc, 0x1000000, 0, n, 0⟩ = sourceClass n * 2 ^ 5 % 2 ^ 32 := by
    simp [resetWord, srcDesc, resetOf]
  rw [regReset, key, findReg_src hn]
  dsimp only
  rw [value]
  exact BitVec.eq_of_toNat_eq (by simp)

theorem State.word_reset (a : Nat) : State.reset.word a = regReset a := rfl

theorem State.level_reset {n : Nat} (hn : n < 640) : State.reset.level n = 0 := by
  rw [State.level, State.get_eq _ _ 1 (show 1 < 32 * 1 by decide), State.wide_one, State.word_reset,
    F.FLT_SRC_LEVEL, regReset_src hn, BitVec.toNat_ofNat, bits]
  change sourceClass n * 2 ^ 5 % 2 ^ 32 / 2 ^ 0 % 2 ^ 2 = 0
  omega

/-- Settles O58: nothing has written a register at reset, so every source's level reads its reset value, and the boot that
is at its first step holds both pins low. -/
theorem resetState : Obligations.ResetState := by
  unfold Obligations.ResetState
  have boot : State.reset.ctl.boot = some 1 := rfl
  refine ⟨rfl, rfl, by decide +kernel, boot, rfl, rfl, ?_, ?_, rfl, fun n => State.level_reset, rfl, rfl, rfl, rfl, rfl, rfl⟩
  · simp [State.faultNLow, boot]
  · simp [State.supEn, boot]

end Sys2Proof.Machine
end

section
/-! The statement ModesAndWakes, which fails where an entry halts a sequencer that holds a window set: the halt clears
GRANTED of the set's stations in the Granary (R140, R146). -/

namespace Sys2Proof.Machine

/-- A write that its requester's path, its domain and Fault Hold let through has its register's effect. -/
theorem State.writeTo_takes {s : State} {who : Fin 4} {a : Nat} (h : s.takes who.val (domainOf a) = true)
    (f : State → State) : s.writeTo who a f = f s := by
  obtain ⟨-, hd, hr, hm⟩ := (s.takes_iff _ _).1 h
  simp [State.writeTo, State.access, State.inWindow, hd, hr, hm]

theorem settles_modeRequest {s : State} {who : Fin 4} (h : s.takes who.val 0 = true) (v : Word) :
    Settles (.modeRequest who v) s (s.modeRequest (withFld v F.TOP_MODE_REQ_GO 1)) := by
  have hexec : exec (.modeRequest who v) s
      = done (s.writeTo who 0x24 (fun s => s.modeRequest (withFld v F.TOP_MODE_REQ_GO 1))) := rfl
  have domain : domainOf 0x24 = 0 := by decide
  rw [Settles, hexec, State.writeTo_takes (domain ▸ h), done]

/-- Refutes O50: in Service + Route the enabled sequencer 1 holds station 5 in its window set, and GRANTED in the station's
STATE word, at 32 × 5 + 0x1C of the Granary, says so.  A request for Watch halts the sequencer; the window set is released
and GRANTED clears, so the Granary is not as it was. -/
theorem not_modesAndWakes : ¬ Obligations.ModesAndWakes := by
  unfold Obligations.ModesAndWakes
  rintro ⟨-, requests, -⟩
  obtain ⟨s, htakes, hrefused, hmode, hheld, hslot, hdoms, hhusks, hbefore, hafter⟩ : ∃ s : State,
      s.takes 0 0 = true ∧ s.modeRefused 4 = false ∧ s.mode = 7 ∧ s.modeHeld = false ∧ s.ctl.slot = none ∧
      (modeDomains 4).all s.domOn = true ∧ (∀ n, n < 4 → s.husk n 0 = none ∧ s.husk n 1 = none) ∧
      bits (memNat s.gm (32 * 5 + 0x1C) 4) 22 20 = 2 ∧
      bits (memNat (s.modeRequest (withFld 4 F.TOP_MODE_REQ_GO 1)).settle.gm (32 * 5 + 0x1C) 4) 22 20 = 0 :=
    ⟨{ (((State.reset.put F.PWR_DOM_ON 0x3FFF).put F.TOP_MODE_CUR 7).put F.HST_LINK_UP 1).put (F.SQ_CTL_EN 1) 1 with
        ctl := { boot := none, fronts := [0, 1, 2, 3, 4, 5] }
        air := { sq := [{}, { window := [5], granted := [5] }, {}, {}] }
        gm := memPutNat [] (32 * 5 + 0x1C) 4 (2 * 2 ^ 20) }, by decide +kernel⟩
  obtain ⟨-, -, taken⟩ := requests 0 4 s htakes
  obtain ⟨-, idle⟩ := taken hrefused (by rw [hmode]; decide)
  obtain ⟨-, -, -, lower⟩ := idle hheld hslot
  obtain ⟨t, ht, -, -, -, hgm, -⟩ := lower (by rw [hmode]; decide) (by decide) (.inr hdoms) hhusks
  obtain rfl : _ = t := Host.Outcome.next.inj ((settles_modeRequest htakes 4).symm.trans ht)
  rw [hgm, hbefore] at hafter
  exact absurd hafter (by decide)

end Sys2Proof.Machine
end

section
/-! How every command and every step ends (R47, R477): with nothing unreported, and SUP_EN at the level of its rules, and the
statement StepsEnd. -/

namespace Sys2Proof.Machine

/-- What 16 rounds of the collector leave is dropped, so nothing waits. -/
theorem State.quiet_calm (s : State) : s.calm.quiet = true := by
  unfold State.calm
  split
  · assumption
  · simp only [State.quiet, State.seq, List.isEmpty_nil, Bool.true_and, List.all_eq_true, Option.isNone_iff_eq_none]
    intro n _
    rw [List.getD_eq_getElem?_getD, List.getElem?_map]
    cases s.seqs[n]? <;> rfl

theorem State.quiet_close (s : State) : s.close.quiet = s.quiet :=
  State.quiet_congr s.close_raised s.close_seqs

theorem State.quiet_settle (s : State) : s.settle.quiet = true :=
  (State.quiet_close _).trans (State.quiet_calm _)

/-- Each command's meaning is an effect that the collector then settles. -/
theorem exec_eq_done (c : Instr) (s : State) : ∃ t, exec c s = done t := by
  cases c <;> exact ⟨_, rfl⟩

theorem step_eq_done (s : State) : ∃ t, step s = done t := by
  unfold step
  split
  · exact exec_eq_done _ _
  · exact ⟨_, rfl⟩

/-- SUP_EN is high outside Retain and Off, before step 4 of an entry to them, and from the regulator stage of a boot, or
without a fuse error once no boot runs (R464, R466, R518, R526). -/
theorem State.supEn_iff (s : State) : s.supEn = true ↔ s.mode ≠ 3 ∧ s.mode ≠ 0 ∧
    (∀ e : Entry, s.ctl.entry = some e → ¬ (e.step = 4 ∧ (e.target = 3 ∨ e.target = 0))) ∧
    (match s.ctl.boot with | some k => 6 ≤ k | none => s.on F.SEC_BOOT_STAT_FUSEERR = false) := by
  have entry : ∀ e : Entry, (!(e.step == 4 && (e.target == 3 || e.target == 0))) = true
      ↔ ¬ (e.step = 4 ∧ (e.target = 3 ∨ e.target = 0)) := fun e => by simp [imp_iff_not_or]
  unfold State.supEn
  cases s.ctl.entry <;> cases s.ctl.boot <;> simp [entry, and_assoc, -not_and, -Bool.not_and]

/-- The pin follows the state at the end of every command. -/
theorem State.pins_supEn_close (s : State) : s.close.pins.supEn = s.close.supEn := by
  have hm : s.close.mode = s.mode := s.close_get _
  have hc : s.close.ctl = s.ctl := s.close_ctl
  have hf : s.close.on F.SEC_BOOT_STAT_FUSEERR = s.on F.SEC_BOOT_STAT_FUSEERR := s.close_on _
  show s.supEn = s.close.supEn
  rw [State.supEn, State.supEn, hm, hc, hf]

/-- Settles O60: every command is settled, the collector leaves nothing unreported, and closing sets the pin. -/
theorem stepsEnd : Obligations.StepsEnd := by
  unfold Obligations.StepsEnd
  refine ⟨fun c s => ?_, fun s => ?_⟩
  · obtain ⟨t, h⟩ := exec_eq_done c s
    exact ⟨t.settle, h, t.quiet_settle, rfl⟩
  · obtain ⟨t, h⟩ := step_eq_done s
    refine ⟨t.settle, h, t.quiet_settle, rfl, ?_⟩
    rw [State.settle, State.pins_supEn_close]
    exact State.supEn_iff _

end Sys2Proof.Machine
end

section
/-! Rules for the operations that threads share: what ending a task gives up, how an instruction that issues goes on, stays
or takes an exception (R41, R43), and what a load returns (R66). -/

namespace Sys2Proof.Machine

/-! ### Repeated updates -/

/-- A projection that each update keeps is kept by all of them. -/
theorem forEach_keeps {α σ β : Type} (p : σ → β) {f : α → σ → σ} (h : ∀ a s, p (f a s) = p s) (l : List α) (s : σ) :
    p (forEach l f s) = p s := by
  induction l generalizing s with
  | nil => rfl
  | cons a l ih => exact (ih (f a s)).trans (h a s)

/-- A reflexive and transitive relation to the start that each update keeps holds after all of them. -/
theorem forEach_rel {α σ : Type} {R : σ → σ → Prop} (refl : ∀ s, R s s) (trans : ∀ {s t u}, R s t → R t u → R s u)
    {f : α → σ → σ} (h : ∀ a s, R s (f a s)) (l : List α) (s : σ) : R s (forEach l f s) := by
  induction l generalizing s with
  | nil => exact refl s
  | cons a l ih => exact trans (h a s) (ih (f a s))

/-! ### What the end of a task gives up -/

/-- Nothing but register words, the endpoint engine and the scheduler's stores has changed. -/
def State.StoresOnly (s u : State) : Prop := u = { s with regs := u.regs, ept := u.ept, hts := u.hts }

namespace State.StoresOnly

variable {s t u : State}

theorem refl (s : State) : s.StoresOnly s := Eq.refl s

theorem trans (h : s.StoresOnly t) (h' : t.StoresOnly u) : s.StoresOnly u := by
  unfold State.StoresOnly at *
  rw [h'] at *
  rw [h]

theorem eq (h : s.StoresOnly u) : u = { s with regs := u.regs, ept := u.ept, hts := u.hts } := h
theorem yal (h : s.StoresOnly u) : u.yal = s.yal := (congrArg State.yal h.eq :)
theorem gm (h : s.StoresOnly u) : u.gm = s.gm := (congrArg State.gm h.eq :)
theorem xm (h : s.StoresOnly u) : u.xm = s.xm := (congrArg State.xm h.eq :)
theorem sd (h : s.StoresOnly u) : u.sd = s.sd := (congrArg State.sd h.eq :)
theorem thread (h : s.StoresOnly u) (t : Nat) : u.thread t = s.thread t := by rw [State.thread, State.thread, h.yal]
theorem quiet (h : s.StoresOnly u) : u.quiet = s.quiet :=
  State.quiet_congr (congrArg State.raised h.eq :) (congrArg State.seqs h.eq :)

theorem put (s : State) (f : Fld) (v : Nat) : s.StoresOnly (s.put f v) := by
  unfold State.StoresOnly
  rw [State.put_eq]

theorem bump (s : State) (f : Fld) (k : Nat) : s.StoresOnly (s.bump f k) := put s f _

theorem unpin (s : State) (i : Nat) : s.StoresOnly (s.unpin i) := by
  unfold State.unpin
  dsimp only
  split
  · exact trans (refl _) (put _ _ _)
  · exact Eq.refl _

theorem placeDone (s : State) (k : Nat) (out : Option EgItem) : s.StoresOnly (s.placeDone k out) := Eq.refl _

theorem unpins (s : State) (l : List Nat) : s.StoresOnly (forEach l (fun i s => s.unpin i) s) :=
  forEach_rel refl trans (fun i s => unpin s i) l s

end State.StoresOnly

/-- What the end of a task in thread `t` does outside its thread (R41, R43): the lock, the pins and the place are given up,
and a packet still held is counted. -/
def State.giveUp (s : State) (t : Nat) (k : Task) (fault : Bool) : State :=
  let th := s.thread t
  let s := { s with hts := { s.hts with locks := s.hts.locks.filter (fun l => l.2.2 != t) } }
  let s := forEach (th.cpin.toList ++ th.pins) (fun i s => s.unpin i) s
  let s := if k.ordered && !th.ordr then s.placeDone k.id none else s
  match th.held with
  | none => s
  | some _ => if fault then s.bump F.YCU_FAULT_DROPS_COUNT 1 else s.bump F.YCU_NOEMIT_DROPS_COUNT 1

/-- A thread whose task has ended: idle, with nothing of the task. -/
def Thread.ended (th : Thread) : Thread := { th with
  task := none, held := none, cpin := none, pins := [], ordr := false, instrs := 0,
  slots := [.empty, .empty, .empty, .empty], st := .idle }

theorem State.storesOnly_giveUp (s : State) (t : Nat) (k : Task) (fault : Bool) : s.StoresOnly (s.giveUp t k fault) := by
  unfold State.giveUp
  have locks : s.StoresOnly { s with hts := { s.hts with locks := s.hts.locks.filter (fun l => l.2.2 != t) } } := Eq.refl _
  have pins := locks.trans (StoresOnly.unpins _ ((s.thread t).cpin.toList ++ (s.thread t).pins))
  dsimp only
  generalize forEach _ _ _ = u at pins ⊢
  have place : s.StoresOnly (if k.ordered && !(s.thread t).ordr then u.placeDone k.id none else u) := by
    split
    · exact pins.trans (.placeDone _ _ _)
    · exact pins
  split
  · exact place
  · split <;> exact place.trans (.bump _ _ _)

theorem State.endTask_none {s : State} {t : Nat} (h : (s.thread t).task = none) (fault : Bool) : s.endTask t fault = s := by
  rw [State.endTask, h]

theorem State.endTask_some {s : State} {t : Nat} {k : Task} (h : (s.thread t).task = some k) (fault : Bool) :
    s.endTask t fault = (s.giveUp t k fault).setThread t (s.thread t).ended := by
  rw [← (s.storesOnly_giveUp t k fault).thread t, State.endTask, h]
  rfl

/-- Ending a task changes its thread, to `x`, and nothing else but registers and the stores. -/
theorem State.endTask_cases (s : State) (t : Nat) (fault : Bool) : s.endTask t fault = s ∨
    ∃ u x, s.StoresOnly u ∧ s.endTask t fault = u.setThread t x ∧ x.pc = (s.thread t).pc := by
  cases h : (s.thread t).task with
  | none => exact .inl (State.endTask_none h fault)
  | some k => exact .inr ⟨_, _, s.storesOnly_giveUp t k fault, State.endTask_some h fault, rfl⟩

/-- What halting a thread keeps: registers, packet windows, memories, and the thread's pc (R43). -/
theorem State.haltThread_keeps (s : State) (t : Nat) : (s.haltThread t).yal.g = s.yal.g ∧ (s.haltThread t).yal.pw = s.yal.pw ∧
    (s.haltThread t).gm = s.gm ∧ ((s.haltThread t).thread t).st = .halt ∧ ((s.haltThread t).thread t).pc = (s.thread t).pc := by
  rcases s.endTask_cases t true with h | ⟨u, x, hu, h, hpc⟩ <;> rw [State.haltThread, h]
  · refine ⟨rfl, rfl, rfl, ?_, ?_⟩ <;> simp
  · refine ⟨(congrArg Yalvo.g hu.yal :), (congrArg Yalvo.pw hu.yal :), hu.gm, ?_, ?_⟩ <;> simp [hpc]

@[simp] theorem State.quiet_haltThread (s : State) (t : Nat) : (s.haltThread t).quiet = s.quiet := by
  rcases s.endTask_cases t true with h | ⟨u, x, hu, h, -⟩ <;> rw [State.haltThread, h]
  · rfl
  · exact hu.quiet

/-! ### How an instruction that issues ends -/

/-- A thread's register fields are not limited (R58), so an instruction that issues there does so whatever its fields. -/
theorem Issues.of_thread {s : State} {i : Issue} {pr : Profile} {regs : List (BitVec 5)} {t : Fin 512} (hw : i.who = .thr t)
    (h : Issues s i pr regs) (regs' : List (BitVec 5)) : Issues s i pr regs' := by
  obtain ⟨hq, hcan, hbudget, hfetch, hlegal⟩ := h
  exact ⟨hq, hcan, hbudget, hfetch, by rw [hw] at hlegal ⊢; exact hlegal⟩

section
variable {c : Instr} {s u : State} {i : Issue} {pr : Profile} {regs : List (BitVec 5)} {body : State → Flow}
  (hc : exec c s = done (s.issue i pr regs body)) (h : Issues s i pr regs)
include hc h

theorem completes_next (hb : body (s.countInstr i.who) = .next u) (hpc : u.pcOf i.who = s.pcOf i.who) (hq : u.quiet = true) :
    Completes c s (s.advance u i) := by
  refine completes_of hc ?_ (State.quiet_setPc _ _ hq)
  rw [State.issue_eq h, hb, State.finish, hpc, State.advance]

theorem completes_stay (hb : body (s.countInstr i.who) = .stay u) (hq : u.quiet = true) : Completes c s u :=
  completes_of hc (by rw [State.issue_eq h, hb, State.finish]) hq

/-- A thread that takes an exception halts, and the cluster's source of its kind is counted (R43, R44). -/
theorem completes_exception {t : Fin 512} {e : Exc} (hw : i.who = .thr t) (hb : body (s.countInstr i.who) = .exc e)
    (hn : ((s.countInstr i.who).haltThread t.val).countsOnly (384 + 4 * (t.val / 32) + e.kind) = true) :
    Completes c s (((s.countInstr i.who).haltThread t.val).counted (384 + 4 * (t.val / 32) + e.kind)) := by
  rw [State.issue_eq h, hb, State.finish, hw] at hc
  rw [hw] at hn ⊢
  exact completes_of_raise hc rfl (by simp [h.quiet]) hn

end

/-! ### What stays inside the units -/

/-- Nothing but the state of the units has changed. -/
def State.UnitsOnly (s u : State) : Prop := u = { s with yal := u.yal }

namespace State.UnitsOnly

variable {s t u : State}

theorem refl (s : State) : s.UnitsOnly s := Eq.refl s

theorem trans (h : s.UnitsOnly t) (h' : t.UnitsOnly u) : s.UnitsOnly u := by
  unfold State.UnitsOnly at *
  rw [h'] at *
  rw [h]

theorem eq (h : s.UnitsOnly u) : u = { s with yal := u.yal } := h
theorem regs (h : s.UnitsOnly u) : u.regs = s.regs := (congrArg State.regs h.eq :)
theorem gm (h : s.UnitsOnly u) : u.gm = s.gm := (congrArg State.gm h.eq :)
theorem xm (h : s.UnitsOnly u) : u.xm = s.xm := (congrArg State.xm h.eq :)
theorem sd (h : s.UnitsOnly u) : u.sd = s.sd := (congrArg State.sd h.eq :)
theorem hts (h : s.UnitsOnly u) : u.hts = s.hts := (congrArg State.hts h.eq :)
theorem quiet (h : s.UnitsOnly u) : u.quiet = s.quiet :=
  State.quiet_congr (congrArg State.raised h.eq :) (congrArg State.seqs h.eq :)

theorem setThread (s : State) (t : Nat) (x : Thread) : s.UnitsOnly (s.setThread t x) := Eq.refl _

theorem countInstr (s : State) (w : Issuer) : s.UnitsOnly (s.countInstr w) := by cases w <;> exact Eq.refl _

theorem setReg (s : State) (x r : Nat) (v : DWord) : s.UnitsOnly (s.setReg x r v) := by
  unfold State.setReg
  split <;> exact Eq.refl _

theorem setRegs (s : State) (x r : Nat) (l : List DWord) : s.UnitsOnly (s.setRegs x r l) := by
  induction l generalizing s r with
  | nil => exact refl s
  | cons v l ih => exact (setReg s x r v).trans (ih _ _)

end State.UnitsOnly

/-! ### Threads after an instruction was counted -/

@[simp] theorem State.thread_countInstr (s : State) (t : Fin 512) : (s.countInstr (.thr t)).thread t.val
    = { s.thread t.val with instrs := (s.thread t.val).instrs + 1 } :=
  (s.issued (.thr t)).thread_setThread_self t.val _

@[simp] theorem State.countInstr_regs (s : State) (w : Issuer) : (s.countInstr w).regs = s.regs := by cases w <;> rfl
@[simp] theorem State.countInstr_gm (s : State) (w : Issuer) : (s.countInstr w).gm = s.gm := by cases w <;> rfl
@[simp] theorem State.countInstr_xm (s : State) (w : Issuer) : (s.countInstr w).xm = s.xm := by cases w <;> rfl
@[simp] theorem State.countInstr_sd (s : State) (w : Issuer) : (s.countInstr w).sd = s.sd := by cases w <;> rfl
@[simp] theorem State.countInstr_hts (s : State) (w : Issuer) : (s.countInstr w).hts = s.hts := by cases w <;> rfl
@[simp] theorem State.countInstr_ept (s : State) (w : Issuer) : (s.countInstr w).ept = s.ept := by cases w <;> rfl
@[simp] theorem State.countInstr_cip (s : State) (w : Issuer) : (s.countInstr w).cip = s.cip := by cases w <;> rfl
@[simp] theorem State.countInstr_recirc (s : State) (w : Issuer) : (s.countInstr w).recirc = s.recirc := by cases w <;> rfl
@[simp] theorem State.countInstr_g (s : State) (w : Issuer) : (s.countInstr w).yal.g = s.yal.g := by cases w <;> rfl
@[simp] theorem State.countInstr_lm (s : State) (w : Issuer) : (s.countInstr w).yal.lm = s.yal.lm := by cases w <;> rfl
@[simp] theorem State.countInstr_cm (s : State) (w : Issuer) : (s.countInstr w).yal.cm = s.yal.cm := by cases w <;> rfl
@[simp] theorem State.countInstr_pw (s : State) (w : Issuer) : (s.countInstr w).yal.pw = s.yal.pw := by cases w <;> rfl
@[simp] theorem State.countInstr_arriving (s : State) (w : Issuer) : (s.countInstr w).yal.arriving = s.yal.arriving := by cases w <;> rfl

@[simp] theorem State.setThread_g (s : State) (t : Nat) (x : Thread) : (s.setThread t x).yal.g = s.yal.g := rfl
@[simp] theorem State.setThread_lm (s : State) (t : Nat) (x : Thread) : (s.setThread t x).yal.lm = s.yal.lm := rfl
@[simp] theorem State.setThread_cm (s : State) (t : Nat) (x : Thread) : (s.setThread t x).yal.cm = s.yal.cm := rfl
@[simp] theorem State.setThread_pw (s : State) (t : Nat) (x : Thread) : (s.setThread t x).yal.pw = s.yal.pw := rfl
@[simp] theorem State.setThread_arriving (s : State) (t : Nat) (x : Thread) : (s.setThread t x).yal.arriving = s.yal.arriving := rfl

/-! ### What an issuer that goes on leaves alone -/

@[simp] theorem State.advance_regs (s u : State) (i : Issue) : (s.advance u i).regs = u.regs := by
  unfold State.advance State.setPc
  split <;> rfl

@[simp] theorem State.advance_gm (s u : State) (i : Issue) : (s.advance u i).gm = u.gm := by
  unfold State.advance State.setPc
  split <;> rfl

@[simp] theorem State.advance_xm (s u : State) (i : Issue) : (s.advance u i).xm = u.xm := by
  unfold State.advance State.setPc
  split <;> rfl

@[simp] theorem State.advance_sd (s u : State) (i : Issue) : (s.advance u i).sd = u.sd := by
  unfold State.advance State.setPc
  split <;> rfl

@[simp] theorem State.advance_g (s u : State) (i : Issue) : (s.advance u i).yal.g = u.yal.g := by
  unfold State.advance State.setPc
  split <;> rfl

@[simp] theorem State.advance_lm (s u : State) (i : Issue) : (s.advance u i).yal.lm = u.yal.lm := by
  unfold State.advance State.setPc
  split <;> rfl

@[simp] theorem State.advance_cm (s u : State) (i : Issue) : (s.advance u i).yal.cm = u.yal.cm := by
  unfold State.advance State.setPc
  split <;> rfl

@[simp] theorem State.advance_pw (s u : State) (i : Issue) : (s.advance u i).yal.pw = u.yal.pw := by
  unfold State.advance State.setPc
  split <;> rfl

theorem State.thread_advance {i : Issue} {t : Fin 512} (hw : i.who = .thr t) (s u : State) :
    (s.advance u i).thread t.val = { u.thread t.val with pc := ((s.thread t.val).pc + 4) % 0x10000 } := by
  rw [State.advance, hw, State.setPc, State.thread_setThread_self]
  rfl

@[simp] theorem State.thread_close (s : State) (t : Nat) : s.close.thread t = s.thread t := by
  rw [State.thread, State.thread, s.close_yal]

theorem State.pcOf_thread {i : Issue} {t : Fin 512} (hw : i.who = .thr t) (s : State) : s.pcOf i.who = (s.thread t.val).pc := by
  rw [hw]
  rfl

/-! ### Values of loads (R66) -/

@[simp] theorem overlay_nil (a : Nat) (bs : List Byte) : overlay [] a bs = bs := by
  induction bs generalizing a with
  | nil => rfl
  | cons b bs ih => simp [overlay, ih]

theorem loadValue_signed (bs : List Byte) :
    loadValue bs true = (BitVec.ofNat (8 * bs.length) (leNat bs)).signExtend 64 := by
  rw [loadValue, if_pos rfl, BitVec.signExtend, BitVec.toInt_eq_toNat_cond, BitVec.toNat_ofNat, signed]
  congr 1
  split_ifs <;> push_cast <;> omega

end Sys2Proof.Machine
end

section
/-! The statements Exceptions, LoadsAndStores and FencesAndReturns: what takes an exception halts its thread, a good access
reads or changes its bytes, and what a store buffer, a fence and a returning load do. -/

namespace Sys2Proof.Machine

/-! ### The address checks (R33) -/

@[simp] theorem State.accessCheck_countInstr (s : State) (w x : Issuer) (sp a n : Nat) (st : Bool) :
    (s.countInstr w).accessCheck x sp a n st = s.accessCheck x sp a n st := by
  cases w <;> rfl

section
variable {s : State} {i : Issue} {ga : BitVec 5} {off : BitVec 14} {n : Nat} (ha : s.addrOf i ga off % n = 0) (st : Bool)
include ha

theorem accessCheck_lm {t : Fin 512} (hw : i.who = .thr t) (hn : s.addrOf i ga off + n ≤ 0x10000) :
    s.accessCheck i.who 0 (s.addrOf i ga off) n st = none := by
  simp [State.accessCheck, hw, ha, State.spaceSize, hn]

theorem accessCheck_pastLm {t : Fin 512} (hw : i.who = .thr t) (hn : 0x10000 < s.addrOf i ga off + n) :
    s.accessCheck i.who 0 (s.addrOf i ga off) n st = some .space := by
  simp [State.accessCheck, hw, ha, State.spaceSize, hn]

theorem accessCheck_sd {q : Fin 4} (hw : i.who = .seq q) (hn : s.addrOf i ga off + n ≤ 0x4000) :
    s.accessCheck i.who 0 (s.addrOf i ga off) n st = none := by
  simp [State.accessCheck, hw, ha, hn]

end

/-! ### Exceptions (R43, R44, R58) -/

section
variable {s : State} {i : Issue} {t : Fin 512} (hw : i.who = .thr t)
  (hn : ((s.countInstr i.who).haltThread t.val).countsOnly (384 + 4 * (t.val / 32)) = true)
include hw hn

theorem completes_illegal {regs : List (BitVec 5)} (h : Issues s i .both regs) :
    Completes (.illegalInstruction i) s (((s.countInstr i.who).haltThread t.val).counted (384 + 4 * (t.val / 32))) :=
  completes_exception (e := .illegal) rfl (h.of_thread hw []) hw rfl hn

theorem completes_jr_misaligned {ga : BitVec 5} (h : Issues s i .both [ga]) (ha : (s.val i ga).toNat % 4 ≠ 0) :
    Completes (.jr i ga) s (((s.countInstr i.who).haltThread t.val).counted (384 + 4 * (t.val / 32))) := by
  rw [State.val] at ha
  exact completes_exception (e := .align) rfl h hw (by simp [ha]) hn

theorem completes_store_pastLm {gd ga : BitVec 5} {off : BitVec 14} {n : Nat} {c : Instr}
    (hc : exec c s = done (s.store i gd ga 0 off n)) (h : Issues s i .both [gd, ga])
    (ha : s.addrOf i ga off % n = 0) (hp : 0x10000 < s.addrOf i ga off + n) :
    Completes c s (((s.countInstr i.who).haltThread t.val).counted (384 + 4 * (t.val / 32))) := by
  have check := accessCheck_pastLm ha true hw hp
  rw [State.addrOf, State.val] at check
  exact completes_exception (e := .space) hc h hw (by simp [check]) hn

end

/-- Settles O3: each of the three takes an exception, and halting a thread keeps its registers, window and pc. -/
theorem exceptions : Obligations.Exceptions := by
  unfold Obligations.Exceptions
  refine ⟨fun t i ga s hw h hn => ⟨completes_illegal hw hn h, completes_jr_misaligned hw hn h⟩,
    fun t i gd ga off s hw h ha hp hn => completes_store_pastLm hw hn rfl h ha hp, fun t s => s.haltThread_keeps t⟩

/-! ### Loads (R66) -/

/-- The load instructions of `n` bytes, sign-extended or not, return their bytes' number as `ext` extends it. -/
def IsLoad (mk : Issue → BitVec 5 → BitVec 5 → Fin 4 → BitVec 14 → Check → Instr) (n : Nat) (ext : Nat → DWord) : Prop :=
  ∃ sgn, (∀ i gd ga sp off k s, exec (mk i gd ga sp off k) s = done (s.load i gd ga sp.val off n sgn k)) ∧
    ∀ m a, loadValue (memBytes m a n) sgn = ext (memNat m a n)

theorem isLoad_signed {mk : Issue → BitVec 5 → BitVec 5 → Fin 4 → BitVec 14 → Check → Instr} {n : Nat}
    (h : ∀ i gd ga sp off k s, exec (mk i gd ga sp off k) s = done (s.load i gd ga sp.val off n true k)) :
    IsLoad mk n (fun v => (BitVec.ofNat (8 * n) v).signExtend 64) :=
  ⟨true, h, fun m a => by rw [loadValue_signed, memBytes_length, memNat]⟩

theorem isLoad_unsigned {mk : Issue → BitVec 5 → BitVec 5 → Fin 4 → BitVec 14 → Check → Instr} {n : Nat}
    (h : ∀ i gd ga sp off k s, exec (mk i gd ga sp off k) s = done (s.load i gd ga sp.val off n false k)) :
    IsLoad mk n (BitVec.ofNat 64) :=
  ⟨false, h, fun _ _ => rfl⟩

section
variable {mk : Issue → BitVec 5 → BitVec 5 → Fin 4 → BitVec 14 → Check → Instr} {n : Nat} {ext : Nat → DWord}
  (hmk : IsLoad mk n ext)
include hmk

theorem loadsLm : LoadsLm mk n ext := by
  obtain ⟨sgn, hc, hext⟩ := hmk
  intro t i gd ga off s hw h hown ha hn
  have check := accessCheck_lm ha false hw hn
  rw [State.addrOf, State.val] at check
  refine completes_next (hc ..) h ?_ (by simp) (by simp [h.quiet])
  simp only [hw] at check ⊢
  simp only [State.reg_countInstr, State.accessCheck_countInstr, Fin.val_zero, check, State.thread_countInstr, hown, overlay_nil,
    if_true, reduceCtorEq, if_false]
  rw [← hext, State.addrOf, State.val, hw]
  rfl

theorem loadsSd : LoadsSd mk n ext := by
  obtain ⟨sgn, hc, hext⟩ := hmk
  intro q i gd ga off s hw h ha hn
  have check := accessCheck_sd ha false hw hn
  rw [State.addrOf, State.val] at check
  refine completes_next (hc ..) h ?_ (by simp) (by simp [h.quiet])
  simp only [hw] at check ⊢
  simp only [State.reg_countInstr, State.accessCheck_countInstr, Fin.val_zero, check, reduceCtorEq, if_false]
  rw [← hext, State.addrOf, State.val, hw]
  rfl

end

/-! ### Stores (R35, R66) -/

theorem natLe_length (v n : Nat) : (natLe v n).length = n := by
  induction n generalizing v with
  | zero => rfl
  | succ n ih => simp [natLe, ih]

theorem natLe_getElem (v n k : Nat) (h : k < (natLe v n).length) : (natLe v n)[k] = byteOf v k := by
  induction n generalizing v k with
  | zero => simp [natLe] at h
  | succ n ih =>
    cases k with
    | zero => simp [natLe, byteOf]
    | succ k =>
      simp only [natLe, List.getElem_cons_succ, ih, byteOf]
      rw [Nat.div_div_eq_div_mul, Nat.pow_succ']

/-- A store changes exactly the bytes it names. -/
theorem stored_memPutBytes (m : Mem) (a n v : Nat) : Stored m (memPutBytes m a (natLe v n)) a n v := by
  refine ⟨fun k hk => ?_, fun x hx => memByte_memPutBytes_out _ _ _ _ (by rwa [natLe_length])⟩
  rw [memByte_memPutBytes_in _ _ _ _ (by rwa [natLe_length]), natLe_getElem]

theorem Completes.answers {c : Instr} {s u : State} {P : State → Prop} (h : Completes c s u) (hP : P u.close) :
    Answers c s P := ⟨_, h, hP⟩

/-- The store instructions of `n` bytes. -/
def IsStore (mk : Issue → BitVec 5 → BitVec 5 → Fin 4 → BitVec 14 → Instr) (n : Nat) : Prop :=
  ∀ i gd ga sp off s, exec (mk i gd ga sp off) s = done (s.store i gd ga sp.val off n)

section
variable {mk : Issue → BitVec 5 → BitVec 5 → Fin 4 → BitVec 14 → Instr} {n : Nat} (hmk : IsStore mk n)
include hmk

theorem storesLm : StoresLm mk n := by
  intro t i gd ga off s hw h ha hn
  have check := accessCheck_lm ha true hw hn
  have stores : Completes (mk i gd ga 0 off) s (s.advance ((s.countInstr (.thr t)).spacePut (unitOf t.val) 0
      (s.addrOf i ga off) (storeBytes (s.val i gd) n)) i) := by
    simp only [State.addrOf, State.val, hw] at check ⊢
    refine completes_next (hmk ..) h ?_ ?_ h.quiet
    · simp only [hw, State.reg_countInstr, State.accessCheck_countInstr, Fin.val_zero, check, if_true]
    · simp only [State.pcOf_thread hw]
      exact (congrArg Thread.pc (s.thread_countInstr t) :)
  refine stores.answers ⟨?_, ?_⟩
  · rw [State.close_yal, State.advance_lm]
    exact stored_memPutBytes _ _ _ _
  · simp [State.spacePut, State.pcOf_thread hw, State.thread_advance hw]

theorem storesLater : StoresLater mk n := by
  intro t i gd ga sp off s hw h hsp check hlen
  have hsp' : sp.val ≠ 0 := fun e => hsp (Fin.ext e)
  have stores : Completes (mk i gd ga sp off) s (s.advance ((s.countInstr (.thr t)).setThread t.val
      { (s.countInstr (.thr t)).thread t.val with
        sbuf := (s.thread t.val).sbuf ++ [⟨sp.val, s.addrOf i ga off, storeBytes (s.val i gd) n⟩] }) i) := by
    simp only [State.addrOf, State.val, hw] at check ⊢
    refine completes_next (hmk ..) h ?_ ?_ h.quiet
    · simp only [hw, State.reg_countInstr, State.accessCheck_countInstr, check, hsp', hlen, State.thread_countInstr, if_true, if_false]
    · simp only [State.pcOf_thread hw]
      simp
  refine stores.answers ⟨?_, ?_⟩
  · rw [State.thread_close, State.thread_advance hw, State.thread_setThread_self]
    rfl
  · simp [State.pcOf_thread hw, State.thread_advance hw]

end

/-- Settles O4: each instruction is a load or a store of its size, and the loads' and stores' rules hold of every size. -/
theorem loadsAndStores : Obligations.LoadsAndStores := by
  unfold Obligations.LoadsAndStores
  exact ⟨loadsLm (isLoad_unsigned fun _ _ _ _ _ _ _ => rfl), loadsLm (isLoad_unsigned fun _ _ _ _ _ _ _ => rfl),
    loadsLm (isLoad_unsigned fun _ _ _ _ _ _ _ => rfl), loadsLm (isLoad_unsigned fun _ _ _ _ _ _ _ => rfl),
    loadsLm (isLoad_signed fun _ _ _ _ _ _ _ => rfl), loadsLm (isLoad_signed fun _ _ _ _ _ _ _ => rfl),
    loadsLm (isLoad_signed fun _ _ _ _ _ _ _ => rfl),
    loadsSd (isLoad_unsigned fun _ _ _ _ _ _ _ => rfl), loadsSd (isLoad_unsigned fun _ _ _ _ _ _ _ => rfl),
    loadsSd (isLoad_unsigned fun _ _ _ _ _ _ _ => rfl), loadsSd (isLoad_unsigned fun _ _ _ _ _ _ _ => rfl),
    loadsSd (isLoad_signed fun _ _ _ _ _ _ _ => rfl), loadsSd (isLoad_signed fun _ _ _ _ _ _ _ => rfl),
    loadsSd (isLoad_signed fun _ _ _ _ _ _ _ => rfl),
    storesLm fun _ _ _ _ _ _ => rfl, storesLm fun _ _ _ _ _ _ => rfl, storesLm fun _ _ _ _ _ _ => rfl,
    storesLm fun _ _ _ _ _ _ => rfl, storesLater fun _ _ _ _ _ _ => rfl, storesLater fun _ _ _ _ _ _ => rfl,
    storesLater fun _ _ _ _ _ _ => rfl, storesLater fun _ _ _ _ _ _ => rfl⟩

/-! ### Fences (R36, R37) -/

section
variable {s : State} {i : Issue} {t : Fin 512} (hw : i.who = .thr t) (h : Issues s i .p [])
include hw h

theorem goesTo_fenceD (hb : (s.thread t.val).sbuf = []) : GoesTo (.fenceD i) i s (s.pcOf i.who + 4) := by
  refine completes_next (u := s.countInstr i.who) rfl h ?_ (s.pcOf_countInstr _) (by simp [h.quiet])
  simp [hw, hb]

theorem completes_fenceD (hb : (s.thread t.val).sbuf ≠ []) : Completes (.fenceD i) s
    ((s.countInstr i.who).setThread t.val { (s.countInstr i.who).thread t.val with st := .wait .fenceD }) := by
  refine completes_stay rfl h ?_ (by simp [h.quiet])
  simp [hw, hb]

theorem completes_fenceX : Completes (.fenceX i) s
    (s.advance ((s.countInstr i.who).dropLines (fun l => l.unit == t.val / 8 && l.space == 3)) i) := by
  refine completes_next rfl h ?_ ?_ ((s.quiet_countInstr i.who).trans h.quiet)
  · simp only [hw]
    rfl
  · exact s.pcOf_countInstr i.who

end

/-! ### Stores leaving the buffer, and loads returning (R29, R35) -/

/-- The state after the oldest store of thread `t` has reached its home memory (R35). -/
def State.storedHome (s : State) (t : Nat) (e : StoreEnt) : State :=
  if e.space = 1 then { s with yal := { s.yal with cm := memPutBytes s.yal.cm (0x100000 * (t / 32) + e.addr) e.bytes } }
  else if e.space = 2 then { s with gm := memPutBytes s.gm e.addr e.bytes }
  else { s with xm := memPutBytes s.xm e.addr e.bytes }

theorem State.thread_storedHome (s : State) (t u : Nat) (e : StoreEnt) : (s.storedHome t e).thread u = s.thread u := by
  unfold State.storedHome
  split_ifs <;> rfl

theorem State.quiet_storedHome (s : State) (t : Nat) (e : StoreEnt) : (s.storedHome t e).quiet = s.quiet := by
  unfold State.storedHome
  split_ifs <;> rfl

theorem State.spacePut_eq_storedHome (s : State) (t : Nat) {e : StoreEnt} (h : e.space ≠ 0) :
    s.spacePut (unitOf t) e.space e.addr e.bytes = s.storedHome t e := by
  rw [State.spacePut, if_neg h, State.storedHome, unitOf, Nat.div_div_eq_div_mul]

theorem State.dropCache_nil {s : State} (h : s.yal.dcache = []) : { s with yal := { s.yal with dcache := [] } } = s := by
  rw [← h]

/-- Where no data cache holds a line, a store that leaves the buffer reaches its home memory and changes nothing else. -/
theorem State.storeLand_uncached {s : State} (hd : s.yal.dcache = []) (t : Nat) {e : StoreEnt} (h : e.space ≠ 0) :
    s.storeLand t e = s.storedHome t e := by
  have hd' : (s.storedHome t e).yal.dcache = [] := by
    unfold State.storedHome
    split_ifs <;> exact hd
  rw [State.storeLand, State.spacePut_eq_storedHome s t h]
  simp only [hd', List.map_nil, List.filter_nil]
  exact State.dropCache_nil hd'

section
variable {t : Fin 512} {e : StoreEnt} {rest : List StoreEnt} {s : State} (hq : s.quiet = true)
  (hb : (s.thread t.val).sbuf = e :: rest) (hd : s.yal.dcache = [])
  (hsp : e.space = 1 ∨ e.space = 2 ∨ e.space = 3 ∧ s.xmDead = false)
include hb hd hsp

theorem State.drainStore_eq : s.drainStore t = (s.storedHome t.val e).setThread t.val
    (match (s.thread t.val).st with
      | .wait (.store w) => { s.thread t.val with
          sbuf := rest ++ [w], st := .run, pc := ((s.thread t.val).pc + 4) % 0x10000 }
      | .wait .fenceD => if rest = [] then { s.thread t.val with
          sbuf := rest, st := .run, pc := ((s.thread t.val).pc + 4) % 0x10000 } else { s.thread t.val with sbuf := rest }
      | _ => { s.thread t.val with sbuf := rest }) := by
  have lands : ¬ (e.space = 3 ∧ s.xmDead = true) := by
    rintro ⟨h3, hx⟩
    rcases hsp with h | h | ⟨-, h⟩
    · omega
    · omega
    · exact absurd (h.symm.trans hx) (by decide)
  rw [State.drainStore, hb]
  simp only [if_neg lands, State.storeLand_uncached hd t.val (show e.space ≠ 0 by omega), State.thread_storedHome]
  split <;> rename_i hst <;> simp only [hst]
  split <;> rfl

include hq

theorem completes_drain_running (h : (s.thread t.val).st = .run) : Completes (.storeBufferDrain t) s
    ((s.storedHome t.val e).setThread t.val { s.thread t.val with sbuf := rest }) := by
  refine completes_of rfl ?_ ((s.quiet_storedHome t.val e).trans hq)
  rw [State.drainStore_eq hb hd hsp, h]

theorem completes_drain_fence (h : (s.thread t.val).st = .wait .fenceD) (hr : rest = []) : Completes (.storeBufferDrain t) s
    ((s.storedHome t.val e).setThread t.val { s.thread t.val with
      sbuf := rest, st := .run, pc := ((s.thread t.val).pc + 4) % 0x10000 }) := by
  refine completes_of rfl ?_ ((s.quiet_storedHome t.val e).trans hq)
  rw [State.drainStore_eq hb hd hsp, h]
  simp only [hr, if_true]

theorem completes_drain_store {w : StoreEnt} (h : (s.thread t.val).st = .wait (.store w)) :
    Completes (.storeBufferDrain t) s ((s.storedHome t.val e).setThread t.val { s.thread t.val with
      sbuf := rest ++ [w], st := .run, pc := ((s.thread t.val).pc + 4) % 0x10000 }) := by
  refine completes_of rfl ?_ ((s.quiet_storedHome t.val e).trans hq)
  rw [State.drainStore_eq hb hd hsp, h]

end

section
variable {t : Fin 512} {gd a n : Nat} {sgn : Bool} {s : State} (hq : s.quiet = true)
  (hst : (s.thread t.val).st = .wait (.load gd 2 a n sgn []))
include hq hst

/-- The data of a GM load reaches its register, and the thread goes on (R29). -/
theorem completes_loadResult : Completes (.loadResult t .good) s ((s.setReg t.val gd
    (if sgn = true then (BitVec.ofNat (8 * n) (memNat s.gm a n)).signExtend 64 else BitVec.ofNat 64 (memNat s.gm a n))).setThread
      t.val { s.thread t.val with st := .run, pc := ((s.thread t.val).pc + 4) % 0x10000 }) := by
  have value : loadValue (memBytes s.gm a n) sgn
      = if sgn = true then (BitVec.ofNat (8 * n) (memNat s.gm a n)).signExtend 64 else BitVec.ofNat 64 (memNat s.gm a n) := by
    cases sgn
    · rfl
    · rw [loadValue_signed, memBytes_length]
      rfl
  refine completes_of rfl ?_ (by simp [hq])
  rw [← value, State.loadResult, hst]
  simp only [reduceCtorEq, show ¬ (2 : Nat) = 3 by decide, false_and, or_self, if_false, if_true, overlay_nil, State.corrected,
    State.thread_setReg]
  rfl

theorem completes_loadResult_lasting (hn : (s.haltThread t.val).countsOnly (386 + 4 * (t.val / 32)) = true) :
    Completes (.loadResult t .lasting) s ((s.haltThread t.val).counted (386 + 4 * (t.val / 32))) := by
  have source : 384 + 4 * clusterOf t.val + Exc.ecc.kind = 386 + 4 * (t.val / 32) := by
    show 384 + 4 * (t.val / 32) + 2 = _
    omega
  have halts : s.loadResult t .lasting = (s.haltThread t.val).raise (386 + 4 * (t.val / 32)) := by
    rw [State.loadResult, hst]
    simp only [true_or, if_true, State.exception, source]
  exact completes_of_raise (congrArg done halts) rfl (by simp [hq]) hn

end

/-- Settles O6, from what each of the commands completes in. -/
theorem fencesAndReturns : Obligations.FencesAndReturns := by
  unfold Obligations.FencesAndReturns
  exact ⟨fun t i s hw h => ⟨goesTo_fenceD hw h, completes_fenceD hw h, completes_fenceX hw h⟩,
    fun t e rest s hq hb hd hsp => ⟨completes_drain_running hq hb hd hsp, completes_drain_fence hq hb hd hsp,
      fun w => completes_drain_store hq hb hd hsp⟩,
    fun t gd a n sgn s hq hst => ⟨completes_loadResult hq hst, completes_loadResult_lasting hq hst⟩⟩

end Sys2Proof.Machine
end

section
/-! The statement AcceleratorRequests: requests to the accelerators, and WAITOP (R40, R73, R76 - R78). -/

namespace Sys2Proof.Machine

@[simp] theorem State.slotOf_countInstr (s : State) (t : Fin 512) (k : Nat) :
    (s.countInstr (.thr t)).slotOf t.val k = s.slotOf t.val k := by
  rw [State.slotOf, State.thread_countInstr]
  rfl

@[simp] theorem State.slotDest_countInstr (s : State) (t : Fin 512) (k : Nat) :
    (s.countInstr (.thr t)).slotDest t.val k = s.slotDest t.val k := by
  rw [State.slotDest, State.thread_countInstr]
  rfl

theorem State.pcOf_setSlot (s : State) (t : Fin 512) (k : Nat) (v : Slot) :
    (s.setSlot t.val k v).pcOf (.thr t) = s.pcOf (.thr t) := by
  rw [State.pcOf, State.setSlot, State.thread_setThread_self]
  rfl

@[simp] theorem State.on_countInstr (s : State) (w : Issuer) (f : Fld) : (s.countInstr w).on f = s.on f :=
  State.on_congr (s.countInstr_regs w) f

@[simp] theorem State.quiet_arrive (s : State) (d : Dest) (v : Nat) : (s.arrive d v).quiet = s.quiet := rfl

@[simp] theorem State.quiet_queueJob (s : State) (j : Job) : (s.queueJob j).quiet = s.quiet := rfl

/-! ### A job submitted (R345) -/

/-- What becomes of a job with descriptor `d` once its slot is outstanding: it is queued, or a code ends it (R76, R345). -/
def State.submit (s : State) (d : List Byte) (j : Job) (dest : Dest) : State :=
  (if s.badDesc d && !s.on F.CIP_CTL_ALARM then some 5 else s.slotRefusal j.op j.slot useProgram).elim (s.queueJob j)
    (fun c => (s.countCode c).arrive dest (statusWord c 0 0))

section
variable {s u : State} (hu : s.UnitsOnly u) {d : List Byte} {j : Job} {dest : Dest}
include hu

theorem State.submit_eq : u.submit d j dest = (if s.badDesc d && !s.on F.CIP_CTL_ALARM then some 5
    else s.slotRefusal j.op j.slot useProgram).elim (u.queueJob j) (fun c => (u.countCode c).arrive dest (statusWord c 0 0)) := by
  have desc : u.badDesc d = s.badDesc d := by rw [hu.eq]; rfl
  have refusal : u.slotRefusal j.op j.slot useProgram = s.slotRefusal j.op j.slot useProgram := by rw [hu.eq]; rfl
  rw [State.submit, desc, refusal, State.on_congr hu.regs]

theorem State.submit_queued (hd : s.badDesc d = false) (hr : s.slotRefusal j.op j.slot useProgram = none) :
    u.submit d j dest = u.queueJob j := by
  rw [State.submit_eq hu, hd, hr]
  rfl

theorem State.submit_alarm (ha : s.on F.CIP_CTL_ALARM = true) : u.submit d j dest = u.arrive dest 7 := by
  have refusal : s.slotRefusal j.op j.slot useProgram = some 7 := by rw [State.slotRefusal, if_pos ha]
  rw [State.submit_eq hu, ha, Bool.not_true, Bool.and_false, refusal]
  rfl

theorem State.submit_unloaded (hd : s.badDesc d = false) (hr : s.slotRefusal j.op j.slot useProgram = some 3) :
    u.submit d j dest = (u.bump F.CIP_CNT2_REFUSED 1).arrive dest 3 := by
  rw [State.submit_eq hu, hd, hr]
  rfl

theorem State.submit_halted (hd : s.badDesc d = false) (hr : s.slotRefusal j.op j.slot useProgram = some 6) :
    u.submit d j dest = (u.bump F.CIP_CNT2_MEMERR 1).arrive dest 6 := by
  rw [State.submit_eq hu, hd, hr]
  rfl

end

theorem State.submit_some {s : State} {d : List Byte} {j : Job} {dest : Dest} {c : Nat}
    (h : (if s.badDesc d && !s.on F.CIP_CTL_ALARM then some 5 else s.slotRefusal j.op j.slot useProgram) = some c) :
    s.submit d j dest = (s.countCode c).arrive dest (statusWord c 0 0) := by
  rw [State.submit, h]
  rfl

theorem State.submit_none {s : State} {d : List Byte} {j : Job} {dest : Dest}
    (h : (if s.badDesc d && !s.on F.CIP_CTL_ALARM then some 5 else s.slotRefusal j.op j.slot useProgram) = none) :
    s.submit d j dest = s.queueJob j := by
  rw [State.submit, h]
  rfl

/-! ### LKUP, PMAT and CIPH with an empty slot -/

section
variable {s : State} {i : Issue} {t : Fin 512} {ga : BitVec 5} {slot : Fin 4} (hw : i.who = .thr t)
  (h : Issues s i .p [ga]) (hslot : s.slotOf t.val slot.val = .empty)
include hw h hslot

theorem completes_lkup {table : Fin 7} (hn : (s.val i ga).toNat + keyLen table.val ≤ 0x10000) :
    let u := (s.countInstr i.who).setSlot t.val slot.val .outstanding
    Completes (.lkup i ga slot table) s (s.advance { u with ept := { u.ept with lookups := s.ept.lookups ++
      [⟨s.slotDest t.val slot.val, table.val,
        memBytes s.yal.lm (0x10000 * (t.val / 8) + (s.val i ga).toNat) (keyLen table.val)⟩] } } i) := by
  rw [State.val] at hn ⊢
  simp only [hw] at hn ⊢
  refine completes_next rfl h ?_ ?_ ((s.quiet_countInstr _).trans h.quiet)
  · simp only [hw, State.reg_countInstr, State.slotOf_countInstr, hslot, State.slotDest_countInstr]
    rw [if_neg (by simp), if_neg (by simpa [issuerNum] using hn)]
    rfl
  · rw [hw]
    exact ((s.countInstr (.thr t)).pcOf_setSlot t slot.val .outstanding).trans (s.pcOf_countInstr _)

theorem completes_pmat {p : Packet} (hp : (s.thread t.val).held = some p) (hn : (s.val i ga).toNat < 2048) :
    let u := (s.countInstr i.who).setSlot t.val slot.val .outstanding
    Completes (.pmat i ga slot) s (s.advance { u with yal := { u.yal with arriving := s.yal.arriving ++
      [⟨s.slotDest t.val slot.val, pmatWord p (s.val i ga).toNat, none⟩] } } i) := by
  rw [State.val] at hn ⊢
  simp only [hw] at hn ⊢
  refine completes_next rfl h ?_ ?_ ((s.quiet_countInstr _).trans h.quiet)
  · simp only [hw, State.reg_countInstr, State.slotOf_countInstr, hslot, State.slotDest_countInstr, State.thread_countInstr, hp]
    rw [if_neg (by simp), if_neg (by simpa [issuerNum] using hn)]
    rfl
  · rw [hw]
    exact ((s.countInstr (.thr t)).pcOf_setSlot t slot.val .outstanding).trans (s.pcOf_countInstr _)

/-- CIPH submits the job of its descriptor, where that reports no source. -/
theorem completes_ciph (hn : (s.val i ga).toNat + 32 ≤ 0x10000) {v : State}
    (hv : ((s.countInstr i.who).setSlot t.val slot.val .outstanding).submit
      (memBytes s.yal.lm (0x10000 * (t.val / 8) + (s.val i ga).toNat) 32)
      (descJob (memBytes s.yal.lm (0x10000 * (t.val / 8) + (s.val i ga).toNat) 32)
        (.program (s.slotDest t.val slot.val) (t.val / 128))) (s.slotDest t.val slot.val) = v)
    (hv' : v.yal.threads = ((s.countInstr i.who).setSlot t.val slot.val .outstanding).yal.threads) (hq : v.quiet = s.quiet) :
    Completes (.ciph i ga slot) s (s.advance v i) := by
  rw [State.val] at hn hv
  refine completes_next rfl h ?_ ?_ (hq.trans h.quiet)
  rotate_left
  · rw [hw] at hv' ⊢
    have : v.pcOf (.thr t) = ((s.countInstr (.thr t)).setSlot t.val slot.val .outstanding).pcOf (.thr t) := by
      rw [State.pcOf, State.pcOf, State.thread, State.thread, hv']
    rw [this, State.pcOf_setSlot, State.pcOf_countInstr]
  simp only [hw] at hn hv ⊢
  simp only [State.reg_countInstr, State.slotOf_countInstr, hslot, State.slotDest_countInstr]
  rw [if_neg (by simp), if_neg (by simpa [issuerNum] using hn), ← hv]
  dsimp only [issuerNum]
  have lm : (s.countInstr (.thr t)).spaceBytes (unitOf t.val) 0 (s.reg t.val ga.toNat).toNat 32
      = memBytes s.yal.lm (0x10000 * (t.val / 8) + (s.reg t.val ga.toNat).toNat) 32 := rfl
  rw [lm]
  dsimp only [regionOf]
  split
  next c code => exact (congrArg Flow.next (State.submit_some code)).symm
  next code => exact (congrArg Flow.next (State.submit_none code)).symm

/-- A request past LM halts the thread; the others are refused for want of a packet or of a match number. -/
theorem completes_request_refused
    (hc : ((s.countInstr i.who).haltThread t.val).countsOnly (384 + 4 * (t.val / 32)) = true) :
    let halted := ((s.countInstr i.who).haltThread t.val).counted (384 + 4 * (t.val / 32))
    (∀ table : Fin 7, 0x10000 < (s.val i ga).toNat + keyLen table.val → Completes (.lkup i ga slot table) s halted) ∧
    (0x10000 < (s.val i ga).toNat + 32 → Completes (.ciph i ga slot) s halted) ∧
    ((s.thread t.val).held = none ∨ 2048 ≤ (s.val i ga).toNat → Completes (.pmat i ga slot) s halted) := by
  have hv : ((s.countInstr i.who).reg t.val ga.toNat).toNat = (s.val i ga).toNat := by
    rw [State.reg_countInstr, State.val, hw]
    rfl
  refine ⟨fun table hn => completes_exception (e := .space) rfl h hw ?_ hc,
    fun hn => completes_exception (e := .space) rfl h hw ?_ hc,
    fun hn => completes_exception (e := .task) rfl h hw ?_ hc⟩
  · simp only [hw] at hv ⊢
    simp only [hv, State.slotOf_countInstr, hslot, ne_eq, not_true_eq_false, hn, if_true, if_false]
  · simp only [hw] at hv ⊢
    simp only [hv, State.slotOf_countInstr, hslot, ne_eq, not_true_eq_false, hn, if_true, if_false]
  · simp only [hw] at hv ⊢
    simp only [hv, State.slotOf_countInstr, hslot, ne_eq, not_true_eq_false, State.thread_countInstr, if_false]
    rcases hn with hn | hn
    · rw [hn]
    · cases (s.thread t.val).held <;> simp [hn]

end

/-- A request on a slot that is not empty halts the thread. -/
theorem completes_slotTaken {s : State} {i : Issue} {t : Fin 512} {ga : BitVec 5} {slot : Fin 4} (hw : i.who = .thr t)
    (h : Issues s i .p [ga]) (hslot : s.slotOf t.val slot.val ≠ .empty)
    (hc : ((s.countInstr i.who).haltThread t.val).countsOnly (384 + 4 * (t.val / 32)) = true) :
    let halted := ((s.countInstr i.who).haltThread t.val).counted (384 + 4 * (t.val / 32))
    Completes (.ciph i ga slot) s halted ∧ Completes (.pmat i ga slot) s halted ∧
      ∀ table : Fin 7, Completes (.lkup i ga slot table) s halted := by
  refine ⟨completes_exception (e := .operand) rfl h hw ?_ hc, completes_exception (e := .operand) rfl h hw ?_ hc,
    fun table => completes_exception (e := .operand) rfl h hw ?_ hc⟩ <;>
  · simp only [hw]
    exact if_pos (by rwa [State.slotOf_countInstr])

/-! ### WAITOP -/

section
variable {s : State} {i : Issue} {t : Fin 512} {gd : BitVec 5} {slot : Fin 4} (hw : i.who = .thr t)
  (h : Issues s i .p [gd])
include hw h

theorem completes_waitop_result {v : DWord} (hv : s.slotOf t.val slot.val = .result v) : Completes (.waitop i gd slot) s
    (s.advance (((s.countInstr i.who).setSlot t.val slot.val .empty).setReg t.val gd.toNat v) i) := by
  refine completes_next rfl h ?_ ?_ ?_
  · simp [hw, hv]
  · rw [State.pcOf_setReg, hw, State.pcOf_setSlot, State.pcOf_countInstr]
  · rw [State.quiet_setReg, State.setSlot, State.quiet_setThread, State.quiet_countInstr, h.quiet]

theorem completes_waitop_outstanding (hv : s.slotOf t.val slot.val = .outstanding) : Completes (.waitop i gd slot) s
    ((s.countInstr i.who).setThread t.val
      { (s.countInstr i.who).thread t.val with st := .wait (.operand gd.toNat slot.val) }) :=
  completes_stay rfl h (by simp [hw, hv]) (by simp [h.quiet])

theorem completes_waitop_empty (hv : s.slotOf t.val slot.val = .empty)
    (hc : ((s.countInstr i.who).haltThread t.val).countsOnly (384 + 4 * (t.val / 32)) = true) :
    Completes (.waitop i gd slot) s (((s.countInstr i.who).haltThread t.val).counted (384 + 4 * (t.val / 32))) :=
  completes_exception (e := .operand) rfl h hw (by simp [hw, hv]) hc

end

/-- Settles O8, from what each instruction completes in. -/
theorem acceleratorRequests : Obligations.AcceleratorRequests := by
  unfold Obligations.AcceleratorRequests
  refine ⟨fun t i ga slot s hw h => ?_, fun t i gd slot s hw h =>
    ⟨fun v => completes_waitop_result hw h, completes_waitop_outstanding hw h, completes_waitop_empty hw h⟩⟩
  have units : s.UnitsOnly ((s.countInstr i.who).setSlot t.val slot.val .outstanding) :=
    (State.UnitsOnly.countInstr s _).trans (.setThread _ _ _)
  refine ⟨fun hslot => ⟨fun table => completes_lkup hw h hslot, fun p hp => completes_pmat hw h hslot hp, fun hn => ?_,
    fun hc => (completes_request_refused hw h hslot hc).1, fun hc => (completes_request_refused hw h hslot hc).2.1,
    fun hc => (completes_request_refused hw h hslot hc).2.2⟩, completes_slotTaken hw h⟩
  refine ⟨fun hd hr => ?_, fun ha => ?_, fun hd hr => ?_, fun hd hr => ?_⟩
  · exact completes_ciph hw h hslot hn (State.submit_queued units hd hr) rfl (by simp [State.quiet_queueJob, units.quiet])
  · exact completes_ciph hw h hslot hn (State.submit_alarm units ha) rfl (by simp [State.quiet_arrive, units.quiet])
  · exact completes_ciph hw h hslot hn (State.submit_unloaded units hd hr) (by simp [State.arrive]) (by simp [State.quiet_arrive, units.quiet])
  · exact completes_ciph hw h hslot hn (State.submit_halted units hd hr) (by simp [State.arrive]) (by simp [State.quiet_arrive, units.quiet])

end Sys2Proof.Machine
end

section
/-! The statement TaskEndAndEgress: YIELD, ORDR without output and EMIT (R41, R79, R80, R82). -/

namespace Sys2Proof.Machine

/-! ### Counters -/

/-- A counter saturates at all ones. -/
@[simp] theorem State.get_bump_self (s : State) (f : Fld) (k : Nat) (h : f.lo ≤ f.hi) :
    (s.bump f k).get f = min (2 ^ (f.hi + 1 - f.lo) - 1) (s.get f + k) := by
  rw [State.bump, State.get_put_self _ _ _ h, Nat.mod_eq_of_lt]
  have := Nat.two_pow_pos (f.hi + 1 - f.lo)
  omega

theorem State.get_bump_ne (s : State) (f g : Fld) (k : Nat)
    (h : f.addr + 4 * (f.hi / 32 + 1) ≤ g.addr ∨ g.addr + 4 * (g.hi / 32 + 1) ≤ f.addr) :
    (s.bump f k).get g = s.get g := State.get_put_ne _ _ _ _ h

/-! ### YIELD -/

/-- Thread `t` holds no lock any more. -/
def State.unlock (s : State) (t : Nat) : State :=
  { s with hts := { s.hts with locks := s.hts.locks.filter (fun l => l.2.2 != t) } }

@[simp] theorem State.unlock_get (s : State) (t : Nat) (f : Fld) : (s.unlock t).get f = s.get f :=
  State.get_congr (s := s.unlock t) (t := s) rfl f
@[simp] theorem State.unlock_hts (s : State) (t : Nat) :
    (s.unlock t).hts = { s.hts with locks := s.hts.locks.filter (fun l => l.2.2 != t) } := rfl
@[simp] theorem State.unlock_yal (s : State) (t : Nat) : (s.unlock t).yal = s.yal := rfl
@[simp] theorem State.unlock_gm (s : State) (t : Nat) : (s.unlock t).gm = s.gm := rfl
@[simp] theorem State.quiet_unlock (s : State) (t : Nat) : (s.unlock t).quiet = s.quiet := rfl

/-- A task without pins and place that ends with a packet gives up its lock and the packet. -/
theorem State.giveUp_packet {s : State} {t : Nat} {k : Task} {p : Packet} (hp : (s.thread t).held = some p)
    (hc : (s.thread t).cpin = none) (hpins : (s.thread t).pins = []) (ho : k.ordered = false) :
    s.giveUp t k false = (s.unlock t).bump F.YCU_NOEMIT_DROPS_COUNT 1 := by
  simp [State.giveUp, State.unlock, hp, hc, hpins, ho, forEach]

theorem completes_yield {s : State} {i : Issue} {t : Fin 512} {k : Task} {p : Packet} (hw : i.who = .thr t)
    (h : Issues s i .p []) (hk : (s.thread t.val).task = some k) (hp : (s.thread t.val).held = some p)
    (hc : (s.thread t.val).cpin = none) (hpins : (s.thread t.val).pins = []) (ho : k.ordered = false) :
    Completes (.yield i) s ((((s.countInstr i.who).unlock t.val).bump F.YCU_NOEMIT_DROPS_COUNT 1).setThread t.val
      ((s.countInstr i.who).thread t.val).ended) := by
  refine completes_stay rfl h ?_ (by simp [h.quiet])
  simp only [hw]
  rw [State.endTask_some (k := k) (by simpa using hk), State.giveUp_packet (p := p) (by simpa using hp)
    (by simpa using hc) (by simpa using hpins) ho]

/-! ### ORDR and EMIT -/

section
variable {s : State} {i : Issue} {t : Fin 512} (hw : i.who = .thr t)
include hw

theorem completes_ordr_none {ga : BitVec 5} {k : Task} (h : Issues s i .p [0, ga]) (hk : (s.thread t.val).task = some k)
    (ho : k.ordered = true) (hord : (s.thread t.val).ordr = false) :
    Completes (.ordr i 0 ga) s (s.advance (((s.countInstr i.who).setThread t.val
      { (s.countInstr i.who).thread t.val with ordr := true }).placeDone k.id none) i) := by
  refine completes_next rfl h ?_ ?_ ((s.quiet_countInstr i.who).trans h.quiet)
  · simp [hw, State.taskNow, hk, ho, hord]
  · simp only [State.pcOf_thread hw]
    rw [(State.StoresOnly.placeDone _ _ _).thread, State.thread_setThread_self, hw, State.thread_countInstr]

section
variable {gd ga : BitVec 5} {p : Packet} (h : Issues s i .p [gd, ga]) (hp : (s.thread t.val).held = some p)
  (hgd : s.val i gd = handleOf p) (hv : validEgWord (egWord (s.val i ga)) p.bytes.length (s.get F.FED_ID_ID) = true)
include h hp hgd hv

/-- EMIT passes the packet with its new head to its egress. -/
theorem completes_emit {v : State} (he : ((s.countInstr i.who).dropHeld t.val).egressPut
      { kind := (egWord (s.val i ga)).kind, target := (egWord (s.val i ga)).target, tc := (egWord (s.val i ga)).tc,
        pkt := rewrite p (memBytes s.yal.pw (512 * t.val) 512) (egWord (s.val i ga)).h (egWord (s.val i ga)).c } = v)
    (hv' : v.yal = ((s.countInstr i.who).dropHeld t.val).yal) (hq : v.quiet = s.quiet) :
    Completes (.emit i gd ga) s (s.advance v i) := by
  have own : (s.countInstr i.who).get F.FED_ID_ID = s.get F.FED_ID_ID := State.get_congr (s.countInstr_regs _) _
  refine completes_next rfl h ?_ ?_ (hq.trans h.quiet)
  · simp only [State.val, hw] at hgd hv he own ⊢
    have passes : (s.countInstr (.thr t)).passOn t.val (s.reg t.val gd.toNat) (s.reg t.val ga.toNat) = some
        { kind := (egWord (s.reg t.val ga.toNat)).kind, target := (egWord (s.reg t.val ga.toNat)).target,
          tc := (egWord (s.reg t.val ga.toNat)).tc, pkt := rewrite p (memBytes s.yal.pw (512 * t.val) 512)
            (egWord (s.reg t.val ga.toNat)).h (egWord (s.reg t.val ga.toNat)).c } := by
      rw [State.passOn, State.thread_countInstr]
      simp only [hp]
      rw [if_pos ⟨hgd, by rwa [own]⟩]
      rfl
    simp only [State.reg_countInstr, passes, ← he]
    rfl
  · rw [State.pcOf_thread hw, State.pcOf_thread hw, State.thread, hv', hw]
    exact (congrArg Thread.pc ((s.countInstr (.thr t)).thread_setThread_self t.val _) :).trans
      (congrArg Thread.pc (s.thread_countInstr t) :)

end

end

theorem State.dropHeld_regs (s : State) (t : Nat) : (s.dropHeld t).regs = s.regs := rfl
theorem State.dropHeld_hts (s : State) (t : Nat) : (s.dropHeld t).hts = s.hts := rfl

theorem State.quiet_dropHeld (s : State) (t : Nat) : (s.dropHeld t).quiet = s.quiet := rfl

/-- The packet joins the queues of the egress. -/
def State.enqueue (s : State) (it : EgItem) : State := { s with hts := { s.hts with egress := s.hts.egress ++ [it] } }

theorem State.get_enqueue (s : State) (it : EgItem) (f : Fld) : (s.enqueue it).get f = s.get f :=
  State.get_congr (s := s.enqueue it) (t := s) rfl f

/-- An egress without MAX queues a packet that its port takes; its level rises, and back pressure follows XOFF (R324, R329). -/
theorem State.egressPut_eq {s : State} {it : EgItem} (hk : it.kind < 6) (hmax : s.get (F.HTS_EG_BP_MAX it.kind) = 0)
    (hd : s.portDrop it = none) : s.egressPut it =
      let u := (s.enqueue it).put (F.HTS_EG_LVL_PKTS it.kind) ((s.enqueue it).get (F.HTS_EG_LVL_PKTS it.kind) + 1)
      if !u.on (F.HTS_EG_BP_ON it.kind)
          && decide (egressPut.max' it.kind u * 256 ≤ u.get (F.HTS_EG_LVL_PKTS it.kind)) then
        (u.put (F.HTS_EG_BP_ON it.kind) 1).raiseSec 371
      else u := by
  rw [State.egressPut, if_neg (by omega), if_neg (by omega)]
  refine (if_neg (by simp [hmax])).trans ?_
  rw [hd]
  rfl

/-- Where the egress already signals back pressure, its level rises and nothing more. -/
theorem State.egressPut_queued {s : State} {it : EgItem} (hk : it.kind < 6) (hmax : s.get (F.HTS_EG_BP_MAX it.kind) = 0)
    (hon : s.get (F.HTS_EG_BP_ON it.kind) = 1) (hd : s.portDrop it = none) : s.egressPut it
      = (s.enqueue it).put (F.HTS_EG_LVL_PKTS it.kind) (s.get (F.HTS_EG_LVL_PKTS it.kind) + 1) := by
  have on : ∀ v, ((s.enqueue it).put (F.HTS_EG_LVL_PKTS it.kind) v).on (F.HTS_EG_BP_ON it.kind) = true := by
    intro v
    rw [State.on, State.get_put_ne _ _ _ _ (by simp only [F.HTS_EG_LVL_PKTS, F.HTS_EG_BP_ON]; omega), State.get_enqueue, hon]
    rfl
  rw [State.egressPut_eq hk hmax hd]
  dsimp only
  rw [on, Bool.not_true, Bool.false_and, if_neg (by simp), State.get_enqueue]

/-- Settles O9, from what each instruction completes in. -/
theorem taskEndAndEgress : Obligations.TaskEndAndEgress := by
  unfold Obligations.TaskEndAndEgress
  refine ⟨fun t i k p s hw h hk hp hc hpins ho => (completes_yield hw h hk hp hc hpins ho).answers ?_,
    fun t i k s hw hk ho hord ga h => completes_ordr_none hw h hk ho hord, fun t i gd ga p s hw h hp hgd hv => ⟨fun hk => ?_,
    fun hk hmax hon hd => ?_⟩⟩
  · have counts : ∀ f, (s.countInstr (.thr t)).get f = s.get f := State.get_congr (s.countInstr_regs _)
    have noemit : (((s.countInstr (.thr t)).unlock t.val).bump F.YCU_NOEMIT_DROPS_COUNT 1).get F.YCU_NOEMIT_DROPS_COUNT
        = min (2 ^ 32 - 1) (s.get F.YCU_NOEMIT_DROPS_COUNT + 1) := by
      rw [State.get_bump_self _ _ _ (by decide), State.unlock_get, counts]
      rfl
    have fault : (((s.countInstr (.thr t)).unlock t.val).bump F.YCU_NOEMIT_DROPS_COUNT 1).get F.YCU_FAULT_DROPS_COUNT
        = s.get F.YCU_FAULT_DROPS_COUNT := by
      rw [State.get_bump_ne _ _ _ _ (by decide), State.unlock_get, counts]
    simp [hw, Thread.ended, noemit, fault]
  · exact completes_emit hw h hp hgd hv (by rw [State.egressPut, if_pos hk]; simp [State.dropHeld]) rfl
      (s.quiet_countInstr _)
  · have regs : ((s.countInstr i.who).dropHeld t.val).regs = s.regs := by
      rw [State.dropHeld_regs, State.countInstr_regs]
    have queue : ((s.countInstr i.who).dropHeld t.val).hts.egress = s.hts.egress := by
      rw [State.dropHeld_hts, State.countInstr_hts]
    have calm : ((s.countInstr i.who).dropHeld t.val).quiet = s.quiet := by rw [State.quiet_dropHeld, State.quiet_countInstr]
    refine completes_emit hw h hp hgd hv ?_ (State.put_yal _ _ _) ((State.quiet_put _ _ _).trans calm)
    have back : ∀ f, ((s.countInstr i.who).dropHeld t.val).get f = s.get f := State.get_congr regs
    rw [State.egressPut_queued hk (by rw [back, hmax]) (by rw [back, hon]) hd, back, State.enqueue, queue]

end Sys2Proof.Machine
end

section
/-! The statement SchedulerCommands: dispatch, ordered release, CLMAP, flush, starvation and the egress thresholds. -/

namespace Sys2Proof.Machine

/-! ### A command of a block that has power -/

theorem State.whenOn_on {s : State} {d : Nat} (h : s.domOn d = true) (f : State → State) : s.whenOn d f = f s := if_pos h

theorem State.whenOn_off {s : State} {d : Nat} (h : s.domOn d = false) (f : State → State) : s.whenOn d f = s := by
  rw [State.whenOn, h]
  rfl

/-- A command whose block keeps the state as it is, or has no power, changes nothing. -/
theorem completes_unchanged {c : Instr} {s : State} {d : Nat} {f : State → State} (hc : exec c s = done (s.whenOn d f))
    (hq : s.quiet = true) (h : s.domOn d = false ∨ f s = s) : Completes c s s := by
  refine completes_of hc ?_ hq
  rcases hd : s.domOn d with _ | _
  · exact State.whenOn_off hd f
  · exact (State.whenOn_on hd f).trans (h.resolve_left (by simp [hd]))

/-- A command of a block that has power has its effect, where that reports nothing. -/
theorem completes_whenOn {c : Instr} {s u : State} {d : Nat} {f : State → State} (hc : exec c s = done (s.whenOn d f))
    (h : s.running d = true) (hu : f s = u) (hq : u.quiet = true) : Completes c s u :=
  completes_of hc ((State.whenOn_on ((s.running_iff d).1 h).2 f).trans hu) hq

/-- A write that is let through has its register's effect, where that reports nothing. -/
theorem completes_write {c : Instr} {s u : State} {who : Fin 4} {a d : Nat} {f : State → State}
    (hc : exec c s = done (s.writeTo who a f)) (ha : domainOf a = d) (h : s.takes who.val d = true) (hu : f s = u)
    (hq : u.quiet = true) : Completes c s u :=
  completes_of hc ((State.writeTo_takes (ha ▸ h) f).trans hu) hq

/-! ### Dispatch (R30, R319) -/

theorem State.reg_setReg_ne {s : State} {x r y q : Nat} {v : DWord} (h : 32 * y + q ≠ 32 * x + r) :
    (s.setReg x r v).reg y q = s.reg y q := by
  unfold State.setReg State.reg
  split_ifs
  · rfl
  · rfl
  · exact tabGet_tabSet_ne _ h _ _

theorem State.reg_congr {s u : State} (h : s.yal.g = u.yal.g) (x r : Nat) : s.reg x r = u.reg x r := by
  rw [State.reg, State.reg, h]

theorem State.reg_setReg_self {s : State} {x r : Nat} {v : DWord} (h : r ≠ 0) : (s.setReg x r v).reg x r = v := by
  simp [State.setReg, State.reg, h]

/-- Registers `r` on of an issuer after they were all set: the values in order. -/
theorem State.reg_setRegs (s : State) (x r q : Nat) (l : List DWord) (hq : q ≠ 0) :
    (s.setRegs x r l).reg x q = if r ≤ q ∧ q < r + l.length then l.getD (q - r) 0 else s.reg x q := by
  induction l generalizing s r with
  | nil => exact (if_neg (by simp)).symm
  | cons v l ih =>
    rw [State.setRegs, ih]
    rcases Nat.lt_trichotomy q r with h | rfl | h
    · rw [if_neg (by omega), if_neg (by omega), State.reg_setReg_ne (by omega)]
    · rw [if_neg (by omega), if_pos (by simp), State.reg_setReg_self hq]
      simp
    · obtain ⟨n, rfl⟩ : ∃ n, q = r + 1 + n := ⟨q - (r + 1), by omega⟩
      rw [State.reg_setReg_ne (by omega), List.length_cons]
      simp only [show r + 1 + n - r = n + 1 by omega, List.getD_cons_succ, Nat.add_sub_cancel_left]
      congr 1
      simp only [eq_iff_iff]
      omega

theorem State.setRegs_eq (s : State) (x r : Nat) (l : List DWord) :
    s.setRegs x r l = { s with yal := { s.yal with g := (s.setRegs x r l).yal.g } } := by
  induction l generalizing s r with
  | nil => rfl
  | cons v l ih =>
    rw [State.setRegs, ih, State.setReg]
    split <;> rfl

/-- The registers a task starts with (R30). -/
def Task.startRegs (k : Task) : List DWord :=
  [0, BitVec.ofNat 64 (k.tag + b2n k.atomic * 2 ^ 32 + b2n k.ordered * 2 ^ 33),
    match k.pkt with | some p => handleOf p | none => 0,
    BitVec.ofNat 64 k.op1, BitVec.ofNat 64 k.op2, BitVec.ofNat 64 k.op3, BitVec.ofNat 64 (k.mask % 16 + k.cls * 16),
    BitVec.ofNat 64 (match k.pkt with | some p => p.stamp | none => k.made)] ++ List.replicate 24 0

/-- Thread `t` as a task starts on it (R30). -/
def State.started (s : State) (t : Nat) (k : Task) : Thread := { s.thread t with
  st := .run, pc := memNat s.yal.im (0x10000 * (t / 8) + 4 * k.cls) 4 % 0x10000, task := some k, held := k.pkt, cpin := k.pin,
  pins := [], ordr := false, instrs := 0, slots := [.empty, .empty, .empty, .empty] }

/-- Thread `t` starts task `k` with registers `vals`, the packet window `head` and the parse record `rec'`. -/
def State.startWith (s : State) (t : Nat) (k : Task) (vals : List DWord) (head rec' : List Byte) : State :=
  let s := s.setRegs t 0 vals
  let s := s.pwPut t 0 (head ++ List.replicate (512 - head.length) 0)
  let at' := s.get F.PRS_PREC_BASE_ADDR / 0x10000 * 0x10000 + 128 * t
  let s := { s with gm := memPutBytes s.gm at' (rec' ++ List.replicate (128 - rec'.length) 0) }
  s.setThread t (s.started t k)

theorem State.startTask_eq (s : State) (t : Nat) (k : Task) : ∃ head rec', s.startTask t k =
    s.startWith t k k.startRegs head rec' := by
  cases hp : k.pkt with
  | none => exact ⟨[], [], by rw [State.startTask, State.startWith, Task.startRegs, State.started, hp]; rfl⟩
  | some p => exact ⟨p.bytes.take 512, p.record, by rw [State.startTask, State.startWith, Task.startRegs, State.started, hp]; rfl⟩

/-- What starting a task changes: registers and packet window of its thread, the thread, and the parse records in GM. -/
theorem State.startWith_eq (s : State) (t : Nat) (k : Task) (vals : List DWord) (head rec' : List Byte) : ∃ w m,
    s.startWith t k vals head rec' = ({ s with gm := m, yal := { s.yal with g := (s.setRegs t 0 vals).yal.g, pw := w } } :
      State).setThread t (s.started t k) := by
  refine ⟨?_, ?_, ?_⟩
  rotate_left 2
  rw [State.startWith, State.setRegs_eq]
  rfl

/-- The scheduler's stores once task `k` goes to thread `t` of unit `un` in cluster `c` (R319, R320). -/
def State.dispatched (s : State) (c t un : Nat) (k : Task) : State := { s with hts := { s.hts with
  tasks := s.hts.tasks.filter (fun j => j.id != k.id)
  locks := if k.atomic then s.hts.locks ++ [(c, k.tag, t)] else s.hts.locks
  affin := tabSet (fun _ => ({} : Affin)) s.hts.affin (1024 * c + k.tag % 1024) ⟨k.tag, un⟩ } }

section
variable {s : State} {c pick t un : Nat} {k : Task} (hs : s.stopped = false) (hh : s.sliceHalted (c / 4) = false)
  (hon : s.sliceOn (c / 4) = true) (hk : s.nextTask c = some k) (hu : s.chooseUnit c k.tag = some un)
  (hp : pick < (s.idleThreads un).length) (ht : (s.idleThreads un).getD pick 0 = t)
include hs hh hon hk hu hp ht

theorem State.dispatch_eq : s.dispatch c pick .good = (s.dispatched c t un k).startTask t k := by
  have picked : (s.idleThreads un).getD (pick % max 1 (s.idleThreads un).length) (8 * un) = t := by
    rw [← ht, Nat.mod_eq_of_lt (by omega), List.getD_eq_getElem _ _ hp, List.getD_eq_getElem _ _ hp]
  rw [State.dispatch, hs, hh, hon, hk]
  simp only [Bool.not_true, Bool.or_self, Bool.false_eq_true, if_false, hu, picked, reduceCtorEq, false_and]
  rfl

end

theorem State.dispatch_none {s : State} {c : Nat} (h : s.stopped = true ∨ s.sliceHalted (c / 4) = true ∨
    s.sliceOn (c / 4) = false ∨ s.nextTask c = none) (pick : Nat) (w : Check) : s.dispatch c pick w = s := by
  rw [State.dispatch]
  rcases h with h | h | h | h
  · simp [h]
  · simp [h]
  · simp [h]
  · simp [h]

theorem State.startWith_keeps (s : State) (t : Nat) (k : Task) (vals : List DWord) (head rec' : List Byte) :
    let u := s.startWith t k vals head rec'
    u.thread t = s.started t k ∧ u.hts = s.hts ∧ u.yal.lm = s.yal.lm ∧ u.yal.cm = s.yal.cm ∧ u.xm = s.xm ∧ u.regs = s.regs ∧
      u.quiet = s.quiet := by
  obtain ⟨w, m, h⟩ := s.startWith_eq t k vals head rec'
  dsimp only
  rw [h, State.thread_setThread_self]
  exact ⟨rfl, rfl, rfl, rfl, rfl, rfl, rfl⟩

theorem State.startWith_reg (s : State) (t : Nat) (k : Task) (vals : List DWord) (head rec' : List Byte) (r : Nat) :
    (s.startWith t k vals head rec').reg t r = (s.setRegs t 0 vals).reg t r := by
  obtain ⟨w, m, h⟩ := s.startWith_eq t k vals head rec'
  rw [h]
  rfl

theorem State.startTask_keeps (s : State) (t : Nat) (k : Task) :
    let u := s.startTask t k
    u.thread t = s.started t k ∧ u.hts = s.hts ∧ u.yal.lm = s.yal.lm ∧ u.yal.cm = s.yal.cm ∧ u.xm = s.xm ∧ u.regs = s.regs ∧
      u.quiet = s.quiet := by
  obtain ⟨head, rec', h⟩ := s.startTask_eq t k
  dsimp only
  rw [h]
  exact s.startWith_keeps t k k.startRegs head rec'

/-- A task that starts has the state of R30, and nothing but its thread, registers, window and records has changed. -/
theorem State.startTask_reg (s : State) (t r : Nat) (k : Task) (hr : r ≠ 0) (hr' : r < 32) :
    (s.startTask t k).reg t r = k.startRegs.getD r 0 := by
  obtain ⟨head, rec', h⟩ := s.startTask_eq t k
  have count : k.startRegs.length = 32 := rfl
  rw [h, State.startWith_reg, State.reg_setRegs _ _ _ _ _ hr, if_pos (by omega), Nat.sub_zero]

theorem Task.startRegs_zero (k : Task) {r : Nat} (h : 8 ≤ r) (h' : r < 32) : k.startRegs.getD r 0 = 0 := by
  obtain ⟨n, rfl⟩ : ∃ n, r = n + 8 := ⟨r - 8, by omega⟩
  show (List.replicate 24 (0 : DWord)).getD n 0 = 0
  rw [List.getD_replicate _ (by omega)]

/-! ### Ordered release (R322, R329) -/

/-- Where no place of a cluster waits outside its buffer, there is none to give room to. -/
theorem findIdx_none {α : Type} {p : α → Bool} {l : List α} (h : ∀ a ∈ l, p a = false) (i : Nat) : findIdx p l i = none := by
  induction l generalizing i with
  | nil => rfl
  | cons a l ih =>
    rw [findIdx, if_neg (by simp [h a]), ih fun b hb => h b (List.mem_cons_of_mem _ hb)]

theorem State.unpark_none {s : State} {c : Nat} (h : ∀ q ∈ s.hts.places, q.cluster = c → q.parked = false) :
    s.unpark c = s := by
  have none : findIdx (fun p : Place => p.cluster == c && p.parked) s.hts.places 0 = none :=
    findIdx_none (fun q hq => by
      rcases hc : q.cluster == c with _ | _
      · rfl
      · simpa using h q hq (beq_iff_eq.1 hc)) 0
  rw [State.unpark, none]
  exact ite_self _

/-- The place of task `id` has left the buffer. -/
def State.leavePlace (s : State) (id : Nat) : State :=
  { s with hts := { s.hts with places := s.hts.places.filter (fun q => q.task != id) } }

section
variable {s : State} {c : Nat} {p : Place} (hp : releasable c s.hts.places [] = some p)
  (hpark : ∀ q ∈ s.hts.places, q.cluster = c → q.parked = false) (hc : p.cluster = c)

include hpark hc in
theorem State.releasePlace_eq {q : Place} (hq : q.task = p.task) (hqc : q.cluster = p.cluster) : s.releasePlace q =
    match q.out with | some it => (s.leavePlace p.task).egressPut it | none => s.leavePlace p.task := by
  rw [State.releasePlace]
  dsimp only
  rw [hq, hqc, State.unpark_none fun r hr hrc => hpark r (List.mem_of_mem_filter hr) (hrc.trans hc)]
  rfl

include hp hpark hc

theorem State.orderedRelease_none (ho : p.out = none) : s.orderedRelease c .good = s.leavePlace p.task := by
  rw [State.orderedRelease, hp]
  simp only [reduceCtorEq, if_false]
  rw [State.releasePlace_eq hpark hc rfl rfl, ho]

theorem State.orderedRelease_recirc {it : EgItem} (ho : p.out = some it) (hk : it.kind = 6) : s.orderedRelease c .good
    = { s.leavePlace p.task with recirc := s.recirc ++ [{ it.pkt with start := it.target }] } := by
  rw [State.orderedRelease, hp]
  simp only [reduceCtorEq, if_false]
  rw [State.releasePlace_eq hpark hc rfl rfl, ho]
  exact if_pos hk

theorem State.orderedRelease_lasting : s.orderedRelease c .lasting
    = ((s.leavePlace p.task).bump F.HTS_CNT2_LOST 1).raise (353 + 4 * (c / 4)) := by
  rw [State.orderedRelease, hp]
  simp only [if_true]
  rw [State.releasePlace_eq hpark hc (q := { p with out := none }) rfl rfl]

end

/-! ### CLMAP (R318) -/

theorem State.clmapApply_quiet {s : State} {j v : Nat} (h : s.hts.clmapPend = some [(j, v)]) (hp : s.hts.places = [])
    (hl : s.hts.locks = []) : s.clmapApply
      = ({ s.put (F.HTS_CLMAP_C j) v with hts := { s.hts with clmapPend := none } } : State).put F.HTS_CTL_CLMAP_PEND 0 := by
  have calm : s.clmapQuiet = true := by rw [State.clmapQuiet, hp, hl]; rfl
  rw [State.clmapApply, h]
  simp only [calm, if_true, forEach, List.foldl, State.put_hts]

theorem State.clmapApply_waits {s : State} (h : s.hts.places ≠ [] ∨ s.hts.locks ≠ []) : s.clmapApply = s := by
  have held : s.clmapQuiet = false := by
    rw [State.clmapQuiet, Bool.and_eq_false_iff]
    exact h.imp (fun h => by simpa using h) (fun h => by simpa using h)
  rw [State.clmapApply, held]
  split <;> rfl

/-! ### Flush (R329) -/

@[simp] theorem State.unpin_hts (s : State) (i : Nat) : (s.unpin i).hts = s.hts := by
  unfold State.unpin
  dsimp only
  split
  · exact State.put_hts _ _ _
  · rfl

/-- Giving up a pin changes no register but the endpoint engine's occupancy. -/
theorem State.unpin_get (s : State) (i : Nat) {f : Fld} (h : F.EPT_OCC_ENTRIES.addr + 4 ≤ f.addr ∨
    f.addr + 4 * (f.hi / 32 + 1) ≤ F.EPT_OCC_ENTRIES.addr) : (s.unpin i).get f = s.get f := by
  unfold State.unpin
  dsimp only
  split
  · exact (State.get_put_ne _ _ _ _ h).trans (State.get_congr (t := s) (by rfl) f)
  · exact State.get_congr (t := s) (by rfl) f

/-- What losing an undispatched task does (R329): it leaves the task store, and LOST counts. -/
theorem State.loseTask_cases (s : State) (k : Task) : s.StoresOnly (s.loseTask k) ∧
    (s.loseTask k).hts.tasks = s.hts.tasks.filter (fun j => j.id != k.id) ∧
    (s.loseTask k).hts.locks = s.hts.locks ∧
    (s.loseTask k).get F.HTS_CNT2_LOST = min 65535 (s.get F.HTS_CNT2_LOST + 1) := by
  let u : State := { s with hts := { s.hts with tasks := s.hts.tasks.filter (fun j => j.id != k.id) } }
  let v := forEach k.pin.toList (fun i s => s.unpin i) u
  let w := if k.ordered then v.placeDone k.id none else v
  have stores : s.StoresOnly v := State.StoresOnly.trans (t := u) (Eq.refl _) (.unpins u _)
  have hts : v.hts = u.hts := forEach_keeps State.hts (fun i s => s.unpin_hts i) _ _
  have lost : v.get F.HTS_CNT2_LOST = s.get F.HTS_CNT2_LOST :=
    (forEach_keeps (fun s : State => s.get F.HTS_CNT2_LOST) (fun i s => s.unpin_get i (by decide)) _ _).trans
      (State.get_congr (s := u) (t := s) rfl _)
  have place : v.StoresOnly w ∧ w.regs = v.regs ∧ w.hts.tasks = v.hts.tasks ∧ w.hts.locks = v.hts.locks := by
    unfold w
    split
    · exact ⟨.placeDone _ _ _, rfl, rfl, rfl⟩
    · exact ⟨.refl _, rfl, rfl, rfl⟩
  obtain ⟨stores', regs, tasks, locks⟩ := place
  have loses : s.loseTask k = w.bump F.HTS_CNT2_LOST 1 := rfl
  rw [loses, State.bump_hts, tasks, locks, hts, State.get_bump_self _ _ _ (by decide), State.get_congr regs, lost]
  exact ⟨(stores.trans stores').trans (.bump _ _ _), rfl, rfl, rfl⟩

theorem State.loseAll (gone : List Task) (s : State) :
    let u := forEach gone (fun k s => s.loseTask k) s
    s.StoresOnly u ∧ u.hts.tasks = s.hts.tasks.filter (fun k => gone.all (fun g => g.id != k.id)) ∧
      u.hts.locks = s.hts.locks ∧ u.get F.HTS_CNT2_LOST = min 65535 (s.get F.HTS_CNT2_LOST + gone.length) := by
  induction gone generalizing s with
  | nil =>
    have small : s.get F.HTS_CNT2_LOST < 2 ^ 16 := Nat.mod_lt _ (by decide)
    refine ⟨.refl s, by simp [forEach], rfl, ?_⟩
    show s.get F.HTS_CNT2_LOST = min 65535 (s.get F.HTS_CNT2_LOST)
    omega
  | cons k gone ih =>
    obtain ⟨stores, tasks, locks, lost⟩ := s.loseTask_cases k
    obtain ⟨stores', tasks', locks', lost'⟩ := ih (s.loseTask k)
    refine ⟨stores.trans stores', tasks'.trans ?_, locks'.trans locks, lost'.trans ?_⟩
    · rw [tasks, List.filter_filter]
      congr 1
      funext j
      rw [List.all_cons, Bool.and_comm, bne_comm]
    · rw [lost, List.length_cons]
      omega

/-! ### Starvation (R321) -/

section
variable {s : State} {id : Nat} {k : Task} (hk : s.hts.tasks.find? (fun j => j.id == id) = some k)
include hk

theorem State.starve_eq (h1 : k.await1 = false) (h2 : k.await2 = false) (hs : k.starved = false)
    (hl : s.get F.HTS_STARVE_US ≠ 0) : s.starve id
      = ({ s.until (k.since + 1000 * s.get F.HTS_STARVE_US) with hts := { s.hts with
          tasks := s.hts.tasks.map (fun j => if j.id == id then { j with starved := true } else j) } } : State).raise
        (354 + 4 * k.region) := by
  rw [State.starve, hk]
  simp only [h1, h2, hs, hl, ne_eq, not_false_eq_true, and_self, if_true, State.until_hts]

end

/-! ### Egress thresholds (R325) -/

/-- What a write of EG_BP stores. -/
def State.egThresholds (s : State) (k : Nat) (v : Word) : State :=
  (((s.put (F.HTS_EG_BP_XOFF k) (fldOf v (F.HTS_EG_BP_XOFF k))).put (F.HTS_EG_BP_XON k)
    (fldOf v (F.HTS_EG_BP_XON k))).put (F.HTS_EG_BP_MAX k) (fldOf v (F.HTS_EG_BP_MAX k))).put (F.HTS_EG_BP_SRC k)
    (fldOf v (F.HTS_EG_BP_SRC k))

theorem State.egBpWrite_eq (s : State) (k : Nat) (v : Word) : s.egBpWrite k v = (s.egThresholds k v).egressCompare k := rfl

section
variable (s : State) (k : Nat) (v : Word)

theorem State.get_egThresholds_disj {f : Fld} (ha : f.addr = 0x700060 + 4 * k) (hf : 29 < f.lo) :
    (s.egThresholds k v).get f = s.get f := by
  rw [State.egThresholds, State.get_put_disj _ _ f _ (by simp [F.HTS_EG_BP_SRC]) ha (.inr hf),
    State.get_put_disj _ _ f _ (by simp [F.HTS_EG_BP_MAX]) ha (.inr (Nat.lt_trans (by simp [F.HTS_EG_BP_MAX]) hf)),
    State.get_put_disj _ _ f _ (by simp [F.HTS_EG_BP_XON]) ha (.inr (Nat.lt_trans (by simp [F.HTS_EG_BP_XON]) hf)),
    State.get_put_disj _ _ f _ (by simp [F.HTS_EG_BP_XOFF]) ha (.inr (Nat.lt_trans (by simp [F.HTS_EG_BP_XOFF]) hf))]

theorem State.on_egThresholds : (s.egThresholds k v).on (F.HTS_EG_BP_ON k) = s.on (F.HTS_EG_BP_ON k) := by
  rw [State.on, State.on, State.get_egThresholds_disj s k v rfl (by simp [F.HTS_EG_BP_ON])]

theorem State.level_egThresholds : (s.egThresholds k v).get (F.HTS_EG_LVL_PKTS k) = s.get (F.HTS_EG_LVL_PKTS k) := by
  have apart : 0x700060 + 4 * k + 4 ≤ 0x700080 + 4 * k := by omega
  have keeps : ∀ (u : State) (f : Fld) (n : Nat), f.addr = 0x700060 + 4 * k → f.hi < 32 →
      (u.put f n).get (F.HTS_EG_LVL_PKTS k) = u.get (F.HTS_EG_LVL_PKTS k) := fun u f n ha hf =>
    State.get_put_ne _ _ _ _ (.inl (by rw [ha, Nat.div_eq_of_lt hf]; exact apart))
  rw [State.egThresholds, keeps _ _ _ rfl (by simp [F.HTS_EG_BP_SRC]), keeps _ _ _ rfl (by simp [F.HTS_EG_BP_MAX]),
    keeps _ _ _ rfl (by simp [F.HTS_EG_BP_XON]), keeps _ _ _ rfl (by simp [F.HTS_EG_BP_XOFF])]

theorem fldOf_mod (f : Fld) : fldOf v f % 2 ^ (f.hi + 1 - f.lo) = fldOf v f := Nat.mod_mod _ _

theorem State.xoff_egThresholds : (s.egThresholds k v).get (F.HTS_EG_BP_XOFF k) = fldOf v (F.HTS_EG_BP_XOFF k) := by
  have keeps : ∀ (u : State) (g : Fld) (n : Nat), g.addr = 0x700060 + 4 * k → 7 < g.lo → g.lo ≤ g.hi →
      (u.put g n).get (F.HTS_EG_BP_XOFF k) = u.get (F.HTS_EG_BP_XOFF k) :=
    fun u g n ha hl hg => State.get_put_disj _ _ _ _ hg ha.symm (.inl hl)
  rw [State.egThresholds, keeps _ _ _ rfl (by simp [F.HTS_EG_BP_SRC]) (by simp [F.HTS_EG_BP_SRC]),
    keeps _ _ _ rfl (by simp [F.HTS_EG_BP_MAX]) (by simp [F.HTS_EG_BP_MAX]),
    keeps _ _ _ rfl (by simp [F.HTS_EG_BP_XON]) (by simp [F.HTS_EG_BP_XON]),
    State.get_put_self _ _ _ (by simp [F.HTS_EG_BP_XOFF]), fldOf_mod]

theorem State.xon_egThresholds : (s.egThresholds k v).get (F.HTS_EG_BP_XON k) = fldOf v (F.HTS_EG_BP_XON k) := by
  have keeps : ∀ (u : State) (g : Fld) (n : Nat), g.addr = 0x700060 + 4 * k → 15 < g.lo → g.lo ≤ g.hi →
      (u.put g n).get (F.HTS_EG_BP_XON k) = u.get (F.HTS_EG_BP_XON k) :=
    fun u g n ha hl hg => State.get_put_disj _ _ _ _ hg ha.symm (.inl hl)
  rw [State.egThresholds, keeps _ _ _ rfl (by simp [F.HTS_EG_BP_SRC]) (by simp [F.HTS_EG_BP_SRC]),
    keeps _ _ _ rfl (by simp [F.HTS_EG_BP_MAX]) (by simp [F.HTS_EG_BP_MAX]),
    State.get_put_self _ _ _ (by simp [F.HTS_EG_BP_XON]), fldOf_mod]

/-- Back pressure of an egress after a write of its thresholds. -/
theorem State.egBpWrite_cases : s.egBpWrite k v =
    if s.on (F.HTS_EG_BP_ON k) = false ∧ 256 * max 1 (fldOf v (F.HTS_EG_BP_XOFF k)) ≤ s.get (F.HTS_EG_LVL_PKTS k) then
      ((s.egThresholds k v).put (F.HTS_EG_BP_ON k) 1).raiseSec 371
    else if s.on (F.HTS_EG_BP_ON k) = true ∧ s.get (F.HTS_EG_LVL_PKTS k)
        ≤ 256 * min (fldOf v (F.HTS_EG_BP_XON k)) (max 1 (fldOf v (F.HTS_EG_BP_XOFF k))) then
      (s.egThresholds k v).put (F.HTS_EG_BP_ON k) 0
    else s.egThresholds k v := by
  rw [State.egBpWrite_eq, State.egressCompare]
  simp only [State.on_egThresholds, State.level_egThresholds, State.xoff_egThresholds, State.xon_egThresholds,
    Bool.and_eq_true, Bool.not_eq_true', decide_eq_true_eq, Nat.mul_comm _ 256]

end

/-- A source that may be raised is raised, and the time of the raise kept. -/
theorem State.raiseSec_due {s : State} {n : Nat} (h : tabGet (fun _ => 0) s.flt.last n = 0 ∨
    tabGet (fun _ => 0) s.flt.last n - 1 + 1000000000 ≤ s.now) : s.raiseSec n
      = ({ s with flt := { s.flt with last := tabSet (fun _ => 0) s.flt.last n (s.now + 1) } } : State).raise n := if_pos h

theorem State.raiseSec_held {s : State} {n : Nat} (h : tabGet (fun _ => 0) s.flt.last n ≠ 0)
    (h' : s.now < tabGet (fun _ => 0) s.flt.last n - 1 + 1000000000) : s.raiseSec n = s :=
  if_neg (not_or.2 ⟨h, by simpa [second] using h'⟩)

/-- What SCHED's commands do where nothing stands ready, the block has no power, or a halt holds them. -/
theorem idleCommands (c : Fin 16) (pick id : Nat) (w : Check) (s : State) :
    Settles (.taskDispatch c pick w) s (s.dispatch c.val pick w) ∧
    (s.running (clusterDomain c.val) = true → Settles (.orderedRelease c w) s (s.orderedRelease c.val w)) ∧
    (s.quiet = true → s.domOn (clusterDomain c.val) = false → Completes (.orderedRelease c w) s s) ∧
    (s.quiet = true → s.stopped = true ∨ s.sliceHalted (c.val / 4) = true ∨ s.sliceOn (c.val / 4) = false ∨
      s.nextTask c.val = none → Completes (.taskDispatch c pick w) s s) ∧
    (s.quiet = true → s.domOn 5 = false ∨ s.hts.clmapPend = none → Completes .clmapApply s s) ∧
    (s.quiet = true → s.domOn 5 = false ∨ s.hts.tasks.find? (fun j => j.id == id) = none →
      Completes (.starveTimeout id) s s) := by
  refine ⟨rfl, fun h => congrArg done (State.whenOn_on ((s.running_iff _).1 h).2 _),
    fun hq hd => completes_unchanged rfl hq (.inl hd), fun hq h => completes_of rfl (State.dispatch_none h pick w) hq,
    fun hq h => completes_unchanged rfl hq (h.imp_right fun h => ?_),
    fun hq h => completes_unchanged rfl hq (h.imp_right fun h => ?_)⟩
  · rw [State.clmapApply, h]
  · rw [State.starve, h]

/-- A chosen task starts with the state of R30. -/
theorem answers_dispatch (c : Fin 16) {pick t un : Nat} {k : Task} {s : State} (hq : s.quiet = true) (hs : s.stopped = false)
    (hh : s.sliceHalted (c.val / 4) = false) (hon : s.sliceOn (c.val / 4) = true) (hk : s.nextTask c.val = some k)
    (hu : s.chooseUnit c.val k.tag = some un) (hp : pick < (s.idleThreads un).length)
    (ht : (s.idleThreads un).getD pick 0 = t) {P : State → Prop}
    (hP : P ((s.dispatched c.val t un k).startTask t k).close) : Answers (.taskDispatch c pick .good) s P := by
  refine Completes.answers (completes_of rfl (State.dispatch_eq hs hh hon hk hu hp ht) ?_) hP
  obtain ⟨-, -, -, -, -, -, quiet⟩ := (s.dispatched c.val t un k).startTask_keeps t k
  exact quiet.trans hq

section
variable {c : Fin 16} {p : Place} {s : State} (hr : s.running (clusterDomain c.val) = true)
  (hp : releasable c.val s.hts.places [] = some p) (hpark : ∀ q ∈ s.hts.places, q.cluster = c.val → q.parked = false)
  (hc : p.cluster = c.val)
include hr hp hpark hc

theorem completes_release_none (ho : p.out = none) : Completes (.orderedRelease c .good) s (s.leavePlace p.task) :=
  completes_whenOn rfl hr (State.orderedRelease_none hp hpark hc ho) ((s.running_iff _).1 hr).1

theorem completes_release_recirc {it : EgItem} (ho : p.out = some it) (hk : it.kind = 6) :
    Completes (.orderedRelease c .good) s
      { s.leavePlace p.task with recirc := s.recirc ++ [{ it.pkt with start := it.target }] } :=
  completes_whenOn rfl hr (State.orderedRelease_recirc hp hpark hc ho hk) ((s.running_iff _).1 hr).1

theorem completes_release_lasting
    (hn : ((s.leavePlace p.task).bump F.HTS_CNT2_LOST 1).countsOnly (353 + 4 * (c.val / 4)) = true) :
    Completes (.orderedRelease c .lasting) s
      (((s.leavePlace p.task).bump F.HTS_CNT2_LOST 1).counted (353 + 4 * (c.val / 4))) := by
  obtain ⟨hq, hd⟩ := (s.running_iff _).1 hr
  exact completes_of_raise (congrArg done ((State.whenOn_on hd _).trans (State.orderedRelease_lasting hp hpark hc))) rfl
    ((State.quiet_bump _ _ _).trans hq) hn

end

theorem domainOf_clmap (j : Fin 16) : domainOf (0x700020 + 4 * j.val) = 5 := by
  revert j
  decide

theorem domainOf_egBp (k : Fin 6) : domainOf (0x700060 + 4 * k.val) = 5 := by
  revert k
  decide

theorem State.quiet_withFlt (s : State) (x : Flt) : ({ s with flt := x } : State).quiet = s.quiet := rfl

theorem State.quiet_egThresholds (s : State) (k : Nat) (v : Word) : (s.egThresholds k v).quiet = s.quiet := by
  simp only [State.egThresholds, State.quiet_put]

/-- What the limit of one raise per second looks at is not changed by a write of thresholds. -/
theorem State.raiseTime_egBp (s : State) (k : Nat) (v : Word) :
    ((s.egThresholds k v).put (F.HTS_EG_BP_ON k) 1).flt = s.flt ∧
    ((s.egThresholds k v).put (F.HTS_EG_BP_ON k) 1).now = s.now := by
  simp only [State.egThresholds, State.put_flt, State.now, State.put_time, and_self]

section
variable {who : Fin 4} {k : Fin 6} {v : Word} {s : State} (h : s.takes who.val 5 = true)
include h

theorem completes_egBpWrite {u : State} (hu : s.egBpWrite k.val v = u) (hq : u.quiet = s.quiet) :
    Completes (.egBpWrite who k v) s u :=
  completes_write rfl (domainOf_egBp k) h hu (hq.trans ((s.takes_iff _ _).1 h).1)

theorem completes_egBp_stays
    (hc : s.on (F.HTS_EG_BP_ON k.val) = false ∧ s.get (F.HTS_EG_LVL_PKTS k.val) < 256 * max 1 (fldOf v (F.HTS_EG_BP_XOFF k.val)) ∨
      s.on (F.HTS_EG_BP_ON k.val) = true ∧ 256 * min (fldOf v (F.HTS_EG_BP_XON k.val)) (max 1 (fldOf v (F.HTS_EG_BP_XOFF k.val)))
        < s.get (F.HTS_EG_LVL_PKTS k.val)) :
    Completes (.egBpWrite who k v) s (s.egThresholds k.val v) := by
  refine completes_egBpWrite h ?_ (s.quiet_egThresholds _ _)
  rw [State.egBpWrite_cases]
  rcases hc with ⟨hon, hl⟩ | ⟨hon, hl⟩
  · rw [if_neg (fun hc => absurd hc.2 (by omega)), if_neg (by simp [hon])]
  · rw [if_neg (by simp [hon]), if_neg (fun hc => absurd hc.2 (by omega))]

theorem completes_egBp_clears (hon : s.on (F.HTS_EG_BP_ON k.val) = true) (hl : s.get (F.HTS_EG_LVL_PKTS k.val)
      ≤ 256 * min (fldOf v (F.HTS_EG_BP_XON k.val)) (max 1 (fldOf v (F.HTS_EG_BP_XOFF k.val)))) :
    Completes (.egBpWrite who k v) s ((s.egThresholds k.val v).put (F.HTS_EG_BP_ON k.val) 0) := by
  refine completes_egBpWrite h ?_ ((State.quiet_put _ _ _).trans (s.quiet_egThresholds _ _))
  rw [State.egBpWrite_cases, if_neg (by simp [hon]), if_pos ⟨hon, hl⟩]

section
variable (hoff : s.on (F.HTS_EG_BP_ON k.val) = false)
  (hl : 256 * max 1 (fldOf v (F.HTS_EG_BP_XOFF k.val)) ≤ s.get (F.HTS_EG_LVL_PKTS k.val))
include hoff hl

theorem completes_egBp_silent (h0 : tabGet (fun _ => 0) s.flt.last 371 ≠ 0)
    (h1 : s.now < tabGet (fun _ => 0) s.flt.last 371 - 1 + 1000000000) :
    Completes (.egBpWrite who k v) s ((s.egThresholds k.val v).put (F.HTS_EG_BP_ON k.val) 1) := by
  obtain ⟨flt, now⟩ := s.raiseTime_egBp k.val v
  refine completes_egBpWrite h ?_ ((State.quiet_put _ _ _).trans (s.quiet_egThresholds _ _))
  rw [State.egBpWrite_cases, if_pos ⟨hoff, hl⟩, State.raiseSec_held (by rwa [flt]) (by rwa [flt, now])]

theorem completes_egBp_raises {w : State} (hlast : tabGet (fun _ => 0) s.flt.last 371 = 0 ∨
      tabGet (fun _ => 0) s.flt.last 371 - 1 + 1000000000 ≤ s.now)
    (hw : w = { (s.egThresholds k.val v).put (F.HTS_EG_BP_ON k.val) 1 with
      flt := { s.flt with last := tabSet (fun _ => 0) s.flt.last 371 (s.now + 1) } })
    (hn : w.countsOnly 371 = true) : Completes (.egBpWrite who k v) s (w.counted 371) := by
  obtain ⟨flt, now⟩ := s.raiseTime_egBp k.val v
  have raises : s.egBpWrite k.val v = w.raise 371 := by
    rw [State.egBpWrite_cases, if_pos ⟨hoff, hl⟩, State.raiseSec_due (by rwa [flt, now]), flt, now, hw]
  have calm : w.quiet = true := by
    rw [hw, State.quiet_withFlt, State.quiet_put, State.quiet_egThresholds]
    exact ((s.takes_iff _ _).1 h).1
  exact completes_of_raise (congrArg done ((State.writeTo_takes ((domainOf_egBp k).symm ▸ h) _).trans raises)) rfl calm hn

end

end

theorem State.quiet_withHts (s : State) (x : Hts) : ({ s with hts := x } : State).quiet = s.quiet := rfl

theorem completes_clmapWrite {who : Fin 4} (j : Fin 16) (v : Word) {s : State} (h : s.takes who.val 5 = true) :
    Completes (.clmapWrite who j v) s (s.clmapWrite j.val v.toNat) :=
  completes_write rfl (domainOf_clmap j) h rfl ((State.quiet_put _ _ _).trans ((s.takes_iff _ _).1 h).1)

theorem completes_clmapApply {j v : Nat} {s : State} (h : s.running 5 = true) (hpend : s.hts.clmapPend = some [(j, v)]) :
    (s.hts.places = [] → s.hts.locks = [] → Completes .clmapApply s
      (({ s.put (F.HTS_CLMAP_C j) v with hts := { s.hts with clmapPend := none } } : State).put F.HTS_CTL_CLMAP_PEND 0)) ∧
    (s.hts.places ≠ [] ∨ s.hts.locks ≠ [] → Completes .clmapApply s s) := by
  have hq := ((s.running_iff _).1 h).1
  refine ⟨fun hp hl => completes_whenOn rfl h (State.clmapApply_quiet hpend hp hl) ?_,
    fun hw => completes_whenOn rfl h (State.clmapApply_waits hw) hq⟩
  rw [State.quiet_put]
  exact (State.quiet_withHts _ _).trans ((State.quiet_put _ _ _).trans hq)

theorem completes_flush {who : Fin 4} (v : Word) {s : State} (h : s.takes who.val 5 = true) :
    Completes (.regionFlush who v) s (s.flush (v.toNat % 16)) :=
  completes_write rfl (by decide) h rfl ((State.loseAll _ s).1.quiet.trans ((s.takes_iff _ _).1 h).1)

theorem completes_starve {id : Nat} {k : Task} {s : State} (h : s.running 5 = true)
    (hk : s.hts.tasks.find? (fun j => j.id == id) = some k) (h1 : k.await1 = false) (h2 : k.await2 = false)
    (hs : k.starved = false) (hl : s.get F.HTS_STARVE_US ≠ 0) {u : State}
    (hu : u = { s.until (k.since + 1000 * s.get F.HTS_STARVE_US) with hts := { s.hts with
      tasks := s.hts.tasks.map (fun j => if j.id == id then { j with starved := true } else j) } })
    (hn : u.countsOnly (354 + 4 * k.region) = true) : Completes (.starveTimeout id) s (u.counted (354 + 4 * k.region)) := by
  obtain ⟨hq, hd⟩ := (s.running_iff _).1 h
  subst hu
  refine completes_of_raise (congrArg done ((State.whenOn_on hd _).trans (State.starve_eq hk h1 h2 hs hl))) rfl ?_ hn
  exact (State.quiet_withHts _ _).trans ((State.quiet_congr (State.until_raised _ _) (State.until_seqs _ _)).trans hq)

/-- Settles O11, from what each operation of the scheduler does. -/
theorem schedulerCommands : Obligations.SchedulerCommands := by
  unfold Obligations.SchedulerCommands
  refine ⟨idleCommands, fun c pick t un k s hq hs hh hon hk hu hp ht => answers_dispatch c hq hs hh hon hk hu hp ht ?_,
    fun c p s hr hp hpark hc => ⟨completes_release_none hr hp hpark hc, completes_release_lasting hr hp hpark hc,
      fun it => completes_release_recirc hr hp hpark hc⟩, fun who j v s h => completes_clmapWrite j v h, fun j v s => completes_clmapApply,
    fun who v s h => (completes_flush v h).answers ?_,
    fun id k s h hk h1 h2 hs hl hr => completes_starve h hk h1 h2 hs hl rfl, fun who k v s h => ⟨completes_egBp_stays h,
    completes_egBp_clears h, fun hoff hl hlast => completes_egBp_raises h hoff hl hlast rfl, completes_egBp_silent h⟩⟩
  · obtain ⟨thread, hts, lm, cm, xm, regs, -⟩ := (s.dispatched c.val t un k).startTask_keeps t k
    have reg : ∀ r, r ≠ 0 → r < 32 → ((s.dispatched c.val t un k).startTask t k).close.reg t r = k.startRegs.getD r 0 := by
      intro r hr hr'
      rw [State.reg_congr (congrArg Yalvo.g (State.close_yal _)), State.startTask_reg _ _ _ _ hr hr']
    simp only [State.thread_close, thread, State.close_hts, hts, State.close_yal, lm, cm, State.close_xm, xm,
      State.close_regs, regs]
    refine ⟨rfl, rfl, rfl, rfl, rfl, rfl, rfl, reg 1 (by decide) (by decide), reg 2 (by decide) (by decide),
      reg 3 (by decide) (by decide), reg 4 (by decide) (by decide), reg 5 (by decide) (by decide),
      reg 6 (by decide) (by decide), reg 7 (by decide) (by decide),
      fun r h8 h32 => (reg r (by omega) h32).trans (k.startRegs_zero h8 h32), rfl, fun ha => if_pos ha, rfl, rfl, rfl, rfl⟩
  · obtain ⟨stores, tasks, locks, lost⟩ := State.loseAll (s.hts.tasks.filter (fun k => bit (v.toNat % 16) k.region)) s
    rw [State.close_hts, State.close_get, State.close_yal, State.close_gm, State.close_xm, State.close_sd]
    exact ⟨tasks, lost, locks, stores.yal, stores.gm, stores.xm, stores.sd⟩

end Sys2Proof.Machine
end

section
/-! The statement ThreadsAndSequencers: resuming a thread, lifting a fence, enabling and disabling a sequencer (R45, R52, R165). -/

namespace Sys2Proof.Machine

/-! ### Resuming a thread (R45, R52) -/

theorem onesOf_bit8 (n : Fin 8) : onesOf (2 ^ n.val) 8 = [n.val] := by
  revert n
  decide

theorem onesOf_bit16 (c : Fin 16) : onesOf (2 ^ c.val) 16 = [c.val] := by
  revert c
  decide

theorem domainOf_thrCtl (u : Fin 64) : domainOf (0x802100 + 4 * u.val) = 5 := by
  revert u
  decide

theorem domainOf_sqCtl (n : Fin 4) : domainOf (0x100000 + 0x10000 * n.val) = if n.val < 3 then 11 else 5 := by
  revert n
  decide

/-- A halted thread that returns has registers and packet window at 0, and nothing else of the machine has changed. -/
theorem State.resumeThread_halted {s : State} {t : Nat} (h : (s.thread t).st = .halt) : ∃ x : Thread,
    x.st = (if s.hasImage (t / 8) then .idle else .off) ∧ s.resumeThread t =
      ((s.setRegs t 0 (List.replicate 32 0)).pwPut t 0 (List.replicate 512 0)).setThread t x := by
  have regs : ((s.setRegs t 0 (List.replicate 32 0)).pwPut t 0 (List.replicate 512 0)).regs = s.regs := by
    generalize List.replicate 32 (0 : DWord) = l
    rw [State.setRegs_eq]
    rfl
  have image : ((s.setRegs t 0 (List.replicate 32 0)).pwPut t 0 (List.replicate 512 0)).hasImage (unitOf t)
      = s.hasImage (t / 8) := by
    rw [State.hasImage, State.get_congr regs]
    rfl
  exact ⟨_, congrArg (fun b : Bool => if b then ThrState.idle else ThrState.off) image, if_pos h⟩

theorem State.resumeThread_other {s : State} {t : Nat} (h : (s.thread t).st ≠ .halt) : s.resumeThread t = s := if_neg h

theorem getD_replicate_zero (n m : Nat) : (List.replicate n (0 : DWord)).getD m 0 = 0 := by
  rw [List.getD_eq_getElem?_getD, List.getElem?_replicate]
  split <;> rfl

theorem State.reg_clearRegs (s : State) (t n r : Nat) (h : r < n) : (s.setRegs t 0 (List.replicate n 0)).reg t r = 0 := by
  by_cases hr : r = 0
  · rw [hr]
    rfl
  · rw [State.reg_setRegs _ _ _ _ _ hr, List.length_replicate, if_pos (by omega), getD_replicate_zero]

theorem memByte_cleared (m : Mem) (a n k : Nat) (h : k < n) : memByte (memPutBytes m a (List.replicate n 0)) (a + k) = 0 := by
  rw [memByte_memPutBytes_in _ _ _ _ (by simpa using h), List.getElem_replicate]

section
variable {s : State} {t : Nat} (h : (s.thread t).st = .halt)
include h

/-- What is seen of a thread that returns, and of what stays. -/
theorem State.resumeThread_keeps :
    let u := s.resumeThread t
    (u.thread t).st = (if s.hasImage (t / 8) then .idle else .off) ∧ (∀ r, r < 32 → u.reg t r = 0) ∧
    (∀ k, k < 512 → memByte u.yal.pw (512 * t + k) = 0) ∧ (∀ m, m ≠ t → u.thread m = s.thread m) ∧ u.regs = s.regs ∧
    u.yal.lm = s.yal.lm ∧ u.gm = s.gm ∧ u.quiet = s.quiet := by
  obtain ⟨x, hx, hu⟩ := State.resumeThread_halted h
  have cleared := s.reg_clearRegs t 32
  have window := memByte_cleared s.yal.pw (512 * t) 512
  dsimp only
  rw [hu, State.thread_setThread_self]
  generalize List.replicate 32 (0 : DWord) = l at cleared ⊢
  generalize List.replicate 512 (0 : Byte) = w at window ⊢
  rw [State.setRegs_eq] at cleared ⊢
  refine ⟨hx, fun r hr => cleared r hr, fun k hk => window k hk, fun m hm => ?_, rfl, rfl, rfl, rfl⟩
  rw [State.thread_setThread_ne hm]
  rfl

end

/-! ### Lifting a fence (R45) -/

theorem State.rehome_none {s : State} (h : s.hts.places = []) : s.rehome = s := by
  rw [State.rehome, h]
  rfl

theorem forEach_unchanged {α σ : Type} {l : List α} {f : α → σ → σ} {s : σ} (h : ∀ a ∈ l, f a s = s) : forEach l f s = s := by
  induction l with
  | nil => rfl
  | cons a l ih =>
    have step : forEach (a :: l) f s = forEach l f (f a s) := rfl
    rw [step, h a (by simp), ih fun b hb => h b (List.mem_cons_of_mem _ hb)]

theorem mem_span {lo hi n : Nat} (h : n ∈ span lo hi) : lo ≤ n ∧ n < hi := by
  simp only [span, List.mem_map, List.mem_range] at h
  omega

theorem State.fenceLift_lifts {s : State} {c : Nat} (hs : s.stopped = false) (hf : s.fbit F.YCU_CL_FENCE_FENCED c = true)
    (hl : ∀ n, 384 + 4 * c ≤ n → n < 388 + 4 * c → s.level n = 0)
    (ht : ∀ t, 32 * c ≤ t → t < 32 * c + 32 → (s.thread t).st ≠ .halt) (hp : s.hts.places = []) :
    s.fenceLift c = s.putBit F.YCU_CL_FENCE_FENCED c false := by
  have calm : (span (384 + 4 * c) (388 + 4 * c)).any (fun n => decide (1 ≤ s.level n)) = false := by
    rw [List.any_eq_false]
    intro n hn
    obtain ⟨h1, h2⟩ := mem_span hn
    simp [hl n h1 h2]
  have stays : forEach ((List.range 32).map (32 * c + ·)) (fun t s => s.resumeThread t) (s.putBit F.YCU_CL_FENCE_FENCED c false)
      = s.putBit F.YCU_CL_FENCE_FENCED c false := by
    refine forEach_unchanged fun t m => State.resumeThread_other ?_
    obtain ⟨k, hk, rfl⟩ := List.mem_map.1 m
    rw [State.thread, State.putBit_yal]
    exact ht _ (by omega) (by have := List.mem_range.1 hk; omega)
  rw [State.fenceLift, hs, State.fenced, hf, calm]
  simp only [Bool.not_true, Bool.or_self, Bool.false_eq_true, if_false, stays]
  exact State.rehome_none ((congrArg Hts.places (State.putBit_hts ..)).trans hp)

/-! ### Sequencers (R165) -/

/-- The registers of a sequencer's state but EN (R165). -/
def State.putSeqState (s : State) (n halted cause exc pc : Nat) : State :=
  (((s.put (F.SQ_CTL_HALTED n) halted).put (F.SQ_CTL_CAUSE n) cause).put (F.SQ_CTL_EXC n) exc).put (F.SQ_HALT_PC_PC n) pc

/-- A field reads as before a write of another field: of other words, or of other bits of the same register. -/
theorem State.get_put_off (s : State) (f g : Fld) (v : Nat) (hf : f.lo ≤ f.hi)
    (h : f.addr + 4 * (f.hi / 32 + 1) ≤ g.addr ∨ g.addr + 4 * (g.hi / 32 + 1) ≤ f.addr ∨
      g.addr = f.addr ∧ (g.hi < f.lo ∨ f.hi < g.lo)) : (s.put f v).get g = s.get g := by
  rcases h with h | h | ⟨ha, h⟩
  · exact State.get_put_ne _ _ _ _ (.inl h)
  · exact State.get_put_ne _ _ _ _ (.inr h)
  · exact State.get_put_disj _ _ _ _ hf ha h

section
variable (s : State) (n halted cause exc pc : Nat)

@[simp] theorem State.putSeqState_yal : (s.putSeqState n halted cause exc pc).yal = s.yal := by simp [State.putSeqState]
@[simp] theorem State.putSeqState_seqs : (s.putSeqState n halted cause exc pc).seqs = s.seqs := by simp [State.putSeqState]
@[simp] theorem State.putSeqState_sd : (s.putSeqState n halted cause exc pc).sd = s.sd := by simp [State.putSeqState]
@[simp] theorem State.putSeqState_gm : (s.putSeqState n halted cause exc pc).gm = s.gm := by simp [State.putSeqState]
@[simp] theorem State.quiet_putSeqState : (s.putSeqState n halted cause exc pc).quiet = s.quiet := by simp [State.putSeqState]

/-- Each field of the two registers reads as it was put, and EN as before. -/
theorem State.putSeqState_get :
    (s.putSeqState n halted cause exc pc).get (F.SQ_CTL_EN n) = s.get (F.SQ_CTL_EN n) ∧
    (s.putSeqState n halted cause exc pc).get (F.SQ_CTL_HALTED n) = halted % 2 ∧
    (s.putSeqState n halted cause exc pc).get (F.SQ_CTL_CAUSE n) = cause % 8 ∧
    (s.putSeqState n halted cause exc pc).get (F.SQ_CTL_EXC n) = exc % 8 ∧
    (s.putSeqState n halted cause exc pc).get (F.SQ_HALT_PC_PC n) = pc % 2 ^ 14 := by
  unfold State.putSeqState
  refine ⟨?_, ?_, ?_, ?_, ?_⟩ <;> simp (disch := (dsimp only [F.SQ_CTL_EN, F.SQ_CTL_HALTED, F.SQ_CTL_CAUSE, F.SQ_CTL_EXC, F.SQ_HALT_PC_PC]; omega)) only [State.get_put_off, State.get_put_self] <;> rfl

/-- EN was written last: the other fields read as they were put. -/
theorem State.putSeqState_putEn (en : Nat) :
    let u := (s.putSeqState n halted cause exc pc).put (F.SQ_CTL_EN n) en
    u.get (F.SQ_CTL_EN n) = en % 2 ∧ u.get (F.SQ_CTL_HALTED n) = halted % 2 ∧ u.get (F.SQ_CTL_CAUSE n) = cause % 8 ∧
      u.get (F.SQ_CTL_EXC n) = exc % 8 ∧ u.get (F.SQ_HALT_PC_PC n) = pc % 2 ^ 14 := by
  obtain ⟨-, halted', cause', exc', pc'⟩ := s.putSeqState_get n halted cause exc pc
  rw [← halted', ← cause', ← exc', ← pc']
  simp (disch := (dsimp only [F.SQ_CTL_EN, F.SQ_CTL_HALTED, F.SQ_CTL_CAUSE, F.SQ_CTL_EXC, F.SQ_HALT_PC_PC]; omega))
    only [State.get_put_off, State.get_put_self, and_true]
  rfl

end

/-- Bit 0 of a written word whose EN field was set to `x`. -/
theorem bit_withFld_en (v : Word) (n x : Nat) : bit (withFld v (F.SQ_CTL_EN n) x).toNat 0 = (x % 2 == 1) := by
  have parity : (withFld v (F.SQ_CTL_EN n) x).toNat % 2 = x % 2 := by
    simp only [withFld, F.SQ_CTL_EN, setBits, BitVec.toNat_ofNat]
    omega
  rw [bit, pow_zero, Nat.div_one, parity]

section
variable {s : State} {n : Nat} (h63 : s.level 63 = 0) (hl : ∀ k, 32 + 8 * n ≤ k → k < 39 + 8 * n → s.level k = 0)
  (hgen : s.get (F.YCU_GEN_GEN (64 + n)) ≠ 0xFFFFFFFF) (hen : s.on (F.SQ_CTL_EN n) = false)
include h63 hl hgen hen

theorem State.seqEnable_starts : s.seqEnable n = (s.seqStart n).put (F.SQ_CTL_EN n) 1 := by
  have calm : (63 :: span (32 + 8 * n) (39 + 8 * n)).any (fun k => decide (1 ≤ s.level k)) = false := by
    rw [List.any_eq_false]
    intro k hk
    rcases List.mem_cons.1 hk with rfl | hk
    · simp [h63]
    · obtain ⟨h1, h2⟩ := mem_span hk
      simp [hl k h1 h2]
  rw [State.seqEnable, calm, hen, Bool.false_or, Bool.false_and, Bool.or_false, if_neg (by simpa using hgen)]

end

/-- A sequencer that starts: its registers, its state, and what reports it. -/
theorem State.seqStart_eq (s : State) (n : Nat) : s.seqStart n = ((s.setRegs (512 + n) 0 (List.replicate 16 0)).setSeq n
    { s.seq n with pc := 0, wait := none, halting := none }).putSeqState n 0 0 0 0 := by
  have same : (s.setRegs (512 + n) 0 (List.replicate 16 0)).seq n = s.seq n := by
    generalize List.replicate 16 (0 : DWord) = l
    rw [State.setRegs_eq]
    rfl
  rw [← same]
  rfl

/-! ### A sequencer without husks and window set halts (R165) -/

theorem State.sqa_setSqa (s : State) (n m : Nat) (x : SqAir) :
    (s.setSqa n x).sqa m = if m = n ∧ m < s.air.sq.length then x else s.sqa m := getD_setAt _ _ _ _ _

theorem State.markAll_nil (s : State) : s.markAll [] = s := rfl

theorem State.releaseWindow_nil {s : State} {n : Nat} (h : (s.sqa n).window = []) :
    s.releaseWindow n = s.setSqa n { s.sqa n with window := [] } := by
  rw [State.releaseWindow, h]
  exact ite_self _

section
variable {s : State} {n : Nat} (h0 : s.husk n 0 = none) (h1 : s.husk n 1 = none)
include h0 h1

theorem State.undoAll_none (code : Nat) : s.undoAll n code = s := by
  have first : s.firstSlot n = 0 := by rw [State.firstSlot, h0, h1]
  rw [State.undoAll, State.undoWhere, first]
  simp only [h0, h1, Bool.false_eq_true, if_false, Nat.sub_zero]

theorem State.freeCommitted_none : ∃ x, s.freeCommitted n = s.setSqa n x := by
  have e0 : (s.sqa n).husk0 = none := h0
  have e1 : (s.sqa n).husk1 = none := h1
  refine ⟨{ s.sqa n with husk0 := none, husk1 := none }, ?_⟩
  rw [State.freeCommitted]
  simp only [e0, e1, Option.map_none, Option.toList_none, List.append_nil, List.flatMap_nil, State.markAll_nil, ite_self]

end

/-- The state with other air tables. -/
def State.withAir (s : State) (a : Air) : State := { s with air := a }

@[simp] theorem State.withAir_yal (s : State) (a : Air) : (s.withAir a).yal = s.yal := rfl
@[simp] theorem State.withAir_sd (s : State) (a : Air) : (s.withAir a).sd = s.sd := rfl
@[simp] theorem State.withAir_gm (s : State) (a : Air) : (s.withAir a).gm = s.gm := rfl
@[simp] theorem State.seq_withAir (s : State) (a : Air) (n : Nat) : (s.withAir a).seq n = s.seq n := rfl
@[simp] theorem State.quiet_withAir (s : State) (a : Air) : (s.withAir a).quiet = s.quiet := rfl
@[simp] theorem State.withAir_get (s : State) (a : Air) (f : Fld) : (s.withAir a).get f = s.get f :=
  State.get_congr (s := s.withAir a) (t := s) rfl f

/-- A sequencer without husks and window set that halts: its wait ends, and CAUSE, EXC and HALT_PC report. -/
theorem State.seqHalt_bare {s : State} {n : Nat} (hlen : n < s.air.sq.length) (h0 : s.husk n 0 = none) (h1 : s.husk n 1 = none)
    (hw : (s.sqa n).window = []) (r : HaltReq) : ∃ a, s.seqHalt n r =
      ((s.setSeq n { s.seq n with wait := none, halting := none }).withAir a).putSeqState n 1 r.cause r.exc
        (if r.cause = 1 ∨ r.cause = 2 then (s.seq n).pc / 4 else 0) := by
  let u := (s.setSeq n { s.seq n with wait := none, halting := none }).setSqa n { s.sqa n with window := [] }
  have sqa : u.sqa n = { s.sqa n with window := [] } := (State.sqa_setSqa _ _ _ _).trans (if_pos ⟨rfl, hlen⟩)
  have e0 : u.husk n 0 = none := (congrArg SqAir.husk0 sqa).trans h0
  have e1 : u.husk n 1 = none := (congrArg SqAir.husk1 sqa).trans h1
  have window : (s.setSeq n { s.seq n with wait := none, halting := none }).releaseWindow n = u := State.releaseWindow_nil hw
  obtain ⟨x, free⟩ := State.freeCommitted_none e0 e1
  rw [State.seqHalt]
  simp only [window, State.undoAll_none e0 e1, free]
  exact ⟨_, rfl⟩

/-- A sequencer that is not halting leaves a quiet state quiet. -/
theorem State.quiet_setSeq {s : State} {n : Nat} {q : Seqr} (hq : q.halting = none) (h : s.quiet = true) :
    (s.setSeq n q).quiet = true := by
  simp only [State.quiet, State.setSeq_raised, State.raised_of_quiet h, Bool.and_eq_true, List.isEmpty_iff, List.all_eq_true,
    List.mem_range, true_and]
  intro m hm
  rw [State.seq_setSeq]
  split
  · rw [hq]
    rfl
  · rw [State.halting_of_quiet h m hm]
    rfl

theorem State.quiet_setRegs (s : State) (x r : Nat) (l : List DWord) : (s.setRegs x r l).quiet = s.quiet :=
  (State.UnitsOnly.setRegs s x r l).quiet

@[simp] theorem State.seq_close (s : State) (n : Nat) : s.close.seq n = s.seq n := by rw [State.seq, State.seq, s.close_seqs]

@[simp] theorem State.seq_put (s : State) (f : Fld) (v n : Nat) : (s.put f v).seq n = s.seq n := by
  rw [State.seq, State.seq, State.put_seqs]

@[simp] theorem State.seq_putSeqState (s : State) (n h c e p m : Nat) : (s.putSeqState n h c e p).seq m = s.seq m := by
  rw [State.seq, State.seq, State.putSeqState_seqs]

@[simp] theorem State.reg_close (s : State) (x r : Nat) : s.close.reg x r = s.reg x r :=
  State.reg_congr (congrArg Yalvo.g s.close_yal) x r

section
variable {who : Fin 4} {s : State}

theorem completes_threadResume {un : Fin 64} {n : Fin 8} {v : Word} (h : s.takes who.val 5 = true) (hs : s.stopped = false)
    (hv : v.toNat % 256 = 2 ^ n.val) (hst : (s.thread (8 * un.val + n.val)).st = .halt) :
    Completes (.threadResume who un v) s (s.resumeThread (8 * un.val + n.val)) := by
  obtain ⟨-, -, -, -, -, -, -, quiet⟩ := State.resumeThread_keeps hst
  refine completes_write rfl (domainOf_thrCtl un) h ?_ (quiet.trans ((s.takes_iff _ _).1 h).1)
  rw [hv, State.threadResume, hs, onesOf_bit8]
  rfl

theorem completes_fenceLift {c : Fin 16} {v : Word} (h : s.takes who.val 5 = true) (hs : s.stopped = false)
    (hv : v.toNat = 2 ^ c.val) (hf : s.fbit F.YCU_CL_FENCE_FENCED c.val = true)
    (hl : ∀ n, 384 + 4 * c.val ≤ n → n < 388 + 4 * c.val → s.level n = 0)
    (ht : ∀ t, 32 * c.val ≤ t → t < 32 * c.val + 32 → (s.thread t).st ≠ .halt) (hp : s.hts.places = []) :
    Completes (.fenceLift who v) s (s.putBit F.YCU_CL_FENCE_FENCED c.val false) := by
  refine completes_write rfl (by decide) h ?_ ((State.quiet_put _ _ _).trans ((s.takes_iff _ _).1 h).1)
  rw [State.clFenceWrite, hv, onesOf_bit16]
  exact State.fenceLift_lifts hs hf hl ht hp

variable {n : Fin 4} {v : Word} (h : s.takes who.val (if n.val < 3 then 11 else 5) = true)
include h

theorem completes_seqEnable (h63 : s.level 63 = 0) (hl : ∀ k, 32 + 8 * n.val ≤ k → k < 39 + 8 * n.val → s.level k = 0)
    (hgen : s.get (F.YCU_GEN_GEN (64 + n.val)) ≠ 0xFFFFFFFF) (hen : s.on (F.SQ_CTL_EN n.val) = false) :
    Completes (.seqEnable who n v) s ((((s.setRegs (512 + n.val) 0 (List.replicate 16 0)).setSeq n.val
      { s.seq n.val with pc := 0, wait := none, halting := none }).putSeqState n.val 0 0 0 0).put (F.SQ_CTL_EN n.val) 1) := by
  have hq := ((s.takes_iff _ _).1 h).1
  refine completes_write rfl (domainOf_sqCtl n) h ?_ ?_
  · rw [State.seqCtlWrite, bit_withFld_en, ← State.seqStart_eq]
    exact State.seqEnable_starts h63 hl hgen hen
  · rw [State.quiet_put, State.quiet_putSeqState]
    exact State.quiet_setSeq rfl ((State.quiet_setRegs _ _ _ _).trans hq)

theorem completes_seqDisable (hen : s.on (F.SQ_CTL_EN n.val) = true) (hhalt : s.on (F.SQ_CTL_HALTED n.val) = false)
    (hlen : n.val < s.air.sq.length) (h0 : s.husk n.val 0 = none) (h1 : s.husk n.val 1 = none)
    (hw : (s.sqa n.val).window = []) : ∃ a, Completes (.seqDisable who n v) s
      ((((s.put (F.SQ_CTL_EN n.val) 0).setSeq n.val { s.seq n.val with wait := none, halting := none }).withAir a).putSeqState
        n.val 1 3 0 0) := by
  have hq := ((s.takes_iff _ _).1 h).1
  have sqa : (s.put (F.SQ_CTL_EN n.val) 0).air = s.air := State.put_air _ _ _
  have seq : (s.put (F.SQ_CTL_EN n.val) 0).seq n.val = s.seq n.val := by rw [State.seq, State.seq, State.put_seqs]
  obtain ⟨a, halts⟩ := State.seqHalt_bare (s := s.put (F.SQ_CTL_EN n.val) 0) (by rwa [sqa])
    (by rwa [State.husk, State.sqa, sqa]) (by rwa [State.husk, State.sqa, sqa]) (by rwa [State.sqa, sqa]) ⟨3, 0, 7⟩
  refine ⟨a, completes_write rfl (domainOf_sqCtl n) h ?_ ?_⟩
  · rw [State.seqCtlWrite, bit_withFld_en, ← seq]
    refine Eq.trans ?_ halts
    simp [State.seqDisable, hen, hhalt]
  · rw [State.quiet_putSeqState, State.quiet_withAir]
    exact State.quiet_setSeq rfl ((State.quiet_put _ _ _).trans hq)

end

section
variable {who : Fin 4} {s : State}

/-- A thread resumed is idle, or off without an image, its registers and pw discarded (R45). -/
theorem answers_threadResume {un : Fin 64} {n : Fin 8} {v : Word} (h : s.takes who.val 5 = true) (hs : s.stopped = false)
    (hv : v.toNat % 256 = 2 ^ n.val) (hst : (s.thread (8 * un.val + n.val)).st = .halt) :
    Answers (.threadResume who un v) s (fun u =>
      (u.thread (8 * un.val + n.val)).st = (if s.get (F.YCU_GEN_GEN un.val) = 0xFFFFFFFF then .off else .idle) ∧
      (∀ r, r < 32 → u.reg (8 * un.val + n.val) r = 0) ∧
      (∀ k, k < 512 → memByte u.yal.pw (512 * (8 * un.val + n.val) + k) = 0) ∧
      (∀ m, m ≠ 8 * un.val + n.val → u.thread m = s.thread m) ∧ u.regs = s.regs ∧ u.yal.lm = s.yal.lm ∧ u.gm = s.gm) := by
  refine (completes_threadResume h hs hv hst).answers ?_
  obtain ⟨st, reg, pw, threads, regs, lm, gm, -⟩ := State.resumeThread_keeps hst
  rw [State.thread_close, State.close_yal, State.close_regs, State.close_gm]
  refine ⟨st.trans ?_, fun r hr => (State.reg_congr (congrArg Yalvo.g (State.close_yal _)) _ _).trans (reg r hr), pw,
    fun m hm => (State.thread_close _ _).trans (threads m hm), regs, lm, gm⟩
  rw [State.hasImage, show (8 * un.val + n.val) / 8 = un.val by omega]
  by_cases hg : s.get (F.YCU_GEN_GEN un.val) = 0xFFFFFFFF <;> simp [hg]

variable {n : Fin 4} {v : Word} (h : s.takes who.val (if n.val < 3 then 11 else 5) = true) (hlen : n.val < s.seqs.length)
include h hlen

/-- A sequencer enabled starts at code byte 0 with its registers at 0 (R165). -/
theorem answers_seqEnable (h63 : s.level 63 = 0) (hl : ∀ k, 32 + 8 * n.val ≤ k → k < 39 + 8 * n.val → s.level k = 0)
    (hgen : s.get (F.YCU_GEN_GEN (64 + n.val)) ≠ 0xFFFFFFFF) (hen : s.on (F.SQ_CTL_EN n.val) = false) :
    Answers (.seqEnable who n v) s (fun u =>
      u.on (F.SQ_CTL_EN n.val) = true ∧ u.on (F.SQ_CTL_HALTED n.val) = false ∧ u.get (F.SQ_CTL_CAUSE n.val) = 0 ∧
      u.get (F.SQ_CTL_EXC n.val) = 0 ∧ u.get (F.SQ_HALT_PC_PC n.val) = 0 ∧ (u.seq n.val).pc = 0 ∧
      (u.seq n.val).wait = none ∧ (∀ r, r < 16 → u.reg (512 + n.val) r = 0) ∧
      (∀ m, m ≠ n.val → u.seq m = s.seq m) ∧ u.sd = s.sd ∧ u.gm = s.gm) := by
  refine (completes_seqEnable h h63 hl hgen hen).answers ?_
  obtain ⟨en, halted, cause, exc, pc⟩ := ((s.setRegs (512 + n.val) 0 (List.replicate 16 0)).setSeq n.val
    { s.seq n.val with pc := 0, wait := none, halting := none }).putSeqState_putEn n.val 0 0 0 0 1
  have cleared := s.reg_clearRegs (512 + n.val) 16
  generalize List.replicate 16 (0 : DWord) = l at *
  have started : ((s.setRegs (512 + n.val) 0 l).setSeq n.val { s.seq n.val with pc := 0, wait := none, halting := none }).seq
      n.val = { s.seq n.val with pc := 0, wait := none, halting := none } := by
    rw [State.seq_setSeq, if_pos ⟨rfl, by rwa [State.setRegs_eq]⟩]
  have others : ∀ m, m ≠ n.val → ((s.setRegs (512 + n.val) 0 l).setSeq n.val
      { s.seq n.val with pc := 0, wait := none, halting := none }).seq m = s.seq m := fun m hm => by
    rw [State.seq_setSeq, if_neg fun h => hm h.1, State.setRegs_eq]
    rfl
  have stays : (s.setRegs (512 + n.val) 0 l).sd = s.sd ∧ (s.setRegs (512 + n.val) 0 l).gm = s.gm :=
    ⟨(State.UnitsOnly.setRegs s _ _ l).sd, (State.UnitsOnly.setRegs s _ _ l).gm⟩
  simp only [State.on, State.close_get, en, halted, cause, exc, pc, State.seq_close, State.seq_put, State.seq_putSeqState,
    started, State.reg_close, State.close_sd, State.close_gm, State.put_sd, State.put_gm, State.putSeqState_sd,
    State.putSeqState_gm, State.setSeq_sd, State.setSeq_gm, stays]
  refine ⟨by decide, by decide, by decide, by decide, by decide, trivial, trivial, fun r hr => ?_, others, trivial, trivial⟩
  exact (State.reg_congr (by simp) _ _).trans (cleared r hr)

/-- A sequencer disabled halts with CAUSE 3 where it stands, and its wait ends (R52, R165). -/
theorem answers_seqDisable (hen : s.on (F.SQ_CTL_EN n.val) = true) (hhalt : s.on (F.SQ_CTL_HALTED n.val) = false)
    (hlen' : n.val < s.air.sq.length) (h0 : s.husk n.val 0 = none) (h1 : s.husk n.val 1 = none)
    (hw : (s.sqa n.val).window = []) : Answers (.seqDisable who n v) s (fun u =>
      u.on (F.SQ_CTL_EN n.val) = false ∧ u.on (F.SQ_CTL_HALTED n.val) = true ∧ u.get (F.SQ_CTL_CAUSE n.val) = 3 ∧
      u.get (F.SQ_CTL_EXC n.val) = 0 ∧ (u.seq n.val).wait = none ∧ (u.seq n.val).pc = (s.seq n.val).pc ∧
      u.yal.g = s.yal.g ∧ u.sd = s.sd ∧ u.gm = s.gm) := by
  obtain ⟨a, halts⟩ := completes_seqDisable (v := v) h hen hhalt hlen' h0 h1 hw
  obtain ⟨en, halted, cause, exc, -⟩ := (((s.put (F.SQ_CTL_EN n.val) 0).setSeq n.val
    { s.seq n.val with wait := none, halting := none }).withAir a).putSeqState_get n.val 1 3 0 0
  have off : (s.put (F.SQ_CTL_EN n.val) 0).get (F.SQ_CTL_EN n.val) = 0 := State.get_put_self _ _ _ (Nat.le_refl 0)
  have seq : ((s.put (F.SQ_CTL_EN n.val) 0).setSeq n.val { s.seq n.val with wait := none, halting := none }).seq n.val
      = { s.seq n.val with wait := none, halting := none } := by
    rw [State.seq_setSeq, if_pos ⟨rfl, by rwa [State.put_seqs]⟩]
  refine halts.answers ?_
  simp only [State.on, State.close_get, en, halted, cause, exc, State.withAir_get, State.setSeq_get, off, State.seq_close,
    State.seq_putSeqState, State.seq_withAir, seq, State.close_yal, State.close_sd, State.close_gm, State.putSeqState_yal,
    State.putSeqState_sd, State.putSeqState_gm, State.withAir_yal, State.withAir_sd, State.withAir_gm, State.setSeq_yal,
    State.setSeq_sd, State.setSeq_gm, State.put_yal, State.put_sd, State.put_gm]
  decide

end

/-- Settles O12, from what each operation does. -/
theorem threadsAndSequencers : Obligations.ThreadsAndSequencers := by
  unfold Obligations.ThreadsAndSequencers
  exact ⟨fun _ _ _ _ _ h hs hv hst => answers_threadResume h hs hv hst,
    fun _ _ _ _ h hs hv hf hl ht hp => completes_fenceLift h hs hv hf hl ht hp, fun _ _ _ _ h hlen =>
    ⟨answers_seqEnable h hlen, answers_seqDisable h hlen⟩⟩

end Sys2Proof.Machine
end

section
/-! Writing register words again: a field's value may be written over, also with writes of a higher register between. -/

namespace Sys2Proof.Machine

section
variable {α : Type}

theorem tabDel_tabDel (k : Nat) (t : Tab α) : tabDel k (tabDel k t) = tabDel k t := by
  induction t with
  | nil => rfl
  | cons e t ih =>
    by_cases h : e.1 = k
    · simpa only [tabDel, h, if_true] using ih
    · simp only [tabDel, h, if_false, ih]

theorem tabDel_comm (j k : Nat) (t : Tab α) : tabDel j (tabDel k t) = tabDel k (tabDel j t) := by
  induction t with
  | nil => rfl
  | cons e t ih => by_cases hj : e.1 = j <;> by_cases hk : e.1 = k <;> simp_all [tabDel]

theorem tabDel_tabIns_self (k : Nat) (v : α) (t : Tab α) : tabDel k (tabIns k v t) = tabDel k t := by
  induction t with
  | nil => simp [tabIns, tabDel]
  | cons e t ih =>
    by_cases h : k < e.1
    · simp [tabIns, h, tabDel]
    · simp [tabIns, h, tabDel, ih]

/-- Entries of a lower key do not move where an entry goes. -/
theorem tabDel_tabIns_lt {j k : Nat} (h : j < k) (v : α) (t : Tab α) : tabDel j (tabIns k v t) = tabIns k v (tabDel j t) := by
  induction t with
  | nil => simp [tabIns, tabDel, show k ≠ j by omega]
  | cons e t ih =>
    by_cases hk : k < e.1
    · simp [tabIns, hk, tabDel, show k ≠ j by omega, show e.1 ≠ j by omega]
    · by_cases hj : e.1 = j
      · simp [tabIns, tabDel, hj, ih, show ¬ k < j by omega]
      · simp [tabIns, hk, tabDel, hj, ih]

theorem tabGet_congr (d : Nat → α) {t u : Tab α} {j k : Nat} (h : tabDel k t = tabDel k u) (hj : j ≠ k) :
    tabGet d t j = tabGet d u j := by
  rw [← tabGet_tabDel_ne d hj, h, tabGet_tabDel_ne d hj]

variable [DecidableEq α] (d : Nat → α)

theorem tabDel_tabSet_self (k : Nat) (v : α) (t : Tab α) : tabDel k (tabSet d t k v) = tabDel k t := by
  unfold tabSet
  split
  · exact tabDel_tabDel k t
  · rw [tabDel_tabIns_self, tabDel_tabDel]

theorem tabDel_tabSet_lt {j k : Nat} (h : j < k) (v : α) (t : Tab α) :
    tabDel j (tabSet d t k v) = tabSet d (tabDel j t) k v := by
  unfold tabSet
  split
  · exact tabDel_comm j k t
  · rw [tabDel_tabIns_lt h, tabDel_comm]

/-- What is written under a key does not depend on what stood there. -/
theorem tabSet_congr {t u : Tab α} {k : Nat} (h : tabDel k t = tabDel k u) (v : α) : tabSet d t k v = tabSet d u k v := by
  unfold tabSet
  rw [h]

end

/-- Bits written over bits. -/
theorem setBits_setBits (x : Nat) {hi lo : Nat} (h : lo ≤ hi) (v w : Nat) : setBits (setBits x hi lo v) hi lo w = setBits x hi lo w := by
  refine Nat.eq_of_testBit_eq fun i => ?_
  rw [testBit_setBits _ _ _ _ _ h, testBit_setBits _ _ _ _ _ h, testBit_setBits _ _ _ _ _ h]
  split <;> rfl

/-- A field of one word is put by writing its word. -/
theorem State.put_word (s : State) {f : Fld} (hf : f.hi < 32) (v : Nat) :
    s.put f v = s.setWord f.addr (BitVec.ofNat 32 (setBits (s.word f.addr).toNat f.hi f.lo v)) := by
  rw [State.put, Nat.div_eq_of_lt hf]
  simp only [State.setWide, State.wide, Nat.mul_zero, Nat.add_zero]

/-- Two states that differ in field `f` alone, or in where its word stands in the table of register words. -/
structure State.SameBut (f : Fld) (s t : State) : Prop where
  rest : s = { t with regs := s.regs }
  others : tabDel f.addr s.regs = tabDel f.addr t.regs
  bits : ∀ w, setBits (s.word f.addr).toNat f.hi f.lo w = setBits (t.word f.addr).toNat f.hi f.lo w

namespace State.SameBut

variable {f : Fld} {s t : State}

theorem eq_put (hf : f.hi < 32) (h : SameBut f s t) (v : Nat) : s.put f v = t.put f v := by
  obtain ⟨rest, others, bits⟩ := h
  rw [State.put_word s hf, State.put_word t hf, bits, State.setWord, State.setWord, tabSet_congr _ others, rest]

theorem put_self (hf : f.hi < 32) (hl : f.lo ≤ f.hi) (s : State) (v : Nat) : SameBut f (s.put f v) s := by
  rw [State.put_word s hf]
  refine ⟨rfl, tabDel_tabSet_self _ _ _ _, fun w => ?_⟩
  have small : setBits (s.word f.addr).toNat f.hi f.lo v < 2 ^ 32 := setBits_lt _ _ _ _ 32 hl hf (s.word f.addr).isLt
  rw [State.word_setWord_self, BitVec.toNat_ofNat, Nat.mod_eq_of_lt small, setBits_setBits _ hl]

theorem put_above {g : Fld} (hg : g.hi < 32) (ha : f.addr < g.addr) (h : SameBut f s t) (v : Nat) :
    SameBut f (s.put g v) (t.put g v) := by
  obtain ⟨rest, others, bits⟩ := h
  have word : s.word g.addr = t.word g.addr := tabGet_congr _ others (by omega)
  rw [State.put_word s hg, State.put_word t hg, word]
  refine ⟨?_, ?_, fun w => ?_⟩
  · rw [State.setWord, State.setWord, rest]
  · exact (tabDel_tabSet_lt _ ha _ _).trans ((congrArg (fun x => tabSet regReset x g.addr _) others).trans
      (tabDel_tabSet_lt _ ha _ _).symm)
  · rw [State.word_setWord_ne (by omega), State.word_setWord_ne (by omega), bits]

theorem setLoad (h : SameBut f s t) (l : Option Load) : SameBut f (s.setLoad l) (t.setLoad l) := by
  obtain ⟨rest, others, bits⟩ := h
  exact ⟨congrArg (fun s => State.setLoad s l) rest, others, bits⟩

end State.SameBut

theorem State.put_again (s : State) {f : Fld} (hf : f.hi < 32) (hl : f.lo ≤ f.hi) (v w : Nat) : (s.put f v).put f w = s.put f w :=
  (State.SameBut.put_self hf hl s v).eq_put hf w

end Sys2Proof.Machine
end

section
/-! The loader's rules (R51 - R56): how a load moves on, and how it ends. -/

namespace Sys2Proof.Machine

@[simp] theorem State.setLoad_setLoad (s : State) (l l' : Option Load) : (s.setLoad l).setLoad l' = s.setLoad l' := rfl
@[simp] theorem State.setLoad_load (s : State) (l : Option Load) : (s.setLoad l).yal.load = l := rfl
@[simp] theorem State.quiet_setLoad (s : State) (l : Option Load) : (s.setLoad l).quiet = s.quiet := rfl

theorem State.setLoad_same {s : State} {l : Option Load} (h : s.yal.load = l) : s.setLoad l = s := by
  rw [← h]
  rfl

/-! ### Moving a load on -/

section
variable {s : State} {l : Load} (hl : s.yal.load = some l)
include hl

/-- A load that waits, drains or copies goes no further. -/
theorem State.loadAdvance_stays (h : l.waiting = true ∨ l.draining ≠ [] ∨ l.copying ≠ []) (n : Nat) : s.loadAdvance n = s := by
  cases n with
  | zero => rfl
  | succ n =>
    have stop : (l.waiting || decide (l.draining ≠ []) || decide (l.copying ≠ [])) = true := by simpa [or_assoc] using h
    rw [State.loadAdvance, hl]
    exact if_pos stop

variable (hw : l.waiting = false) (hd : l.draining = []) (hc : l.copying = [])
include hw hd hc

/-- Units that are ready are copied together (R54). -/
theorem State.loadAdvance_ready (hr : l.ready ≠ []) (n : Nat) : s.loadAdvance (n + 1)
    = s.setLoad (some { l with copying := l.ready, ready := [], deadline := 0 }) := by
  rw [State.loadAdvance, hl]
  simp only [hw, hd, hc, ne_eq, not_true_eq_false, decide_false, Bool.or_self, Bool.false_eq_true, if_false, hr,
    not_false_eq_true, if_true]

/-- A load without a target left ends (R52, R56). -/
theorem State.loadAdvance_ends (hr : l.ready = []) (hu : l.units = []) (n : Nat) : s.loadAdvance (n + 1)
    = s.loadEnd (if l.skipped = 0 && !l.failed then 2 else 3) l.skipped false false := by
  rw [State.loadAdvance, hl]
  simp only [hw, hd, hc, hr, hu, ne_eq, not_true_eq_false, decide_false, Bool.or_self, Bool.false_eq_true, if_false,
    List.filter_nil, ite_self, if_true, decide_true, Bool.or_true]

/-- The units whose turn it is drain, and those that may not be loaded are skipped (R53, R56). -/
theorem State.loadAdvance_drains (hr : l.ready = []) {mine : List Nat}
    (hm : (if l.barrier then l.units else l.units.filter (fun u => u % 4 == l.round)) = mine)
    (hg : mine.filter (fun u => !s.unitBarred u) ≠ []) (n : Nat) : s.loadAdvance (n + 2) = s.setLoad (some { l with
      units := l.units.filter (fun u => u ∉ mine), draining := mine.filter (fun u => !s.unitBarred u), copied := []
      skipped := l.skipped + (mine.filter s.unitBarred).length
      deadline := if l.drain = 0 then 0 else s.now + 1000 * l.drain }) := by
  have some' : mine ≠ [] := fun h => hg (by rw [h]; rfl)
  rw [State.loadAdvance, hl]
  simp only [hw, hd, hc, hr, hm, some', ne_eq, not_true_eq_false, decide_false, Bool.or_self, Bool.false_eq_true, if_false]
  exact State.loadAdvance_stays rfl (.inr (.inl hg)) _

end

/-! ### The end of a load -/

section
variable (s : State) (status skipped : Nat) (hdr crc : Bool)

@[simp] theorem State.loadEnd_load : (s.loadEnd status skipped hdr crc).yal.load = none := by
  simp only [State.loadEnd, State.put_yal, State.setLoad_load]

@[simp] theorem State.loadEnd_ctl : (s.loadEnd status skipped hdr crc).ctl = s.ctl := by
  simp only [State.loadEnd, State.put_ctl, State.setLoad_ctl]

@[simp] theorem State.quiet_loadEnd : (s.loadEnd status skipped hdr crc).quiet = s.quiet := by
  simp only [State.loadEnd, State.quiet_put, State.quiet_setLoad]

theorem State.loadEnd_get {f : Fld} (h : f.addr + 4 * (f.hi / 32 + 1) ≤ 0x800104 ∨ 0x800114 ≤ f.addr) :
    (s.loadEnd status skipped hdr crc).get f = s.get f := by
  have apart : ∀ (u : State) (g : Fld) (v : Nat), g.addr = 0x800104 ∨ g.addr = 0x800110 → g.hi < 32 → (u.put g v).get f = u.get f :=
    fun u g v ha hg => State.get_put_ne _ _ _ _ (by rw [Nat.div_eq_of_lt hg]; omega)
  rw [State.loadEnd, apart _ _ _ (.inl rfl) (by decide), apart _ _ _ (.inr rfl) (by decide),
    apart _ _ _ (.inr rfl) (by decide), apart _ _ _ (.inr rfl) (by decide), apart _ _ _ (.inr rfl) (by decide), State.setLoad_get]

end

/-- Nothing waits for the end of a load: no mode request, trim or frequency change. -/
theorem State.modeGo_idle {s : State} (hs : s.ctl.slot = none) (ht : s.ctl.trimLate = false) (hl : s.yal.load = none)
    (hf : s.on F.DMC_CTL_FCHG = false) (hr : s.on F.DMC_CTL_TRAIN = false) : s.modeGo = s := by
  rw [State.modeGo]
  simp only [hs, ht, Bool.false_and, Bool.false_eq_true, if_false]
  rw [State.loadResume, hl]
  simp only [State.dmcStart, hf, hr, Bool.false_and, Bool.false_eq_true, if_false, ite_self]

theorem State.loadStep_goesOn {s : State} {f : State → State} {l : Load} (h : (f s).yal.load = some l) : s.loadStep f = f s := by
  have busy : (f s).loadBusy = true := by rw [State.loadBusy, h]; rfl
  rw [State.loadStep, busy]
  simp

theorem State.loadStep_ends {s : State} {f : State → State} (h : (f s).yal.load = none) (hm : (f s).modeGo = f s) :
    s.loadStep f = f s := by
  have idle : (f s).loadBusy = false := by rw [State.loadBusy, h]; rfl
  rw [State.loadStep, idle, hm]
  exact ite_self _

/-! ### A unit that has drained, and the drain timeout (R53, R56) -/

section
variable {un : Fin 64} {l : Load} {s : State} (hl : s.yal.load = some l) (hu : un.val ∈ l.draining)
  (hq : s.unitQuiet un.val = true)
include hl hu hq

theorem State.loadUnitDrained_barred (hb : s.unitBarred un.val = true) : s.loadUnitDrained un.val = (s.setLoad (some { l with
    draining := l.draining.filter (· != un.val), skipped := l.skipped + 1 })).loadAdvance 8 := by
  rw [State.loadUnitDrained, hl]
  simp only [hu, hq, and_self, if_true, hb, State.loadSkip, hl]

theorem State.loadUnitDrained_copied (hb : s.unitBarred un.val = false) : s.loadUnitDrained un.val = (s.setLoad (some
    (if l.barrier then { l with draining := l.draining.filter (· != un.val), ready := l.ready ++ [un.val] }
      else { l with draining := l.draining.filter (· != un.val), copying := l.copying ++ [un.val] }))).loadAdvance 8 := by
  rw [State.loadUnitDrained, hl]
  simp only [hu, hq, and_self, if_true, hb, Bool.false_eq_true, if_false]

end

/-- The units that still drain at the timeout are skipped. -/
theorem State.skipAll {s : State} {l : Load} (hl : s.yal.load = some l) (us : List Nat) :
    forEach us (fun u s => s.loadSkip u) s = s.setLoad (some { l with
      draining := l.draining.filter (fun u => u ∉ us), skipped := l.skipped + us.length }) := by
  induction us generalizing s l with
  | nil =>
    have same : l.draining.filter (fun u => u ∉ ([] : List Nat)) = l.draining := by simp
    rw [same]
    exact (State.setLoad_same hl).symm
  | cons u us ih =>
    have step : forEach (u :: us) (fun u s => s.loadSkip u) s = forEach us (fun u s => s.loadSkip u) (s.loadSkip u) := rfl
    have skip : s.loadSkip u = s.setLoad (some { l with draining := l.draining.filter (· != u), skipped := l.skipped + 1 }) := by
      rw [State.loadSkip, hl]
    rw [step, skip, ih (State.setLoad_load _ _), State.setLoad_setLoad]
    have count : l.skipped + 1 + us.length = l.skipped + (u :: us).length := by rw [List.length_cons]; omega
    have rest : (l.draining.filter (· != u)).filter (fun x => x ∉ us) = l.draining.filter (fun x => x ∉ u :: us) := by
      rw [List.filter_filter]
      congr 1
      funext x
      by_cases hx : x = u <;> simp [hx]
    rw [rest, count]

theorem State.loadDrainTimeout_eq {s : State} {l : Load} (hl : s.yal.load = some l) (hdl : l.deadline ≠ 0) (hd : l.draining ≠ []) :
    s.loadDrainTimeout = ((s.until l.deadline).setLoad (some { l with
      draining := [], skipped := l.skipped + l.draining.length })).loadAdvance 8 := by
  have gone : l.draining.filter (fun u => u ∉ l.draining) = [] := by simp
  rw [State.loadDrainTimeout, hl]
  simp only [hdl, hd, ne_eq, not_false_eq_true, and_self, if_true]
  rw [State.skipAll ((congrArg Yalvo.load (State.until_yal _ _)).trans hl), gone]

end Sys2Proof.Machine
end

section
/-! A program load's start: GO in YCU.LOAD_CTL (R51 - R56). -/

namespace Sys2Proof.Machine

/-! ### What the loader's registers leave alone -/

/-- The field stands in neither of the registers LOAD_CTL and LOAD_STAT. -/
abbrev Fld.besideLoader (f : Fld) : Prop := f.addr + 4 * (f.hi / 32 + 1) ≤ 0x800104 ∨
  0x800108 ≤ f.addr ∧ f.addr + 4 * (f.hi / 32 + 1) ≤ 0x800110 ∨ 0x800114 ≤ f.addr

/-- Nothing but the loader's registers and the load has changed. -/
structure State.LoaderOnly (s u : State) : Prop where
  rest : u.setLoad s.yal.load = { s with regs := u.regs }
  get : ∀ f : Fld, Fld.besideLoader f → u.get f = s.get f

namespace State.LoaderOnly

variable {s u w : State}

theorem refl (s : State) : s.LoaderOnly s := ⟨rfl, fun _ _ => rfl⟩

theorem put (h : s.LoaderOnly u) {g : Fld} (ha : g.addr = 0x800104 ∨ g.addr = 0x800110) (hg : g.hi < 32) (v : Nat) :
    s.LoaderOnly (u.put g v) := by
  obtain ⟨rest, get⟩ := h
  refine ⟨?_, fun f hf => (State.get_put_ne _ _ _ _ (by rw [Nat.div_eq_of_lt hg]; omega)).trans (get f hf)⟩
  rw [State.put_eq]
  exact congrArg (fun x : State => { x with regs := (u.put g v).regs }) rest

theorem setLoad (h : s.LoaderOnly u) (l : Option Load) : s.LoaderOnly (u.setLoad l) := by
  obtain ⟨rest, get⟩ := h
  exact ⟨rest, fun f hf => (State.setLoad_get _ _ _).trans (get f hf)⟩

theorem trans (h : s.LoaderOnly u) (h' : u.LoaderOnly w) : s.LoaderOnly w := by
  obtain ⟨rest, get⟩ := h
  obtain ⟨rest', get'⟩ := h'
  refine ⟨?_, fun f hf => (get' f hf).trans (get f hf)⟩
  exact (congrArg (fun x : State => x.setLoad s.yal.load) rest').trans (congrArg (fun x : State => { x with regs := w.regs }) rest)

variable (h : s.LoaderOnly u)
include h

theorem ctl : u.ctl = s.ctl := (congrArg State.ctl h.rest :)
theorem gm : u.gm = s.gm := (congrArg State.gm h.rest :)
theorem time : u.time = s.time := (congrArg State.time h.rest :)
theorem thread (t : Nat) : u.thread t = s.thread t := (congrArg (fun x : State => x.thread t) h.rest :)
theorem quiet : u.quiet = s.quiet := (congrArg State.quiet h.rest :)

theorem transiting : u.transiting = s.transiting := by rw [State.transiting, State.transiting, h.ctl]

theorem on {f : Fld} (hf : f.besideLoader) : u.on f = s.on f := by
  rw [State.on, State.on, h.get f hf]

theorem unitBarred (n : Nat) : u.unitBarred n = s.unitBarred n := by
  have runs : u.clusterRuns (n / 4) = s.clusterRuns (n / 4) := by
    simp only [State.clusterRuns, State.domOn, State.leaving, State.fenced, State.fbit, h.ctl,
      h.get F.PWR_DOM_ON (by decide), h.get F.YCU_CL_FENCE_FENCED (by decide)]
  simp only [State.unitBarred, runs, h.thread]

theorem imageCheck (a : Nat) (us qs : List Nat) : u.imageCheck a us qs = s.imageCheck a us qs :=
  (congrArg (fun x : State => x.imageCheck a us qs) h.rest :)

end State.LoaderOnly

/-! ### GO (R52) -/

/-- The fields that a write of LOAD_CTL stores. -/
def State.loadCtl (s : State) (m : Nat) (v : Word) : State :=
  ((s.put F.YCU_LOAD_CTL_MODE m).put F.YCU_LOAD_CTL_SEQ (fldOf v F.YCU_LOAD_CTL_SEQ)).put F.YCU_LOAD_CTL_DRAIN
    (fldOf v F.YCU_LOAD_CTL_DRAIN)

/-- The load that GO files (R52). -/
def State.filed (s : State) : Load :=
  { barrier := s.on F.YCU_LOAD_CTL_MODE, src := s.get F.YCU_LOAD_SRC_ADDR / 32 * 32,
    units := onesOf (s.get F.YCU_LOAD_UNITS_UNIT) 64, seqs := onesOf (s.get F.YCU_LOAD_CTL_SEQ) 4,
    drain := s.get F.YCU_LOAD_CTL_DRAIN, waiting := true }

/-- STATUS and GO read 1 while a load is busy. -/
def State.showBusy (s : State) : State := (s.put F.YCU_LOAD_STAT_STATUS 1).put F.YCU_LOAD_CTL_GO 1

theorem State.loaderOnly_showBusy (s : State) : s.LoaderOnly s.showBusy :=
  ((State.LoaderOnly.refl s).put (.inr rfl) (by decide) _).put (.inl rfl) (by decide) _

theorem State.programLoad_busy {s : State} (h : s.yal.load ≠ none) : s.programLoad = s := by
  rw [State.programLoad, if_pos (by simpa [State.loadBusy, Option.isSome_iff_ne_none] using h)]

theorem State.programLoad_idle {s : State} (h : s.yal.load = none) : s.programLoad =
    if s.transiting then s.showBusy.setLoad (some s.filed) else (s.showBusy.setLoad (some s.filed)).loadBegin s.filed := by
  have moving : (s.showBusy.setLoad (some s.filed)).transiting = s.transiting :=
    (s.loaderOnly_showBusy.setLoad _).transiting
  rw [State.programLoad, if_neg (by simp [State.loadBusy, h])]
  dsimp only
  rw [← moving]
  rfl

/-- The fields of a written word with MODE and GO given. -/
theorem bits_loadWord (v : Word) (m : Fin 2) :
    let w := withFld (withFld v F.YCU_LOAD_CTL_MODE m.val) F.YCU_LOAD_CTL_GO 1
    bit w.toNat 0 = true ∧ fldOf w F.YCU_LOAD_CTL_MODE = m.val ∧ fldOf w F.YCU_LOAD_CTL_SEQ = fldOf v F.YCU_LOAD_CTL_SEQ ∧
      fldOf w F.YCU_LOAD_CTL_DRAIN = fldOf v F.YCU_LOAD_CTL_DRAIN := by
  have hv : v.toNat < 2 ^ 32 := v.isLt
  have hm : m.val < 2 := m.isLt
  have word : (withFld (withFld v F.YCU_LOAD_CTL_MODE m.val) F.YCU_LOAD_CTL_GO 1).toNat
      = v.toNat / 4 * 4 + m.val * 2 + 1 := by
    simp only [withFld, setBits, F.YCU_LOAD_CTL_MODE, F.YCU_LOAD_CTL_GO, BitVec.toNat_ofNat]
    omega
  generalize withFld _ _ _ = w at word ⊢
  simp only [bit, fldOf, bits, word, F.YCU_LOAD_CTL_MODE, F.YCU_LOAD_CTL_SEQ, F.YCU_LOAD_CTL_DRAIN, beq_iff_eq]
  omega

/-- What a write of LOAD_CTL with MODE and GO given does. -/
theorem State.loadCtlWrite_go (s : State) (v : Word) (m : Fin 2) :
    s.loadCtlWrite (withFld (withFld v F.YCU_LOAD_CTL_MODE m.val) F.YCU_LOAD_CTL_GO 1) = (s.loadCtl m.val v).programLoad := by
  obtain ⟨go, mode, seq, drain⟩ := bits_loadWord v m
  generalize withFld _ _ _ = w at *
  have takes : s.take w [F.YCU_LOAD_CTL_MODE, F.YCU_LOAD_CTL_SEQ, F.YCU_LOAD_CTL_DRAIN] = ((s.put F.YCU_LOAD_CTL_MODE
    (fldOf w F.YCU_LOAD_CTL_MODE)).put F.YCU_LOAD_CTL_SEQ (fldOf w F.YCU_LOAD_CTL_SEQ)).put F.YCU_LOAD_CTL_DRAIN
    (fldOf w F.YCU_LOAD_CTL_DRAIN) := rfl
  rw [State.loadCtlWrite, takes, mode, seq, drain, if_pos go, State.loadCtl]

theorem barrier_of_mode (m : Fin 2) : (m.val == 1) = decide (m = 1) := by
  revert m
  decide

section
variable (s : State) (m : Fin 2) (v : Word)

theorem State.loaderOnly_loadCtl : s.LoaderOnly (s.loadCtl m.val v) :=
  (((State.LoaderOnly.refl s).put (.inl rfl) (by decide) _).put (.inl rfl) (by decide) _).put (.inl rfl) (by decide) _

theorem State.loadCtl_yal : (s.loadCtl m.val v).yal = s.yal := by simp only [State.loadCtl, State.put_yal]

theorem State.filed_loadCtl : (s.loadCtl m.val v).filed =
    { barrier := decide (m = 1), src := s.get F.YCU_LOAD_SRC_ADDR / 32 * 32
      units := onesOf (s.get F.YCU_LOAD_UNITS_UNIT) 64, seqs := onesOf (fldOf v F.YCU_LOAD_CTL_SEQ) 4
      drain := fldOf v F.YCU_LOAD_CTL_DRAIN, waiting := true } := by
  have only := s.loaderOnly_loadCtl m v
  have mode : (s.loadCtl m.val v).get F.YCU_LOAD_CTL_MODE = m.val := by
    rw [State.loadCtl, State.get_put_off _ _ _ _ (by decide) (by decide), State.get_put_off _ _ _ _ (by decide) (by decide),
      State.get_put_self _ _ _ (by decide)]
    exact Nat.mod_eq_of_lt m.isLt
  have seq : (s.loadCtl m.val v).get F.YCU_LOAD_CTL_SEQ = fldOf v F.YCU_LOAD_CTL_SEQ := by
    rw [State.loadCtl, State.get_put_off _ _ _ _ (by decide) (by decide), State.get_put_self _ _ _ (by decide), fldOf_mod]
  have drain : (s.loadCtl m.val v).get F.YCU_LOAD_CTL_DRAIN = fldOf v F.YCU_LOAD_CTL_DRAIN := by
    rw [State.loadCtl, State.get_put_self _ _ _ (by decide), fldOf_mod]
  rw [State.filed, State.on, mode, seq, drain, barrier_of_mode, only.get _ (by decide), only.get _ (by decide)]

end

/-- GO ends, by ROLL or BARRIER, in what the write makes of the state. -/
theorem completes_go {who : Fin 4} {s t : State} (h : s.takes who.val 5 = true) {v : Word} {m : Fin 2}
    (ht : (s.loadCtl m.val v).programLoad = t) (hq : t.quiet = s.quiet) :
    if m = 0 then Completes (.programLoadRoll who v) s t else Completes (.programLoadBarrier who v) s t := by
  have calm := hq.trans ((s.takes_iff _ _).1 h).1
  by_cases hm : m = 0
  · subst hm
    rw [if_pos rfl]
    exact completes_write rfl (by decide) h ((s.loadCtlWrite_go v 0).trans ht) calm
  · obtain rfl : m = 1 := by omega
    rw [if_neg hm]
    exact completes_write rfl (by decide) h ((s.loadCtlWrite_go v 1).trans ht) calm

/-- A load that ends at once shows its end in the registers alone: GO and STATUS are written over. -/
theorem State.loadEnd_showBusy {a : State} (h : a.yal.load = none) (l : Load) (status skipped : Nat) (hdr crc : Bool) :
    (a.showBusy.setLoad (some l)).loadEnd status skipped hdr crc =
      (((((a.put F.YCU_LOAD_STAT_STATUS status).put F.YCU_LOAD_STAT_CRCERR (b2n crc)).put F.YCU_LOAD_STAT_HDRERR
        (b2n hdr)).put F.YCU_LOAD_STAT_SKIPPED (min 255 skipped)).put F.YCU_LOAD_CTL_GO 0) := by
  have load : a.showBusy.setLoad none = a.showBusy := by
    refine State.setLoad_same ?_
    rw [State.showBusy, State.put_yal, State.put_yal, h]
  have start : State.SameBut F.YCU_LOAD_CTL_GO a.showBusy (a.put F.YCU_LOAD_STAT_STATUS 1) :=
    State.SameBut.put_self (by decide) (by decide) _ _
  have status' := start.put_above (g := F.YCU_LOAD_STAT_STATUS) (by decide) (by decide) status
  rw [State.put_again _ (by decide) (by decide)] at status'
  rw [State.loadEnd, State.setLoad_setLoad, load]
  exact (((status'.put_above (by decide) (by decide) _).put_above (by decide) (by decide) _).put_above (by decide)
    (by decide) _).eq_put (by decide) 0

theorem State.programLoad_begins {s : State} (hl : s.yal.load = none) (ht : s.transiting = false) (m : Fin 2) (v : Word) :
    (s.loadCtl m.val v).programLoad =
      ((s.loadCtl m.val v).showBusy.setLoad (some (s.loadCtl m.val v).filed)).loadBegin (s.loadCtl m.val v).filed := by
  rw [State.programLoad_idle (by rwa [State.loadCtl_yal]), (s.loaderOnly_loadCtl m v).transiting, ht,
    if_neg Bool.false_ne_true]

theorem State.loadBegin_header {s : State} {l : Load} (hc : s.imageCheck l.src l.units l.seqs = .header) :
    s.loadBegin l = s.loadEnd 3 0 true false := by
  unfold State.loadBegin
  generalize State.loadAdvance = advance
  rw [hc]

theorem State.loadBegin_crc {s : State} {l : Load} (hc : s.imageCheck l.src l.units l.seqs = .crc) :
    s.loadBegin l = s.loadEnd 3 0 false true := by
  unfold State.loadBegin
  generalize State.loadAdvance = advance
  rw [hc]

theorem State.loadBegin_units {s : State} {l : Load} (hc : s.imageCheck l.src l.units l.seqs = .good) (hs : l.seqs = []) :
    s.loadBegin l = (s.setLoad (some { l with waiting := false })).loadAdvance 8 := by
  unfold State.loadBegin
  generalize State.loadAdvance = advance
  rw [hc]
  dsimp only
  rw [if_neg (not_not.2 hs)]

/-- Sequencers that do not run need no halt before their copy. -/
theorem State.loadBegin_seqs {s : State} {l : Load} (hc : s.imageCheck l.src l.units l.seqs = .good) (hs : l.seqs ≠ [])
    (hoff : ∀ n ∈ l.seqs, s.on (F.SQ_CTL_EN n) = false ∨ s.on (F.SQ_CTL_HALTED n) = true) :
    s.loadBegin l = s.setLoad (some { l with waiting := false, copying := l.seqs.map (64 + ·) }) := by
  unfold State.loadBegin
  generalize State.loadAdvance = advance
  rw [hc]
  dsimp only
  rw [if_pos hs]
  refine congrArg (fun x : State => x.setLoad _) (forEach_unchanged fun n hn => if_neg ?_)
  rcases hoff n hn with h | h <;> simp [h]

section
variable {who : Fin 4} {v : Word} {m : Fin 2} {s : State} (h : s.takes who.val 5 = true)
include h

theorem completes_go_busy (hl : s.yal.load ≠ none) : if m = 0 then Completes (.programLoadRoll who v) s (s.loadCtl m.val v)
    else Completes (.programLoadBarrier who v) s (s.loadCtl m.val v) :=
  completes_go h (State.programLoad_busy (by rwa [State.loadCtl_yal])) (s.loaderOnly_loadCtl m v).quiet

variable (hl : s.yal.load = none)
include hl

theorem completes_go_waits (ht : s.transiting = true) : if m = 0 then
      Completes (.programLoadRoll who v) s ((s.loadCtl m.val v).showBusy.setLoad (some (s.loadCtl m.val v).filed))
    else Completes (.programLoadBarrier who v) s ((s.loadCtl m.val v).showBusy.setLoad (some (s.loadCtl m.val v).filed)) := by
  refine completes_go h ?_ ?_
  · rw [State.programLoad_idle (by rwa [State.loadCtl_yal]), (s.loaderOnly_loadCtl m v).transiting, ht,
      if_pos rfl]
  · rw [State.quiet_setLoad, (State.loaderOnly_showBusy _).quiet, (s.loaderOnly_loadCtl m v).quiet]

omit h hl in
theorem State.loaderOnly_filed (l : Option Load) : s.LoaderOnly ((s.loadCtl m.val v).showBusy.setLoad l) :=
  ((s.loaderOnly_loadCtl m v).trans (State.loaderOnly_showBusy _)).setLoad l

section
variable (ht : s.transiting = false) {l : Load} (hf : (s.loadCtl m.val v).filed = l)
include ht hf

/-- A GO whose image fails its check ends at once (R51). -/
theorem completes_go_failed {hdr crc : Bool} (hc : ∀ u : State, u.imageCheck l.src l.units l.seqs
      = s.imageCheck l.src l.units l.seqs → u.loadBegin l = u.loadEnd 3 0 hdr crc) {t : State}
    (hu : (((((s.loadCtl m.val v).put F.YCU_LOAD_STAT_STATUS 3).put F.YCU_LOAD_STAT_CRCERR (b2n crc)).put F.YCU_LOAD_STAT_HDRERR
      (b2n hdr)).put F.YCU_LOAD_STAT_SKIPPED 0).put F.YCU_LOAD_CTL_GO 0 = t) :
    if m = 0 then Completes (.programLoadRoll who v) s t else Completes (.programLoadBarrier who v) s t := by
  have load : (s.loadCtl m.val v).yal.load = none := by rwa [State.loadCtl_yal]
  refine completes_go h ?_ ?_
  · rw [State.programLoad_begins hl ht, hf, hc _ ((s.loaderOnly_filed _).imageCheck _ _ _), State.loadEnd_showBusy load, ← hu]
    rfl
  · simp only [← hu, State.quiet_put, (s.loaderOnly_loadCtl m v).quiet]

/-- A GO with a good image of units: those of its first round that may be loaded drain (R53, R54). -/
theorem completes_go_units (hc : s.imageCheck l.src l.units l.seqs = .good) (hs : l.seqs = []) {first : List Nat}
    (hm : (if l.barrier then l.units else l.units.filter (fun u => u % 4 == l.round)) = first)
    (hd : l.draining = []) (hcp : l.copying = []) (hr : l.ready = []) (hg : first.filter (fun n => !s.unitBarred n) ≠ [])
    {t : State} (hu : (s.loadCtl m.val v).showBusy.setLoad (some { l with
      waiting := false, units := l.units.filter (fun n => n ∉ first), draining := first.filter (fun n => !s.unitBarred n)
      copied := [], skipped := l.skipped + (first.filter s.unitBarred).length
      deadline := if l.drain = 0 then 0 else s.now + 1000 * l.drain }) = t) :
    if m = 0 then Completes (.programLoadRoll who v) s t else Completes (.programLoadBarrier who v) s t := by
  have only := fun x => State.loaderOnly_filed (s := s) (m := m) (v := v) x
  have barred : ∀ x, ((s.loadCtl m.val v).showBusy.setLoad x).unitBarred = s.unitBarred := fun x => funext (only x).unitBarred
  have now : ∀ x, ((s.loadCtl m.val v).showBusy.setLoad x).now = s.now := fun x => by rw [State.now, (only x).time]; rfl
  refine completes_go h ?_ ?_
  · have drains := State.loadAdvance_drains (s := (s.loadCtl m.val v).showBusy.setLoad (some { l with waiting := false }))
      (l := { l with waiting := false }) rfl rfl hd hcp hr hm (by rwa [barred]) 6
    rw [barred, now, State.setLoad_setLoad] at drains
    rw [State.programLoad_begins hl ht, hf, State.loadBegin_units (((only _).imageCheck _ _ _).trans hc) hs,
      State.setLoad_setLoad, drains, ← hu]
  · subst hu
    rw [State.quiet_setLoad, (State.loaderOnly_showBusy _).quiet, (s.loaderOnly_loadCtl m v).quiet]

/-- A GO with a good image of sequencers that do not run begins their copy (R55). -/
theorem completes_go_seqs (hc : s.imageCheck l.src l.units l.seqs = .good) (hs : l.seqs ≠ [])
    (h4 : ∀ n ∈ l.seqs, n < 4) (hoff : ∀ n ∈ l.seqs, s.on (F.SQ_CTL_EN n) = false ∨ s.on (F.SQ_CTL_HALTED n) = true)
    {t : State} (hu : (s.loadCtl m.val v).showBusy.setLoad (some { l with waiting := false, copying := l.seqs.map (64 + ·) }) = t) :
    if m = 0 then Completes (.programLoadRoll who v) s t else Completes (.programLoadBarrier who v) s t := by
  have only := fun x => State.loaderOnly_filed (s := s) (m := m) (v := v) x
  have off : ∀ x, ∀ n ∈ l.seqs, ((s.loadCtl m.val v).showBusy.setLoad x).on (F.SQ_CTL_EN n) = false ∨
      ((s.loadCtl m.val v).showBusy.setLoad x).on (F.SQ_CTL_HALTED n) = true := by
    intro x n hn
    have := h4 n hn
    rw [(only x).on (.inl (by simp only [F.SQ_CTL_EN]; omega)), (only x).on (.inl (by simp only [F.SQ_CTL_HALTED]; omega))]
    exact hoff n hn
  refine completes_go h ?_ ?_
  · rw [State.programLoad_begins hl ht, hf, State.loadBegin_seqs (((only _).imageCheck _ _ _).trans hc) hs (off _),
      State.setLoad_setLoad, ← hu]
  · subst hu
    rw [State.quiet_setLoad, (State.loaderOnly_showBusy _).quiet, (s.loaderOnly_loadCtl m v).quiet]

end

end

end Sys2Proof.Machine
end

section
/-! The copies of a program load (R49, R53, R55, R56), and the statement ProgramLoads. -/

namespace Sys2Proof.Machine

/-- The memories, the load and the control state are kept, and the registers above the sequencers'. -/
structure State.KeepsStores (s u : State) : Prop where
  im : u.yal.im = s.yal.im
  lm : u.yal.lm = s.yal.lm
  cm : u.yal.cm = s.yal.cm
  load : u.yal.load = s.yal.load
  sd : u.sd = s.sd
  gm : u.gm = s.gm
  xm : u.xm = s.xm
  ctl : u.ctl = s.ctl
  get : ∀ f : Fld, 0x140000 ≤ f.addr → u.get f = s.get f
  quiet : s.quiet = true → u.quiet = true

namespace State.KeepsStores

variable {s u w : State}

theorem refl (s : State) : s.KeepsStores s := ⟨rfl, rfl, rfl, rfl, rfl, rfl, rfl, rfl, fun _ _ => rfl, fun h => h⟩

theorem trans (h : s.KeepsStores u) (h' : u.KeepsStores w) : s.KeepsStores w :=
  ⟨h'.im.trans h.im, h'.lm.trans h.lm, h'.cm.trans h.cm, h'.load.trans h.load, h'.sd.trans h.sd, h'.gm.trans h.gm,
    h'.xm.trans h.xm, h'.ctl.trans h.ctl, fun f hf => (h'.get f hf).trans (h.get f hf), fun hq => h'.quiet (h.quiet hq)⟩

theorem setThread (s : State) (t : Nat) (x : Thread) : s.KeepsStores (s.setThread t x) :=
  ⟨rfl, rfl, rfl, rfl, rfl, rfl, rfl, rfl, fun f _ => State.setThread_get s t x f, fun h => h⟩

theorem setRegs (s : State) (x r : Nat) (l : List DWord) : s.KeepsStores (s.setRegs x r l) := by
  refine ⟨?_, ?_, ?_, ?_, ?_, ?_, ?_, ?_, fun f _ => State.get_congr ?_ f, fun h => ?_⟩ <;> rw [State.setRegs_eq]
  exact h

theorem setSeq (s : State) (n : Nat) {q : Seqr} (hq : q.halting = none) : s.KeepsStores (s.setSeq n q) :=
  ⟨rfl, rfl, rfl, rfl, rfl, rfl, rfl, rfl, fun f _ => State.setSeq_get s n q f, State.quiet_setSeq hq⟩

theorem put (s : State) {f : Fld} (hf : f.addr + 4 * (f.hi / 32 + 1) ≤ 0x140000) (v : Nat) : s.KeepsStores (s.put f v) := by
  refine ⟨?_, ?_, ?_, ?_, ?_, ?_, ?_, ?_, fun g hg => State.get_put_ne _ _ _ _ (.inl (by omega)), fun h => (State.quiet_put _ _ _).trans h⟩ <;> simp

theorem putSeqState (s : State) {n : Nat} (hn : n < 4) (h c e p : Nat) : s.KeepsStores (s.putSeqState n h c e p) :=
  (((put s (by simp only [F.SQ_CTL_HALTED]; omega) _).trans (put _ (by simp only [F.SQ_CTL_CAUSE]; omega) _)).trans
    (put _ (by simp only [F.SQ_CTL_EXC]; omega) _)).trans (put _ (by simp only [F.SQ_HALT_PC_PC]; omega) _)

theorem seqStart (s : State) {n : Nat} (hn : n < 4) : s.KeepsStores (s.seqStart n) := by
  rw [State.seqStart_eq]
  exact ((setRegs s (512 + n) 0 (List.replicate 16 0)).trans (setSeq _ n rfl)).trans (putSeqState _ hn 0 0 0 0)

end State.KeepsStores

/-! ### The copy of one target -/

theorem memByte_memZero {m : Mem} {a n j : Nat} (h : a ≤ j) (h' : j < a + n) : memByte (memZero m a n) j = 0 := by
  unfold memByte memZero
  induction m with
  | nil => rfl
  | cons e m ih =>
    by_cases he : e.1 < a ∨ a + n ≤ e.1
    · simp only [List.filter_cons, he, decide_true, if_true, tabGet, show j ≠ e.1 by omega, if_false, ih]
    · simp only [List.filter_cons, he, decide_false, Bool.false_eq_true, if_false, ih]

/-- Code, data and generation of the image at `a` stand in target `x` (R49, R53, R59). -/
def State.Loaded (s : State) (a x : Nat) (u : State) : Prop :=
  u.get (F.YCU_GEN_GEN x) = memNat s.gm (a + 8) 4 ∧
  memBytes u.yal.im (0x10000 * x) (s.imgCode a) = memBytes s.gm (a + 0x20) (s.imgCode a) ∧
  (∀ k, s.imgCode a ≤ k → k < 0x10000 → memByte u.yal.im (0x10000 * x + k) = 0) ∧
  (if x < 64 then memBytes u.yal.lm (0x10000 * x) (s.imgData a) = memBytes s.gm (a + 0x20 + s.imgCode a) (s.imgData a) ∧ u.sd = s.sd
    else memBytes u.sd (0x4000 * (x - 64)) (s.imgData a) = memBytes s.gm (a + 0x20 + s.imgCode a) (s.imgData a) ∧
      u.yal.lm = s.yal.lm) ∧
  u.gm = s.gm ∧ u.xm = s.xm ∧ u.yal.cm = s.yal.cm

/-- The copy of code and data of the image at `a` into target `x`. -/
def State.copiedMem (s : State) (a x : Nat) : State :=
  let code := memBytes s.gm (a + 0x20) (s.imgCode a)
  let data := memBytes s.gm (a + 0x20 + s.imgCode a) (s.imgData a)
  let s := { s with yal := { s.yal with im := memPutBytes (memZero s.yal.im (0x10000 * x) 0x10000) (0x10000 * x) code } }
  if x < 64 then { s with yal := { s.yal with lm := memPutBytes s.yal.lm (0x10000 * x) data } }
  else { s with sd := memPutBytes s.sd (0x4000 * (x - 64)) data }

/-- The copy with the image's generation. -/
def State.copied (s : State) (a x : Nat) : State :=
  (s.copiedMem a x).put (F.YCU_GEN_GEN x) ((s.copiedMem a x).imgGen a)

/-- A thread that holds no image is idle when one stands. -/
def State.threadOn (s : State) (t : Nat) : State :=
  if (s.thread t).st = .off then s.setThread t { s.thread t with st := .idle } else s

theorem State.copyImage_eq (s : State) (a x : Nat) : s.copyImage a x =
    if x < 64 then forEach (List.range 8) (fun t s => s.threadOn (8 * x + t)) (s.copied a x) else s.copied a x := rfl

section
variable (s : State) (a x : Nat)

theorem State.copiedMem_gm : (s.copiedMem a x).gm = s.gm := by unfold State.copiedMem; split <;> rfl
theorem State.copiedMem_xm : (s.copiedMem a x).xm = s.xm := by unfold State.copiedMem; split <;> rfl
theorem State.copiedMem_cm : (s.copiedMem a x).yal.cm = s.yal.cm := by unfold State.copiedMem; split <;> rfl
theorem State.copiedMem_load : (s.copiedMem a x).yal.load = s.yal.load := by unfold State.copiedMem; split <;> rfl
theorem State.copiedMem_ctl : (s.copiedMem a x).ctl = s.ctl := by unfold State.copiedMem; split <;> rfl
theorem State.copiedMem_regs : (s.copiedMem a x).regs = s.regs := by unfold State.copiedMem; split <;> rfl
theorem State.quiet_copiedMem : (s.copiedMem a x).quiet = s.quiet := by unfold State.copiedMem; split <;> rfl
theorem State.copiedMem_im : (s.copiedMem a x).yal.im = memPutBytes (memZero s.yal.im (0x10000 * x) 0x10000) (0x10000 * x)
    (memBytes s.gm (a + 0x20) (s.imgCode a)) := by unfold State.copiedMem; split <;> rfl

end

theorem leNat_lt (l : List Byte) : leNat l < 256 ^ l.length := by
  induction l with
  | nil => decide
  | cons b l ih =>
    have := b.isLt
    rw [leNat, List.length_cons, Nat.pow_succ]
    omega

theorem State.loaded_copied (s : State) (a x : Nat) : s.Loaded a x (s.copied a x) := by
  have code := memBytes_length s.gm (a + 0x20) (s.imgCode a)
  have data := memBytes_length s.gm (a + 0x20 + s.imgCode a) (s.imgData a)
  have small : memNat s.gm (a + 8) 4 < 2 ^ 32 := by
    have := leNat_lt (memBytes s.gm (a + 8) 4)
    rw [memBytes_length] at this
    exact this
  have gen : (s.copiedMem a x).imgGen a = memNat s.gm (a + 8) 4 := by rw [State.imgGen, State.copiedMem_gm]
  unfold State.Loaded State.copied
  rw [gen, State.get_put_self _ _ _ (by simp [F.YCU_GEN_GEN]), State.put_yal, State.put_sd, State.put_gm, State.put_xm,
    State.copiedMem_gm, State.copiedMem_xm, State.copiedMem_cm, State.copiedMem_im]
  refine ⟨Nat.mod_eq_of_lt small, ?_, fun k hk hk' => ?_, ?_, rfl, rfl, rfl⟩
  · have := memBytes_memPutBytes (memBytes s.gm (a + 0x20) (s.imgCode a)) (memZero s.yal.im (0x10000 * x) 0x10000) (0x10000 * x)
    rwa [code] at this
  · rw [memByte_memPutBytes_out _ _ _ _ (by rw [code]; omega), memByte_memZero (by omega) (by omega)]
  · unfold State.copiedMem
    split
    next hx =>
      have := memBytes_memPutBytes (memBytes s.gm (a + 0x20 + s.imgCode a) (s.imgData a)) s.yal.lm (0x10000 * x)
      rw [data] at this
      exact ⟨this, rfl⟩
    next hx =>
      have := memBytes_memPutBytes (memBytes s.gm (a + 0x20 + s.imgCode a) (s.imgData a)) s.sd (0x4000 * (x - 64))
      rw [data] at this
      exact ⟨this, rfl⟩

theorem State.Loaded.keeps {s u w : State} {a x : Nat} (h : s.Loaded a x u) (hk : u.KeepsStores w) : s.Loaded a x w := by
  obtain ⟨gen, code, zero, data, gm, xm, cm⟩ := h
  refine ⟨(hk.get _ (by simp only [F.YCU_GEN_GEN]; omega)).trans gen, ?_, ?_, ?_, hk.gm.trans gm, hk.xm.trans xm, hk.cm.trans cm⟩
  · rwa [hk.im]
  · rwa [hk.im]
  · rwa [hk.lm, hk.sd]

theorem State.KeepsStores.threadOn (s : State) (t : Nat) : s.KeepsStores (s.threadOn t) := by
  unfold State.threadOn
  split
  · exact .setThread _ _ _
  · exact .refl _

/-- After the copy the unit's threads take tasks again. -/
theorem State.keepsStores_copyImage (s : State) (a x : Nat) : (s.copied a x).KeepsStores (s.copyImage a x) := by
  rw [State.copyImage_eq]
  split
  · exact forEach_rel State.KeepsStores.refl State.KeepsStores.trans (fun t s => .threadOn s (8 * x + t)) _ _
  · exact .refl _

/-- The copied target goes on: a sequencer that is enabled restarts (R55). -/
def State.reloaded (s : State) (a x : Nat) : State :=
  let s := s.copyImage a x
  if 64 ≤ x && s.on (F.SQ_CTL_EN (x - 64)) then s.seqStart (x - 64) else s

theorem State.keepsStores_reloaded (s : State) (a : Nat) (x : Fin 68) : (s.copied a x.val).KeepsStores (s.reloaded a x.val) := by
  unfold State.reloaded
  dsimp only
  split
  · exact (s.keepsStores_copyImage a x.val).trans (.seqStart _ (by omega))
  · exact s.keepsStores_copyImage a x.val

/-- The load once target `x` has been copied, with `bad` after a lasting error. -/
def Load.afterCopy (l : Load) (x : Nat) (bad : Bool) : Load :=
  let l := { l with copying := l.copying.filter (· != x), failed := l.failed || bad,
                    copied := if l.barrier && decide (x < 64) then l.copied ++ [x] else [] }
  if l.copying = [] && l.draining = [] && l.ready = [] then { l with copied := [] } else l

theorem Load.afterCopy_fields (l : Load) (x : Nat) (bad : Bool) :
    (l.afterCopy x bad).copying = l.copying.filter (· != x) ∧ (l.afterCopy x bad).draining = l.draining ∧
    (l.afterCopy x bad).ready = l.ready ∧ (l.afterCopy x bad).units = l.units ∧ (l.afterCopy x bad).skipped = l.skipped ∧
    (l.afterCopy x bad).waiting = l.waiting ∧ (l.afterCopy x bad).failed = (l.failed || bad) := by
  unfold Load.afterCopy
  dsimp only
  split <;> exact ⟨rfl, rfl, rfl, rfl, rfl, rfl, rfl⟩

theorem Load.afterCopy_src (l : Load) (x : Nat) (bad : Bool) : (l.afterCopy x bad).src = l.src := by
  unfold Load.afterCopy
  dsimp only
  split <;> rfl

section
variable {s : State} {l : Load} {x : Nat} (hl : s.yal.load = some l) (hx : x ∈ l.copying)
include hl hx

theorem State.loadCopyDone_good : s.loadCopyDone x .good
    = ((s.setLoad (some (l.afterCopy x false))).reloaded (l.afterCopy x false).src x).loadAdvance 8 := by
  unfold State.loadCopyDone
  generalize State.loadAdvance = advance
  rw [hl]
  dsimp only
  rw [if_pos hx]
  simp only [reduceCtorEq, decide_false, if_false]
  rfl

/-- After a lasting error the target holds no image, and a unit's cluster reports (R56). -/
theorem State.loadCopyDone_lasting : s.loadCopyDone x .lasting = (if x < 64 then
      ((s.setLoad (some (l.afterCopy x true))).dropImage x).raise (386 + 4 * (x / 4))
    else (s.setLoad (some (l.afterCopy x true))).put (F.YCU_GEN_GEN x) 0xFFFFFFFF).loadAdvance 8 := by
  unfold State.loadCopyDone
  generalize State.loadAdvance = advance
  rw [hl]
  dsimp only
  rw [if_pos hx]
  simp only [decide_true, if_true]
  rfl

end

@[simp] theorem State.counted_yal (s : State) (n : Nat) : (s.counted n).yal = s.yal := by simp [State.counted]
@[simp] theorem State.counted_gm (s : State) (n : Nat) : (s.counted n).gm = s.gm := by simp [State.counted]

/-! ### A target that loses its image -/

/-- What some update establishes, and every update keeps, holds after all of them. -/
theorem forEach_establishes {α σ : Type} {P : σ → Prop} {f : α → σ → σ} (keep : ∀ a s, P s → P (f a s)) {k : α}
    (make : ∀ s, P (f k s)) {l : List α} (hk : k ∈ l) (s : σ) : P (forEach l f s) := by
  have kept : ∀ (l : List α) (s : σ), P s → P (forEach l f s) := fun l => by
    induction l with
    | nil => exact fun s h => h
    | cons a l ih => exact fun s h => ih (f a s) (keep a s h)
  induction l generalizing s with
  | nil => exact absurd hk List.not_mem_nil
  | cons a l ih =>
    rcases List.mem_cons.1 hk with rfl | hk
    · exact kept l _ (make s)
    · exact ih hk (f a s)

/-- An idle thread of a unit without an image is off (R48). -/
def State.threadOff (s : State) (t : Nat) : State :=
  if (s.thread t).st = .idle then s.setThread t { s.thread t with st := .off } else s

theorem State.KeepsStores.threadOff (s : State) (t : Nat) : s.KeepsStores (s.threadOff t) := by
  unfold State.threadOff
  split
  · exact .setThread _ _ _
  · exact .refl _

theorem State.threadOff_self (s : State) (t : Nat) : ((s.threadOff t).thread t).st ≠ .idle := by
  unfold State.threadOff
  split
  · simp
  · assumption

theorem State.threadOff_keeps {s : State} {t u : Nat} (h : (s.thread u).st ≠ .idle) : ((s.threadOff t).thread u).st ≠ .idle := by
  by_cases hu : u = t
  · rw [hu]
    exact s.threadOff_self t
  · unfold State.threadOff
    split
    · rwa [State.thread_setThread_ne hu]
    · exact h

section
variable (s : State) (x : Nat)

theorem State.dropImage_eq : s.dropImage x = forEach (List.range 8) (fun t s => s.threadOff (8 * x + t))
    (s.put (F.YCU_GEN_GEN x) 0xFFFFFFFF) := rfl

theorem State.keepsStores_dropImage : (s.put (F.YCU_GEN_GEN x) 0xFFFFFFFF).KeepsStores (s.dropImage x) := by
  rw [State.dropImage_eq]
  exact forEach_rel State.KeepsStores.refl State.KeepsStores.trans (fun t s => .threadOff s (8 * x + t)) _ _

theorem State.dropImage_load : (s.dropImage x).yal.load = s.yal.load :=
  (s.keepsStores_dropImage x).load.trans (by rw [State.put_yal])

theorem State.dropImage_threads (k : Nat) (h : k < 8) : ((s.dropImage x).thread (8 * x + k)).st ≠ .idle := by
  rw [State.dropImage_eq]
  exact forEach_establishes (P := fun s : State => (s.thread (8 * x + k)).st ≠ .idle)
    (f := fun t s => State.threadOff s (8 * x + t)) (fun t s => State.threadOff_keeps)
    (fun s => s.threadOff_self _) (List.mem_range.2 h) _

end

/-! ### How a copy's command ends -/

theorem State.KeepsStores.close (s : State) : s.KeepsStores s.close := by
  have yal := s.close_yal
  exact ⟨congrArg Yalvo.im yal, congrArg Yalvo.lm yal, congrArg Yalvo.cm yal, congrArg Yalvo.load yal, s.close_sd, s.close_gm,
    s.close_xm, s.close_ctl, fun f _ => s.close_get f, fun h => (State.quiet_close s).trans h⟩

theorem State.copied_load (s : State) (a x : Nat) : (s.copied a x).yal.load = s.yal.load := by
  rw [State.copied, State.put_yal, State.copiedMem_load]

theorem State.quiet_copied (s : State) (a x : Nat) : (s.copied a x).quiet = s.quiet := by
  rw [State.copied, State.quiet_put, State.quiet_copiedMem]

theorem State.copied_ctl (s : State) (a x : Nat) : (s.copied a x).ctl = s.ctl := by
  rw [State.copied, State.put_ctl, State.copiedMem_ctl]

theorem State.copied_get (s : State) (a x : Nat) {f : Fld} (h : f.addr + 4 * (f.hi / 32 + 1) ≤ 0x801000 ∨ 0x802000 ≤ f.addr)
    (hx : x < 68) : (s.copied a x).get f = s.get f := by
  rw [State.copied, State.get_put_ne _ _ _ _ (by simp only [F.YCU_GEN_GEN]; omega), State.get_congr (s.copiedMem_regs a x)]

/-- What an end of a load leaves of a copy. -/
theorem State.Loaded.loadEnd {s u : State} {a : Nat} {x : Fin 68} (h : s.Loaded a x.val u) (st n : Nat) (e c : Bool) :
    s.Loaded a x.val (u.loadEnd st n e c) := by
  obtain ⟨gen, code, zero, data, gm, xm, cm⟩ := h
  have yal : (u.loadEnd st n e c).yal = { u.yal with load := none } := by simp [State.loadEnd, State.setLoad]
  refine ⟨?_, by rwa [yal], by rwa [yal], ?_, ?_, ?_, by rwa [yal]⟩
  · rw [State.loadEnd_get _ _ _ _ _ (.inr (by simp only [F.YCU_GEN_GEN]; omega)), gen]
  · rw [yal]
    simpa [State.loadEnd] using data
  · simpa [State.loadEnd] using gm
  · simpa [State.loadEnd] using xm

/-- What the registers of a load that ended read. -/
theorem State.loadEnd_shows (s : State) (st n : Nat) (hst : st < 4) (e c : Bool) :
    (s.loadEnd st n e c).on F.YCU_LOAD_CTL_GO = false ∧ (s.loadEnd st n e c).get F.YCU_LOAD_STAT_STATUS = st ∧
    (s.loadEnd st n e c).get F.YCU_LOAD_STAT_SKIPPED = min 255 n := by
  have apart : ∀ (u : State) (f g : Fld) (v : Nat), f.lo ≤ f.hi → (f.addr + 4 * (f.hi / 32 + 1) ≤ g.addr ∨
      g.addr + 4 * (g.hi / 32 + 1) ≤ f.addr ∨ g.addr = f.addr ∧ (g.hi < f.lo ∨ f.hi < g.lo)) →
      (u.put f v).get g = u.get g := State.get_put_off
  unfold State.loadEnd
  refine ⟨?_, ?_, ?_⟩
  · rw [State.on, State.get_put_self _ _ _ (by decide)]
    rfl
  · rw [apart _ _ _ _ (by decide) (by decide), apart _ _ _ _ (by decide) (by decide), apart _ _ _ _ (by decide) (by decide),
      apart _ _ _ _ (by decide) (by decide), State.get_put_self _ _ _ (by decide)]
    exact Nat.mod_eq_of_lt hst
  · rw [apart _ _ _ _ (by decide) (by decide), State.get_put_self _ _ _ (by decide)]
    exact Nat.mod_eq_of_lt (show min 255 n < 2 ^ 8 by omega)

section
variable {x : Fin 68} {l : Load} {s : State}

/-- The state with the target copied, before the load moves on. -/
theorem State.loaded_reloaded (l' : Load) : s.Loaded l.src x.val ((s.setLoad (some l')).reloaded l.src x.val) :=
  ((s.setLoad (some l')).loaded_copied l.src x.val).keeps ((s.setLoad (some l')).keepsStores_reloaded l.src x)

theorem State.reloaded_load (l' : Load) : ((s.setLoad (some l')).reloaded l.src x.val).yal.load = some l' := by
  rw [((s.setLoad (some l')).keepsStores_reloaded l.src x).load, State.copied_load, State.setLoad_load]

variable (hq : s.quiet = true) (hl : s.yal.load = some l) (hx : x.val ∈ l.copying)

include hq in
theorem State.quiet_reloaded (l' : Load) : ((s.setLoad (some l')).reloaded l.src x.val).quiet = true :=
  ((s.setLoad (some l')).keepsStores_reloaded l.src x).quiet
    ((State.quiet_copied _ _ _).trans ((State.quiet_setLoad _ _).trans hq))

include hq hl hx

/-- A copy that is not the last: the load goes on. -/
theorem answers_copy_goesOn (hr : l.copying.filter (· != x.val) ≠ []) : Answers (.loadCopyDone x .good) s (fun u =>
    s.Loaded l.src x.val u ∧ ∃ l', u.yal.load = some l' ∧ l'.copying = l.copying.filter (· != x.val) ∧
      l'.draining = l.draining ∧ l'.skipped = l.skipped ∧ l'.failed = l.failed) := by
  obtain ⟨copying, draining, -, -, skipped, -, failed⟩ := l.afterCopy_fields x.val false
  rw [Bool.or_false] at failed
  have load := State.reloaded_load (s := s) (l := l) (x := x) (l.afterCopy x.val false)
  have moves : s.loadCopyDone x.val .good = (s.setLoad (some (l.afterCopy x.val false))).reloaded l.src x.val := by
    rw [State.loadCopyDone_good hl hx, Load.afterCopy_src]
    exact State.loadAdvance_stays load (.inr (.inr (by rwa [copying]))) 8
  refine (completes_of rfl ((State.loadStep_goesOn ((congrArg (fun u : State => u.yal.load) moves).trans load)).trans moves)
    (State.quiet_reloaded hq _)).answers ⟨(State.loaded_reloaded _).keeps (.close _), _, ?_, copying, draining, skipped, failed⟩
  rw [State.close_yal, load]

/-- The last copy of a load. -/
theorem answers_copy_last (hw : l.waiting = false) (hr : l.copying.filter (· != x.val) = []) (hd : l.draining = []) (hre : l.ready = [])
    (hu : l.units = []) (hs : s.ctl.slot = none) (ht : s.ctl.trimLate = false) (hf : s.on F.DMC_CTL_FCHG = false)
    (htr : s.on F.DMC_CTL_TRAIN = false) : Answers (.loadCopyDone x .good) s (fun u =>
    s.Loaded l.src x.val u ∧ u.yal.load = none ∧ u.on F.YCU_LOAD_CTL_GO = false ∧
      u.get F.YCU_LOAD_STAT_STATUS = (if l.skipped = 0 ∧ l.failed = false then 2 else 3) ∧
      u.get F.YCU_LOAD_STAT_SKIPPED = min 255 l.skipped) := by
  obtain ⟨copying, draining, ready, units, skipped, waiting, failed⟩ := l.afterCopy_fields x.val false
  have load := State.reloaded_load (s := s) (l := l) (x := x) (l.afterCopy x.val false)
  have ends : s.loadCopyDone x.val .good = ((s.setLoad (some (l.afterCopy x.val false))).reloaded l.src x.val).loadEnd
      (if l.skipped = 0 && !l.failed then 2 else 3) l.skipped false false := by
    rw [State.loadCopyDone_good hl hx, Load.afterCopy_src, State.loadAdvance_ends load (waiting.trans hw) (draining.trans hd)
      (copying.trans hr) (ready.trans hre) (units.trans hu), skipped, failed, Bool.or_false]
  have keeps := (s.setLoad (some (l.afterCopy x.val false))).keepsStores_reloaded l.src x
  have ctl : ((s.setLoad (some (l.afterCopy x.val false))).reloaded l.src x.val).ctl = s.ctl := by
    rw [keeps.ctl, State.copied_ctl, State.setLoad_ctl]
  have get : ∀ f : Fld, 0x802000 ≤ f.addr → ((s.setLoad (some (l.afterCopy x.val false))).reloaded l.src x.val).get f = s.get f :=
    fun f h => by rw [keeps.get f (by omega), State.copied_get _ _ _ (.inr h) (by omega), State.setLoad_get]
  have loaded : s.Loaded l.src x.val ((s.setLoad (some (l.afterCopy x.val false))).reloaded l.src x.val) :=
    State.loaded_reloaded _
  have quiet := State.quiet_reloaded (l := l) (x := x) hq (l.afterCopy x.val false)
  generalize (s.setLoad (some (l.afterCopy x.val false))).reloaded l.src x.val = v at ends ctl get loaded quiet
  have idle : (v.loadEnd (if l.skipped = 0 && !l.failed then 2 else 3) l.skipped false false).modeGo
      = v.loadEnd (if l.skipped = 0 && !l.failed then 2 else 3) l.skipped false false := by
    refine State.modeGo_idle ?_ ?_ (State.loadEnd_load ..) ?_ ?_
    · rw [State.loadEnd_ctl, ctl, hs]
    · rw [State.loadEnd_ctl, ctl, ht]
    · rw [State.on, State.loadEnd_get _ _ _ _ _ (.inr (by decide)), get _ (by decide)]
      exact hf
    · rw [State.on, State.loadEnd_get _ _ _ _ _ (.inr (by decide)), get _ (by decide)]
      exact htr
  obtain ⟨go, status, skips⟩ := v.loadEnd_shows (if l.skipped = 0 && !l.failed then 2 else 3) l.skipped (by split <;> omega) false false
  refine (completes_of rfl ((State.loadStep_ends (by rw [ends]; exact State.loadEnd_load ..) (by rw [ends]; exact idle)).trans ends)
    ((State.quiet_loadEnd ..).trans quiet)).answers ⟨(loaded.loadEnd _ _ _ _).keeps (.close _), ?_, ?_, ?_, ?_⟩
  · rw [State.close_yal, State.loadEnd_load]
  · rw [State.close_on, go]
  · rw [State.close_get, status]
    simp
  · rw [State.close_get, skips]

omit hq in
theorem State.loadCopyDone_bad (hr : l.copying.filter (· != x.val) ≠ []) : s.loadCopyDone x.val .lasting = if x.val < 64 then
      ((s.setLoad (some (l.afterCopy x.val true))).dropImage x.val).raise (386 + 4 * (x.val / 4))
    else (s.setLoad (some (l.afterCopy x.val true))).put (F.YCU_GEN_GEN x.val) 0xFFFFFFFF := by
  obtain ⟨copying, -⟩ := l.afterCopy_fields x.val true
  have load : (if x.val < 64 then ((s.setLoad (some (l.afterCopy x.val true))).dropImage x.val).raise (386 + 4 * (x.val / 4))
      else (s.setLoad (some (l.afterCopy x.val true))).put (F.YCU_GEN_GEN x.val) 0xFFFFFFFF).yal.load
      = some (l.afterCopy x.val true) := by
    split
    · rw [State.raise_yal, State.dropImage_load, State.setLoad_load]
    · rw [State.put_yal, State.setLoad_load]
  rw [State.loadCopyDone_lasting hl hx, State.loadAdvance_stays load (.inr (.inr (by rwa [copying])))]

/-- A copy of a unit that fails for good leaves it without an image, and its threads off (R48, R56). -/
theorem answers_copy_failedUnit (hr : l.copying.filter (· != x.val) ≠ []) (h64 : x.val < 64)
    (hn : s.countsOnly (386 + 4 * (x.val / 4)) = true) : Answers (.loadCopyDone x .lasting) s (fun u =>
      u.get (F.YCU_GEN_GEN x.val) = 0xFFFFFFFF ∧ u.on (F.FLT_SRC_STICKY (386 + 4 * (x.val / 4))) = true ∧
      (∀ t, 8 * x.val ≤ t → t < 8 * x.val + 8 → (u.thread t).st ≠ .idle) ∧ u.yal.im = s.yal.im ∧ u.gm = s.gm) := by
  have moves := State.loadCopyDone_bad hl hx hr
  rw [if_pos h64] at moves
  have keeps := (s.setLoad (some (l.afterCopy x.val true))).keepsStores_dropImage x.val
  have threads := (s.setLoad (some (l.afterCopy x.val true))).dropImage_threads x.val
  have load := (s.setLoad (some (l.afterCopy x.val true))).dropImage_load x.val
  generalize (s.setLoad (some (l.afterCopy x.val true))).dropImage x.val = w at moves keeps threads load
  have high : ∀ f : Fld, 0x1000010 ≤ f.addr → w.get f = s.get f := fun f hf => by
    rw [keeps.get f (by omega), State.get_put_ne _ _ _ _ (.inl (by simp only [F.YCU_GEN_GEN]; omega)), State.setLoad_get]
  have counts : w.countsOnly (386 + 4 * (x.val / 4)) = true := (State.countsOnly_congr high _).trans hn
  have quiet : w.quiet = true := keeps.quiet (by rw [State.quiet_put, State.quiet_setLoad, hq])
  have stays : s.loadStep (fun s => s.loadCopyDone x.val .lasting) = w.raise (386 + 4 * (x.val / 4)) :=
    (State.loadStep_goesOn ((congrArg (fun u : State => u.yal.load) moves).trans load)).trans moves
  refine (completes_of_raise (c := .loadCopyDone x .lasting) (congrArg done stays) rfl quiet counts).answers ⟨?_, ?_, fun t h1 h2 => ?_, ?_, ?_⟩
  · rw [State.close_get, State.get_counted_below _ _ (by simp only [F.YCU_GEN_GEN]; omega),
      keeps.get _ (by simp only [F.YCU_GEN_GEN]; omega), State.get_put_self _ _ _ (by simp [F.YCU_GEN_GEN])]
    exact Nat.mod_eq_of_lt (by simp [F.YCU_GEN_GEN])
  · rw [State.close_on, State.on, State.get_counted_sticky]
    rfl
  · obtain ⟨k, rfl⟩ : ∃ k, t = 8 * x.val + k := ⟨t - 8 * x.val, by omega⟩
    rw [State.thread_close, State.thread, State.counted_yal]
    exact threads k (by omega)
  · rw [State.close_yal, State.counted_yal, keeps.im, State.put_yal]
    rfl
  · rw [State.close_gm, State.counted_gm, keeps.gm, State.put_gm]
    rfl

/-- A copy of a sequencer that fails for good leaves it without an image (log 32). -/
theorem answers_copy_failedSeq (hr : l.copying.filter (· != x.val) ≠ []) (h64 : 64 ≤ x.val) :
    Answers (.loadCopyDone x .lasting) s (fun u =>
      u.get (F.YCU_GEN_GEN x.val) = 0xFFFFFFFF ∧ u.yal.im = s.yal.im ∧ u.sd = s.sd ∧ u.gm = s.gm) := by
  have moves := State.loadCopyDone_bad hl hx hr
  rw [if_neg (by omega)] at moves
  have load : (s.loadCopyDone x.val .lasting).yal.load = some (l.afterCopy x.val true) := by
    rw [moves, State.put_yal, State.setLoad_load]
  refine (completes_of rfl ((State.loadStep_goesOn load).trans moves)
    (by rw [State.quiet_put, State.quiet_setLoad, hq])).answers ⟨?_, ?_, ?_, ?_⟩
  · rw [State.close_get, State.get_put_self _ _ _ (by simp [F.YCU_GEN_GEN])]
    exact Nat.mod_eq_of_lt (by simp [F.YCU_GEN_GEN])
  · rw [State.close_yal, State.put_yal]
    rfl
  · rw [State.close_sd, State.put_sd]
    rfl
  · rw [State.close_gm, State.put_gm]
    rfl

end

/-- A loader's step after which the load goes on. -/
theorem completes_loadStep {c : Instr} {s t : State} {f : State → State} {l : Load} (hc : exec c s = done (s.loadStep f))
    (hf : f s = t) (hl : t.yal.load = some l) (hq : t.quiet = true) : Completes c s t :=
  completes_of hc ((State.loadStep_goesOn ((congrArg (fun u : State => u.yal.load) hf).trans hl)).trans hf) hq

/-! ### Draining and its timeout (R53, R54, R56) -/

section
variable {s : State} {l : Load}

theorem State.setLoad_stays (h : l.waiting = true ∨ l.draining ≠ [] ∨ l.copying ≠ []) (n : Nat) :
    (s.setLoad (some l)).loadAdvance n = s.setLoad (some l) := State.loadAdvance_stays rfl h n

variable (hw : l.waiting = false) (hd : l.draining = []) (hc : l.copying = [])
include hw hd hc

theorem State.setLoad_ready (hr : l.ready ≠ []) (n : Nat) : (s.setLoad (some l)).loadAdvance (n + 1)
    = s.setLoad (some { l with copying := l.ready, ready := [], deadline := 0 }) :=
  State.loadAdvance_ready (s := s.setLoad (some l)) rfl hw hd hc hr n

theorem State.setLoad_ends (hr : l.ready = []) (hu : l.units = []) (n : Nat) : (s.setLoad (some l)).loadAdvance (n + 1)
    = s.loadEnd (if l.skipped = 0 && !l.failed then 2 else 3) l.skipped false false :=
  State.loadAdvance_ends (s := s.setLoad (some l)) rfl hw hd hc hr hu n

end

section
variable {un : Fin 64} {l : Load} {s : State} (hq : s.quiet = true) (hl : s.yal.load = some l) (hu : un.val ∈ l.draining)
  (hun : s.unitQuiet un.val = true)
include hq hl hu hun

theorem completes_drained_roll (hb : s.unitBarred un.val = false) (hm : l.barrier = false) : Completes (.loadUnitDrained un) s
    (s.setLoad (some { l with draining := l.draining.filter (· != un.val), copying := l.copying ++ [un.val] })) := by
  refine completes_loadStep rfl ?_ rfl hq
  rw [State.loadUnitDrained_copied hl hu hun hb, hm, if_neg Bool.false_ne_true]
  exact State.setLoad_stays (.inr (.inr (by simp))) 8

theorem completes_drained_waits (hb : s.unitBarred un.val = false) (hm : l.barrier = true)
    (hr : l.draining.filter (· != un.val) ≠ []) : Completes (.loadUnitDrained un) s
    (s.setLoad (some { l with draining := l.draining.filter (· != un.val), ready := l.ready ++ [un.val] })) := by
  refine completes_loadStep rfl ?_ rfl hq
  rw [State.loadUnitDrained_copied hl hu hun hb, hm, if_pos rfl]
  exact State.setLoad_stays (.inr (.inl hr)) 8

theorem completes_drained_last (hb : s.unitBarred un.val = false) (hm : l.barrier = true)
    (hr : l.draining.filter (· != un.val) = []) (hc : l.copying = []) (hw : l.waiting = false) :
    Completes (.loadUnitDrained un) s (s.setLoad (some { l with
      draining := [], ready := [], copying := l.ready ++ [un.val], deadline := 0 })) := by
  refine completes_loadStep rfl ?_ rfl hq
  rw [State.loadUnitDrained_copied hl hu hun hb, hm, if_pos rfl, hr]
  refine State.setLoad_ready ?_ ?_ ?_ ?_ 7
  exacts [hw, rfl, hc, List.append_ne_nil_of_right_ne_nil _ (List.cons_ne_nil _ _)]

theorem completes_drained_barred (hb : s.unitBarred un.val = true) (hr : l.draining.filter (· != un.val) ≠ []) :
    Completes (.loadUnitDrained un) s
      (s.setLoad (some { l with draining := l.draining.filter (· != un.val), skipped := l.skipped + 1 })) := by
  refine completes_loadStep rfl ?_ rfl hq
  rw [State.loadUnitDrained_barred hl hu hun hb]
  exact State.setLoad_stays (.inr (.inl hr)) 8

end

theorem State.quiet_until (s : State) (n : Nat) : (s.until n).quiet = s.quiet :=
  State.quiet_congr (State.until_raised _ _) (State.until_seqs _ _)

section
variable {l : Load} {s : State} (hq : s.quiet = true) (hl : s.yal.load = some l)
include hq hl

theorem completes_timeout_none (hd : l.draining = []) : Completes .loadDrainTimeout s s := by
  refine completes_loadStep rfl ?_ hl hq
  rw [State.loadDrainTimeout, hl]
  exact if_neg (fun h => h.2 hd)

variable (hdl : l.deadline ≠ 0) (hw : l.waiting = false) (hd : l.draining ≠ [])
include hdl hd

theorem completes_timeout_copying (hc : l.copying ≠ []) : Completes .loadDrainTimeout s ((s.until l.deadline).setLoad
    (some { l with draining := [], skipped := l.skipped + l.draining.length })) := by
  refine completes_loadStep rfl ?_ rfl (by rw [State.quiet_setLoad, State.quiet_until, hq])
  rw [State.loadDrainTimeout_eq hl hdl hd]
  refine State.setLoad_stays (.inr (.inr ?_)) 8
  exact hc

include hw

theorem completes_timeout_ready (hc : l.copying = []) (hr : l.ready ≠ []) : Completes .loadDrainTimeout s
    ((s.until l.deadline).setLoad (some { l with
      draining := [], skipped := l.skipped + l.draining.length, copying := l.ready, ready := [], deadline := 0 })) := by
  refine completes_loadStep rfl ?_ rfl (by rw [State.quiet_setLoad, State.quiet_until, hq])
  rw [State.loadDrainTimeout_eq hl hdl hd]
  refine State.setLoad_ready ?_ ?_ ?_ ?_ 7
  exacts [hw, rfl, hc, hr]

/-- The drain timeout of a load that has nothing left ends it, with targets left on their old image. -/
theorem completes_timeout_ends (hc : l.copying = []) (hr : l.ready = []) (hu : l.units = []) (hs : s.ctl.slot = none)
    (ht : s.ctl.trimLate = false) (hf : s.on F.DMC_CTL_FCHG = false) (htr : s.on F.DMC_CTL_TRAIN = false) :
    Completes .loadDrainTimeout s ((s.until l.deadline).loadEnd 3 (l.skipped + l.draining.length) false false) := by
  have some' : l.draining.length ≠ 0 := fun h => hd (List.length_eq_zero_iff.1 h)
  have ends : s.loadDrainTimeout = (s.until l.deadline).loadEnd 3 (l.skipped + l.draining.length) false false := by
    have status : (if (l.skipped + l.draining.length = 0 && !l.failed) = true then 2 else 3) = 3 := by
      rw [if_neg]
      simp [some']
    have last := State.setLoad_ends (s := s.until l.deadline) (l := { l with
      draining := [], skipped := l.skipped + l.draining.length }) hw rfl hc hr hu 7
    dsimp only at last
    rw [status] at last
    rw [State.loadDrainTimeout_eq hl hdl hd]
    exact last
  have idle : ((s.until l.deadline).loadEnd 3 (l.skipped + l.draining.length) false false).modeGo
      = (s.until l.deadline).loadEnd 3 (l.skipped + l.draining.length) false false := by
    refine State.modeGo_idle ?_ ?_ (State.loadEnd_load ..) ?_ ?_
    · rw [State.loadEnd_ctl, State.until_ctl, hs]
    · rw [State.loadEnd_ctl, State.until_ctl, ht]
    · rw [State.on, State.loadEnd_get _ _ _ _ _ (.inr (by decide)), State.until_get]
      exact hf
    · rw [State.on, State.loadEnd_get _ _ _ _ _ (.inr (by decide)), State.until_get]
      exact htr
  have load : s.loadDrainTimeout.yal.load = none := by rw [ends, State.loadEnd_load]
  have stays : s.loadDrainTimeout.modeGo = s.loadDrainTimeout := by rw [ends, idle]
  refine completes_of rfl ((State.loadStep_ends load stays).trans ends) ?_
  rw [State.quiet_loadEnd, State.quiet_until, hq]

end

/-- Settles O13, from the loader's rules. -/
theorem programLoads : Obligations.ProgramLoads := by
  unfold Obligations.ProgramLoads
  refine ⟨fun who v m s h => ?_, fun un l s hq hl hu hun => ⟨completes_drained_roll hq hl hu hun, completes_drained_waits hq hl hu hun,
    completes_drained_last hq hl hu hun, completes_drained_barred hq hl hu hun⟩, fun l s hq hl hdl hw =>
    ⟨completes_timeout_none hq hl, completes_timeout_copying hq hl hdl, completes_timeout_ready hq hl hdl hw,
      completes_timeout_ends hq hl hdl hw⟩, fun x l s hq hl hx hw => ⟨answers_copy_goesOn hq hl hx, answers_copy_last hq hl hx hw,
      answers_copy_failedUnit hq hl hx, answers_copy_failedSeq hq hl hx⟩⟩
  have filed := s.filed_loadCtl m v
  refine ⟨completes_go_busy h, fun hl ht => ?_, fun hl ht hc => ?_, fun hl ht hc => ?_, fun hl ht hc hs hg => ?_,
    fun hl ht hc hs hoff => ?_⟩
  · have := completes_go_waits h (v := v) (m := m) hl ht
    rwa [filed] at this
  · exact completes_go_failed h hl ht filed (hdr := true) (crc := false) (fun u e => State.loadBegin_header (e.trans hc)) rfl
  · exact completes_go_failed h hl ht filed (hdr := false) (crc := true) (fun u e => State.loadBegin_crc (e.trans hc)) rfl
  · refine completes_go_units h hl ht filed hc hs ?_ rfl rfl rfl hg ?_
    · simp
    · simp only [Nat.zero_add]
      rfl
  · exact completes_go_seqs h hl ht filed hc hs (fun n hn => by simp [onesOf] at hn; omega) hoff rfl

end Sys2Proof.Machine
end

section
/-! The statement RoutesAndResults, its routes: the staged route and the longest match (R361). -/

namespace Sys2Proof.Machine

/-! ### The staged route -/

section
variable (s : State)

/-- The stage names an IPv6 route. -/
def State.rtV6 : Bool := bit (s.get (F.EPT_RT_STAGE_WORD 4)) 8

/-- PLEN of the stage. -/
def State.rtLen : Nat := s.get (F.EPT_RT_STAGE_WORD 4) % 256

/-- Address width of the staged route. -/
def State.rtWidth : Nat := if s.rtV6 then 128 else 32

/-- PRE of the staged route, its bits beyond PLEN 0. -/
def State.rtPre : Nat :=
  beNat (((List.range 4).flatMap (fun k => natLe (s.get (F.EPT_RT_STAGE_WORD k)) 4)).take (s.rtWidth / 8))
    / 2 ^ (s.rtWidth - s.rtLen) * 2 ^ (s.rtWidth - s.rtLen)

/-- A route has the staged key. -/
def State.rtSame (r : Route) : Bool := r.v6 == s.rtV6 && r.plen == s.rtLen && r.pre == s.rtPre

/-- The routes without the one of the staged key. -/
def State.rtOthers : List Route := s.ept.routes.filter (fun r => !s.rtSame r)

/-- The staged route. -/
def State.rtStaged : Route := ⟨s.rtV6, s.rtLen, s.rtPre, s.get (F.EPT_RT_STAGE_WORD 5) % 2 ^ 18⟩

/-- The route table becomes `l`: ERR reads 0 and the count of its kind is brought up to date. -/
def State.setRoutes (v6 : Bool) (l : List Route) : State :=
  (({ s with ept := { s.ept with routes := l } } : State).put F.EPT_RT_UPD_ERR 0).put
    (if v6 then F.EPT_RT_OCC6_N else F.EPT_RT_OCC4_N) (l.filter (fun r => r.v6 == v6)).length

theorem bits_low (v hi : Nat) : bits v hi 0 = v % 2 ^ (hi + 1) := by simp [bits]

theorem State.routeUpdate_long (h : s.rtWidth < s.rtLen) : s.routeUpdate = s.put F.EPT_RT_UPD_ERR 1 := by
  unfold State.routeUpdate
  simp only [bits_low]
  exact if_pos h

section
variable {s} (h : s.rtLen ≤ s.rtWidth)
include h

theorem State.routeUpdate_remove (h9 : bit (s.get (F.EPT_RT_STAGE_WORD 4)) 9 = true) :
    s.routeUpdate = if s.ept.routes.any s.rtSame then s.setRoutes s.rtV6 s.rtOthers else s.put F.EPT_RT_UPD_ERR 1 := by
  unfold State.routeUpdate
  simp only [bits_low]
  exact (if_neg (Nat.not_lt.2 h)).trans (if_pos h9)

theorem State.routeUpdate_add (h9 : bit (s.get (F.EPT_RT_STAGE_WORD 4)) 9 = false) : s.routeUpdate =
    if !s.ept.routes.any s.rtSame && decide ((if s.rtV6 then 32768 else 65536)
        ≤ (s.ept.routes.filter (fun r => r.v6 == s.rtV6)).length) then (s.put F.EPT_RT_UPD_ERR 1).raise 485
    else s.setRoutes s.rtV6 (s.rtOthers ++ [s.rtStaged]) := by
  unfold State.routeUpdate
  simp only [bits_low]
  exact (if_neg (Nat.not_lt.2 h)).trans (if_neg (Bool.eq_false_iff.1 h9))

end

/-- What the commands say of a table that was replaced. -/
theorem State.setRoutes_shows (v6 : Bool) (l : List Route) : let u := (s.setRoutes v6 l).close
    u.get F.EPT_RT_UPD_ERR = 0 ∧ u.ept = { s.ept with routes := l } ∧ u.xm = s.xm ∧ u.gm = s.gm := by
  refine ⟨?_, ?_, ?_, ?_⟩
  · rw [State.close_get, State.setRoutes, State.get_put_ne _ _ _ _ (by cases v6 <;> decide), State.get_put_self _ _ _ (by decide)]
    rfl
  · rw [State.close_ept, State.setRoutes, State.put_ept, State.put_ept]
  · rw [State.close_xm, State.setRoutes, State.put_xm, State.put_xm]
  · rw [State.close_gm, State.setRoutes, State.put_gm, State.put_gm]

theorem State.quiet_setRoutes (v6 : Bool) (l : List Route) : (s.setRoutes v6 l).quiet = s.quiet := by
  rw [State.setRoutes, State.quiet_put, State.quiet_put]
  rfl

end

/-! ### ROUTE_ADD and ROUTE_REMOVE -/

section
variable {who : Fin 4} {s : State} (hs : s.takes who.val 5 = true)
include hs

/-- GO with the stage naming the command's action has the effect of a route update. -/
theorem completes_route {c : Instr} {rm : Bool} {u : State}
    (hc : exec c s = done (s.writeTo who 0xA00060 (fun s => s.routeGo rm)))
    (h9 : bit (s.get (F.EPT_RT_STAGE_WORD 4)) 9 = rm) (hu : s.routeUpdate = u) (hq : u.quiet = s.quiet) : Completes c s u :=
  completes_write hc (by decide) hs ((if_pos (beq_iff_eq.2 h9)).trans hu) (hq.trans ((s.takes_iff _ _).1 hs).1)

theorem completes_route_long {c : Instr} {rm : Bool}
    (hc : exec c s = done (s.writeTo who 0xA00060 (fun s => s.routeGo rm)))
    (h9 : bit (s.get (F.EPT_RT_STAGE_WORD 4)) 9 = rm) (h : s.rtWidth < s.rtLen) :
    Completes c s (s.put F.EPT_RT_UPD_ERR 1) :=
  completes_route hs hc h9 (s.routeUpdate_long h) (s.quiet_put _ _)

theorem completes_route_other {c : Instr} {rm : Bool}
    (hc : exec c s = done (s.writeTo who 0xA00060 (fun s => s.routeGo rm)))
    (h9 : bit (s.get (F.EPT_RT_STAGE_WORD 4)) 9 ≠ rm) : Completes c s s :=
  completes_write hc (by decide) hs (if_neg (by simpa using h9)) ((s.takes_iff _ _).1 hs).1

theorem answers_routeAdd (h9 : bit (s.get (F.EPT_RT_STAGE_WORD 4)) 9 = false) (h : s.rtLen ≤ s.rtWidth)
    (hroom : s.ept.routes.any s.rtSame = true ∨ ¬ (if s.rtV6 then 32768 else 65536)
      ≤ (s.ept.routes.filter (fun r => r.v6 == s.rtV6)).length) :
    Answers (.routeAdd who) s (fun u => u.get F.EPT_RT_UPD_ERR = 0 ∧
      u.ept = { s.ept with routes := s.rtOthers ++ [s.rtStaged] } ∧ u.xm = s.xm ∧ u.gm = s.gm) := by
  have room : s.routeUpdate = s.setRoutes s.rtV6 (s.rtOthers ++ [s.rtStaged]) := by
    rw [State.routeUpdate_add h h9, if_neg]
    rintro full
    simp only [Bool.and_eq_true, Bool.not_eq_true', decide_eq_true_eq] at full
    obtain ⟨absent, full⟩ := full
    exact hroom.elim (fun here => Bool.false_ne_true (absent.symm.trans here)) (fun room => room full)
  exact (completes_route hs rfl h9 room (s.quiet_setRoutes _ _)).answers (s.setRoutes_shows _ _)

theorem answers_routeRemove (h9 : bit (s.get (F.EPT_RT_STAGE_WORD 4)) 9 = true) (h : s.rtLen ≤ s.rtWidth)
    (here : s.ept.routes.any s.rtSame = true) : Answers (.routeRemove who) s (fun u => u.get F.EPT_RT_UPD_ERR = 0 ∧
      u.ept = { s.ept with routes := s.rtOthers } ∧ u.xm = s.xm ∧ u.gm = s.gm) :=
  (completes_route hs rfl h9 ((State.routeUpdate_remove h h9).trans (if_pos here)) (s.quiet_setRoutes _ _)).answers
    (s.setRoutes_shows _ _)

theorem completes_routeRemove_absent (h9 : bit (s.get (F.EPT_RT_STAGE_WORD 4)) 9 = true) (h : s.rtLen ≤ s.rtWidth)
    (absent : s.ept.routes.any s.rtSame = false) : Completes (.routeRemove who) s (s.put F.EPT_RT_UPD_ERR 1) :=
  completes_route hs rfl h9 ((State.routeUpdate_remove h h9).trans (if_neg (Bool.eq_false_iff.1 absent))) (s.quiet_put _ _)

end

theorem State.get_bump_congr {s t : State} {f : Fld} (hf : f.lo ≤ f.hi) (h : s.get f = t.get f) (k : Nat) :
    (s.bump f k).get f = (t.bump f k).get f := by
  rw [State.get_bump_self _ _ _ hf, State.get_bump_self _ _ _ hf, h]

theorem State.get_counted_count (s : State) (n : Nat) :
    (s.counted n).get (F.FLT_SRC_COUNT n) = (s.bump (F.FLT_SRC_COUNT n) 1).get (F.FLT_SRC_COUNT n) := by
  have low : (F.FLT_SRC_COUNT n).lo ≤ (F.FLT_SRC_COUNT n).hi := by simp [F.FLT_SRC_COUNT]
  rw [State.counted]
  refine State.get_bump_congr low ?_ 1
  simp (disch := (dsimp only [F.FLT_SRC_COUNT, F.FLT_SRC_STICKY, F.FLT_SRC_FORCED]; omega)) only [State.get_put_off]

/-- A route that finds its table full is not installed, and source 485 is counted. -/
theorem answers_routeAdd_full {s t : State} (hs : t.takes 0 5 = true) (hst : t.regs = s.regs)
    (h9 : bit (t.get (F.EPT_RT_STAGE_WORD 4)) 9 = false) (h : t.rtLen ≤ t.rtWidth)
    (absent : t.ept.routes.any t.rtSame = false) (full : (if t.rtV6 then 32768 else 65536)
      ≤ (t.ept.routes.filter (fun r => r.v6 == t.rtV6)).length) (hn : s.countsOnly 485 = true) :
    Answers (.routeAdd 0) t (fun u => u.get F.EPT_RT_UPD_ERR = 1 ∧ u.ept = t.ept ∧ CountedOnce s u 485) := by
  have raises : t.routeUpdate = (t.put F.EPT_RT_UPD_ERR 1).raise 485 :=
    (State.routeUpdate_add h h9).trans (if_pos (by rw [absent, decide_eq_true full]; rfl))
  have calm : (t.put F.EPT_RT_UPD_ERR 1).quiet = true := (t.quiet_put _ _).trans ((t.takes_iff _ _).1 hs).1
  have same : ∀ f : Fld, 0xA00064 ≤ f.addr → (t.put F.EPT_RT_UPD_ERR 1).get f = s.get f := fun f hf =>
    (State.get_put_ne t F.EPT_RT_UPD_ERR f 1 (.inl hf)).trans (State.get_congr hst f)
  have counts : (t.put F.EPT_RT_UPD_ERR 1).countsOnly 485 = true :=
    (State.countsOnly_congr (fun f hf => same f (by omega)) _).trans hn
  have goes := (State.writeTo_takes (who := 0) (a := 0xA00060) hs (fun s => s.routeGo false)).trans ((if_pos (beq_iff_eq.2 h9)).trans raises)
  refine (completes_of_raise (c := .routeAdd 0) (congrArg done goes) rfl calm counts).answers ⟨?_, ?_, ?_⟩
  · rw [State.close_get, State.get_counted_below _ _ (by decide), State.get_put_self _ _ _ (by decide)]
    rfl
  · rw [State.close_ept, State.counted_eq, State.put_ept]
  · exact (State.close_get _ _).trans ((State.get_counted_count _ _).trans
      (State.get_bump_congr (by simp [F.FLT_SRC_COUNT]) (same _ (by simp only [F.FLT_SRC_COUNT]; omega)) 1))

/-! ### The longest match -/

theorem minBy_eq_none {α : Type} {key : α → Nat} {l : List α} (h : minBy key l = none) : l = [] := by
  cases l with
  | nil => rfl
  | cons x xs =>
    unfold minBy at h
    repeat' split at h
    all_goals exact absurd h (Option.some_ne_none _)

theorem minBy_mem {α : Type} {key : α → Nat} {l : List α} {r : α} (h : minBy key l = some r) :
    r ∈ l ∧ ∀ q ∈ l, key r ≤ key q := by
  induction l generalizing r with
  | nil => exact absurd h (by simp [minBy])
  | cons x xs ih =>
    unfold minBy at h
    rcases hrest : minBy key xs with _ | y
    · simp only [hrest, Option.some.injEq] at h
      simp [minBy_eq_none hrest, h]
    · obtain ⟨mem, least⟩ := ih hrest
      rw [List.forall_mem_cons]
      simp only [hrest] at h
      split at h <;> cases h
      · next lt => exact ⟨List.mem_cons_of_mem _ mem, Nat.le_of_lt lt, least⟩
      · next ge => exact ⟨List.mem_cons_self, Nat.le_refl _, fun q hq => Nat.le_trans (Nat.not_lt.1 ge) (least q hq)⟩

theorem State.routeFind_longest {s : State} {v6 : Bool} {a : Nat} {r : Route} (h : s.routeFind v6 a = some r) :
    r ∈ s.ept.routes ∧ r.v6 = v6 ∧
    r.pre = a / 2 ^ ((if v6 then 128 else 32) - r.plen) * 2 ^ ((if v6 then 128 else 32) - r.plen) ∧
    (∀ q : Route, q ∈ s.ept.routes → q.v6 = v6 → q.plen ≤ (if v6 then 128 else 32) →
      q.pre = a / 2 ^ ((if v6 then 128 else 32) - q.plen) * 2 ^ ((if v6 then 128 else 32) - q.plen) →
      q.plen ≤ r.plen ∨ (if v6 then 128 else 32) ≤ r.plen) := by
  obtain ⟨mem, least⟩ := minBy_mem h
  simp only [List.mem_filter, Bool.and_eq_true, beq_iff_eq] at mem least
  obtain ⟨mem, kind, pre⟩ := mem
  refine ⟨mem, kind, pre, fun q hq hkind hlen hpre => ?_⟩
  have := least q ⟨hq, hkind, hpre⟩
  omega

end Sys2Proof.Machine
end

section
/-! The statement RoutesAndResults, its lookups: how LOOKUP_COMPLETE ends in each case (R74, R75, R356, R371, R373). -/

namespace Sys2Proof.Machine

/-- Lookup `i` is no longer among those submitted. -/
def State.unqueue (s : State) (i : Nat) : State :=
  { s with ept := { s.ept with lookups := s.ept.lookups.eraseIdx i } }

/-- The word that a destination takes (R30, R310). -/
def Dest.word (d : Dest) (v : Nat) : Nat := match d with | .creation _ _ => v % 2 ^ 25 | .slot _ _ _ => v

section
variable (s : State) (d : Dest) (v : Nat) (pin : Option Nat)

theorem State.lookupResult_yal : (s.lookupResult d v pin).yal
    = { s.yal with arriving := s.yal.arriving ++ [⟨d, BitVec.ofNat 64 (d.word v), pin⟩] } := rfl

theorem State.lookupResult_ept : (s.lookupResult d v pin).ept = s.ept := rfl

theorem State.get_lookupResult (f : Fld) : (s.lookupResult d v pin).get f = s.get f :=
  State.get_congr (s := s.lookupResult d v pin) (t := s) rfl f

theorem State.setWide_lookupResult (a n x : Nat) :
    (s.lookupResult d v pin).setWide a n x = (s.setWide a n x).lookupResult d v pin := by
  induction n generalizing s a x with
  | zero => rfl
  | succ n ih => exact ih (s.setWord a (BitVec.ofNat 32 x)) (a + 4) (x / 2 ^ 32)

theorem State.put_lookupResult (f : Fld) (x : Nat) :
    (s.lookupResult d v pin).put f x = (s.put f x).lookupResult d v pin := by
  rw [State.put, State.setWide_lookupResult, State.wide_congr (s := s.lookupResult d v pin) (t := s) rfl]
  rfl

/-- A result on its way and a source counted do not meet. -/
theorem State.counted_lookupResult (n : Nat) : (s.lookupResult d v pin).counted n = (s.counted n).lookupResult d v pin := by
  simp only [State.counted, State.bump, State.put_lookupResult, State.get_lookupResult]

end

section
variable (s : State) (i : Nat)

theorem State.quiet_unqueue : (s.unqueue i).quiet = s.quiet := rfl

theorem State.unqueue_yal : (s.unqueue i).yal = s.yal := rfl

theorem State.on_unqueue (f : Fld) : (s.unqueue i).on f = s.on f := State.on_congr (s := s.unqueue i) (t := s) rfl f

end

/-! ### What a lookup answers -/

/-- A hit answered: an entry whose task holds eight pins, or that cannot be pinned, gives STATUS 3 (R75, R371). -/
def State.answerHit (s : State) (d : Dest) (x a : Nat) : State :=
  let stuck := match s.eptLine x with | some c => c.stuck | none => false
  if 8 ≤ s.pinsHeld d ∨ stuck = true then s.lookupResult d (lookupWord 0 x 0 3) none
  else (s.pinEntry x).lookupResult d (lookupWord a x 0 0) (some x)

/-- What was found, answered (R74). -/
def State.answer (s : State) (d : Dest) (wb : Check) : Found → State
  | .miss => s.lookupResult d (2 ^ 51) none
  | .bad src => (s.raise src).lookupResult d (2 * 2 ^ 51) none
  | .route r => s.lookupResult d (lookupWord 0 r.nh r.plen 0) none
  | .entry x => match s.bring x wb with
    | (none, s) => s.lookupResult d (2 * 2 ^ 51) none
    | (some a, s) => (s.entHit x a).answerHit d x a

section
variable {i : Nat} {k wb : Check} {g : Lookup} {s : State} (hl : s.ept.lookups[i]? = some g)
include hl

theorem State.lookupComplete_halted (hh : s.eptHalted = true) :
    s.lookupComplete i k wb = (s.unqueue i).lookupResult g.dest (2 * 2 ^ 51) none := by
  unfold State.lookupComplete
  rw [hl]
  exact if_pos hh

theorem State.lookupComplete_disabled (hh : s.eptHalted = false) (he : s.on F.EPT_CTL_EN = false) :
    s.lookupComplete i k wb = (s.unqueue i).lookupResult g.dest (2 ^ 51) none := by
  unfold State.lookupComplete
  rw [hl]
  exact (if_neg (Bool.eq_false_iff.1 hh)).trans (if_pos (Bool.not_eq_true' _ ▸ he))

variable (hh : s.eptHalted = false) (he : s.on F.EPT_CTL_EN = true)
include hh he

/-- While the engine runs, a lookup answers what its search found. -/
theorem State.lookupComplete_found : s.lookupComplete i k wb = (s.unqueue i).answer g.dest wb (s.search g.table g.key k) := by
  have on : ¬ (!(s.unqueue i).on F.EPT_CTL_EN) = true := by simp [State.on_unqueue, he]
  unfold State.lookupComplete
  rw [hl]
  exact (if_neg (Bool.eq_false_iff.1 hh)).trans (if_neg on)

end

/-! ### A hit on a cached entry -/

section
variable (s : State) (x a : Nat)

/-- The own copy of an entry after a hit. -/
def State.entAfterHit : EptEnt :=
  { s.ent x with last := s.now / 2 ^ 30 % 2 ^ 32, hits := min 0xFFFFFFFF ((s.ent x).hits + 1) }

/-- The Granary is `m` and the cache holds the lines `l`. -/
def State.withCache (m : Mem) (l : List EptLine) : State := { s with gm := m, ept := { s.ept with lines := l } }

/-- A hit replaces the entry's own copy, writes it into the line and moves the line to the end. -/
theorem State.entHit_eq : let u := s.setEnt x (s.entAfterHit x)
    s.entHit x a = u.withCache
      (memPutBytes (memPutBytes u.gm a (s.entAfterHit x).head) (a + 0x18) (s.entAfterHit x).keys)
      (u.ept.lines.filter (fun l => l.entry != x) ++ u.ept.lines.filter (fun l => l.entry == x)) := rfl

theorem State.withCache_ept (m : Mem) (l : List EptLine) : (s.withCache m l).ept = { s.ept with lines := l } := rfl
theorem State.withCache_yal (m : Mem) (l : List EptLine) : (s.withCache m l).yal = s.yal := rfl
theorem State.withCache_xm (m : Mem) (l : List EptLine) : (s.withCache m l).xm = s.xm := rfl
theorem State.quiet_withCache (m : Mem) (l : List EptLine) : (s.withCache m l).quiet = s.quiet := rfl

theorem State.setEnt_ept (e : EptEnt) : (s.setEnt x e).ept = { s.ept with ents := tabSet (fun _ => {}) s.ept.ents x e } :=
  State.put_ept _ _ _

theorem State.quiet_setEnt (e : EptEnt) : (s.setEnt x e).quiet = s.quiet := by
  rw [State.setEnt, State.quiet_put]
  rfl

theorem State.entHit_ept : (s.entHit x a).ept = { s.ept with
    ents := tabSet (fun _ => {}) s.ept.ents x (s.entAfterHit x)
    lines := s.ept.lines.filter (fun l => l.entry != x) ++ s.ept.lines.filter (fun l => l.entry == x) } := by
  rw [State.entHit_eq, State.withCache_ept, State.setEnt_ept]

theorem State.entHit_yal : (s.entHit x a).yal = s.yal := by
  rw [State.entHit_eq, State.withCache_yal, State.setEnt, State.put_yal]

theorem State.entHit_xm : (s.entHit x a).xm = s.xm := by
  rw [State.entHit_eq, State.withCache_xm, State.setEnt, State.put_xm]

theorem State.quiet_entHit : (s.entHit x a).quiet = s.quiet := by
  rw [State.entHit_eq, State.quiet_withCache, State.quiet_setEnt]

/-- A hit changes its entry's own copy and no other. -/
theorem State.ent_entHit (y : Nat) : (s.entHit x a).ent y = if y = x then s.entAfterHit x else s.ent y := by
  rw [State.ent, State.entHit_ept]
  split
  · next h => rw [h, tabGet_tabSet_self]
  · next h => exact tabGet_tabSet_ne _ h _ _

/-- The line of the entry hit stays its line. -/
theorem State.eptLine_entHit : (s.entHit x a).eptLine x = s.eptLine x := by
  have others : (s.ept.lines.filter (fun l => l.entry != x)).find? (fun l => l.entry == x) = none := by
    simp
  rw [State.eptLine, State.entHit_ept, List.find?_append, others, Option.none_or, List.find?_filter]
  simp only [and_self, Bool.decide_eq_true]
  rfl

theorem State.pinsHeld_congr {s t : State} (h : s.yal = t.yal) (d : Dest) : s.pinsHeld d = t.pinsHeld d := by
  unfold State.pinsHeld State.thread
  rw [h]

end

/-- What LOOKUP_COMPLETE leaves after a hit on entry `x`: LAST and HITS of the entry are brought up to date, and no other entry,
no byte of XM and no register of a thread changes (R354, R356). -/
structure State.HitOf (s : State) (i x : Nat) (v : State) : Prop where
  hits : (v.ent x).hits = min 0xFFFFFFFF ((s.ent x).hits + 1)
  last : (v.ent x).last = s.now / 2 ^ 30 % 2 ^ 32
  others : ∀ y, y ≠ x → v.ent y = s.ent y
  xm : v.xm = s.xm
  regs : v.yal.g = s.yal.g
  lookups : v.ept.lookups = s.ept.lookups.eraseIdx i

section
variable (s : State) (i x a : Nat) (d : Dest) (v : Nat) (pin : Option Nat)

theorem State.HitOf.entHit : s.HitOf i x ((s.unqueue i).entHit x a) where
  hits := congrArg EptEnt.hits ((State.ent_entHit _ x a x).trans (if_pos rfl))
  last := congrArg EptEnt.last ((State.ent_entHit _ x a x).trans (if_pos rfl))
  others y h := (State.ent_entHit _ x a y).trans (if_neg h)
  xm := State.entHit_xm _ _ _
  regs := congrArg Yalvo.g (State.entHit_yal _ _ _)
  lookups := congrArg Ept.lookups (State.entHit_ept _ _ _)

variable {s i x}

theorem State.HitOf.congr {u w : State} (h : s.HitOf i x u) (hent : w.ept.ents = u.ept.ents) (hl : w.ept.lookups = u.ept.lookups)
    (hx : w.xm = u.xm) (hg : w.yal.g = u.yal.g) : s.HitOf i x w := by
  have ent : ∀ y, w.ent y = u.ent y := fun y => by rw [State.ent, State.ent, hent]
  exact ⟨(congrArg _ (ent x)).trans h.hits, (congrArg _ (ent x)).trans h.last, fun y hy => (ent y).trans (h.others y hy),
    hx.trans h.xm, hg.trans h.regs, hl.trans h.lookups⟩

theorem State.quiet_pinEntry (u : State) : (u.pinEntry x).quiet = u.quiet := rfl
theorem State.pinEntry_yal (u : State) : (u.pinEntry x).yal = u.yal := rfl

theorem State.pinEntry_pins (u : State) :
    tabGet (fun _ => 0) (u.pinEntry x).ept.pins x = tabGet (fun _ => 0) u.ept.pins x + 1 := by
  simp [State.pinEntry, tabMod]

/-- A pin is no part of what a hit is said to leave. -/
theorem State.HitOf.pinEntry {u : State} (h : s.HitOf i x u) : s.HitOf i x (u.pinEntry x) := h.congr rfl rfl rfl rfl

end

/-! ### LOOKUP_COMPLETE -/

section
variable {i : Nat} {k wb : Check} {g : Lookup} {s : State} (hr : s.running 5 = true)
include hr

theorem completes_lookup {u : State} (hu : s.lookupComplete i k wb = u) (hq : u.quiet = true) :
    Completes (.lookupComplete i k wb) s u := completes_whenOn rfl hr hu hq

/-- An answer that follows a hit, as it shows in the state after the command. -/
theorem answers_hit {w : State} {x v : Nat} {d : Dest} {pin : Option Nat}
    (ends : s.lookupComplete i k wb = w.lookupResult d v pin) (hit : s.HitOf i x w) (hq : w.quiet = true)
    (hyal : w.yal = s.yal) : Answers (.lookupComplete i k wb) s (fun u => s.HitOf i x u ∧
      u.yal.arriving = s.yal.arriving ++ [⟨d, BitVec.ofNat 64 (d.word v), pin⟩] ∧ u.ept = w.ept) := by
  have ept : (w.lookupResult d v pin).close.ept = w.ept := by rw [State.close_ept, State.lookupResult_ept]
  have yal := (w.lookupResult d v pin).close_yal.trans (w.lookupResult_yal d v pin)
  refine (completes_lookup hr ends hq).answers ⟨?_, ?_, ept⟩
  · exact hit.congr (congrArg Ept.ents ept) (congrArg Ept.lookups ept) (State.close_xm _) (by rw [yal])
  · rw [yal, hyal]

variable (hl : s.ept.lookups[i]? = some g)
include hl

theorem completes_lookup_halted (hh : s.eptHalted = true) :
    Completes (.lookupComplete i k wb) s ((s.unqueue i).lookupResult g.dest (2 * 2 ^ 51) none) :=
  completes_lookup hr (State.lookupComplete_halted hl hh) ((s.running_iff 5).1 hr).1

theorem completes_lookup_disabled (hh : s.eptHalted = false) (he : s.on F.EPT_CTL_EN = false) :
    Completes (.lookupComplete i k wb) s ((s.unqueue i).lookupResult g.dest (2 ^ 51) none) :=
  completes_lookup hr (State.lookupComplete_disabled hl hh he) ((s.running_iff 5).1 hr).1

variable (hh : s.eptHalted = false) (he : s.on F.EPT_CTL_EN = true)
include hh he

theorem completes_lookup_miss (hf : s.search g.table g.key k = .miss) :
    Completes (.lookupComplete i k wb) s ((s.unqueue i).lookupResult g.dest (2 ^ 51) none) :=
  completes_lookup hr ((State.lookupComplete_found hl hh he).trans (by rw [hf]; rfl)) ((s.running_iff 5).1 hr).1

theorem completes_lookup_route {r : Route} (hf : s.search g.table g.key k = .route r) :
    Completes (.lookupComplete i k wb) s ((s.unqueue i).lookupResult g.dest (r.nh * 2 ^ 25 + r.plen * 2 ^ 43) none) := by
  have word : lookupWord 0 r.nh r.plen 0 = r.nh * 2 ^ 25 + r.plen * 2 ^ 43 := by simp [lookupWord]
  exact completes_lookup hr ((State.lookupComplete_found hl hh he).trans (by rw [hf, State.answer, word]))
    ((s.running_iff 5).1 hr).1

theorem completes_lookup_bad {n : Nat} (hf : s.search g.table g.key k = .bad n) (hn : s.countsOnly n = true) :
    Completes (.lookupComplete i k wb) s (((s.unqueue i).counted n).lookupResult g.dest (2 * 2 ^ 51) none) := by
  have raises : s.lookupComplete i k wb = ((s.unqueue i).lookupResult g.dest (2 * 2 ^ 51) none).raise n := by
    rw [State.lookupComplete_found hl hh he, hf]
    rfl
  obtain ⟨hq, hd⟩ := (s.running_iff 5).1 hr
  rw [← State.counted_lookupResult]
  refine completes_of_raise (congrArg done ((State.whenOn_on hd _).trans raises)) rfl hq ?_
  exact (State.countsOnly_congr (fun f _ => State.get_congr (s := (s.unqueue i).lookupResult g.dest (2 * 2 ^ 51) none) (t := s)
    rfl f) n).trans hn

variable {x : Nat} {c : EptLine} (hf : s.search g.table g.key k = .entry x) (hc : s.eptLine x = some c) (hstuck : c.stuck = false)
include hf hc hstuck

omit hr in
theorem State.lookupComplete_entry : s.lookupComplete i k wb =
    if 8 ≤ s.pinsHeld g.dest then ((s.unqueue i).entHit x c.gaddr).lookupResult g.dest (lookupWord 0 x 0 3) none
    else (((s.unqueue i).entHit x c.gaddr).pinEntry x).lookupResult g.dest (lookupWord c.gaddr x 0 0) (some x) := by
  have line : (s.unqueue i).eptLine x = some c := hc
  have brings : (s.unqueue i).bring x wb = (some c.gaddr, s.unqueue i) := by
    rw [State.bring, line]
  have pins : ((s.unqueue i).entHit x c.gaddr).pinsHeld g.dest = s.pinsHeld g.dest :=
    State.pinsHeld_congr (State.entHit_yal _ _ _) _
  rw [State.lookupComplete_found hl hh he, hf, State.answer, brings]
  simp only [State.answerHit, State.eptLine_entHit, line, pins, hstuck, Bool.false_eq_true, or_false]

theorem answers_lookup_pinned (hp : s.pinsHeld g.dest < 8) : Answers (.lookupComplete i k wb) s (fun v => s.HitOf i x v ∧
    v.yal.arriving = s.yal.arriving
      ++ [⟨g.dest, BitVec.ofNat 64 (g.dest.word (c.gaddr % 2 ^ 25 + x * 2 ^ 25)), some x⟩] ∧
    tabGet (fun _ => 0) v.ept.pins x = tabGet (fun _ => 0) s.ept.pins x + 1) := by
  have word : lookupWord c.gaddr x 0 0 = c.gaddr % 2 ^ 25 + x * 2 ^ 25 := by simp [lookupWord]
  have ends := (State.lookupComplete_entry (k := k) (wb := wb) hl hh he hf hc hstuck).trans (if_neg (Nat.not_le.2 hp))
  rw [word] at ends
  obtain ⟨t, next, hitOf, arriving, ept⟩ := answers_hit hr ends (State.HitOf.entHit s i x c.gaddr).pinEntry
    (by rw [State.quiet_pinEntry, State.quiet_entHit, State.quiet_unqueue, ((s.running_iff 5).1 hr).1])
    (by rw [State.pinEntry_yal, State.entHit_yal, State.unqueue_yal])
  refine ⟨t, next, hitOf, arriving, ?_⟩
  rw [ept, State.pinEntry_pins, State.entHit_ept]
  rfl

theorem answers_lookup_full (hp : 8 ≤ s.pinsHeld g.dest) : Answers (.lookupComplete i k wb) s (fun v => s.HitOf i x v ∧
    v.yal.arriving = s.yal.arriving
      ++ [⟨g.dest, BitVec.ofNat 64 (g.dest.word (x * 2 ^ 25 + 3 * 2 ^ 51)), none⟩] ∧
    v.ept.pins = s.ept.pins) := by
  have word : lookupWord 0 x 0 3 = x * 2 ^ 25 + 3 * 2 ^ 51 := by simp [lookupWord]
  have ends := (State.lookupComplete_entry (k := k) (wb := wb) hl hh he hf hc hstuck).trans (if_pos hp)
  rw [word] at ends
  obtain ⟨t, next, hitOf, arriving, ept⟩ := answers_hit hr ends (State.HitOf.entHit s i x c.gaddr)
    (by rw [State.quiet_entHit, State.quiet_unqueue, ((s.running_iff 5).1 hr).1])
    (by rw [State.entHit_yal, State.unqueue_yal])
  refine ⟨t, next, hitOf, arriving, ?_⟩
  rw [ept, State.entHit_ept]
  rfl

end

end Sys2Proof.Machine
end

section
/-! The statement RoutesAndResults, its operands: what OPERAND_ARRIVE delivers and what it discards (R40, R41, R315). -/

namespace Sys2Proof.Machine

/-- Arriving operand `i` is taken. -/
def State.received (s : State) (i : Nat) : State :=
  { s with yal := { s.yal with arriving := s.yal.arriving.eraseIdx i } }

/-- A result whose task has ended is discarded, with its pin (R41). -/
def State.discarded (s : State) (i : Nat) : Option Nat → State
  | none => s.received i
  | some x => (s.received i).unpin x

theorem State.quiet_discarded (s : State) (i : Nat) (pin : Option Nat) : (s.discarded i pin).quiet = s.quiet := by
  cases pin with
  | none => rfl
  | some x => exact (State.StoresOnly.unpin (s.received i) x).quiet

theorem State.discarded_eq (s : State) (i : Nat) (pin : Option Nat) :
    forEach pin.toList (fun p s => s.unpin p) (s.received i) = s.discarded i pin := by
  cases pin <;> rfl

/-- The thread holds the pin of the result that reaches it. -/
def Thread.pinned (th : Thread) (pin : Option Nat) : Thread := { th with pins := th.pins ++ pin.toList }

section
variable {i t id k : Nat} {v : DWord} {pin : Option Nat} {s : State}
  (ha : s.yal.arriving[i]? = some ⟨.slot t id k, v, pin⟩)
include ha

theorem State.operandArrive_ended (h : (s.thread t).task.map Task.id ≠ some id) : s.operandArrive i = s.discarded i pin := by
  unfold State.operandArrive
  rw [ha]
  rw [State.thread] at h
  rcases ht : (tabGet (fun _ => {}) s.yal.threads t).task with _ | task
  · simp only [State.thread, ht]
    exact s.discarded_eq i pin
  · have other : task.id ≠ id := fun e => h (by rw [ht, Option.map_some, e])
    simp only [State.thread, ht, other, if_false]
    exact s.discarded_eq i pin

variable {task : Task} (ht : (s.thread t).task = some task) (hid : task.id = id)
include ht hid

theorem State.operandArrive_waited {gd : Nat} (hw : (s.thread t).st = .wait (.operand gd k)) :
    s.operandArrive i = ((s.received i).setThread t { (s.thread t).pinned pin with
      slots := setAt (s.thread t).slots k .empty, st := .run, pc := ((s.thread t).pc + 4) % 0x10000 }).setReg t gd v := by
  unfold State.operandArrive
  rw [State.thread] at ht hw
  simp only [ha, State.thread, ht, hid, hw, if_true]
  rw [← ht]
  rfl

theorem State.operandArrive_kept
    (hw : (match (s.thread t).st with | .wait (.operand _ j) => j == k | _ => false) = false) : s.operandArrive i =
      (s.received i).setThread t { (s.thread t).pinned pin with slots := setAt (s.thread t).slots k (.result v) } := by
  unfold State.operandArrive
  rw [State.thread] at ht hw
  simp only [ha, State.thread, ht, hid, if_true]
  rw [← ht]
  split
  · next gd j waits =>
    have other : j ≠ k := by
      rintro rfl
      simp [waits] at hw
    rw [if_neg other]
    rfl
  · rfl

end

/-! ### An operand of a task that waits to be created -/

/-- The first (`k` = 1) or second operand of the task `id` arrives (R30, R315). -/
def Task.given (s : State) (id k : Nat) (v : DWord) (pin : Option Nat) (j : Task) : Task :=
  if j.id ≠ id then j
  else if k = 1 then { j with await1 := false, op1 := v.toNat, pin := pin, since := s.now }
  else { j with await2 := false, op2 := v.toNat, since := s.now }

section
variable {i id k : Nat} {v : DWord} {pin : Option Nat} {s : State}
  (ha : s.yal.arriving[i]? = some ⟨.creation id k, v, pin⟩)
include ha

theorem State.operandArrive_created (h : ∃ j ∈ s.hts.tasks, j.id = id) : s.operandArrive i
    = { s.received i with hts := { s.hts with tasks := s.hts.tasks.map (Task.given s id k v pin) } } := by
  have waits : s.hts.tasks.any (fun j => j.id == id) = true := by simpa using h
  unfold State.operandArrive
  simp only [ha, waits, if_true]
  refine congrArg (fun l => ({ s.received i with hts := { s.hts with tasks := l } } : State)) (List.map_congr_left fun j _ => ?_)
  rw [Task.given, ite_not]
  split_ifs <;> rfl

theorem State.operandArrive_uncreated (h : ∀ j ∈ s.hts.tasks, j.id ≠ id) : s.operandArrive i = s.discarded i pin := by
  have gone : s.hts.tasks.any (fun j => j.id == id) = false := by simpa using h
  unfold State.operandArrive
  simp only [ha, gone]
  exact s.discarded_eq i pin

end

/-! ### The statement -/

section
variable {i : Nat} {k wb : Check} {g : Lookup} {s : State} (hr : s.running 5 = true) (hl : s.ept.lookups[i]? = some g)
  (hh : s.eptHalted = false) (he : s.on F.EPT_CTL_EN = true) {x : Nat} {c : EptLine}
  (hf : s.search g.table g.key k = .entry x) (hc : s.eptLine x = some c) (hstuck : c.stuck = false)
include hr hl hh he hf hc hstuck

theorem lookupOfCachedEntry :
    let hit := fun (v : State) => (v.ent x).hits = min 0xFFFFFFFF ((s.ent x).hits + 1) ∧
      (v.ent x).last = s.now / 2 ^ 30 % 2 ^ 32 ∧ (∀ y, y ≠ x → v.ent y = s.ent y) ∧ v.xm = s.xm ∧ v.yal.g = s.yal.g ∧
      v.ept.lookups = s.ept.lookups.eraseIdx i
    (s.pinsHeld g.dest < 8 → Answers (.lookupComplete i k wb) s (fun v => hit v ∧
      v.yal.arriving = s.yal.arriving
        ++ [⟨g.dest, BitVec.ofNat 64 (g.dest.word (c.gaddr % 2 ^ 25 + x * 2 ^ 25)), some x⟩] ∧
      tabGet (fun _ => 0) v.ept.pins x = tabGet (fun _ => 0) s.ept.pins x + 1)) ∧
    (8 ≤ s.pinsHeld g.dest → Answers (.lookupComplete i k wb) s (fun v => hit v ∧
      v.yal.arriving = s.yal.arriving
        ++ [⟨g.dest, BitVec.ofNat 64 (g.dest.word (x * 2 ^ 25 + 3 * 2 ^ 51)), none⟩] ∧
      v.ept.pins = s.ept.pins)) := by
  refine ⟨fun hp => ?_, fun hp => ?_⟩
  · obtain ⟨t, next, hit, rest⟩ := answers_lookup_pinned (wb := wb) hr hl hh he hf hc hstuck hp
    exact ⟨t, next, ⟨hit.hits, hit.last, hit.others, hit.xm, hit.regs, hit.lookups⟩, rest⟩
  · obtain ⟨t, next, hit, rest⟩ := answers_lookup_full (wb := wb) hr hl hh he hf hc hstuck hp
    exact ⟨t, next, ⟨hit.hits, hit.last, hit.others, hit.xm, hit.regs, hit.lookups⟩, rest⟩

end

/-- OPERAND_ARRIVE of a block that has power. -/
theorem completes_operand {i : Nat} {s u : State} (hr : s.running 5 = true) (hu : s.operandArrive i = u)
    (hq : u.quiet = s.quiet) : Completes (.operandArrive i) s u :=
  completes_whenOn rfl hr hu (hq.trans ((s.running_iff 5).1 hr).1)

/-- Settles O38: the routes by the cases of a route update, a lookup by what its search finds, and an operand by who waits
for it. -/
theorem routesAndResults : Obligations.RoutesAndResults := by
  unfold Obligations.RoutesAndResults
  refine ⟨fun who s hs => ⟨?_, ?_, ?_, ?_, ?_, ?_, ?_, ?_⟩, ?_, ?_, ?_, ?_, ?_, ?_, ?_, ?_⟩
  · exact fun h9 h room => answers_routeAdd hs h9 h (.inr (Nat.not_le.2 room))
  · exact fun h9 h here => answers_routeRemove hs h9 h here
  · exact fun h9 h absent => completes_routeRemove_absent hs h9 h absent
  · exact fun h9 h => completes_route_long hs rfl h9 h
  · exact fun h9 h => completes_route_long hs rfl h9 h
  · exact fun h9 h here => answers_routeAdd hs h9 h (.inl here)
  · exact fun h9 => completes_route_other (rm := false) hs rfl (by simp [h9])
  · exact fun h9 => completes_route_other (rm := true) hs rfl (by simp [h9])
  · intro l s hs t w4 h9 h absent full hn
    have unlisted : l.any t.rtSame = false := List.any_eq_false.2 fun r hr same =>
      List.any_eq_false.1 absent r hr (Bool.and_eq_true_iff.1 same).1
    exact answers_routeAdd_full (s := s) (t := t) hs rfl h9 h unlisted full hn
  · exact fun v6 a r s h => State.routeFind_longest h
  · intro i k wb g s hr hl
    refine ⟨?_, ?_, ?_, ?_, ?_, ?_⟩
    · exact completes_lookup_halted hr hl
    · exact completes_lookup_disabled hr hl
    · exact completes_lookup_miss hr hl
    · exact fun r hh he hf _ _ => completes_lookup_route hr hl hh he hf
    · exact fun n hh he hf hn => completes_lookup_bad hr hl hh he hf hn
    · exact fun x c hh he hf hc hstuck => lookupOfCachedEntry hr hl hh he hf hc hstuck
  · exact fun i k wb s hr => completes_lookup hr rfl
  · refine fun i k wb s hq h => completes_unchanged rfl hq (h.imp_right fun none => ?_)
    rw [State.lookupComplete, none]
  · intro t i id k v pin s hr ha
    refine ⟨fun task gd hm hw => ?_, fun task hm hw => ?_, fun h => ?_⟩
    · exact completes_operand hr (State.operandArrive_waited ha hm.1 hm.2 hw) (State.UnitsOnly.setReg _ _ _ _).quiet
    · exact completes_operand hr (State.operandArrive_kept ha hm.1 hm.2 hw) rfl
    · exact completes_operand hr (State.operandArrive_ended ha h) (s.quiet_discarded i pin)
  · intro i id k v pin s hr ha
    refine ⟨fun h => ?_, fun h => ?_⟩
    · exact completes_operand hr (State.operandArrive_created ha h) rfl
    · exact completes_operand hr (State.operandArrive_uncreated ha h) (s.quiet_discarded i pin)
  · refine fun i s hq h => completes_unchanged rfl hq (h.imp_right fun none => ?_)
    rw [State.operandArrive, none]

end Sys2Proof.Machine
end

section
/-! Rules for the words of a table in memory: what a word reads after a store to it and after a store to another, and what
every word reads after each of a list of words has been stored anew. -/

namespace Sys2Proof.Machine

/-! ### Numbers and their bytes -/

/-- Memory that holds the bytes of `v` at an address reads as `v` there, cut to the bytes read. -/
theorem memNat_of_bytes {m : Mem} {a n v : Nat} (h : ∀ k, k < n → memByte m (a + k) = byteOf v k) :
    memNat m a n = v % 256 ^ n := by
  induction n generalizing a v with
  | zero => simp [memNat, memBytes, leNat, Nat.mod_one]
  | succ n ih =>
    have first : memByte m a = BitVec.ofNat 8 v := by simpa [byteOf] using h 0 (Nat.succ_pos n)
    have rest : memNat m (a + 1) n = v / 256 % 256 ^ n := ih fun k hk => by
      rw [Nat.add_assoc, Nat.add_comm 1 k, h (k + 1) (by omega), byteOf, byteOf, Nat.div_div_eq_div_mul, Nat.pow_succ']
    calc memNat m a (n + 1) = (memByte m a).toNat + 256 * memNat m (a + 1) n := rfl
      _ = v % 256 + 256 * (v / 256 % 256 ^ n) := by rw [first, rest, BitVec.toNat_ofNat]
      _ = v % 256 ^ (n + 1) := by rw [Nat.pow_succ', Nat.mod_mul]

theorem memNat_lt (m : Mem) (a n : Nat) : memNat m a n < 256 ^ n := by
  have := leNat_lt (memBytes m a n)
  rwa [memBytes_length] at this

/-- The bytes of the number at an address are the bytes there. -/
theorem byteOf_memNat (m : Mem) (a : Nat) {n k : Nat} (h : k < n) : byteOf (memNat m a n) k = memByte m (a + k) := by
  induction n generalizing a k with
  | zero => omega
  | succ n ih =>
    have split : memNat m a (n + 1) = (memByte m a).toNat + 256 * memNat m (a + 1) n := rfl
    have low : (memByte m a).toNat < 256 := (memByte m a).isLt
    cases k with
    | zero =>
      refine BitVec.eq_of_toNat_eq ?_
      rw [byteOf, BitVec.toNat_ofNat, pow_zero, Nat.div_one, split, Nat.add_zero, Nat.add_mul_mod_self_left]
      exact Nat.mod_eq_of_lt low
    | succ k =>
      have rest : memNat m a (n + 1) / 256 = memNat m (a + 1) n := by omega
      rw [byteOf, Nat.pow_succ', ← Nat.div_div_eq_div_mul, rest, show a + (k + 1) = a + 1 + k by omega]
      exact ih (a + 1) (Nat.lt_of_succ_lt_succ h)

theorem memNat_congr {m m' : Mem} {a n : Nat} (h : ∀ k, k < n → memByte m' (a + k) = memByte m (a + k)) :
    memNat m' a n = memNat m a n := by
  rw [memNat_of_bytes fun k hk => (h k hk).trans (byteOf_memNat m a hk).symm, Nat.mod_eq_of_lt (memNat_lt m a n)]

/-! ### A word after a store -/

namespace Stored
variable {m m' : Mem} {a n v : Nat}

theorem memNat_self (h : Stored m m' a n v) : memNat m' a n = v % 256 ^ n := memNat_of_bytes h.1

theorem memNat_out (h : Stored m m' a n v) {b k : Nat} (hb : b + k ≤ a ∨ a + n ≤ b) : memNat m' b k = memNat m b k :=
  memNat_congr fun j hj => h.2 _ (by omega)

/-- A memory is itself with a word stored that already stands there. -/
theorem same (m : Mem) (a n : Nat) : Stored m m a n (memNat m a n) :=
  ⟨fun _ hk => (byteOf_memNat m a hk).symm, fun _ _ => rfl⟩

theorem putNat (m : Mem) (a n v : Nat) : Stored m (memPutNat m a n v) a n v := stored_memPutBytes m a n v

end Stored

/-! ### The words of a table, each stored anew -/

section
variable {f : Nat → Mem → Mem} {g : Nat → Nat → Nat} {a w : Nat}
  (h : ∀ k m, Stored m (f k m) (a + w * k) w (g k (memNat m (a + w * k) w)))
include h

/-- Where each update stores word `k` of a table anew, every word listed once is so stored, and the others stand. -/
theorem memNat_forEach_stored {l : List Nat} (hl : l.Nodup) (m : Mem) (k : Nat) :
    memNat (forEach l f m) (a + w * k) w
      = if k ∈ l then g k (memNat m (a + w * k) w) % 256 ^ w else memNat m (a + w * k) w := by
  have other : ∀ {j}, k ≠ j → ∀ m, memNat (f j m) (a + w * k) w = memNat m (a + w * k) w := fun {j} hj m => by
    refine (h j m).memNat_out ?_
    rcases Nat.lt_or_gt_of_ne hj with hj | hj
    · have := Nat.mul_le_mul_left w (Nat.succ_le_of_lt hj)
      exact .inl (by rw [Nat.mul_succ] at this; omega)
    · have := Nat.mul_le_mul_left w (Nat.succ_le_of_lt hj)
      exact .inr (by rw [Nat.mul_succ] at this; omega)
  induction l generalizing m with
  | nil => rfl
  | cons j l ih =>
    obtain ⟨hj, hl⟩ := List.nodup_cons.1 hl
    refine (ih hl (f j m)).trans ?_
    by_cases hk : k = j
    · subst hk
      rw [if_neg hj, if_pos List.mem_cons_self, (h k m).memNat_self]
    · simp only [List.mem_cons, hk, false_or, other hk]

/-- Bytes outside the table stand. -/
theorem memByte_forEach_stored {l : List Nat} {n : Nat} (hl : ∀ k ∈ l, k < n) (m : Mem) {x : Nat}
    (hx : x < a ∨ a + w * n ≤ x) : memByte (forEach l f m) x = memByte m x := by
  induction l generalizing m with
  | nil => rfl
  | cons j l ih =>
    refine (ih (fun k hk => hl k (List.mem_cons_of_mem _ hk)) (f j m)).trans ((h j m).2 x ?_)
    have := Nat.mul_le_mul_left w (Nat.succ_le_of_lt (hl j List.mem_cons_self))
    rw [Nat.mul_succ] at this
    omega

end

/-! ### States that differ in the Granary alone -/

def State.withGm (s : State) (m : Mem) : State := { s with gm := m }

@[simp] theorem State.withGm_gm (s : State) (m : Mem) : (s.withGm m).gm = m := rfl
@[simp] theorem State.withGm_xm (s : State) (m : Mem) : (s.withGm m).xm = s.xm := rfl
@[simp] theorem State.withGm_sd (s : State) (m : Mem) : (s.withGm m).sd = s.sd := rfl
@[simp] theorem State.withGm_air (s : State) (m : Mem) : (s.withGm m).air = s.air := rfl
@[simp] theorem State.withGm_hts (s : State) (m : Mem) : (s.withGm m).hts = s.hts := rfl
@[simp] theorem State.withGm_time (s : State) (m : Mem) : (s.withGm m).time = s.time := rfl
@[simp] theorem State.withGm_get (s : State) (m : Mem) (f : Fld) : (s.withGm m).get f = s.get f :=
  State.get_congr (s := s.withGm m) (t := s) rfl f
@[simp] theorem State.quiet_withGm (s : State) (m : Mem) : (s.withGm m).quiet = s.quiet := rfl

/-- Updates that change the Granary alone, whatever it holds, are updates of it. -/
theorem State.forEach_withGm {α : Type} {f : α → State → State} {F : α → Mem → Mem} {s : State}
    (h : ∀ a m, f a (s.withGm m) = s.withGm (F a m)) (l : List α) (m : Mem) :
    forEach l f (s.withGm m) = s.withGm (forEach l F m) := by
  induction l generalizing m with
  | nil => rfl
  | cons a l ih => exact (congrArg (forEach l f) (h a m)).trans (ih (F a m))

end Sys2Proof.Machine
end

section
/-! Rules for the fields of a written word: what a register's fields read after the write has taken them (R4, R7). -/

namespace Sys2Proof.Machine

theorem testBit_withFld (v : Word) (f : Fld) (x i : Nat) (h : f.lo ≤ f.hi) (hi : i < 32) :
    (withFld v f x).toNat.testBit i = if f.lo ≤ i ∧ i ≤ f.hi then x.testBit (i - f.lo) else v.toNat.testBit i := by
  rw [withFld, BitVec.toNat_ofNat, Nat.testBit_mod_two_pow, decide_eq_true hi, Bool.true_and, testBit_setBits _ _ _ _ _ h]

theorem bits_withFld_ne (v : Word) (f : Fld) (x : Nat) {hi lo : Nat} (h : f.lo ≤ f.hi) (hhi : hi < 32)
    (d : hi < f.lo ∨ f.hi < lo) : bits (withFld v f x).toNat hi lo = bits v.toNat hi lo := by
  rw [withFld, BitVec.toNat_ofNat, bits_mod_two_pow _ _ _ _ hhi, bits_setBits_ne _ _ _ _ _ _ h d]

theorem bit_withFld_self (v : Word) (f : Fld) (x : Nat) (h : f.lo = f.hi) (hhi : f.hi < 32) :
    bit (withFld v f x).toNat f.lo = x.testBit 0 := by
  rw [bit_eq_testBit, testBit_withFld _ _ _ _ (by omega) (by omega), if_pos (by omega), Nat.sub_self]

theorem bit_withFld_ne (v : Word) (f : Fld) (x : Nat) {i : Nat} (h : f.lo ≤ f.hi) (hi : i < 32)
    (d : i < f.lo ∨ f.hi < i) : bit (withFld v f x).toNat i = bit v.toNat i := by
  rw [bit_eq_testBit, bit_eq_testBit, testBit_withFld _ _ _ _ h hi, if_neg (by omega)]

/-- A write of `g` does not reach field `f`: it lies in other words, or in other bits of the same register. -/
def Fld.missedBy (f g : Fld) : Prop := g.lo ≤ g.hi ∧
  (g.addr + 4 * (g.hi / 32 + 1) ≤ f.addr ∨ f.addr + 4 * (f.hi / 32 + 1) ≤ g.addr ∨
    f.addr = g.addr ∧ (f.hi < g.lo ∨ g.hi < f.lo))

/-- What every write of a field keeps, a register's write keeps. -/
theorem State.take_keeps {β : Type} (p : State → β) (h : ∀ s f v, p (State.put s f v) = p s) (s : State) (v : Word)
    (l : List Fld) : p (s.take v l) = p s := by
  induction l generalizing s with
  | nil => rfl
  | cons g l ih => exact (ih _).trans (h s g _)

@[simp] theorem State.take_gm (s : State) (v : Word) (l : List Fld) : (s.take v l).gm = s.gm :=
  State.take_keeps State.gm State.put_gm s v l
@[simp] theorem State.take_xm (s : State) (v : Word) (l : List Fld) : (s.take v l).xm = s.xm :=
  State.take_keeps State.xm State.put_xm s v l
@[simp] theorem State.take_sd (s : State) (v : Word) (l : List Fld) : (s.take v l).sd = s.sd :=
  State.take_keeps State.sd State.put_sd s v l
@[simp] theorem State.quiet_take (s : State) (v : Word) (l : List Fld) : (s.take v l).quiet = s.quiet :=
  State.take_keeps State.quiet State.quiet_put s v l

theorem State.get_take_off (s : State) (v : Word) {l : List Fld} {f : Fld} (h : ∀ g ∈ l, f.missedBy g) :
    (s.take v l).get f = s.get f := by
  induction l generalizing s with
  | nil => rfl
  | cons g l ih =>
    obtain ⟨hg, off⟩ := h g List.mem_cons_self
    exact (ih _ fun k hk => h k (List.mem_cons_of_mem _ hk)).trans (State.get_put_off s g f _ hg off)

theorem State.get_take_mem (s : State) (v : Word) {l : List Fld} (hl : l.Pairwise Fld.missedBy) {f : Fld} (hf : f ∈ l)
    (h : f.lo ≤ f.hi) : (s.take v l).get f = fldOf v f := by
  induction l generalizing s with
  | nil => exact absurd hf List.not_mem_nil
  | cons g l ih =>
    obtain ⟨hg, hl⟩ := List.pairwise_cons.1 hl
    rcases List.mem_cons.1 hf with rfl | hf
    · calc (s.take v (f :: l)).get f = (s.put f (bits v.toNat f.hi f.lo)).get f := State.get_take_off _ v hg
        _ = fldOf v f := by rw [State.get_put_self _ _ _ h, Nat.mod_eq_of_lt (bits_lt _ _ _), fldOf]
    · exact ih _ hl hf

end Sys2Proof.Machine
end

section
/-! The statement ScheduleTables: cycle boundaries (R136, R139). -/

namespace Sys2Proof.Machine

/-- Schedule state at the start of a cycle: nothing is granted yet, and the window set stands. -/
def SqAir.newCycle (x : SqAir) (unlk : Bool) : SqAir :=
  { x with granted := [], budgetHit := false, capHit := false, unlk := unlk }

/-- Sequencer `n` starts a cycle. -/
def State.newCycle (s : State) (n : Nat) : State :=
  (((s.setSqa n ((s.sqa n).newCycle ((s.get (F.SQ_CYCLE_MODE n) == 1) && !s.locked (s.get (F.SQ_CYCLE_PD n))))).put
    (F.SQ_CYC_STAT_WINDOWS n) 0).put (F.SQ_CYC_STAT_STATIONS n) 0).addWrap (F.SQ_CYC_STAT_CYCLES n) 1

@[simp] theorem State.sqa_until (s : State) (t n : Nat) : (s.until t).sqa n = s.sqa n := by
  rw [State.sqa, State.sqa, State.until_air]

@[simp] theorem State.get_setSqa (s : State) (n : Nat) (x : SqAir) (f : Fld) : (s.setSqa n x).get f = s.get f :=
  State.get_congr (s := s.setSqa n x) (t := s) rfl f

section
variable {s : State} {n : Nat}

/-- What a cycle boundary does once its instant has come. -/
theorem State.newCycle_until (s : State) (t n : Nat) : (s.until t).newCycle n = ((((s.until t).setSqa n
    ((s.sqa n).newCycle ((s.get (F.SQ_CYCLE_MODE n) == 1) && !(s.until t).locked (s.get (F.SQ_CYCLE_PD n))))).put
    (F.SQ_CYC_STAT_WINDOWS n) 0).put (F.SQ_CYC_STAT_STATIONS n) 0).addWrap (F.SQ_CYC_STAT_CYCLES n) 1 := by
  rw [State.newCycle, State.sqa_until, State.until_get, State.until_get]

theorem State.cycleBoundary_byPeriod (h : ¬ (s.get (F.SQ_CYCLE_MODE n) = 1 ∧ s.locked (s.get (F.SQ_CYCLE_PD n)) = true ∧
    (s.sqa n).unlk = false)) : s.cycleBoundary n = (s.until (s.nextPeriod n)).newCycle n := by
  have off : ((s.get (F.SQ_CYCLE_MODE n) == 1) && s.locked (s.get (F.SQ_CYCLE_PD n)) && !(s.sqa n).unlk) = false := by
    rw [Bool.eq_false_iff]
    simpa [and_assoc] using h
  rw [State.newCycle_until, State.cycleBoundary]
  simp only [off, SqAir.newCycle]

theorem State.cycleBoundary_byPhase {t : Int} (h : s.get (F.SQ_CYCLE_MODE n) = 1 ∧
      s.locked (s.get (F.SQ_CYCLE_PD n)) = true ∧ (s.sqa n).unlk = false)
    (ht : s.predict (s.get (F.SQ_CYCLE_PD n)) (((s.phaseNow (s.get (F.SQ_CYCLE_PD n)) /
      (65536 / 2 ^ min 14 (s.get (F.SQ_CYCLE_DIV n))) + 1) *
        (65536 / 2 ^ min 14 (s.get (F.SQ_CYCLE_DIV n)))) % 2 ^ 32) = some t) :
    s.cycleBoundary n = (s.until t.toNat).newCycle n := by
  have on : ((s.get (F.SQ_CYCLE_MODE n) == 1) && s.locked (s.get (F.SQ_CYCLE_PD n)) && !(s.sqa n).unlk) = true := by
    simpa [and_assoc] using h
  rw [State.newCycle_until, State.cycleBoundary]
  simp only [on, ht, SqAir.newCycle]

theorem State.newCycle_counts (s : State) (n : Nat) : let u := s.newCycle n
    u.get (F.SQ_CYC_STAT_WINDOWS n) = 0 ∧ u.get (F.SQ_CYC_STAT_STATIONS n) = 0 ∧
    u.get (F.SQ_CYC_STAT_CYCLES n) = (s.get (F.SQ_CYC_STAT_CYCLES n) + 1) % 2 ^ 15 := by
  simp (disch := (dsimp only [F.SQ_CYC_STAT_WINDOWS, F.SQ_CYC_STAT_STATIONS, F.SQ_CYC_STAT_CYCLES]; omega)) only
    [State.newCycle, State.addWrap, State.get_put_off, State.get_put_self, State.get_setSqa, Nat.zero_mod, true_and]
  rfl

theorem State.newCycle_keeps (s : State) (n : Nat) : let u := s.newCycle n
    u.quiet = s.quiet ∧ u.time = s.time ∧ u.gm = s.gm ∧ u.hts = s.hts := by
  simp only [State.newCycle, State.addWrap, State.quiet_put, State.put_time, State.put_gm, State.put_hts]
  exact ⟨rfl, rfl, rfl, rfl⟩

theorem State.newCycle_sqa (hn : n < s.air.sq.length) : ∃ unlk, (s.newCycle n).sqa n = (s.sqa n).newCycle unlk := by
  refine ⟨(s.get (F.SQ_CYCLE_MODE n) == 1) && !s.locked (s.get (F.SQ_CYCLE_PD n)), ?_⟩
  rw [State.sqa, State.newCycle, State.addWrap_air, State.put_air, State.put_air]
  exact (State.sqa_setSqa _ _ _ _).trans (if_pos ⟨rfl, hn⟩)

end

/-- The cycle boundary of a sequencer whose domain is on comes at its instant. -/
theorem answers_cycleBoundary {n : Fin 4} {s : State} {t : Nat} (h : s.running (if n.val < 3 then 11 else 5) = true)
    (hn : n.val < s.air.sq.length) (ht : s.cycleBoundary n.val = (s.until t).newCycle n.val) :
    Answers (.cycleBoundary n) s (fun u => u.time = (s.until t).time ∧
      u.get (F.SQ_CYC_STAT_WINDOWS n.val) = 0 ∧ u.get (F.SQ_CYC_STAT_STATIONS n.val) = 0 ∧
      u.get (F.SQ_CYC_STAT_CYCLES n.val) = (s.get (F.SQ_CYC_STAT_CYCLES n.val) + 1) % 2 ^ 15 ∧
      (u.sqa n.val).granted = [] ∧ (u.sqa n.val).window = (s.sqa n.val).window ∧ u.gm = s.gm ∧ u.hts = s.hts) := by
  obtain ⟨quiet, time, gm, hts⟩ := (s.until t).newCycle_keeps n.val
  obtain ⟨windows, stations, cycles⟩ := (s.until t).newCycle_counts n.val
  obtain ⟨unlk, sqa⟩ := State.newCycle_sqa (s := s.until t) (n := n.val) (by rwa [State.until_air])
  have sqa : ((s.until t).newCycle n.val).close.sqa n.val = (s.sqa n.val).newCycle unlk := by
    rw [← State.sqa_until s t, ← sqa, State.sqa, State.close_air, State.sqa]
  rw [State.quiet_until] at quiet
  refine (completes_whenOn rfl h ht (quiet.trans ((s.running_iff _).1 h).1)).answers ?_
  simp only [State.close_time, State.close_get, State.close_gm, State.close_hts, sqa]
  refine ⟨time, windows, stations, ?_, rfl, rfl, gm.trans (s.until_gm t), hts.trans (s.until_hts t)⟩
  rw [cycles, State.until_get]

end Sys2Proof.Machine
end

section
/-! The statement ScheduleTables, the writes of its tables: STA_UPD and BIN_UPD (R141, R152). -/

namespace Sys2Proof.Machine

theorem State.get_lt (s : State) (f : Fld) : s.get f < 2 ^ (f.hi + 1 - f.lo) := bits_lt _ _ _

/-! ### STA_UPD (R141) -/

/-- The Granary with the staged entry installed at address `a`. -/
def State.staInstalled (s : State) (a : Nat) : Mem :=
  memPutNat (forEach (List.range 7) (fun k m => memPutNat m (a + 4 * k) 4 (s.get (F.SQA_STA_STAGE_WORD k))) s.gm) (a + 28) 4
    (setBits (memNat s.gm (a + 28) 4) 19 0 (s.get (F.SQA_STA_STAGE_WORD 7)))

theorem State.staUpdate_eq {s : State} (h : s.staTableOk = true) :
    s.staUpdate = s.withGm (s.staInstalled (s.staBase + 32 * s.get F.SQA_STA_UPD_STA)) := by
  have words : forEach (List.range 7) (fun k t => t.staPut (s.get F.SQA_STA_UPD_STA) (4 * k) 4 (s.get (F.SQA_STA_STAGE_WORD k))) s
      = s.withGm (forEach (List.range 7) (fun k m => memPutNat m (s.staBase + 32 * s.get F.SQA_STA_UPD_STA + 4 * k) 4
        (s.get (F.SQA_STA_STAGE_WORD k))) s.gm) :=
    State.forEach_withGm (s := s) (fun _ _ => by simp only [State.staPut, State.staBase, State.withGm_get]; rfl) _ s.gm
  rw [State.staUpdate, words, if_pos h]
  simp only [State.staPut, State.staBase, State.withGm_get]
  rfl

theorem State.staInstalled_shows (s : State) (a : Nat) : let m := s.staInstalled a
    (∀ k, k < 7 → memNat m (a + 4 * k) 4 = s.get (F.SQA_STA_STAGE_WORD k)) ∧
    memNat m (a + 28) 4 = setBits (memNat s.gm (a + 28) 4) 19 0 (s.get (F.SQA_STA_STAGE_WORD 7)) ∧
    (∀ x, x < a ∨ a + 32 ≤ x → memByte m x = memByte s.gm x) := by
  have stores : ∀ k m, Stored m (memPutNat m (a + 4 * k) 4 (s.get (F.SQA_STA_STAGE_WORD k))) (a + 4 * k) 4
      (s.get (F.SQA_STA_STAGE_WORD k)) := fun k m => Stored.putNat m _ _ _
  have last := Stored.putNat (forEach (List.range 7) (fun k m => memPutNat m (a + 4 * k) 4 (s.get (F.SQA_STA_STAGE_WORD k))) s.gm)
    (a + 28) 4 (setBits (memNat s.gm (a + 28) 4) 19 0 (s.get (F.SQA_STA_STAGE_WORD 7)))
  refine ⟨fun k hk => ?_, ?_, fun x hx => ?_⟩
  · refine (last.memNat_out (by omega)).trans ?_
    rw [memNat_forEach_stored (g := fun k _ => s.get (F.SQA_STA_STAGE_WORD k)) stores List.nodup_range,
      if_pos (List.mem_range.2 hk)]
    exact Nat.mod_eq_of_lt (s.get_lt (F.SQA_STA_STAGE_WORD k))
  · exact last.memNat_self.trans (Nat.mod_eq_of_lt (setBits_lt _ _ _ _ 32 (by decide) (by decide) (memNat_lt _ _ _)))
  · exact (last.2 x (by omega)).trans (memByte_forEach_stored (g := fun k _ => s.get (F.SQA_STA_STAGE_WORD k)) stores
      (fun k hk => List.mem_range.1 hk) s.gm (by omega))

theorem answers_staUpdate {who : Fin 4} {v : Word} {s : State} (h : s.takes who.val 11 = true) (ok : s.staTableOk = true) :
    let a := s.staBase + 32 * bits v.toNat 10 0
    Answers (.staUpdate who v) s (fun u =>
      (∀ k, k < 7 → memNat u.gm (a + 4 * k) 4 = s.get (F.SQA_STA_STAGE_WORD k)) ∧
      memNat u.gm (a + 28) 4 = setBits (memNat s.gm (a + 28) 4) 19 0 (s.get (F.SQA_STA_STAGE_WORD 7)) ∧
      (∀ x, x < a ∨ a + 32 ≤ x → memByte u.gm x = memByte s.gm x) ∧ u.xm = s.xm ∧ u.sd = s.sd) := by
  intro a
  let t := s.take (withFld v F.SQA_STA_UPD_GO 1) [F.SQA_STA_UPD_STA]
  have go : bit (withFld v F.SQA_STA_UPD_GO 1).toNat 16 = true := bit_withFld_self v F.SQA_STA_UPD_GO 1 rfl (by decide)
  have sta : t.get F.SQA_STA_UPD_STA = bits v.toNat 10 0 :=
    (s.get_take_mem _ (List.pairwise_singleton _ _) List.mem_cons_self (by decide)).trans
      (bits_withFld_ne v F.SQA_STA_UPD_GO 1 (by decide) (by decide) (by decide))
  have base : t.staBase = s.staBase := by
    rw [State.staBase, State.staBase, State.get_take_off _ _ (by simp [Fld.missedBy, F.SQA_STA_UPD_STA, F.SQA_STA_BASE_ADDR])]
  have table : t.staTableOk = s.staTableOk := by rw [State.staTableOk, State.staTableOk, base]
  have stage : ∀ k, k < 8 → t.get (F.SQA_STA_STAGE_WORD k) = s.get (F.SQA_STA_STAGE_WORD k) := fun k hk =>
    State.get_take_off _ _ (by
      simp only [List.mem_singleton, forall_eq, Fld.missedBy, F.SQA_STA_UPD_STA, F.SQA_STA_STAGE_WORD]
      omega)
  have update : s.staUpdWrite (withFld v F.SQA_STA_UPD_GO 1) = t.withGm (t.staInstalled a) := by
    rw [State.staUpdWrite, if_pos go, State.staUpdate_eq (table.trans ok), base, sta]
  obtain ⟨words, state, out⟩ := t.staInstalled_shows a
  have quiet : t.quiet = true := (s.quiet_take _ _).trans ((s.takes_iff _ _).1 h).1
  refine (completes_write rfl (by decide) h update ((State.quiet_withGm _ _).trans quiet)).answers ?_
  rw [State.close_gm, State.close_xm, State.close_sd, State.withGm_gm, State.withGm_xm, State.withGm_sd]
  refine ⟨fun k hk => (words k hk).trans (stage k (by omega)), ?_, fun x hx => (out x hx).trans ?_,
    s.take_xm _ _, s.take_sd _ _⟩
  · rw [state, stage 7 (by decide), s.take_gm]
  · rw [s.take_gm]

/-! ### BIN_UPD (R152) -/

/-- The fields that a write of BIN_UPD takes. -/
def binFields : List Fld := [F.SQA_BIN_UPD_STA, F.SQA_BIN_UPD_LINK, F.SQA_BIN_UPD_BIN, F.SQA_BIN_UPD_ALL, F.SQA_BIN_UPD_AGE]

/-- The word `w` for BIN_UPD has GO set, and names the station, link and bin that `v` names. -/
structure BinWord (v w : Word) : Prop where
  go : bit w.toNat 24 = true
  sta : fldOf w F.SQA_BIN_UPD_STA = bits v.toNat 10 0
  link : fldOf w F.SQA_BIN_UPD_LINK = bits v.toNat 12 11
  bin : fldOf w F.SQA_BIN_UPD_BIN = bits v.toNat 18 13

theorem binWord_go (v : Word) : BinWord v (withFld v F.SQA_BIN_UPD_GO 1) where
  go := bit_withFld_self v F.SQA_BIN_UPD_GO 1 rfl (by decide)
  sta := bits_withFld_ne v F.SQA_BIN_UPD_GO 1 (by decide) (by decide) (by decide)
  link := bits_withFld_ne v F.SQA_BIN_UPD_GO 1 (by decide) (by decide) (by decide)
  bin := bits_withFld_ne v F.SQA_BIN_UPD_GO 1 (by decide) (by decide) (by decide)

/-- ALL and AGE lie apart from what a word for BIN_UPD names. -/
theorem BinWord.withFld {v w : Word} (h : BinWord v w) {f : Fld} (hf : f.lo ≤ f.hi) (hlo : 18 < f.lo)
    (hhi : f.hi < 24) (x : Nat) : BinWord v (withFld w f x) where
  go := (bit_withFld_ne w f x hf (by decide) (.inr hhi)).trans h.go
  sta := (bits_withFld_ne w f x hf (by decide) (.inl (Nat.lt_trans (by decide) hlo))).trans h.sta
  link := (bits_withFld_ne w f x hf (by decide) (.inl (Nat.lt_trans (by decide) hlo))).trans h.link
  bin := (bits_withFld_ne w f x hf (by decide) (.inl hlo)).trans h.bin

/-- Every bin of a station's link becomes `g` of its value. -/
def State.setBins (s : State) (st l : Nat) (g : Nat → Nat) : State :=
  forEach (List.range 64) (fun b s => s.setBin st l b (g (s.bin st l b))) s

section
variable {s : State}

theorem State.binUpdate_absent (h : s.get F.SQA_BIN_UPD_LINK = 3) (all age : Bool) : s.binUpdate all age = s := by
  simp [State.binUpdate, h]

variable (h : s.get F.SQA_BIN_UPD_LINK ≠ 3) (ok : s.binStoreOk = true)
include h ok

theorem State.binUpdate_age (all : Bool) : s.binUpdate all true
    = s.setBins (s.get F.SQA_BIN_UPD_STA) (s.get F.SQA_BIN_UPD_LINK) (fun w => setBit w 56 true) := by
  simp [State.binUpdate, h, ok, State.setBins]

theorem State.binUpdate_all : s.binUpdate true false
    = s.setBins (s.get F.SQA_BIN_UPD_STA) (s.get F.SQA_BIN_UPD_LINK) (fun _ => s.get F.SQA_BIN_STAGE_BIN) := by
  simp [State.binUpdate, h, ok, State.setBins]

theorem State.binUpdate_one : s.binUpdate false false = s.setBin (s.get F.SQA_BIN_UPD_STA) (s.get F.SQA_BIN_UPD_LINK)
    (s.get F.SQA_BIN_UPD_BIN) (s.get F.SQA_BIN_STAGE_BIN) := by
  simp [State.binUpdate, h, ok]

end

/-- The bins of a link are set in the Granary alone, each to `g` of its value. -/
theorem State.setBins_shows (s : State) (st l : Nat) {g : Nat → Nat} (hg : ∀ w, w < 2 ^ 64 → g w < 2 ^ 64) :
    let a := s.binBase + 8 * (192 * st + 64 * l)
    ∃ m, s.setBins st l g = s.withGm m ∧ (∀ b, b < 64 → memNat m (a + 8 * b) 8 = g (memNat s.gm (a + 8 * b) 8)) ∧
      ∀ x, x < a ∨ a + 512 ≤ x → memByte m x = memByte s.gm x := by
  intro a
  have addr : ∀ (m : Mem) (b : Nat), (s.withGm m).binAddr st l b = a + 8 * b := fun m b => by
    rw [State.binAddr, State.binBase, State.withGm_get, Nat.mul_add 8 _ b, ← Nat.add_assoc]
    rfl
  have stores : ∀ b m, Stored m (memPutNat m (a + 8 * b) 8 (g (memNat m (a + 8 * b) 8))) (a + 8 * b) 8
      (g (memNat m (a + 8 * b) 8)) := fun b m => Stored.putNat m _ _ _
  refine ⟨_, State.forEach_withGm (s := s) (F := fun b m => memPutNat m (a + 8 * b) 8 (g (memNat m (a + 8 * b) 8)))
    (fun b m => ?_) _ s.gm, fun b hb => ?_, fun x hx => ?_⟩
  · rw [State.setBin, State.bin, addr]
    rfl
  · rw [memNat_forEach_stored (g := fun _ => g) stores List.nodup_range, if_pos (List.mem_range.2 hb)]
    exact Nat.mod_eq_of_lt (hg _ (memNat_lt s.gm (a + 8 * b) 8))
  · exact memByte_forEach_stored (g := fun _ => g) stores (fun k hk => List.mem_range.1 hk) s.gm (by omega)

/-- What a write of BIN_UPD acts on: what its word names, the stage, and the store as they were. -/
theorem State.take_binFields (s : State) {v w : Word} (hw : BinWord v w) : let t := s.take w binFields
    t.get F.SQA_BIN_UPD_STA = bits v.toNat 10 0 ∧ t.get F.SQA_BIN_UPD_LINK = bits v.toNat 12 11 ∧
    t.get F.SQA_BIN_UPD_BIN = bits v.toNat 18 13 ∧ t.get F.SQA_BIN_STAGE_BIN = s.get F.SQA_BIN_STAGE_BIN ∧
    t.binBase = s.binBase ∧ t.binStoreOk = s.binStoreOk := by
  have apart : binFields.Pairwise Fld.missedBy := by
    simp [binFields, Fld.missedBy, F.SQA_BIN_UPD_STA, F.SQA_BIN_UPD_LINK, F.SQA_BIN_UPD_BIN, F.SQA_BIN_UPD_ALL, F.SQA_BIN_UPD_AGE]
  have off : ∀ f : Fld, f.addr + 4 * (f.hi / 32 + 1) ≤ 0x108050 → (s.take w binFields).get f = s.get f := fun f hf => by
    refine State.get_take_off _ _ ?_
    simp only [binFields, List.forall_mem_cons, Fld.missedBy, F.SQA_BIN_UPD_STA, F.SQA_BIN_UPD_LINK, F.SQA_BIN_UPD_BIN,
      F.SQA_BIN_UPD_ALL, F.SQA_BIN_UPD_AGE, hf]
    simp
  have base : (s.take w binFields).binBase = s.binBase := by rw [State.binBase, State.binBase, off _ (by decide)]
  refine ⟨(s.get_take_mem w apart (by simp [binFields]) (by decide)).trans hw.sta,
    (s.get_take_mem w apart (by simp [binFields]) (by decide)).trans hw.link,
    (s.get_take_mem w apart (by simp [binFields]) (by decide)).trans hw.bin, off _ (by decide), base, ?_⟩
  rw [State.binStoreOk, State.binStoreOk, base]

section
variable {who : Fin 4} {v w : Word} {s : State} {c : Instr} (h : s.takes who.val 11 = true)
  (hc : exec c s = done (s.writeTo who 0x108050 (fun s => s.binUpdWrite w))) (hw : BinWord v w)
include h hc hw

/-- A write of BIN_UPD with GO does the update that its bits name. -/
theorem completes_binUpd {u : State} (hu : (s.take w binFields).binUpdate (bit w.toNat 19) (bit w.toNat 20) = u)
    (hq : u.quiet = (s.take w binFields).quiet) : Completes c s u :=
  completes_write hc (by decide) h ((if_pos hw.go).trans hu)
    (hq.trans ((s.quiet_take _ _).trans ((s.takes_iff _ _).1 h).1))

theorem answers_binUpd_absent (hl : bits v.toNat 12 11 = 3) : Answers c s (fun u => u.gm = s.gm ∧ u.xm = s.xm) := by
  obtain ⟨-, link, -⟩ := s.take_binFields hw
  refine (completes_binUpd h hc hw (State.binUpdate_absent (link.trans hl) _ _) rfl).answers ?_
  rw [State.close_gm, State.close_xm, State.take_gm, State.take_xm]
  exact ⟨rfl, rfl⟩

theorem answers_binUpd_bins {g : Nat → Nat} (hg : ∀ w, w < 2 ^ 64 → g w < 2 ^ 64)
    (hu : let t := s.take w binFields
      t.binUpdate (bit w.toNat 19) (bit w.toNat 20) = t.setBins (t.get F.SQA_BIN_UPD_STA) (t.get F.SQA_BIN_UPD_LINK) g) :
    let a := s.binBase + 8 * (192 * bits v.toNat 10 0 + 64 * bits v.toNat 12 11)
    Answers c s (fun u => (∀ b, b < 64 → memNat u.gm (a + 8 * b) 8 = g (memNat s.gm (a + 8 * b) 8)) ∧
      (∀ x, x < a ∨ a + 512 ≤ x → memByte u.gm x = memByte s.gm x) ∧ u.xm = s.xm) := by
  obtain ⟨sta, link, -, -, base, -⟩ := s.take_binFields hw
  obtain ⟨m, sets, bins, out⟩ := (s.take w binFields).setBins_shows (bits v.toNat 10 0) (bits v.toNat 12 11) hg
  rw [base, State.take_gm] at bins out
  simp only [sta, link] at hu
  refine (completes_binUpd h hc hw (hu.trans sets) (State.quiet_withGm _ m)).answers ?_
  rw [State.close_gm, State.close_xm, State.withGm_gm, State.withGm_xm, State.take_xm]
  exact ⟨bins, out, rfl⟩

end

section
variable {who : Fin 4} {v : Word} {s : State} (h : s.takes who.val 11 = true)

/-- BIN_UPDATE's word. -/
def binOneWord (v : Word) : Word := withFld (withFld (withFld v F.SQA_BIN_UPD_GO 1) F.SQA_BIN_UPD_ALL 0) F.SQA_BIN_UPD_AGE 0

/-- BIN_UPDATE_ALL's word. -/
def binAllWord (v : Word) : Word := withFld (withFld (withFld v F.SQA_BIN_UPD_GO 1) F.SQA_BIN_UPD_ALL 1) F.SQA_BIN_UPD_AGE 0

/-- BIN_AGE's word. -/
def binAgeWord (v : Word) : Word := withFld (withFld v F.SQA_BIN_UPD_GO 1) F.SQA_BIN_UPD_AGE 1

theorem binWord_one (v : Word) : BinWord v (binOneWord v) :=
  ((binWord_go v).withFld (by decide) (by decide) (by decide) 0).withFld (by decide) (by decide) (by decide) 0

theorem binWord_all (v : Word) : BinWord v (binAllWord v) :=
  ((binWord_go v).withFld (by decide) (by decide) (by decide) 1).withFld (by decide) (by decide) (by decide) 0

theorem binWord_age (v : Word) : BinWord v (binAgeWord v) := (binWord_go v).withFld (by decide) (by decide) (by decide) 1

theorem bit_all_age (v : Word) (x y : Nat) : let w := withFld (withFld v F.SQA_BIN_UPD_ALL x) F.SQA_BIN_UPD_AGE y
    bit w.toNat 19 = x.testBit 0 ∧ bit w.toNat 20 = y.testBit 0 :=
  ⟨(bit_withFld_ne _ _ _ (by decide) (by decide) (by decide)).trans (bit_withFld_self v F.SQA_BIN_UPD_ALL x rfl (by decide)),
    bit_withFld_self _ F.SQA_BIN_UPD_AGE y rfl (by decide)⟩

include h

theorem answers_binAbsent (hl : bits v.toNat 12 11 = 3) : Answers (.binUpdate who v) s (fun u => u.gm = s.gm ∧ u.xm = s.xm) ∧
    Answers (.binUpdateAll who v) s (fun u => u.gm = s.gm ∧ u.xm = s.xm) ∧
    Answers (.binAge who v) s (fun u => u.gm = s.gm ∧ u.xm = s.xm) :=
  ⟨answers_binUpd_absent h rfl (binWord_one v) hl, answers_binUpd_absent h rfl (binWord_all v) hl,
    answers_binUpd_absent h rfl (binWord_age v) hl⟩

variable (ok : s.binStoreOk = true) (hl : bits v.toNat 12 11 ≠ 3)
include ok hl

theorem answers_binUpdate : let a := s.binBase + 8 * (192 * bits v.toNat 10 0 + 64 * bits v.toNat 12 11)
    Answers (.binUpdate who v) s (fun u =>
      Stored s.gm u.gm (a + 8 * bits v.toNat 18 13) 8 (s.get F.SQA_BIN_STAGE_BIN) ∧ u.xm = s.xm) := by
  intro a
  obtain ⟨sta, link, bin, stage, base, store⟩ := s.take_binFields (binWord_one v)
  obtain ⟨all, age⟩ := bit_all_age (withFld v F.SQA_BIN_UPD_GO 1) 0 0
  have update : (s.take (binOneWord v) binFields).binUpdate (bit (binOneWord v).toNat 19) (bit (binOneWord v).toNat 20)
      = (s.take (binOneWord v) binFields).withGm (memPutNat s.gm (a + 8 * bits v.toNat 18 13) 8 (s.get F.SQA_BIN_STAGE_BIN)) := by
    rw [binOneWord, all, age, ← binOneWord, Nat.zero_testBit, State.binUpdate_one (by rwa [link]) (store.trans ok),
      stage, bin, link, sta, State.setBin, State.binAddr, base, State.take_gm,
      Nat.mul_add 8 _ (bits v.toNat 18 13), ← Nat.add_assoc]
    rfl
  refine (completes_binUpd h rfl (binWord_one v) update (State.quiet_withGm _ _)).answers ?_
  rw [State.close_gm, State.close_xm, State.withGm_gm, State.withGm_xm, State.take_xm]
  exact ⟨Stored.putNat _ _ _ _, rfl⟩

theorem answers_binUpdateAll : let a := s.binBase + 8 * (192 * bits v.toNat 10 0 + 64 * bits v.toNat 12 11)
    Answers (.binUpdateAll who v) s (fun u =>
      (∀ b, b < 64 → memNat u.gm (a + 8 * b) 8 = s.get F.SQA_BIN_STAGE_BIN) ∧
      (∀ x, x < a ∨ a + 512 ≤ x → memByte u.gm x = memByte s.gm x) ∧ u.xm = s.xm) := by
  obtain ⟨-, link, -, stage, -, store⟩ := s.take_binFields (binWord_all v)
  obtain ⟨all, age⟩ := bit_all_age (withFld v F.SQA_BIN_UPD_GO 1) 1 0
  refine answers_binUpd_bins h rfl (binWord_all v) (g := fun _ => s.get F.SQA_BIN_STAGE_BIN)
    (fun _ _ => s.get_lt F.SQA_BIN_STAGE_BIN) ?_
  have update := State.binUpdate_all (s := s.take (binAllWord v) binFields) (by rwa [link]) (store.trans ok)
  rw [stage] at update
  rw [binAllWord, all, age]
  exact update

theorem answers_binAge : let a := s.binBase + 8 * (192 * bits v.toNat 10 0 + 64 * bits v.toNat 12 11)
    Answers (.binAge who v) s (fun u =>
      (∀ b, b < 64 → memNat u.gm (a + 8 * b) 8 = setBit (memNat s.gm (a + 8 * b) 8) 56 true) ∧
      (∀ x, x < a ∨ a + 512 ≤ x → memByte u.gm x = memByte s.gm x) ∧ u.xm = s.xm) := by
  obtain ⟨-, link, -, -, -, store⟩ := s.take_binFields (binWord_age v)
  have age : bit (binAgeWord v).toNat 20 = true := bit_withFld_self _ F.SQA_BIN_UPD_AGE 1 rfl (by decide)
  refine answers_binUpd_bins h rfl (binWord_age v) (g := fun w => setBit w 56 true)
    (fun w hw => setBits_lt _ _ _ _ 64 (by decide) (by decide) hw) ?_
  change State.binUpdate _ _ (bit (binAgeWord v).toNat 20) = _
  rw [age]
  exact State.binUpdate_age (by rwa [← link] at hl) (store.trans ok) _

end

end Sys2Proof.Machine
end

section
/-! The statement ScheduleTables: the sweep of an epoch and the end of a TWT service period (R155, R159, R160), and with
them the whole statement. -/

namespace Sys2Proof.Machine

/-! ### The sweep of an epoch (R155) -/

theorem tabGet_unlisted {α : Type} (d : Nat → α) {t : Tab α} {k : Nat} (h : ∀ e ∈ t, e.1 ≠ k) :
    tabGet d t k = d k := by
  induction t with
  | nil => rfl
  | cons e t ih =>
    rw [tabGet, if_neg (h e List.mem_cons_self).symm, ih fun e he => h e (List.mem_cons_of_mem _ he)]

theorem memNat_unlisted {m : Mem} {a n : Nat} (h : ∀ e ∈ m, e.1 < a ∨ a + n ≤ e.1) : memNat m a n = 0 := by
  refine (memNat_of_bytes (v := 0) fun k hk => ?_).trans (Nat.zero_mod _)
  have zero : memByte m (a + k) = 0 := tabGet_unlisted memDflt fun e he => by have := h e he; omega
  rw [zero, byteOf, Nat.zero_div]
  rfl

theorem mem_dedup {x : Nat} {l seen : List Nat} : x ∈ dedup l seen ↔ x ∈ l ∧ x ∉ seen := by
  induction l generalizing seen with
  | nil => simp [dedup]
  | cons y l ih =>
    rw [dedup]
    split
    next hy =>
      rw [ih, List.mem_cons]
      have hy : y ∈ seen := by simpa using hy
      exact ⟨fun ⟨h, hx⟩ => ⟨.inr h, hx⟩, fun ⟨h, hx⟩ => ⟨h.resolve_left fun e => hx (e ▸ hy), hx⟩⟩
    next hy =>
      have hy : y ∉ seen := by simpa using hy
      rw [List.mem_cons, ih, List.mem_cons, List.mem_cons]
      by_cases e : x = y
      · simp [e, hy]
      · simp [e]

theorem nodup_dedup (l seen : List Nat) : (dedup l seen).Nodup := by
  induction l generalizing seen with
  | nil => exact List.nodup_nil
  | cons y l ih =>
    rw [dedup]
    split
    · exact ih seen
    · exact List.nodup_cons.2 ⟨fun h => (mem_dedup.1 h).2 List.mem_cons_self, ih _⟩

/-- The bin word `w` after a sweep. -/
def State.swept (s : State) (w : Nat) : Nat := if s.binAged w = true then setBit w 56 true else w

/-- The Granary with bin `k` swept. -/
def State.sweepBin (s : State) (k : Nat) (m : Mem) : Mem :=
  if s.binAged (memNat m (s.binBase + 8 * k) 8) then
    memPutNat m (s.binBase + 8 * k) 8 (setBit (memNat m (s.binBase + 8 * k) 8) 56 true)
  else m

section
variable (s : State)

theorem State.stored_sweepBin (k : Nat) (m : Mem) : Stored m (s.sweepBin k m) (s.binBase + 8 * k) 8
    (s.swept (memNat m (s.binBase + 8 * k) 8)) := by
  rw [State.sweepBin, State.swept]
  split
  · exact Stored.putNat m _ _ _
  · exact Stored.same m _ _

theorem State.binSweep_eq : s.binSweep = s.withGm (forEach s.sweepBins s.sweepBin s.gm) := by
  refine State.forEach_withGm (s := s) (fun k m => ?_) _ s.gm
  have base : (s.withGm m).binBase = s.binBase := by rw [State.binBase, State.withGm_get, State.binBase]
  have aged : ∀ w, (s.withGm m).binAged w = s.binAged w := fun w => by
    simp only [State.binAged, State.withGm_get]
  simp only [base, aged, State.withGm_gm, State.sweepBin]
  split <;> rfl

theorem State.get_binSweep (f : Fld) : s.binSweep.get f = s.get f := by rw [State.binSweep_eq, State.withGm_get]

variable {s}

theorem State.swept_lt {w : Nat} (h : w < 2 ^ 64) : s.swept w < 2 ^ 64 := by
  rw [State.swept]
  split
  · exact setBits_lt _ _ _ _ 64 (by decide) (by decide) h
  · exact h

variable (ok : s.binStoreOk = true)
include ok

theorem State.sweepBins_eq : s.sweepBins = if s.binAged 0 = true then List.range 393216 else
    dedup ((s.gm.filter (fun c => decide (s.binBase ≤ c.1 ∧ c.1 < s.binBase + 0x300000))).map
      (fun c => (c.1 - s.binBase) / 8)) [] := by
  rw [State.sweepBins, ok]
  rfl

theorem State.nodup_sweepBins : s.sweepBins.Nodup := by
  rw [State.sweepBins_eq ok]
  split
  · exact List.nodup_range
  · exact nodup_dedup _ _

theorem State.sweepBins_lt {k : Nat} (h : k ∈ s.sweepBins) : k < 393216 := by
  rw [State.sweepBins_eq ok] at h
  split at h
  · exact List.mem_range.1 h
  · obtain ⟨c, hc, rfl⟩ := List.mem_map.1 (mem_dedup.1 h).1
    obtain ⟨-, low, high⟩ := by simpa using hc
    omega

/-- A bin that the sweep passes over is not aged: its bytes are 0, and a bin of zeros is not stale. -/
theorem State.unaged_unswept {k : Nat} (hk : k < 393216) (h : k ∉ s.sweepBins) :
    s.binAged (memNat s.gm (s.binBase + 8 * k) 8) = false := by
  rw [State.sweepBins_eq ok] at h
  split at h
  · exact absurd (List.mem_range.2 hk) h
  next fresh =>
    have zero : memNat s.gm (s.binBase + 8 * k) 8 = 0 := by
      refine memNat_unlisted fun e he => ?_
      by_contra inside
      exact h (mem_dedup.2 ⟨List.mem_map.2
        ⟨e, List.mem_filter.2 ⟨he, decide_eq_true (by omega)⟩, by omega⟩, List.not_mem_nil⟩)
    rw [zero]
    exact Bool.eq_false_iff.2 fresh

/-- The sweep sets AGED in exactly the bins that are aged, and no other byte of the Granary changes. -/
theorem State.binSweep_shows : let m := forEach s.sweepBins s.sweepBin s.gm
    (∀ k, k < 393216 → memNat m (s.binBase + 8 * k) 8 = s.swept (memNat s.gm (s.binBase + 8 * k) 8)) ∧
    ∀ x, x < s.binBase ∨ s.binBase + 0x300000 ≤ x → memByte m x = memByte s.gm x := by
  refine ⟨fun k hk => ?_, fun x hx => ?_⟩
  · rw [memNat_forEach_stored (g := fun _ => s.swept) s.stored_sweepBin (State.nodup_sweepBins ok)]
    split
    next => exact Nat.mod_eq_of_lt (State.swept_lt (memNat_lt s.gm (s.binBase + 8 * k) 8))
    next passed => rw [State.swept, State.unaged_unswept ok hk passed, if_neg Bool.false_ne_true]
  · exact memByte_forEach_stored (g := fun _ => s.swept) s.stored_sweepBin (n := 393216)
      (fun k hk => State.sweepBins_lt ok hk) s.gm (by omega)

end

/-- The instant at which the present epoch ends. -/
def State.epochEnd (s : State) : Nat :=
  (s.now / (max 1 (s.get F.SQA_BIN_CFG_AGE_PERIOD) * second) + 1) * (max 1 (s.get F.SQA_BIN_CFG_AGE_PERIOD) * second)

theorem State.epochAdvance_eq (s : State) : s.epochAdvance
    = (s.until s.epochEnd).binSweep.put F.SQA_EPOCH_EPOCH ((s.get F.SQA_EPOCH_EPOCH + 1) % 64) := by
  have unfolds : s.epochAdvance = (s.until s.epochEnd).binSweep.put F.SQA_EPOCH_EPOCH
    (((s.until s.epochEnd).binSweep.get F.SQA_EPOCH_EPOCH + 1) % 64) := rfl
  rw [unfolds, State.get_binSweep, State.until_get]

theorem State.binAged_until (s : State) (t w : Nat) : (s.until t).binAged w = s.binAged w := by
  simp only [State.binAged, State.until_get]

theorem answers_epochAdvance {s : State} (h : s.running 11 = true) (ok : s.binStoreOk = true) :
    Answers .epochAdvance s (fun u => u.time = (s.until s.epochEnd).time ∧
      u.get F.SQA_EPOCH_EPOCH = (s.get F.SQA_EPOCH_EPOCH + 1) % 64 ∧ u.xm = s.xm ∧ u.hts = s.hts ∧ u.air = s.air ∧
      (∀ k, k < 393216 → let w := memNat s.gm (s.binBase + 8 * k) 8
        memNat u.gm (s.binBase + 8 * k) 8 = if s.binAged w = true then setBit w 56 true else w) ∧
      ∀ x, x < s.binBase ∨ s.binBase + 0x300000 ≤ x → memByte u.gm x = memByte s.gm x) := by
  have advance := s.epochAdvance_eq
  generalize s.epochEnd = t at advance ⊢
  have base : (s.until t).binBase = s.binBase := by rw [State.binBase, State.binBase, State.until_get]
  have store : (s.until t).binStoreOk = s.binStoreOk := by rw [State.binStoreOk, State.binStoreOk, base]
  have swept : ∀ w, (s.until t).swept w = s.swept w := fun w => by rw [State.swept, State.swept, State.binAged_until]
  obtain ⟨bins, out⟩ := State.binSweep_shows (store.trans ok)
  generalize hm : forEach (s.until t).sweepBins (s.until t).sweepBin (s.until t).gm = m at bins out
  rw [State.binSweep_eq, hm] at advance
  have quiet : ((s.until t).withGm m).quiet = true :=
    (State.quiet_withGm _ m).trans ((s.quiet_until t).trans ((s.running_iff _).1 h).1)
  refine (completes_whenOn rfl h advance ((State.quiet_put _ _ _).trans quiet)).answers ?_
  rw [base, State.until_gm] at bins out
  rw [State.close_time, State.close_get, State.close_xm, State.close_hts, State.close_air, State.close_gm,
    State.put_time, State.put_xm, State.put_hts, State.put_air, State.put_gm, State.get_put_self _ _ _ (by decide),
    State.withGm_time, State.withGm_xm, State.withGm_hts, State.withGm_air, State.withGm_gm]
  exact ⟨rfl, Nat.mod_mod _ _, s.until_xm t, s.until_hts t, s.until_air t, fun k hk => (bins k hk).trans (swept _), out⟩

/-! ### The end of a TWT service period (R159, R160) -/

/-- The instant at which a service period of `spd` µs of station `st` on link `n` ends. -/
def State.twtEnd (s : State) (st n spd : Nat) : Nat := ((s.now : Int) + 1000 * max 0 ((spd : Int) - s.twtDelta st n)).toNat

/-- How many wake intervals of `wi` µs move TWT_NEXT past the present. -/
def State.twtHops (s : State) (st n spd wi : Nat) : Nat := max 1 ((((s.twtDelta st n - spd) / (wi : Int)) + 1).toNat)

/-- The service period brought the station nothing, though it had work. -/
def State.twtMissed (s : State) (st n : Nat) : Bool := s.hasWork n st && !(s.sqa n).served.contains st

/-- Schedule state once the service period of station `st` is over. -/
def SqAir.unserved (x : SqAir) (st : Nat) : SqAir := { x with served := x.served.filter (· != st) }

/-- TWT_NEXT of station `st` has moved on by `d` µs, and the miss is counted. -/
def State.twtMoved (s : State) (st n d : Nat) : State :=
  let t := s.setSqa n ((s.sqa n).unserved st)
  (t.staPut st 0x18 4 ((t.staNat st 0x18 4 + d) % 2 ^ 32)).bump (F.SQ_TCNT_MISS n) (b2n (s.twtMissed st n))

theorem State.twtSpEnd_inactive {s : State} {st : Nat} (h : bits (s.staNat st 0x14 4) 17 16 = 3 ∨
    s.twtActive st (bits (s.staNat st 0x14 4) 17 16) = false) : s.twtSpEnd st = s := by
  rw [State.twtSpEnd, if_neg]
  rintro ⟨low, active⟩
  rcases h with h | h
  · omega
  · exact Bool.false_ne_true (h.symm.trans active)

theorem State.staNat_until (s : State) (t st off k : Nat) : (s.until t).staNat st off k = s.staNat st off k := by
  rw [State.staNat, State.staNat, State.staBase, State.staBase, State.until_gm, State.until_get]

theorem State.twtSpEnd_active {s x : State} {st n spd wi : Nat} (hn : bits (s.staNat st 0x14 4) 17 16 = n) (h3 : n < 3)
    (h : s.twtActive st n = true) (hspd : bits (s.staNat st 0x14 4) 15 0 = spd) (hwi : s.staNat st 0x10 4 = wi)
    (hx : s.until (s.twtEnd st n spd) = x) :
    s.twtSpEnd st = (x.twtMoved st n (x.twtHops st n spd wi * wi)).raiseIf (x.twtMissed st n) (37 + 8 * n) := by
  subst hn hspd hwi hx
  rw [State.twtSpEnd, if_pos ⟨h3, h⟩]
  rfl

section
variable (s : State) (st n d : Nat)

theorem State.twtMoved_keeps : (s.twtMoved st n d).quiet = s.quiet ∧ (s.twtMoved st n d).time = s.time := by
  rw [State.twtMoved, State.quiet_bump, State.bump_time]
  exact ⟨rfl, rfl⟩

theorem State.twtMoved_stored : Stored s.gm (s.twtMoved st n d).gm (s.staBase + 32 * st + 0x18) 4
    ((s.staNat st 0x18 4 + d) % 2 ^ 32) := by
  rw [State.twtMoved, State.bump_gm]
  exact Stored.putNat _ _ _ _

theorem State.get_staPut_setSqa (x : SqAir) (off k v : Nat) (f : Fld) : ((s.setSqa n x).staPut st off k v).get f = s.get f :=
  State.get_congr (s := (s.setSqa n x).staPut st off k v) (t := s) rfl f

theorem State.twtMoved_miss : (s.twtMoved st n d).get (F.SQ_TCNT_MISS n)
    = (s.bump (F.SQ_TCNT_MISS n) (b2n (s.twtMissed st n))).get (F.SQ_TCNT_MISS n) :=
  State.get_bump_congr (by simp [F.SQ_TCNT_MISS]) (s.get_staPut_setSqa _ _ _ _ _ _ _) _

/-- The fault collector's registers stand. -/
theorem State.twtMoved_countsOnly (hn : n < 3) (k : Nat) : (s.twtMoved st n d).countsOnly k = s.countsOnly k :=
  State.countsOnly_congr (fun f hf => (State.get_bump_ne _ _ _ _ (.inl (by simp only [F.SQ_TCNT_MISS]; omega))).trans
    (s.get_staPut_setSqa _ _ _ _ _ _ _)) k

end

/-- A counter that counts nothing stands. -/
theorem State.get_bump_zero (s : State) {f : Fld} (hf : f.lo ≤ f.hi) : (s.bump f 0).get f = s.get f := by
  have := s.get_lt f
  rw [State.get_bump_self _ _ _ hf]
  omega

theorem answers_twtSpEnd {st : BitVec 11} {s x : State} {n spd wi : Nat} (h : s.running 11 = true)
    (hn : bits (s.staNat st.toNat 0x14 4) 17 16 = n) (hspd : bits (s.staNat st.toNat 0x14 4) 15 0 = spd)
    (hwi : s.staNat st.toNat 0x10 4 = wi) (hx : s.until (s.twtEnd st.toNat n spd) = x) (h3 : n < 3)
    (active : s.twtActive st.toNat n = true) :
    let missed := x.hasWork n st.toNat = true ∧ (s.sqa n).served.contains st.toNat = false
    let moved := fun (u : State) => u.time = x.time ∧ Stored s.gm u.gm (s.staBase + 32 * st.toNat + 0x18) 4
      ((s.staNat st.toNat 0x18 4 + x.twtHops st.toNat n spd wi * wi) % 2 ^ 32)
    (¬ missed → Answers (.twtSpEnd st) s (fun u => moved u ∧ u.get (F.SQ_TCNT_MISS n) = s.get (F.SQ_TCNT_MISS n))) ∧
    (missed → s.countsOnly (37 + 8 * n) = true → Answers (.twtSpEnd st) s (fun u => moved u ∧
      u.get (F.SQ_TCNT_MISS n) = (s.bump (F.SQ_TCNT_MISS n) 1).get (F.SQ_TCNT_MISS n) ∧
      u.on (F.FLT_SRC_STICKY (37 + 8 * n)) = true)) := by
  intro missed moved
  obtain ⟨hq, hd⟩ := (s.running_iff _).1 h
  have ends := State.twtSpEnd_active hn h3 active hspd hwi hx
  have served : (x.sqa n).served = (s.sqa n).served := by rw [← hx, State.sqa_until]
  have outcome : x.twtMissed st.toNat n = true ↔ missed := by simp [State.twtMissed, served, missed]
  have regs : x.regs = s.regs := by rw [← hx, State.until_regs]
  obtain ⟨quiet, time⟩ := x.twtMoved_keeps st.toNat n (x.twtHops st.toNat n spd wi * wi)
  have stored := x.twtMoved_stored st.toNat n (x.twtHops st.toNat n spd wi * wi)
  have miss := x.twtMoved_miss st.toNat n (x.twtHops st.toNat n spd wi * wi)
  have counts := x.twtMoved_countsOnly st.toNat n (x.twtHops st.toNat n spd wi * wi) h3 (37 + 8 * n)
  generalize x.twtMoved st.toNat n (x.twtHops st.toNat n spd wi * wi) = u at *
  have calm : u.quiet = true := by rw [quiet, ← hx, State.quiet_until, hq]
  have moves : Stored s.gm u.gm (s.staBase + 32 * st.toNat + 0x18) 4
      ((s.staNat st.toNat 0x18 4 + x.twtHops st.toNat n spd wi * wi) % 2 ^ 32) := by
    rw [← hx] at stored ⊢
    rwa [State.until_gm, State.staNat_until, State.staBase, State.until_get, ← State.staBase] at stored
  refine ⟨fun useful => ?_, fun useless hn => ?_⟩
  · rw [Bool.eq_false_iff.2 (mt outcome.1 useful)] at ends miss
    refine (completes_whenOn rfl h ends calm).answers ?_
    rw [State.close_get, miss]
    exact ⟨⟨(u.close_time).trans time, by rwa [State.close_gm]⟩,
      (State.get_bump_zero _ (by simp [F.SQ_TCNT_MISS])).trans (State.get_congr regs _)⟩
  · rw [outcome.2 useless] at ends miss
    have counted : u.countsOnly (37 + 8 * n) = true :=
      counts.trans ((State.countsOnly_congr (fun f _ => State.get_congr regs f) _).trans hn)
    have raises : s.whenOn 11 (fun s => s.twtSpEnd st.toNat) = u.raise (37 + 8 * n) := (State.whenOn_on hd _).trans ends
    refine (completes_of_raise (c := .twtSpEnd st) (congrArg done raises) rfl calm counted).answers ⟨⟨?_, ?_⟩, ?_, ?_⟩
    · rw [State.close_time, State.counted_eq]
      exact time
    · rwa [State.close_gm, State.counted_gm]
    · rw [State.close_get, State.get_counted_below _ _ (by simp only [F.SQ_TCNT_MISS]; omega), miss]
      exact State.get_bump_congr (by simp [F.SQ_TCNT_MISS]) (State.get_congr regs _) 1
    · rw [State.close_on, State.on, State.get_counted_sticky]
      rfl

/-- Settles O19: each command by what its operation shows. -/
theorem scheduleTables : Obligations.ScheduleTables := by
  unfold Obligations.ScheduleTables
  refine ⟨fun n s hr hn => ⟨?_, fun t byPhase ht => ?_⟩, fun who v s h ok => answers_staUpdate h ok,
    fun who v s h => ⟨fun ok hl => ⟨answers_binUpdate h ok hl, answers_binUpdateAll h ok hl, answers_binAge h ok hl⟩,
      answers_binAbsent h⟩,
    fun s hr ok => answers_epochAdvance hr ok, fun st s hr => ⟨fun idle => ?_, fun h3 active => ?_, fun h3 active => ?_⟩⟩
  · exact fun byPeriod => answers_cycleBoundary hr hn (State.cycleBoundary_byPeriod byPeriod)
  · exact answers_cycleBoundary hr hn (State.cycleBoundary_byPhase byPhase ht)
  · exact completes_whenOn rfl hr (State.twtSpEnd_inactive idle) ((s.running_iff _).1 hr).1
  · exact (answers_twtSpEnd hr rfl rfl rfl rfl h3 active).1
  · exact (answers_twtSpEnd hr rfl rfl rfl rfl h3 active).2

end Sys2Proof.Machine
end
